-- ==== Sys2Proof/Word.lean ====
section
/-! DEFINITION. The byte type and the plainest number helpers: little-endian bytes (R8), bit fields of a
number (R7), saturating counters (R13) and counters that wrap. -/

namespace Sys2Proof

/-- One byte of a memory. -/
abbrev Byte := BitVec 8

/-- The number that bits `[lo + wid - 1 : lo]` of `v` hold (R7). -/
def bitsOf (v lo wid : Nat) : Nat := v / 2 ^ lo % 2 ^ wid

/-- Bit `n` of `v` (R7). -/
def bitOf (v n : Nat) : Bool := v / 2 ^ n % 2 == 1

/-- 1 for true, 0 for false: how a register shows a condition. -/
def b2n (b : Bool) : Nat := if b then 1 else 0

/-- The number a little-endian byte string spells (R8). -/
def leNat : List Byte → Nat
  | [] => 0
  | b :: r => b.toNat + 256 * leNat r

/-- The `n` little-endian bytes of a number (R8). -/
def leBytes : Nat → Nat → List Byte
  | 0, _ => []
  | n + 1, v => BitVec.ofNat 8 v :: leBytes n (v / 256)

/-- The number in bytes `at` to `at + n - 1` of a byte string; bytes past its end read zero. -/
def fieldAt (l : List Byte) (at' n : Nat) : Nat := leNat ((l.drop at').take n)

/-- Whether every byte of a string is zero. -/
def allZero (l : List Byte) : Bool := l.all (fun b => b == 0)

/-- A counter of `wid` bits that saturates at its all-ones value (R13). -/
def satAdd (wid v n : Nat) : Nat := min (v + n) (2 ^ wid - 1)

/-- A counter of `wid` bits that wraps. -/
def wrapAdd (wid v n : Nat) : Nat := (v + n) % 2 ^ wid

/-- `n` bytes of one value. -/
def fill (n : Nat) (b : Byte) : List Byte := List.replicate n b

/-- A byte string cut, or filled with zeros, to exactly `n` bytes. -/
def padTo (n : Nat) (l : List Byte) : List Byte := (l ++ fill (n - l.length) 0).take n

/-- The list with element `i` replaced. -/
def setAt {α : Type} (l : List α) (i : Nat) (x : α) : List α := l.set i x

end Sys2Proof
end

