-- ==== Sys2Proof/Syntax.lean ====
section
/-! DEFINITION. The commands of the block: one constructor of `Instr` per row of spec/opcode_table.json, with the
operands each row takes from outside the die, and the types of those operands. -/

namespace Sys2Proof

/-- Who makes a register access: the host through BAR0 of a function (0 the PF, 1-15 a VF, R646), or Bench firmware. -/
inductive Src where
  | host (f : Fin 16)
  | bench
  deriving DecidableEq, Repr

/-- The strap pins as sampled at the rise of PORST_N (R59), with the die serial number read from fuse. -/
structure Straps where
  role : Fin 4
  harvCap : Bool
  d2dSel : Bool
  pkgPos : Bool
  smbAddr : Fin 4
  testEn : Bool
  deriving DecidableEq, Repr

/-- What firmware reads from fuse at step 4 of R75: the plots marked good and each plot's store sizes in rows
(R82, R257), the die serial number and the minimum security version. -/
structure Fuses where
  good : Nat
  wsRows : List Nat
  asRows : List Nat
  psRows : List Nat
  serial : Nat
  minSecVer : Nat
  deriving DecidableEq, Repr

/-- The outcome of checking one boot image (R79): the FAIL_REASON (0 when valid), its version and its security
version. The cryptography of the check is outside the spec; its outcome is an input. -/
structure ImageCheck where
  reason : Nat
  version : Nat
  secVersion : Nat
  deriving DecidableEq, Repr

/-- What the device's own PCIe reads of a host buffer return (R144, R185): the bytes, or `none` when a read fails. -/
abbrev HostBuf := Option (List Byte)

/-- What caused a host reset (R91, R98). -/
inductive HostResetKind where
  | perst | hotReset | linkDown
  deriving DecidableEq, Repr

/-- The power-good input that fell (R57). -/
inductive Rail where
  | main | vcore
  deriving DecidableEq, Repr

/-- The staged sets of R130, each with its commit register. -/
inductive StagedSet where
  | rkeDt (plot : Fin 16) (ctx : Fin 4)
  | vec (plot : Fin 16) (ctx : Fin 4)
  | prioSplit
  | coal (f : Fin 16)
  | sivDir (t : Fin 256)
  | furGeo (unit : Fin 6) (t : Fin 256)
  | rwcParam
  | vcMap (port : Fin 8)
  | route (port : Fin 8)
  | grfEnt (unit : Fin 8)
  | tariff
  deriving DecidableEq, Repr

/-- The direct pairs of R133. -/
inductive DirectPair where
  | vid
  | pin
  | timer (n : Fin 8)
  | flashErase
  deriving DecidableEq, Repr

/-- A Ciskaca packet: the header cell of R481 with its type fields (bytes 8-15 as one little-endian number), whether a
reserved header field is nonzero, and the body. -/
structure Packet where
  typ : Nat
  vc : Nat
  len : Nat
  first : Bool
  last : Bool
  dstDie : Nat
  srcDie : Nat
  dstAgent : Nat
  srcAgent : Nat
  epoch : Nat
  tf : Nat
  resv : Bool
  body : List Byte
  deriving DecidableEq, Repr

/-- Bytes `i` to `i + n - 1` (8 ≤ i) of a packet's header cell. -/
def Packet.tfb (p : Packet) (i n : Nat) : Nat := bitsOf p.tf (8 * (i - 8)) (8 * n)

/-- A block as the receiver sees it after the Reed-Solomon decoder (R473, R474): the header fields, the 400-byte
frame area, the symbols corrected and whether a codeword was uncorrectable. -/
structure Block where
  kind : Nat
  seq : Nat
  ack : Nat
  epoch : Nat
  poolA : Nat
  cellsA : Nat
  poolB : Nat
  cellsB : Nat
  firstHdr : Nat
  frame : List Byte
  corrected : Nat
  uncorrectable : Bool
  deriving DecidableEq, Repr

/-- A LINK message (R497). -/
structure LinkMsg where
  serial : Nat
  pkgPos : Nat
  port : Nat
  role : Nat
  dieId : Nat
  idValid : Bool
  epoch : Nat
  routeCommitted : Bool
  enabled : Bool
  lastSeq : Nat
  quarantine : Bool
  retrainReq : Bool
  naks : List (Nat × Nat)
  deriving DecidableEq, Repr

/-- What error protection finds on one read (R274, R617): nothing, a corrected error, or an uncorrectable one in the
code word of that number of the row (of the unit read, in HBM). -/
inductive EccEvent where
  | clean | corrected | uncorrectable (word : Nat)
  deriving DecidableEq, Repr

/-- A parity error found by an array step: none, in the current weight plane or in the accumulator plane. -/
inductive Upset where
  | none | weight | acc
  deriving DecidableEq, Repr

/-- The stores of a plot (R256). -/
inductive StoreId where
  | ws | as | ps
  deriving DecidableEq, Repr

/-- An access that an agent of a plot offers to a store's issue arbiter (R259, R260): the agent as `STO_ERR.AGENT`
numbers it, its context, the row, and for a write the bytes and their mask; `waitTag` is the tag state a tagged
read waits for, `ecc` what the error code finds. -/
structure StoreAccess where
  agent : Nat
  ctx : Nat
  store : StoreId
  row : Nat
  write : Bool
  waitTag : Bool
  clearTag : Bool
  data : List Byte
  mask : List Bool
  ecc : EccEvent
  deriving DecidableEq, Repr

/-- The wake sources of R525. -/
inductive WakeSource where
  | gpi (n : Fin 4)
  | rtc
  | timer (n : Fin 8)
  | smbus
  | powerCut
  deriving DecidableEq, Repr

/-- What the flash code finds while a range is read (R573): segments corrected, and the first segment with an
uncorrectable error, if any. -/
structure FlashEcc where
  corrected : Nat
  bad : Option (Fin 131072)
  deriving DecidableEq, Repr

/-- A leased resource of R624 that an authority may fence. -/
inductive LeaseRef where
  | window (plot : Fin 16) (w : Fin 16)
  | writer (tkey : Nat) (writer : Nat)
  | rowLocks (unit : Fin 6)
  deriving DecidableEq, Repr

/-- The commands: one constructor per row of spec/opcode_table.json, in its order. -/
inductive Instr where
  /-- REGISTER_WRITE (R9). -/
  | registerWrite (src : Src) (addr len value : Nat)
  /-- ISLAND_RAILS_UP (R51). -/
  | islandRailsUp
  /-- PORST_N_RISE (R75). -/
  | porstNRise (straps : Straps)
  /-- PORST_N_FALL (R58). -/
  | porstNFall
  /-- PORST_N_HOLDOFF_EXPIRY (R58). -/
  | porstNHoldoffExpiry
  /-- REFCLK_CHECK_TIMEOUT (R63). -/
  | refclkCheckTimeout
  /-- BOOT_IMAGE_VERIFIED (R79). -/
  | bootImageVerified (a b : ImageCheck)
  /-- MAIN_PG_RISE (R51). -/
  | mainPgRise
  /-- MAIN_PG_TIMEOUT (R51). -/
  | mainPgTimeout
  /-- VCORE_PG_RISE (R75). -/
  | vcorePgRise (fuses : Fuses)
  /-- VCORE_PG_TIMEOUT (R51). -/
  | vcorePgTimeout
  /-- PLOT_BIST_COMPLETE (R82). -/
  | plotBistComplete (fail : Nat)
  /-- HBM_TRAINING_COMPLETE (R87). -/
  | hbmTrainingComplete (best : List Nat)
  /-- HBM_CLEAR_COMPLETE (R88). -/
  | hbmClearComplete
  /-- RUN_MODE_ENTRY (R103). -/
  | runModeEntry
  /-- PERST_N_RELEASE (R89). -/
  | perstNRelease
  /-- PCIE_CONFIG_READY (R89). -/
  | pcieConfigReady
  /-- HOST_RESET (R98). -/
  | hostReset (kind : HostResetKind)
  /-- FLR (R98). -/
  | flr (f : Fin 16)
  /-- PWRFAIL_N_FALL (R55). -/
  | pwrfailNFall
  /-- POWER_CUT (R56). -/
  | powerCut
  /-- MAIN_LOSS (R57). -/
  | mainLoss (rail : Rail)
  /-- THERMAL_TRIP (R65). -/
  | thermalTrip (sensor : Fin 32) (temp : Nat)
  /-- VCORE_BROWNOUT (R49). -/
  | vcoreBrownout
  /-- VID_STEP (R48). -/
  | vidStep
  /-- TSENS_UPDATE (R65). -/
  | tsensUpdate (sensor : Fin 33) (temp : Nat)
  /-- REPLICA_UPDATE (R110). -/
  | replicaUpdate (plot : Fin 16) (rate : Nat)
  /-- PACE_SNAP (R107). -/
  | paceSnap (src : Src)
  /-- PACE_AUTO_SNAP (R107). -/
  | paceAutoSnap
  /-- PACE_SNAP_COMPLETE (R107). -/
  | paceSnapComplete
  /-- COMMIT (R125). -/
  | commit (src : Src) (set : StagedSet)
  /-- DISCARD (R128). -/
  | discard (src : Src) (set : StagedSet)
  /-- STAGED_SET_EFFECT (R125). -/
  | stagedSetEffect (set : StagedSet)
  /-- DIRECT_PAIR_WRITE (R134). -/
  | directPairWrite (src : Src) (pair : DirectPair) (second : Bool) (value : Nat)
  /-- DOORBELL (R156). -/
  | doorbell (f : Fin 16) (pi : Nat)
  /-- RING_ENTRY_WRITE (R158). -/
  | ringEntryWrite (f : Fin 16) (offset : Nat) (data : List Byte)
  /-- RETIRE (R163). -/
  | retire (f : Fin 16) (slot : Fin 128) (tag : Nat)
  /-- RING_ENABLE (R170). -/
  | ringEnable (f : Fin 16)
  /-- RING_DISABLE (R170). -/
  | ringDisable (f : Fin 16)
  /-- EVQ_ENABLE (R170). -/
  | evqEnable (f : Fin 16)
  /-- EVQ_DISABLE (R170). -/
  | evqDisable (f : Fin 16)
  /-- EVQ_CI_WRITE (R169). -/
  | evqCiWrite (f : Fin 16) (ci : Nat)
  /-- VIOL_CNT_CLEAR (R172). -/
  | violCntClear (f : Fin 16)
  /-- EVQ_LOST_CLEAR (R168). -/
  | evqLostClear (f : Fin 16)
  /-- COMMAND_FETCH (R187). -/
  | commandFetch
  /-- RESULT_POST (R162). -/
  | resultPost (f : Fin 16) (slot : Fin 128)
  /-- MSIX_UNMASK (R176). -/
  | msixUnmask (f : Fin 16) (v : Fin 128)
  /-- BAR2_READ (R179). -/
  | bar2Read (f : Fin 16) (offset len : Nat)
  /-- BAR2_WRITE (R177). -/
  | bar2Write (f : Fin 16) (offset : Nat) (data : List Byte) (enables : List Bool)
  /-- BAR2_RESIZE (R178). -/
  | bar2Resize (log2Size : Nat)
  /-- DEV_INFO (R194). -/
  | devInfo (f : Fin 16) (slot : Fin 128)
  /-- DEV_RESET (R195). -/
  | devReset (f : Fin 16) (slot : Fin 128)
  /-- FABRIC_RESET_COMPLETE (R97). -/
  | fabricResetComplete
  /-- FABRIC_RESET_TIMEOUT (R633). -/
  | fabricResetTimeout
  /-- MODE_OPEN (R196). -/
  | modeOpen (f : Fin 16) (slot : Fin 128)
  /-- MODE_RUN (R95). -/
  | modeRun (f : Fin 16) (slot : Fin 128)
  /-- TENANT_ASSIGN (R197). -/
  | tenantAssign (f : Fin 16) (slot : Fin 128)
  /-- WIN_SET (R198). -/
  | winSet (f : Fin 16) (slot : Fin 128)
  /-- JOB_LOAD (R200). -/
  | jobLoad (f : Fin 16) (slot : Fin 128) (buf : HostBuf)
  /-- JOB_START (R201). -/
  | jobStart (f : Fin 16) (slot : Fin 128) (buf : HostBuf)
  /-- JOB_START_HOLD_EXPIRY (R637). -/
  | jobStartHoldExpiry (f : Fin 16) (slot : Fin 128)
  /-- JOB_SUBMIT (R206). -/
  | jobSubmit (f : Fin 16) (slot : Fin 128)
  /-- BATCH_INPUT_STAGE (R206). -/
  | batchInputStage (job : Fin 16) (data : HostBuf)
  /-- BATCH_INPUT_COPIED (R206). -/
  | batchInputCopied (job : Fin 16)
  /-- BATCH_DONE_SIGNAL (R388). -/
  | batchDoneSignal (job : Fin 16)
  /-- BATCH_OUTPUT_COPIED (R206). -/
  | batchOutputCopied (job : Fin 16) (accepted : Bool)
  /-- JOB_WAIT (R202). -/
  | jobWait (f : Fin 16) (slot : Fin 128)
  /-- JOB_ABORT (R204). -/
  | jobAbort (f : Fin 16) (slot : Fin 128)
  /-- JOB_ABORT_DRAINED (R204). -/
  | jobAbortDrained (job : Fin 16)
  /-- JOB_UNLOAD (R204). -/
  | jobUnload (f : Fin 16) (slot : Fin 128)
  /-- JOB_STATUS (R199). -/
  | jobStatus (f : Fin 16) (slot : Fin 128)
  /-- TBL_DEFINE (R407). -/
  | tblDefine (f : Fin 16) (slot : Fin 128) (buf : HostBuf)
  /-- TBL_DELETE (R423). -/
  | tblDelete (f : Fin 16) (slot : Fin 128)
  /-- TBL_SYNC (R213). -/
  | tblSync (f : Fin 16) (slot : Fin 128)
  /-- TBL_SWITCH (R419). -/
  | tblSwitch (f : Fin 16) (slot : Fin 128)
  /-- TABLE_SWITCH_BOUNDARY (R419). -/
  | tableSwitchBoundary (tkey : Nat)
  /-- TBL_STATS (R211). -/
  | tblStats (f : Fin 16) (slot : Fin 128)
  /-- CAL_SCALES (R521). -/
  | calScales (f : Fin 16) (slot : Fin 128) (buf : HostBuf)
  /-- CAL_STATS (R521). -/
  | calStats (f : Fin 16) (slot : Fin 128)
  /-- PWR_STATUS (R216). -/
  | pwrStatus (f : Fin 16) (slot : Fin 128)
  /-- PWR_TARIFF (R217). -/
  | pwrTariff (f : Fin 16) (slot : Fin 128) (buf : HostBuf)
  /-- PWR_LIMITS (R217). -/
  | pwrLimits (f : Fin 16) (slot : Fin 128)
  /-- PWR_ENERGY (R609). -/
  | pwrEnergy (f : Fin 16) (slot : Fin 128)
  /-- FW_INFO (R218). -/
  | fwInfo (f : Fin 16) (slot : Fin 128) (img : ImageCheck)
  /-- FW_WRITE (R219). -/
  | fwWrite (f : Fin 16) (slot : Fin 128) (buf : HostBuf)
  /-- FW_VERIFY (R219). -/
  | fwVerify (f : Fin 16) (slot : Fin 128) (img : ImageCheck)
  /-- FW_ACTIVATE (R220). -/
  | fwActivate (f : Fin 16) (slot : Fin 128) (img : ImageCheck)
  /-- FW_SWAP (R546). -/
  | fwSwap (f : Fin 16) (slot : Fin 128) (img : ImageCheck)
  /-- SEAM_IMAGE_LOADED (R546). -/
  | seamImageLoaded (img : ImageCheck)
  /-- FLASH_READ (R586). -/
  | flashRead (f : Fin 16) (slot : Fin 128) (ecc : FlashEcc)
  /-- FLASH_PROGRAM (R586). -/
  | flashProgram (f : Fin 16) (slot : Fin 128) (buf : HostBuf)
  /-- FLASH_ERASE (R586). -/
  | flashErase (f : Fin 16) (slot : Fin 128)
  /-- LOG_READ (R587). -/
  | logRead (f : Fin 16) (slot : Fin 128) (ecc : FlashEcc)
  /-- EVT_ROUTE (R222). -/
  | evtRoute (f : Fin 16) (slot : Fin 128)
  /-- EVT_COALESCE (R222). -/
  | evtCoalesce (f : Fin 16) (slot : Fin 128)
  /-- DIAG_ECHO (R223). -/
  | diagEcho (f : Fin 16) (slot : Fin 128)
  /-- DIAG_REG_READ (R224). -/
  | diagRegRead (f : Fin 16) (slot : Fin 128)
  /-- DIAG_SELFTEST (R224). -/
  | diagSelftest (f : Fin 16) (slot : Fin 128) (fail : Option Nat)
  /-- LINK_STATUS (R223). -/
  | linkStatus (f : Fin 16) (slot : Fin 128)
  /-- LINK_SET_ID (R484). -/
  | linkSetId (f : Fin 16) (slot : Fin 128)
  /-- LINK_ROUTE (R487). -/
  | linkRoute (f : Fin 16) (slot : Fin 128) (buf : HostBuf)
  /-- LINK_ENABLE (R225). -/
  | linkEnable (f : Fin 16) (slot : Fin 128)
  /-- INSTALL (R209). -/
  | install (pkts : List Packet)
  /-- READY (R209). -/
  | ready (pkt : Packet)
  /-- GO (R209). -/
  | go (pkt : Packet)
  /-- START_ABORT (R210). -/
  | startAbort (pkt : Packet)
  /-- START_TIMEOUT (R210). -/
  | startTimeout (job : Fin 16)
  /-- RELEASE (R628). -/
  | release (pkt : Packet)
  /-- EPOCH_ADV_MESSAGE (R439). -/
  | epochAdvMessage (pkt : Packet)
  /-- NOP (R292). -/
  | nop (plot : Fin 16) (ctx : Fin 4)
  /-- HALT (R291). -/
  | halt (plot : Fin 16) (ctx : Fin 4)
  /-- HALT_RETIRE (R291). -/
  | haltRetire (plot : Fin 16) (ctx : Fin 4)
  /-- SETL (R292). -/
  | setl (plot : Fin 16) (ctx : Fin 4)
  /-- LOOP (R292). -/
  | loopDec (plot : Fin 16) (ctx : Fin 4)
  /-- JUMP (R292). -/
  | jump (plot : Fin 16) (ctx : Fin 4)
  /-- LDT (R308). -/
  | ldt (plot : Fin 16) (ctx : Fin 4)
  /-- MATMUL (R300). -/
  | matmul (plot : Fin 16) (ctx : Fin 4)
  /-- ARRAY_STEP (R245). -/
  | arrayStep (plot : Fin 16) (upset : Upset)
  /-- SHADOW_LOAD_COMPLETE (R240). -/
  | shadowLoadComplete (plot : Fin 16)
  /-- BLOCK_COMPLETE (R302). -/
  | blockComplete (plot : Fin 16)
  /-- RESCALE_ACT (R249). -/
  | rescaleAct (plot : Fin 16)
  /-- VOP (R310). -/
  | vop (plot : Fin 16) (ctx : Fin 4)
  /-- DMA (R311). -/
  | dma (plot : Fin 16) (ctx : Fin 4)
  /-- DMA_DESCRIPTOR_START (R311). -/
  | dmaDescriptorStart (plot : Fin 16) (chan : Fin 8)
  /-- DMA_ROW (R311). -/
  | dmaRow (plot : Fin 16) (chan : Fin 8)
  /-- GATHER (R320). -/
  | gather (plot : Fin 16) (ctx : Fin 4)
  /-- COLLECTIVE (R322). -/
  | collective (plot : Fin 16) (ctx : Fin 4)
  /-- WAIT (R317). -/
  | wait (plot : Fin 16) (ctx : Fin 4)
  /-- SIGNAL (R315). -/
  | signal (plot : Fin 16) (ctx : Fin 4)
  /-- FENCE (R319). -/
  | fence (plot : Fin 16) (ctx : Fin 4)
  /-- FENCE_COMPLETE (R138). -/
  | fenceComplete (plot : Fin 16) (ctx : Fin 4)
  /-- REMOTE_WRITE_SEND (R314). -/
  | remoteWriteSend (plot : Fin 16) (counter : Fin 16)
  /-- RWRITE (R278). -/
  | rwrite (pkt : Packet)
  /-- CREDIT (R313). -/
  | credit (pkt : Packet)
  /-- CREDIT_RETURN (R281). -/
  | creditReturn (plot : Fin 16) (window : Fin 16)
  /-- STORE_ACCESS (R260). -/
  | storeAccess (plot : Fin 16) (acc : StoreAccess)
  /-- COALESCER_IDLE_FLUSH (R270). -/
  | coalescerIdleFlush (plot : Fin 16) (entry : Fin 16)
  /-- STORE_SCRUB (R276). -/
  | storeScrub (plot : Fin 16) (ecc : EccEvent)
  /-- STORE_CLEAR (R284). -/
  | storeClear (src : Src) (plot : Fin 16)
  /-- STORE_CLEAR_COMPLETE (R284). -/
  | storeClearComplete (plot : Fin 16)
  /-- DEBUG_ROW_READ (R286). -/
  | debugRowRead (src : Src) (plot : Fin 16) (word : Fin 64)
  /-- DEBUG_ROW_WRITE (R286). -/
  | debugRowWrite (src : Src) (plot : Fin 16) (word : Fin 64) (value : Nat)
  /-- NUM_CLEAR (R365). -/
  | numClear (src : Src) (plot : Fin 16) (mask : Nat)
  /-- SR_SEED_WRITE (R380). -/
  | srSeedWrite (src : Src) (plot : Fin 16) (die : Bool) (value : Nat)
  /-- SIGNAL_DELIVERY (R386). -/
  | signalDelivery (pkt : Packet)
  /-- ACK (R482). -/
  | ack (pkt : Packet)
  /-- NAK (R493). -/
  | nak (pkt : Packet)
  /-- QD_ARM (R383). -/
  | qdArm (src : Src) (g : Fin 16) (value : Nat)
  /-- QD_DISARM (R383). -/
  | qdDisarm (src : Src) (g : Fin 16)
  /-- QD_WINDOW_EXPIRY (R393). -/
  | qdWindowExpiry (g : Fin 16)
  /-- QUIET (R394). -/
  | quiet (pkt : Packet)
  /-- PROBE (R394). -/
  | probe (pkt : Packet)
  /-- QD_ANSWER (R394). -/
  | qdAnswer (pkt : Packet)
  /-- VERDICT (R397). -/
  | verdict (pkt : Packet)
  /-- SIEVE_BUFFER_GRANT (R427). -/
  | sieveBufferGrant (sieve : Fin 2)
  /-- SIEVE_SORT_COMPLETE (R429). -/
  | sieveSortComplete (sieve : Fin 2) (buf : Fin 4)
  /-- WAVE_START (R440). -/
  | waveStart (sieve : Fin 2) (buf : Fin 4)
  /-- GREQ (R441). -/
  | greq (pkts : List Packet)
  /-- FURROW_PART_POOLED (R442). -/
  | furrowPartPooled (unit : Fin 6)
  /-- SCRATCH (R441). -/
  | scratch (pkt : Packet)
  /-- BAG_COMBINE (R445). -/
  | bagCombine (sieve : Fin 2) (buf : Fin 4)
  /-- PREFETCH_BATCH (R448). -/
  | prefetchBatch (sieve : Fin 2)
  /-- PFETCH (R448). -/
  | pfetch (pkts : List Packet)
  /-- ROW_CACHE_FILL (R434). -/
  | rowCacheFill (fill : Nat)
  /-- CACHE_DECAY (R433). -/
  | cacheDecay
  /-- EPOCH_ADV (R439). -/
  | epochAdv (src : Src)
  /-- INVAL_ALL (R438). -/
  | invalAll (src : Src)
  /-- RWC_INV_KEY (R438). -/
  | rwcInvKey (src : Src) (tkey : Nat)
  /-- INVALIDATION_COMPLETE (R438). -/
  | invalidationComplete
  /-- UPDATE (R458). -/
  | update (pkts : List Packet)
  /-- END (R457). -/
  | updateEnd (pkt : Packet)
  /-- ROW_UPDATE (R462). -/
  | rowUpdate (unit : Fin 6) (ue : Bool)
  /-- LEASE (R460). -/
  | lease (pkt : Packet)
  /-- WRITER_STEP_TIMEOUT (R627). -/
  | writerStepTimeout (tkey : Nat)
  /-- ROW_LOCK_TIMEOUT (R627). -/
  | rowLockTimeout (unit : Fin 6)
  /-- BLOCK_TRANSMIT (R470). -/
  | blockTransmit (port : Fin 8)
  /-- DATA_BLOCK (R475). -/
  | dataBlock (port : Fin 8) (blk : Block)
  /-- RETRY_BLOCK (R475). -/
  | retryBlock (port : Fin 8) (blk : Block)
  /-- LINK_MESSAGE (R497). -/
  | linkMessage (port : Fin 8) (msg : LinkMsg)
  /-- LINK_MESSAGE_SEND (R497). -/
  | linkMessageSend (port : Fin 8)
  /-- PORT_TRAIN_RETRY (R92). -/
  | portTrainRetry (port : Fin 8)
  /-- PORT_TRAINED (R471). -/
  | portTrained (port : Fin 8) (degraded : Bool)
  /-- RETRAIN (R476). -/
  | retrain (port : Fin 8)
  /-- CSK_RETRAIN_REQUEST (R476). -/
  | cskRetrainRequest (src : Src) (port : Fin 8)
  /-- RETRAIN_COMPLETE (R476). -/
  | retrainComplete (port : Fin 8) (lastSeq : Nat)
  /-- RETRAIN_TIMEOUT (R476). -/
  | retrainTimeout (port : Fin 8)
  /-- UNQUAR (R494). -/
  | unquar (src : Src) (port : Fin 8)
  /-- PACKET_ROUTE (R488). -/
  | packetRoute
  /-- PACKET_LIFETIME_EXPIRY (R622). -/
  | packetLifetimeExpiry (index : Nat)
  /-- GRAFT_EGRESS_BLOCK (R506). -/
  | graftEgressBlock (unit : Fin 8)
  /-- COLL (R508). -/
  | coll (pkt : Packet)
  /-- GRAFT_WINDOW_END (R514). -/
  | graftWindowEnd (unit : Fin 8) (slot : Nat)
  /-- VERDICT_ROUND (R518). -/
  | verdictRound (plot : Fin 16) (ctx : Fin 4)
  /-- VERDICT_ROUND_COMPLETE (R517). -/
  | verdictRoundComplete (plot : Fin 16) (ctx : Fin 4)
  /-- LISTEN_ENTER (R524). -/
  | listenEnter (src : Src)
  /-- LISTEN_WAKE (R525). -/
  | listenWake (source : WakeSource)
  /-- REFERENCE_STABLE (R527). -/
  | referenceStable
  /-- RTC_TICK (R531). -/
  | rtcTick
  /-- RTC_ALARM (R531). -/
  | rtcAlarm
  /-- RTC_SET (R604). -/
  | rtcSet (src : Src) (sec : Nat)
  /-- TIMER_EXPIRY (R532). -/
  | timerExpiry (n : Fin 8)
  /-- TIMER_ENABLE (R533). -/
  | timerEnable (src : Src) (n : Fin 8)
  /-- TIMER_DISABLE (R533). -/
  | timerDisable (src : Src) (n : Fin 8)
  /-- EXP_CLR (R533). -/
  | expClr (src : Src) (n : Fin 8)
  /-- KICK (R530). -/
  | kick (src : Src)
  /-- WATCHDOG_EXPIRY (R530). -/
  | watchdogExpiry
  /-- GPI_EDGE (R534). -/
  | gpiEdge (n : Fin 4) (level : Bool)
  /-- SPI_START (R536). -/
  | spiStart (src : Src)
  /-- SPI_COMPLETE (R536). -/
  | spiComplete (miso : List Byte)
  /-- PDM_SAMPLE (R537). -/
  | pdmSample (port : Fin 2) (sample : Nat)
  /-- CME_START (R539). -/
  | cmeStart (src : Src)
  /-- CME_MATMUL (R540). -/
  | cmeMatmul (ecc : FlashEcc)
  /-- CME_ADD (R540). -/
  | cmeAdd (ecc : FlashEcc)
  /-- CME_LUT (R540). -/
  | cmeLut (ecc : FlashEcc)
  /-- CME_COPY (R540). -/
  | cmeCopy (ecc : FlashEcc)
  /-- CME_RAISE (R540). -/
  | cmeRaise (ecc : FlashEcc)
  /-- CME_END (R541). -/
  | cmeEnd (ecc : FlashEcc)
  /-- FORECAST_RUN (R542). -/
  | forecastRun
  /-- DORMANT_JOB_TRIGGER (R544). -/
  | dormantJobTrigger (trigger input : Nat)
  /-- BENCH_HALT (R529). -/
  | benchHalt (src : Src)
  /-- BENCH_RESUME (R529). -/
  | benchResume (src : Src)
  /-- BENCH_STEP (R529). -/
  | benchStep (src : Src)
  /-- SOURCE_REQUEST (R553). -/
  | sourceRequest (i : Fin 1023) (level : Bool) (data : Nat)
  /-- COALESCE_WINDOW_EXPIRY (R561). -/
  | coalesceWindowExpiry (f : Fin 16) (v : Fin 128)
  /-- BENCH_CLAIM (R557). -/
  | benchClaim (src : Src)
  /-- BENCH_COMPLETE (R558). -/
  | benchComplete (src : Src) (id : Nat)
  /-- FORCE (R553). -/
  | force (src : Src) (i : Fin 1023)
  /-- PENDING_CLEAR (R557). -/
  | pendingClear (src : Src) (i : Fin 1023)
  /-- FLC_CTL_ERASE (R574). -/
  | flcCtlErase (src : Src)
  /-- FLC_CTL_PROGRAM (R570). -/
  | flcCtlProgram (src : Src)
  /-- SECTOR_ERASE_COMPLETE (R569). -/
  | sectorEraseComplete (bank : Fin 2)
  /-- SEGMENT_PROGRAM_COMPLETE (R570). -/
  | segmentProgramComplete (bank : Fin 2) (verifyOk : Bool)
  /-- RCV_STATUS (R588). -/
  | rcvStatus (pecOk : Bool)
  /-- RCV_BEGIN (R588). -/
  | rcvBegin (data : List Byte) (pecOk : Bool)
  /-- RCV_DATA (R588). -/
  | rcvData (data : List Byte) (pecOk : Bool)
  /-- RCV_COMMIT (R588). -/
  | rcvCommit (data : List Byte) (pecOk : Bool) (img : ImageCheck)
  /-- POWER_SAMPLE (R589). -/
  | powerSample (core board : Nat)
  /-- LIMITER_STEP (R599). -/
  | limiterStep
  /-- GOVERNOR_LOOP (R601). -/
  | governorLoop
  /-- DEMAND_INTERVAL_CLOSE (R603). -/
  | demandIntervalClose
  /-- INTERVAL_LOG (R603). -/
  | intervalLog
  /-- ACCT_EN (R604). -/
  | acctEn
  /-- SMBUS_REGISTER_READ (R613). -/
  | smbusRegisterRead (port : Fin 2) (offset count : Nat)
  /-- SET_ENDPOINT_ID (R614). -/
  | setEndpointId (port : Fin 2) (eid : Nat)
  /-- GET_ENDPOINT_ID (R614). -/
  | getEndpointId (port : Fin 2)
  /-- GET_ENDPOINT_UUID (R614). -/
  | getEndpointUuid (port : Fin 2)
  /-- GET_MCTP_VERSION_SUPPORT (R614). -/
  | getMctpVersionSupport (port : Fin 2) (msgType : Nat)
  /-- GET_MESSAGE_TYPE_SUPPORT (R614). -/
  | getMessageTypeSupport (port : Fin 2)
  /-- GET_VENDOR_DEFINED_MESSAGE_SUPPORT (R614). -/
  | getVendorDefinedMessageSupport (port : Fin 2) (selector : Nat)
  /-- MCTP_UNSUPPORTED_CMD (R614). -/
  | mctpUnsupportedCmd (port : Fin 2) (cmd : Nat)
  /-- GET_POWER (R615). -/
  | getPower (port : Fin 2)
  /-- GET_ENERGY (R615). -/
  | getEnergy (port : Fin 2) (func back : Nat)
  /-- SET_TARIFF (R615). -/
  | setTariff (port : Fin 2) (persist : Nat) (data : List Byte)
  /-- SET_CAP (R615). -/
  | setCap (port : Fin 2) (watts : Nat)
  /-- SET_TIME (R615). -/
  | setTime (port : Fin 2) (sec : Nat)
  /-- READ_LOG (R615). -/
  | readLog (port : Fin 2) (log first count : Nat) (ecc : FlashEcc)
  /-- MODEL_WRITE (R615). -/
  | modelWrite (port : Fin 2) (addr : Nat) (data : List Byte)
  /-- MODEL_ERASE (R615). -/
  | modelErase (port : Fin 2) (first count : Nat)
  /-- READ_RESULT (R615). -/
  | readResult (port : Fin 2) (area : Nat)
  /-- MCTP_FW_WRITE (R615). -/
  | mctpFwWrite (port : Fin 2) (offset : Nat) (data : List Byte)
  /-- MCTP_FW_ACTIVATE (R615). -/
  | mctpFwActivate (port : Fin 2) (img : ImageCheck)
  /-- RESTART (R615). -/
  | restart (port : Fin 2)
  /-- HBM_SCRUB (R619). -/
  | hbmScrub (stack : Fin 6) (unit : Nat) (ecc : EccEvent)
  /-- HBM_CONTROLLER_FAULT (R633). -/
  | hbmControllerFault (stack : Fin 6)
  /-- LEASE_FENCE (R629). -/
  | leaseFence (lease : LeaseRef) (trigger : Nat)
  /-- DRAIN_EXPIRY (R629). -/
  | drainExpiry (index : Nat)
  /-- PWRFAIL_N_RISE (R55). -/
  | pwrfailNRise
  /-- ISLAND_RAILS_LOSS (R100). -/
  | islandRailsLoss
  /-- RTC_CRYSTAL_STOP (R64). -/
  | rtcCrystalStop
  /-- VF_ENABLE (R142). -/
  | vfEnable (n : Nat)
  /-- VF_DISABLE (R152). -/
  | vfDisable (f : Fin 16)
  /-- TCK_EDGE (R70). -/
  | tckEdge (tms tdi trstN : Bool) (rising : Bool) (pins : Nat)
  deriving DecidableEq, Repr

end Sys2Proof
end

