-- ==== Sys2Proof/Config.lean ====
section
/-! DEFINITION. What the spec leaves open: free values, as constants without a body, and the fixed tables an
implementation chooses none of. No proof can see a value of `freeValue`. -/

namespace Sys2Proof.Config

/-- The `n`-th value that the spec leaves undefined: nothing constrains it. -/
opaque freeValue : (w : Nat) → Nat → BitVec w

/-- The content of a 256-byte store row that nothing has written since power-up (R257 gives none): by plot, store,
row and byte. -/
opaque storeByte : Nat → Nat → Nat → Nat → BitVec 8

/-- The content of an HBM byte that a self-test left undefined (R224): by the number of the self-test's free value and the
address. -/
opaque hbmByte : Nat → Nat → BitVec 8

/-- The tag of a store row while the store's tags are undefined (R266): by generation, plot and store, and row. -/
opaque storeTag : Nat → Nat → Nat → Bool

/-- An instruction of program memory that no JOB_LOAD has written (R287 gives none): by plot and address. -/
opaque programWord : Nat → Nat → BitVec 128

/-- The content of a byte of island SRAM that nothing has written since its contents were last undefined (R100,
R526): by the generation of that loss and the address. -/
opaque sramByte : Nat → Nat → BitVec 8

/-- Where in the working region of SRAM firmware places the forecast model's input vector, from the region's start (R542
gives the vector and no place). -/
opaque forecastInput : Fin 0x7FFC0

/-- Where in a Graft unit's scale memory firmware puts the effective scales of an entry, by unit × 256 + slot (R520 gives
the pointer and no place). -/
opaque scaleWord : Nat → Fin 16384

/-- The MCTP endpoint UUID, which R614 names and gives no value of. -/
opaque endpointUuid : BitVec 128

/-- Brixquel's IANA enterprise number, which R614 names and gives no value of. -/
opaque enterpriseNumber : BitVec 32

/-- The length of the instruction register and of the boundary register of the test access port, and the
instruction that a code selects: 0 BYPASS, 1 SAMPLE/PRELOAD, 2 EXTEST, 3 IDCODE, 4 CLAMP, 5 HIGHZ (R70 gives the
instructions and no codes). -/
opaque tapIrLen : Nat
opaque tapBsrLen : Nat
opaque tapInstr : Nat → Fin 6

end Sys2Proof.Config
end

