-- ==== Sys2Proof/Machine/Regs.lean ====
section
/-! DEFINITION. The register map: every register of R647 with its address, replication, width, visibility, power
domain and fields, each field with its access code (R9) and its reset value (R14), as the owning chapter of the
spec gives them. A field's reset code U, S or F is a DESIGN CHOICE of 0 (assumption 3). -/

namespace Sys2Proof.Machine

/-- Access codes of R9. -/
inductive Acc where
  | RW | RO | WO | W1C | W1S | WP
  deriving DecidableEq, Repr

/-- Visibility of R15 and R646: `H` host in Run mode, `R` firmware-owned and host-readable in Run mode, `F`
firmware-owned without host reads in Run mode. -/
inductive Vis where
  | H | R | F
  deriving DecidableEq, Repr

/-- Power domains of R642. -/
inductive Dom where
  | I | S | C
  deriving DecidableEq, Repr

/-- One field of a (replicated) register: BAR0 address of instance 0, the stride of each index, its low bit, its
width, its access code and its reset value by instance. -/
structure Field where
  base : Nat
  strides : List Nat
  lo : Nat
  wid : Nat
  acc : Acc
  rst : List Nat → Nat

/-- Σ stride × index. -/
def dotIdx : List Nat → List Nat → Nat
  | s :: ss, i :: is => s * i + dotIdx ss is
  | _, _ => 0

/-- The BAR0 address of the register that holds instance `idx` of a field. -/
def Field.addr (f : Field) (idx : List Nat) : Nat := f.base + dotIdx f.strides idx

/-- The key of a field instance in the register file: its register's address and its low bit. -/
def Field.key (f : Field) (idx : List Nat) : Nat := f.addr idx * 128 + f.lo

/-- One register of the map: address, replication (stride, count), length in bytes, visibility, power domain,
whether it is a single-access register (1A, R643), whether it is staged (R123), and its fields. -/
structure Row where
  base : Nat
  dims : List (Nat × Nat)
  bytes : Nat
  vis : Vis
  dom : Dom
  oneA : Bool
  staged : Bool
  fields : List Field

namespace Reg

-- TOP_HARVEST: 03_power_up_boot R82
def TOP_HARVEST_PLOT_EN : Field := ⟨0x8, [], 0, 16, .RO, fun _ => 0⟩
def TOP_HARVEST_FUSE_GOOD : Field := ⟨0x8, [], 16, 16, .RO, fun _ => 0⟩
def TOP_HARVEST_BIST_FAIL : Field := ⟨0x8, [], 32, 16, .RO, fun _ => 0⟩
def TOP_HARVEST_PLOT_COUNT : Field := ⟨0x8, [], 48, 5, .RO, fun _ => 0⟩
def TOP_HARVEST_CAP_APPLIED : Field := ⟨0x8, [], 53, 1, .RO, fun _ => 0⟩
def TOP_HARVEST_DEGRADED : Field := ⟨0x8, [], 54, 1, .RO, fun _ => 0⟩
def TOP_HARVEST_row : Row :=
  ⟨0x8, [], 8, .R, .I, false, false,
   [TOP_HARVEST_PLOT_EN, TOP_HARVEST_FUSE_GOOD, TOP_HARVEST_BIST_FAIL, TOP_HARVEST_PLOT_COUNT,
    TOP_HARVEST_CAP_APPLIED, TOP_HARVEST_DEGRADED]⟩
-- TOP_STRAP: 02_balls_rails_straps R59
def TOP_STRAP_ROLE : Field := ⟨0x40, [], 0, 2, .RO, fun _ => 0⟩
def TOP_STRAP_ROLE_PIN : Field := ⟨0x40, [], 2, 2, .RO, fun _ => 0⟩
def TOP_STRAP_HARV_CAP : Field := ⟨0x40, [], 4, 1, .RO, fun _ => 0⟩
def TOP_STRAP_D2D_SEL : Field := ⟨0x40, [], 5, 1, .RO, fun _ => 0⟩
def TOP_STRAP_PKG_POS : Field := ⟨0x40, [], 6, 1, .RO, fun _ => 0⟩
def TOP_STRAP_SMB_ADDR : Field := ⟨0x40, [], 7, 2, .RO, fun _ => 0⟩
def TOP_STRAP_TEST_EN : Field := ⟨0x40, [], 9, 1, .RO, fun _ => 0⟩
def TOP_STRAP_STRAP_ERR : Field := ⟨0x40, [], 10, 1, .RO, fun _ => 0⟩
def TOP_STRAP_row : Row :=
  ⟨0x40, [], 4, .R, .I, false, false,
   [TOP_STRAP_ROLE, TOP_STRAP_ROLE_PIN, TOP_STRAP_HARV_CAP, TOP_STRAP_D2D_SEL, TOP_STRAP_PKG_POS,
    TOP_STRAP_SMB_ADDR, TOP_STRAP_TEST_EN, TOP_STRAP_STRAP_ERR]⟩
-- TOP_PINSTAT: 02_balls_rails_straps R47
def TOP_PINSTAT_PWRFAIL_N : Field := ⟨0x44, [], 0, 1, .RO, fun _ => 0⟩
def TOP_PINSTAT_MAIN_EN : Field := ⟨0x44, [], 1, 1, .RO, fun _ => 0⟩
def TOP_PINSTAT_MAIN_PG : Field := ⟨0x44, [], 2, 1, .RO, fun _ => 0⟩
def TOP_PINSTAT_VCORE_EN : Field := ⟨0x44, [], 3, 1, .RO, fun _ => 0⟩
def TOP_PINSTAT_VCORE_PG : Field := ⟨0x44, [], 4, 1, .RO, fun _ => 0⟩
def TOP_PINSTAT_VID : Field := ⟨0x44, [], 5, 8, .RO, fun _ => 0⟩
def TOP_PINSTAT_THERMTRIP : Field := ⟨0x44, [], 13, 1, .RO, fun _ => 0⟩
def TOP_PINSTAT_REFCLK_FAIL : Field := ⟨0x44, [], 14, 1, .RO, fun _ => 0⟩
def TOP_PINSTAT_RTC_SRC : Field := ⟨0x44, [], 15, 1, .RO, fun _ => 0⟩
def TOP_PINSTAT_CUT_SEEN : Field := ⟨0x44, [], 16, 1, .W1C, fun _ => 0⟩
def TOP_PINSTAT_CUT_CAUSE : Field := ⟨0x44, [], 17, 2, .RO, fun _ => 0⟩
def TOP_PINSTAT_BROWNOUT : Field := ⟨0x44, [], 19, 1, .W1C, fun _ => 0⟩
def TOP_PINSTAT_row : Row :=
  ⟨0x44, [], 4, .R, .I, false, false,
   [TOP_PINSTAT_PWRFAIL_N, TOP_PINSTAT_MAIN_EN, TOP_PINSTAT_MAIN_PG, TOP_PINSTAT_VCORE_EN,
    TOP_PINSTAT_VCORE_PG, TOP_PINSTAT_VID, TOP_PINSTAT_THERMTRIP, TOP_PINSTAT_REFCLK_FAIL,
    TOP_PINSTAT_RTC_SRC, TOP_PINSTAT_CUT_SEEN, TOP_PINSTAT_CUT_CAUSE, TOP_PINSTAT_BROWNOUT]⟩
-- TOP_RSTCAUSE: 03_power_up_boot R100
def TOP_RSTCAUSE_POR : Field := ⟨0x48, [], 0, 1, .W1C, fun _ => 1⟩
def TOP_RSTCAUSE_FABRIC : Field := ⟨0x48, [], 1, 1, .W1C, fun _ => 0⟩
def TOP_RSTCAUSE_HOST : Field := ⟨0x48, [], 2, 1, .W1C, fun _ => 0⟩
def TOP_RSTCAUSE_ISLAND : Field := ⟨0x48, [], 3, 1, .W1C, fun _ => 0⟩
def TOP_RSTCAUSE_SWAP : Field := ⟨0x48, [], 4, 1, .W1C, fun _ => 0⟩
def TOP_RSTCAUSE_THERMAL : Field := ⟨0x48, [], 5, 1, .W1C, fun _ => 0⟩
def TOP_RSTCAUSE_CUT : Field := ⟨0x48, [], 6, 1, .W1C, fun _ => 0⟩
def TOP_RSTCAUSE_BROWNOUT : Field := ⟨0x48, [], 7, 1, .W1C, fun _ => 0⟩
def TOP_RSTCAUSE_row : Row :=
  ⟨0x48, [], 4, .R, .I, false, false,
   [TOP_RSTCAUSE_POR, TOP_RSTCAUSE_FABRIC, TOP_RSTCAUSE_HOST, TOP_RSTCAUSE_ISLAND, TOP_RSTCAUSE_SWAP,
    TOP_RSTCAUSE_THERMAL, TOP_RSTCAUSE_CUT, TOP_RSTCAUSE_BROWNOUT]⟩
-- TOP_BOOTSTAT: 03_power_up_boot R79
def TOP_BOOTSTAT_STATE : Field := ⟨0x4c, [], 0, 2, .RO, fun _ => 0⟩
def TOP_BOOTSTAT_BLOCK : Field := ⟨0x4c, [], 2, 1, .RO, fun _ => 0⟩
def TOP_BOOTSTAT_FALLBACK : Field := ⟨0x4c, [], 3, 1, .RO, fun _ => 0⟩
def TOP_BOOTSTAT_TRIAL : Field := ⟨0x4c, [], 4, 1, .RO, fun _ => 0⟩
def TOP_BOOTSTAT_TRIES : Field := ⟨0x4c, [], 5, 2, .RO, fun _ => 0⟩
def TOP_BOOTSTAT_REVERTED : Field := ⟨0x4c, [], 7, 1, .RO, fun _ => 0⟩
def TOP_BOOTSTAT_FAIL_REASON : Field := ⟨0x4c, [], 8, 8, .RO, fun _ => 0⟩
def TOP_BOOTSTAT_BOOT_COUNT : Field := ⟨0x4c, [], 16, 16, .RO, fun _ => 0⟩
def TOP_BOOTSTAT_row : Row :=
  ⟨0x4c, [], 4, .R, .I, false, false,
   [TOP_BOOTSTAT_STATE, TOP_BOOTSTAT_BLOCK, TOP_BOOTSTAT_FALLBACK, TOP_BOOTSTAT_TRIAL, TOP_BOOTSTAT_TRIES,
    TOP_BOOTSTAT_REVERTED, TOP_BOOTSTAT_FAIL_REASON, TOP_BOOTSTAT_BOOT_COUNT]⟩
-- TOP_MODE: 03_power_up_boot R93
def TOP_MODE_MODE : Field := ⟨0x50, [], 0, 2, .RO, fun _ => 0⟩
def TOP_MODE_TEST_LOCK : Field := ⟨0x50, [], 2, 1, .RO, fun _ => 0⟩
def TOP_MODE_PHASE : Field := ⟨0x50, [], 3, 4, .RO, fun _ => 0⟩
def TOP_MODE_row : Row :=
  ⟨0x50, [], 4, .R, .I, false, false,
   [TOP_MODE_MODE, TOP_MODE_TEST_LOCK, TOP_MODE_PHASE]⟩
-- TOP_HBMSTAT: 03_power_up_boot R87
def TOP_HBMSTAT_RATE0 : Field := ⟨0x54, [], 0, 3, .RO, fun _ => 0⟩
def TOP_HBMSTAT_CLEARED0 : Field := ⟨0x54, [], 3, 1, .RO, fun _ => 0⟩
def TOP_HBMSTAT_FAIL0 : Field := ⟨0x54, [], 4, 1, .RO, fun _ => 0⟩
def TOP_HBMSTAT_RATE1 : Field := ⟨0x54, [], 5, 3, .RO, fun _ => 0⟩
def TOP_HBMSTAT_CLEARED1 : Field := ⟨0x54, [], 8, 1, .RO, fun _ => 0⟩
def TOP_HBMSTAT_FAIL1 : Field := ⟨0x54, [], 9, 1, .RO, fun _ => 0⟩
def TOP_HBMSTAT_RATE2 : Field := ⟨0x54, [], 10, 3, .RO, fun _ => 0⟩
def TOP_HBMSTAT_CLEARED2 : Field := ⟨0x54, [], 13, 1, .RO, fun _ => 0⟩
def TOP_HBMSTAT_FAIL2 : Field := ⟨0x54, [], 14, 1, .RO, fun _ => 0⟩
def TOP_HBMSTAT_RATE3 : Field := ⟨0x54, [], 15, 3, .RO, fun _ => 0⟩
def TOP_HBMSTAT_CLEARED3 : Field := ⟨0x54, [], 18, 1, .RO, fun _ => 0⟩
def TOP_HBMSTAT_FAIL3 : Field := ⟨0x54, [], 19, 1, .RO, fun _ => 0⟩
def TOP_HBMSTAT_RATE4 : Field := ⟨0x54, [], 20, 3, .RO, fun _ => 0⟩
def TOP_HBMSTAT_CLEARED4 : Field := ⟨0x54, [], 23, 1, .RO, fun _ => 0⟩
def TOP_HBMSTAT_FAIL4 : Field := ⟨0x54, [], 24, 1, .RO, fun _ => 0⟩
def TOP_HBMSTAT_RATE5 : Field := ⟨0x54, [], 25, 3, .RO, fun _ => 0⟩
def TOP_HBMSTAT_CLEARED5 : Field := ⟨0x54, [], 28, 1, .RO, fun _ => 0⟩
def TOP_HBMSTAT_FAIL5 : Field := ⟨0x54, [], 29, 1, .RO, fun _ => 0⟩
def TOP_HBMSTAT_row : Row :=
  ⟨0x54, [], 4, .R, .I, false, false,
   [TOP_HBMSTAT_RATE0, TOP_HBMSTAT_CLEARED0, TOP_HBMSTAT_FAIL0, TOP_HBMSTAT_RATE1, TOP_HBMSTAT_CLEARED1,
    TOP_HBMSTAT_FAIL1, TOP_HBMSTAT_RATE2, TOP_HBMSTAT_CLEARED2, TOP_HBMSTAT_FAIL2, TOP_HBMSTAT_RATE3,
    TOP_HBMSTAT_CLEARED3, TOP_HBMSTAT_FAIL3, TOP_HBMSTAT_RATE4, TOP_HBMSTAT_CLEARED4, TOP_HBMSTAT_FAIL4,
    TOP_HBMSTAT_RATE5, TOP_HBMSTAT_CLEARED5, TOP_HBMSTAT_FAIL5]⟩
-- TOP_TSENS: 02_balls_rails_straps R65
def TOP_TSENS_TEMP : Field := ⟨0x100, [4], 0, 12, .RO, fun _ => 0⟩
def TOP_TSENS_TEMP_MAX : Field := ⟨0x100, [4], 12, 12, .RO, fun _ => 0⟩
def TOP_TSENS_VALID : Field := ⟨0x100, [4], 31, 1, .RO, fun _ => 0⟩
def TOP_TSENS_row : Row :=
  ⟨0x100, [(4, 33)], 4, .R, .I, false, false,
   [TOP_TSENS_TEMP, TOP_TSENS_TEMP_MAX, TOP_TSENS_VALID]⟩
-- TOP_PACE_CTL: 04_handshake_ordering R107
def TOP_PACE_CTL_SNAP : Field := ⟨0x200, [], 0, 1, .WP, fun _ => 0⟩
def TOP_PACE_CTL_AUTO_MS : Field := ⟨0x200, [], 1, 8, .RW, fun _ => 0⟩
def TOP_PACE_CTL_row : Row :=
  ⟨0x200, [], 4, .H, .I, false, false,
   [TOP_PACE_CTL_SNAP, TOP_PACE_CTL_AUTO_MS]⟩
-- TOP_PACE_STAT: 04_handshake_ordering R107
def TOP_PACE_STAT_BUSY : Field := ⟨0x204, [], 0, 1, .RO, fun _ => 0⟩
def TOP_PACE_STAT_LOST : Field := ⟨0x204, [], 1, 1, .W1C, fun _ => 0⟩
def TOP_PACE_STAT_SEQ : Field := ⟨0x204, [], 8, 16, .RO, fun _ => 0⟩
def TOP_PACE_STAT_row : Row :=
  ⟨0x204, [], 4, .H, .I, false, false,
   [TOP_PACE_STAT_BUSY, TOP_PACE_STAT_LOST, TOP_PACE_STAT_SEQ]⟩
-- TOP_TIMEBASE: 04_handshake_ordering R104
def TOP_TIMEBASE_COUNT : Field := ⟨0x208, [], 0, 64, .RO, fun _ => 0⟩
def TOP_TIMEBASE_row : Row :=
  ⟨0x208, [], 8, .H, .I, false, false,
   [TOP_TIMEBASE_COUNT]⟩
-- TOP_PACE_SNAPTIME: 04_handshake_ordering R107
def TOP_PACE_SNAPTIME_COUNT : Field := ⟨0x210, [], 0, 64, .RO, fun _ => 0⟩
def TOP_PACE_SNAPTIME_row : Row :=
  ⟨0x210, [], 8, .H, .I, false, false,
   [TOP_PACE_SNAPTIME_COUNT]⟩
-- TOP_CFGERR: 04_handshake_ordering R127
def TOP_CFGERR_OFFSET : Field := ⟨0x220, [], 0, 26, .RO, fun _ => 0⟩
def TOP_CFGERR_AGENT : Field := ⟨0x220, [], 26, 2, .RO, fun _ => 0⟩
def TOP_CFGERR_KIND : Field := ⟨0x220, [], 28, 1, .RO, fun _ => 0⟩
def TOP_CFGERR_VALID : Field := ⟨0x220, [], 31, 1, .W1C, fun _ => 0⟩
def TOP_CFGERR_row : Row :=
  ⟨0x220, [], 4, .R, .I, false, false,
   [TOP_CFGERR_OFFSET, TOP_CFGERR_AGENT, TOP_CFGERR_KIND, TOP_CFGERR_VALID]⟩
-- TOP_CFGERR_CNT: 04_handshake_ordering R127
def TOP_CFGERR_CNT_COUNT : Field := ⟨0x224, [], 0, 16, .RO, fun _ => 0⟩
def TOP_CFGERR_CNT_row : Row :=
  ⟨0x224, [], 4, .R, .I, false, false,
   [TOP_CFGERR_CNT_COUNT]⟩
-- TOP_TRL_FLITS: 04_handshake_ordering R105
def TOP_TRL_FLITS_COUNT : Field := ⟨0x400, [8], 0, 64, .RO, fun _ => 0⟩
def TOP_TRL_FLITS_row : Row :=
  ⟨0x400, [(8, 32)], 8, .H, .C, false, false,
   [TOP_TRL_FLITS_COUNT]⟩
-- TOP_TRL_FLITS_SNAP: 04_handshake_ordering R107
def TOP_TRL_FLITS_SNAP_COUNT : Field := ⟨0x500, [8], 0, 64, .RO, fun _ => 0⟩
def TOP_TRL_FLITS_SNAP_row : Row :=
  ⟨0x500, [(8, 32)], 8, .H, .C, false, false,
   [TOP_TRL_FLITS_SNAP_COUNT]⟩
-- TOP_QD_STAT: 12_pipelines_deadlock R394
def TOP_QD_STAT_VERDICTS : Field := ⟨0x800, [], 0, 16, .RO, fun _ => 0⟩
def TOP_QD_STAT_CANCELLED : Field := ⟨0x800, [], 16, 16, .RO, fun _ => 0⟩
def TOP_QD_STAT_row : Row :=
  ⟨0x800, [], 4, .R, .C, false, false,
   [TOP_QD_STAT_VERDICTS, TOP_QD_STAT_CANCELLED]⟩
-- TOP_SIG_ERR: 12_pipelines_deadlock R386
def TOP_SIG_ERR_DIE : Field := ⟨0x808, [], 0, 8, .RO, fun _ => 0⟩
def TOP_SIG_ERR_AGENT : Field := ⟨0x808, [], 8, 8, .RO, fun _ => 0⟩
def TOP_SIG_ERR_DEST : Field := ⟨0x808, [], 16, 8, .RO, fun _ => 0⟩
def TOP_SIG_ERR_REASON : Field := ⟨0x808, [], 24, 2, .RO, fun _ => 0⟩
def TOP_SIG_ERR_VALID : Field := ⟨0x808, [], 31, 1, .W1C, fun _ => 0⟩
def TOP_SIG_ERR_row : Row :=
  ⟨0x808, [], 4, .R, .C, false, false,
   [TOP_SIG_ERR_DIE, TOP_SIG_ERR_AGENT, TOP_SIG_ERR_DEST, TOP_SIG_ERR_REASON, TOP_SIG_ERR_VALID]⟩
-- TOP_QD_GRP: 12_pipelines_deadlock R383
def TOP_QD_GRP_PLOTS : Field := ⟨0x900, [8], 0, 16, .RW, fun _ => 0⟩
def TOP_QD_GRP_EN : Field := ⟨0x900, [8], 16, 1, .RW, fun _ => 0⟩
def TOP_QD_GRP_FEED_EN : Field := ⟨0x900, [8], 17, 1, .RW, fun _ => 0⟩
def TOP_QD_GRP_FEED_PLOT : Field := ⟨0x900, [8], 18, 4, .RW, fun _ => 0⟩
def TOP_QD_GRP_FEED_CTX : Field := ⟨0x900, [8], 22, 2, .RW, fun _ => 0⟩
def TOP_QD_GRP_COORD : Field := ⟨0x900, [8], 24, 8, .RW, fun _ => 0⟩
def TOP_QD_GRP_GTAG : Field := ⟨0x900, [8], 32, 16, .RW, fun _ => 0⟩
def TOP_QD_GRP_EPOCH : Field := ⟨0x900, [8], 48, 16, .RW, fun _ => 0⟩
def TOP_QD_GRP_row : Row :=
  ⟨0x900, [(8, 16)], 8, .R, .C, true, false,
   [TOP_QD_GRP_PLOTS, TOP_QD_GRP_EN, TOP_QD_GRP_FEED_EN, TOP_QD_GRP_FEED_PLOT, TOP_QD_GRP_FEED_CTX,
    TOP_QD_GRP_COORD, TOP_QD_GRP_GTAG, TOP_QD_GRP_EPOCH]⟩
-- TOP_QD_WIN: 12_pipelines_deadlock R393
def TOP_QD_WIN_WIN_US : Field := ⟨0x980, [4], 0, 16, .RW, fun _ => 50⟩
def TOP_QD_WIN_OFF : Field := ⟨0x980, [4], 16, 1, .RW, fun _ => 0⟩
def TOP_QD_WIN_row : Row :=
  ⟨0x980, [(4, 16)], 4, .R, .C, false, false,
   [TOP_QD_WIN_WIN_US, TOP_QD_WIN_OFF]⟩
-- TOP_QD_GST: 12_pipelines_deadlock R392
def TOP_QD_GST_ARMED : Field := ⟨0x9c0, [4], 0, 1, .RO, fun _ => 0⟩
def TOP_QD_GST_QUIET : Field := ⟨0x9c0, [4], 1, 1, .RO, fun _ => 0⟩
def TOP_QD_GST_SUSPENDED : Field := ⟨0x9c0, [4], 2, 1, .RO, fun _ => 0⟩
def TOP_QD_GST_REPORTED : Field := ⟨0x9c0, [4], 3, 1, .RO, fun _ => 0⟩
def TOP_QD_GST_SNAP_VALID : Field := ⟨0x9c0, [4], 4, 1, .W1C, fun _ => 0⟩
def TOP_QD_GST_VERDICT : Field := ⟨0x9c0, [4], 5, 1, .W1C, fun _ => 0⟩
def TOP_QD_GST_GEN : Field := ⟨0x9c0, [4], 16, 16, .RO, fun _ => 0⟩
def TOP_QD_GST_row : Row :=
  ⟨0x9c0, [(4, 16)], 4, .R, .C, false, false,
   [TOP_QD_GST_ARMED, TOP_QD_GST_QUIET, TOP_QD_GST_SUSPENDED, TOP_QD_GST_REPORTED, TOP_QD_GST_SNAP_VALID,
    TOP_QD_GST_VERDICT, TOP_QD_GST_GEN]⟩
-- TOP_QD_SNAP: 12_pipelines_deadlock R399
def TOP_QD_SNAP_ENTRY : Field := ⟨0xa00, [8], 0, 64, .RO, fun _ => 0⟩
def TOP_QD_SNAP_row : Row :=
  ⟨0xa00, [(8, 64)], 8, .R, .C, false, false,
   [TOP_QD_SNAP_ENTRY]⟩
-- TOP_QD_DIES: 12_pipelines_deadlock R383
def TOP_QD_DIES_MASK : Field := ⟨0xc00, [32, 4], 0, 32, .RW, fun _ => 0⟩
def TOP_QD_DIES_row : Row :=
  ⟨0xc00, [(32, 16), (4, 8)], 4, .R, .C, false, false,
   [TOP_QD_DIES_MASK]⟩
-- TOP_DRAIN: 22_faults_recovery R629
def TOP_DRAIN_DRAIN_US : Field := ⟨0x1000, [], 0, 16, .RW, fun _ => 2000⟩
def TOP_DRAIN_row : Row :=
  ⟨0x1000, [], 4, .R, .I, false, false,
   [TOP_DRAIN_DRAIN_US]⟩
-- TOP_LEASE_TMO: 22_faults_recovery R627
def TOP_LEASE_TMO_TMO_MS : Field := ⟨0x1004, [], 0, 16, .RW, fun _ => 100⟩
def TOP_LEASE_TMO_row : Row :=
  ⟨0x1004, [], 4, .R, .I, false, false,
   [TOP_LEASE_TMO_TMO_MS]⟩
-- TOP_FAULT: 22_faults_recovery R633
def TOP_FAULT_THERMAL : Field := ⟨0x1008, [], 0, 1, .W1C, fun _ => 0⟩
def TOP_FAULT_BROWNOUT : Field := ⟨0x1008, [], 1, 1, .W1C, fun _ => 0⟩
def TOP_FAULT_HBM_CTRL : Field := ⟨0x1008, [], 2, 1, .W1C, fun _ => 0⟩
def TOP_FAULT_RESET_FAIL : Field := ⟨0x1008, [], 3, 1, .W1C, fun _ => 0⟩
def TOP_FAULT_WATCHDOG : Field := ⟨0x1008, [], 4, 1, .W1C, fun _ => 0⟩
def TOP_FAULT_STACK : Field := ⟨0x1008, [], 5, 6, .RO, fun _ => 0⟩
def TOP_FAULT_row : Row :=
  ⟨0x1008, [], 4, .R, .I, false, false,
   [TOP_FAULT_THERMAL, TOP_FAULT_BROWNOUT, TOP_FAULT_HBM_CTRL, TOP_FAULT_RESET_FAIL, TOP_FAULT_WATCHDOG,
    TOP_FAULT_STACK]⟩
-- TOP_FENCE_CNT: 22_faults_recovery R629
def TOP_FENCE_CNT_FENCES : Field := ⟨0x100c, [], 0, 16, .RO, fun _ => 0⟩
def TOP_FENCE_CNT_RECLAIMS : Field := ⟨0x100c, [], 16, 16, .RO, fun _ => 0⟩
def TOP_FENCE_CNT_row : Row :=
  ⟨0x100c, [], 4, .R, .I, false, false,
   [TOP_FENCE_CNT_FENCES, TOP_FENCE_CNT_RECLAIMS]⟩
-- TOP_FENCE_LAST: 22_faults_recovery R629
def TOP_FENCE_LAST_CLASS : Field := ⟨0x1010, [], 0, 3, .RO, fun _ => 0⟩
def TOP_FENCE_LAST_TRIGGER : Field := ⟨0x1010, [], 3, 3, .RO, fun _ => 0⟩
def TOP_FENCE_LAST_HOLDER_DIE : Field := ⟨0x1010, [], 8, 8, .RO, fun _ => 0⟩
def TOP_FENCE_LAST_HOLDER_AGENT : Field := ⟨0x1010, [], 16, 8, .RO, fun _ => 0⟩
def TOP_FENCE_LAST_NEW_EPOCH : Field := ⟨0x1010, [], 32, 16, .RO, fun _ => 0⟩
def TOP_FENCE_LAST_GTAG : Field := ⟨0x1010, [], 48, 16, .RO, fun _ => 0⟩
def TOP_FENCE_LAST_row : Row :=
  ⟨0x1010, [], 8, .R, .I, false, false,
   [TOP_FENCE_LAST_CLASS, TOP_FENCE_LAST_TRIGGER, TOP_FENCE_LAST_HOLDER_DIE, TOP_FENCE_LAST_HOLDER_AGENT,
    TOP_FENCE_LAST_NEW_EPOCH, TOP_FENCE_LAST_GTAG]⟩
-- TOP_HBM_ECC: 22_faults_recovery R617
def TOP_HBM_ECC_CE : Field := ⟨0x1020, [8], 0, 32, .RO, fun _ => 0⟩
def TOP_HBM_ECC_UE : Field := ⟨0x1020, [8], 32, 16, .RO, fun _ => 0⟩
def TOP_HBM_ECC_POISON_READS : Field := ⟨0x1020, [8], 48, 16, .RO, fun _ => 0⟩
def TOP_HBM_ECC_row : Row :=
  ⟨0x1020, [(8, 6)], 8, .R, .S, false, false,
   [TOP_HBM_ECC_CE, TOP_HBM_ECC_UE, TOP_HBM_ECC_POISON_READS]⟩
-- TOP_HBM_ERRADDR: 22_faults_recovery R617
def TOP_HBM_ERRADDR_VALID : Field := ⟨0x1050, [], 0, 1, .W1C, fun _ => 0⟩
def TOP_HBM_ERRADDR_AGENT : Field := ⟨0x1050, [], 1, 3, .RO, fun _ => 0⟩
def TOP_HBM_ERRADDR_UNIT : Field := ⟨0x1050, [], 4, 33, .RO, fun _ => 0⟩
def TOP_HBM_ERRADDR_row : Row :=
  ⟨0x1050, [], 8, .R, .S, false, false,
   [TOP_HBM_ERRADDR_VALID, TOP_HBM_ERRADDR_AGENT, TOP_HBM_ERRADDR_UNIT]⟩
-- TOP_FAULTLOG: 22_faults_recovery R639
def TOP_FAULTLOG_WRITTEN : Field := ⟨0x1058, [], 0, 16, .RO, fun _ => 0⟩
def TOP_FAULTLOG_DROPPED : Field := ⟨0x1058, [], 16, 16, .RO, fun _ => 0⟩
def TOP_FAULTLOG_row : Row :=
  ⟨0x1058, [], 4, .R, .I, false, false,
   [TOP_FAULTLOG_WRITTEN, TOP_FAULTLOG_DROPPED]⟩
-- TOP_MBX_EPOCH: 22_faults_recovery R626
def TOP_MBX_EPOCH_EPOCH : Field := ⟨0x1080, [4], 0, 16, .RO, fun _ => 0⟩
def TOP_MBX_EPOCH_row : Row :=
  ⟨0x1080, [(4, 16)], 4, .R, .I, false, false,
   [TOP_MBX_EPOCH_EPOCH]⟩
-- MBX_RING_CTL: 05_host_rings_slots R170
def MBX_RING_CTL_ENABLE : Field := ⟨0x100000, [65536], 0, 1, .RW, fun _ => 0⟩
def MBX_RING_CTL_row : Row :=
  ⟨0x100000, [(65536, 16)], 4, .H, .S, false, false,
   [MBX_RING_CTL_ENABLE]⟩
-- MBX_DB: 05_host_rings_slots R156
def MBX_DB_PI : Field := ⟨0x100004, [65536], 0, 16, .WO, fun _ => 0⟩
def MBX_DB_row : Row :=
  ⟨0x100004, [(65536, 16)], 4, .H, .S, false, false,
   [MBX_DB_PI]⟩
-- MBX_RING_PTR: 05_host_rings_slots R154
def MBX_RING_PTR_PI : Field := ⟨0x100008, [65536], 0, 16, .RO, fun _ => 0⟩
def MBX_RING_PTR_CI : Field := ⟨0x100008, [65536], 16, 16, .RO, fun _ => 0⟩
def MBX_RING_PTR_row : Row :=
  ⟨0x100008, [(65536, 16)], 4, .H, .S, false, false,
   [MBX_RING_PTR_PI, MBX_RING_PTR_CI]⟩
-- MBX_RETIRE: 05_host_rings_slots R163
def MBX_RETIRE_SLOT : Field := ⟨0x10000c, [65536], 0, 7, .WO, fun _ => 0⟩
def MBX_RETIRE_TAG : Field := ⟨0x10000c, [65536], 16, 16, .WO, fun _ => 0⟩
def MBX_RETIRE_row : Row :=
  ⟨0x10000c, [(65536, 16)], 4, .H, .S, false, false,
   [MBX_RETIRE_SLOT, MBX_RETIRE_TAG]⟩
-- MBX_STATUS: 05_host_rings_slots R172
def MBX_STATUS_LAST_CODE : Field := ⟨0x100010, [65536], 0, 16, .RO, fun _ => 0⟩
def MBX_STATUS_VIOL_SEQ : Field := ⟨0x100010, [65536], 16, 8, .RO, fun _ => 0⟩
def MBX_STATUS_row : Row :=
  ⟨0x100010, [(65536, 16)], 4, .H, .S, false, false,
   [MBX_STATUS_LAST_CODE, MBX_STATUS_VIOL_SEQ]⟩
-- MBX_VIOL_CNT: 05_host_rings_slots R172
def MBX_VIOL_CNT_COUNT : Field := ⟨0x100014, [65536], 0, 16, .RO, fun _ => 0⟩
def MBX_VIOL_CNT_CLR : Field := ⟨0x100014, [65536], 31, 1, .WP, fun _ => 0⟩
def MBX_VIOL_CNT_row : Row :=
  ⟨0x100014, [(65536, 16)], 4, .H, .S, false, false,
   [MBX_VIOL_CNT_COUNT, MBX_VIOL_CNT_CLR]⟩
-- MBX_VLOG_PI: 05_host_rings_slots R171
def MBX_VLOG_PI_PI : Field := ⟨0x100018, [65536], 0, 16, .RO, fun _ => 0⟩
def MBX_VLOG_PI_row : Row :=
  ⟨0x100018, [(65536, 16)], 4, .H, .S, false, false,
   [MBX_VLOG_PI_PI]⟩
-- MBX_EVQ_CTL: 05_host_rings_slots R170
def MBX_EVQ_CTL_ENABLE : Field := ⟨0x100020, [65536], 0, 1, .RW, fun _ => 0⟩
def MBX_EVQ_CTL_row : Row :=
  ⟨0x100020, [(65536, 16)], 4, .H, .S, false, false,
   [MBX_EVQ_CTL_ENABLE]⟩
-- MBX_EVQ_PI: 05_host_rings_slots R167
def MBX_EVQ_PI_PI : Field := ⟨0x100024, [65536], 0, 16, .RO, fun _ => 0⟩
def MBX_EVQ_PI_row : Row :=
  ⟨0x100024, [(65536, 16)], 4, .H, .S, false, false,
   [MBX_EVQ_PI_PI]⟩
-- MBX_EVQ_CI: 05_host_rings_slots R169
def MBX_EVQ_CI_CI : Field := ⟨0x100028, [65536], 0, 16, .RW, fun _ => 0⟩
def MBX_EVQ_CI_row : Row :=
  ⟨0x100028, [(65536, 16)], 4, .H, .S, false, false,
   [MBX_EVQ_CI_CI]⟩
-- MBX_EVQ_LOST: 05_host_rings_slots R168
def MBX_EVQ_LOST_COUNT : Field := ⟨0x10002c, [65536], 0, 16, .RO, fun _ => 0⟩
def MBX_EVQ_LOST_CLR : Field := ⟨0x10002c, [65536], 31, 1, .WP, fun _ => 0⟩
def MBX_EVQ_LOST_row : Row :=
  ⟨0x10002c, [(65536, 16)], 4, .H, .S, false, false,
   [MBX_EVQ_LOST_COUNT, MBX_EVQ_LOST_CLR]⟩
-- MBX_FUNC: 05_host_rings_slots R143
def MBX_FUNC_FUNC : Field := ⟨0x100040, [65536], 0, 4, .RO, fun i => i.headD 0⟩
def MBX_FUNC_IS_VF : Field := ⟨0x100040, [65536], 4, 1, .RO, fun i => if i.headD 0 = 0 then 0 else 1⟩
def MBX_FUNC_MODE : Field := ⟨0x100040, [65536], 5, 2, .RO, fun _ => 0⟩
def MBX_FUNC_row : Row :=
  ⟨0x100040, [(65536, 16)], 4, .H, .S, false, false,
   [MBX_FUNC_FUNC, MBX_FUNC_IS_VF, MBX_FUNC_MODE]⟩
-- MBX_TIMEBASE: 05_host_rings_slots R105
def MBX_TIMEBASE_COUNT : Field := ⟨0x100080, [65536], 0, 64, .RO, fun _ => 0⟩
def MBX_TIMEBASE_row : Row :=
  ⟨0x100080, [(65536, 16)], 8, .H, .S, false, false,
   [MBX_TIMEBASE_COUNT]⟩
-- MBX_WIN: 05_host_rings_slots R177
def MBX_WIN_BASE : Field := ⟨0x100100, [65536, 4], 0, 12, .RW, fun _ => 0⟩
def MBX_WIN_EN : Field := ⟨0x100100, [65536, 4], 12, 1, .RW, fun _ => 0⟩
def MBX_WIN_WRITE_EN : Field := ⟨0x100100, [65536, 4], 13, 1, .RW, fun _ => 0⟩
def MBX_WIN_row : Row :=
  ⟨0x100100, [(65536, 16), (4, 16)], 4, .R, .S, false, false,
   [MBX_WIN_BASE, MBX_WIN_EN, MBX_WIN_WRITE_EN]⟩
-- HDG_STAT: 19_hedge_interrupts R556
def HDG_STAT_OFFER : Field := ⟨0x200000, [], 0, 10, .RO, fun _ => 0⟩
def HDG_STAT_IRQ : Field := ⟨0x200000, [], 10, 1, .RO, fun _ => 0⟩
def HDG_STAT_ACTIVE_ANY : Field := ⟨0x200000, [], 11, 1, .RO, fun _ => 0⟩
def HDG_STAT_RUNPRIO : Field := ⟨0x200000, [], 12, 8, .RO, fun _ => 0⟩
def HDG_STAT_row : Row :=
  ⟨0x200000, [], 4, .R, .I, false, false,
   [HDG_STAT_OFFER, HDG_STAT_IRQ, HDG_STAT_ACTIVE_ANY, HDG_STAT_RUNPRIO]⟩
-- HDG_PRIOSPLIT: 19_hedge_interrupts R555
def HDG_PRIOSPLIT_SPLIT : Field := ⟨0x200004, [], 0, 3, .RW, fun _ => 0⟩
def HDG_PRIOSPLIT_row : Row :=
  ⟨0x200004, [], 4, .R, .I, false, true,
   [HDG_PRIOSPLIT_SPLIT]⟩
-- HDG_PRIOSPLIT_COMMIT: 19_hedge_interrupts R555
def HDG_PRIOSPLIT_COMMIT_COMMIT : Field := ⟨0x200008, [], 0, 1, .WP, fun _ => 0⟩
def HDG_PRIOSPLIT_COMMIT_DISCARD : Field := ⟨0x200008, [], 1, 1, .WP, fun _ => 0⟩
def HDG_PRIOSPLIT_COMMIT_PENDING : Field := ⟨0x200008, [], 2, 1, .RO, fun _ => 0⟩
def HDG_PRIOSPLIT_COMMIT_SUPERSEDED : Field := ⟨0x200008, [], 3, 1, .W1C, fun _ => 0⟩
def HDG_PRIOSPLIT_COMMIT_REFUSED : Field := ⟨0x200008, [], 4, 1, .W1C, fun _ => 0⟩
def HDG_PRIOSPLIT_COMMIT_GEN : Field := ⟨0x200008, [], 8, 8, .RO, fun _ => 0⟩
def HDG_PRIOSPLIT_COMMIT_row : Row :=
  ⟨0x200008, [], 4, .R, .I, false, false,
   [HDG_PRIOSPLIT_COMMIT_COMMIT, HDG_PRIOSPLIT_COMMIT_DISCARD, HDG_PRIOSPLIT_COMMIT_PENDING,
    HDG_PRIOSPLIT_COMMIT_SUPERSEDED, HDG_PRIOSPLIT_COMMIT_REFUSED, HDG_PRIOSPLIT_COMMIT_GEN]⟩
-- HDG_BCLAIM: 19_hedge_interrupts R557
def HDG_BCLAIM_ID : Field := ⟨0x200010, [], 0, 10, .RO, fun _ => 0⟩
def HDG_BCLAIM_row : Row :=
  ⟨0x200010, [], 4, .F, .I, false, false,
   [HDG_BCLAIM_ID]⟩
-- HDG_BCOMPLETE: 19_hedge_interrupts R558
def HDG_BCOMPLETE_ID : Field := ⟨0x200014, [], 0, 10, .WO, fun _ => 0⟩
def HDG_BCOMPLETE_row : Row :=
  ⟨0x200014, [], 4, .F, .I, false, false,
   [HDG_BCOMPLETE_ID]⟩
-- HDG_SPURIOUS: 19_hedge_interrupts R557
def HDG_SPURIOUS_COUNT : Field := ⟨0x200018, [], 0, 16, .RO, fun _ => 0⟩
def HDG_SPURIOUS_BAD_COMPLETE : Field := ⟨0x200018, [], 16, 16, .RO, fun _ => 0⟩
def HDG_SPURIOUS_row : Row :=
  ⟨0x200018, [], 4, .R, .I, false, false,
   [HDG_SPURIOUS_COUNT, HDG_SPURIOUS_BAD_COMPLETE]⟩
-- HDG_PEND: 19_hedge_interrupts R553
def HDG_PEND_BITS : Field := ⟨0x200100, [4], 0, 32, .RO, fun _ => 0⟩
def HDG_PEND_row : Row :=
  ⟨0x200100, [(4, 32)], 4, .R, .I, false, false,
   [HDG_PEND_BITS]⟩
-- HDG_ACT: 19_hedge_interrupts R557
def HDG_ACT_BITS : Field := ⟨0x200200, [4], 0, 32, .RO, fun _ => 0⟩
def HDG_ACT_row : Row :=
  ⟨0x200200, [(4, 32)], 4, .R, .I, false, false,
   [HDG_ACT_BITS]⟩
-- HDG_SRC: 19_hedge_interrupts R553
def HDG_SRC_BEN : Field := ⟨0x210000, [8], 0, 1, .RW, fun _ => 0⟩
def HDG_SRC_HEN : Field := ⟨0x210000, [8], 1, 1, .RW, fun _ => 0⟩
def HDG_SRC_SENSE : Field := ⟨0x210000, [8], 2, 3, .RW, fun _ => 0⟩
def HDG_SRC_PRIO : Field := ⟨0x210000, [8], 5, 8, .RW, fun _ => 0⟩
def HDG_SRC_FUNC : Field := ⟨0x210000, [8], 13, 4, .RW, fun _ => 0⟩
def HDG_SRC_VECTOR : Field := ⟨0x210000, [8], 17, 7, .RW, fun _ => 0⟩
def HDG_SRC_PENDING : Field := ⟨0x210000, [8], 24, 1, .W1C, fun _ => 0⟩
def HDG_SRC_ACTIVE : Field := ⟨0x210000, [8], 25, 1, .RO, fun _ => 0⟩
def HDG_SRC_LEVEL : Field := ⟨0x210000, [8], 26, 1, .RO, fun _ => 0⟩
def HDG_SRC_FORCE : Field := ⟨0x210000, [8], 27, 1, .WP, fun _ => 0⟩
def HDG_SRC_DATA : Field := ⟨0x210000, [8], 32, 32, .RO, fun _ => 0⟩
def HDG_SRC_row : Row :=
  ⟨0x210000, [(8, 1023)], 8, .R, .I, true, false,
   [HDG_SRC_BEN, HDG_SRC_HEN, HDG_SRC_SENSE, HDG_SRC_PRIO, HDG_SRC_FUNC, HDG_SRC_VECTOR, HDG_SRC_PENDING,
    HDG_SRC_ACTIVE, HDG_SRC_LEVEL, HDG_SRC_FORCE, HDG_SRC_DATA]⟩
-- HDG_VSTAT: 19_hedge_interrupts R561
def HDG_VSTAT_COUNT : Field := ⟨0x220000, [512, 4], 0, 8, .RO, fun _ => 0⟩
def HDG_VSTAT_OPEN : Field := ⟨0x220000, [512, 4], 8, 1, .RO, fun _ => 0⟩
def HDG_VSTAT_MSGS : Field := ⟨0x220000, [512, 4], 16, 16, .RO, fun _ => 0⟩
def HDG_VSTAT_row : Row :=
  ⟨0x220000, [(512, 16), (4, 128)], 4, .R, .I, false, false,
   [HDG_VSTAT_COUNT, HDG_VSTAT_OPEN, HDG_VSTAT_MSGS]⟩
-- HDG_COAL: 19_hedge_interrupts R563
def HDG_COAL_COUNT : Field := ⟨0x204000, [512, 4], 0, 8, .RW, fun i => if 2 ≤ i.getD 1 0 ∧ i.getD 1 0 ≤ 7 then 0 else 1⟩
def HDG_COAL_TIME_US : Field := ⟨0x204000, [512, 4], 8, 16, .RW, fun i => if 2 ≤ i.getD 1 0 ∧ i.getD 1 0 ≤ 7 then 0 else 1⟩
def HDG_COAL_row : Row :=
  ⟨0x204000, [(512, 16), (4, 128)], 4, .R, .I, false, true,
   [HDG_COAL_COUNT, HDG_COAL_TIME_US]⟩
-- HDG_COAL_COMMIT: 19_hedge_interrupts R563
def HDG_COAL_COMMIT_COMMIT : Field := ⟨0x206000, [4], 0, 1, .WP, fun _ => 0⟩
def HDG_COAL_COMMIT_DISCARD : Field := ⟨0x206000, [4], 1, 1, .WP, fun _ => 0⟩
def HDG_COAL_COMMIT_PENDING : Field := ⟨0x206000, [4], 2, 1, .RO, fun _ => 0⟩
def HDG_COAL_COMMIT_SUPERSEDED : Field := ⟨0x206000, [4], 3, 1, .W1C, fun _ => 0⟩
def HDG_COAL_COMMIT_REFUSED : Field := ⟨0x206000, [4], 4, 1, .W1C, fun _ => 0⟩
def HDG_COAL_COMMIT_GEN : Field := ⟨0x206000, [4], 8, 8, .RO, fun _ => 0⟩
def HDG_COAL_COMMIT_row : Row :=
  ⟨0x206000, [(4, 16)], 4, .R, .I, false, false,
   [HDG_COAL_COMMIT_COMMIT, HDG_COAL_COMMIT_DISCARD, HDG_COAL_COMMIT_PENDING, HDG_COAL_COMMIT_SUPERSEDED,
    HDG_COAL_COMMIT_REFUSED, HDG_COAL_COMMIT_GEN]⟩
-- PLT_CAP: 08_plot_stores R257
def PLT_CAP_WS_ROWS : Field := ⟨0x400000, [131072], 0, 16, .RO, fun _ => 0⟩
def PLT_CAP_AS_ROWS : Field := ⟨0x400000, [131072], 16, 16, .RO, fun _ => 0⟩
def PLT_CAP_PS_ROWS : Field := ⟨0x400000, [131072], 32, 16, .RO, fun _ => 0⟩
def PLT_CAP_row : Row :=
  ⟨0x400000, [(131072, 16)], 8, .R, .C, false, false,
   [PLT_CAP_WS_ROWS, PLT_CAP_AS_ROWS, PLT_CAP_PS_ROWS]⟩
-- PLT_STEPS: 04_handshake_ordering R105
def PLT_STEPS_COUNT : Field := ⟨0x400100, [131072], 0, 64, .RO, fun _ => 0⟩
def PLT_STEPS_row : Row :=
  ⟨0x400100, [(131072, 16)], 8, .R, .C, false, false,
   [PLT_STEPS_COUNT]⟩
-- PLT_STEPS_SNAP: 04_handshake_ordering R107
def PLT_STEPS_SNAP_COUNT : Field := ⟨0x400108, [131072], 0, 64, .RO, fun _ => 0⟩
def PLT_STEPS_SNAP_row : Row :=
  ⟨0x400108, [(131072, 16)], 8, .R, .C, false, false,
   [PLT_STEPS_SNAP_COUNT]⟩
-- PLT_REPLICA: 04_handshake_ordering R110
def PLT_REPLICA_RATE : Field := ⟨0x400110, [131072], 0, 12, .RO, fun _ => 0⟩
def PLT_REPLICA_VALID : Field := ⟨0x400110, [131072], 12, 1, .RO, fun _ => 0⟩
def PLT_REPLICA_row : Row :=
  ⟨0x400110, [(131072, 16)], 4, .R, .C, false, false,
   [PLT_REPLICA_RATE, PLT_REPLICA_VALID]⟩
-- PLT_ARR_STAT: 07_plot_array_vector R230
def PLT_ARR_STAT_BUSY : Field := ⟨0x400200, [131072], 0, 1, .RO, fun _ => 0⟩
def PLT_ARR_STAT_CLASS : Field := ⟨0x400200, [131072], 1, 2, .RO, fun _ => 0⟩
def PLT_ARR_STAT_CTX : Field := ⟨0x400200, [131072], 3, 2, .RO, fun _ => 0⟩
def PLT_ARR_STAT_SHADOW_READY : Field := ⟨0x400200, [131072], 5, 1, .RO, fun _ => 0⟩
def PLT_ARR_STAT_PLANE0_HELD : Field := ⟨0x400200, [131072], 6, 1, .RO, fun _ => 0⟩
def PLT_ARR_STAT_PLANE0_CTX : Field := ⟨0x400200, [131072], 7, 2, .RO, fun _ => 0⟩
def PLT_ARR_STAT_PLANE1_HELD : Field := ⟨0x400200, [131072], 9, 1, .RO, fun _ => 0⟩
def PLT_ARR_STAT_PLANE1_CTX : Field := ⟨0x400200, [131072], 10, 2, .RO, fun _ => 0⟩
def PLT_ARR_STAT_FAST : Field := ⟨0x400200, [131072], 12, 1, .RO, fun _ => 0⟩
def PLT_ARR_STAT_row : Row :=
  ⟨0x400200, [(131072, 16)], 4, .R, .C, false, false,
   [PLT_ARR_STAT_BUSY, PLT_ARR_STAT_CLASS, PLT_ARR_STAT_CTX, PLT_ARR_STAT_SHADOW_READY,
    PLT_ARR_STAT_PLANE0_HELD, PLT_ARR_STAT_PLANE0_CTX, PLT_ARR_STAT_PLANE1_HELD, PLT_ARR_STAT_PLANE1_CTX,
    PLT_ARR_STAT_FAST]⟩
-- PLT_ARR_ERR: 07_plot_array_vector R246
def PLT_ARR_ERR_WPLANE_PAR : Field := ⟨0x400204, [131072], 0, 1, .W1C, fun _ => 0⟩
def PLT_ARR_ERR_ACC_PAR : Field := ⟨0x400204, [131072], 1, 1, .W1C, fun _ => 0⟩
def PLT_ARR_ERR_MODE_FAULT : Field := ⟨0x400204, [131072], 2, 1, .W1C, fun _ => 0⟩
def PLT_ARR_ERR_CTX : Field := ⟨0x400204, [131072], 3, 2, .RO, fun _ => 0⟩
def PLT_ARR_ERR_COUNT : Field := ⟨0x400204, [131072], 16, 16, .RO, fun _ => 0⟩
def PLT_ARR_ERR_row : Row :=
  ⟨0x400204, [(131072, 16)], 4, .R, .C, false, false,
   [PLT_ARR_ERR_WPLANE_PAR, PLT_ARR_ERR_ACC_PAR, PLT_ARR_ERR_MODE_FAULT, PLT_ARR_ERR_CTX, PLT_ARR_ERR_COUNT]⟩
-- PLT_NUM: 11_arithmetic_contract R364
def PLT_NUM_SAT : Field := ⟨0x400300, [131072, 16], 0, 16, .RO, fun _ => 0⟩
def PLT_NUM_OVF : Field := ⟨0x400300, [131072, 16], 16, 16, .RO, fun _ => 0⟩
def PLT_NUM_NAN_LOSS : Field := ⟨0x400300, [131072, 16], 32, 16, .RO, fun _ => 0⟩
def PLT_NUM_row : Row :=
  ⟨0x400300, [(131072, 16), (16, 4)], 8, .R, .C, false, false,
   [PLT_NUM_SAT, PLT_NUM_OVF, PLT_NUM_NAN_LOSS]⟩
-- PLT_FLUSH: 11_arithmetic_contract R362
def PLT_FLUSH_FLUSH_IN : Field := ⟨0x400308, [131072, 16], 0, 32, .RO, fun _ => 0⟩
def PLT_FLUSH_FLUSH_OUT : Field := ⟨0x400308, [131072, 16], 32, 32, .RO, fun _ => 0⟩
def PLT_FLUSH_row : Row :=
  ⟨0x400308, [(131072, 16), (16, 4)], 8, .R, .C, false, false,
   [PLT_FLUSH_FLUSH_IN, PLT_FLUSH_FLUSH_OUT]⟩
-- PLT_NUMFLAG: 11_arithmetic_contract R364
def PLT_NUMFLAG_FLAGS : Field := ⟨0x400340, [131072], 0, 16, .W1C, fun _ => 0⟩
def PLT_NUMFLAG_row : Row :=
  ⟨0x400340, [(131072, 16)], 4, .R, .C, false, false,
   [PLT_NUMFLAG_FLAGS]⟩
-- PLT_NUMCLR: 11_arithmetic_contract R365
def PLT_NUMCLR_CTX_MASK : Field := ⟨0x400344, [131072], 0, 4, .WP, fun _ => 0⟩
def PLT_NUMCLR_row : Row :=
  ⟨0x400344, [(131072, 16)], 4, .R, .C, false, false,
   [PLT_NUMCLR_CTX_MASK]⟩
-- PLT_SR_SEED: 11_arithmetic_contract R380
def PLT_SR_SEED_SEED : Field := ⟨0x400348, [131072], 0, 64, .RW, fun _ => 0⟩
def PLT_SR_SEED_row : Row :=
  ⟨0x400348, [(131072, 16)], 8, .R, .C, false, false,
   [PLT_SR_SEED_SEED]⟩
-- PLT_SR_DIE: 11_arithmetic_contract R380
def PLT_SR_DIE_DIE : Field := ⟨0x400350, [131072], 0, 8, .RW, fun _ => 0⟩
def PLT_SR_DIE_row : Row :=
  ⟨0x400350, [(131072, 16)], 4, .R, .C, false, false,
   [PLT_SR_DIE_DIE]⟩
-- STO_CTL: 08_plot_stores R284
def STO_CTL_CLEAR : Field := ⟨0x402000, [131072], 0, 1, .WP, fun _ => 0⟩
def STO_CTL_SCRUB_MS : Field := ⟨0x402000, [131072], 16, 8, .RW, fun _ => 0⟩
def STO_CTL_row : Row :=
  ⟨0x402000, [(131072, 16)], 4, .R, .C, false, false,
   [STO_CTL_CLEAR, STO_CTL_SCRUB_MS]⟩
-- STO_STAT: 08_plot_stores R284
def STO_STAT_CLEAR_BUSY : Field := ⟨0x402004, [131072], 0, 1, .RO, fun _ => 0⟩
def STO_STAT_SB_WS : Field := ⟨0x402004, [131072], 1, 6, .RO, fun _ => 0⟩
def STO_STAT_CLEAR_GEN : Field := ⟨0x402004, [131072], 16, 16, .RO, fun _ => 0⟩
def STO_STAT_row : Row :=
  ⟨0x402004, [(131072, 16)], 4, .R, .C, false, false,
   [STO_STAT_CLEAR_BUSY, STO_STAT_SB_WS, STO_STAT_CLEAR_GEN]⟩
-- STO_ERR: 08_plot_stores R275
def STO_ERR_VALID : Field := ⟨0x402010, [131072], 0, 1, .W1C, fun _ => 0⟩
def STO_ERR_KIND : Field := ⟨0x402010, [131072], 1, 2, .RO, fun _ => 0⟩
def STO_ERR_STORE : Field := ⟨0x402010, [131072], 3, 2, .RO, fun _ => 0⟩
def STO_ERR_ROW : Field := ⟨0x402010, [131072], 5, 15, .RO, fun _ => 0⟩
def STO_ERR_AGENT : Field := ⟨0x402010, [131072], 20, 3, .RO, fun _ => 0⟩
def STO_ERR_CTX : Field := ⟨0x402010, [131072], 23, 2, .RO, fun _ => 0⟩
def STO_ERR_TIME : Field := ⟨0x402010, [131072], 32, 32, .RO, fun _ => 0⟩
def STO_ERR_row : Row :=
  ⟨0x402010, [(131072, 16)], 8, .R, .C, false, false,
   [STO_ERR_VALID, STO_ERR_KIND, STO_ERR_STORE, STO_ERR_ROW, STO_ERR_AGENT, STO_ERR_CTX, STO_ERR_TIME]⟩
-- STO_ECC_CNT: 08_plot_stores R274
def STO_ECC_CNT_CE : Field := ⟨0x402018, [131072], 0, 16, .RO, fun _ => 0⟩
def STO_ECC_CNT_UE : Field := ⟨0x402018, [131072], 16, 16, .RO, fun _ => 0⟩
def STO_ECC_CNT_row : Row :=
  ⟨0x402018, [(131072, 16)], 4, .R, .C, false, false,
   [STO_ECC_CNT_CE, STO_ECC_CNT_UE]⟩
-- STO_INB_ERR: 08_plot_stores R278
def STO_INB_ERR_REASON : Field := ⟨0x402020, [131072], 0, 3, .RO, fun _ => 0⟩
def STO_INB_ERR_WINDOW : Field := ⟨0x402020, [131072], 3, 4, .RO, fun _ => 0⟩
def STO_INB_ERR_DIE : Field := ⟨0x402020, [131072], 8, 8, .RO, fun _ => 0⟩
def STO_INB_ERR_COUNT : Field := ⟨0x402020, [131072], 16, 16, .RO, fun _ => 0⟩
def STO_INB_ERR_row : Row :=
  ⟨0x402020, [(131072, 16)], 4, .R, .C, false, false,
   [STO_INB_ERR_REASON, STO_INB_ERR_WINDOW, STO_INB_ERR_DIE, STO_INB_ERR_COUNT]⟩
-- STO_CONFLICT: 08_plot_stores R272
def STO_CONFLICT_COUNT : Field := ⟨0x402040, [131072, 8], 0, 64, .RO, fun _ => 0⟩
def STO_CONFLICT_row : Row :=
  ⟨0x402040, [(131072, 16), (8, 3)], 8, .R, .C, false, false,
   [STO_CONFLICT_COUNT]⟩
-- STO_BANKCONF: 08_plot_stores R272
def STO_BANKCONF_COUNT : Field := ⟨0x402100, [131072, 4], 0, 16, .RO, fun _ => 0⟩
def STO_BANKCONF_row : Row :=
  ⟨0x402100, [(131072, 16), (4, 64)], 4, .R, .C, false, false,
   [STO_BANKCONF_COUNT]⟩
-- STO_WIN: 08_plot_stores R277
def STO_WIN_BASE_ROW : Field := ⟨0x402200, [131072, 8], 0, 15, .RW, fun _ => 0⟩
def STO_WIN_ROWS : Field := ⟨0x402200, [131072, 8], 16, 13, .RW, fun _ => 0⟩
def STO_WIN_STORE : Field := ⟨0x402200, [131072, 8], 29, 2, .RW, fun _ => 0⟩
def STO_WIN_EN : Field := ⟨0x402200, [131072, 8], 31, 1, .RW, fun _ => 0⟩
def STO_WIN_PROD_DIE : Field := ⟨0x402200, [131072, 8], 32, 8, .RW, fun _ => 0⟩
def STO_WIN_PROD_AGENT : Field := ⟨0x402200, [131072, 8], 40, 8, .RW, fun _ => 0⟩
def STO_WIN_EPOCH : Field := ⟨0x402200, [131072, 8], 48, 16, .RW, fun _ => 0⟩
def STO_WIN_row : Row :=
  ⟨0x402200, [(131072, 16), (8, 16)], 8, .R, .C, true, false,
   [STO_WIN_BASE_ROW, STO_WIN_ROWS, STO_WIN_STORE, STO_WIN_EN, STO_WIN_PROD_DIE, STO_WIN_PROD_AGENT,
    STO_WIN_EPOCH]⟩
-- STO_WINSTAT: 08_plot_stores R278
def STO_WINSTAT_NEXT_SEQ : Field := ⟨0x402300, [131072, 8], 0, 16, .RO, fun _ => 0⟩
def STO_WINSTAT_NEXT_OFF : Field := ⟨0x402300, [131072, 8], 16, 13, .RO, fun _ => 0⟩
def STO_WINSTAT_OUTSTANDING : Field := ⟨0x402300, [131072, 8], 32, 13, .RO, fun _ => 0⟩
def STO_WINSTAT_REFUSED : Field := ⟨0x402300, [131072, 8], 48, 16, .RO, fun _ => 0⟩
def STO_WINSTAT_row : Row :=
  ⟨0x402300, [(131072, 16), (8, 16)], 8, .R, .C, false, false,
   [STO_WINSTAT_NEXT_SEQ, STO_WINSTAT_NEXT_OFF, STO_WINSTAT_OUTSTANDING, STO_WINSTAT_REFUSED]⟩
-- STO_DBG_ROW: 08_plot_stores R286
def STO_DBG_ROW_ROW : Field := ⟨0x403000, [131072], 0, 15, .RW, fun _ => 0⟩
def STO_DBG_ROW_STORE : Field := ⟨0x403000, [131072], 16, 2, .RW, fun _ => 0⟩
def STO_DBG_ROW_row : Row :=
  ⟨0x403000, [(131072, 16)], 4, .F, .C, false, false,
   [STO_DBG_ROW_ROW, STO_DBG_ROW_STORE]⟩
-- STO_DBG_DATA: 08_plot_stores R286
def STO_DBG_DATA_WORD : Field := ⟨0x403100, [131072, 4], 0, 32, .RW, fun _ => 0⟩
def STO_DBG_DATA_row : Row :=
  ⟨0x403100, [(131072, 16), (4, 64)], 4, .F, .C, false, false,
   [STO_DBG_DATA_WORD]⟩
-- RKE_DT: 09_rake_tiling R294
def RKE_DT_WORD : Field := ⟨0x404000, [131072, 256, 4], 0, 32, .RW, fun _ => 0⟩
def RKE_DT_row : Row :=
  ⟨0x404000, [(131072, 16), (256, 4), (4, 64)], 4, .R, .C, false, true,
   [RKE_DT_WORD]⟩
-- RKE_DT_COMMIT: 09_rake_tiling R308
def RKE_DT_COMMIT_COMMIT : Field := ⟨0x404400, [131072, 4], 0, 1, .WP, fun _ => 0⟩
def RKE_DT_COMMIT_DISCARD : Field := ⟨0x404400, [131072, 4], 1, 1, .WP, fun _ => 0⟩
def RKE_DT_COMMIT_PENDING : Field := ⟨0x404400, [131072, 4], 2, 1, .RO, fun _ => 0⟩
def RKE_DT_COMMIT_SUPERSEDED : Field := ⟨0x404400, [131072, 4], 3, 1, .W1C, fun _ => 0⟩
def RKE_DT_COMMIT_REFUSED : Field := ⟨0x404400, [131072, 4], 4, 1, .W1C, fun _ => 0⟩
def RKE_DT_COMMIT_GEN : Field := ⟨0x404400, [131072, 4], 8, 8, .RO, fun _ => 0⟩
def RKE_DT_COMMIT_row : Row :=
  ⟨0x404400, [(131072, 16), (4, 4)], 4, .R, .C, false, false,
   [RKE_DT_COMMIT_COMMIT, RKE_DT_COMMIT_DISCARD, RKE_DT_COMMIT_PENDING, RKE_DT_COMMIT_SUPERSEDED,
    RKE_DT_COMMIT_REFUSED, RKE_DT_COMMIT_GEN]⟩
-- RKE_DTERR: 09_rake_tiling R299
def RKE_DTERR_CHECK : Field := ⟨0x404410, [131072], 0, 4, .RO, fun _ => 0⟩
def RKE_DTERR_CTX : Field := ⟨0x404410, [131072], 4, 2, .RO, fun _ => 0⟩
def RKE_DTERR_VALID : Field := ⟨0x404410, [131072], 31, 1, .W1C, fun _ => 0⟩
def RKE_DTERR_row : Row :=
  ⟨0x404410, [(131072, 16)], 4, .R, .C, false, false,
   [RKE_DTERR_CHECK, RKE_DTERR_CTX, RKE_DTERR_VALID]⟩
-- RKE_CTX: 09_rake_tiling R288
def RKE_CTX_STATE : Field := ⟨0x404800, [131072, 8], 0, 2, .RO, fun _ => 0⟩
def RKE_CTX_PC : Field := ⟨0x404800, [131072, 8], 2, 12, .RO, fun _ => 0⟩
def RKE_CTX_WAIT_KIND : Field := ⟨0x404800, [131072, 8], 14, 4, .RO, fun _ => 0⟩
def RKE_CTX_WAIT_ARG : Field := ⟨0x404800, [131072, 8], 32, 32, .RO, fun _ => 0⟩
def RKE_CTX_row : Row :=
  ⟨0x404800, [(131072, 16), (8, 4)], 8, .R, .C, false, false,
   [RKE_CTX_STATE, RKE_CTX_PC, RKE_CTX_WAIT_KIND, RKE_CTX_WAIT_ARG]⟩
-- RKE_ERR: 09_rake_tiling R325
def RKE_ERR_VALID : Field := ⟨0x404840, [131072], 0, 1, .W1C, fun _ => 0⟩
def RKE_ERR_CAUSE : Field := ⟨0x404840, [131072], 1, 5, .RO, fun _ => 0⟩
def RKE_ERR_CTX : Field := ⟨0x404840, [131072], 6, 2, .RO, fun _ => 0⟩
def RKE_ERR_PC : Field := ⟨0x404840, [131072], 8, 12, .RO, fun _ => 0⟩
def RKE_ERR_ARG : Field := ⟨0x404840, [131072], 32, 32, .RO, fun _ => 0⟩
def RKE_ERR_row : Row :=
  ⟨0x404840, [(131072, 16)], 8, .R, .C, false, false,
   [RKE_ERR_VALID, RKE_ERR_CAUSE, RKE_ERR_CTX, RKE_ERR_PC, RKE_ERR_ARG]⟩
-- RKE_TILES: 09_rake_tiling R300
def RKE_TILES_ORDINAL : Field := ⟨0x404860, [131072, 4], 0, 32, .RO, fun _ => 0⟩
def RKE_TILES_row : Row :=
  ⟨0x404860, [(131072, 16), (4, 4)], 4, .R, .C, false, false,
   [RKE_TILES_ORDINAL]⟩
-- RKE_SIG: 09_rake_tiling R316
def RKE_SIG_COUNT : Field := ⟨0x404900, [131072, 32, 4], 0, 16, .RO, fun _ => 0⟩
def RKE_SIG_row : Row :=
  ⟨0x404900, [(131072, 16), (32, 4), (4, 8)], 4, .R, .C, false, false,
   [RKE_SIG_COUNT]⟩
-- RKE_CRD: 09_rake_tiling R312
def RKE_CRD_EN : Field := ⟨0x404a00, [131072, 8], 0, 1, .RW, fun _ => 0⟩
def RKE_CRD_BOUND : Field := ⟨0x404a00, [131072, 8], 1, 1, .RO, fun _ => 0⟩
def RKE_CRD_WINDOW : Field := ⟨0x404a00, [131072, 8], 2, 4, .RW, fun _ => 0⟩
def RKE_CRD_DEST_PLOT : Field := ⟨0x404a00, [131072, 8], 6, 4, .RW, fun _ => 0⟩
def RKE_CRD_DEST_DIE : Field := ⟨0x404a00, [131072, 8], 10, 8, .RW, fun _ => 0⟩
def RKE_CRD_AGENT : Field := ⟨0x404a00, [131072, 8], 18, 8, .RW, fun _ => 0⟩
def RKE_CRD_CREDITS : Field := ⟨0x404a00, [131072, 8], 32, 13, .RO, fun _ => 0⟩
def RKE_CRD_EPOCH : Field := ⟨0x404a00, [131072, 8], 48, 16, .RO, fun _ => 0⟩
def RKE_CRD_row : Row :=
  ⟨0x404a00, [(131072, 16), (8, 16)], 8, .R, .C, false, false,
   [RKE_CRD_EN, RKE_CRD_BOUND, RKE_CRD_WINDOW, RKE_CRD_DEST_PLOT, RKE_CRD_DEST_DIE, RKE_CRD_AGENT,
    RKE_CRD_CREDITS, RKE_CRD_EPOCH]⟩
-- RKE_CRDSEQ: 09_rake_tiling R314
def RKE_CRDSEQ_NEXT_SEQ : Field := ⟨0x404a80, [131072, 4], 0, 16, .RO, fun _ => 0⟩
def RKE_CRDSEQ_row : Row :=
  ⟨0x404a80, [(131072, 16), (4, 16)], 4, .R, .C, false, false,
   [RKE_CRDSEQ_NEXT_SEQ]⟩
-- VEC_RSC: 07_plot_array_vector R249
def VEC_RSC_BASE_ROW : Field := ⟨0x410000, [131072, 64], 0, 15, .RW, fun _ => 0⟩
def VEC_RSC_CHANNELS : Field := ⟨0x410000, [131072, 64], 16, 13, .RW, fun _ => 0⟩
def VEC_RSC_BIAS_EN : Field := ⟨0x410000, [131072, 64], 29, 1, .RW, fun _ => 0⟩
def VEC_RSC_EN : Field := ⟨0x410000, [131072, 64], 30, 1, .RW, fun _ => 0⟩
def VEC_RSC_row : Row :=
  ⟨0x410000, [(131072, 16), (64, 4)], 4, .R, .C, false, true,
   [VEC_RSC_BASE_ROW, VEC_RSC_CHANNELS, VEC_RSC_BIAS_EN, VEC_RSC_EN]⟩
-- VEC_ACT: 07_plot_array_vector R251
def VEC_ACT_BASE_ROW : Field := ⟨0x410004, [131072, 64], 0, 15, .RW, fun _ => 0⟩
def VEC_ACT_SEGMENTS : Field := ⟨0x410004, [131072, 64], 16, 6, .RW, fun _ => 0⟩
def VEC_ACT_DEGREE : Field := ⟨0x410004, [131072, 64], 22, 2, .RW, fun _ => 0⟩
def VEC_ACT_EN : Field := ⟨0x410004, [131072, 64], 24, 1, .RW, fun _ => 0⟩
def VEC_ACT_row : Row :=
  ⟨0x410004, [(131072, 16), (64, 4)], 4, .R, .C, false, true,
   [VEC_ACT_BASE_ROW, VEC_ACT_SEGMENTS, VEC_ACT_DEGREE, VEC_ACT_EN]⟩
-- VEC_COMMIT: 07_plot_array_vector R252
def VEC_COMMIT_COMMIT : Field := ⟨0x410008, [131072, 64], 0, 1, .WP, fun _ => 0⟩
def VEC_COMMIT_DISCARD : Field := ⟨0x410008, [131072, 64], 1, 1, .WP, fun _ => 0⟩
def VEC_COMMIT_PENDING : Field := ⟨0x410008, [131072, 64], 2, 1, .RO, fun _ => 0⟩
def VEC_COMMIT_SUPERSEDED : Field := ⟨0x410008, [131072, 64], 3, 1, .W1C, fun _ => 0⟩
def VEC_COMMIT_REFUSED : Field := ⟨0x410008, [131072, 64], 4, 1, .W1C, fun _ => 0⟩
def VEC_COMMIT_GEN : Field := ⟨0x410008, [131072, 64], 8, 8, .RO, fun _ => 0⟩
def VEC_COMMIT_row : Row :=
  ⟨0x410008, [(131072, 16), (64, 4)], 4, .R, .C, false, false,
   [VEC_COMMIT_COMMIT, VEC_COMMIT_DISCARD, VEC_COMMIT_PENDING, VEC_COMMIT_SUPERSEDED, VEC_COMMIT_REFUSED,
    VEC_COMMIT_GEN]⟩
-- VEC_STAT: 07_plot_array_vector R252
def VEC_STAT_SET_LOADED : Field := ⟨0x410100, [131072], 0, 4, .RO, fun _ => 0⟩
def VEC_STAT_BP_FAULT : Field := ⟨0x410100, [131072], 4, 4, .W1C, fun _ => 0⟩
def VEC_STAT_row : Row :=
  ⟨0x410100, [(131072, 16)], 4, .R, .C, false, false,
   [VEC_STAT_SET_LOADED, VEC_STAT_BP_FAULT]⟩
-- SIV_STAT: 14_lookup_path R427
def SIV_STAT_BUSY : Field := ⟨0x600000, [4096], 0, 1, .RO, fun _ => 0⟩
def SIV_STAT_BUFFERS : Field := ⟨0x600000, [4096], 1, 3, .RO, fun _ => 0⟩
def SIV_STAT_PREFETCH : Field := ⟨0x600000, [4096], 4, 1, .RO, fun _ => 0⟩
def SIV_STAT_row : Row :=
  ⟨0x600000, [(4096, 2)], 4, .R, .C, false, false,
   [SIV_STAT_BUSY, SIV_STAT_BUFFERS, SIV_STAT_PREFETCH]⟩
-- SIV_PLACES: 14_lookup_path R429
def SIV_PLACES_COUNT : Field := ⟨0x600010, [4096], 0, 64, .RO, fun _ => 0⟩
def SIV_PLACES_row : Row :=
  ⟨0x600010, [(4096, 2)], 8, .R, .C, false, false,
   [SIV_PLACES_COUNT]⟩
-- SIV_PLACES_SNAP: 14_lookup_path R429
def SIV_PLACES_SNAP_COUNT : Field := ⟨0x600018, [4096], 0, 64, .RO, fun _ => 0⟩
def SIV_PLACES_SNAP_row : Row :=
  ⟨0x600018, [(4096, 2)], 8, .R, .C, false, false,
   [SIV_PLACES_SNAP_COUNT]⟩
-- SIV_UNIQUE: 14_lookup_path R429
def SIV_UNIQUE_COUNT : Field := ⟨0x600020, [4096], 0, 64, .RO, fun _ => 0⟩
def SIV_UNIQUE_row : Row :=
  ⟨0x600020, [(4096, 2)], 8, .R, .C, false, false,
   [SIV_UNIQUE_COUNT]⟩
-- SIV_PFDROP: 14_lookup_path R448
def SIV_PFDROP_COUNT : Field := ⟨0x600028, [4096], 0, 32, .RO, fun _ => 0⟩
def SIV_PFDROP_row : Row :=
  ⟨0x600028, [(4096, 2)], 4, .R, .C, false, false,
   [SIV_PFDROP_COUNT]⟩
-- SIV_DIR: 14_lookup_path R447
def SIV_DIR_WORD : Field := ⟨0x602000, [64, 4], 0, 32, .RW, fun _ => 0⟩
def SIV_DIR_row : Row :=
  ⟨0x602000, [(64, 256), (4, 16)], 4, .R, .C, false, true,
   [SIV_DIR_WORD]⟩
-- SIV_DIR_COMMIT: 14_lookup_path R447
def SIV_DIR_COMMIT_COMMIT : Field := ⟨0x606000, [4], 0, 1, .WP, fun _ => 0⟩
def SIV_DIR_COMMIT_DISCARD : Field := ⟨0x606000, [4], 1, 1, .WP, fun _ => 0⟩
def SIV_DIR_COMMIT_PENDING : Field := ⟨0x606000, [4], 2, 1, .RO, fun _ => 0⟩
def SIV_DIR_COMMIT_SUPERSEDED : Field := ⟨0x606000, [4], 3, 1, .W1C, fun _ => 0⟩
def SIV_DIR_COMMIT_REFUSED : Field := ⟨0x606000, [4], 4, 1, .W1C, fun _ => 0⟩
def SIV_DIR_COMMIT_GEN : Field := ⟨0x606000, [4], 8, 8, .RO, fun _ => 0⟩
def SIV_DIR_COMMIT_row : Row :=
  ⟨0x606000, [(4, 256)], 4, .R, .C, false, false,
   [SIV_DIR_COMMIT_COMMIT, SIV_DIR_COMMIT_DISCARD, SIV_DIR_COMMIT_PENDING, SIV_DIR_COMMIT_SUPERSEDED,
    SIV_DIR_COMMIT_REFUSED, SIV_DIR_COMMIT_GEN]⟩
-- SIV_BASE: 14_lookup_path R447
def SIV_BASE_BASE : Field := ⟨0x607000, [8], 0, 64, .RW, fun _ => 0⟩
def SIV_BASE_row : Row :=
  ⟨0x607000, [(8, 256)], 8, .R, .C, true, false,
   [SIV_BASE_BASE]⟩
-- RWC_CTL: 14_lookup_path R439
def RWC_CTL_TRAIN : Field := ⟨0x680000, [], 0, 1, .RW, fun _ => 0⟩
def RWC_CTL_EPOCH_ADV : Field := ⟨0x680000, [], 1, 1, .WP, fun _ => 0⟩
def RWC_CTL_INVAL_ALL : Field := ⟨0x680000, [], 2, 1, .WP, fun _ => 0⟩
def RWC_CTL_row : Row :=
  ⟨0x680000, [], 4, .R, .C, false, false,
   [RWC_CTL_TRAIN, RWC_CTL_EPOCH_ADV, RWC_CTL_INVAL_ALL]⟩
-- RWC_STAT: 14_lookup_path R439
def RWC_STAT_EPOCH : Field := ⟨0x680004, [], 0, 16, .RO, fun _ => 0⟩
def RWC_STAT_INV_BUSY : Field := ⟨0x680004, [], 16, 1, .RO, fun _ => 0⟩
def RWC_STAT_row : Row :=
  ⟨0x680004, [], 4, .R, .C, false, false,
   [RWC_STAT_EPOCH, RWC_STAT_INV_BUSY]⟩
-- RWC_INV_KEY: 14_lookup_path R438
def RWC_INV_KEY_TKEY : Field := ⟨0x680008, [], 0, 32, .WO, fun _ => 0⟩
def RWC_INV_KEY_row : Row :=
  ⟨0x680008, [], 4, .R, .C, false, false,
   [RWC_INV_KEY_TKEY]⟩
-- RWC_PARAM: 14_lookup_path R433
def RWC_PARAM_INSERT : Field := ⟨0x680010, [], 0, 8, .RW, fun _ => 1⟩
def RWC_PARAM_PF_INSERT : Field := ⟨0x680010, [], 8, 8, .RW, fun _ => 0⟩
def RWC_PARAM_ADMIT : Field := ⟨0x680010, [], 16, 8, .RW, fun _ => 255⟩
def RWC_PARAM_DECAY_BATCHES : Field := ⟨0x680010, [], 24, 8, .RW, fun _ => 16⟩
def RWC_PARAM_row : Row :=
  ⟨0x680010, [], 4, .R, .C, false, true,
   [RWC_PARAM_INSERT, RWC_PARAM_PF_INSERT, RWC_PARAM_ADMIT, RWC_PARAM_DECAY_BATCHES]⟩
-- RWC_PARAM_COMMIT: 14_lookup_path R433
def RWC_PARAM_COMMIT_COMMIT : Field := ⟨0x680014, [], 0, 1, .WP, fun _ => 0⟩
def RWC_PARAM_COMMIT_DISCARD : Field := ⟨0x680014, [], 1, 1, .WP, fun _ => 0⟩
def RWC_PARAM_COMMIT_PENDING : Field := ⟨0x680014, [], 2, 1, .RO, fun _ => 0⟩
def RWC_PARAM_COMMIT_SUPERSEDED : Field := ⟨0x680014, [], 3, 1, .W1C, fun _ => 0⟩
def RWC_PARAM_COMMIT_REFUSED : Field := ⟨0x680014, [], 4, 1, .W1C, fun _ => 0⟩
def RWC_PARAM_COMMIT_GEN : Field := ⟨0x680014, [], 8, 8, .RO, fun _ => 0⟩
def RWC_PARAM_COMMIT_row : Row :=
  ⟨0x680014, [], 4, .R, .C, false, false,
   [RWC_PARAM_COMMIT_COMMIT, RWC_PARAM_COMMIT_DISCARD, RWC_PARAM_COMMIT_PENDING, RWC_PARAM_COMMIT_SUPERSEDED,
    RWC_PARAM_COMMIT_REFUSED, RWC_PARAM_COMMIT_GEN]⟩
-- RWC_PIN_KEY: 14_lookup_path R436
def RWC_PIN_KEY_TKEY : Field := ⟨0x680020, [], 0, 32, .RW, fun _ => 0⟩
def RWC_PIN_KEY_EN : Field := ⟨0x680020, [], 32, 1, .RW, fun _ => 0⟩
def RWC_PIN_KEY_row : Row :=
  ⟨0x680020, [], 8, .R, .C, false, false,
   [RWC_PIN_KEY_TKEY, RWC_PIN_KEY_EN]⟩
-- RWC_PIN_BASE: 14_lookup_path R436
def RWC_PIN_BASE_ROW : Field := ⟨0x680028, [], 0, 40, .RW, fun _ => 0⟩
def RWC_PIN_BASE_row : Row :=
  ⟨0x680028, [], 8, .R, .C, false, false,
   [RWC_PIN_BASE_ROW]⟩
-- RWC_PIN_LIMIT: 14_lookup_path R436
def RWC_PIN_LIMIT_ROW : Field := ⟨0x680030, [], 0, 40, .RW, fun _ => 0⟩
def RWC_PIN_LIMIT_row : Row :=
  ⟨0x680030, [], 8, .R, .C, false, false,
   [RWC_PIN_LIMIT_ROW]⟩
-- RWC_LOOKUP: 14_lookup_path R432
def RWC_LOOKUP_COUNT : Field := ⟨0x680100, [], 0, 64, .RO, fun _ => 0⟩
def RWC_LOOKUP_row : Row :=
  ⟨0x680100, [], 8, .R, .C, false, false,
   [RWC_LOOKUP_COUNT]⟩
-- RWC_LOOKUP_SNAP: 14_lookup_path R432
def RWC_LOOKUP_SNAP_COUNT : Field := ⟨0x680108, [], 0, 64, .RO, fun _ => 0⟩
def RWC_LOOKUP_SNAP_row : Row :=
  ⟨0x680108, [], 8, .R, .C, false, false,
   [RWC_LOOKUP_SNAP_COUNT]⟩
-- RWC_HIT: 14_lookup_path R432
def RWC_HIT_COUNT : Field := ⟨0x680110, [], 0, 64, .RO, fun _ => 0⟩
def RWC_HIT_row : Row :=
  ⟨0x680110, [], 8, .R, .C, false, false,
   [RWC_HIT_COUNT]⟩
-- RWC_MISS: 14_lookup_path R432
def RWC_MISS_COUNT : Field := ⟨0x680118, [], 0, 64, .RO, fun _ => 0⟩
def RWC_MISS_row : Row :=
  ⟨0x680118, [], 8, .R, .C, false, false,
   [RWC_MISS_COUNT]⟩
-- RWC_FILL: 14_lookup_path R434
def RWC_FILL_COUNT : Field := ⟨0x680120, [], 0, 64, .RO, fun _ => 0⟩
def RWC_FILL_row : Row :=
  ⟨0x680120, [], 8, .R, .C, false, false,
   [RWC_FILL_COUNT]⟩
-- RWC_BYPASS: 14_lookup_path R434
def RWC_BYPASS_COUNT : Field := ⟨0x680128, [], 0, 64, .RO, fun _ => 0⟩
def RWC_BYPASS_row : Row :=
  ⟨0x680128, [], 8, .R, .C, false, false,
   [RWC_BYPASS_COUNT]⟩
-- RWC_DISCARD: 14_lookup_path R437
def RWC_DISCARD_COUNT : Field := ⟨0x680130, [], 0, 64, .RO, fun _ => 0⟩
def RWC_DISCARD_row : Row :=
  ⟨0x680130, [], 8, .R, .C, false, false,
   [RWC_DISCARD_COUNT]⟩
-- FUR_STAT: 14_lookup_path R442
def FUR_STAT_BUSY : Field := ⟨0x700000, [65536], 0, 1, .RO, fun _ => 0⟩
def FUR_STAT_UNPOWERED : Field := ⟨0x700000, [65536], 1, 1, .RO, fun _ => 0⟩
def FUR_STAT_row : Row :=
  ⟨0x700000, [(65536, 6)], 4, .R, .S, false, false,
   [FUR_STAT_BUSY, FUR_STAT_UNPOWERED]⟩
-- FUR_ERR: 14_lookup_path R443
def FUR_ERR_VALID : Field := ⟨0x700010, [65536], 0, 1, .W1C, fun _ => 0⟩
def FUR_ERR_UE : Field := ⟨0x700010, [65536], 1, 1, .RO, fun _ => 0⟩
def FUR_ERR_ROW : Field := ⟨0x700010, [65536], 2, 38, .RO, fun _ => 0⟩
def FUR_ERR_row : Row :=
  ⟨0x700010, [(65536, 6)], 8, .R, .C, false, false,
   [FUR_ERR_VALID, FUR_ERR_UE, FUR_ERR_ROW]⟩
-- FUR_ROWS: 14_lookup_path R442
def FUR_ROWS_COUNT : Field := ⟨0x700100, [65536], 0, 64, .RO, fun _ => 0⟩
def FUR_ROWS_row : Row :=
  ⟨0x700100, [(65536, 6)], 8, .R, .C, false, false,
   [FUR_ROWS_COUNT]⟩
-- FUR_ROWS_SNAP: 14_lookup_path R442
def FUR_ROWS_SNAP_COUNT : Field := ⟨0x700108, [65536], 0, 64, .RO, fun _ => 0⟩
def FUR_ROWS_SNAP_row : Row :=
  ⟨0x700108, [(65536, 6)], 8, .R, .C, false, false,
   [FUR_ROWS_SNAP_COUNT]⟩
-- FUR_PARTIALS: 14_lookup_path R442
def FUR_PARTIALS_COUNT : Field := ⟨0x700110, [65536], 0, 64, .RO, fun _ => 0⟩
def FUR_PARTIALS_row : Row :=
  ⟨0x700110, [(65536, 6)], 8, .R, .C, false, false,
   [FUR_PARTIALS_COUNT]⟩
-- FUR_UPD_CNT: 15_sparse_updates R462
def FUR_UPD_CNT_COUNT : Field := ⟨0x700200, [65536], 0, 64, .RO, fun _ => 0⟩
def FUR_UPD_CNT_row : Row :=
  ⟨0x700200, [(65536, 6)], 8, .R, .C, false, false,
   [FUR_UPD_CNT_COUNT]⟩
-- FUR_UPD_SKIP: 15_sparse_updates R467
def FUR_UPD_SKIP_UE : Field := ⟨0x700208, [65536], 0, 16, .RO, fun _ => 0⟩
def FUR_UPD_SKIP_NONFINITE : Field := ⟨0x700208, [65536], 16, 16, .RO, fun _ => 0⟩
def FUR_UPD_SKIP_STALE : Field := ⟨0x700208, [65536], 32, 16, .RO, fun _ => 0⟩
def FUR_UPD_SKIP_SAT : Field := ⟨0x700208, [65536], 48, 16, .RO, fun _ => 0⟩
def FUR_UPD_SKIP_row : Row :=
  ⟨0x700208, [(65536, 6)], 8, .R, .C, false, false,
   [FUR_UPD_SKIP_UE, FUR_UPD_SKIP_NONFINITE, FUR_UPD_SKIP_STALE, FUR_UPD_SKIP_SAT]⟩
-- FUR_LOCK: 15_sparse_updates R461
def FUR_LOCK_EPOCH : Field := ⟨0x700210, [65536], 0, 16, .RW, fun _ => 0⟩
def FUR_LOCK_HELD : Field := ⟨0x700210, [65536], 16, 7, .RO, fun _ => 0⟩
def FUR_LOCK_row : Row :=
  ⟨0x700210, [(65536, 6)], 4, .R, .C, false, false,
   [FUR_LOCK_EPOCH, FUR_LOCK_HELD]⟩
-- FUR_UPD_ERR: 15_sparse_updates R467
def FUR_UPD_ERR_VALID : Field := ⟨0x700218, [65536], 0, 1, .W1C, fun _ => 0⟩
def FUR_UPD_ERR_KIND : Field := ⟨0x700218, [65536], 1, 1, .RO, fun _ => 0⟩
def FUR_UPD_ERR_ROW : Field := ⟨0x700218, [65536], 2, 38, .RO, fun _ => 0⟩
def FUR_UPD_ERR_WRITER : Field := ⟨0x700218, [65536], 40, 8, .RO, fun _ => 0⟩
def FUR_UPD_ERR_row : Row :=
  ⟨0x700218, [(65536, 6)], 8, .R, .C, false, false,
   [FUR_UPD_ERR_VALID, FUR_UPD_ERR_KIND, FUR_UPD_ERR_ROW, FUR_UPD_ERR_WRITER]⟩
-- FUR_GEO: 14_lookup_path R447
def FUR_GEO_WORD : Field := ⟨0x701000, [65536, 16, 4], 0, 32, .RW, fun _ => 0⟩
def FUR_GEO_row : Row :=
  ⟨0x701000, [(65536, 6), (16, 256), (4, 4)], 4, .R, .C, false, true,
   [FUR_GEO_WORD]⟩
-- FUR_GEO_COMMIT: 14_lookup_path R447
def FUR_GEO_COMMIT_COMMIT : Field := ⟨0x702000, [65536, 4], 0, 1, .WP, fun _ => 0⟩
def FUR_GEO_COMMIT_DISCARD : Field := ⟨0x702000, [65536, 4], 1, 1, .WP, fun _ => 0⟩
def FUR_GEO_COMMIT_PENDING : Field := ⟨0x702000, [65536, 4], 2, 1, .RO, fun _ => 0⟩
def FUR_GEO_COMMIT_SUPERSEDED : Field := ⟨0x702000, [65536, 4], 3, 1, .W1C, fun _ => 0⟩
def FUR_GEO_COMMIT_REFUSED : Field := ⟨0x702000, [65536, 4], 4, 1, .W1C, fun _ => 0⟩
def FUR_GEO_COMMIT_GEN : Field := ⟨0x702000, [65536, 4], 8, 8, .RO, fun _ => 0⟩
def FUR_GEO_COMMIT_row : Row :=
  ⟨0x702000, [(65536, 6), (4, 256)], 4, .R, .C, false, false,
   [FUR_GEO_COMMIT_COMMIT, FUR_GEO_COMMIT_DISCARD, FUR_GEO_COMMIT_PENDING, FUR_GEO_COMMIT_SUPERSEDED,
    FUR_GEO_COMMIT_REFUSED, FUR_GEO_COMMIT_GEN]⟩
-- CSK_CTL: 16_ciskaca_link R494
def CSK_CTL_ENABLE : Field := ⟨0x800000, [65536], 0, 1, .RW, fun _ => 0⟩
def CSK_CTL_RETRAIN : Field := ⟨0x800000, [65536], 1, 1, .WP, fun _ => 0⟩
def CSK_CTL_UNQUAR : Field := ⟨0x800000, [65536], 2, 1, .WP, fun _ => 0⟩
def CSK_CTL_row : Row :=
  ⟨0x800000, [(65536, 8)], 4, .R, .S, false, false,
   [CSK_CTL_ENABLE, CSK_CTL_RETRAIN, CSK_CTL_UNQUAR]⟩
-- CSK_STAT: 16_ciskaca_link R471
def CSK_STAT_STATE : Field := ⟨0x800004, [65536], 0, 3, .RO, fun _ => 0⟩
def CSK_STAT_D2D : Field := ⟨0x800004, [65536], 3, 1, .RO, fun _ => 0⟩
def CSK_STAT_DEGRADED : Field := ⟨0x800004, [65536], 4, 1, .RO, fun _ => 0⟩
def CSK_STAT_PARTNER_EN : Field := ⟨0x800004, [65536], 5, 1, .RO, fun _ => 0⟩
def CSK_STAT_PEER_QUAR : Field := ⟨0x800004, [65536], 6, 1, .RO, fun _ => 0⟩
def CSK_STAT_MISWIRED : Field := ⟨0x800004, [65536], 7, 1, .RO, fun _ => 0⟩
def CSK_STAT_ID_CONFLICT : Field := ⟨0x800004, [65536], 8, 1, .RO, fun _ => 0⟩
def CSK_STAT_row : Row :=
  ⟨0x800004, [(65536, 8)], 4, .R, .S, false, false,
   [CSK_STAT_STATE, CSK_STAT_D2D, CSK_STAT_DEGRADED, CSK_STAT_PARTNER_EN, CSK_STAT_PEER_QUAR,
    CSK_STAT_MISWIRED, CSK_STAT_ID_CONFLICT]⟩
-- CSK_PARTNER: 16_ciskaca_link R497
def CSK_PARTNER_SERIAL : Field := ⟨0x800008, [65536], 0, 64, .RO, fun _ => 0⟩
def CSK_PARTNER_row : Row :=
  ⟨0x800008, [(65536, 8)], 8, .R, .S, false, false,
   [CSK_PARTNER_SERIAL]⟩
-- CSK_PARTNER_ID: 16_ciskaca_link R497
def CSK_PARTNER_ID_DIE : Field := ⟨0x800010, [65536], 0, 8, .RO, fun _ => 0⟩
def CSK_PARTNER_ID_PORT : Field := ⟨0x800010, [65536], 8, 3, .RO, fun _ => 0⟩
def CSK_PARTNER_ID_PKG_POS : Field := ⟨0x800010, [65536], 11, 1, .RO, fun _ => 0⟩
def CSK_PARTNER_ID_ROLE : Field := ⟨0x800010, [65536], 12, 2, .RO, fun _ => 0⟩
def CSK_PARTNER_ID_ID_VALID : Field := ⟨0x800010, [65536], 14, 1, .RO, fun _ => 0⟩
def CSK_PARTNER_ID_row : Row :=
  ⟨0x800010, [(65536, 8)], 4, .R, .S, false, false,
   [CSK_PARTNER_ID_DIE, CSK_PARTNER_ID_PORT, CSK_PARTNER_ID_PKG_POS, CSK_PARTNER_ID_ROLE,
    CSK_PARTNER_ID_ID_VALID]⟩
-- CSK_EPOCH: 16_ciskaca_link R476
def CSK_EPOCH_RX_EPOCH : Field := ⟨0x800014, [65536], 0, 16, .RO, fun _ => 0⟩
def CSK_EPOCH_PEER_EPOCH : Field := ⟨0x800014, [65536], 16, 16, .RO, fun _ => 0⟩
def CSK_EPOCH_row : Row :=
  ⟨0x800014, [(65536, 8)], 4, .R, .S, false, false,
   [CSK_EPOCH_RX_EPOCH, CSK_EPOCH_PEER_EPOCH]⟩
-- CSK_QWIN: 16_ciskaca_link R494
def CSK_QWIN_WIN_US : Field := ⟨0x800018, [65536], 0, 16, .RW, fun _ => 1000⟩
def CSK_QWIN_row : Row :=
  ⟨0x800018, [(65536, 8)], 4, .R, .S, false, false,
   [CSK_QWIN_WIN_US]⟩
-- CSK_VLOG_PI: 16_ciskaca_link R492
def CSK_VLOG_PI_PI : Field := ⟨0x80001c, [65536], 0, 16, .RO, fun _ => 0⟩
def CSK_VLOG_PI_row : Row :=
  ⟨0x80001c, [(65536, 8)], 4, .R, .S, false, false,
   [CSK_VLOG_PI_PI]⟩
-- CSK_VIOL_CNT: 16_ciskaca_link R492
def CSK_VIOL_CNT_COUNT : Field := ⟨0x800020, [65536], 0, 16, .RO, fun _ => 0⟩
def CSK_VIOL_CNT_CLR : Field := ⟨0x800020, [65536], 31, 1, .WP, fun _ => 0⟩
def CSK_VIOL_CNT_row : Row :=
  ⟨0x800020, [(65536, 8)], 4, .R, .S, false, false,
   [CSK_VIOL_CNT_COUNT, CSK_VIOL_CNT_CLR]⟩
-- CSK_FEC: 16_ciskaca_link R473
def CSK_FEC_CORR : Field := ⟨0x800028, [65536], 0, 32, .RO, fun _ => 0⟩
def CSK_FEC_UNCORR : Field := ⟨0x800028, [65536], 32, 16, .RO, fun _ => 0⟩
def CSK_FEC_RETRAINS : Field := ⟨0x800028, [65536], 48, 16, .RO, fun _ => 0⟩
def CSK_FEC_row : Row :=
  ⟨0x800028, [(65536, 8)], 8, .R, .S, false, false,
   [CSK_FEC_CORR, CSK_FEC_UNCORR, CSK_FEC_RETRAINS]⟩
-- CSK_REPLAY: 16_ciskaca_link R475
def CSK_REPLAY_COUNT : Field := ⟨0x800030, [65536], 0, 32, .RO, fun _ => 0⟩
def CSK_REPLAY_row : Row :=
  ⟨0x800030, [(65536, 8)], 4, .R, .S, false, false,
   [CSK_REPLAY_COUNT]⟩
-- CSK_UNREACH: 16_ciskaca_link R622
def CSK_UNREACH_COUNT : Field := ⟨0x800034, [65536], 0, 32, .RO, fun _ => 0⟩
def CSK_UNREACH_row : Row :=
  ⟨0x800034, [(65536, 8)], 4, .R, .S, false, false,
   [CSK_UNREACH_COUNT]⟩
-- CSK_TXCELLS: 16_ciskaca_link R470
def CSK_TXCELLS_COUNT : Field := ⟨0x800040, [65536], 0, 64, .RO, fun _ => 0⟩
def CSK_TXCELLS_row : Row :=
  ⟨0x800040, [(65536, 8)], 8, .R, .S, false, false,
   [CSK_TXCELLS_COUNT]⟩
-- CSK_TXCELLS_SNAP: 16_ciskaca_link R470
def CSK_TXCELLS_SNAP_COUNT : Field := ⟨0x800048, [65536], 0, 64, .RO, fun _ => 0⟩
def CSK_TXCELLS_SNAP_row : Row :=
  ⟨0x800048, [(65536, 8)], 8, .R, .S, false, false,
   [CSK_TXCELLS_SNAP_COUNT]⟩
-- CSK_RXCELLS: 16_ciskaca_link R475
def CSK_RXCELLS_COUNT : Field := ⟨0x800050, [65536], 0, 64, .RO, fun _ => 0⟩
def CSK_RXCELLS_row : Row :=
  ⟨0x800050, [(65536, 8)], 8, .R, .S, false, false,
   [CSK_RXCELLS_COUNT]⟩
-- CSK_RXCELLS_SNAP: 16_ciskaca_link R475
def CSK_RXCELLS_SNAP_COUNT : Field := ⟨0x800058, [65536], 0, 64, .RO, fun _ => 0⟩
def CSK_RXCELLS_SNAP_row : Row :=
  ⟨0x800058, [(65536, 8)], 8, .R, .S, false, false,
   [CSK_RXCELLS_SNAP_COUNT]⟩
-- CSK_VCMAP: 16_ciskaca_link R477
def CSK_VCMAP_LOW : Field := ⟨0x800100, [65536, 4], 0, 13, .RW, fun i => [256, 512, 1024, 512].getD (i.getD 1 0) 0⟩
def CSK_VCMAP_HIGH : Field := ⟨0x800100, [65536, 4], 16, 13, .RW, fun i => [256, 512, 1024, 0].getD (i.getD 1 0) 0⟩
def CSK_VCMAP_row : Row :=
  ⟨0x800100, [(65536, 8), (4, 4)], 4, .R, .S, false, true,
   [CSK_VCMAP_LOW, CSK_VCMAP_HIGH]⟩
-- CSK_VCMAP_COMMIT: 16_ciskaca_link R477
def CSK_VCMAP_COMMIT_COMMIT : Field := ⟨0x800110, [65536], 0, 1, .WP, fun _ => 0⟩
def CSK_VCMAP_COMMIT_DISCARD : Field := ⟨0x800110, [65536], 1, 1, .WP, fun _ => 0⟩
def CSK_VCMAP_COMMIT_PENDING : Field := ⟨0x800110, [65536], 2, 1, .RO, fun _ => 0⟩
def CSK_VCMAP_COMMIT_SUPERSEDED : Field := ⟨0x800110, [65536], 3, 1, .W1C, fun _ => 0⟩
def CSK_VCMAP_COMMIT_REFUSED : Field := ⟨0x800110, [65536], 4, 1, .W1C, fun _ => 0⟩
def CSK_VCMAP_COMMIT_GEN : Field := ⟨0x800110, [65536], 8, 8, .RO, fun _ => 0⟩
def CSK_VCMAP_COMMIT_row : Row :=
  ⟨0x800110, [(65536, 8)], 4, .R, .S, false, false,
   [CSK_VCMAP_COMMIT_COMMIT, CSK_VCMAP_COMMIT_DISCARD, CSK_VCMAP_COMMIT_PENDING, CSK_VCMAP_COMMIT_SUPERSEDED,
    CSK_VCMAP_COMMIT_REFUSED, CSK_VCMAP_COMMIT_GEN]⟩
-- CSK_RTHDR: 16_ciskaca_link R486
def CSK_RTHDR_WORD : Field := ⟨0x801000, [65536, 4], 0, 32, .RW, fun _ => 0⟩
def CSK_RTHDR_row : Row :=
  ⟨0x801000, [(65536, 8), (4, 4)], 4, .R, .S, false, true,
   [CSK_RTHDR_WORD]⟩
-- CSK_RT: 16_ciskaca_link R486
def CSK_RT_WORD : Field := ⟨0x801100, [65536, 4], 0, 32, .RW, fun _ => 0⟩
def CSK_RT_row : Row :=
  ⟨0x801100, [(65536, 8), (4, 256)], 4, .R, .S, false, true,
   [CSK_RT_WORD]⟩
-- CSK_RT_COMMIT: 16_ciskaca_link R487
def CSK_RT_COMMIT_COMMIT : Field := ⟨0x801500, [65536], 0, 1, .WP, fun _ => 0⟩
def CSK_RT_COMMIT_DISCARD : Field := ⟨0x801500, [65536], 1, 1, .WP, fun _ => 0⟩
def CSK_RT_COMMIT_PENDING : Field := ⟨0x801500, [65536], 2, 1, .RO, fun _ => 0⟩
def CSK_RT_COMMIT_SUPERSEDED : Field := ⟨0x801500, [65536], 3, 1, .W1C, fun _ => 0⟩
def CSK_RT_COMMIT_REFUSED : Field := ⟨0x801500, [65536], 4, 1, .W1C, fun _ => 0⟩
def CSK_RT_COMMIT_GEN : Field := ⟨0x801500, [65536], 8, 8, .RO, fun _ => 0⟩
def CSK_RT_COMMIT_row : Row :=
  ⟨0x801500, [(65536, 8)], 4, .R, .S, false, false,
   [CSK_RT_COMMIT_COMMIT, CSK_RT_COMMIT_DISCARD, CSK_RT_COMMIT_PENDING, CSK_RT_COMMIT_SUPERSEDED,
    CSK_RT_COMMIT_REFUSED, CSK_RT_COMMIT_GEN]⟩
-- CSK_VLOG: 16_ciskaca_link R492
def CSK_VLOG_TIME : Field := ⟨0x802000, [65536, 16], 0, 64, .RO, fun _ => 0⟩
def CSK_VLOG_CODE : Field := ⟨0x802000, [65536, 16], 64, 8, .RO, fun _ => 0⟩
def CSK_VLOG_TYPE : Field := ⟨0x802000, [65536, 16], 72, 4, .RO, fun _ => 0⟩
def CSK_VLOG_SEQ : Field := ⟨0x802000, [65536, 16], 80, 16, .RO, fun _ => 0⟩
def CSK_VLOG_SRC_DIE : Field := ⟨0x802000, [65536, 16], 96, 8, .RO, fun _ => 0⟩
def CSK_VLOG_DST_DIE : Field := ⟨0x802000, [65536, 16], 104, 8, .RO, fun _ => 0⟩
def CSK_VLOG_DETAIL : Field := ⟨0x802000, [65536, 16], 112, 16, .RO, fun _ => 0⟩
def CSK_VLOG_row : Row :=
  ⟨0x802000, [(65536, 8), (16, 256)], 16, .R, .S, false, false,
   [CSK_VLOG_TIME, CSK_VLOG_CODE, CSK_VLOG_TYPE, CSK_VLOG_SEQ, CSK_VLOG_SRC_DIE, CSK_VLOG_DST_DIE,
    CSK_VLOG_DETAIL]⟩
-- GRF_STAT: 17_graft_calibration R501
def GRF_STAT_ENTRIES : Field := ⟨0x900000, [65536], 0, 9, .RO, fun _ => 0⟩
def GRF_STAT_BUSY : Field := ⟨0x900000, [65536], 9, 1, .RO, fun _ => 0⟩
def GRF_STAT_FREE : Field := ⟨0x900000, [65536], 10, 16, .RO, fun _ => 0⟩
def GRF_STAT_row : Row :=
  ⟨0x900000, [(65536, 8)], 4, .R, .C, false, false,
   [GRF_STAT_ENTRIES, GRF_STAT_BUSY, GRF_STAT_FREE]⟩
-- GRF_ELEMS: 17_graft_calibration R513
def GRF_ELEMS_COUNT : Field := ⟨0x900010, [65536], 0, 64, .RO, fun _ => 0⟩
def GRF_ELEMS_row : Row :=
  ⟨0x900010, [(65536, 8)], 8, .R, .C, false, false,
   [GRF_ELEMS_COUNT]⟩
-- GRF_ELEMS_SNAP: 17_graft_calibration R513
def GRF_ELEMS_SNAP_COUNT : Field := ⟨0x900018, [65536], 0, 64, .RO, fun _ => 0⟩
def GRF_ELEMS_SNAP_row : Row :=
  ⟨0x900018, [(65536, 8)], 8, .R, .C, false, false,
   [GRF_ELEMS_SNAP_COUNT]⟩
-- GRF_CLIP: 17_graft_calibration R513
def GRF_CLIP_COUNT : Field := ⟨0x900020, [65536], 0, 64, .RO, fun _ => 0⟩
def GRF_CLIP_row : Row :=
  ⟨0x900020, [(65536, 8)], 8, .R, .C, false, false,
   [GRF_CLIP_COUNT]⟩
-- GRF_NONFIN: 17_graft_calibration R513
def GRF_NONFIN_COUNT : Field := ⟨0x900028, [65536], 0, 32, .RO, fun _ => 0⟩
def GRF_NONFIN_row : Row :=
  ⟨0x900028, [(65536, 8)], 4, .R, .C, false, false,
   [GRF_NONFIN_COUNT]⟩
-- GRF_RUNGUP: 17_graft_calibration R516
def GRF_RUNGUP_COUNT : Field := ⟨0x90002c, [65536], 0, 32, .RO, fun _ => 0⟩
def GRF_RUNGUP_row : Row :=
  ⟨0x90002c, [(65536, 8)], 4, .R, .C, false, false,
   [GRF_RUNGUP_COUNT]⟩
-- GRF_EVTCNT: 17_graft_calibration R515
def GRF_EVTCNT_COUNT : Field := ⟨0x900030, [65536], 0, 32, .RO, fun _ => 0⟩
def GRF_EVTCNT_row : Row :=
  ⟨0x900030, [(65536, 8)], 4, .R, .C, false, false,
   [GRF_EVTCNT_COUNT]⟩
-- GRF_NAK: 17_graft_calibration R512
def GRF_NAK_CODE : Field := ⟨0x900040, [65536], 0, 8, .RO, fun _ => 0⟩
def GRF_NAK_SRC_DIE : Field := ⟨0x900040, [65536], 8, 8, .RO, fun _ => 0⟩
def GRF_NAK_EIDX : Field := ⟨0x900040, [65536], 16, 8, .RO, fun _ => 0⟩
def GRF_NAK_DETAIL : Field := ⟨0x900040, [65536], 24, 2, .RO, fun _ => 0⟩
def GRF_NAK_VALID : Field := ⟨0x900040, [65536], 31, 1, .W1C, fun _ => 0⟩
def GRF_NAK_row : Row :=
  ⟨0x900040, [(65536, 8)], 4, .R, .C, false, false,
   [GRF_NAK_CODE, GRF_NAK_SRC_DIE, GRF_NAK_EIDX, GRF_NAK_DETAIL, GRF_NAK_VALID]⟩
-- GRF_NAK_CNT: 17_graft_calibration R512
def GRF_NAK_CNT_COUNT : Field := ⟨0x900044, [65536], 0, 32, .RO, fun _ => 0⟩
def GRF_NAK_CNT_row : Row :=
  ⟨0x900044, [(65536, 8)], 4, .R, .C, false, false,
   [GRF_NAK_CNT_COUNT]⟩
-- GRF_ESEL: 17_graft_calibration R500
def GRF_ESEL_SLOT : Field := ⟨0x900100, [65536], 0, 8, .RW, fun _ => 0⟩
def GRF_ESEL_row : Row :=
  ⟨0x900100, [(65536, 8)], 4, .R, .C, false, false,
   [GRF_ESEL_SLOT]⟩
-- GRF_ENT: 17_graft_calibration R500
def GRF_ENT_WORD : Field := ⟨0x900200, [65536, 4], 0, 32, .RW, fun _ => 0⟩
def GRF_ENT_row : Row :=
  ⟨0x900200, [(65536, 8), (4, 16)], 4, .R, .C, false, true,
   [GRF_ENT_WORD]⟩
-- GRF_ENT_COMMIT: 17_graft_calibration R520
def GRF_ENT_COMMIT_COMMIT : Field := ⟨0x900300, [65536], 0, 1, .WP, fun _ => 0⟩
def GRF_ENT_COMMIT_DISCARD : Field := ⟨0x900300, [65536], 1, 1, .WP, fun _ => 0⟩
def GRF_ENT_COMMIT_PENDING : Field := ⟨0x900300, [65536], 2, 1, .RO, fun _ => 0⟩
def GRF_ENT_COMMIT_SUPERSEDED : Field := ⟨0x900300, [65536], 3, 1, .W1C, fun _ => 0⟩
def GRF_ENT_COMMIT_REFUSED : Field := ⟨0x900300, [65536], 4, 1, .W1C, fun _ => 0⟩
def GRF_ENT_COMMIT_GEN : Field := ⟨0x900300, [65536], 8, 8, .RO, fun _ => 0⟩
def GRF_ENT_COMMIT_row : Row :=
  ⟨0x900300, [(65536, 8)], 4, .R, .C, false, false,
   [GRF_ENT_COMMIT_COMMIT, GRF_ENT_COMMIT_DISCARD, GRF_ENT_COMMIT_PENDING, GRF_ENT_COMMIT_SUPERSEDED,
    GRF_ENT_COMMIT_REFUSED, GRF_ENT_COMMIT_GEN]⟩
-- PWR_CTL: 21_power_tariffs R604
def PWR_CTL_ACCT_EN : Field := ⟨0xa00000, [], 0, 1, .RW, fun _ => 0⟩
def PWR_CTL_row : Row :=
  ⟨0xa00000, [], 4, .R, .I, false, false,
   [PWR_CTL_ACCT_EN]⟩
-- PWR_STAT: 21_power_tariffs R599
def PWR_STAT_VID : Field := ⟨0xa00004, [], 0, 8, .RO, fun _ => 0⟩
def PWR_STAT_BAND : Field := ⟨0xa00004, [], 8, 4, .RO, fun _ => 0⟩
def PWR_STAT_LIMITED : Field := ⟨0xa00004, [], 12, 1, .RO, fun _ => 0⟩
def PWR_STAT_FLOOR : Field := ⟨0xa00004, [], 13, 1, .RO, fun _ => 0⟩
def PWR_STAT_THERMAL : Field := ⟨0xa00004, [], 14, 1, .RO, fun _ => 0⟩
def PWR_STAT_SCHED_DEFAULT : Field := ⟨0xa00004, [], 15, 1, .RO, fun _ => 0⟩
def PWR_STAT_CUT : Field := ⟨0xa00004, [], 16, 1, .RO, fun _ => 0⟩
def PWR_STAT_HOLDUP : Field := ⟨0xa00004, [], 17, 2, .RO, fun _ => 0⟩
def PWR_STAT_row : Row :=
  ⟨0xa00004, [], 4, .R, .I, false, false,
   [PWR_STAT_VID, PWR_STAT_BAND, PWR_STAT_LIMITED, PWR_STAT_FLOOR, PWR_STAT_THERMAL, PWR_STAT_SCHED_DEFAULT,
    PWR_STAT_CUT, PWR_STAT_HOLDUP]⟩
-- PWR_VID_MIN: 21_power_tariffs R598
def PWR_VID_MIN_CODE : Field := ⟨0xa00008, [], 0, 8, .RW, fun _ => 0x28⟩
def PWR_VID_MIN_row : Row :=
  ⟨0xa00008, [], 4, .R, .I, false, false,
   [PWR_VID_MIN_CODE]⟩
-- PWR_VID_MAX: 21_power_tariffs R598
def PWR_VID_MAX_CODE : Field := ⟨0xa0000c, [], 0, 8, .RW, fun _ => 0xA0⟩
def PWR_VID_MAX_row : Row :=
  ⟨0xa0000c, [], 4, .R, .I, false, false,
   [PWR_VID_MAX_CODE]⟩
-- PWR_CAP: 21_power_tariffs R598
def PWR_CAP_CAP_W : Field := ⟨0xa00010, [], 0, 16, .RW, fun _ => 0⟩
def PWR_CAP_row : Row :=
  ⟨0xa00010, [], 4, .R, .I, false, false,
   [PWR_CAP_CAP_W]⟩
-- PWR_BMC_CAP: 21_power_tariffs R598
def PWR_BMC_CAP_CAP_W : Field := ⟨0xa00014, [], 0, 16, .RW, fun _ => 0⟩
def PWR_BMC_CAP_row : Row :=
  ⟨0xa00014, [], 4, .R, .I, false, false,
   [PWR_BMC_CAP_CAP_W]⟩
-- PWR_BUDGET: 21_power_tariffs R598
def PWR_BUDGET_BUDGET_W : Field := ⟨0xa00018, [], 0, 16, .RW, fun _ => 0⟩
def PWR_BUDGET_row : Row :=
  ⟨0xa00018, [], 4, .R, .I, false, false,
   [PWR_BUDGET_BUDGET_W]⟩
-- PWR_FAST: 21_power_tariffs R598
def PWR_FAST_CAP_W : Field := ⟨0xa0001c, [], 0, 16, .RO, fun _ => 0⟩
def PWR_FAST_T_LIMIT : Field := ⟨0xa0001c, [], 16, 8, .RO, fun _ => 0⟩
def PWR_FAST_CEIL : Field := ⟨0xa0001c, [], 24, 8, .RO, fun _ => 0⟩
def PWR_FAST_row : Row :=
  ⟨0xa0001c, [], 4, .R, .I, false, false,
   [PWR_FAST_CAP_W, PWR_FAST_T_LIMIT, PWR_FAST_CEIL]⟩
-- PWR_TARGET: 21_power_tariffs R601
def PWR_TARGET_CODE : Field := ⟨0xa00020, [], 0, 8, .RW, fun _ => 0x64⟩
def PWR_TARGET_row : Row :=
  ⟨0xa00020, [], 4, .R, .I, false, false,
   [PWR_TARGET_CODE]⟩
-- PWR_LIMIT: 21_power_tariffs R599
def PWR_LIMIT_CODE : Field := ⟨0xa00024, [], 0, 8, .RO, fun _ => 0xA0⟩
def PWR_LIMIT_row : Row :=
  ⟨0xa00024, [], 4, .R, .I, false, false,
   [PWR_LIMIT_CODE]⟩
-- PWR_IMON: 21_power_tariffs R589
def PWR_IMON_CORE : Field := ⟨0xa00028, [], 0, 12, .RO, fun _ => 0⟩
def PWR_IMON_BOARD : Field := ⟨0xa00028, [], 16, 12, .RO, fun _ => 0⟩
def PWR_IMON_row : Row :=
  ⟨0xa00028, [], 4, .R, .I, false, false,
   [PWR_IMON_CORE, PWR_IMON_BOARD]⟩
-- PWR_ATTR: 21_power_tariffs R606
def PWR_ATTR_W_S : Field := ⟨0xa0002c, [], 0, 8, .RW, fun _ => 4⟩
def PWR_ATTR_W_H : Field := ⟨0xa0002c, [], 8, 8, .RW, fun _ => 1⟩
def PWR_ATTR_W_C : Field := ⟨0xa0002c, [], 16, 8, .RW, fun _ => 1⟩
def PWR_ATTR_row : Row :=
  ⟨0xa0002c, [], 4, .R, .I, false, false,
   [PWR_ATTR_W_S, PWR_ATTR_W_H, PWR_ATTR_W_C]⟩
-- PWR_FCST: 21_power_tariffs R601
def PWR_FCST_Y0 : Field := ⟨0xa00030, [], 0, 8, .RO, fun _ => 0⟩
def PWR_FCST_Y1 : Field := ⟨0xa00030, [], 8, 8, .RO, fun _ => 0⟩
def PWR_FCST_Y2 : Field := ⟨0xa00030, [], 16, 8, .RO, fun _ => 0⟩
def PWR_FCST_Y3 : Field := ⟨0xa00030, [], 24, 8, .RO, fun _ => 0⟩
def PWR_FCST_row : Row :=
  ⟨0xa00030, [], 4, .R, .I, false, false,
   [PWR_FCST_Y0, PWR_FCST_Y1, PWR_FCST_Y2, PWR_FCST_Y3]⟩
-- PWR_PEAK: 21_power_tariffs R607
def PWR_PEAK_PEAK_W : Field := ⟨0xa00038, [], 0, 16, .RO, fun _ => 0⟩
def PWR_PEAK_row : Row :=
  ⟨0xa00038, [], 4, .R, .I, false, false,
   [PWR_PEAK_PEAK_W]⟩
-- PWR_IV_OPEN_TB: 21_power_tariffs R603
def PWR_IV_OPEN_TB_TB : Field := ⟨0xa00040, [], 0, 64, .RO, fun _ => 0⟩
def PWR_IV_OPEN_TB_row : Row :=
  ⟨0xa00040, [], 8, .R, .I, false, false,
   [PWR_IV_OPEN_TB_TB]⟩
-- PWR_IV_OPEN: 21_power_tariffs R603
def PWR_IV_OPEN_RTC_START : Field := ⟨0xa00048, [], 0, 32, .RO, fun _ => 0⟩
def PWR_IV_OPEN_row : Row :=
  ⟨0xa00048, [], 4, .R, .I, false, false,
   [PWR_IV_OPEN_RTC_START]⟩
-- PWR_IV_OPEN_B: 21_power_tariffs R603
def PWR_IV_OPEN_B_BAND : Field := ⟨0xa0004c, [], 0, 4, .RO, fun _ => 0⟩
def PWR_IV_OPEN_B_FLAGS : Field := ⟨0xa0004c, [], 8, 8, .RO, fun _ => 0⟩
def PWR_IV_OPEN_B_row : Row :=
  ⟨0xa0004c, [], 4, .R, .I, false, false,
   [PWR_IV_OPEN_B_BAND, PWR_IV_OPEN_B_FLAGS]⟩
-- PWR_IV_CLOSED_TB: 21_power_tariffs R603
def PWR_IV_CLOSED_TB_TB : Field := ⟨0xa00050, [], 0, 64, .RO, fun _ => 0⟩
def PWR_IV_CLOSED_TB_row : Row :=
  ⟨0xa00050, [], 8, .R, .I, false, false,
   [PWR_IV_CLOSED_TB_TB]⟩
-- PWR_IV_CLOSED_RTC: 21_power_tariffs R603
def PWR_IV_CLOSED_RTC_RTC_START : Field := ⟨0xa00058, [], 0, 32, .RO, fun _ => 0⟩
def PWR_IV_CLOSED_RTC_row : Row :=
  ⟨0xa00058, [], 4, .R, .I, false, false,
   [PWR_IV_CLOSED_RTC_RTC_START]⟩
-- PWR_IV_CLOSED: 21_power_tariffs R603
def PWR_IV_CLOSED_LEN_MS : Field := ⟨0xa0005c, [], 0, 24, .RO, fun _ => 0⟩
def PWR_IV_CLOSED_BAND : Field := ⟨0xa0005c, [], 24, 4, .RO, fun _ => 0⟩
def PWR_IV_CLOSED_row : Row :=
  ⟨0xa0005c, [], 4, .R, .I, false, false,
   [PWR_IV_CLOSED_LEN_MS, PWR_IV_CLOSED_BAND]⟩
-- PWR_IV_CLOSED_F: 21_power_tariffs R603
def PWR_IV_CLOSED_F_FLAGS : Field := ⟨0xa00060, [], 0, 8, .RO, fun _ => 0⟩
def PWR_IV_CLOSED_F_LOGGED : Field := ⟨0xa00060, [], 8, 1, .W1S, fun _ => 0⟩
def PWR_IV_CLOSED_F_PEAK_W : Field := ⟨0xa00060, [], 16, 16, .RO, fun _ => 0⟩
def PWR_IV_CLOSED_F_row : Row :=
  ⟨0xa00060, [], 4, .R, .I, false, false,
   [PWR_IV_CLOSED_F_FLAGS, PWR_IV_CLOSED_F_LOGGED, PWR_IV_CLOSED_F_PEAK_W]⟩
-- PWR_CUT_TB: 21_power_tariffs R610
def PWR_CUT_TB_TB : Field := ⟨0xa00068, [], 0, 64, .RO, fun _ => 0⟩
def PWR_CUT_TB_row : Row :=
  ⟨0xa00068, [], 8, .R, .I, false, false,
   [PWR_CUT_TB_TB]⟩
-- PWR_E_OPEN: 21_power_tariffs R590
def PWR_E_OPEN_NJ : Field := ⟨0xa00100, [16], 0, 64, .RO, fun _ => 0⟩
def PWR_E_OPEN_row : Row :=
  ⟨0xa00100, [(16, 16)], 8, .R, .I, false, false,
   [PWR_E_OPEN_NJ]⟩
-- PWR_E_CLOSED: 21_power_tariffs R603
def PWR_E_CLOSED_NJ : Field := ⟨0xa00108, [16], 0, 64, .RO, fun _ => 0⟩
def PWR_E_CLOSED_row : Row :=
  ⟨0xa00108, [(16, 16)], 8, .R, .I, false, false,
   [PWR_E_CLOSED_NJ]⟩
-- PWR_E_DIE_OPEN: 21_power_tariffs R590
def PWR_E_DIE_OPEN_NJ : Field := ⟨0xa00200, [], 0, 64, .RO, fun _ => 0⟩
def PWR_E_DIE_OPEN_row : Row :=
  ⟨0xa00200, [], 8, .R, .I, false, false,
   [PWR_E_DIE_OPEN_NJ]⟩
-- PWR_E_DIE_CLOSED: 21_power_tariffs R603
def PWR_E_DIE_CLOSED_NJ : Field := ⟨0xa00208, [], 0, 64, .RO, fun _ => 0⟩
def PWR_E_DIE_CLOSED_row : Row :=
  ⟨0xa00208, [], 8, .R, .I, false, false,
   [PWR_E_DIE_CLOSED_NJ]⟩
-- PWR_SCHED_HDR: 21_power_tariffs R596
def PWR_SCHED_HDR_WORD : Field := ⟨0xa01000, [4], 0, 32, .RW, fun _ => 0⟩
def PWR_SCHED_HDR_row : Row :=
  ⟨0xa01000, [(4, 4)], 4, .R, .I, false, true,
   [PWR_SCHED_HDR_WORD]⟩
-- PWR_BAND: 21_power_tariffs R596
def PWR_BAND_WORD : Field := ⟨0xa01100, [16, 4], 0, 32, .RW, fun _ => 0⟩
def PWR_BAND_row : Row :=
  ⟨0xa01100, [(16, 16), (4, 4)], 4, .R, .I, false, true,
   [PWR_BAND_WORD]⟩
-- PWR_SCHED: 21_power_tariffs R596
def PWR_SCHED_WORD : Field := ⟨0xa01200, [8, 4], 0, 32, .RW, fun _ => 0⟩
def PWR_SCHED_row : Row :=
  ⟨0xa01200, [(8, 64), (4, 2)], 4, .R, .I, false, true,
   [PWR_SCHED_WORD]⟩
-- PWR_TARIFF_COMMIT: 21_power_tariffs R596
def PWR_TARIFF_COMMIT_COMMIT : Field := ⟨0xa01400, [], 0, 1, .WP, fun _ => 0⟩
def PWR_TARIFF_COMMIT_DISCARD : Field := ⟨0xa01400, [], 1, 1, .WP, fun _ => 0⟩
def PWR_TARIFF_COMMIT_PENDING : Field := ⟨0xa01400, [], 2, 1, .RO, fun _ => 0⟩
def PWR_TARIFF_COMMIT_SUPERSEDED : Field := ⟨0xa01400, [], 3, 1, .W1C, fun _ => 0⟩
def PWR_TARIFF_COMMIT_REFUSED : Field := ⟨0xa01400, [], 4, 1, .W1C, fun _ => 0⟩
def PWR_TARIFF_COMMIT_GEN : Field := ⟨0xa01400, [], 8, 8, .RO, fun _ => 0⟩
def PWR_TARIFF_COMMIT_row : Row :=
  ⟨0xa01400, [], 4, .R, .I, false, false,
   [PWR_TARIFF_COMMIT_COMMIT, PWR_TARIFF_COMMIT_DISCARD, PWR_TARIFF_COMMIT_PENDING,
    PWR_TARIFF_COMMIT_SUPERSEDED, PWR_TARIFF_COMMIT_REFUSED, PWR_TARIFF_COMMIT_GEN]⟩
-- CLO_STATE: 18_cloche_island R523
def CLO_STATE_STATE : Field := ⟨0xb00000, [], 0, 2, .RO, fun _ => 0⟩
def CLO_STATE_REF_OK : Field := ⟨0xb00000, [], 2, 1, .RO, fun _ => 0⟩
def CLO_STATE_NO_FORECAST : Field := ⟨0xb00000, [], 3, 1, .RO, fun _ => 0⟩
def CLO_STATE_WAKE : Field := ⟨0xb00000, [], 4, 3, .RO, fun _ => 0⟩
def CLO_STATE_row : Row :=
  ⟨0xb00000, [], 4, .R, .I, false, false,
   [CLO_STATE_STATE, CLO_STATE_REF_OK, CLO_STATE_NO_FORECAST, CLO_STATE_WAKE]⟩
-- CLO_LISTEN: 18_cloche_island R524
def CLO_LISTEN_ENTER : Field := ⟨0xb00004, [], 0, 1, .WP, fun _ => 0⟩
def CLO_LISTEN_GPI : Field := ⟨0xb00004, [], 1, 1, .RW, fun _ => 0⟩
def CLO_LISTEN_RTC : Field := ⟨0xb00004, [], 2, 1, .RW, fun _ => 0⟩
def CLO_LISTEN_TIMER : Field := ⟨0xb00004, [], 3, 1, .RW, fun _ => 0⟩
def CLO_LISTEN_SMBUS : Field := ⟨0xb00004, [], 4, 1, .RW, fun _ => 0⟩
def CLO_LISTEN_row : Row :=
  ⟨0xb00004, [], 4, .R, .I, false, false,
   [CLO_LISTEN_ENTER, CLO_LISTEN_GPI, CLO_LISTEN_RTC, CLO_LISTEN_TIMER, CLO_LISTEN_SMBUS]⟩
-- CLO_FWSTAT: 18_cloche_island R546
def CLO_FWSTAT_HEARTBEAT : Field := ⟨0xb00010, [], 0, 16, .RO, fun _ => 0⟩
def CLO_FWSTAT_SEAM : Field := ⟨0xb00010, [], 16, 1, .RO, fun _ => 0⟩
def CLO_FWSTAT_row : Row :=
  ⟨0xb00010, [], 4, .R, .I, false, false,
   [CLO_FWSTAT_HEARTBEAT, CLO_FWSTAT_SEAM]⟩
-- CLO_FWVER: 18_cloche_island R546
def CLO_FWVER_VERSION : Field := ⟨0xb00014, [], 0, 32, .RO, fun _ => 0⟩
def CLO_FWVER_row : Row :=
  ⟨0xb00014, [], 4, .R, .I, false, false,
   [CLO_FWVER_VERSION]⟩
-- CLO_SWAP: 18_cloche_island R546
def CLO_SWAP_GO : Field := ⟨0xb00018, [], 0, 1, .WP, fun _ => 0⟩
def CLO_SWAP_row : Row :=
  ⟨0xb00018, [], 4, .F, .I, false, false,
   [CLO_SWAP_GO]⟩
-- CLO_WDT: 18_cloche_island R530
def CLO_WDT_TIMEOUT_MS : Field := ⟨0xb00020, [], 0, 16, .RW, fun _ => 100⟩
def CLO_WDT_EN : Field := ⟨0xb00020, [], 16, 1, .RW, fun _ => 0⟩
def CLO_WDT_KICK : Field := ⟨0xb00020, [], 31, 1, .WP, fun _ => 0⟩
def CLO_WDT_row : Row :=
  ⟨0xb00020, [], 4, .R, .I, false, false,
   [CLO_WDT_TIMEOUT_MS, CLO_WDT_EN, CLO_WDT_KICK]⟩
-- CLO_RTC_SEC: 18_cloche_island R531
def CLO_RTC_SEC_SEC : Field := ⟨0xb00040, [], 0, 32, .RW, fun _ => 0⟩
def CLO_RTC_SEC_row : Row :=
  ⟨0xb00040, [], 4, .R, .I, false, false,
   [CLO_RTC_SEC_SEC]⟩
-- CLO_RTC_SUB: 18_cloche_island R531
def CLO_RTC_SUB_SUB : Field := ⟨0xb00044, [], 0, 15, .RO, fun _ => 0⟩
def CLO_RTC_SUB_row : Row :=
  ⟨0xb00044, [], 4, .R, .I, false, false,
   [CLO_RTC_SUB_SUB]⟩
-- CLO_RTC_ALARM: 18_cloche_island R531
def CLO_RTC_ALARM_SEC : Field := ⟨0xb00048, [], 0, 32, .RW, fun _ => 0⟩
def CLO_RTC_ALARM_row : Row :=
  ⟨0xb00048, [], 4, .R, .I, false, false,
   [CLO_RTC_ALARM_SEC]⟩
-- CLO_RTC_CTL: 18_cloche_island R531
def CLO_RTC_CTL_ALARM_EN : Field := ⟨0xb0004c, [], 0, 1, .RW, fun _ => 0⟩
def CLO_RTC_CTL_row : Row :=
  ⟨0xb0004c, [], 4, .R, .I, false, false,
   [CLO_RTC_CTL_ALARM_EN]⟩
-- CLO_TMR_CTL: 18_cloche_island R532
def CLO_TMR_CTL_EN : Field := ⟨0xb00100, [16], 0, 1, .RW, fun _ => 0⟩
def CLO_TMR_CTL_PERIODIC : Field := ⟨0xb00100, [16], 1, 1, .RW, fun _ => 0⟩
def CLO_TMR_CTL_PRESCALE : Field := ⟨0xb00100, [16], 2, 4, .RW, fun _ => 0⟩
def CLO_TMR_CTL_EXP_CLR : Field := ⟨0xb00100, [16], 6, 1, .WP, fun _ => 0⟩
def CLO_TMR_CTL_EXPIRIES : Field := ⟨0xb00100, [16], 8, 8, .RO, fun _ => 0⟩
def CLO_TMR_CTL_row : Row :=
  ⟨0xb00100, [(16, 8)], 4, .R, .I, false, false,
   [CLO_TMR_CTL_EN, CLO_TMR_CTL_PERIODIC, CLO_TMR_CTL_PRESCALE, CLO_TMR_CTL_EXP_CLR, CLO_TMR_CTL_EXPIRIES]⟩
-- CLO_TMR_CNT: 18_cloche_island R532
def CLO_TMR_CNT_COUNT : Field := ⟨0xb00104, [16], 0, 32, .RO, fun _ => 0⟩
def CLO_TMR_CNT_row : Row :=
  ⟨0xb00104, [(16, 8)], 4, .R, .I, false, false,
   [CLO_TMR_CNT_COUNT]⟩
-- CLO_TMR_CMP: 18_cloche_island R532
def CLO_TMR_CMP_VALUE : Field := ⟨0xb00108, [16], 0, 32, .RW, fun _ => 0⟩
def CLO_TMR_CMP_row : Row :=
  ⟨0xb00108, [(16, 8)], 4, .R, .I, false, false,
   [CLO_TMR_CMP_VALUE]⟩
-- CLO_TMR_RELOAD: 18_cloche_island R532
def CLO_TMR_RELOAD_VALUE : Field := ⟨0xb0010c, [16], 0, 32, .RW, fun _ => 0⟩
def CLO_TMR_RELOAD_row : Row :=
  ⟨0xb0010c, [(16, 8)], 4, .R, .I, false, false,
   [CLO_TMR_RELOAD_VALUE]⟩
-- CLO_GPI_CTL: 18_cloche_island R534
def CLO_GPI_CTL_SENSE0 : Field := ⟨0xb00200, [], 0, 2, .RW, fun _ => 0⟩
def CLO_GPI_CTL_EN0 : Field := ⟨0xb00200, [], 2, 1, .RW, fun _ => 0⟩
def CLO_GPI_CTL_SENSE1 : Field := ⟨0xb00200, [], 3, 2, .RW, fun _ => 0⟩
def CLO_GPI_CTL_EN1 : Field := ⟨0xb00200, [], 5, 1, .RW, fun _ => 0⟩
def CLO_GPI_CTL_SENSE2 : Field := ⟨0xb00200, [], 6, 2, .RW, fun _ => 0⟩
def CLO_GPI_CTL_EN2 : Field := ⟨0xb00200, [], 8, 1, .RW, fun _ => 0⟩
def CLO_GPI_CTL_SENSE3 : Field := ⟨0xb00200, [], 9, 2, .RW, fun _ => 0⟩
def CLO_GPI_CTL_EN3 : Field := ⟨0xb00200, [], 11, 1, .RW, fun _ => 0⟩
def CLO_GPI_CTL_row : Row :=
  ⟨0xb00200, [], 4, .R, .I, false, false,
   [CLO_GPI_CTL_SENSE0, CLO_GPI_CTL_EN0, CLO_GPI_CTL_SENSE1, CLO_GPI_CTL_EN1, CLO_GPI_CTL_SENSE2,
    CLO_GPI_CTL_EN2, CLO_GPI_CTL_SENSE3, CLO_GPI_CTL_EN3]⟩
-- CLO_GPI_LATCH: 18_cloche_island R534
def CLO_GPI_LATCH_LATCH : Field := ⟨0xb00204, [], 0, 4, .W1C, fun _ => 0⟩
def CLO_GPI_LATCH_row : Row :=
  ⟨0xb00204, [], 4, .R, .I, false, false,
   [CLO_GPI_LATCH_LATCH]⟩
-- CLO_GPI_CNT: 18_cloche_island R534
def CLO_GPI_CNT_CNT0 : Field := ⟨0xb00208, [], 0, 8, .RW, fun _ => 0⟩
def CLO_GPI_CNT_CNT1 : Field := ⟨0xb00208, [], 8, 8, .RW, fun _ => 0⟩
def CLO_GPI_CNT_CNT2 : Field := ⟨0xb00208, [], 16, 8, .RW, fun _ => 0⟩
def CLO_GPI_CNT_CNT3 : Field := ⟨0xb00208, [], 24, 8, .RW, fun _ => 0⟩
def CLO_GPI_CNT_row : Row :=
  ⟨0xb00208, [], 4, .R, .I, false, false,
   [CLO_GPI_CNT_CNT0, CLO_GPI_CNT_CNT1, CLO_GPI_CNT_CNT2, CLO_GPI_CNT_CNT3]⟩
-- CLO_GPI_LVL: 18_cloche_island R534
def CLO_GPI_LVL_LVL : Field := ⟨0xb0020c, [], 0, 4, .RO, fun _ => 0⟩
def CLO_GPI_LVL_row : Row :=
  ⟨0xb0020c, [], 4, .R, .I, false, false,
   [CLO_GPI_LVL_LVL]⟩
-- CLO_SPI_CTL: 18_cloche_island R536
def CLO_SPI_CTL_START : Field := ⟨0xb00300, [], 0, 1, .WP, fun _ => 0⟩
def CLO_SPI_CTL_CS : Field := ⟨0xb00300, [], 1, 1, .RW, fun _ => 0⟩
def CLO_SPI_CTL_MODE3 : Field := ⟨0xb00300, [], 2, 1, .RW, fun _ => 0⟩
def CLO_SPI_CTL_D2 : Field := ⟨0xb00300, [], 3, 8, .RW, fun _ => 0⟩
def CLO_SPI_CTL_LEN1 : Field := ⟨0xb00300, [], 11, 13, .RW, fun _ => 0⟩
def CLO_SPI_CTL_BUSY : Field := ⟨0xb00300, [], 24, 1, .RO, fun _ => 0⟩
def CLO_SPI_CTL_row : Row :=
  ⟨0xb00300, [], 4, .R, .I, false, false,
   [CLO_SPI_CTL_START, CLO_SPI_CTL_CS, CLO_SPI_CTL_MODE3, CLO_SPI_CTL_D2, CLO_SPI_CTL_LEN1, CLO_SPI_CTL_BUSY]⟩
-- CLO_SPI_ADDR: 18_cloche_island R536
def CLO_SPI_ADDR_ADDR : Field := ⟨0xb00304, [], 0, 20, .RW, fun _ => 0⟩
def CLO_SPI_ADDR_row : Row :=
  ⟨0xb00304, [], 4, .R, .I, false, false,
   [CLO_SPI_ADDR_ADDR]⟩
-- CLO_PDM_CTL: 18_cloche_island R537
def CLO_PDM_CTL_EN : Field := ⟨0xb00310, [8], 0, 1, .RW, fun _ => 0⟩
def CLO_PDM_CTL_D2 : Field := ⟨0xb00310, [8], 1, 5, .RW, fun _ => 0⟩
def CLO_PDM_CTL_DECIM : Field := ⟨0xb00310, [8], 6, 2, .RW, fun _ => 0⟩
def CLO_PDM_CTL_SIZE : Field := ⟨0xb00310, [8], 8, 11, .RW, fun _ => 0⟩
def CLO_PDM_CTL_BASE : Field := ⟨0xb00310, [8], 19, 10, .RW, fun _ => 0⟩
def CLO_PDM_CTL_row : Row :=
  ⟨0xb00310, [(8, 2)], 4, .R, .I, false, false,
   [CLO_PDM_CTL_EN, CLO_PDM_CTL_D2, CLO_PDM_CTL_DECIM, CLO_PDM_CTL_SIZE, CLO_PDM_CTL_BASE]⟩
-- CLO_PDM_RD: 18_cloche_island R537
def CLO_PDM_RD_RD : Field := ⟨0xb00314, [8], 0, 16, .RW, fun _ => 0⟩
def CLO_PDM_RD_WR : Field := ⟨0xb00314, [8], 16, 16, .RO, fun _ => 0⟩
def CLO_PDM_RD_row : Row :=
  ⟨0xb00314, [(8, 2)], 4, .R, .I, false, false,
   [CLO_PDM_RD_RD, CLO_PDM_RD_WR]⟩
-- CLO_PDM_STAT: 18_cloche_island R537
def CLO_PDM_STAT_DROP0 : Field := ⟨0xb00320, [], 0, 16, .RO, fun _ => 0⟩
def CLO_PDM_STAT_DROP1 : Field := ⟨0xb00320, [], 16, 16, .RO, fun _ => 0⟩
def CLO_PDM_STAT_row : Row :=
  ⟨0xb00320, [], 4, .R, .I, false, false,
   [CLO_PDM_STAT_DROP0, CLO_PDM_STAT_DROP1]⟩
-- CME_CTL: 18_cloche_island R539
def CME_CTL_START : Field := ⟨0xb04000, [], 0, 1, .WP, fun _ => 0⟩
def CME_CTL_row : Row :=
  ⟨0xb04000, [], 4, .R, .I, false, false,
   [CME_CTL_START]⟩
-- CME_LIST: 18_cloche_island R539
def CME_LIST_ADDR : Field := ⟨0xb04004, [], 0, 32, .RW, fun _ => 0⟩
def CME_LIST_row : Row :=
  ⟨0xb04004, [], 4, .R, .I, false, false,
   [CME_LIST_ADDR]⟩
-- CME_STAT: 18_cloche_island R541
def CME_STAT_BUSY : Field := ⟨0xb04008, [], 0, 1, .RO, fun _ => 0⟩
def CME_STAT_DONE : Field := ⟨0xb04008, [], 1, 1, .W1C, fun _ => 0⟩
def CME_STAT_OVERRUN : Field := ⟨0xb04008, [], 2, 1, .W1C, fun _ => 0⟩
def CME_STAT_ERR : Field := ⟨0xb04008, [], 3, 5, .RO, fun _ => 0⟩
def CME_STAT_PC : Field := ⟨0xb04008, [], 8, 16, .RO, fun _ => 0⟩
def CME_STAT_row : Row :=
  ⟨0xb04008, [], 4, .R, .I, false, false,
   [CME_STAT_BUSY, CME_STAT_DONE, CME_STAT_OVERRUN, CME_STAT_ERR, CME_STAT_PC]⟩
-- CME_MACS: 18_cloche_island R538
def CME_MACS_COUNT : Field := ⟨0xb04010, [], 0, 64, .RO, fun _ => 0⟩
def CME_MACS_row : Row :=
  ⟨0xb04010, [], 8, .R, .I, false, false,
   [CME_MACS_COUNT]⟩
-- BNC_CTL: 18_cloche_island R529
def BNC_CTL_HALT : Field := ⟨0xc00000, [], 0, 1, .WP, fun _ => 0⟩
def BNC_CTL_RESUME : Field := ⟨0xc00000, [], 1, 1, .WP, fun _ => 0⟩
def BNC_CTL_STEP : Field := ⟨0xc00000, [], 2, 1, .WP, fun _ => 0⟩
def BNC_CTL_HALTED : Field := ⟨0xc00000, [], 3, 1, .RO, fun _ => 0⟩
def BNC_CTL_row : Row :=
  ⟨0xc00000, [], 4, .F, .I, false, false,
   [BNC_CTL_HALT, BNC_CTL_RESUME, BNC_CTL_STEP, BNC_CTL_HALTED]⟩
-- BNC_PC: 18_cloche_island R529
def BNC_PC_PC : Field := ⟨0xc00004, [], 0, 32, .RO, fun _ => 0⟩
def BNC_PC_row : Row :=
  ⟨0xc00004, [], 4, .F, .I, false, false,
   [BNC_PC_PC]⟩
-- FLC_CTL: 20_flash R574
def FLC_CTL_ERASE : Field := ⟨0xb80000, [], 0, 1, .WP, fun _ => 0⟩
def FLC_CTL_PROGRAM : Field := ⟨0xb80000, [], 1, 1, .WP, fun _ => 0⟩
def FLC_CTL_row : Row :=
  ⟨0xb80000, [], 4, .R, .I, false, false,
   [FLC_CTL_ERASE, FLC_CTL_PROGRAM]⟩
-- FLC_STAT: 20_flash R570
def FLC_STAT_BUSY0 : Field := ⟨0xb80004, [], 0, 1, .RO, fun _ => 0⟩
def FLC_STAT_BUSY1 : Field := ⟨0xb80004, [], 1, 1, .RO, fun _ => 0⟩
def FLC_STAT_DONE : Field := ⟨0xb80004, [], 2, 1, .W1C, fun _ => 0⟩
def FLC_STAT_FAIL : Field := ⟨0xb80004, [], 3, 1, .W1C, fun _ => 0⟩
def FLC_STAT_CAUSE : Field := ⟨0xb80004, [], 4, 4, .RO, fun _ => 0⟩
def FLC_STAT_row : Row :=
  ⟨0xb80004, [], 4, .R, .I, false, false,
   [FLC_STAT_BUSY0, FLC_STAT_BUSY1, FLC_STAT_DONE, FLC_STAT_FAIL, FLC_STAT_CAUSE]⟩
-- FLC_ERASE_ADDR: 20_flash R574
def FLC_ERASE_ADDR_SECTOR : Field := ⟨0xb80008, [], 0, 11, .RW, fun _ => 0⟩
def FLC_ERASE_ADDR_row : Row :=
  ⟨0xb80008, [], 4, .R, .I, false, false,
   [FLC_ERASE_ADDR_SECTOR]⟩
-- FLC_ERASE_COUNT: 20_flash R574
def FLC_ERASE_COUNT_SECTORS : Field := ⟨0xb8000c, [], 0, 11, .RW, fun _ => 1⟩
def FLC_ERASE_COUNT_row : Row :=
  ⟨0xb8000c, [], 4, .R, .I, false, false,
   [FLC_ERASE_COUNT_SECTORS]⟩
-- FLC_PROG_ADDR: 20_flash R570
def FLC_PROG_ADDR_SEG : Field := ⟨0xb80010, [], 6, 17, .RW, fun _ => 0⟩
def FLC_PROG_ADDR_row : Row :=
  ⟨0xb80010, [], 4, .R, .I, false, false,
   [FLC_PROG_ADDR_SEG]⟩
-- FLC_PROG_LEN: 20_flash R570
def FLC_PROG_LEN_LEN1 : Field := ⟨0xb80014, [], 0, 6, .RW, fun _ => 0⟩
def FLC_PROG_LEN_row : Row :=
  ⟨0xb80014, [], 4, .R, .I, false, false,
   [FLC_PROG_LEN_LEN1]⟩
-- FLC_PROG_SRC: 20_flash R570
def FLC_PROG_SRC_SRC : Field := ⟨0xb80018, [], 0, 20, .RW, fun _ => 0⟩
def FLC_PROG_SRC_row : Row :=
  ⟨0xb80018, [], 4, .R, .I, false, false,
   [FLC_PROG_SRC_SRC]⟩
-- FLC_ECC: 20_flash R573
def FLC_ECC_CE : Field := ⟨0xb80020, [], 0, 16, .RO, fun _ => 0⟩
def FLC_ECC_UE : Field := ⟨0xb80020, [], 16, 16, .RO, fun _ => 0⟩
def FLC_ECC_row : Row :=
  ⟨0xb80020, [], 4, .R, .I, false, false,
   [FLC_ECC_CE, FLC_ECC_UE]⟩
-- FLC_FAILADDR: 20_flash R573
def FLC_FAILADDR_ADDR : Field := ⟨0xb80024, [], 0, 23, .RO, fun _ => 0⟩
def FLC_FAILADDR_row : Row :=
  ⟨0xb80024, [], 4, .R, .I, false, false,
   [FLC_FAILADDR_ADDR]⟩
-- FLC_WEAR_SEL: 20_flash R572
def FLC_WEAR_SEL_SECTOR : Field := ⟨0xb80030, [], 0, 11, .RW, fun _ => 0⟩
def FLC_WEAR_SEL_row : Row :=
  ⟨0xb80030, [], 4, .R, .I, false, false,
   [FLC_WEAR_SEL_SECTOR]⟩
-- FLC_WEAR: 20_flash R572
def FLC_WEAR_COUNT : Field := ⟨0xb80034, [], 0, 17, .RO, fun _ => 0⟩
def FLC_WEAR_WORN : Field := ⟨0xb80034, [], 17, 1, .RO, fun _ => 0⟩
def FLC_WEAR_row : Row :=
  ⟨0xb80034, [], 4, .R, .I, false, false,
   [FLC_WEAR_COUNT, FLC_WEAR_WORN]⟩
-- FLC_LOG: 20_flash R580
def FLC_LOG_BASE : Field := ⟨0xb80040, [], 0, 9, .RW, fun _ => 0⟩
def FLC_LOG_HEAD : Field := ⟨0xb80040, [], 9, 9, .RW, fun _ => 0⟩
def FLC_LOG_SLOT : Field := ⟨0xb80040, [], 18, 6, .RW, fun _ => 0⟩
def FLC_LOG_row : Row :=
  ⟨0xb80040, [], 4, .R, .I, false, false,
   [FLC_LOG_BASE, FLC_LOG_HEAD, FLC_LOG_SLOT]⟩
-- FLC_RSV: 20_flash R581
def FLC_RSV_PAGE : Field := ⟨0xb80044, [], 8, 15, .RW, fun _ => 0⟩
def FLC_RSV_VALID : Field := ⟨0xb80044, [], 23, 1, .RW, fun _ => 0⟩
def FLC_RSV_row : Row :=
  ⟨0xb80044, [], 4, .R, .I, false, false,
   [FLC_RSV_PAGE, FLC_RSV_VALID]⟩
-- FLC_LOGSTAT: 20_flash R579
def FLC_LOGSTAT_TORN : Field := ⟨0xb80048, [], 0, 16, .RO, fun _ => 0⟩
def FLC_LOGSTAT_RETIRED : Field := ⟨0xb80048, [], 16, 9, .RO, fun _ => 0⟩
def FLC_LOGSTAT_row : Row :=
  ⟨0xb80048, [], 4, .R, .I, false, false,
   [FLC_LOGSTAT_TORN, FLC_LOGSTAT_RETIRED]⟩

/-- The registers of R647, in chapter order. -/
def map0 : List Row := [
  TOP_HARVEST_row, TOP_STRAP_row, TOP_PINSTAT_row, TOP_RSTCAUSE_row,
  TOP_BOOTSTAT_row, TOP_MODE_row, TOP_HBMSTAT_row, TOP_TSENS_row,
  TOP_PACE_CTL_row, TOP_PACE_STAT_row, TOP_TIMEBASE_row, TOP_PACE_SNAPTIME_row]
def map1 : List Row := [
  TOP_CFGERR_row, TOP_CFGERR_CNT_row, TOP_TRL_FLITS_row, TOP_TRL_FLITS_SNAP_row,
  TOP_QD_STAT_row, TOP_SIG_ERR_row, TOP_QD_GRP_row, TOP_QD_WIN_row,
  TOP_QD_GST_row, TOP_QD_SNAP_row, TOP_QD_DIES_row, TOP_DRAIN_row]
def map2 : List Row := [
  TOP_LEASE_TMO_row, TOP_FAULT_row, TOP_FENCE_CNT_row, TOP_FENCE_LAST_row,
  TOP_HBM_ECC_row, TOP_HBM_ERRADDR_row, TOP_FAULTLOG_row, TOP_MBX_EPOCH_row,
  MBX_RING_CTL_row, MBX_DB_row, MBX_RING_PTR_row, MBX_RETIRE_row]
def map3 : List Row := [
  MBX_STATUS_row, MBX_VIOL_CNT_row, MBX_VLOG_PI_row, MBX_EVQ_CTL_row,
  MBX_EVQ_PI_row, MBX_EVQ_CI_row, MBX_EVQ_LOST_row, MBX_FUNC_row,
  MBX_TIMEBASE_row, MBX_WIN_row, HDG_STAT_row, HDG_PRIOSPLIT_row]
def map4 : List Row := [
  HDG_PRIOSPLIT_COMMIT_row, HDG_BCLAIM_row, HDG_BCOMPLETE_row, HDG_SPURIOUS_row,
  HDG_PEND_row, HDG_ACT_row, HDG_SRC_row, HDG_VSTAT_row,
  HDG_COAL_row, HDG_COAL_COMMIT_row, PLT_CAP_row, PLT_STEPS_row]
def map5 : List Row := [
  PLT_STEPS_SNAP_row, PLT_REPLICA_row, PLT_ARR_STAT_row, PLT_ARR_ERR_row,
  PLT_NUM_row, PLT_FLUSH_row, PLT_NUMFLAG_row, PLT_NUMCLR_row,
  PLT_SR_SEED_row, PLT_SR_DIE_row, STO_CTL_row, STO_STAT_row]
def map6 : List Row := [
  STO_ERR_row, STO_ECC_CNT_row, STO_INB_ERR_row, STO_CONFLICT_row,
  STO_BANKCONF_row, STO_WIN_row, STO_WINSTAT_row, STO_DBG_ROW_row,
  STO_DBG_DATA_row, RKE_DT_row, RKE_DT_COMMIT_row, RKE_DTERR_row]
def map7 : List Row := [
  RKE_CTX_row, RKE_ERR_row, RKE_TILES_row, RKE_SIG_row,
  RKE_CRD_row, RKE_CRDSEQ_row, VEC_RSC_row, VEC_ACT_row,
  VEC_COMMIT_row, VEC_STAT_row, SIV_STAT_row, SIV_PLACES_row]
def map8 : List Row := [
  SIV_PLACES_SNAP_row, SIV_UNIQUE_row, SIV_PFDROP_row, SIV_DIR_row,
  SIV_DIR_COMMIT_row, SIV_BASE_row, RWC_CTL_row, RWC_STAT_row,
  RWC_INV_KEY_row, RWC_PARAM_row, RWC_PARAM_COMMIT_row, RWC_PIN_KEY_row]
def map9 : List Row := [
  RWC_PIN_BASE_row, RWC_PIN_LIMIT_row, RWC_LOOKUP_row, RWC_LOOKUP_SNAP_row,
  RWC_HIT_row, RWC_MISS_row, RWC_FILL_row, RWC_BYPASS_row,
  RWC_DISCARD_row, FUR_STAT_row, FUR_ERR_row, FUR_ROWS_row]
def map10 : List Row := [
  FUR_ROWS_SNAP_row, FUR_PARTIALS_row, FUR_UPD_CNT_row, FUR_UPD_SKIP_row,
  FUR_LOCK_row, FUR_UPD_ERR_row, FUR_GEO_row, FUR_GEO_COMMIT_row,
  CSK_CTL_row, CSK_STAT_row, CSK_PARTNER_row, CSK_PARTNER_ID_row]
def map11 : List Row := [
  CSK_EPOCH_row, CSK_QWIN_row, CSK_VLOG_PI_row, CSK_VIOL_CNT_row,
  CSK_FEC_row, CSK_REPLAY_row, CSK_UNREACH_row, CSK_TXCELLS_row,
  CSK_TXCELLS_SNAP_row, CSK_RXCELLS_row, CSK_RXCELLS_SNAP_row, CSK_VCMAP_row]
def map12 : List Row := [
  CSK_VCMAP_COMMIT_row, CSK_RTHDR_row, CSK_RT_row, CSK_RT_COMMIT_row,
  CSK_VLOG_row, GRF_STAT_row, GRF_ELEMS_row, GRF_ELEMS_SNAP_row,
  GRF_CLIP_row, GRF_NONFIN_row, GRF_RUNGUP_row, GRF_EVTCNT_row]
def map13 : List Row := [
  GRF_NAK_row, GRF_NAK_CNT_row, GRF_ESEL_row, GRF_ENT_row,
  GRF_ENT_COMMIT_row, PWR_CTL_row, PWR_STAT_row, PWR_VID_MIN_row,
  PWR_VID_MAX_row, PWR_CAP_row, PWR_BMC_CAP_row, PWR_BUDGET_row]
def map14 : List Row := [
  PWR_FAST_row, PWR_TARGET_row, PWR_LIMIT_row, PWR_IMON_row,
  PWR_ATTR_row, PWR_FCST_row, PWR_PEAK_row, PWR_IV_OPEN_TB_row,
  PWR_IV_OPEN_row, PWR_IV_OPEN_B_row, PWR_IV_CLOSED_TB_row, PWR_IV_CLOSED_RTC_row]
def map15 : List Row := [
  PWR_IV_CLOSED_row, PWR_IV_CLOSED_F_row, PWR_CUT_TB_row, PWR_E_OPEN_row,
  PWR_E_CLOSED_row, PWR_E_DIE_OPEN_row, PWR_E_DIE_CLOSED_row, PWR_SCHED_HDR_row,
  PWR_BAND_row, PWR_SCHED_row, PWR_TARIFF_COMMIT_row, CLO_STATE_row]
def map16 : List Row := [
  CLO_LISTEN_row, CLO_FWSTAT_row, CLO_FWVER_row, CLO_SWAP_row,
  CLO_WDT_row, CLO_RTC_SEC_row, CLO_RTC_SUB_row, CLO_RTC_ALARM_row,
  CLO_RTC_CTL_row, CLO_TMR_CTL_row, CLO_TMR_CNT_row, CLO_TMR_CMP_row]
def map17 : List Row := [
  CLO_TMR_RELOAD_row, CLO_GPI_CTL_row, CLO_GPI_LATCH_row, CLO_GPI_CNT_row,
  CLO_GPI_LVL_row, CLO_SPI_CTL_row, CLO_SPI_ADDR_row, CLO_PDM_CTL_row,
  CLO_PDM_RD_row, CLO_PDM_STAT_row, CME_CTL_row, CME_LIST_row]
def map18 : List Row := [
  CME_STAT_row, CME_MACS_row, BNC_CTL_row, BNC_PC_row,
  FLC_CTL_row, FLC_STAT_row, FLC_ERASE_ADDR_row, FLC_ERASE_COUNT_row,
  FLC_PROG_ADDR_row, FLC_PROG_LEN_row, FLC_PROG_SRC_row, FLC_ECC_row]
def map19 : List Row := [
  FLC_FAILADDR_row, FLC_WEAR_SEL_row, FLC_WEAR_row, FLC_LOG_row,
  FLC_RSV_row, FLC_LOGSTAT_row]
def map : List Row :=
  map0 ++ map1 ++ map2 ++ map3 ++ map4 ++ map5 ++ map6 ++ map7 ++ map8 ++ map9 ++ map10 ++ map11 ++ map12 ++ map13 ++ map14 ++ map15 ++ map16 ++ map17 ++ map18 ++ map19

end Reg

end Sys2Proof.Machine
end

