-- ==== Sys2Proof/Machine/FMap.lean ====
section
/-! DEFINITION. Sparse data by key: a list of (key, value) pairs in one canonical form, keys strictly rising
and no entry equal to what an unlisted key reads as. -/

namespace Sys2Proof.Machine

/-- A sparse map from numbers to values. -/
abbrev FMap (α : Type) := List (Nat × α)

/-- The value at a key; an unlisted key reads as the default `d`. -/
def FMap.get {α : Type} (m : FMap α) (d : α) (k : Nat) : α :=
  match m with
  | [] => d
  | (k', v) :: r => if k' = k then v else FMap.get r d k

/-- Whether a key is listed. -/
def FMap.has {α : Type} (m : FMap α) (k : Nat) : Bool := m.any (fun e => e.1 == k)

/-- The value at a key, if the key is listed. -/
def FMap.find {α : Type} (m : FMap α) (k : Nat) : Option α :=
  match m with
  | [] => none
  | (k', v) :: r => if k' = k then some v else FMap.find r k

/-- The map without a key. -/
def FMap.erase {α : Type} (m : FMap α) (k : Nat) : FMap α := m.filter (fun e => e.1 != k)

/-- Insert a pair before the first larger key. -/
def FMap.insertSorted {α : Type} (m : FMap α) (k : Nat) (v : α) : FMap α :=
  match m with
  | [] => [(k, v)]
  | (k', v') :: r => if k < k' then (k, v) :: (k', v') :: r else (k', v') :: FMap.insertSorted r k v

/-- List a key with a value. -/
def FMap.put {α : Type} (m : FMap α) (k : Nat) (v : α) : FMap α := FMap.insertSorted (FMap.erase m k) k v

/-- Write a value at a key: writing what an unlisted key reads as removes the entry. -/
def FMap.set {α : Type} [DecidableEq α] (m : FMap α) (d : α) (k : Nat) (v : α) : FMap α :=
  if v = d then FMap.erase m k else FMap.put m k v

/-- The map without the keys that satisfy a test. -/
def FMap.dropWhere {α : Type} (m : FMap α) (p : Nat → Bool) : FMap α := m.filter (fun e => !p e.1)

/-- Whether the keys rise strictly from above `lo`. -/
def FMap.rising {α : Type} (lo : Nat) : FMap α → Bool
  | [] => true
  | (k, _) :: r => decide (lo ≤ k) && FMap.rising (k + 1) r

/-- The canonical form: keys strictly rising, no entry equal to the default. -/
def FMap.wf {α : Type} [DecidableEq α] (m : FMap α) (d : α) : Bool :=
  FMap.rising 0 m && m.all (fun e => decide (e.2 ≠ d))

end Sys2Proof.Machine
end

