-- ==== Sys2Proof/Machine/State.lean ====
section
/-! DEFINITION. The state of the die, as plain data: the register file of 23_register_map, the state each chapter
gives that no register holds, and the queue of waiting commands. -/

namespace Sys2Proof.Machine

/-- Why the machine stops at a fault. -/
inductive Fault where
  /-- Raised by nothing on ordinary data: an operand names a unit or an address that the spec says does not exist.
  Safe: the hardware has no such operand. -/
  | noSuchAddress
  deriving DecidableEq, Repr

/-- Why a command has no meaning. -/
inductive Refusal where
  /-- The arm of a command not yet modelled. Safe: nothing is claimed of it. -/
  | notModelled (mnemonic : String)
  deriving DecidableEq, Repr

/-- What the die sends to the outside: an MSI-X message, a completion of a host read (with its poison mark), a
write to host memory, an SMBus or MCTP answer, a Ciskaca block, a LINK message, a test-access-port bit, and an
answer to the Bench core's register read. -/
inductive Out where
  | msix (func vector addr data : Nat)
  | completion (func : Nat) (data : List Byte) (poisoned : Bool)
  | hostWrite (func addr : Nat) (data : List Byte)
  | smbus (port : Nat) (data : List Byte)
  | nack (port : Nat)
  | mctp (port : Nat) (status : Nat) (body : List Byte)
  | block (port : Nat) (bytes : List Byte)
  | linkMsg (port : Nat) (msg : LinkMsg)
  | spi (data : List Byte)
  | tdo (bit : Bool)
  | benchRead (value : Nat)
  deriving DecidableEq, Repr

/-! ### Mailbox (05_host_rings_slots) -/

/-- Result slot states of R155. -/
inductive SlotState where
  | free | busy | ready
  deriving DecidableEq, Repr

/-- A result slot (R160): its state, tag and captured NOTIFY flag (R157), and the posted status and body. -/
structure Slot where
  state : SlotState := .free
  tag : Nat := 0
  notify : Bool := false
  status : Nat := 0
  body : List Byte := []
  deriving DecidableEq, Repr

/-- One MSI-X table entry. -/
structure MsixEntry where
  addr : Nat := 0
  data : Nat := 0
  masked : Bool := true
  deriving DecidableEq, Repr

/-- A command that firmware has fetched (R187): function, slot, the function's mailbox epoch at
fetch (R626), the 64 descriptor bytes, whether its check has been made, and its result when one is staged. -/
structure Cmd where
  func : Nat
  slot : Nat
  epoch : Nat
  desc : List Byte
  started : Bool := false
  waiting : Bool := false
  result : Option (Nat × List Byte) := none
  deriving DecidableEq, Repr

/-- Mailbox state that no register holds. Maps are keyed by function: ring byte `f * 8192 + offset`, slot
`f * 128 + slot`, event entry `f * 256 + j`, log entry `f * 32 + k`, vector `f * 128 + v`. Bit f of `vfs` says
that VF f is enabled. -/
structure Mailbox where
  ring : FMap Byte := []
  slots : FMap Slot := []
  evq : FMap Nat := []
  vlog : FMap Nat := []
  msix : FMap MsixEntry := []
  msixPend : List Nat := []
  lostSince : FMap Nat := []
  cmds : List Cmd := []
  lastServed : Nat := 15
  vfs : Nat := 0
  bar2Log2 : Nat := 34
  reclaimAt : FMap Nat := []
  linkUp : Bool := false
  cfgReady : Bool := false
  deriving DecidableEq, Repr

/-! ### Hedge (19_hedge_interrupts) -/

/-- An open coalescing window (R561): when it opened and the settings it opened with. -/
structure CoalWin where
  opened : Nat
  count : Nat
  timeUs : Nat
  deriving DecidableEq, Repr

/-- Hedge state that no register holds: whether the Bench interrupt input was asserted after the last claim
(R557), and the open windows by `f * 128 + v`. -/
structure Hedge where
  irqSeen : Bool := false
  wins : FMap CoalWin := []
  deriving DecidableEq, Repr

/-! ### Ciskaca (16_ciskaca_link) -/

/-- A packet in the routing stage or an output queue, with the port it arrived on (8 for a local agent) and the
time it entered the die (R622). -/
structure QPkt where
  pkt : Packet
  inPort : Nat
  time : Nat
  deriving DecidableEq, Repr

/-- A DATA block held for replay (R475): its sequence number, FIRST_HDR, frame area and the packets that begin in it. -/
structure TxBlock where
  seq : Nat
  firstHdr : Nat
  frame : List Byte
  pkts : List Packet
  deriving DecidableEq, Repr

/-- One Ciskaca port: transmit and receive sequence state, the replay buffer (R475), credits held and owed by
pool (R478), the output queue, the packet being assembled from cells, and what the partner announced (R497). -/
structure Port where
  txSeq : Nat := 0
  replay : List TxBlock := []
  resend : List Nat := []
  rxNext : Nat := 0
  retrying : Bool := false
  replaySeq : Nat := 0
  replayCount : Nat := 0
  lastRx : Nat := 65535
  credits : List Nat := [0, 0, 0, 0, 0, 0, 0]
  owed : List Nat := [0, 0, 0, 0, 0, 0, 0]
  used : List Nat := [0, 0, 0, 0, 0, 0, 0]
  queue : List QPkt := []
  txCells : List (List Byte) := []
  rxCells : List (List Byte) := []
  skipping : Bool := false
  uncorr : List Nat := []
  violTimes : List Nat := []
  sinceIdle : Nat := 0
  trained : Bool := false
  retrainAt : Nat := 0
  partnerSeen : Bool := false
  partnerEnabled : Bool := false
  partnerRouted : Bool := false
  owedNaks : List (Nat × Nat) := []
  wantRetrain : Bool := false
  deriving DecidableEq, Repr

/-- The link layer of the die: its ID (R484), its routing stage, the packets delivered to local agents that no
command has taken yet, and the eight ports. -/
structure Link where
  dieId : Nat := 0
  idValid : Bool := false
  routed : Bool := false
  routeQ : List QPkt := []
  inbox : List QPkt := []
  ports : FMap Port := []
  deriving DecidableEq, Repr

/-! ### Flash (20_flash) -/

/-- Whom a queued flash operation serves. -/
inductive FlashOwner where
  | register
  | firmware
  | cmd (func slot : Nat)
  | mctp (port : Nat)
  | spare
  | rcv
  deriving DecidableEq, Repr

/-- An operation waiting in a bank's queue (R571): erases of whole sectors, or programs of 64-byte segments. -/
inductive FlashOp where
  | erase (owner : FlashOwner) (sector count : Nat)
  | program (owner : FlashOwner) (addr : Nat) (segs : List (List Byte))
  deriving DecidableEq, Repr

/-- The flash array and the state of its controller that no register holds: the bytes (unlisted reads 0xFF, R567),
segments whose contents are undefined with the free value they began from (R570, R575), erase counters (R572), the
two banks' queues, the newest log and fault bookkeeping, and the records that wait for an erased page (R581). -/
structure Flash where
  bytes : FMap Byte := []
  undef : FMap Nat := []
  wear : FMap Nat := []
  bank0 : List FlashOp := []
  bank1 : List FlashOp := []
  logSeq : Nat := 0
  logWait : List (Nat × Nat × List Byte) := []
  retired : List Nat := []
  faultSecond : Nat := 0
  faultCount : Nat := 0
  rcvPhase : Nat := 0
  rcvBlock : Nat := 0
  rcvReason : Nat := 0
  rcvSeen : List Nat := []
  deriving DecidableEq, Repr

/-! ### Pins, boot and power (02, 03, 21) -/

/-- A demand-interval's bookkeeping that no register holds (R603-R607). -/
structure Interval where
  short : Bool := false
  lowCap : Nat := 0
  enabled : List Nat := []
  schedNew : Bool := false
  deriving DecidableEq, Repr

/-- The power governor's state that no register holds: the limiter's timers (R599), the running 1 ms average, the
bookkeeping of the open and the last closed interval, the schedule's source, and the activity counts since the last
sample (R606). -/
structure Gov where
  isOver : Bool := false
  isOverTemp : Bool := false
  notOverSince : Nat := 0
  raiseAt : Nat := 0
  lowerAt : Nat := 0
  closeDue : Bool := false
  haveClosed : Bool := false
  logWaiting : Bool := false
  power : Nat := 0
  msSum : Nat := 0
  msCount : Nat := 0
  msAvg : Nat := 0
  openIv : Interval := {}
  closedIv : Interval := {}
  pendingSource : Nat := 3
  pendingCrc : Nat := 0
  schedCrc : Nat := 0
  schedSource : Nat := 3
  closedSchedId : Nat := 0
  closedRtc : Nat := 0
  loopSteps : FMap Nat := []
  actSteps : FMap Nat := []
  actHbm : FMap Nat := []
  actCells : FMap Nat := []
  deriving DecidableEq, Repr

/-- Pins, boot and reset state that no register holds (R51-R58, R75, R96, R97): whether the island rails are in
tolerance, PORST_N and PWRFAIL_N as the pins stand, the times that timeouts run
from, the fuses read, and the fabric reset in progress with the command that caused it. -/
structure Boot where
  rails : Bool := false
  porstN : Bool := false
  osc : Bool := false
  porstHeld : Bool := false
  mainEnAt : Nat := 0
  vcoreEnAt : Nat := 0
  pwrfailLow : Bool := false
  pwrfailAt : Nat := 0
  holdup : Bool := false
  cutAt : Nat := 0
  powerFault : Bool := false
  bistDone : Bool := false
  trained : Bool := false
  cleared : Bool := false
  perstN : Bool := false
  hostResetHeld : Bool := false
  fabricReset : Bool := false
  fabricAt : Nat := 0
  fabricCmd : Option (Nat × Nat) := none
  islandCmd : Option (Nat × Nat) := none
  vidAt : Nat := 0
  serial : Nat := 0
  budget : Nat := 550
  minSecVer : Nat := 0
  fuseWs : List Nat := []
  fuseAs : List Nat := []
  fusePs : List Nat := []
  bootCount : Nat := 0
  runVersion : Nat := 0
  runSec : Nat := 0
  code : Option (FMap Byte) := none
  restarting : Bool := false
  wasReady : Bool := false
  deriving DecidableEq, Repr

/-! ### Tenancy (R197) -/

/-- What a VF holds: plots, Ciskaca ports, and HBM ranges as (base, size) in units of 64 MiB. -/
structure Tenant where
  plots : Nat := 0
  ports : Nat := 0
  ranges : List (Nat × Nat) := []
  deriving DecidableEq, Repr

/-! ### Cloche island (18_cloche_island) -/

/-- The test access port (R70): its controller state by the IEEE 1149.1 state diagram (0 Test-Logic-Reset,
1 Run-Test/Idle, 2-8 the data column, 9-15 the instruction column), the instruction in effect, the shift register
with its length, and the boundary register's update stage. -/
structure Tap where
  st : Nat := 0
  ir : Nat := 3
  shift : Nat := 0
  bsr : Nat := 0
  deriving DecidableEq, Repr

/-- Island state that no register holds: SRAM (bytes written since its contents were last undefined; the others
read free values numbered by `sramGen`, and by `retGen` in the retained region), the timers' prescale counts and
the expiries not yet taken (R532), the accumulators of R527, the watchdog's deadline, the CME list in progress and
the length of its last output, the forecast history (R542), the DORMANT result areas with their sequence bytes
(R544), the MCTP endpoint IDs, and the exchange in progress (R546). -/
structure Cloche where
  sram : FMap Byte := []
  sramGen : Nat := 0
  retGen : Nat := 0
  tmrSub : FMap Nat := []
  tmrDue : List Nat := []
  listenAcc : Nat := 0
  rtcAcc : Nat := 0
  alarmDue : Bool := false
  lastOut : Nat := 0
  wdtAt : Nat := 0
  cmeAddr : Nat := 0
  cmeLast : Nat := 0
  cmePc : Nat := 0
  boardHist : List Byte := []
  areas : FMap (Nat × List Byte) := []
  alert : Bool := false
  eids : FMap Nat := []
  sigQ : List Packet := []
  swapCmd : Option (Nat × Nat) := none
  paceAt : Nat := 0
  cellsSeen : Nat := 0
  stepsSeen : FMap Nat := []
  tap : Tap := {}
  deriving DecidableEq, Repr


/-! ### Plot stores (08_plot_stores) -/

/-- An open coalescer entry (R269): its store and row, the contexts with a write in it, the valid 4-byte words and
the time of the last merge. -/
structure CoalEntry where
  store : Nat
  row : Nat
  ctxs : List Nat
  words : FMap Nat
  time : Nat
  deriving DecidableEq, Repr

/-- The three stores of a plot. Rows are keyed by `store * 65536 + row`; an unlisted row reads zero after a clear
(`known`) and undefined data before one (R257, R284). Tags: `true` FULL; unlisted tags are EMPTY once firmware or a
clear has set them (`tagsKnown`) and undefined before (R266). Poisoned code words by row key (R275), the open
coalescer entries, least recently written first, the scrubber's next row (R276), and how often a
self-test has left the contents undefined (R224). -/
structure Stores where
  rows : FMap (List Byte) := []
  known : Bool := false
  tags : FMap Bool := []
  tagsKnown : Bool := false
  poison : List (Nat × Nat) := []
  coal : List CoalEntry := []
  scrubRow : Nat := 0
  gen : Nat := 0
  deriving DecidableEq, Repr

/-! ### Matrix Array (07_plot_array_vector) -/

/-- What identifies the contents of a weight plane (R303): the context, the B first row, the scale row, the codebook
row and the pass part. -/
structure WKey where
  ctx : Nat
  bRow : Int
  scaleRow : Nat
  cbRow : Nat
  part : Nat
  deriving DecidableEq, Repr

/-- A weight plane: its key (none: not a complete tile), the rows as stored and the scale bytes that cover them. -/
structure WPlane where
  key : Option WKey := none
  rows : List (List Byte) := []
  scales : List Byte := []
  deriving DecidableEq, Repr

/-- The drain of an accumulator plane (R249): the descriptor set, Vector Unit set and coefficient buffer captured
with it, the tile ordinal, the tile-local and global origins of the output block, its first C row, the next output
row and its place among the drains. -/
structure Drain where
  set : List Nat
  rsc : Nat
  act : Nat
  coef : List Byte
  tile : Nat
  m0 : Nat
  n0 : Nat
  col0 : Nat
  cRow : Int
  row : Nat
  order : Nat
  stamp : Nat
  deriving DecidableEq, Repr

/-- An accumulator plane (R239): whether a context holds it, entries `m * 256 + n` as R304 stores them (zero where
unlisted), the row sums of R241, and its drain once the last block is done. -/
structure Plane where
  held : Bool := false
  ctx : Nat := 0
  entries : FMap Nat := []
  sums : FMap Nat := []
  drain : Option Drain := none
  deriving DecidableEq, Repr

/-- A MATMUL in progress: its row offsets, the indices i0 to i5 and the pass. -/
structure Walk where
  offA : Int
  offB : Int
  offC : Int
  offP : Int
  idx : List Nat
  pass : Nat
  deriving DecidableEq, Repr

/-- The Matrix Array: the context whose tile it serves, the context served last (R117), the step of the current
block, the accumulator plane it uses (none: not yet granted), both weight planes, both accumulator planes and the
number of drains begun. -/
structure MArray where
  owner : Option Nat := none
  last : Nat := 3
  step : Nat := 0
  plane : Option Nat := none
  cur : WPlane := {}
  shadow : WPlane := {}
  p0 : Plane := {}
  p1 : Plane := {}
  drains : Nat := 0
  deriving DecidableEq, Repr

/-! ### Rake (09_rake_tiling) -/

/-- A row waiting for a credit of its counter (R314): the counter, the sending agent, its
context, the instruction count it was started at and the data. -/
structure RowOut where
  counter : Nat
  agent : Nat
  ctx : Nat
  stamp : Nat
  data : List Byte
  deriving DecidableEq, Repr

/-- A Rake context beyond its registers (R287): instructions issued, signals queued behind earlier writes with the
count they were queued at (R137), loop registers, coefficient buffer (R252), codebook tables loaded for
A and B (R230) and the classes their sets were checked with (R338), the MATMUL in progress, VOPs since the last tile
boundary (R360), vectors or rows the current instruction has done with the bytes it has read for the next vector, the
results it gathers and the rows it has still to write, the wait of the current instruction and of a background access
as (kind, argument) (R290), the scope of a FENCE or HALT in progress, whether that is a HALT, the GATHER slots in use
(R321) and the collectives outstanding. -/
structure Ctx where
  issued : Nat := 0
  sigs : List (Nat × Packet) := []
  loops : List Nat := [0, 0, 0, 0]
  coef : List Byte := []
  cbA : List Nat := []
  cbB : List Nat := []
  clsA : Nat := 0
  clsB : Nat := 0
  walk : Option Walk := none
  vops : Nat := 0
  progress : Nat := 0
  inBytes : List Byte := []
  held : List Byte := []
  outRows : List (Nat × List Byte) := []
  wait : Option (Nat × Nat) := none
  bg : Option (Nat × Nat) := none
  fence : Option Nat := none
  halting : Bool := false
  gslots : List Nat := []
  colls : Nat := 0
  deriving DecidableEq, Repr

/-- A captured DMA descriptor (R311): its 32 bytes, the context that staged it and that context's instruction count. -/
structure DmaDesc where
  bytes : List Byte
  ctx : Nat
  stamp : Nat
  deriving DecidableEq, Repr

/-- A plot DMA channel (R311): the running and the pending descriptor, and the next row of the running one. -/
structure Chan where
  cur : Option DmaDesc := none
  pend : Option DmaDesc := none
  row : Nat := 0
  deriving DecidableEq, Repr

/-- One plot: its stores, array, contexts, DMA channels, rows waiting for credits, and program memory as 128-bit
instructions (undefined where no JOB_LOAD has written). -/
structure Plot where
  sto : Stores := {}
  arr : MArray := {}
  ctxs : FMap Ctx := []
  chans : FMap Chan := []
  rq : List RowOut := []
  prog : FMap Nat := []
  deriving DecidableEq, Repr

/-- A packet sent and not yet acknowledged (R390): the sending agent, the context it counts for (4p + c), the packet
type, destination die and agent, epoch, SEQ or TAG, and the instruction count it was started at. -/
structure Flight where
  srcAgent : Nat
  ctx : Nat
  typ : Nat
  die : Nat
  agent : Nat
  epoch : Nat
  tag : Nat
  stamp : Nat
  deriving DecidableEq, Repr

/-- A detector slot beyond its registers (R389-R394): since when it has been locally quiescent, the window that
runs, the GEN latched, and as coordinator the reports held, whether a round is open, its answers, and the PROBEs that
could not be delivered. -/
structure QSlot where
  since : Nat := 0
  window : Nat := 0
  latched : Option Nat := none
  reports : FMap Nat := []
  round : Bool := false
  answers : FMap (Option Nat) := []
  lostProbes : Nat := 0
  deriving DecidableEq, Repr

/-! ### Jobs (06_asanari_commands) -/

/-- A buffer reference (R185): ADDR, LEN and SPACE (0 HBM, 1 host). -/
structure BufRef where
  addr : Nat := 0
  len : Nat := 0
  space : Nat := 0
  deriving DecidableEq, Repr

/-- A batch of a job (R205, R206): its JOB_SUBMIT command, BATCH, both references, its number once it runs, and how
far it is: 0 queued, 1 input staged, 2 running, 3 outputs signalled; the drops and empty bags counted for it. -/
structure Batch where
  func : Nat
  slot : Nat
  id : Nat
  inBuf : BufRef
  outBuf : BufRef
  q : Nat := 0
  phase : Nat := 0
  dropped : Nat := 0
  empty : Nat := 0
  deriving DecidableEq, Repr

/-- A JOB_START in progress (R209, R210): the command, START_TAG, START_TMO_MS in counts, the time of step 1, the dies
whose READY has arrived, the INSTALL targets and those that answered, and the target that lacked space. -/
structure Start where
  func : Nat
  slot : Nat
  tag : Nat
  tmo : Nat
  at' : Nat
  ready : List Nat := []
  targets : List Nat := []
  acked : List Nat := []
  deriving DecidableEq, Repr

/-- A load slot (R197a): its generation, whether a job is loaded, its function, bundle, plots, state (0 LOADED,
1 RUNNING, 2 ENDED), final status, time of the last state change, PLT_STEPS of its plots at the start, array steps
at the end, FAULT_AT and the first bad index, the start in progress, the aborts that wait with the time of the first,
its batches, the next batch number, batches completed, whether a step-epoch boundary is due (R439), drops and empty
bags, and the detector slots it armed. -/
structure Job where
  gen : Nat := 1
  loaded : Bool := false
  func : Nat := 0
  bundle : List Byte := []
  plots : Nat := 0
  state : Nat := 0
  final : Nat := 0
  changedAt : Nat := 0
  steps0 : FMap Nat := []
  steps : Nat := 0
  faultAt : Nat := 0
  faultIdx : Nat := 0
  start : Option Start := none
  aborts : List (Nat × Nat) := []
  abortAt : Nat := 0
  aborting : Bool := false
  batches : List Batch := []
  nextQ : Nat := 0
  doneBatches : Nat := 0
  boundaryDue : Bool := false
  dropped : Nat := 0
  empty : Nat := 0
  groups : List Nat := []
  snap : List Byte := []
  deriving DecidableEq, Repr


/-! ### Embedding tables, lookup and updates (13-15) -/

/-- What firmware keeps of the table in a directory slot beside the slot itself (R211, R418): its flags, STATE_BYTES,
version, the three counters, and the TBL_SWITCH that waits for a batch boundary as (function, result slot, NEW_BASE). -/
structure Tbl where
  versioned : Bool := false
  optState : Bool := false
  stateBytes : Nat := 0
  version : Nat := 1
  drops : Nat := 0
  empties : Nat := 0
  aborts : Nat := 0
  switch : Option (Nat × Nat × Nat) := none
  deriving DecidableEq, Repr

/-- A line of the Row Cache (R432, R433): TKEY, local row, use counter and the read part it was filled with. -/
structure Line where
  tkey : Nat
  row : Nat
  use : Nat
  data : List Byte
  deriving DecidableEq, Repr

/-- A row on its way into the cache (R434, R437): the data read from HBM, whether it is a prefetch, and whether an
invalidation covering it has taken effect since the read. -/
structure Fill where
  tkey : Nat
  row : Nat
  data : List Byte
  prefetch : Bool
  dead : Bool
  deriving DecidableEq, Repr

/-- The Row Cache: its lines by set × 16 + way, fills in progress, keyed invalidations in progress (R438), the commands
that post when those are complete, batches served since the last decay (R433), and the last batch-boundary ordinal
advanced at, by GTAG (R439). -/
structure RowCache where
  lines : FMap Line := []
  fills : List Fill := []
  inv : List Nat := []
  waits : List (Nat × Nat) := []
  batches : Nat := 0
  epochs : FMap Nat := []
  deriving DecidableEq, Repr

/-- A bag of a batch: its segment, its place there, its surviving indices and its wave. -/
structure Bag where
  seg : Nat
  idx : Nat
  live : Nat
  wave : Nat
  deriving DecidableEq, Repr

/-- A part of a bag (R430): the bag's number in the batch, component (0 P or only, 1 Q), directory slot, owning die,
stack on this die (6 for a remote part), terms as (local row, FP32 weight) in the order of R442, the slot's number and
first scratch row in its wave, the wave, whether every row hit, the rows of its slot that are filled, and how many a
slot has. -/
structure Part where
  bag : Nat
  comp : Nat
  dir : Nat
  die : Nat
  stack : Nat
  terms : List (Nat × Nat)
  slot : Nat
  at' : Nat
  wave : Nat
  hit : Bool
  got : List Nat
  rows : Nat
  deriving DecidableEq, Repr

/-- A row gradient of an update gather (R454): directory slot, owning die, stack, local row, contributions as (bag
number, FP32 coefficient, first element of the bag gradient that it takes) in ascending original position, its first
scratch row and its wave. -/
structure GRow where
  dir : Nat
  die : Nat
  stack : Nat
  row : Nat
  terms : List (Nat × Nat × Nat)
  at' : Nat
  wave : Nat
  deriving DecidableEq, Repr

/-- A batch in a Sieve input buffer (R427): the context, its GATHER slot (none for a prefetch), IDX_ROWS, OUT_ROW and
OUT_TAG, the descriptor row and the index area, the instruction count, how far it is (0 streamed, 1 sorted, 2 a wave
running, 3 all sent), its bags, parts and row gradients, the wave that runs and the number of waves, the next bag to
combine, the scratch rows of copied hit rows by directory slot × 2^40 + local row, row updates not yet acknowledged, and
per segment the drops and empty bags to count when it completes (R418). -/
structure Gather where
  plot : Nat
  ctx : Nat
  gslot : Option Nat
  outRow : Nat
  fill : Bool
  desc : List Byte
  data : List Byte
  stamp : Nat
  phase : Nat := 0
  bags : List Bag := []
  parts : List Part := []
  grads : List GRow := []
  wave : Nat := 0
  waves : Nat := 0
  nextBag : Nat := 0
  copies : FMap Nat := []
  left : Nat := 0
  drops : List Nat := []
  deriving DecidableEq, Repr

/-- A term that a Furrow unit pools (R441, R442): HBM address of the row, local row, weight, and the row's bytes when it
hit in the Row Cache of this die. -/
structure FTerm where
  addr : Nat
  row : Nat
  weight : Nat
  cached : Option (List Byte)
  deriving DecidableEq, Repr

/-- A part waiting at a Furrow unit (R441): requesting die and agent, GATHER slot, wave and slot number; the TKEY, row
format and elements of its table and its terms. -/
structure FPart where
  die : Nat
  agent : Nat
  gslot : Nat
  wave : Nat
  slot : Nat
  tkey : Nat
  fmt : Nat
  elems : Nat
  terms : List FTerm
  deriving DecidableEq, Repr

/-- A row update waiting at a Furrow unit (R455-R457): TKEY, writer die, issuing agent, step ordinal, writer epoch, local
row, update-block bytes 208-239 and the row gradient. -/
structure FUpd where
  tkey : Nat
  writer : Nat
  agent : Nat
  step : Nat
  epoch : Nat
  row : Nat
  hdr : List Byte
  grad : List Byte
  deriving DecidableEq, Repr

/-- A Furrow unit: the parts and the updates it holds, oldest first. -/
structure Furrow where
  parts : List FPart := []
  upds : List FUpd := []
  deriving DecidableEq, Repr

/-- A writer of a table on this die (R456, R460): its die, the agent of its groups once one has come, its lease epoch,
the steps whose END has come, and whether it has been removed from the writer set. -/
structure Writer where
  die : Nat
  agent : Nat := 0
  epoch : Nat
  ended : Nat := 0
  gone : Bool := false
  deriving DecidableEq, Repr

/-- An update plan (R456): TKEY, GTAG, writers in ascending die ID, owners, the JOB_ID and leader that installed it, the
load slot when a bundle of this die did, when the awaited writer's turn began (R627), and whether a release notice has
asked for its removal (R628). -/
structure Plan where
  tkey : Nat
  gtag : Nat
  writers : List Writer
  owners : List Nat
  jobId : Nat
  leader : Nat
  slot : Option Nat
  turnAt : Nat
  leaving : Bool := false
  deriving DecidableEq, Repr

/-- A fence whose drain interval runs (R629): class by the column order of R624 from 0, what it names (plot and window,
TKEY and writer die, or Furrow unit), when it began and DRAIN_US then. -/
structure Fence where
  cls : Nat
  a : Nat
  b : Nat
  at' : Nat
  drain : Nat
  deriving DecidableEq, Repr

/-- Update leases and records (R209, R456-R460): the plans installed here, each writer's last epoch by
TKEY × 256 + die, the grants this die holds by TKEY × 256 + owner, and this die's step ordinals by TKEY. -/
structure Updates where
  plans : List Plan := []
  epochs : FMap Nat := []
  grants : FMap Nat := []
  ordinals : FMap Nat := []
  deriving DecidableEq, Repr


/-! ### Graft units and collectives (17) -/

/-- An entry of a Graft unit (R500, R513): role (0 egress, 1 ingress, 2 observing), PLAN, the JOB_ID and leader that
installed it, the image in effect and one captured by a commit with its scales (R520), effective scales as FP32 with
zero points, whether its packets carry zero points, codebook tables as FP32, statistics, the rung and row of its stream, the blocks of its run so far, the open window (elements, clipped,
non-finite), windows that have ended and wait for judgement with their rung, whether a window of the run was misfit,
and the scale and zero point of the block that a packet left open. -/
structure GEntry where
  role : Nat
  plan : Nat
  jobId : Nat
  leader : Nat
  img : List Byte
  cap : Option (List Byte × List (Nat × Int) × Bool) := none
  scales : List (Nat × Int) := []
  zp : Bool := false
  books : List Nat := []
  elems : Nat := 0
  clipped : Nat := 0
  nonfin : Nat := 0
  maxAbs : Nat := 0
  fallbacks : Nat := 0
  rung : Nat := 0
  row : Nat := 0
  run : Nat := 0
  winElems : Nat := 0
  winClip : Nat := 0
  winBad : Nat := 0
  ended : List (Nat × Nat × Nat) := []
  misfit : Bool := false
  rxS : Nat := 0
  rxZ : Int := 0
  deriving DecidableEq, Repr

/-- A send waiting at an egress unit (R505, R506): the entry's slot, the header its packets take, whether it is a row of
an RWRITE, the elements as FP32, the number of its first learned block, the rung, elements quantised and their codes, the
scales of its blocks and the elements already in packets. -/
structure GSend where
  entry : Nat
  pkt : Packet
  rwrite : Bool
  elems : List Nat
  block0 : Nat
  rung : Nat
  done : Nat := 0
  codes : List Nat := []
  scales : List (Nat × Int) := []
  packed : Nat := 0
  deriving DecidableEq, Repr

/-- Elements received for a collective: source die, phase, chunk, offset, whether a verdict, and the FP32 elements or
the two record bytes. -/
structure Rx where
  die : Nat
  phase : Nat
  chunk : Nat
  off : Nat
  verdict : Bool
  elems : List Nat
  deriving DecidableEq, Repr

/-- A COLLECTIVE of a context (R322-R324, R517): the instruction, the descriptor, the group, the source tensor and the
working tensor as FP32, the rung of the run, how far it is (0 exchanging, 1 run ended, 2 verdict round, 3 complete but for
the destination rows), the step of the schedule and whether the group's run was misfit so far as this die knows. -/
structure Coll where
  instr : List Byte
  desc : List Byte
  group : List Nat
  src : List Nat
  acc : List Nat
  rung : Nat
  phase : Nat := 0
  step : Nat := 0
  misfit : Bool := false
  deriving DecidableEq, Repr

/-- The Graft units: entries by unit × 256 + slot, sends waiting by unit; collectives of each context oldest first and
what has arrived for them, by 4p + c. -/
structure Graft where
  entries : FMap GEntry := []
  egress : FMap (List GSend) := []
  colls : FMap (List Coll) := []
  rx : FMap (List Rx) := []
  deriving DecidableEq, Repr


/-- The whole state. -/
structure State where
  /-- Commands waiting, first in first out. -/
  pending : List Instr := []
  /-- Every register field that differs from its reset value, by `Field.key`. -/
  regs : FMap Nat := []
  /-- Captured words of staged sets that wait for their boundary (R125), by the key of the staging copy. -/
  captured : FMap Nat := []
  /-- The model's own counter that free values are drawn with; no rule of the spec. -/
  freeCtr : Nat := 0
  /-- What has been sent outside, latest first. -/
  outs : List Out := []
  mbx : Mailbox := {}
  hedge : Hedge := {}
  link : Link := {}
  flash : Flash := {}
  gov : Gov := {}
  boot : Boot := {}
  tenants : FMap Tenant := []
  cloche : Cloche := {}
  /-- HBM bytes (zero where unlisted, R88) by HBM address, the poisoned 32-byte units (R617), the ranges
  (address, length, number of their free values) that a self-test left undefined (R224) where nothing has been written
  since, and how often the plots' stores have lost their contents. -/
  hbm : FMap Byte := []
  hbmPoison : List Nat := []
  hbmUndef : List (Nat × Nat × Nat) := []
  storeGen : Nat := 0
  plots : FMap Plot := []
  /-- Packets that await an acknowledgement, oldest first. -/
  flights : List Flight := []
  qd : FMap QSlot := []
  /-- The 16 load slots, and per plot the time until which a JOB_START that names it is held (R637). -/
  jobs : FMap Job := []
  plotHold : FMap Nat := []
  /-- Tables by directory slot, the shard-map memory (16-byte entries, zero where unlisted, R447), the Sieve buffers by
  sieve × 4 + buffer, the context each Sieve served last, the Row Cache, the Furrow units, update leases, fences in
  their drain intervals, and the ECC events counted for HBM units this boot (R639). -/
  tbls : FMap Tbl := []
  shard : FMap (List Byte) := []
  sieves : FMap Gather := []
  sieveLast : FMap Nat := []
  rwc : RowCache := {}
  furrow : FMap Furrow := []
  upd : Updates := {}
  fences : List Fence := []
  memLogged : List Nat := []
  graft : Graft := {}
  deriving DecidableEq, Repr

/-- The machine with the island unpowered, before ISLAND_RAILS_UP: every register at its reset value, every queue
empty. -/
def State.reset : State := {}

end Sys2Proof.Machine
end

