-- ==== Sys2Proof/Machine/Ops.lean ====
section
/-! DEFINITION. The operations every family shares: reading and writing register fields, time, free values, what is
sent outside, power domains, MSI-X vectors with coalescing (R561), the event queue (R167), Hedge requests (R553),
host violations (R172) and staged-set refusals (R127). -/

namespace Sys2Proof.Machine

/-! ### Register fields -/

/-- The value of a register field: always a value of its width. -/
def State.rd (s : State) (f : Field) (idx : List Nat) : Nat := FMap.get s.regs (f.rst idx) (f.key idx) % 2 ^ f.wid

/-- A register field set by hardware or firmware: cut to the field's width. -/
def State.wr (s : State) (f : Field) (idx : List Nat) (v : Nat) : State :=
  { s with regs := FMap.set s.regs (f.rst idx) (f.key idx) (v % 2 ^ f.wid) }

/-- A field read as a condition. -/
def State.on (s : State) (f : Field) (idx : List Nat) : Bool := s.rd f idx != 0

/-- A condition written to a one-bit field. -/
def State.wrb (s : State) (f : Field) (idx : List Nat) (b : Bool) : State := s.wr f idx (b2n b)

/-- A counter field that saturates (R13). -/
def State.satInc (s : State) (f : Field) (idx : List Nat) (n : Nat) : State :=
  s.wr f idx (satAdd f.wid (s.rd f idx) n)

/-- A counter field whose table states that it wraps. -/
def State.wrapInc (s : State) (f : Field) (idx : List Nat) (n : Nat) : State :=
  s.wr f idx (s.rd f idx + n)

/-- The field of the active mirror of a staged register (R123). -/
def Field.mirror (f : Field) : Field := { f with base := f.base + 0x8000 }

/-- The active value of a staged field. -/
def State.rdA (s : State) (f : Field) (idx : List Nat) : Nat := s.rd f.mirror idx

/-- Erase every register field whose address satisfies a test: it then holds its reset value. -/
def State.resetRegs (s : State) (p : Nat → Bool) : State :=
  { s with regs := FMap.dropWhere s.regs (fun k => p (k / 128)) }

/-! ### Time, free values, outputs -/

/-- The island time base (R104), one count per 40 ns. -/
def State.now (s : State) : Nat := s.rd Reg.TOP_TIMEBASE_COUNT []

/-- Time-base counts in `n` microseconds. -/
def usCounts (n : Nat) : Nat := 25 * n

/-- Time-base counts in `n` milliseconds. -/
def msCounts (n : Nat) : Nat := 25000 * n

/-- The next free value of `w` bits. -/
def State.freeVal (s : State) (w : Nat) : Nat := (Config.freeValue w s.freeCtr).toNat

/-- Advance past a free value. -/
def State.freeNext (s : State) : State := { s with freeCtr := s.freeCtr + 1 }

/-- Send something outside. -/
def State.emit (s : State) (o : Out) : State := { s with outs := o :: s.outs }

/-! ### Power, mode and role -/

/-- Whether the die is in Open mode (R93). -/
def State.isOpen (s : State) : Bool := s.rd Reg.TOP_MODE_MODE [] == 2

/-- Whether the die is in Run mode. -/
def State.isRun (s : State) : Bool := s.rd Reg.TOP_MODE_MODE [] == 1

/-- ROLE in effect: 0 SHOOT, 1 ROOT, 2 DORMANT. -/
def State.role (s : State) : Nat := s.rd Reg.TOP_STRAP_ROLE []

/-- Whether VCORE is up and no thermal trip stands (domain C of R642). -/
def State.coreUp (s : State) : Bool :=
  s.on Reg.TOP_PINSTAT_VCORE_PG [] && !s.on Reg.TOP_PINSTAT_THERMTRIP []

/-- Whether plot `p` is enabled (R82). -/
def State.plotEn (s : State) (p : Nat) : Bool := bitOf (s.rd Reg.TOP_HARVEST_PLOT_EN []) p

/-- The FAIL field of stack `n` in TOP_HBMSTAT. -/
def hbmFail (n : Nat) : Field := { Reg.TOP_HBMSTAT_FAIL0 with lo := 5 * n + 4 }

/-- The RATE field of stack `n`. -/
def hbmRate (n : Nat) : Field := { Reg.TOP_HBMSTAT_RATE0 with lo := 5 * n }

/-- The CLEARED field of stack `n`. -/
def hbmCleared (n : Nat) : Field := { Reg.TOP_HBMSTAT_CLEARED0 with lo := 5 * n + 3 }

/-- Whether stack `n` works (R87). -/
def State.stackOk (s : State) (n : Nat) : Bool := n < 6 && !s.on (hbmFail n) []

/-! ### MSI-X vectors (R175, R176, R561) -/

/-- The MSI-X entry of function `f`, vector `v`. -/
def State.msixEntry (s : State) (f v : Nat) : MsixEntry := FMap.get s.mbx.msix {} (f * 128 + v)

/-- Send one message of a vector: a masked vector sets its pending bit instead (R176, R564). -/
def sendVector (s : State) (f v : Nat) : State :=
  let e := s.msixEntry f v
  if e.masked then
    { s with mbx := { s.mbx with
        msixPend := if s.mbx.msixPend.contains (f * 128 + v) then s.mbx.msixPend else (f * 128 + v) :: s.mbx.msixPend } }
  else (s.wrapInc Reg.HDG_VSTAT_MSGS [f, v] 1).emit (.msix f v e.addr e.data)

/-- Whether a vector is coalesced (R561). -/
def coalesced (v : Nat) : Bool := v < 2 || 8 ≤ v

/-- Send the message of an open window and close it (R561). -/
def closeWindow (s : State) (f v : Nat) : State :=
  let s := { s with hedge := { s.hedge with wins := FMap.erase s.hedge.wins (f * 128 + v) } }
  sendVector ((s.wr Reg.HDG_VSTAT_COUNT [f, v] 0).wr Reg.HDG_VSTAT_OPEN [f, v] 0) f v

/-- VECTOR_REQUEST (R561): a request on a vector is sent at once when the vector is never coalesced or is idle with
no window open, opens a window, or adds to the open window's count; vectors 4-7 are never sent (R175). -/
def vectorRequest (s : State) (f v : Nat) (idle : Bool) : State :=
  if v = 2 ∨ v = 3 then sendVector s f v
  else if !coalesced v then s
  else match FMap.find s.hedge.wins (f * 128 + v) with
    | some w =>
      let n := s.rd Reg.HDG_VSTAT_COUNT [f, v] + 1
      let s := s.wr Reg.HDG_VSTAT_COUNT [f, v] n
      if w.count ≤ n then closeWindow s f v else s
    | none =>
      if idle then sendVector s f v
      else
        let w : CoalWin := ⟨s.now, s.rdA Reg.HDG_COAL_COUNT [f, v], s.rdA Reg.HDG_COAL_TIME_US [f, v]⟩
        let s := { s with hedge := { s.hedge with wins := FMap.put s.hedge.wins (f * 128 + v) w } }
        let s := (s.wr Reg.HDG_VSTAT_COUNT [f, v] 1).wr Reg.HDG_VSTAT_OPEN [f, v] 1
        if w.count ≤ 1 then closeWindow s f v else s

/-! ### Event queue (R166-R168) -/

/-- Unread entries of function `f`'s event queue. -/
def State.evqDepth (s : State) (f : Nat) : Nat :=
  (s.rd Reg.MBX_EVQ_PI_PI [f] + 65536 - s.rd Reg.MBX_EVQ_CI_CI [f]) % 65536

/-- Write entry (PI mod 256) and increment PI (R167). -/
def evqWrite (s : State) (f source data : Nat) : State :=
  let pi := s.rd Reg.MBX_EVQ_PI_PI [f]
  let n := (pi + 1) % 65536
  let e := n + 2 ^ 16 * (source % 1024) + 2 ^ 32 * (data % 2 ^ 32) + 2 ^ 64 * s.now
  { (s.wr Reg.MBX_EVQ_PI_PI [f] n) with
    mbx := { s.mbx with evq := FMap.put s.mbx.evq (f * 256 + pi % 256) e } }

/-- Count an event that finds the queue full or disabled (R168). -/
def evqLose (s : State) (f : Nat) : State :=
  let s := s.satInc Reg.MBX_EVQ_LOST_COUNT [f] 1
  { s with mbx := { s.mbx with lostSince := FMap.set s.mbx.lostSince 0 f (FMap.get s.mbx.lostSince 0 f + 1) } }

/-- Post the lost-event entry that is due when an entry is free (R168), announced on vector 1 (R560). -/
def evqPostLost (s : State) (f : Nat) : State :=
  let n := FMap.get s.mbx.lostSince 0 f
  if n = 0 ∨ !s.on Reg.MBX_EVQ_CTL_ENABLE [f] ∨ 256 ≤ s.evqDepth f then s
  else
    let idle := s.evqDepth f == 0
    let s := evqWrite s f 0 n
    vectorRequest { s with mbx := { s.mbx with lostSince := FMap.set s.mbx.lostSince 0 f 0 } } f 1 idle

/-- EVENT_QUEUE_POST (R167): post one event, a lost-event entry first when one is due, or count it lost. -/
def evqPost (s : State) (f source data : Nat) : State :=
  let s := evqPostLost s f
  if s.on Reg.MBX_EVQ_CTL_ENABLE [f] ∧ s.evqDepth f < 256 then evqWrite s f source data
  else evqLose s f

/-! ### Hedge (R550-R560) -/

/-- The kinds of source of R550. -/
inductive SrcKind where
  | event | level | reserved
  deriving DecidableEq, Repr

/-- Whether `i` is one of `n` sources at `base`, `base + step`, ... -/
def inSeq (i base step n : Nat) : Bool := base ≤ i && (i - base) % step == 0 && (i - base) / step < n

/-- The kind of source `i` by the table of R550. -/
def srcKind (i : Nat) : SrcKind :=
  if i = 1 ∨ i = 2 ∨ i = 5 then .level
  else if i = 3 ∨ i = 4 ∨ i = 6 then .event
  else if 16 ≤ i ∧ i < 64 then .event
  else if 64 ≤ i ∧ i < 192 then
    (match (i - 64) % 8 with
     | 0 => .level | 2 => .level | 4 => .level | 5 => .level
     | 1 => .event | 3 => .event | 6 => .event | _ => .reserved)
  else if 192 ≤ i ∧ i < 197 then .event
  else if inSeq i 200 4 6 || inSeq i 201 4 6 then .level
  else if 256 ≤ i ∧ i < 320 then
    (match (i - 256) % 8 with | 5 => .level | 6 => .reserved | 7 => .reserved | _ => .event)
  else if 320 ≤ i ∧ i < 384 then
    (match (i - 320) % 8 with | 0 => .event | 1 => .level | 2 => .event | _ => .reserved)
  else if 384 ≤ i ∧ i < 392 then .event
  else if 392 ≤ i ∧ i < 396 then .level
  else if i = 400 ∨ i = 408 then .level
  else if 396 ≤ i ∧ i < 408 then .event
  else .reserved

/-- The sources whose bit `lo` of HDG_SRC is set, in ascending order. -/
def State.srcsWith (s : State) (f : Field) : List Nat :=
  s.regs.filterMap (fun e =>
    if e.1 % 128 = f.lo ∧ f.base ≤ e.1 / 128 ∧ e.1 / 128 < f.base + 8 * 1023 ∧ (e.1 / 128 - f.base) % 8 = 0
        ∧ e.2 ≠ 0
    then some ((e.1 / 128 - f.base) / 8) else none)

/-- The priority group of a source under the SPLIT in effect (R555). -/
def State.srcGroup (s : State) (i : Nat) : Nat :=
  s.rd Reg.HDG_SRC_PRIO [i] / 2 ^ s.rdA Reg.HDG_PRIOSPLIT_SPLIT []

/-- Whether source `i` is eligible for the Bench core (R556). -/
def State.eligible (s : State) (i : Nat) : Bool :=
  s.on Reg.HDG_SRC_BEN [i] && s.on Reg.HDG_SRC_PENDING [i] && !s.on Reg.HDG_SRC_ACTIVE [i] &&
    (s.srcsWith Reg.HDG_SRC_ACTIVE).all (fun a => s.srcGroup i < s.srcGroup a)

/-- The better of two candidates: lower PRIO, then lower ID. -/
def State.moreUrgent (s : State) (a b : Nat) : Nat :=
  if s.rd Reg.HDG_SRC_PRIO [b] < s.rd Reg.HDG_SRC_PRIO [a] then b else a

/-- The source offered to the Bench core, or 0 (R556). -/
def State.offer (s : State) : Nat :=
  match (s.srcsWith Reg.HDG_SRC_PENDING).filter s.eligible with
  | [] => 0
  | i :: r => r.foldl s.moreUrgent i

/-- The running priority: the PRIO of the most urgent active source (HDG_STAT.RUNPRIO). -/
def State.runPrio (s : State) : Nat :=
  match s.srcsWith Reg.HDG_SRC_ACTIVE with
  | [] => 0
  | i :: r => r.foldl (fun m j => min m (s.rd Reg.HDG_SRC_PRIO [j])) (s.rd Reg.HDG_SRC_PRIO [i])

/-- Hedge's arbitration decision (R556): HDG_STAT shows the offer
and the Bench interrupt input is asserted while any source is eligible. -/
def hedgeDecide (s : State) : State :=
  let o := s.offer
  let s := s.wr Reg.HDG_STAT_OFFER [] o
  let s := s.wrb Reg.HDG_STAT_IRQ [] (o != 0)
  let s := s.wrb Reg.HDG_STAT_ACTIVE_ANY [] (!(s.srcsWith Reg.HDG_SRC_ACTIVE).isEmpty)
  let s := s.wr Reg.HDG_STAT_RUNPRIO [] s.runPrio
  { s with hedge := { s.hedge with irqSeen := s.hedge.irqSeen || o != 0 } }

/-- HOST_COPY (R559, R560): post an event entry to the routed function and count one request on the vector, whether
or not the entry could be posted. -/
def hostCopy (s : State) (i : Nat) : State :=
  if s.on Reg.HDG_SRC_HEN [i] then
    let f := s.rd Reg.HDG_SRC_FUNC [i]
    let idle := s.evqDepth f == 0
    vectorRequest (evqPost s f i (s.rd Reg.HDG_SRC_DATA [i])) f (s.rd Reg.HDG_SRC_VECTOR [i]) idle
  else s

/-- A source's request changes level as Hedge sees it: the pending bit moves as SENSE selects (R553), DATA is
written when the level rises (R552), and a copy is sent for each edge or assertion that SENSE detects (R559). -/
def hedgeLevel (s : State) (i : Nat) (level : Bool) (data : Nat) : State :=
  let old := s.on Reg.HDG_SRC_LEVEL [i]
  if old = level then s
  else
    let s := s.wrb Reg.HDG_SRC_LEVEL [i] level
    let s := if level then s.wr Reg.HDG_SRC_DATA [i] data else s
    let sense := s.rd Reg.HDG_SRC_SENSE [i]
    let act := s.on Reg.HDG_SRC_ACTIVE [i]
    let s := match sense with
      | 0 => if act then s else s.wrb Reg.HDG_SRC_PENDING [i] level
      | 1 => if act then s else s.wrb Reg.HDG_SRC_PENDING [i] (!level)
      | 2 => if level then s.wr Reg.HDG_SRC_PENDING [i] 1 else s
      | 3 => if level then s else s.wr Reg.HDG_SRC_PENDING [i] 1
      | _ => s.wr Reg.HDG_SRC_PENDING [i] 1
    let asserted := match sense with
      | 0 => level | 1 => !level | 2 => level | 3 => !level | _ => true
    hedgeDecide (if asserted then hostCopy s i else s)

/-- The rising half of an event's pulse under level-high SENSE: the pending bit follows while the source is not
active. -/
def pulseHigh (s : State) (i : Nat) : State :=
  if s.rd Reg.HDG_SRC_SENSE [i] = 0 then
    hedgeDecide (if s.on Reg.HDG_SRC_ACTIVE [i] then s else s.wr Reg.HDG_SRC_PENDING [i] 1)
  else s

/-- The end of the pulse: under a level SENSE the pending bit follows the request back; every edge SENSE has seen one
edge. -/
def pulseLow (s : State) (i : Nat) : State :=
  let sense := s.rd Reg.HDG_SRC_SENSE [i]
  if sense < 2 ∧ s.on Reg.HDG_SRC_ACTIVE [i] then s else s.wr Reg.HDG_SRC_PENDING [i] (if sense = 0 then 0 else 1)

/-- An event source pulses its request for one island period: one edge under every edge SENSE (R553). -/
def hedgeEvent (s : State) (i data : Nat) : State :=
  hedgeDecide (hostCopy (pulseLow (pulseHigh (s.wr Reg.HDG_SRC_DATA [i] data) i) i) i)

/-! ### Tenancy (R197) -/

/-- The assignment of a VF. -/
def State.tenant (s : State) (f : Nat) : Tenant := FMap.get s.tenants {} f

/-- The function that holds plot `p`: the VF it is assigned to, otherwise the PF. -/
def State.plotHolder (s : State) (p : Nat) : Nat :=
  ((s.tenants.find? (fun e => bitOf e.2.plots p)).map (·.1)).getD 0

/-! ### Trellis (R106, R114) -/

/-- The stop of a local agent by its ID (R114, R293): a plot's contexts and channels, else the island. -/
def agentStop (a : Nat) : Nat := if a < 64 then a / 4 else if a < 192 then (a - 64) / 8 else 23

/-- A flit enters Trellis at a stop: one for each packet, row or HBM transfer of at most 256 bytes. -/
def flit (s : State) (n : Nat) : State := s.wrapInc Reg.TOP_TRL_FLITS_COUNT [n] 1

/-- `n` HBM transfers of 256 bytes made for a function (R606). -/
def hbmActivity (s : State) (f n : Nat) : State :=
  { s with gov := { s.gov with actHbm := FMap.set s.gov.actHbm 0 f (FMap.get s.gov.actHbm 0 f + n) } }

/-- `n` Ciskaca cells sent for a function (R606). -/
def cellActivity (s : State) (f n : Nat) : State :=
  { s with gov := { s.gov with actCells := FMap.set s.gov.actCells 0 f (FMap.get s.gov.actCells 0 f + n) } }

/-! ### Host violations and refusals -/

/-- HOST_VIOLATION (R172): write a violation-log entry, count it, update the status word, request vector 2. -/
def hostViolation (s : State) (f code detail offset : Nat) (read : Bool) : State :=
  let pi := s.rd Reg.MBX_VLOG_PI_PI [f]
  let e := s.now + 2 ^ 64 * code + 2 ^ 80 * (detail % 65536)
    + 2 ^ 96 * (offset % 2 ^ 26) + 2 ^ 127 * b2n read
  let s := { s with mbx := { s.mbx with vlog := FMap.put s.mbx.vlog (f * 32 + pi % 32) e } }
  let s := s.wrapInc Reg.MBX_VLOG_PI_PI [f] 1
  let s := s.satInc Reg.MBX_VIOL_CNT_COUNT [f] 1
  let s := s.wr Reg.MBX_STATUS_LAST_CODE [f] code
  let s := s.wrapInc Reg.MBX_STATUS_VIOL_SEQ [f] 1
  sendVector s f 2

/-- BAR0 offset of byte `o` of function `f`'s page (R147). -/
def pageOffset (f o : Nat) : Nat := 0x100000 + 0x10000 * f + o

/-- TOP_CFGERR's code of an agent. -/
def Src.agentCode : Src → Nat
  | .bench => 0
  | .host _ => 1

/-- Record a refusal in TOP_CFGERR (R127, R134): the first since VALID was cleared, counted always; source 1 holds
its request while VALID is set. -/
def cfgRefuse (s : State) (agent kind offset : Nat) : State :=
  let s := s.satInc Reg.TOP_CFGERR_CNT_COUNT [] 1
  if s.on Reg.TOP_CFGERR_VALID [] then s
  else
    let s := s.wr Reg.TOP_CFGERR_OFFSET [] offset
    let s := s.wr Reg.TOP_CFGERR_AGENT [] agent
    let s := s.wr Reg.TOP_CFGERR_KIND [] kind
    hedgeLevel (s.wr Reg.TOP_CFGERR_VALID [] 1) 1 true 0

/-- Bench firmware requests vector 3 of a function: a device fault affecting it (R175). -/
def faultVector (s : State) (f : Nat) : State := vectorRequest s f 3 true

/-- The functions that exist: the PF and the enabled VFs. -/
def State.funcs (s : State) : List Nat := (List.range 16).filter (fun f => f == 0 || bitOf s.mbx.vfs f)

/-- Vector 3 of every function (R633). -/
def faultVectorAll (s : State) : State := s.funcs.foldl faultVector s

/-- Add 1 modulo 65,536, skipping 0 (R621). -/
def epochNext (e : Nat) : Nat := if (e + 1) % 65536 = 0 then 1 else (e + 1) % 65536

/-- The status codes of R226. -/
inductive Status where
  | ok | badVersion | badOpcode | badReserved | badParam | notPermitted | wrongMode | wrongRole | testLocked
  | notAssigned | busy | noResource | aborted | restarted | hostDmaFault | configMismatch | staleEpoch
  | fabricHalted | mediaError | bundleInvalid | plotAbsent | storeLayout | noJob | jobState | deadlock | jobFault
  | indexFault | dieSet | noTable | tableExists | stackFailed | shardMapInvalid | versionMismatch | noPlan
  | tariffInvalid | imageInvalid | trialPending | flashProtected | flashWorn | flashVerify | linkDown
  | dieIdConflict | routeInvalid | portQuarantined
  deriving DecidableEq, Repr

/-- The value of a status code (R226). -/
def Status.code : Status → Nat
  | .ok => 0 | .badVersion => 1 | .badOpcode => 2 | .badReserved => 3 | .badParam => 4 | .notPermitted => 5
  | .wrongMode => 6 | .wrongRole => 7 | .testLocked => 8 | .notAssigned => 9 | .busy => 0xA | .noResource => 0xB
  | .aborted => 0xC | .restarted => 0xD | .hostDmaFault => 0xE | .configMismatch => 0xF | .staleEpoch => 0x10
  | .fabricHalted => 0x11 | .mediaError => 0x12 | .bundleInvalid => 0x201 | .plotAbsent => 0x202
  | .storeLayout => 0x203 | .noJob => 0x204 | .jobState => 0x205 | .deadlock => 0x206 | .jobFault => 0x207
  | .indexFault => 0x208 | .dieSet => 0x209 | .noTable => 0x301 | .tableExists => 0x302 | .stackFailed => 0x303
  | .shardMapInvalid => 0x304 | .versionMismatch => 0x305 | .noPlan => 0x401 | .tariffInvalid => 0x501
  | .imageInvalid => 0x601 | .trialPending => 0x602 | .flashProtected => 0x701 | .flashWorn => 0x702
  | .flashVerify => 0x703 | .linkDown => 0x801 | .dieIdConflict => 0x802 | .routeInvalid => 0x803
  | .portQuarantined => 0x804

/-- Host violation codes of R226. -/
def vAccessWidth : Nat := 0x101
def vReservedAddr : Nat := 0x102
def vRegRefused : Nat := 0x103
def vRingDisabled : Nat := 0x104
def vRingOverrun : Nat := 0x105
def vRingEntryBusy : Nat := 0x106
def vRingBusy : Nat := 0x107
def vRetireNotReady : Nat := 0x108
def vRetireTagMismatch : Nat := 0x109
def vEvqCiRange : Nat := 0x10A
def vWinUnmapped : Nat := 0x10B

end Sys2Proof.Machine
end

