-- ==== Sys2Proof/Machine/Mailbox.lean ====
section
/-! DEFINITION. The host interface of 05_host_rings_slots: doorbells, ring entries, result slots, the event queue,
BAR2, and how firmware fetches commands and posts results (R154-R190). -/

namespace Sys2Proof.Machine

open Host (Outcome)

/-- Whether BAR0 and BAR2 act under their usual rules for function `f`: the function exists, the main rails are up,
and the die has reached READY since its power-on reset (R90), as a fabric reset leaves it (R97). -/
def State.hostReach (s : State) (f : Nat) : Bool :=
  (f == 0 || bitOf s.mbx.vfs f) && s.on Reg.TOP_PINSTAT_MAIN_PG [] && s.on Reg.TOP_MODE_MODE []

/-- Result slot `i` of function `f`. -/
def State.slot (s : State) (f i : Nat) : Slot := FMap.get s.mbx.slots {} (f * 128 + i)

/-- Replace a result slot. -/
def State.setSlot (s : State) (f i : Nat) (x : Slot) : State :=
  { s with mbx := { s.mbx with slots := FMap.set s.mbx.slots {} (f * 128 + i) x } }

/-- Byte `o` of function `f`'s command ring. -/
def State.ringByte (s : State) (f o : Nat) : Byte := FMap.get s.mbx.ring 0 (f * 8192 + o)

/-- The 64 bytes of ring entry `i`. -/
def State.ringEntry (s : State) (f i : Nat) : List Byte :=
  (List.range 64).map (fun k => s.ringByte f (64 * i + k))

/-- The 32 words of a slot as the host reads them (R160, R161). -/
def State.slotHeader (s : State) (f i : Nat) : Nat :=
  let x := s.slot f i
  match x.state with
  | .free => 0
  | .busy => 2 + 2 ^ 16 * x.tag
  | .ready => 1 + 2 ^ 16 * x.tag

/-- The 128 bytes a read of a slot returns (R160, R161). -/
def State.slotBytes (s : State) (f i : Nat) : List Byte :=
  let x := s.slot f i
  let hdr := leBytes 4 (s.slotHeader f i)
  match x.state with
  | .ready => hdr ++ leBytes 4 (x.status % 65536 + 2 ^ 16 * x.body.length) ++ padTo 120 x.body
  | _ => hdr ++ fill 124 0

/-! ### Doorbell, ring entries, retire -/

/-- The slots that commands `a` to `a + d - 1` use are all FREE. -/
def State.slotsFree (s : State) (f a d : Nat) : Bool :=
  (List.range d).all (fun k => (s.slot f ((a + k) % 128)).state == .free)

/-- Capture TAG and NOTIFY of command `n` and mark its slot BUSY (R157). -/
def acceptOne (f : Nat) (s : State) (n : Nat) : State :=
  let e := s.ringEntry f (n % 128)
  s.setSlot f (n % 128) { state := .busy, tag := fieldAt e 2 2, notify := bitOf (fieldAt e 4 1) 0 }

/-- A doorbell of value `p` (R156, R157). -/
def doorbellOp (s : State) (f p : Nat) : State :=
  let a := s.rd Reg.MBX_RING_PTR_PI [f]
  let d := (p + 65536 - a) % 65536
  if !s.hostReach f then s
  else if !s.on Reg.MBX_RING_CTL_ENABLE [f] then hostViolation s f vRingDisabled p (pageOffset f 4) false
  else if d = 0 then s
  else if d ≤ 128 ∧ s.slotsFree f a d then
    let s := (List.range d).foldl (fun s k => acceptOne f s (a + k)) s
    hedgeEvent (s.wr Reg.MBX_RING_PTR_PI [f] p) (32 + f) p
  else hostViolation s f vRingOverrun p (pageOffset f 4) false

/-- DOORBELL. -/
def execDoorbell (f : Fin 16) (p : Nat) (s : State) : Outcome State Fault Refusal := .next (doorbellOp s f (p % 65536))

/-- Write the bytes of a ring write whose entries are FREE (R158). -/
def ringStore (f : Nat) (s : State) (o : Nat) : List Byte → State
  | [] => s
  | b :: r =>
    let s := if (s.slot f (o / 64)).state = .free then
        { s with mbx := { s.mbx with ring := FMap.set s.mbx.ring 0 (f * 8192 + o) b } } else s
    ringStore f s (o + 1) r

/-- The entries a ring write of `n` bytes at `o` covers that are protected (R158). -/
def State.protectedEntries (s : State) (f o n : Nat) : List Nat :=
  ((List.range (n / 64 + 2)).map (fun k => o / 64 + k)).filter
    (fun i => 64 * i < o + n && (s.slot f i).state != .free)

/-- A host write to the command ring (R149, R150, R158). -/
def ringWriteOp (s : State) (f o : Nat) (data : List Byte) : State :=
  let n := data.length
  if !s.hostReach f then s
  else if o % 4 ≠ 0 ∨ n % 4 ≠ 0 ∨ n < 4 ∨ 512 < n ∨ 8192 < o + n then
    hostViolation s f vAccessWidth 0 (pageOffset f (0x2000 + o)) false
  else
    match s.protectedEntries f o n with
    | [] => ringStore f s o data
    | i :: _ => hostViolation (ringStore f s o data) f vRingEntryBusy i (pageOffset f (0x2000 + o)) false

/-- RING_ENTRY_WRITE. -/
def execRingEntryWrite (f : Fin 16) (o : Nat) (data : List Byte) (s : State) : Outcome State Fault Refusal :=
  .next (ringWriteOp s f o data)

/-- A write of slot and tag to MBX_RETIRE (R163). -/
def retireOp (s : State) (f i tag : Nat) : State :=
  let x := s.slot f i
  if !s.hostReach f then s
  else if x.state ≠ .ready then hostViolation s f vRetireNotReady i (pageOffset f 0xC) false
  else if x.tag ≠ tag then hostViolation s f vRetireTagMismatch i (pageOffset f 0xC) false
  else s.setSlot f i {}

/-- RETIRE. -/
def execRetire (f : Fin 16) (i : Fin 128) (tag : Nat) (s : State) : Outcome State Fault Refusal :=
  .next (retireOp s f i (tag % 65536))

/-! ### Enabling and disabling (R170) -/

/-- Free every slot of a function. -/
def State.freeSlots (s : State) (f : Nat) : State :=
  { s with mbx := { s.mbx with slots := FMap.dropWhere s.mbx.slots (fun k => k / 128 == f) } }

/-- A write of 1 to MBX_RING_CTL.ENABLE. -/
def ringEnableOp (s : State) (f : Nat) : State :=
  if !s.hostReach f ∨ s.on Reg.MBX_RING_CTL_ENABLE [f] then s
  else
    let s := (s.wr Reg.MBX_RING_PTR_PI [f] 0).wr Reg.MBX_RING_PTR_CI [f] 0
    (s.freeSlots f).wr Reg.MBX_RING_CTL_ENABLE [f] 1

/-- RING_ENABLE. -/
def execRingEnable (f : Fin 16) (s : State) : Outcome State Fault Refusal := .next (ringEnableOp s f)

/-- A write of 0 to MBX_RING_CTL.ENABLE. -/
def ringDisableOp (s : State) (f : Nat) : State :=
  if !s.hostReach f ∨ !s.on Reg.MBX_RING_CTL_ENABLE [f] then s
  else if s.slotsFree f 0 128 then s.wr Reg.MBX_RING_CTL_ENABLE [f] 0
  else hostViolation s f vRingBusy 0 (pageOffset f 0) false

/-- RING_DISABLE. -/
def execRingDisable (f : Fin 16) (s : State) : Outcome State Fault Refusal := .next (ringDisableOp s f)

/-- A write of 1 to MBX_EVQ_CTL.ENABLE. -/
def evqEnableOp (s : State) (f : Nat) : State :=
  if !s.hostReach f ∨ s.on Reg.MBX_EVQ_CTL_ENABLE [f] then s
  else
    let s := (s.wr Reg.MBX_EVQ_PI_PI [f] 0).wr Reg.MBX_EVQ_CI_CI [f] 0
    let s := s.wr Reg.MBX_EVQ_LOST_COUNT [f] 0
    let s := { s with mbx := { s.mbx with lostSince := FMap.set s.mbx.lostSince 0 f 0 } }
    s.wr Reg.MBX_EVQ_CTL_ENABLE [f] 1

/-- EVQ_ENABLE. -/
def execEvqEnable (f : Fin 16) (s : State) : Outcome State Fault Refusal := .next (evqEnableOp s f)

/-- A write of 0 to MBX_EVQ_CTL.ENABLE. -/
def evqDisableOp (s : State) (f : Nat) : State :=
  if s.hostReach f then s.wr Reg.MBX_EVQ_CTL_ENABLE [f] 0 else s

/-- EVQ_DISABLE. -/
def execEvqDisable (f : Fin 16) (s : State) : Outcome State Fault Refusal := .next (evqDisableOp s f)

/-- A write of MBX_EVQ_CI (R169); the lost-event entry that is due is posted when an entry comes free (R168). -/
def evqCiOp (s : State) (f c : Nat) : State :=
  let ci := s.rd Reg.MBX_EVQ_CI_CI [f]
  if !s.hostReach f then s
  else if s.evqDepth f < (c + 65536 - ci) % 65536 then
    hostViolation s f vEvqCiRange c (pageOffset f 0x28) false
  else evqPostLost (s.wr Reg.MBX_EVQ_CI_CI [f] c) f

/-- EVQ_CI_WRITE. -/
def execEvqCiWrite (f : Fin 16) (c : Nat) (s : State) : Outcome State Fault Refusal := .next (evqCiOp s f (c % 65536))

/-- A write of 1 to MBX_VIOL_CNT.CLR (R172). -/
def violCntClearOp (s : State) (f : Nat) : State :=
  if s.hostReach f then s.wr Reg.MBX_VIOL_CNT_COUNT [f] 0 else s

/-- VIOL_CNT_CLEAR. -/
def execViolCntClear (f : Fin 16) (s : State) : Outcome State Fault Refusal := .next (violCntClearOp s f)

/-- A write of 1 to MBX_EVQ_LOST.CLR (R168). -/
def evqLostClearOp (s : State) (f : Nat) : State :=
  if s.hostReach f then s.wr Reg.MBX_EVQ_LOST_COUNT [f] 0 else s

/-- EVQ_LOST_CLEAR. -/
def execEvqLostClear (f : Fin 16) (s : State) : Outcome State Fault Refusal := .next (evqLostClearOp s f)

/-! ### MSI-X (R176) -/

/-- Unmask a vector: its pending bit, if set, sends one message. -/
def msixUnmaskOp (s : State) (f v : Nat) : State :=
  if !s.hostReach f then s
  else
    let e := s.msixEntry f v
    let k := f * 128 + v
    let s := { s with mbx := { s.mbx with msix := FMap.put s.mbx.msix k { e with masked := false } } }
    if s.mbx.msixPend.contains k then
      sendVector { s with mbx := { s.mbx with msixPend := s.mbx.msixPend.filter (· != k) } } f v
    else s

/-- MSIX_UNMASK. -/
def execMsixUnmask (f : Fin 16) (v : Fin 128) (s : State) : Outcome State Fault Refusal := .next (msixUnmaskOp s f v)

/-! ### Fetching and posting (R187-R190, R162) -/

/-- The opcodes of the command index (R186). -/
def opcodes : List Nat := [0x101, 0x102, 0x103, 0x104, 0x105, 0x106, 0x201, 0x202, 0x203, 0x204, 0x205, 0x206,
  0x207, 0x301, 0x302, 0x303, 0x304, 0x305, 0x401, 0x402, 0x501, 0x502, 0x503, 0x504, 0x601, 0x602, 0x603, 0x604,
  0x605, 0x701, 0x702, 0x703, 0x704, 0x801, 0x802, 0x901, 0x902, 0x903, 0xA01, 0xA02, 0xA03, 0xA04]

/-- OPCODE of a descriptor (R154). -/
def Cmd.opcode (c : Cmd) : Nat := fieldAt c.desc 0 2

/-- The ORDERED flag of a descriptor (R154). -/
def Cmd.ordered (c : Cmd) : Bool := bitOf (fieldAt c.desc 4 1) 1

/-- Whether a command is of class B (command index of R186). -/
def Cmd.barrier (c : Cmd) : Bool := [0x102, 0x103, 0x104, 0x105, 0x605].contains c.opcode

/-- Whether function `f`'s ring has a command to fetch: its page is served again (R626) and PI differs from CI. -/
def State.hasWork (s : State) (f : Nat) : Bool :=
  s.on Reg.MBX_RING_CTL_ENABLE [f] && s.rd Reg.MBX_RING_PTR_PI [f] != s.rd Reg.MBX_RING_PTR_CI [f]
    && decide (FMap.get s.mbx.reclaimAt 0 f ≤ s.now)

/-- Whether Bench firmware runs: verified, not halted, not in the seam of an exchange. -/
def State.fwRuns (s : State) : Bool :=
  (s.rd Reg.TOP_BOOTSTAT_STATE [] == 1 || s.rd Reg.TOP_BOOTSTAT_STATE [] == 2)
    && !s.on Reg.CLO_FWSTAT_SEAM [] && !s.on Reg.BNC_CTL_HALTED []

/-- COMMAND_FETCH (R187, R190): the next function with work after the one served last, unless a barrier command is
unposted, 64 plain or barrier commands run, or a fabric reset is in progress (R97). -/
def fetchOp (s : State) : State :=
  let order := (List.range 16).map (fun k => (s.mbx.lastServed + 1 + k) % 16)
  if !s.fwRuns ∨ s.rd Reg.TOP_BOOTSTAT_STATE [] ≠ 2 ∨ s.mbx.cmds.any Cmd.barrier
      ∨ 64 ≤ (s.mbx.cmds.filter (fun c => !c.waiting)).length then s
  else match order.find? s.hasWork with
    | none => s
    | some f =>
      let n := s.rd Reg.MBX_RING_PTR_CI [f]
      let c : Cmd := { func := f, slot := n % 128, epoch := s.rd Reg.TOP_MBX_EPOCH_EPOCH [f],
                       desc := s.ringEntry f (n % 128) }
      let s := s.wr Reg.MBX_RING_PTR_CI [f] (n + 1)
      { s with mbx := { s.mbx with cmds := s.mbx.cmds ++ [c], lastServed := f } }

/-- COMMAND_FETCH. -/
def execCommandFetch (s : State) : Outcome State Fault Refusal := .next (fetchOp s)

/-- The fetched command of a slot. -/
def State.cmd? (s : State) (f i : Nat) : Option Cmd := s.mbx.cmds.find? (fun c => c.func == f && c.slot == i)

/-- Replace the fetched command of a slot. -/
def State.setCmd (s : State) (c : Cmd) : State :=
  { s with mbx := { s.mbx with
      cmds := s.mbx.cmds.map (fun d => if d.func = c.func ∧ d.slot = c.slot then c else d) } }

/-- Stage a command's result (R162). -/
def State.finish (s : State) (f i : Nat) (st : Status) (body : List Byte) : State :=
  match s.cmd? f i with
  | some c => s.setCmd { c with started := true, waiting := false, result := some (st.code, body) }
  | none => s

/-- The 8-byte failure body of R183. -/
def failBody (field sub value : Nat) : List Byte := leBytes 2 field ++ leBytes 2 sub ++ leBytes 4 value

/-- Stage a failure (R183). -/
def State.failCmd (s : State) (f i : Nat) (st : Status) (field sub value : Nat) : State :=
  s.finish f i st (failBody field sub value)

/-- The result of a fetched command that no row runs: an opcode outside the command index fails check 1 or 2 of
R182. -/
def Cmd.unknownResult (c : Cmd) : Option (Nat × List Byte) :=
  if fieldAt c.desc 5 1 ≠ 1 then some (Status.badVersion.code, failBody 5 0 (fieldAt c.desc 5 1))
  else if opcodes.contains c.opcode then none
  else some (Status.badOpcode.code, failBody 0 0 c.opcode)

/-- No READY slot other than `i` (R562). -/
def State.vec0Idle (s : State) (f i : Nat) : Bool :=
  (List.range 128).all (fun k => k == i || (s.slot f k).state != .ready)

/-- A result's body as it is posted: DEV_INFO gives the time base at posting in its last eight bytes (R199). -/
def Cmd.postedBody (c : Cmd) (now : Nat) (st : Nat) (body : List Byte) : List Byte :=
  if c.opcode = 0x101 ∧ st = 0 then body.take 32 ++ leBytes 8 now else body

/-- RESULT_POST (R162, R626): the slot goes from BUSY to READY in one step and vector 0 is requested under NOTIFY;
a command of an older mailbox epoch is discarded. -/
def resultPostOp (s : State) (f i : Nat) : State :=
  match s.cmd? f i with
  | none => s
  | some c =>
    match (c.result <|> c.unknownResult) with
    | none => s
    | some (st, body) =>
      if !s.fwRuns then s else
      let s := { s with mbx := { s.mbx with
        cmds := s.mbx.cmds.filter (fun d => !(d.func == f && d.slot == i)) } }
      let x := s.slot f i
      if c.epoch ≠ s.rd Reg.TOP_MBX_EPOCH_EPOCH [f] ∨ x.state ≠ .busy then s
      else
        let s := s.setSlot f i { x with state := .ready, status := st, body := c.postedBody s.now st body }
        if x.notify then vectorRequest s f 0 (s.vec0Idle f i) else s

/-- RESULT_POST. -/
def execResultPost (f : Fin 16) (i : Fin 128) (s : State) : Outcome State Fault Refusal := .next (resultPostOp s f i)

end Sys2Proof.Machine
end

