-- ==== Sys2Proof/Machine/Hedge.lean ====
section
/-! DEFINITION. The Hedge interrupt controller of 19_hedge_interrupts: requests, claims, completions, forced and
withdrawn requests, and coalescing windows. -/

namespace Sys2Proof.Machine

open Host (Outcome)

/-- Whether an agent may write a firmware-owned register: Bench firmware always, the host's PF in Open mode (R15). -/
def State.mayWrite (s : State) (src : Src) : Bool :=
  match src with
  | .bench => true
  | .host f => f == 0 && s.isOpen && s.hostReach 0

/-- A host write that Run mode refuses: discarded and logged as REG_REFUSED in the PF's page (R174). -/
def denied (s : State) (src : Src) (off : Nat) : State :=
  match src with
  | .host f => if s.isRun && f == 0 && s.hostReach 0 then hostViolation s 0 vRegRefused 0 off false else s
  | .bench => s

/-- A write that reaches a firmware-owned register: it acts when the agent may write there (R15), and is otherwise
refused. -/
def fwWrite (s : State) (src : Src) (off : Nat) (act : State → State) : State :=
  if s.mayWrite src then act s else denied s src off

/-- A source's request crosses into Hedge (R553): an event source pulses, a level source takes the level given, and
a reserved source never requests (R550). -/
def sourceRequestOp (s : State) (i : Nat) (level : Bool) (data : Nat) : State :=
  match srcKind i with
  | .event => hedgeEvent s i data
  | .level => hedgeLevel s i level data
  | .reserved => s

/-- SOURCE_REQUEST. -/
def execSourceRequest (i : Fin 1023) (level : Bool) (data : Nat) (s : State) : Outcome State Fault Refusal :=
  .next (sourceRequestOp s i level (data % 2 ^ 32))

/-- COALESCE_WINDOW_EXPIRY (R561): TIME has passed since the window opened, so one message is sent. -/
def coalesceExpiryOp (s : State) (f v : Nat) : State :=
  match FMap.find s.hedge.wins (f * 128 + v) with
  | some w => if w.opened + usCounts w.timeUs ≤ s.now then closeWindow s f v else s
  | none => s

/-- COALESCE_WINDOW_EXPIRY. -/
def execCoalesceWindowExpiry (f : Fin 16) (v : Fin 128) (s : State) : Outcome State Fault Refusal :=
  .next (coalesceExpiryOp s f v)

/-- What a read of HDG_BCLAIM returns and does (R557). -/
def benchClaimOp (s : State) : Nat × State :=
  let o := s.offer
  if o ≠ 0 then
    let s := { s with hedge := { s.hedge with irqSeen := false } }
    let s := (s.wr Reg.HDG_SRC_PENDING [o] 0).wr Reg.HDG_SRC_ACTIVE [o] 1
    (o, hedgeDecide s)
  else if s.hedge.irqSeen then
    (1023, { (s.satInc Reg.HDG_SPURIOUS_COUNT [] 1) with hedge := { s.hedge with irqSeen := false } })
  else (0, s)

/-- BENCH_CLAIM: a read of HDG_BCLAIM by the Bench core, or by the host in Open mode (R646). -/
def execBenchClaim (src : Src) (s : State) : Outcome State Fault Refusal :=
  if s.mayWrite src then
    let (o, t) := benchClaimOp s
    .next (t.emit (match src with | .bench => .benchRead o | .host f => .completion f (leBytes 4 o) false))
  else
    match src with
    | .bench => .next s
    | .host f => .next ((if s.isRun && f == 0 && s.hostReach 0 then hostViolation s 0 vRegRefused 0 0x200010 true
        else s).emit (.completion f (leBytes 4 0) false))

/-- A write of HDG_BCOMPLETE (R558): an active source's bit is cleared and a level source still asserted becomes
pending again (R554); every other ID is ignored and counted. -/
def benchCompleteOp (s : State) (x : Nat) : State :=
  if x = 0 ∨ 1023 ≤ x ∨ srcKind x = .reserved ∨ !s.on Reg.HDG_SRC_ACTIVE [x] then
    s.satInc Reg.HDG_SPURIOUS_BAD_COMPLETE [] 1
  else
    let s := s.wr Reg.HDG_SRC_ACTIVE [x] 0
    let lvl := s.on Reg.HDG_SRC_LEVEL [x]
    let s := match s.rd Reg.HDG_SRC_SENSE [x] with
      | 0 => if lvl then s.wr Reg.HDG_SRC_PENDING [x] 1 else s
      | 1 => if lvl then s else s.wr Reg.HDG_SRC_PENDING [x] 1
      | _ => s
    hedgeDecide s

/-- BENCH_COMPLETE. -/
def execBenchComplete (src : Src) (id : Nat) (s : State) : Outcome State Fault Refusal :=
  .next (fwWrite s src (Reg.HDG_BCOMPLETE_ID.addr []) (fun s => benchCompleteOp s (id % 1024)))

/-- A write of 1 to HDG_SRC_i.FORCE: one request as an edge, with DATA 0 (R553). -/
def forceOp (s : State) (i : Nat) : State :=
  if srcKind i = .reserved then s
  else
    let s := s.wr Reg.HDG_SRC_DATA [i] 0
    hedgeDecide (hostCopy (s.wr Reg.HDG_SRC_PENDING [i] 1) i)

/-- FORCE. -/
def execForce (src : Src) (i : Fin 1023) (s : State) : Outcome State Fault Refusal :=
  .next (fwWrite s src (Reg.HDG_SRC_FORCE.addr [i]) (fun s => forceOp s i))

/-- A W1C write of HDG_SRC_i.PENDING withdraws the request (R557). -/
def pendingClearOp (s : State) (i : Nat) : State :=
  if srcKind i = .reserved then s else hedgeDecide (s.wr Reg.HDG_SRC_PENDING [i] 0)

/-- PENDING_CLEAR. -/
def execPendingClear (src : Src) (i : Fin 1023) (s : State) : Outcome State Fault Refusal :=
  .next (fwWrite s src (Reg.HDG_SRC_PENDING.addr [i]) (fun s => pendingClearOp s i))

/-- The pending bit of an inactive source under a level SENSE follows its request (R553). -/
def pendingFollows (s : State) (i : Nat) : State :=
  if s.on Reg.HDG_SRC_ACTIVE [i] then s
  else match s.rd Reg.HDG_SRC_SENSE [i] with
    | 0 => s.wrb Reg.HDG_SRC_PENDING [i] (s.on Reg.HDG_SRC_LEVEL [i])
    | 1 => s.wrb Reg.HDG_SRC_PENDING [i] (!s.on Reg.HDG_SRC_LEVEL [i])
    | _ => s

/-- The other fields of a write to HDG_SRC_i (R553): SENSE values 5-7 are never stored; a changed SENSE and a set BEN let
the pending bit of a level SENSE follow the request; clearing BEN withdraws a request, so its pending bit falls (R557);
setting HEN while the request is asserted under a level SENSE sends one copy (R559). -/
def hedgeSrcWriteOp (s : State) (i v : Nat) : State :=
  if srcKind i = .reserved then s
  else
    let wasBen := s.on Reg.HDG_SRC_BEN [i]
    let wasHen := s.on Reg.HDG_SRC_HEN [i]
    let ben := bitOf v 0
    let s := (s.wrb Reg.HDG_SRC_BEN [i] ben).wrb Reg.HDG_SRC_HEN [i] (bitOf v 1)
    let sense := bitsOf v 2 3
    let old := s.rd Reg.HDG_SRC_SENSE [i]
    let s := if sense < 5 then s.wr Reg.HDG_SRC_SENSE [i] sense else s
    let s := ((s.wr Reg.HDG_SRC_PRIO [i] (bitsOf v 5 8)).wr Reg.HDG_SRC_FUNC [i] (bitsOf v 13 4)).wr
      Reg.HDG_SRC_VECTOR [i] (bitsOf v 17 7)
    let s := if s.rd Reg.HDG_SRC_SENSE [i] ≠ old || (!wasBen && ben) then pendingFollows s i else s
    let s := if bitOf v 24 || (wasBen && !ben) then s.wr Reg.HDG_SRC_PENDING [i] 0 else s
    let lvl := s.on Reg.HDG_SRC_LEVEL [i]
    let now := match s.rd Reg.HDG_SRC_SENSE [i] with | 0 => lvl | 1 => !lvl | _ => false
    let s := if !wasHen && bitOf v 1 && now then hostCopy s i else s
    let s := hedgeDecide s
    if bitOf v 27 then forceOp s i else s

/-- Close every window of a function without a message and return its coalescing sets to their reset values; clear
the HEN of the sources routed to it (R566). -/
def hedgeResetFunc (s : State) (f : Nat) : State :=
  let routed := (s.srcsWith Reg.HDG_SRC_HEN).filter (fun i => s.rd Reg.HDG_SRC_FUNC [i] == f)
  let s := routed.foldl (fun s i => s.wr Reg.HDG_SRC_HEN [i] 0) s
  let inBlock (b : Nat) (a : Nat) : Bool := b + 0x200 * f ≤ a && a < b + 0x200 * (f + 1)
  let s := s.resetRegs (fun a => inBlock 0x204000 a || inBlock 0x20C000 a)
  let s := (List.range 128).foldl (fun s v =>
    (s.wr Reg.HDG_VSTAT_COUNT [f, v] 0).wr Reg.HDG_VSTAT_OPEN [f, v] 0) s
  { s with hedge := { s.hedge with wins := FMap.dropWhere s.hedge.wins (fun k => k / 128 == f) } }

end Sys2Proof.Machine
end

