-- ==== Sys2Proof/Machine/Commit.lean ====
section
/-! DEFINITION. Staged configuration (R123-R132) and direct-write pairs (R133, R134): the fields of each staged set,
capture, refusal, discard, taking effect, and the checked write of one field of a pair. -/

namespace Sys2Proof.Machine

open Host (Outcome)

/-- The pairs `(field, index)` for `i < n`. -/
def fieldRow (f : Field) (idx : List Nat) (n : Nat) : List (Field × List Nat) :=
  (List.range n).map (fun i => (f, idx ++ [i]))

/-- The staged fields of a set (R130). -/
def setFields : StagedSet → List (Field × List Nat)
  | .rkeDt p c => fieldRow Reg.RKE_DT_WORD [p, c] 64
  | .vec p c =>
    [(Reg.VEC_RSC_BASE_ROW, [p, c]), (Reg.VEC_RSC_CHANNELS, [p, c]), (Reg.VEC_RSC_BIAS_EN, [p, c]),
     (Reg.VEC_RSC_EN, [p, c]), (Reg.VEC_ACT_BASE_ROW, [p, c]), (Reg.VEC_ACT_SEGMENTS, [p, c]),
     (Reg.VEC_ACT_DEGREE, [p, c]), (Reg.VEC_ACT_EN, [p, c])]
  | .prioSplit => [(Reg.HDG_PRIOSPLIT_SPLIT, [])]
  | .coal f => fieldRow Reg.HDG_COAL_COUNT [f] 128 ++ fieldRow Reg.HDG_COAL_TIME_US [f] 128
  | .sivDir t => fieldRow Reg.SIV_DIR_WORD [t] 16
  | .furGeo u t => fieldRow Reg.FUR_GEO_WORD [u, t] 4
  | .rwcParam =>
    [(Reg.RWC_PARAM_INSERT, []), (Reg.RWC_PARAM_PF_INSERT, []), (Reg.RWC_PARAM_ADMIT, []),
     (Reg.RWC_PARAM_DECAY_BATCHES, [])]
  | .vcMap p => fieldRow Reg.CSK_VCMAP_LOW [p] 4 ++ fieldRow Reg.CSK_VCMAP_HIGH [p] 4
  | .route p => fieldRow Reg.CSK_RTHDR_WORD [p] 4 ++ fieldRow Reg.CSK_RT_WORD [p] 256
  | .grfEnt u => fieldRow Reg.GRF_ENT_WORD [u] 16
  | .tariff => fieldRow Reg.PWR_SCHED_HDR_WORD [] 4
    ++ (List.range 16).flatMap (fun b => fieldRow Reg.PWR_BAND_WORD [b] 4)
    ++ (List.range 64).flatMap (fun e => fieldRow Reg.PWR_SCHED_WORD [e] 2)

/-- The BAR0 offset of a set's commit register. -/
def commitAddr : StagedSet → Nat
  | .rkeDt p c => Reg.RKE_DT_COMMIT_COMMIT.addr [p, c]
  | .vec p c => Reg.VEC_COMMIT_COMMIT.addr [p, c]
  | .prioSplit => Reg.HDG_PRIOSPLIT_COMMIT_COMMIT.addr []
  | .coal f => Reg.HDG_COAL_COMMIT_COMMIT.addr [f]
  | .sivDir t => Reg.SIV_DIR_COMMIT_COMMIT.addr [t]
  | .furGeo u t => Reg.FUR_GEO_COMMIT_COMMIT.addr [u, t]
  | .rwcParam => Reg.RWC_PARAM_COMMIT_COMMIT.addr []
  | .vcMap p => Reg.CSK_VCMAP_COMMIT_COMMIT.addr [p]
  | .route p => Reg.CSK_RT_COMMIT_COMMIT.addr [p]
  | .grfEnt u => Reg.GRF_ENT_COMMIT_COMMIT.addr [u]
  | .tariff => Reg.PWR_TARIFF_COMMIT_COMMIT.addr []

/-- The fields of a set's commit register (Commit register layout). -/
def cPending (x : StagedSet) : Field := { Reg.HDG_PRIOSPLIT_COMMIT_PENDING with base := commitAddr x }
def cSuperseded (x : StagedSet) : Field := { Reg.HDG_PRIOSPLIT_COMMIT_SUPERSEDED with base := commitAddr x }
def cRefused (x : StagedSet) : Field := { Reg.HDG_PRIOSPLIT_COMMIT_REFUSED with base := commitAddr x }
def cGen (x : StagedSet) : Field := { Reg.HDG_PRIOSPLIT_COMMIT_GEN with base := commitAddr x }

/-- Capture a set's staging copy (R125); a captured set that waits is replaced and SUPERSEDED is set (R126). -/
def captureSet (s : State) (x : StagedSet) : State :=
  let s := if s.on (cPending x) [] then s.wr (cSuperseded x) [] 1 else s
  let s := (setFields x).foldl
    (fun s e => { s with captured := FMap.put s.captured (e.1.key e.2) (s.rd e.1 e.2) }) s
  s.wr (cPending x) [] 1

/-- Refuse a commit (R127). -/
def refuseSet (s : State) (x : StagedSet) (agent : Nat) : State :=
  cfgRefuse (s.wr (cRefused x) [] 1) agent 1 (commitAddr x)

/-- The captured value of a staged field. -/
def State.cap (s : State) (f : Field) (idx : List Nat) : Nat := FMap.get s.captured 0 (f.key idx)

/-- Forget a captured set: PENDING clears and GEN stays (an abort; edges of 04_handshake_ordering). -/
def dropSet (s : State) (x : StagedSet) : State :=
  if s.on (cPending x) [] then
    let s := (setFields x).foldl (fun s e => { s with captured := FMap.erase s.captured (e.1.key e.2) }) s
    s.wr (cPending x) [] 0
  else s

/-- At its boundary a captured set is written into the active copy, PENDING clears and GEN increments (R125). -/
def effectSet (s : State) (x : StagedSet) : State :=
  if s.on (cPending x) [] then
    let s := (setFields x).foldl (fun s e => s.wr e.1.mirror e.2 (s.cap e.1 e.2)) s
    (dropSet s x).wrapInc (cGen x) [] 1
  else s

/-- DISCARD copies the active copy into the staging copy and leaves a captured set pending (R128). -/
def discardSet (s : State) (x : StagedSet) : State :=
  (setFields x).foldl (fun s e => s.wr e.1 e.2 (s.rdA e.1 e.2)) s

/-- Write a set's staging copy from words. -/
def stageWords (s : State) (f : Field) (idx : List Nat) : Nat → List Nat → State
  | _, [] => s
  | i, w :: r => stageWords (s.wr f (idx ++ [i]) w) f idx (i + 1) r

/-- Whether the domain that holds a set's registers is powered (R642). -/
def State.setReach (s : State) : StagedSet → Bool
  | .rkeDt p _ => s.coreUp && s.plotEn p
  | .vec p _ => s.coreUp && s.plotEn p
  | .sivDir _ => s.coreUp
  | .furGeo _ _ => s.coreUp
  | .rwcParam => s.coreUp
  | .grfEnt _ => s.coreUp
  | .vcMap _ => s.on Reg.TOP_PINSTAT_MAIN_PG []
  | .route _ => s.on Reg.TOP_PINSTAT_MAIN_PG []
  | _ => true

/-- DISCARD: a write of 1 to DISCARD of a commit register. -/
def discardOp (s : State) (src : Src) (x : StagedSet) : State :=
  fwWrite s src (commitAddr x) (fun s => if s.setReach x then discardSet s x else s)

/-- DISCARD. -/
def execDiscard (src : Src) (x : StagedSet) (s : State) : Outcome State Fault Refusal := .next (discardOp s src x)

/-! ### Direct pairs -/

/-- The first and second field of a pair, their BAR0 offsets and their agreement (R133). -/
def pairFields : DirectPair → (Field × List Nat) × (Field × List Nat)
  | .vid => ((Reg.PWR_VID_MIN_CODE, []), (Reg.PWR_VID_MAX_CODE, []))
  | .pin => ((Reg.RWC_PIN_BASE_ROW, []), (Reg.RWC_PIN_LIMIT_ROW, []))
  | .timer n => ((Reg.CLO_TMR_CMP_VALUE, [n]), (Reg.CLO_TMR_RELOAD_VALUE, [n]))
  | .flashErase => ((Reg.FLC_ERASE_ADDR_SECTOR, []), (Reg.FLC_ERASE_COUNT_SECTORS, []))

/-- Whether values `a`, `b` of a pair agree. -/
def pairAgree (p : DirectPair) (a b : Nat) : Bool :=
  match p with
  | .vid => 0x28 ≤ a && a ≤ b && b ≤ 0xA0
  | .pin => a ≤ b
  | .timer _ => a ≤ b
  | .flashErase => 1 ≤ b && b ≤ 1024 && a / 1024 == (a + b - 1) / 1024

/-- Whether a value written to the first or second field is accepted (R134). -/
def State.pairAccepts (s : State) (p : DirectPair) (second : Bool) (v : Nat) : Bool :=
  let (a, b) := pairFields p
  if second then pairAgree p (s.rd a.1 a.2) (v % 2 ^ b.1.wid) else pairAgree p (v % 2 ^ a.1.wid) (s.rd b.1 b.2)

/-- Write one field of a pair: refused and recorded when the pair would disagree (R134). -/
def pairWrite (s : State) (agent : Nat) (p : DirectPair) (second : Bool) (v : Nat) : State :=
  let (a, b) := pairFields p
  let e := if second then b else a
  if s.pairAccepts p second v then s.wr e.1 e.2 v else cfgRefuse s agent 0 (e.1.addr e.2)

end Sys2Proof.Machine
end

