-- ==== Sys2Proof/Machine/FlashOps.lean ====
section
/-! DEFINITION. The flash array of 20_flash: bytes, segments, erase and program of one unit, CRC-32, the swap area,
the persist area, the log with its wear window, and the fault log of R638-R639. -/

namespace Sys2Proof.Machine

/-! ### Bytes -/

/-- A byte of flash as it reads: a segment with undefined contents reads free values (R570, R575). -/
def State.flashByte (s : State) (a : Nat) : Byte :=
  match FMap.find s.flash.undef (a / 64) with
  | some base => Config.freeValue 8 (base + a % 64)
  | none => FMap.get s.flash.bytes 0xFF a

/-- `n` bytes of flash from address `a`. -/
def State.flashRead (s : State) (a n : Nat) : List Byte := (List.range n).map (fun i => s.flashByte (a + i))

/-- Write bytes into the array. -/
def flashPut (s : State) (a : Nat) : List Byte → State
  | [] => s
  | b :: r => flashPut { s with flash := { s.flash with bytes := FMap.set s.flash.bytes 0xFF a b } } (a + 1) r

/-- A sector's erase counter (R572). -/
def State.wear (s : State) (sector : Nat) : Nat := FMap.get s.flash.wear 0 sector

/-- Whether a sector has reached its endurance (R572). -/
def State.worn (s : State) (sector : Nat) : Bool := 100000 ≤ s.wear sector

/-- Erase one sector: its bytes read 0xFF and its counter rises (R567, R572). -/
def eraseSector (s : State) (sector : Nat) : State :=
  { s with flash := { s.flash with
      bytes := FMap.dropWhere s.flash.bytes (fun a => a / 4096 == sector)
      undef := FMap.dropWhere s.flash.undef (fun g => g / 64 == sector)
      wear := FMap.set s.flash.wear 0 sector (min (s.wear sector + 1) 131071) } }

/-- Whether a 64-byte segment reads all 0xFF (R570). -/
def State.blank (s : State) (a : Nat) : Bool := (s.flashRead a 64).all (fun b => b == 0xFF)

/-- Program one segment that is blank (R570): it then reads the data. -/
def programSegment (s : State) (a : Nat) (data : List Byte) : State :=
  flashPut { s with flash := { s.flash with undef := FMap.erase s.flash.undef (a / 64) } } a (padTo 64 data)

/-- Leave a segment's contents undefined (R570, R575). -/
def undefSegment (s : State) (seg : Nat) : State :=
  { s with freeCtr := s.freeCtr + 64, flash := { s.flash with
      undef := FMap.put s.flash.undef seg s.freeCtr
      bytes := FMap.dropWhere s.flash.bytes (fun a => a / 64 == seg) } }

/-- Leave a whole sector's contents undefined (R575). -/
def undefSector (s : State) (sector : Nat) : State :=
  (List.range 64).foldl (fun s i => undefSegment s (64 * sector + i)) s

/-! ### CRC-32 of IEEE 802.3 -/

/-- One bit of the reflected CRC. -/
def crcBit (c : Nat) : Nat := if c % 2 = 1 then c / 2 ^^^ 0xEDB88320 else c / 2

/-- CRC-32 over a byte string. -/
def crc32 (l : List Byte) : Nat :=
  (l.foldl (fun c b =>
    let c := c ^^^ b.toNat
    crcBit (crcBit (crcBit (crcBit (crcBit (crcBit (crcBit (crcBit c)))))))) 0xFFFFFFFF) ^^^ 0xFFFFFFFF

/-- A 64-byte record with its CRC over bytes 0-59 (R576, R579). -/
def sealRecord (body : List Byte) : List Byte := padTo 60 body ++ leBytes 4 (crc32 (padTo 60 body))

/-- Whether a 64-byte record's CRC matches. -/
def crcOk (rec : List Byte) : Bool := fieldAt rec 60 4 == crc32 (rec.take 60)

/-! ### The swap area (R576, R577) -/

/-- The fields of a swap record. -/
structure SwapRec where
  seq : Nat
  active : Nat
  trial : Bool
  tries : Nat
  writer : Nat
  version : Nat
  bootCount : Nat
  deriving DecidableEq, Repr

/-- First address and segment count of the swap area: sectors 64-67. -/
def swapBase : Nat := 0x40000

/-- The swap record in segment `i` of the area, when valid. -/
def State.swapAt (s : State) (i : Nat) : Option SwapRec :=
  let r := s.flashRead (swapBase + 64 * i) 64
  if fieldAt r 0 4 = 0x53574150 ∧ crcOk r ∧ fieldAt r 8 1 ≤ 1 ∧ fieldAt r 9 1 ≤ 1 ∧ fieldAt r 10 1 ≤ 3
      ∧ fieldAt r 11 1 ≤ 2 then
    some ⟨fieldAt r 4 4, fieldAt r 8 1, fieldAt r 9 1 == 1, fieldAt r 10 1, fieldAt r 11 1, fieldAt r 12 4,
      fieldAt r 16 4⟩
  else none

/-- The listed segments of a byte range of the array: those that hold a byte other than 0xFF. -/
def State.usedSegs (s : State) (lo n : Nat) : List Nat :=
  (((s.flash.bytes.map (fun (e : Nat × Byte) => e.1 / 64)) ++ (s.flash.undef.map (fun (e : Nat × Nat) => e.1))).filter
    (fun g => lo / 64 ≤ g && g < (lo + n) / 64)).dedup

/-- The newest valid swap record with its segment number in the area. -/
def State.newestSwap (s : State) : Option (Nat × SwapRec) :=
  ((s.usedSegs swapBase 0x4000).filterMap (fun g =>
      (s.swapAt (g - swapBase / 64)).map (fun r => (g - swapBase / 64, r)))).foldl
    (fun best c => match best with
      | none => some c
      | some b => if b.2.seq < c.2.seq then some c else some b) none

/-- The slot of the swap area the next record goes to: the first erased slot after the newest record in its sector,
else slot 0 of the next sector when that is erased (R577). -/
def State.swapSlot (s : State) : Option Nat :=
  let cur := match s.newestSwap with | some (i, _) => i / 64 | none => 0
  let free (i : Nat) : Bool := s.blank (swapBase + 64 * i)
  let lastUsed := ((List.range 64).filter (fun k => !free (64 * cur + k))).foldl (fun m k => max m (k + 1)) 0
  if lastUsed < 64 then some (64 * cur + lastUsed)
  else
    let nxt := 64 * ((cur + 1) % 4)
    if free nxt then some nxt else none

/-- The 64 bytes of a swap record. -/
def swapBytes (r : SwapRec) : List Byte :=
  sealRecord (leBytes 4 0x53574150 ++ leBytes 4 r.seq ++ leBytes 1 r.active ++ leBytes 1 (b2n r.trial)
    ++ leBytes 1 r.tries ++ leBytes 1 r.writer ++ leBytes 4 r.version ++ leBytes 4 r.bootCount)

/-- Append a swap record; firmware that writes a sector's first record erases the following sector (R577). Answers
whether a slot was found. -/
def writeSwap (s : State) (r : SwapRec) : State × Bool :=
  match s.swapSlot with
  | none => (s, false)
  | some i =>
    let seq := match s.newestSwap with | some (_, o) => (o.seq + 1) % 2 ^ 32 | none => 1
    let s := programSegment s (swapBase + 64 * i) (swapBytes { r with seq := seq })
    (if r.writer = 1 ∧ i % 64 = 0 then eraseSector s (64 + (i / 64 + 1) % 4) else s, true)

/-! ### The persist area (R578) -/

/-- The persist image in sector 68 + k: its sequence number and contents, when valid. -/
def State.persistAt (s : State) (k : Nat) : Option (Nat × List Byte) :=
  let a := (68 + k) * 4096
  let h := s.flashRead a 16
  let len := fieldAt h 8 4
  if fieldAt h 0 4 = 0x50455253 ∧ 1 ≤ len ∧ len ≤ 4080 then
    let c := s.flashRead (a + 16) len
    if crc32 c = fieldAt h 12 4 then some (fieldAt h 4 4, c) else none
  else none

/-- The newest valid persist image with its sector index. -/
def State.newestPersist (s : State) : Option (Nat × Nat × List Byte) :=
  match s.persistAt 0, s.persistAt 1 with
  | some (a, x), some (b, y) => if a < b then some (1, b, y) else some (0, a, x)
  | some (a, x), none => some (0, a, x)
  | none, some (b, y) => some (1, b, y)
  | none, none => none

/-- Write a new persist image: erase the other sector, program the image with the next SEQ. -/
def writePersist (s : State) (contents : List Byte) : State :=
  let (k, seq) := match s.newestPersist with | some (k, q, _) => (1 - k, q + 1) | none => (0, 1)
  let s := eraseSector s (68 + k)
  flashPut s ((68 + k) * 4096) (leBytes 4 0x50455253 ++ leBytes 4 seq ++ leBytes 4 contents.length
    ++ leBytes 4 (crc32 contents) ++ contents)

/-! ### The log (R579-R582) -/

/-- First address of log sector `i` (R580). -/
def logAddr (i : Nat) : Nat := (512 + i % 512) * 4096

/-- The next log sector after `i` that is not retired. -/
def State.logNext (s : State) (i : Nat) : Nat :=
  (((List.range 512).map (fun k => (i + 1 + k) % 512)).find? (fun j => !s.flash.retired.contains j)).getD ((i + 1) % 512)

/-- Whether an erase of a flash sector is queued or running. -/
def State.erasing (s : State) (sector : Nat) : Bool :=
  (s.flash.bank0 ++ s.flash.bank1).any (fun o => match o with
    | .erase _ a n => a ≤ sector && sector < a + n
    | .program .. => false)

/-- The first whole erased page at or after slot `k` of HEAD, in a sector not being erased: in HEAD itself, else the
spare (R581). -/
def State.erasedPage (s : State) (k : Nat) : Option Nat :=
  let head := s.rd Reg.FLC_LOG_HEAD []
  let p := (k + 3) / 4
  if p < 16 then some (logAddr head + 256 * p)
  else
    let spare := s.logNext head
    if s.erasing (512 + spare) then none else some (logAddr spare)

/-- Name the reserved page in FLC_RSV. -/
def setReserved (s : State) : State :=
  match s.erasedPage (s.rd Reg.FLC_LOG_SLOT []) with
  | some a => (s.wr Reg.FLC_RSV_PAGE [] (a / 256)).wr Reg.FLC_RSV_VALID [] 1
  | none => s

/-- Queue an operation of a bank; the controller shows BUSY (R571). -/
def queueFlash (s : State) (sector : Nat) (op : FlashOp) : State :=
  if sector < 1024 then
    { s with flash := { s.flash with bank0 := s.flash.bank0 ++ [op] } }.wr Reg.FLC_STAT_BUSY0 [] 1
  else { s with flash := { s.flash with bank1 := s.flash.bank1 ++ [op] } }.wr Reg.FLC_STAT_BUSY1 [] 1

/-- Operations of an owner whose command or message is gone run on for nobody. -/
def disownOps (s : State) (p : FlashOwner → Bool) : State :=
  let f (x : FlashOp) : FlashOp := match x with
    | .erase o a n => .erase (if p o then .firmware else o) a n
    | .program o a l => .program (if p o then .firmware else o) a l
  { s with flash := { s.flash with bank0 := s.flash.bank0.map f, bank1 := s.flash.bank1.map f } }

/-- LOG_WINDOW_SLIDE (R580): HEAD moves to the spare, the oldest sector leaves a full window, and the new spare's
erase is queued. -/
def slideLog (s : State) : State :=
  let base := s.rd Reg.FLC_LOG_BASE []
  let head := s.logNext (s.rd Reg.FLC_LOG_HEAD [])
  let s := (s.wr Reg.FLC_LOG_HEAD [] head).wr Reg.FLC_LOG_SLOT [] 0
  let s := if (head + 512 - base) % 512 < 64 then s else s.wr Reg.FLC_LOG_BASE [] (s.logNext base)
  let spare := 512 + s.logNext head
  queueFlash s spare (.erase .spare spare 1)

/-- A log record's 64 bytes (R579). -/
def State.logBytes (s : State) (log kind : Nat) (body : List Byte) : List Byte :=
  sealRecord (leBytes 1 log ++ leBytes 1 kind ++ leBytes 2 s.boot.bootCount ++ leBytes 4 (s.flash.logSeq + 1)
    ++ leBytes 8 s.now ++ padTo 44 body)

/-- Program a record at a slot's address and count it as the newest. -/
def putRecord (s : State) (addr log kind : Nat) (body : List Byte) : State :=
  let s := programSegment s addr (s.logBytes log kind body)
  { s with flash := { s.flash with logSeq := (s.flash.logSeq + 1) % 2 ^ 32 } }

/-- Append an ordinary record when a whole erased page remains after it (R581); a record that would break that rule
waits. -/
def appendRecord (s : State) (log kind : Nat) (body : List Byte) : State :=
  let slot := s.rd Reg.FLC_LOG_SLOT []
  let head := s.rd Reg.FLC_LOG_HEAD []
  if !s.on Reg.FLC_RSV_VALID [] ∨ (s.erasedPage (slot + 1)).isNone ∨ s.on Reg.PWR_STAT_CUT [] then
    { s with flash := { s.flash with logWait := s.flash.logWait ++ [(log, kind, body)] } }
  else
    let s := putRecord s (logAddr head + 64 * slot) log kind body
    setReserved (if slot = 63 then slideLog s else s.wr Reg.FLC_LOG_SLOT [] (slot + 1))

/-- Append the records that waited for the spare (R581). -/
def flushLogWait (s : State) : State :=
  let w := s.flash.logWait
  w.foldl (fun s r => appendRecord s r.1 r.2.1 r.2.2) { s with flash := { s.flash with logWait := [] } }

/-- The valid log records held in the array, with their segment numbers. -/
def State.logRecords (s : State) : List (Nat × List Byte) :=
  (s.usedSegs 0x200000 0x200000).filterMap (fun g =>
    let r := s.flashRead (64 * g) 64
    if crcOk r then some (g, r) else none)

/-- Whether segment `g` of the array lies inside the wear window (R580). -/
def State.inWindow (s : State) (g : Nat) : Bool :=
  let base := s.rd Reg.FLC_LOG_BASE []
  let span := (s.rd Reg.FLC_LOG_HEAD [] + 512 - base) % 512
  decide ((g / 64 - 512 + 512 - base) % 512 ≤ span)

/-- The log records inside the wear window (R580). -/
def State.windowRecords (s : State) : List (List Byte) := (s.logRecords.filter (fun e => s.inWindow e.1)).map (·.2)

/-- A reader of the log counts the torn slots it skips: slots that are not erased and whose CRC fails (R579). -/
def countTorn (s : State) : State :=
  let torn := (s.usedSegs 0x200000 0x200000).filter (fun g => s.inWindow g && !crcOk (s.flashRead (64 * g) 64))
  s.wr Reg.FLC_LOGSTAT_TORN [] (min 65535 (s.rd Reg.FLC_LOGSTAT_TORN [] + torn.length))

/-- Firmware mounts the log (R582): HEAD is the sector of the highest valid SEQ, BASE is 63 sectors before it
skipping retired ones, and a spare that is not erased is erased again. -/
def mountLog (s : State) : State :=
  let newest := s.logRecords.foldl (fun (best : Option (Nat × Nat)) e =>
    let q := fieldAt e.2 4 4
    match best with
    | none => some (e.1, q)
    | some (_, m) => if m < q then some (e.1, q) else best) none
  let retired := ((List.range 512).filter (fun i => s.worn (512 + i)))
  let s := { s with flash := { s.flash with retired := retired } }
  let s := s.wr Reg.FLC_LOGSTAT_RETIRED [] retired.length
  let head0 := if retired.contains 0 then s.logNext 0 else 0
  let (head, seq) := match newest with | some (g, q) => ((g / 64) - 512, q) | none => (head0, 0)
  let used := (List.range 64).filter (fun k => !s.blank (logAddr head + 64 * k))
  let slot := used.foldl (fun m k => max m (k + 1)) 0
  let back := ((List.range 512).map (fun k => (head + 512 - k) % 512)).filter (fun i => !retired.contains i)
  let base := back.getD 63 head
  let s := { s with flash := { s.flash with logSeq := seq } }
  let s := (s.wr Reg.FLC_LOG_BASE [] base).wr Reg.FLC_LOG_HEAD [] head
  let s := countTorn s
  let spare := 512 + s.logNext head
  let dirty := !((s.usedSegs (spare * 4096) 4096).isEmpty)
  let s := if dirty then eraseSector s spare else s
  let s := if slot < 64 then s.wr Reg.FLC_LOG_SLOT [] slot else slideLog s
  flushLogWait (setReserved s)

/-! ### The fault log (R638, R639) -/

/-- Write a LOG 1 record. At most 16 records of KINDs 1-4 and 6 in any second are written; the rest are counted as
dropped. DIE records (KIND 5) are never dropped. -/
def faultRecord (s : State) (kind : Nat) (body : List Byte) : State :=
  let sec := s.now / 25000000
  let n := if s.flash.faultSecond = sec then s.flash.faultCount else 0
  if kind ≠ 5 ∧ 16 ≤ n then
    { s with flash := { s.flash with faultSecond := sec, faultCount := n } }.satInc Reg.TOP_FAULTLOG_DROPPED [] 1
  else
    let s := { s with flash := { s.flash with
      faultSecond := sec, faultCount := if kind = 5 then n else n + 1 } }
    appendRecord (s.satInc Reg.TOP_FAULTLOG_WRITTEN [] 1) 1 kind body

/-- A MEM record (R638), one for each poisoned unit and boot (R639): `key` names the unit among all memories; where the
unit lies (0 store, 1 HBM, 2 flash, 3 array plane), plot or stack, agent, function, row or address, and the status
posted to the consumer. -/
def memRecord (s : State) (key wh unit agent func addr status : Nat) : State :=
  if s.memLogged.contains (4 * key + wh) then s
  else faultRecord { s with memLogged := (4 * key + wh) :: s.memLogged } 2
    (leBytes 1 wh ++ leBytes 1 unit ++ leBytes 1 agent ++ leBytes 1 func ++ leBytes 8 addr ++ leBytes 2 status)

end Sys2Proof.Machine
end

