-- ==== Sys2Proof/Machine/Power.lean ====
section
/-! DEFINITION. The power governor, tariffs and energy accounting of 21_power_tariffs: limits in force (R598), the
fast limiter (R599), the loop (R601), demand intervals (R603-R606), energy records (R607-R609) and the hold-up
sequence (R610-R612). -/

namespace Sys2Proof.Machine

open Host (Outcome)

/-! ### Tenancy (R197) -/

/-- The function that holds port `n`, otherwise the PF. -/
def State.holdsPort (s : State) (f n : Nat) : Bool :=
  if f = 0 then s.tenants.all (fun e => !bitOf e.2.ports n) else bitOf (s.tenant f).ports n

/-! ### Schedules (R591-R597) -/

/-- Fields of the band words in effect (R592). -/
def State.bandCap (s : State) (b : Nat) : Nat := bitsOf (s.rdA Reg.PWR_BAND_WORD [b, 0]) 0 16
def State.bandDemand (s : State) (b : Nat) : Nat := bitsOf (s.rdA Reg.PWR_BAND_WORD [b, 0]) 16 16
def State.bandCeil (s : State) (b : Nat) : Nat := bitsOf (s.rdA Reg.PWR_BAND_WORD [b, 1]) 0 8
def State.bandFloor (s : State) (b : Nat) : Nat := bitsOf (s.rdA Reg.PWR_BAND_WORD [b, 1]) 8 8
def State.bandT (s : State) (b : Nat) : Nat := bitsOf (s.rdA Reg.PWR_BAND_WORD [b, 1]) 16 8

/-- Fields of the schedule header in effect (R591). -/
def State.schedId (s : State) : Nat := s.rdA Reg.PWR_SCHED_HDR_WORD [1]
def State.demandS (s : State) : Nat := bitsOf (s.rdA Reg.PWR_SCHED_HDR_WORD [2]) 0 16
def State.schedBands (s : State) : Nat := bitsOf (s.rdA Reg.PWR_SCHED_HDR_WORD [2]) 16 8
def State.schedEntries (s : State) : Nat := bitsOf (s.rdA Reg.PWR_SCHED_HDR_WORD [2]) 24 8

/-- The scheduled band at RTC value `r` (R594). -/
def State.scheduledBand (s : State) (r : Nat) : Nat :=
  let w := r % 604800
  let es := (List.range s.schedEntries).map (fun e =>
    (s.rdA Reg.PWR_SCHED_WORD [e, 0], bitsOf (s.rdA Reg.PWR_SCHED_WORD [e, 1]) 0 8))
  match (es.filter (fun e => e.1 ≤ w)).getLast? with
  | some e => e.2
  | none => match es.getLast? with | some e => e.2 | none => 0

/-- The band in force. -/
def State.band (s : State) : Nat := s.rd Reg.PWR_STAT_BAND []

/-! ### Limits in force (R598) -/

/-- The cap in force in W. -/
def State.capNow (s : State) : Nat :=
  min (min (s.rd Reg.PWR_BUDGET_BUDGET_W []) (s.bandCap s.band))
    (min (s.rd Reg.PWR_CAP_CAP_W []) (s.rd Reg.PWR_BMC_CAP_CAP_W []))

/-- The ceiling code in force. -/
def State.ceilNow (s : State) : Nat := min (s.bandCeil s.band) (s.rd Reg.PWR_VID_MAX_CODE [])

/-- The floor code in force: at most the ceiling. -/
def State.floorNow (s : State) : Nat := min (max (s.bandFloor s.band) (s.rd Reg.PWR_VID_MIN_CODE [])) s.ceilNow

/-- The PWR_STAT flags and source 408 follow the limiter (R599). -/
def powerFlags (s : State) : State :=
  let limited := decide (s.rd Reg.PWR_LIMIT_CODE [] < s.rd Reg.PWR_TARGET_CODE [])
  let atFloor := s.gov.isOver && s.rd Reg.PWR_STAT_VID [] == 0x28
  let s := (s.wrb Reg.PWR_STAT_LIMITED [] limited).wrb Reg.PWR_STAT_THERMAL [] s.gov.isOverTemp
  let s := s.wrb Reg.PWR_STAT_FLOOR [] atFloor
  let fl := s.rd Reg.PWR_IV_OPEN_B_FLAGS []
  let fl := if limited && !bitOf fl 4 then fl + 16 else fl
  let fl := if atFloor && !bitOf fl 5 then fl + 32 else fl
  hedgeLevel (s.wr Reg.PWR_IV_OPEN_B_FLAGS [] fl) 408 limited 0

/-- PWR_FAST shows the limits in force at once on every change (R598). -/
def updateLimits (s : State) : State :=
  let s := (s.wr Reg.PWR_FAST_CAP_W [] s.capNow).wr Reg.PWR_FAST_CEIL [] s.ceilNow
  let s := s.wr Reg.PWR_FAST_T_LIMIT [] (s.bandT s.band)
  powerFlags { s with gov := { s.gov with openIv := { s.gov.openIv with
    lowCap := min s.gov.openIv.lowCap s.capNow } } }

/-- Select the scheduled band at RTC value `r`. -/
def selectBand (s : State) (r : Nat) : State :=
  let b := s.scheduledBand r
  updateLimits ((s.wr Reg.PWR_STAT_BAND [] b).wr Reg.PWR_IV_OPEN_B_BAND [] b)

/-- Put the default schedule in force (R597). -/
def defaultSchedule (s : State) : State :=
  let m (f : Field) : Field := f.mirror
  let s := s.wr (m Reg.PWR_SCHED_HDR_WORD) [0] 0x54415246
  let s := s.wr (m Reg.PWR_SCHED_HDR_WORD) [1] 0
  let s := s.wr (m Reg.PWR_SCHED_HDR_WORD) [2] (60 + 2 ^ 16 + 2 ^ 24)
  let s := s.wr (m Reg.PWR_BAND_WORD) [0, 0] (s.rd Reg.PWR_BUDGET_BUDGET_W [])
  let s := s.wr (m Reg.PWR_BAND_WORD) [0, 1] (0xA0 + 2 ^ 8 * 0x28 + 2 ^ 16 * 100)
  let s := (s.wr (m Reg.PWR_SCHED_WORD) [0, 0] 0).wr (m Reg.PWR_SCHED_WORD) [0, 1] 0
  let s := s.wr Reg.PWR_STAT_SCHED_DEFAULT [] 1
  selectBand { s with gov := { s.gov with schedSource := 3 } } (s.rd Reg.CLO_RTC_SEC_SEC [])

/-- Step 1 of R595: the offset of the first bad field of a schedule buffer. -/
def tariffBadField (b : List Byte) : Option Nat :=
  let bands := fieldAt b 10 1
  let entries := fieldAt b 11 1
  let len := 64 + 16 * bands + 8 * entries
  let at' (e : Nat) : Nat := 64 + 16 * bands + 8 * e
  if fieldAt b 0 4 ≠ 0x54415246 then some 0
  else if fieldAt b 8 2 = 0 ∨ 900 < fieldAt b 8 2 then some 8
  else if bands = 0 ∨ 16 < bands then some 10
  else if entries = 0 ∨ 64 < entries then some 11
  else if b.length ≠ len then some (min b.length len)
  else
    let bad (k : Nat) : Bool := decide (fieldAt b k 1 ≠ 0)
    match (List.range 52).find? (fun i => bad (12 + i)) with
    | some i => some (12 + i)
    | none =>
      match (List.range (16 * bands)).find? (fun i => 7 ≤ i % 16 && bad (64 + i)) with
      | some i => some (64 + i)
      | none =>
        ((List.range entries).findSome? (fun e =>
          if 604799 < fieldAt b (at' e) 4 ∨ (e ≠ 0 ∧ fieldAt b (at' e) 4 ≤ fieldAt b (at' (e - 1)) 4) then some (at' e)
          else if bands ≤ fieldAt b (at' e + 4) 1 then some (at' e + 4)
          else ((List.range 3).find? (fun k => bad (at' e + 5 + k))).map (fun k => at' e + 5 + k)))

/-- Step 2 of R595: the first band that disagrees. -/
def tariffBadBand (b : List Byte) : Option Nat :=
  (List.range (fieldAt b 10 1)).find? (fun i =>
    let o := 64 + 16 * i
    let cap := fieldAt b o 2
    let ceil := fieldAt b (o + 4) 1
    let flo := fieldAt b (o + 5) 1
    let t := fieldAt b (o + 6) 1
    decide (cap < fieldAt b (o + 2) 2 ∨ ceil < flo ∨ cap < 100 ∨ 1100 < cap ∨ ceil < 0x28 ∨ 0xA0 < ceil
      ∨ flo < 0x28 ∨ 0xA0 < flo ∨ t < 70 ∨ 105 < t))

/-- The schedule buffer that the staging copy spells. -/
def State.stagedSchedule (s : State) : List Byte :=
  let hdr := (List.range 4).flatMap (fun i => leBytes 4 (s.rd Reg.PWR_SCHED_HDR_WORD [i]))
  let bands := fieldAt hdr 10 1
  let entries := fieldAt hdr 11 1
  hdr ++ fill 48 0
    ++ (List.range (min bands 16)).flatMap (fun b => (List.range 4).flatMap (fun w => leBytes 4 (s.rd Reg.PWR_BAND_WORD [b, w])))
    ++ (List.range (min entries 64)).flatMap (fun e => (List.range 2).flatMap (fun w => leBytes 4 (s.rd Reg.PWR_SCHED_WORD [e, w])))

/-- Agreement of the governor's staged set (R595, R596). -/
def State.tariffAgrees (s : State) : Bool :=
  (tariffBadField s.stagedSchedule).isNone && (tariffBadBand s.stagedSchedule).isNone

/-- The little-endian words of a byte range. -/
def wordsAt (b : List Byte) (o n : Nat) : List Nat := (List.range n).map (fun i => fieldAt b (o + 4 * i) 4)

/-- Stage and commit an accepted schedule (R596). -/
def stageTariff (s : State) (b : List Byte) (source : Nat) : State :=
  let bands := fieldAt b 10 1
  let entries := fieldAt b 11 1
  let s := stageWords s Reg.PWR_SCHED_HDR_WORD [] 0 (wordsAt b 0 4)
  let s := (List.range 16).foldl (fun s i =>
    stageWords s Reg.PWR_BAND_WORD [i] 0 (if i < bands then wordsAt b (64 + 16 * i) 4 else [0, 0, 0, 0])) s
  let s := (List.range 64).foldl (fun s e =>
    stageWords s Reg.PWR_SCHED_WORD [e] 0 (if e < entries then wordsAt b (64 + 16 * bands + 8 * e) 2 else [0, 0])) s
  captureSet { s with gov := { s.gov with pendingSource := source, pendingCrc := crc32 b } } .tariff

/-! ### Measurement (R589, R590, R606) -/

/-- Energy of a 10 us sample of a board-power code, in nJ: full scale 1.2 V over 4,096 codes, 1,000 W/V. -/
def sampleNJ (board : Nat) : Nat := board * 12000000 / 4096

/-- Board power in W of a converter code. -/
def boardW (board : Nat) : Nat := board * 1200 / 4096

/-- The activity of function `f` since the last sample (R606). -/
def State.activity (s : State) (f : Nat) : Nat :=
  let steps := (List.range 16).foldl (fun a p => if s.plotHolder p = f then a + FMap.get s.gov.actSteps 0 p else a) 0
  s.rd Reg.PWR_ATTR_W_S [] * steps + s.rd Reg.PWR_ATTR_W_H [] * FMap.get s.gov.actHbm 0 f
    + s.rd Reg.PWR_ATTR_W_C [] * FMap.get s.gov.actCells 0 f

/-- Add energy to the open accumulators of the die and the functions (R606). -/
def addEnergy (s : State) (e : Nat) : State :=
  let acts := (List.range 16).map s.activity
  let total := acts.sum
  let share (f : Nat) : Nat := if total = 0 then 0 else e * acts.getD f 0 / total
  let given := ((List.range 16).map share).sum
  let s := (List.range 16).foldl (fun s f =>
    s.wrapInc Reg.PWR_E_OPEN_NJ [f] (share f + (if f = 0 then e - given else 0))) s
  s.wrapInc Reg.PWR_E_DIE_OPEN_NJ [] e

/-- Whether a fabric sensor reads at or above T_LIMIT. -/
def State.overTemp (s : State) : Bool :=
  (List.range 32).any (fun n => s.on Reg.TOP_TSENS_VALID [n]
    && decide ((s.rd Reg.PWR_FAST_T_LIMIT [] + 64) * 8 ≤ s.rd Reg.TOP_TSENS_TEMP [n]))

/-- POWER_SAMPLE: one sample of both inputs. -/
def powerSampleOp (s : State) (core board : Nat) : State :=
  if !s.boot.rails ∨ s.on Reg.PWR_STAT_CUT [] then s
  else
    let s := (s.wr Reg.PWR_IMON_CORE [] core).wr Reg.PWR_IMON_BOARD [] board
    let s := if s.on Reg.PWR_CTL_ACCT_EN [] then addEnergy s (sampleNJ board) else s
    let g : Gov := { s.gov with actSteps := [], actHbm := [], actCells := [], power := board }
    let sum := g.msSum + board
    let g := if g.msCount + 1 < 100 then { g with msSum := sum, msCount := g.msCount + 1 }
      else { g with msSum := 0, msCount := 0, msAvg := sum * 1200 / 409600 }
    let s := { s with gov := g }
    let s := s.wr Reg.PWR_PEAK_PEAK_W [] (max (s.rd Reg.PWR_PEAK_PEAK_W []) s.gov.msAvg)
    let overP := decide (s.rd Reg.PWR_FAST_CAP_W [] * 4096 < board * 1200)
    let overT := s.overTemp
    let g := s.gov
    let g := { g with notOverSince := if g.isOver && !(overP || overT) then s.now else g.notOverSince,
                      isOver := overP || overT, isOverTemp := overT }
    powerFlags { s with gov := g }

/-- POWER_SAMPLE. -/
def execPowerSample (core board : Nat) (s : State) : Outcome State Fault Refusal :=
  .next (powerSampleOp s (core % 4096) (board % 4096))

/-- LIMITER_STEP (R599): down by one code per us while over; up by one code per 10 us after 100 us not over with
power at most 0.97 of the cap. -/
def limiterStepOp (s : State) : State :=
  let c := s.rd Reg.PWR_LIMIT_CODE []
  if s.gov.isOver then
    if s.gov.lowerAt ≤ s.now ∧ 0x28 < c then
      powerFlags { (s.wr Reg.PWR_LIMIT_CODE [] (c - 1)) with gov := { s.gov with lowerAt := s.now + usCounts 1 } }
    else powerFlags s
  else if c < 0xA0 ∧ s.gov.notOverSince + usCounts 100 ≤ s.now ∧ s.gov.raiseAt ≤ s.now
      ∧ s.gov.power * 1200 * 100 ≤ s.rd Reg.PWR_FAST_CAP_W [] * 4096 * 97 then
    powerFlags { (s.wr Reg.PWR_LIMIT_CODE [] (c + 1)) with gov := { s.gov with raiseAt := s.now + usCounts 10 } }
  else powerFlags s

/-- LIMITER_STEP. -/
def execLimiterStep (s : State) : Outcome State Fault Refusal := .next (limiterStepOp s)

/-- The code toward which VID moves (R599), within the codes the die drives (R47). -/
def State.vidGoal (s : State) : Nat :=
  max 0x28 (min 0xA0 (min (s.rd Reg.PWR_TARGET_CODE []) (min (s.rd Reg.PWR_LIMIT_CODE []) s.ceilNow)))

/-- Drive a VID code. -/
def driveVid (s : State) (c : Nat) : State := (s.wr Reg.TOP_PINSTAT_VID [] c).wr Reg.PWR_STAT_VID [] c

/-- VID_STEP (R48): one code toward the goal, at least 1 us after the previous change, while VCORE_EN is high and no
exchange holds VID (R545). -/
def vidStepOp (s : State) : State :=
  let v := s.rd Reg.TOP_PINSTAT_VID []
  let g := s.vidGoal
  if !s.on Reg.TOP_PINSTAT_VCORE_EN [] ∨ v = g ∨ s.now < s.boot.vidAt then s
  else
    let s := driveVid s (if v < g then v + 1 else v - 1)
    powerFlags { s with boot := { s.boot with vidAt := s.now + usCounts 1 } }

/-- VID_STEP. -/
def execVidStep (s : State) : Outcome State Fault Refusal := .next (vidStepOp s)

/-! ### The loop (R601) -/

/-- The signed value of a byte code. -/
def sbyte (n : Nat) : Int := if n < 128 then (n : Int) else (n : Int) - 256

/-- The highest fabric sensor reading, in eighths of a degree above -64. -/
def State.tMax (s : State) : Nat :=
  (List.range 32).foldl (fun m n => max m (s.rd Reg.TOP_TSENS_TEMP [n])) 0

/-- Steps of plot `p` since the loop last ran. -/
def State.loopStepsOf (s : State) (p : Nat) : Nat :=
  s.rd Reg.PLT_STEPS_COUNT [p] - FMap.get s.gov.loopSteps 0 p

/-- The busy test: the die is ROOT, or an enabled plot was used at 10 % or more in the last 1 ms. -/
def State.govBusy (s : State) : Bool :=
  s.role == 1 || (List.range 16).any (fun p => s.plotEn p && s.rd Reg.PLT_REPLICA_RATE [p] != 0
    && decide (s.rd Reg.PLT_REPLICA_RATE [p] * 100 ≤ s.loopStepsOf p))

/-- Board power allowed now in W. -/
def State.allowance (s : State) : Rat :=
  let cap : Rat := s.rd Reg.PWR_FAST_CAP_W []
  let dw := s.bandDemand s.band
  if dw = 0 ∨ s.demandS = 0 then cap
  else
    let ds := s.demandS
    let ticks : Nat := (ds - s.rd Reg.CLO_RTC_SEC_SEC [] % ds) * 32768 - s.rd Reg.CLO_RTC_SUB_SUB []
    let left : Rat := max ((ticks : Rat) / 32768) (1 / 1000)
    min cap (((dw * ds : Nat) : Rat) - (s.rd Reg.PWR_E_DIE_OPEN_NJ [] : Rat) / 1000000000) / left

/-- GOVERNOR_LOOP: the next target. -/
def State.loopTarget (s : State) : Nat :=
  let allow := s.allowance
  let p : Rat := if s.on Reg.CLO_STATE_NO_FORECAST [] then (s.gov.msAvg : Rat)
    else ((5 * (sbyte (s.rd Reg.PWR_FCST_Y0 []) + 128) : Int) : Rat)
  let tl := s.rd Reg.PWR_FAST_T_LIMIT []
  let t := s.rd Reg.PWR_TARGET_CODE []
  let t' := if allow < p ∨ (tl + 62) * 8 ≤ s.tMax then t - 4
    else if s.govBusy ∧ p < allow * 95 / 100 ∧ s.tMax < (tl + 59) * 8 then t + 1
    else t
  max s.floorNow (min t' s.ceilNow)

/-- Whether the governor's firmware runs: on SHOOT and ROOT dies, in Run or Open mode. -/
def State.govRuns (s : State) : Bool := s.fwRuns && s.rd Reg.TOP_BOOTSTAT_STATE [] == 2 && s.role != 2

/-- GOVERNOR_LOOP. -/
def governorLoopOp (s : State) : State :=
  if s.govRuns then
    let s := s.wr Reg.PWR_TARGET_CODE [] s.loopTarget
    powerFlags { s with gov := { s.gov with
      loopSteps := (List.range 16).foldl (fun m p => FMap.set m 0 p (s.rd Reg.PLT_STEPS_COUNT [p])) [] } }
  else s

/-- GOVERNOR_LOOP. -/
def execGovernorLoop (s : State) : Outcome State Fault Refusal := .next (governorLoopOp s)

/-! ### Demand intervals (R603-R605) -/

/-- Milliseconds of the open interval, rounded down. -/
def State.openMs (s : State) : Nat := (s.now - s.rd Reg.PWR_IV_OPEN_TB_TB []) / 25000

/-- Step 1 of R603: close the open interval and start the next at RTC value `r`, with more flags for the closed one. -/
def closeInterval (s : State) (r flags : Nat) : State :=
  let len := s.now - s.rd Reg.PWR_IV_OPEN_TB_TB []
  let dw := s.bandDemand s.band
  let e := s.rd Reg.PWR_E_DIE_OPEN_NJ []
  let exceeded := decide (dw ≠ 0 ∧ dw * len * 40 < e)
  let fl := s.rd Reg.PWR_IV_OPEN_B_FLAGS [] + (if s.gov.openIv.short then 2 else 0) + flags + (if exceeded then 8 else 0)
  let s := (s.wr Reg.PWR_IV_CLOSED_TB_TB [] (s.rd Reg.PWR_IV_OPEN_TB_TB [])).wr Reg.PWR_IV_CLOSED_RTC_RTC_START []
    (s.rd Reg.PWR_IV_OPEN_RTC_START [])
  let s := (s.wr Reg.PWR_IV_CLOSED_LEN_MS [] (len / 25000)).wr Reg.PWR_IV_CLOSED_BAND [] (s.rd Reg.PWR_IV_OPEN_B_BAND [])
  let s := (s.wr Reg.PWR_IV_CLOSED_F_FLAGS [] fl).wr Reg.PWR_IV_CLOSED_F_PEAK_W [] (s.rd Reg.PWR_PEAK_PEAK_W [])
  let s := s.wr Reg.PWR_IV_CLOSED_F_LOGGED [] 0
  let s := (List.range 16).foldl (fun s f =>
    (s.wr Reg.PWR_E_CLOSED_NJ [f] (s.rd Reg.PWR_E_OPEN_NJ [f])).wr Reg.PWR_E_OPEN_NJ [f] 0) s
  let s := (s.wr Reg.PWR_E_DIE_CLOSED_NJ [] e).wr Reg.PWR_E_DIE_OPEN_NJ [] 0
  let s := ((s.wr Reg.PWR_IV_OPEN_TB_TB [] s.now).wr Reg.PWR_IV_OPEN_RTC_START [] r).wr Reg.PWR_PEAK_PEAK_W [] 0
  let s := s.wr Reg.PWR_IV_OPEN_B_FLAGS [] 0
  { s with gov := { s.gov with
      closedIv := s.gov.openIv, openIv := { short := false, lowCap := s.capNow, enabled := s.funcs, schedNew := false },
      haveClosed := true, closeDue := false, logWaiting := false,
      closedSchedId := s.schedId, closedRtc := r } }

/-- Step 2 of R603: a pending schedule takes effect and the band at RTC value `r` is selected. -/
def openWithBand (s : State) (r : Nat) : State :=
  let isNew := s.on (cPending .tariff) []
  let s := if isNew then
      let s := (effectSet s .tariff).wr Reg.PWR_STAT_SCHED_DEFAULT [] 0
      { s with gov := { s.gov with schedSource := s.gov.pendingSource, schedCrc := s.gov.pendingCrc,
                                   closedIv := { s.gov.closedIv with schedNew := true } } }
    else s
  let s := selectBand s r
  { s with gov := { s.gov with openIv := { s.gov.openIv with lowCap := s.capNow } } }

/-- The whole of a close (R603 steps 1-3). -/
def closeAndOpen (s : State) (r flags : Nat) : State :=
  let b := s.rd Reg.PWR_IV_OPEN_B_BAND []
  hedgeEvent (openWithBand (closeInterval s r flags) r) 407 b

/-- DEMAND_INTERVAL_CLOSE: the RTC tick that ends the interval has come. -/
def demandCloseOp (s : State) : State :=
  if s.gov.closeDue && !s.on Reg.PWR_STAT_CUT [] then closeAndOpen s (s.rd Reg.CLO_RTC_SEC_SEC []) 0 else s

/-- DEMAND_INTERVAL_CLOSE. -/
def execDemandIntervalClose (s : State) : Outcome State Fault Refusal := .next (demandCloseOp s)

/-- Setting PWR_CTL.ACCT_EN starts accounting with a SHORT interval (R604); a schedule that waits takes effect. -/
def acctEnOp (s : State) : State :=
  if s.on Reg.PWR_CTL_ACCT_EN [] ∨ s.on Reg.PWR_STAT_CUT [] then s
  else
    let r := s.rd Reg.CLO_RTC_SEC_SEC []
    let s := s.wr Reg.PWR_CTL_ACCT_EN [] 1
    let s := ((s.wr Reg.PWR_IV_OPEN_TB_TB [] s.now).wr Reg.PWR_IV_OPEN_RTC_START [] r).wr Reg.PWR_PEAK_PEAK_W [] 0
    let s := s.wr Reg.PWR_IV_OPEN_B_FLAGS [] 0
    let s := (List.range 16).foldl (fun s f => s.wr Reg.PWR_E_OPEN_NJ [f] 0) s
    let s := s.wr Reg.PWR_E_DIE_OPEN_NJ [] 0
    openWithBand { s with gov := { s.gov with openIv := ⟨true, s.capNow, s.funcs, false⟩ } } r

/-- ACCT_EN: firmware sets it at Run-mode entry; a DORMANT die keeps it 0. -/
def execAcctEn (s : State) : Outcome State Fault Refusal := .next (if s.role = 2 then s else acctEnOp s)

/-- A write of CLO_RTC_SEC (R531, R604): it first closes the open interval with RTC_SET, and the next is SHORT. -/
def rtcSetOp (s : State) (sec : Nat) : State :=
  let t := s.wr Reg.CLO_RTC_SEC_SEC [] sec
  if s.on Reg.PWR_CTL_ACCT_EN [] && !s.on Reg.PWR_STAT_CUT [] then
    let s := closeAndOpen t (sec % 2 ^ 32) 4
    { s with gov := { s.gov with openIv := { s.gov.openIv with short := true } } }
  else t

/-- RTC_SET. -/
def execRtcSet (src : Src) (sec : Nat) (s : State) : Outcome State Fault Refusal :=
  .next (fwWrite s src (Reg.CLO_RTC_SEC_SEC.addr []) (fun s => rtcSetOp s sec))

/-! ### Energy records (R607) -/

/-- An energy of a record in mJ (R590). -/
def mJ (nJ : Nat) : Nat := nJ / 1000000

/-- The body of a FUNC record of the closed interval. -/
def State.funcBody (s : State) (f : Nat) : List Byte :=
  leBytes 8 (s.rd Reg.PWR_IV_CLOSED_TB_TB []) ++ leBytes 4 (s.rd Reg.PWR_IV_CLOSED_RTC_RTC_START [])
    ++ leBytes 4 (s.rd Reg.PWR_IV_CLOSED_LEN_MS []) ++ leBytes 4 (mJ (s.rd Reg.PWR_E_CLOSED_NJ [f])) ++ leBytes 1 f
    ++ leBytes 1 (s.rd Reg.PWR_IV_CLOSED_BAND []) ++ leBytes 1 (s.rd Reg.PWR_IV_CLOSED_F_FLAGS []) ++ leBytes 1 0
    ++ leBytes 4 s.gov.closedSchedId ++ leBytes 4 (mJ (s.rd Reg.PWR_E_DIE_CLOSED_NJ []))
    ++ leBytes 2 (s.rd Reg.PWR_IV_CLOSED_F_PEAK_W []) ++ leBytes 2 s.gov.closedIv.lowCap

/-- The body of a TARIFF record. -/
def State.tariffBody (s : State) : List Byte :=
  leBytes 4 s.gov.closedRtc ++ leBytes 4 s.schedId ++ leBytes 2 s.demandS ++ leBytes 1 s.schedBands
    ++ leBytes 1 s.schedEntries ++ leBytes 4 s.gov.schedCrc ++ leBytes 1 s.gov.schedSource

/-- INTERVAL_LOG (R603 steps 4 and 5): the FUNC records, a TARIFF record when a schedule took effect, then LOGGED
once every record is in flash. -/
def intervalLogOp (s : State) : State :=
  if !s.fwRuns ∨ !s.gov.haveClosed ∨ s.on Reg.PWR_IV_CLOSED_F_LOGGED [] ∨ s.gov.logWaiting ∨ s.on Reg.PWR_STAT_CUT [] then s
  else
    let s := s.gov.closedIv.enabled.foldl (fun s f => appendRecord s 0 1 (s.funcBody f)) s
    let s := if s.gov.closedIv.schedNew then appendRecord s 0 5 s.tariffBody else s
    if s.flash.logWait.isEmpty then s.wr Reg.PWR_IV_CLOSED_F_LOGGED [] 1
    else { s with gov := { s.gov with logWaiting := true } }

/-- INTERVAL_LOG. -/
def execIntervalLog (s : State) : Outcome State Fault Refusal := .next (intervalLogOp s)

/-- Records that waited are in flash: an interval they belonged to is logged (R603 step 5). -/
def logCaughtUp (s : State) : State :=
  if s.gov.logWaiting ∧ s.flash.logWait.isEmpty then
    { (s.wr Reg.PWR_IV_CLOSED_F_LOGGED [] 1) with gov := { s.gov with logWaiting := false } }
  else s

/-! ### PWR_STATUS and PWR_ENERGY (R216, R609) -/

/-- The body of PWR_STATUS. -/
def State.pwrStatusBody (s : State) : List Byte :=
  let coreMW := s.rd Reg.PWR_IMON_CORE [] * 1200 * 800 / 4096 * (500 + s.rd Reg.TOP_PINSTAT_VID [] * 5 / 2) / 1000
  leBytes 1 (s.rd Reg.TOP_PINSTAT_VID []) ++ leBytes 1 s.band ++ leBytes 2 s.capNow ++ leBytes 4 coreMW
    ++ leBytes 4 (s.rd Reg.PWR_IMON_BOARD [] * 1200000 / 4096) ++ leBytes 2 s.tMax ++ leBytes 2 0
    ++ leBytes 8 (s.rd Reg.PWR_IV_OPEN_TB_TB []) ++ leBytes 4 s.openMs ++ leBytes 4 0

/-- FUNC records of this boot, newest first. -/
def State.funcRecords (s : State) : List (List Byte) :=
  (s.windowRecords.filter (fun r => fieldAt r 0 1 == 0 && fieldAt r 1 1 == 1
    && fieldAt r 2 2 == s.boot.bootCount % 65536)).mergeSort (fun a b => fieldAt b 4 4 ≤ fieldAt a 4 4)

/-- A PWR_ENERGY result body. -/
def energyBody (tb len nJmJ band flags : Nat) : List Byte :=
  leBytes 8 tb ++ leBytes 4 len ++ leBytes 8 nJmJ ++ leBytes 1 band ++ leBytes 1 flags ++ leBytes 2 0

/-- PWR_ENERGY's answer for a function and BACK, if that interval is held (R609). -/
def State.pwrEnergy (s : State) (f back : Nat) : Option (List Byte) :=
  if back = 0 then
    if s.on Reg.PWR_CTL_ACCT_EN [] then
      some (energyBody (s.rd Reg.PWR_IV_OPEN_TB_TB []) s.openMs (mJ (s.rd Reg.PWR_E_OPEN_NJ [f])) s.band 1)
    else none
  else
    let hw := s.gov.haveClosed && !s.on Reg.PWR_IV_CLOSED_F_LOGGED []
    if back = 1 ∧ hw then
      some (energyBody (s.rd Reg.PWR_IV_CLOSED_TB_TB []) (s.rd Reg.PWR_IV_CLOSED_LEN_MS [])
        (mJ (s.rd Reg.PWR_E_CLOSED_NJ [f])) (s.rd Reg.PWR_IV_CLOSED_BAND []) 0)
    else
      let recs := s.funcRecords.filter (fun r => !(hw && fieldAt r 16 8 == s.rd Reg.PWR_IV_CLOSED_TB_TB []))
      let starts := (recs.map (fun r => fieldAt r 16 8)).dedup.mergeSort (fun a b => b ≤ a)
      let k := back - 1 - (if hw then 1 else 0)
      match starts[k]? with
      | none => none
      | some st =>
        (recs.find? (fun r => fieldAt r 16 8 == st && fieldAt r 36 1 == f)).map (fun r =>
          energyBody st (fieldAt r 28 4) (fieldAt r 32 4) (fieldAt r 37 1) (2 * (fieldAt r 38 1 % 2)))

/-! ### The hold-up sequence (R610-R612) -/

/-- The next slot of the reserved page takes a record of the hold-up sequence. -/
def holdupRecord (s : State) (slot log kind : Nat) (body : List Byte) : State :=
  putRecord s (s.rd Reg.FLC_RSV_PAGE [] * 256 + 64 * slot) log kind body

/-- A PACK body for the energies of functions `lo` to `lo + 7`. -/
def packBody (rtc len band flags : Nat) (e : Nat → Nat) (lo : Nat) : List Byte :=
  leBytes 4 rtc ++ leBytes 3 len ++ leBytes 1 band ++ leBytes 1 flags ++ leBytes 3 0
    ++ (List.range 8).flatMap (fun i => leBytes 4 (e (lo + i)))

/-- Write PACK_LO, and PACK_HI when a function 8-15 is nonzero; answers the next slot. -/
def writePack (s : State) (slot rtc len band flags : Nat) (e : Nat → Nat) : State × Nat :=
  let hi := (List.range 8).any (fun i => e (8 + i) != 0)
  let s := holdupRecord s slot 0 2 (packBody rtc len band (flags + if hi then 128 else 0) e 0)
  if hi then (holdupRecord s (slot + 1) 0 3 (packBody rtc len band flags e 8), slot + 2) else (s, slot + 1)

/-- The hold-up executor's records, in the fixed order of R611; answers the slots used. -/
def holdupWrites (s : State) (cause : Nat) : State × Nat :=
  if !s.on Reg.FLC_RSV_VALID [] then (s, 0)
  else if !s.on Reg.PWR_CTL_ACCT_EN [] then (s, 0)
  else
    let packClosed := s.gov.haveClosed && !s.on Reg.PWR_IV_CLOSED_F_LOGGED []
    let ms := s.openMs
    let packOpen := !packClosed && decide (1 ≤ ms)
    let (s, k) := if packClosed then
        writePack s 0 (s.rd Reg.PWR_IV_CLOSED_RTC_RTC_START []) (s.rd Reg.PWR_IV_CLOSED_LEN_MS [])
          (s.rd Reg.PWR_IV_CLOSED_BAND []) (s.rd Reg.PWR_IV_CLOSED_F_FLAGS [])
          (fun f => mJ (s.rd Reg.PWR_E_CLOSED_NJ [f]))
      else (s, 0)
    let cut := leBytes 4 (s.rd Reg.CLO_RTC_SEC_SEC []) ++ leBytes 4 (s.rd Reg.PWR_IV_OPEN_RTC_START [])
      ++ leBytes 3 ms ++ leBytes 1 s.band ++ leBytes 1 (1 + 2 * b2n packClosed + 4 * b2n packOpen)
      ++ leBytes 1 cause ++ leBytes 2 0 ++ leBytes 4 (mJ (s.rd Reg.PWR_E_DIE_OPEN_NJ [])) ++ leBytes 4 s.schedId
      ++ leBytes 2 s.capNow
    let s := holdupRecord s k 0 4 cut
    if packOpen then
      writePack s (k + 1) (s.rd Reg.PWR_IV_OPEN_RTC_START []) ms s.band (s.rd Reg.PWR_IV_OPEN_B_FLAGS [] + 64)
        (fun f => mJ (s.rd Reg.PWR_E_OPEN_NJ [f]))
    else (s, k + 1)

/-- The queue of one bank at a cut: a running erase leaves its sector undefined, a running program completes its
segment, and everything else is discarded (R575). -/
def cutBank (s : State) (ops : List FlashOp) : State :=
  match ops with
  | .erase _ sector _ :: _ => undefSector s sector
  | .program _ addr (seg :: _) :: _ => if s.blank addr then programSegment s addr seg else s
  | _ => s

/-- FLASH_CUT_ABORT (R575). -/
def flashCutAbort (s : State) : State :=
  let s := cutBank (cutBank s s.flash.bank0) s.flash.bank1
  let busy := !(s.flash.bank0.isEmpty && s.flash.bank1.isEmpty)
  let s := { s with flash := { s.flash with bank0 := [], bank1 := [], logWait := [] } }
  let s := (s.wr Reg.FLC_STAT_BUSY0 [] 0).wr Reg.FLC_STAT_BUSY1 [] 0
  if busy then hedgeEvent ((s.wr Reg.FLC_STAT_FAIL [] 1).wr Reg.FLC_STAT_CAUSE [] 5) 406 0 else s

end Sys2Proof.Machine
end

