-- ==== Sys2Proof/Machine/HbmOps.lean ====
section
/-! DEFINITION. HBM as the blocks of the die reach it: addresses, working stacks (R87), the function that holds a
64 MiB unit (R197), and reads and writes with poison (R617, R618). -/

namespace Sys2Proof.Machine

/-- Bytes of one stack, and of the die's HBM. -/
def stackBytes : Nat := 24 * 2 ^ 30
def hbmBytes : Nat := 6 * stackBytes

/-- The 64 MiB units that bytes `a` to `a + n - 1` touch. -/
def hbmUnits (a n : Nat) : List Nat :=
  if n = 0 then [] else (List.range ((a + n - 1) / 2 ^ 26 - a / 2 ^ 26 + 1)).map (fun i => a / 2 ^ 26 + i)

/-- The function that holds a 64 MiB unit: a VF by its assignment, else the PF (R197). -/
def State.unitHolder (s : State) (u : Nat) : Nat :=
  ((List.range 16).find? (fun f => f != 0 &&
    (s.tenant f).ranges.any (fun r => r.1 ≤ u && u < r.1 + r.2))).getD 0

/-- Whether bytes lie in HBM, on working stacks. -/
def State.hbmWorks (s : State) (a n : Nat) : Bool :=
  decide (a + n ≤ hbmBytes) && (hbmUnits a n).all (fun u => s.stackOk (u * 2 ^ 26 / stackBytes))

/-- Whether bytes lie in the HBM assigned to a function. -/
def State.holdsHbm (s : State) (f a n : Nat) : Bool :=
  s.hbmWorks a n && (hbmUnits a n).all (fun u => s.unitHolder u == f)

/-- The range left undefined that an address lies in. -/
def State.undefAt (s : State) (a : Nat) : Option (Nat × Nat × Nat) :=
  s.hbmUndef.find? (fun u => decide (u.1 ≤ a ∧ a < u.1 + u.2.1))

/-- The byte at an address: zero where nothing has been written, but for what a self-test left undefined. -/
def State.hbmByte (s : State) (a : Nat) : Byte :=
  match FMap.find s.hbm a with
  | some b => b
  | none => match s.undefAt a with
    | some u => Config.hbmByte u.2.2 a
    | none => 0

/-- The bytes at an address. -/
def State.hbmRead (s : State) (a n : Nat) : List Byte := (List.range n).map (fun i => s.hbmByte (a + i))

/-- Put one byte: an entry of zero is listed only where an unlisted byte is not zero. -/
def hbmPutByte (s : State) (a : Nat) (b : Byte) : State :=
  { s with hbm := if (s.undefAt a).isSome then FMap.put s.hbm a b else FMap.set s.hbm 0 a b }

/-- Whether a read of bytes meets a poisoned 32-byte unit. -/
def State.hbmPoisoned (s : State) (a n : Nat) : Bool :=
  s.hbmPoison.any (fun u => decide (32 * u < a + n) && decide (a < 32 * (u + 1)))

/-- Log the poisoned units that a read of bytes meets (R639). -/
def hbmRecord (s : State) (a n agent func status : Nat) : State :=
  (s.hbmPoison.filter (fun u => decide (32 * u < a + n) && decide (a < 32 * (u + 1)))).foldl
    (fun s u => memRecord s u 1 (32 * u / stackBytes) agent func (32 * u) status) s

/-- A read finds an uncorrectable error in a unit: it is marked poisoned, counted once and the first one recorded
(R617). Agents as TOP_HBM_ERRADDR numbers them. -/
def hbmUe (s : State) (unit agent : Nat) : State :=
  if s.hbmPoison.contains unit then s
  else
    let s := { s with hbmPoison := unit :: s.hbmPoison }.satInc Reg.TOP_HBM_ECC_UE [32 * unit / stackBytes] 1
    if s.on Reg.TOP_HBM_ERRADDR_VALID [] then s
    else ((s.wr Reg.TOP_HBM_ERRADDR_AGENT [] agent).wr Reg.TOP_HBM_ERRADDR_UNIT [] unit).wr Reg.TOP_HBM_ERRADDR_VALID [] 1

/-- Put bytes one by one. -/
def hbmPut (s : State) (a : Nat) : List Byte → State
  | [] => s
  | b :: r => hbmPut (hbmPutByte s a b) (a + 1) r

/-- Write bytes: a poisoned unit that the write covers wholly is clean again (R618). -/
def hbmWrite (s : State) (a : Nat) (d : List Byte) : State :=
  let s := hbmPut s a d
  let clean (u : Nat) : Bool := decide (a ≤ 32 * u) && decide (32 * (u + 1) ≤ a + d.length)
  { s with hbmPoison := s.hbmPoison.filter (fun u => !clean u) }

end Sys2Proof.Machine
end

