-- ==== Sys2Proof/Machine/Link.lean ====
section
/-! DEFINITION. The Ciskaca link of 16_ciskaca_link: packets and cells (R481), blocks with sequence, replay and
credits (R474-R478), retraining and quarantine (R476, R494), port states (R495-R497), routing (R486-R488) and the
violation log (R491, R492). -/

namespace Sys2Proof.Machine

open Host (Outcome)

/-! ### Ports -/

/-- Port `n`. -/
def State.port (s : State) (n : Nat) : Port := FMap.get s.link.ports {} n

/-- Replace port `n`. -/
def State.setPort (s : State) (n : Nat) (p : Port) : State :=
  { s with link := { s.link with ports := FMap.put s.link.ports n p } }

/-- STATE of port `n` (R495). -/
def State.portState (s : State) (n : Nat) : Nat := s.rd Reg.CSK_STAT_STATE [n]

/-- Values of R495. -/
def psDown : Nat := 0
def psTraining : Nat := 1
def psNoId : Nat := 2
def psIdle : Nat := 3
def psActive : Nat := 4
def psQuarantined : Nat := 5
def psOff : Nat := 6
def psRetraining : Nat := 7

/-- Change a port's state; source 258 + 8n carries the new state. -/
def setPortState (s : State) (n st : Nat) : State :=
  if s.portState n = st then s else hedgeEvent (s.wr Reg.CSK_STAT_STATE [n] st) (258 + 8 * n) st

/-- A LINK fault record (R638): 0 quarantine, 1 DOWN, 2 DEGRADED, 3 ID_CONFLICT, 4 MISWIRED, with the code of the
port's latest violation entry. -/
def linkRecord (s : State) (n event : Nat) : State :=
  let pi := s.rd Reg.CSK_VLOG_PI_PI [n]
  let code := if s.rd Reg.CSK_VIOL_CNT_COUNT [n] = 0 then 0 else s.rd Reg.CSK_VLOG_CODE [n, (pi + 255) % 256]
  faultRecord s 3 (leBytes 1 n ++ leBytes 1 event ++ leBytes 1 (s.rd Reg.CSK_PARTNER_ID_DIE [n]) ++ leBytes 1 code
    ++ leBytes 4 (s.rd Reg.CSK_VIOL_CNT_COUNT [n]) ++ leBytes 8 (s.rd Reg.CSK_PARTNER_SERIAL [n]))

/-- The level source 261 + 8n follows ID_CONFLICT or MISWIRED. -/
def portFlagLevel (s : State) (n : Nat) : State :=
  hedgeLevel s (261 + 8 * n) (s.on Reg.CSK_STAT_ID_CONFLICT [n] || s.on Reg.CSK_STAT_MISWIRED [n]) 0

/-! ### The routing table in effect (R486-R488) -/

/-- Byte `i` of the header of port `n`'s table in effect. -/
def State.rtHdr (s : State) (n i : Nat) : Nat := bitsOf (s.rdA Reg.CSK_RTHDR_WORD [n, i / 4]) (8 * (i % 4)) 8

/-- Entry `d` of port `n`'s table in effect. -/
def State.rtEntry (s : State) (n d : Nat) : Nat := s.rdA Reg.CSK_RT_WORD [n, d]

/-- Fields of a routing entry. -/
def rtCoord (e dim : Nat) : Nat := bitsOf e (8 * dim) 8
def rtValid (e : Nat) : Bool := bitOf e 24
def rtPort (e : Nat) : Nat := bitsOf e 25 3

/-- This die's ID: SELF of the table in effect, or the ID that LINK_SET_ID assigned (R484). -/
def State.self (s : State) : Nat := if s.link.routed then s.rtHdr 0 4 else s.link.dieId

/-- Attributes of port `p` in the table of port `n`: DIM, DIR, PAIR, USED. -/
def State.portDim (s : State) (n p : Nat) : Nat := bitsOf (s.rtHdr n (8 + p)) 0 2
def State.portDir (s : State) (n p : Nat) : Bool := bitOf (s.rtHdr n (8 + p)) 2
def State.portPair (s : State) (n p : Nat) : Bool := bitOf (s.rtHdr n (8 + p)) 3
def State.portUsed (s : State) (n p : Nat) : Bool := bitOf (s.rtHdr n (8 + p)) 4

/-- The extent of a dimension. -/
def State.extent (s : State) (n dim : Nat) : Nat := s.rtHdr n (1 + dim) + 1

/-- Whether output port `p` is a dateline port (R488). -/
def State.dateline (s : State) (n p : Nat) : Bool :=
  let dim := s.portDim n p
  let c := rtCoord (s.rtEntry n s.self) dim
  if s.portDir n p then c == 0 else c + 1 == s.extent n dim

/-- The output port for a packet, if one is ACTIVE (R488 step 2 and the pair rule). -/
def State.outPort (s : State) (n : Nat) (pkt : Packet) : Option Nat :=
  let e := s.rtEntry n pkt.dstDie
  if !rtValid e then none
  else
    let p0 := rtPort e
    let pair := (List.range 8).find? (fun q => q != p0 && s.portUsed n q && s.portPair n q
      && s.portDim n q == s.portDim n p0 && s.portDir n q == s.portDir n p0)
    let act (p : Nat) : Bool := s.portState p == psActive
    match pair with
    | none => if act p0 then some p0 else none
    | some q =>
      let (a, b) := if (pkt.srcDie + pkt.dstDie) % 2 = 1 then (q, p0) else (p0, q)
      if act a then some a else if act b then some b else none

/-! ### Packet classes, cells -/

/-- Traffic classes of R482: 0 REQ, 1 RSP, 2 PUSH, 3 CTL. -/
def pktClass (typ : Nat) : Nat :=
  if typ = 6 ∨ typ = 13 ∨ typ = 14 then 0
  else if typ = 7 then 1
  else if typ = 1 ∨ typ = 8 ∨ typ = 10 then 2
  else 3

/-- The pool of a packet (R477). -/
def pktPool (p : Packet) : Nat := if pktClass p.typ = 3 then 6 else 2 * pktClass p.typ + (if p.vc = 1 then 1 else 0)

/-- The header cell (R481). -/
def headerCell (p : Packet) : List Byte :=
  [BitVec.ofNat 8 (p.typ % 16 + 16 * (p.vc % 4)),
   BitVec.ofNat 8 (p.len % 32 + 32 * b2n p.first + 64 * b2n p.last),
   BitVec.ofNat 8 p.dstDie, BitVec.ofNat 8 p.srcDie, BitVec.ofNat 8 p.dstAgent, BitVec.ofNat 8 p.srcAgent]
    ++ leBytes 2 p.epoch ++ leBytes 8 p.tf

/-- The bits of bytes 8-15 that each TYPE names (R482); the others are reserved. -/
def tfMask (typ : Nat) : Nat :=
  match typ with
  | 1 => 0xFFFFFFFF_00_0F_FFFF
  | 2 => 0x00_FFFF_07_FFFF_FFFF
  | 3 => 0xFFFFFFFF_FFFF_03_FF
  | 4 => 0xFFFFFFFF_FFFF_FF_FF
  | 5 => 0x00000000_FFFF_00_0F
  | 6 => 0xFFFF_00_03_FFFFFFFF
  | 7 => 0x00_01_03_FF_FFFF_FFFF
  | 8 => 0xFFFFFFFF_FFFFFFFF
  | 9 => 0xFFFFFFFF_FFFFFFFF
  | 10 => 0xFFFFFFFF_FFFFFFFF
  | 11 => 0x0000_FFFF_00_FF_FFFF
  | 12 => 0xFFFFFFFF_0000_FF_FF
  | 13 => 0x00000000_FFFFFFFF
  | 14 => 0xFFFFFFFF_FFFFFFFF
  | _ => 0

/-- A packet from its header cell and body. -/
def cellPacket (h body : List Byte) : Packet :=
  let b0 := fieldAt h 0 1
  let b1 := fieldAt h 1 1
  let typ := bitsOf b0 0 4
  let tf := fieldAt h 8 8
  { typ := typ, vc := bitsOf b0 4 2, len := bitsOf b1 0 5, first := bitOf b1 5, last := bitOf b1 6,
    dstDie := fieldAt h 2 1, srcDie := fieldAt h 3 1, dstAgent := fieldAt h 4 1, srcAgent := fieldAt h 5 1,
    epoch := fieldAt h 6 2, tf := tf,
    resv := bitsOf b0 6 2 != 0 || bitOf b1 7 || (tf &&& tfMask typ) != tf, body := body }

/-- Whether LEN is in its type's range (R482). -/
def lenOk (p : Packet) : Bool :=
  match p.typ with
  | 1 => if p.tfb 12 1 = 0 then p.len == 16 else 1 ≤ p.len && p.len ≤ 16
  | 7 => p.len == 16
  | 6 => 1 ≤ p.len && p.len ≤ 16
  | 8 => 1 ≤ p.len && p.len ≤ 16
  | 13 => 1 ≤ p.len && p.len ≤ 16
  | 10 => p.len ≤ 16
  | 14 => p.len ≤ 16
  | _ => p.len == 0

/-- Whether a type travels as a stream with FIRST and LAST (R482). -/
def isStream (typ : Nat) : Bool := typ == 6 || typ == 8 || typ == 13 || typ == 14

/-- Whether a packet is MALFORMED by its own fields (R491). -/
def malformed (p : Packet) : Bool :=
  p.typ == 0 || p.typ == 15 || p.vc == 3 || !lenOk p || p.resv || (!isStream p.typ && (p.first || p.last))

/-- Whether a packet is a MISROUTE (R491). -/
def State.misrouted (s : State) (n : Nat) (p : Packet) : Bool :=
  (pktClass p.typ == 3) != (p.vc == 2) || !rtValid (s.rtEntry n p.srcDie) || !rtValid (s.rtEntry n p.dstDie)

/-! ### Sending packets from local agents -/

/-- Hand a packet to the die's routing stage from a local agent. -/
def injectPkt (s : State) (p : Packet) : State :=
  flit { s with link := { s.link with routeQ := s.link.routeQ ++ [⟨p, 8, s.now⟩] } } (agentStop p.srcAgent)

/-- SEQ or TAG of a packet, as an ACK or NAK repeats it (R482). -/
def answerTag (p : Packet) : Nat :=
  match p.typ with
  | 1 => p.tfb 8 2
  | 2 => p.tfb 13 2
  | 14 => p.tfb 14 2
  | _ => 0

/-- A single-cell CTL packet. -/
def ctlPacket (typ dstDie srcDie dstAgent srcAgent epoch tf : Nat) : Packet :=
  { typ := typ, vc := 2, len := 0, first := false, last := false, dstDie := dstDie, srcDie := srcDie,
    dstAgent := dstAgent, srcAgent := srcAgent, epoch := epoch, tf := tf, resv := false, body := [] }

/-- The NAK packet that answers `p` (R482). -/
def nakOf (self : Nat) (p : Packet) (code detail : Nat) : Packet :=
  ctlPacket 4 p.srcDie self p.srcAgent p.dstAgent p.epoch
    (p.typ + 2 ^ 8 * code + 2 ^ 16 * answerTag p + 2 ^ 32 * (detail % 2 ^ 32))

/-- The ACK packet that answers `p` (R482). -/
def ackOf (self : Nat) (p : Packet) (skip fault : Bool) (count : Nat) : Packet :=
  ctlPacket 3 p.srcDie self p.srcAgent p.dstAgent p.epoch
    (p.typ + 2 ^ 8 * (b2n skip + 2 * b2n fault) + 2 ^ 16 * answerTag p + 2 ^ 32 * (count % 2 ^ 32))

/-- Answer with a NAK, unless the packet is itself an answer (R479). -/
def sendNak (s : State) (p : Packet) (code detail : Nat) : State :=
  if p.typ = 3 ∨ p.typ = 4 then s else injectPkt s (nakOf s.self p code detail)

/-- Answer with an ACK. -/
def sendAck (s : State) (p : Packet) (skip fault : Bool) (count : Nat) : State :=
  injectPkt s (ackOf s.self p skip fault count)

/-- Answer UNREACHABLE to a packet's source and count it at port `n` (R476, R488, R622). -/
def answerUnreachable (s : State) (n : Nat) (p : Packet) : State :=
  let s := sendNak s p 0x23 0
  if n < 8 then hedgeEvent (s.satInc Reg.CSK_UNREACH_COUNT [n] 1) (260 + 8 * n) p.dstDie else s

/-- Take a packet out of the packets delivered to local agents, if it is there. -/
def takeInbox (s : State) (p : Packet) : State :=
  { s with link := { s.link with inbox := s.link.inbox.eraseP (fun q => q.pkt == p) } }

/-- The port that a delivered packet arrived on, 8 for a local agent; of one that no port delivered, the port toward its
source. -/
def State.arrivalPort (s : State) (p : Packet) : Nat :=
  match s.link.inbox.find? (fun q => q.pkt == p) with
  | some q => q.inPort
  | none => if p.srcDie = s.self then 8 else rtPort (s.rtEntry 0 p.srcDie)

/-! ### Violations and quarantine (R491-R494) -/

/-- The packets of a port that are queued or unacknowledged. -/
def Port.held (p : Port) : List Packet := p.replay.flatMap (·.pkts) ++ p.queue.map (·.pkt)

/-- Answer every packet of a port UNREACHABLE and drop them. -/
def flushPort (s : State) (n : Nat) : State :=
  let p := s.port n
  let s := s.setPort n { p with replay := [], queue := [], resend := [], txCells := [] }
  p.held.foldl (fun s q => answerUnreachable s n q) s

/-- Where every epoch that the die authorises starts at power-on reset (R621). -/
def State.bootEpoch (s : State) : Nat :=
  let n := s.rd Reg.TOP_BOOTSTAT_BOOT_COUNT [] % 65536
  if n = 0 then 1 else n

/-- An epoch after the advance of R101: one never granted starts from the boot epoch. -/
def State.firstEpoch (s : State) (e : Nat) : Nat := epochNext (if e = 0 then s.bootEpoch else e)

/-- Advance a port's own link epoch (R476 step 1, R621). -/
def advanceLinkEpoch (s : State) (n : Nat) : State :=
  s.wr Reg.CSK_EPOCH_RX_EPOCH [n] (epochNext (s.rd Reg.CSK_EPOCH_RX_EPOCH [n]))

/-- Enter quarantine (R494). -/
def quarantine (s : State) (n : Nat) : State :=
  let s := setPortState (advanceLinkEpoch s n) n psQuarantined
  flushPort (linkRecord (hedgeEvent s (257 + 8 * n) 0) n 0) n

/-- LINK_VIOLATION (R492): log, count, raise source 256 + 8n, owe the partner an answer, and quarantine the port on
the sixteenth entry within the window. `hdr` is the offending packet, when one was read. -/
def linkViolation (s : State) (n code seq : Nat) (hdr : Option Packet) : State :=
  if s.portState n = psQuarantined then s
  else
    let pi := s.rd Reg.CSK_VLOG_PI_PI [n]
    let k := pi % 256
    let w (s : State) (f : Field) (v : Nat) : State := s.wr f [n, k] v
    let s := w (w (w s Reg.CSK_VLOG_TIME s.now) Reg.CSK_VLOG_CODE code) Reg.CSK_VLOG_SEQ seq
    let s := match hdr with
      | some p => w (w (w s Reg.CSK_VLOG_TYPE p.typ) Reg.CSK_VLOG_SRC_DIE p.srcDie) Reg.CSK_VLOG_DST_DIE p.dstDie
      | none => w (w (w s Reg.CSK_VLOG_TYPE 15) Reg.CSK_VLOG_SRC_DIE 0) Reg.CSK_VLOG_DST_DIE 0
    let s := w s Reg.CSK_VLOG_DETAIL 0
    let s := (s.wrapInc Reg.CSK_VLOG_PI_PI [n] 1).satInc Reg.CSK_VIOL_CNT_COUNT [n] 1
    let s := hedgeEvent s (256 + 8 * n) code
    let p := s.port n
    let times := (s.now :: p.violTimes).take 16
    let s := s.setPort n { p with violTimes := times, owedNaks := p.owedNaks ++ [(code, seq)] }
    let s := match hdr with
      | some q => if rtValid (s.rtEntry n q.srcDie) then sendNak s q code 0 else s
      | none => s
    if times.length = 16 ∧ s.now ≤ times.getD 15 0 + usCounts (s.rd Reg.CSK_QWIN_WIN_US [n]) then quarantine s n
    else s

/-! ### Port activation (R496) -/

/-- Whether the partner's die ID stands one step away in the port's direction, with a wrap (R496). -/
def State.wiredRight (s : State) (n : Nat) : Bool :=
  let dim := s.portDim n n
  let me := s.rtEntry n s.self
  let it := s.rtEntry n (s.rd Reg.CSK_PARTNER_ID_DIE [n])
  let ext := s.extent n dim
  let want := if s.portDir n n then (rtCoord me dim + ext - 1) % ext else (rtCoord me dim + 1) % ext
  s.portUsed n n && rtValid it && rtCoord it dim == want &&
    (List.range 3).all (fun d => d == dim || rtCoord it d == rtCoord me d)

/-- The pool sizes in effect (R477). -/
def State.poolSizes (s : State) (n : Nat) : List Nat :=
  let lo (i : Nat) : Nat := s.rdA Reg.CSK_VCMAP_LOW [n, i]
  let hi (i : Nat) : Nat := s.rdA Reg.CSK_VCMAP_HIGH [n, i]
  [lo 0, hi 0, lo 1, hi 1, lo 2, hi 2, lo 3]

/-- The state a trained port that is neither quarantined nor retraining takes: NO_ID, IDLE or ACTIVE (R495, R496).
On entering ACTIVE the receiver grants its free cells under its current epoch. -/
def portEvaluate (s : State) (n : Nat) : State :=
  let p := s.port n
  let st := s.portState n
  if !p.trained ∨ st = psQuarantined ∨ st = psRetraining ∨ st = psOff then s
  else if !s.link.idValid ∨ !p.partnerSeen ∨ !s.on Reg.CSK_PARTNER_ID_ID_VALID [n] then setPortState s n psNoId
  else if s.on Reg.CSK_STAT_ID_CONFLICT [n] then setPortState s n psIdle
  else if s.on Reg.CSK_CTL_ENABLE [n] && s.link.routed && p.partnerEnabled && p.partnerRouted then
    if s.wiredRight n then
      let s := portFlagLevel (s.wr Reg.CSK_STAT_MISWIRED [n] 0) n
      if st = psActive then s
      else
        let free := List.zipWith (· - ·) (s.poolSizes n) p.used
        setPortState (s.setPort n { p with owed := free, credits := [0, 0, 0, 0, 0, 0, 0] }) n psActive
    else
      let s := if s.on Reg.CSK_STAT_MISWIRED [n] then s else linkRecord (s.wr Reg.CSK_STAT_MISWIRED [n] 1) n 4
      setPortState (portFlagLevel s n) n psIdle
  else setPortState s n psIdle

/-! ### Retraining (R476) -/

/-- Start a retrain: the receiver advances its link epoch. -/
def startRetrain (s : State) (n : Nat) : State :=
  let p := s.port n
  if !p.trained ∨ s.portState n = psRetraining ∨ s.portState n = psOff then s
  else
    let s := advanceLinkEpoch s n
    let s := s.setPort n { p with retrainAt := s.now, wantRetrain := true, uncorr := [], retrying := false,
                                  lastRx := (p.rxNext + 65535) % 65536 }
    let s := setPortState (s.satInc Reg.CSK_FEC_RETRAINS [n] 1) n psRetraining
    hedgeEvent s (259 + 8 * n) 0

/-- RETRAIN. -/
def execRetrain (n : Fin 8) (s : State) : Outcome State Fault Refusal :=
  .next (if s.portState n = psQuarantined then s else startRetrain s n)

/-- CSK_RETRAIN_REQUEST: a write of 1 to CSK_CTL.RETRAIN. -/
def execCskRetrainRequest (src : Src) (n : Fin 8) (s : State) : Outcome State Fault Refusal :=
  .next (fwWrite s src (Reg.CSK_CTL_RETRAIN.addr [n]) (fun s => if s.portState n = psQuarantined then s else startRetrain s n))

/-- UNQUAR: effective in Open mode only; the port leaves quarantine and retrains (R494). -/
def execUnquar (src : Src) (n : Fin 8) (s : State) : Outcome State Fault Refusal :=
  .next (fwWrite s src (Reg.CSK_CTL_UNQUAR.addr [n]) (fun s =>
    if s.isOpen && s.portState n == psQuarantined then startRetrain s n else s))

/-- Renumber held blocks from 0. -/
def renumber : Nat → List TxBlock → List TxBlock
  | _, [] => []
  | k, b :: r => { b with seq := k } :: renumber (k + 1) r

/-- RETRAIN_COMPLETE: sequence numbers restart at 0, the blocks after the SEQ that the partner last delivered are
resent, and the free cells of every pool are granted under the new epoch (R476 steps 3-5). -/
def retrainCompleteOp (s : State) (n lastSeq : Nat) : State :=
  if s.portState n ≠ psRetraining then s
  else
    let p := s.port n
    let delivered := p.replay.findIdx? (fun b => b.seq == lastSeq)
    let rest := match delivered with | some i => p.replay.drop (i + 1) | none => p.replay
    let rest := renumber 0 rest
    let s := s.setPort n { p with
      replay := rest, resend := rest.map (·.seq), txSeq := rest.length, rxNext := 0, retrying := false,
      replayCount := 0, wantRetrain := false, credits := [0, 0, 0, 0, 0, 0, 0] }
    portEvaluate (setPortState s n psIdle) n

/-- RETRAIN_COMPLETE. -/
def execRetrainComplete (n : Fin 8) (lastSeq : Nat) (s : State) : Outcome State Fault Refusal :=
  .next (retrainCompleteOp s n lastSeq)

/-- RETRAIN_TIMEOUT: not ACTIVE again within 10 ms, the port goes DOWN and every packet of it is answered
UNREACHABLE (R476). -/
def retrainTimeoutOp (s : State) (n : Nat) : State :=
  if s.portState n = psRetraining ∧ (s.port n).retrainAt + msCounts 10 ≤ s.now then
    let s := s.setPort n { s.port n with trained := false, partnerSeen := false, wantRetrain := false }
    flushPort (linkRecord (setPortState s n psDown) n 1) n
  else s

/-! ### Training (R92, R471) -/

/-- PORT_TRAIN_RETRY: an untrained port starts training again. -/
def portTrainRetryOp (s : State) (n : Nat) : State :=
  if s.portState n = psDown ∧ s.coreUp then setPortState s n psTraining else s

/-- PORT_TRAIN_RETRY. -/
def execPortTrainRetry (n : Fin 8) (s : State) : Outcome State Fault Refusal := .next (portTrainRetryOp s n)

/-- PORT_TRAINED: lane order and polarity are found; a PAM4 port may train on half its lanes. -/
def portTrainedOp (s : State) (n : Nat) (degraded : Bool) : State :=
  if s.portState n = psTraining then
    let s := s.setPort n { s.port n with trained := true }
    let half := degraded && !s.on Reg.CSK_STAT_D2D [n]
    let s := s.wrb Reg.CSK_STAT_DEGRADED [n] half
    portEvaluate (if half then linkRecord s n 2 else s) n
  else s

/-- PORT_TRAINED. -/
def execPortTrained (n : Fin 8) (degraded : Bool) (s : State) : Outcome State Fault Refusal :=
  .next (portTrainedOp s n degraded)

/-! ### LINK messages (R497) -/

/-- A LINK message arrives: the partner's identity, epoch and flags are taken; a quarantined partner shows as
QUARANTINED with PEER_QUAR; a neighbour that announces this die's own ID is a conflict (R484). -/
def linkMessageOp (s : State) (n : Nat) (m : LinkMsg) : State :=
  let p := s.port n
  if !p.trained then s
  else
    let s := s.setPort n { p with partnerSeen := true, partnerEnabled := m.enabled, partnerRouted := m.routeCommitted }
    let s := s.wr Reg.CSK_PARTNER_SERIAL [n] m.serial
    let s := (s.wr Reg.CSK_PARTNER_ID_DIE [n] m.dieId).wr Reg.CSK_PARTNER_ID_PORT [n] m.port
    let s := (s.wr Reg.CSK_PARTNER_ID_PKG_POS [n] m.pkgPos).wr Reg.CSK_PARTNER_ID_ROLE [n] m.role
    let s := s.wrb Reg.CSK_PARTNER_ID_ID_VALID [n] m.idValid
    let s := s.wr Reg.CSK_EPOCH_PEER_EPOCH [n] m.epoch
    let s := s.wrb Reg.CSK_STAT_PARTNER_EN [n] m.enabled
    let s := if m.idValid && s.link.idValid && m.dieId == s.link.dieId then
        portFlagLevel (linkRecord (s.wr Reg.CSK_STAT_ID_CONFLICT [n] 1) n 3) n else s
    if m.quarantine then
      flushPort (setPortState (s.wr Reg.CSK_STAT_PEER_QUAR [n] 1) n psQuarantined) n
    else
      let s := if s.on Reg.CSK_STAT_PEER_QUAR [n] then
          startRetrain (s.wr Reg.CSK_STAT_PEER_QUAR [n] 0) n else s
      let s := if m.retrainReq && s.portState n != psRetraining && s.portState n != psQuarantined then
          startRetrain s n else s
      portEvaluate s n

/-- The message a port sends, with up to four violation answers. -/
def State.ownLinkMsg (s : State) (n : Nat) (serial : Nat) : LinkMsg :=
  let p := s.port n
  { serial := serial, pkgPos := s.rd Reg.TOP_STRAP_PKG_POS [], port := n, role := s.role, dieId := s.link.dieId,
    idValid := s.link.idValid, epoch := s.rd Reg.CSK_EPOCH_RX_EPOCH [n], routeCommitted := s.link.routed,
    enabled := s.on Reg.CSK_CTL_ENABLE [n],
    lastSeq := if s.portState n = psRetraining then p.lastRx else (p.rxNext + 65535) % 65536,
    quarantine := s.portState n == psQuarantined && !s.on Reg.CSK_STAT_PEER_QUAR [n],
    retrainReq := p.wantRetrain, naks := p.owedNaks.take 4 }

/-- A trained port sends its LINK message. -/
def linkMessageSendOp (s : State) (n : Nat) (serial : Nat) : State :=
  let p := s.port n
  if !p.trained then s
  else (s.setPort n { p with owedNaks := p.owedNaks.drop 4 }).emit (.linkMsg n (s.ownLinkMsg n serial))

/-- LINK_MESSAGE_SEND. -/
def execLinkMessageSend (n : Fin 8) (s : State) : Outcome State Fault Refusal :=
  .next (linkMessageSendOp s n s.boot.serial)

/-! ### Receiving blocks (R475, R478) -/

/-- Add cells to a pool's count. -/
def addPool (l : List Nat) (i n : Nat) : List Nat := l.set i (l.getD i 0 + n)

/-- Take cells from a pool's count. -/
def subPool (l : List Nat) (i n : Nat) : List Nat := l.set i (l.getD i 0 - n)

/-- Whether an ACK is inside the window: it names a sent block that is held, or the last one released (R475). -/
def Port.ackOk (p : Port) (ack : Nat) : Bool := (p.txSeq + 131071 - ack) % 65536 ≤ p.replay.length

/-- Release the blocks an ACK covers. -/
def Port.release (p : Port) (ack : Nat) : Port :=
  let keep := (p.txSeq + 131071 - ack) % 65536
  let r := p.replay.drop (p.replay.length - keep)
  { p with replay := r, resend := p.resend.filter (fun q => r.any (fun b => b.seq == q)) }

/-- Take the credit returns of a block header (R474, R478). -/
def Port.addCredits (p : Port) (b : Block) : Port :=
  let c := if b.poolA < 7 then addPool p.credits b.poolA b.cellsA else p.credits
  { p with credits := if b.poolB < 7 then addPool c b.poolB b.cellsB else c }

/-- Give one whole packet, read from the wire, to the routing stage or refuse it (R491). -/
def acceptPacket (s : State) (n seq : Nat) (q : Packet) : State :=
  if malformed q then linkViolation s n 1 seq (some q)
  else if s.misrouted n q then linkViolation s n 5 seq (some q)
  else
    let p := s.port n
    let pool := pktPool q
    let cells := 1 + q.len
    if (s.poolSizes n).getD pool 0 < p.used.getD pool 0 + cells then linkViolation s n 2 seq (some q)
    else
      let s := s.setPort n { p with used := addPool p.used pool cells }
      { s with link := { s.link with routeQ := s.link.routeQ ++ [⟨q, n, s.now⟩] } }

/-- Take the next cell of the stream: a PAD, a header, or a body cell of the packet being assembled. -/
def takeCell (n seq : Nat) (s : State) (cell : List Byte) : State :=
  let p := s.port n
  match p.rxCells with
  | [] =>
    if fieldAt cell 0 1 % 16 = 0 then s
    else
      let q := cellPacket cell []
      let s := s.wrapInc Reg.CSK_RXCELLS_COUNT [n] 1
      if q.len = 0 then acceptPacket s n seq q else s.setPort n { p with rxCells := [cell] }
  | h :: body =>
    let s := s.wrapInc Reg.CSK_RXCELLS_COUNT [n] 1
    let q := cellPacket h []
    let body := body ++ [cell]
    if body.length < q.len then s.setPort n { p with rxCells := h :: body }
    else acceptPacket (s.setPort n { p with rxCells := [] }) n seq (cellPacket h body.flatten)

/-- The 16-byte cells of a frame area. -/
def frameCells (frame : List Byte) : List (List Byte) := (List.range 25).map (fun i => (frame.drop (16 * i)).take 16)

/-- The index of the first header a frame should show, given the cells still owed to the packet in assembly. -/
def Port.expectHdr (p : Port) (cells : List (List Byte)) : Nat :=
  let owed := match p.rxCells with | [] => 0 | h :: b => bitsOf (fieldAt h 1 1) 0 5 - b.length
  match ((cells.drop owed).findIdx? (fun c => fieldAt c 0 1 % 16 != 0)) with
  | some i => owed + i
  | none => 31

/-- Deliver the cells of an accepted block; a FIRST_HDR that disagrees is MALFORMED, and cells are then discarded up
to the next FIRST_HDR (R491, R492). -/
def deliverCells (s : State) (n : Nat) (b : Block) : State :=
  let p := s.port n
  let cells := frameCells b.frame
  let start (s : State) (k : Nat) : State :=
    (cells.drop k).foldl (takeCell n b.seq) (s.setPort n { s.port n with rxCells := [], skipping := false })
  if p.skipping then (if b.firstHdr < 25 then start s b.firstHdr else s)
  else if p.expectHdr cells = b.firstHdr then cells.foldl (takeCell n b.seq) s
  else
    let s := linkViolation s n 1 b.seq none
    if b.firstHdr < 25 then start s b.firstHdr else s.setPort n { s.port n with rxCells := [], skipping := true }

/-- An uncorrectable block is discarded and answered with RETRY; 64 of them within 1 ms start a retrain (R473,
R475, R476). -/
def uncorrectableBlock (s : State) (n : Nat) : State :=
  let p := s.port n
  let times := s.now :: p.uncorr.filter (fun t => s.now < t + msCounts 1)
  let s := s.satInc Reg.CSK_FEC_UNCORR [n] 1
  let s := s.setPort n { p with uncorr := times, retrying := true }
  if 64 ≤ times.length then startRetrain s n else s

/-- What every received block does before its KIND is looked at: none when the block is discarded. -/
def blockPrologue (s : State) (n : Nat) (b : Block) : State × Bool :=
  let p := s.port n
  if !p.trained ∨ s.portState n = psQuarantined ∨ s.portState n = psRetraining then (s, false)
  else if b.uncorrectable then (uncorrectableBlock s n, false)
  else
    let s := s.wrapInc Reg.CSK_FEC_CORR [n] b.corrected
    if b.epoch ≠ s.rd Reg.CSK_EPOCH_RX_EPOCH [n] then (linkViolation s n 3 b.seq none, false)
    else if !p.ackOk b.ack then (linkViolation s n 4 b.seq none, false)
    else (s.setPort n (((s.port n).release b.ack).addCredits b), true)

/-- A DATA or IDLE block arrives (R475). -/
def dataBlockOp (s : State) (n : Nat) (b : Block) : State :=
  if b.kind ≠ 0 then (blockPrologue s n b).1
  else if (s.port n).trained && s.portState n != psActive && s.portState n != psQuarantined
      && s.portState n != psRetraining && !b.uncorrectable then linkViolation s n 6 b.seq none
  else
    let (s, ok) := blockPrologue s n b
    if !ok then s
    else
      let p := s.port n
      let d := (b.seq + 65536 - p.rxNext) % 65536
      if d = 0 then deliverCells (s.setPort n { p with rxNext := (p.rxNext + 1) % 65536, retrying := false }) n b
      else if d ≤ 255 then s.setPort n { p with retrying := true }
      else if 65536 - 256 ≤ d then s
      else linkViolation s n 4 b.seq none

/-- A RETRY block makes the transmitter resend from ACK + 1 in order; a SEQ already replayed four times without
being accepted starts a retrain (R475, R476). -/
def retryBlockOp (s : State) (n : Nat) (b : Block) : State :=
  let (s, ok) := blockPrologue s n b
  if !ok then s
  else
    let p := s.port n
    match p.replay with
    | [] => s
    | f :: _ =>
      let count := if p.replaySeq = f.seq then p.replayCount + 1 else 1
      if 4 < count then startRetrain s n
      else (s.satInc Reg.CSK_REPLAY_COUNT [n] p.replay.length).setPort n
        { p with resend := p.replay.map (·.seq), replaySeq := f.seq, replayCount := count }

/-! ### Transmitting blocks (R470, R474) -/

/-- Multiplication in GF(2^8) with the field polynomial of R473. -/
def gfMul : Nat → Nat → Nat → Nat
  | 0, _, _ => 0
  | k + 1, a, b =>
    (if b % 2 = 1 then a else 0) ^^^ gfMul k (if a < 128 then 2 * a else (2 * a) ^^^ 0x11D) (b / 2)

/-- The generator polynomial with roots α⁰ to α¹⁵, highest coefficient first (R473). -/
def rsGen : List Nat :=
  (List.range 16).foldl (fun g i =>
    let r := (List.range i).foldl (fun x _ => gfMul 8 x 2) 1
    List.zipWith (· ^^^ ·) (g ++ [0]) (0 :: g.map (fun c => gfMul 8 c r))) [1]

/-- The 16 parity symbols of one codeword's data. -/
def rsParity (data : List Nat) : List Nat :=
  data.foldl (fun reg d =>
    let fb := d ^^^ reg.headD 0
    List.zipWith (· ^^^ ·) (reg.drop 1 ++ [0]) ((rsGen.drop 1).map (fun c => gfMul 8 c fb))) (List.replicate 16 0)

/-- Interleave two lists. -/
def interleave : List Nat → List Nat → List Nat
  | a :: as, b :: bs => a :: b :: interleave as bs
  | _, _ => []

/-- The elements at even places. -/
def evens {α : Type} : List α → List α
  | a :: _ :: r => a :: evens r
  | [a] => [a]
  | [] => []

/-- The 448 bytes of a block on the wire: header, frame area and interleaved parity (R473, R474). -/
def blockBytes (kind seq ack epoch : Nat) (ret : List (Nat × Nat)) (firstHdr : Nat) (frame : List Byte) : List Byte :=
  let r (i : Nat) : Nat := match ret[i]? with | some (p, c) => p + 16 * c | none => 15
  let data := [BitVec.ofNat 8 kind, 0] ++ leBytes 2 seq ++ leBytes 2 ack ++ leBytes 2 epoch ++ leBytes 2 (r 0)
    ++ leBytes 2 (r 1) ++ [BitVec.ofNat 8 firstHdr, 0, 0, 0] ++ padTo 400 frame
  let n := data.map (·.toNat)
  data ++ (interleave (rsParity (evens n)) (rsParity (evens (n.drop 1)))).map (BitVec.ofNat 8)

/-- The credit returns of the next header: at most two pools, at most 4,095 cells each. -/
def Port.returns (p : Port) : List (Nat × Nat) :=
  (((List.range 7).filter (fun i => p.owed.getD i 0 != 0)).take 2).map (fun i => (i, min 4095 (p.owed.getD i 0)))

/-- The port without the credits it is returning. -/
def Port.payReturns (p : Port) (r : List (Nat × Nat)) : Port :=
  { p with owed := r.foldl (fun o e => subPool o e.1 e.2) p.owed }

/-- The credits a queued packet needs before its first cell: all its cells, and for a CTL packet entering the ESC
channel two (R480). -/
def State.creditsFor (s : State) (n : Nat) (q : QPkt) : Nat :=
  if pktClass q.pkt.typ = 3 then
    (if q.inPort < 8 ∧ s.portDim n q.inPort = s.portDim n n then 1 else 2)
  else 1 + q.pkt.len

/-- Pull queued packets into cells while fewer than 25 cells are ready, each packet only with credit for all its
cells; answers the port and the packets begun with the cell index of each header. -/
def pullPackets (s : State) (n : Nat) : Nat → Port → List (Nat × Packet) → Port × List (Nat × Packet)
  | 0, p, acc => (p, acc)
  | fuel + 1, p, acc =>
    if 25 ≤ p.txCells.length then (p, acc)
    else match p.queue.findIdx? (fun q => decide (s.creditsFor n q ≤ p.credits.getD (pktPool q.pkt) 0)) with
      | none => (p, acc)
      | some i =>
        match p.queue[i]? with
        | none => (p, acc)
        | some q =>
          let cells := headerCell q.pkt :: frameCells (padTo 400 q.pkt.body) |>.take (1 + q.pkt.len)
          pullPackets s n fuel { p with
            queue := p.queue.eraseIdx i, credits := subPool p.credits (pktPool q.pkt) (1 + q.pkt.len),
            txCells := p.txCells ++ cells } (acc ++ [(p.txCells.length, q.pkt)])

/-- The function that a packet's cells are sent for: the holder of the sending agent's plot on this die, else the PF
(R606). -/
def State.pktFunc (s : State) (p : Packet) : Nat :=
  if p.srcDie = s.self ∧ p.srcAgent < 192 then s.plotHolder (agentStop p.srcAgent) else 0

/-- A port transmits its next block (R470, R475): a replayed block, a RETRY while it waits for one, a DATA block
when cells are ready and fewer than 256 blocks are unacknowledged, otherwise an IDLE block; at least one IDLE in
every 4,096 blocks. -/
def blockTransmitOp (s : State) (n : Nat) : State :=
  let p := s.port n
  if s.portState n ≠ psActive then s
  else
    let ack := (p.rxNext + 65535) % 65536
    let ep := s.rd Reg.CSK_EPOCH_PEER_EPOCH [n]
    let ret := p.returns
    let p1 := p.payReturns ret
    match p1.resend with
    | q :: rest =>
      match p1.replay.find? (fun b => b.seq == q) with
      | some b => (s.setPort n { p1 with resend := rest }).emit
          (.block n (blockBytes 0 b.seq ack ep ret b.firstHdr b.frame))
      | none => s.setPort n { p1 with resend := rest }
    | [] =>
      if p1.retrying then (s.setPort n p1).emit (.block n (blockBytes 3 0 ack ep ret 31 []))
      else
        let (p2, begun) := pullPackets s n 26 p1 []
        if 256 ≤ p1.replay.length ∨ 4095 ≤ p1.sinceIdle ∨ p2.txCells.isEmpty then
          (s.setPort n { p1 with sinceIdle := 0 }).emit (.block n (blockBytes 1 0 ack ep ret 31 []))
        else
          let now := p2.txCells.take 25
          let here := begun.filter (fun e => e.1 < 25)
          let fh := match here with | e :: _ => e.1 | [] => 31
          let frame := padTo 400 now.flatten
          let b : TxBlock := ⟨p2.txSeq, fh, frame, begun.map (·.2)⟩
          let s := s.setPort n { p2 with
            txCells := p2.txCells.drop 25, replay := p2.replay ++ [b], txSeq := (p2.txSeq + 1) % 65536,
            sinceIdle := p2.sinceIdle + 1 }
          let s := begun.foldl (fun s e => cellActivity s (s.pktFunc e.2) (1 + e.2.len)) s
          (s.wrapInc Reg.CSK_TXCELLS_COUNT [n] now.length).emit
            (.block n (blockBytes 0 b.seq ack ep ret fh frame))

/-- BLOCK_TRANSMIT. -/
def execBlockTransmit (n : Fin 8) (s : State) : Outcome State Fault Refusal := .next (blockTransmitOp s n)

/-! ### Routing (R488) and packet lifetime (R622) -/

/-- Return the cells a packet held in its arrival port's pool (R478). -/
def returnCells (s : State) (q : QPkt) : State :=
  if q.inPort < 8 then
    let p := s.port q.inPort
    let pool := pktPool q.pkt
    s.setPort q.inPort { p with used := subPool p.used pool (1 + q.pkt.len), owed := addPool p.owed pool (1 + q.pkt.len) }
  else s

/-- The virtual channel a packet leaves on (R488 step 3). -/
def State.nextVc (s : State) (n : Nat) (q : QPkt) (out : Nat) : Nat :=
  if pktClass q.pkt.typ = 3 then 2
  else if (q.inPort < 8 ∧ q.pkt.vc = 1 ∧ s.portDim n q.inPort = s.portDim n out) ∨ s.dateline n out then 1
  else 0

/-- Route one packet of the routing stage: to the local agents, to an output queue, or back as UNREACHABLE. -/
def routeOne (s : State) (q : QPkt) : State :=
  let n := if q.inPort < 8 then q.inPort else 0
  let s := returnCells s q
  let s := if q.inPort < 8 then flit s (24 + q.inPort) else s
  if q.pkt.dstDie = s.self then { s with link := { s.link with inbox := s.link.inbox ++ [q] } }
  else match s.outPort n q.pkt with
    | none => answerUnreachable s (if rtValid (s.rtEntry n q.pkt.dstDie) then rtPort (s.rtEntry n q.pkt.dstDie) else q.inPort) q.pkt
    | some out =>
      let p := s.port out
      s.setPort out { p with queue := p.queue ++ [{ q with pkt := { q.pkt with vc := s.nextVc n q out } }] }

/-- PACKET_LIFETIME_EXPIRY: packet `i`, counted over the routing stage and then the output queues in port order, has
waited 1 ms and is discarded with UNREACHABLE (R622). -/
def lifetimeExpiryOp (s : State) (i : Nat) : State :=
  let old (q : QPkt) : Bool := decide (q.time + msCounts 1 ≤ s.now)
  let rec go (s : State) (n fuel i : Nat) : State :=
    match fuel with
    | 0 => s
    | fuel + 1 =>
      let p := s.port n
      if i < p.queue.length then
        match p.queue[i]? with
        | some q => if old q then answerUnreachable (s.setPort n { p with queue := p.queue.eraseIdx i }) n q.pkt else s
        | none => s
      else go s (n + 1) fuel (i - p.queue.length)
  if i < s.link.routeQ.length then
    match s.link.routeQ[i]? with
    | some q =>
      if old q then
        answerUnreachable (returnCells { s with link := { s.link with routeQ := s.link.routeQ.eraseIdx i } } q)
          q.inPort q.pkt
      else s
    | none => s
  else go s 0 8 (i - s.link.routeQ.length)

/-- PACKET_LIFETIME_EXPIRY. -/
def execPacketLifetimeExpiry (i : Nat) (s : State) : Outcome State Fault Refusal := .next (lifetimeExpiryOp s i)

/-! ### The checks of LINK_ROUTE (R485, R487) -/

/-- Byte `i` of a routing-table buffer. -/
def rb (buf : List Byte) (i : Nat) : Nat := fieldAt buf i 1

/-- Whether entry `d` of a buffer is VALID, and its fields. -/
def rbValid (buf : List Byte) (d : Nat) : Bool := bitOf (rb buf (64 + 4 * d + 3)) 0
def rbCoord (buf : List Byte) (d dim : Nat) : Nat := rb buf (64 + 4 * d + dim)
def rbPort (buf : List Byte) (d : Nat) : Nat := bitsOf (rb buf (64 + 4 * d + 3)) 1 3

/-- Whether the topology and extents meet R485. -/
def topoOk (buf : List Byte) : Bool :=
  let x := rb buf 1 + 1
  let y := rb buf 2 + 1
  let z := rb buf 3 + 1
  match rb buf 0 with
  | 0 => 2 ≤ x && x ≤ 256 && y == 1 && z == 1
  | 1 => 2 ≤ x && x ≤ 16 && 2 ≤ y && y ≤ 16 && z == 1
  | 2 => 2 ≤ x && x ≤ 4 && 2 ≤ y && y ≤ 8 && 2 ≤ z && z ≤ 8
  | _ => false

/-- The direction (dimension, minus) that the route rule of R487 gives for entry `d`. -/
def routeRule (buf : List Byte) (d : Nat) : Option (Nat × Bool) :=
  let self := rb buf 4
  ((List.range 3).find? (fun k => rbCoord buf d k != rbCoord buf self k)).map (fun k =>
    let n := rb buf (1 + k) + 1
    let δ := (rbCoord buf d k + n - rbCoord buf self k) % n
    (k, decide (n - δ < δ)))

/-- Whether port `p` of a buffer serves direction (dim, minus), with a given PAIR. -/
def rbServes (buf : List Byte) (p dim : Nat) (minus pair : Bool) : Bool :=
  let a := rb buf (8 + p)
  bitOf a 4 && bitsOf a 0 2 == dim && bitOf a 2 == minus && bitOf a 3 == pair

/-- Attributes of port `p` that break check 3. -/
def rbAttrBad (buf : List Byte) (p : Nat) : Bool :=
  let a := rb buf (8 + p)
  let dim := bitsOf a 0 2
  let minus := bitOf a 2
  bitOf a 4 && (dim == 3 ||
    decide (2 < ((List.range 8).filter (fun q => rbServes buf q dim minus false || rbServes buf q dim minus true)).length)
    || (bitOf a 3 && !(List.range 8).any (fun q => rbServes buf q dim minus false)))

/-- The first failing check of R487, as its VALUE; none when the table is accepted. -/
def routeCheck (buf : List Byte) : Option Nat :=
  let self := rb buf 4
  if !topoOk buf || !rbValid buf self then some 0xFFFF
  else
    let bad2 (d : Nat) : Bool := rbValid buf d &&
      ((List.range 3).any (fun k => rb buf (1 + k) + 1 ≤ rbCoord buf d k)
       || (List.range d).any (fun e => rbValid buf e && (List.range 3).all (fun k => rbCoord buf e k == rbCoord buf d k)))
    match (List.range 256).find? bad2 with
    | some d => some d
    | none =>
      match (List.range 8).find? (rbAttrBad buf) with
      | some p => some (256 + p)
      | none =>
        (List.range 256).find? (fun d => rbValid buf d && d != self &&
          (match routeRule buf d with
           | some (k, minus) => !rbServes buf (rbPort buf d) k minus false
           | none => false))

end Sys2Proof.Machine
end

