-- ==== Sys2Proof/Machine/StoreOps.lean ====
section
/-! DEFINITION. The stores of a plot (R256-R276): rows, tags, poison, the coalescer, and the reads and writes that
every agent makes of them. A write completes when it is issued, unless it stands in an open coalescer entry. -/

namespace Sys2Proof.Machine

/-! ### Rows and tags -/

/-- A plot. -/
def State.plot (s : State) (p : Nat) : Plot := FMap.get s.plots {} p

/-- Replace a plot. -/
def State.setPlot (s : State) (p : Nat) (x : Plot) : State := { s with plots := FMap.set s.plots {} p x }

/-- Change a plot's stores. -/
def State.setSto (s : State) (p : Nat) (x : Stores) : State := s.setPlot p { s.plot p with sto := x }

/-- The key of a row. -/
def rowKey (st row : Nat) : Nat := st * 65536 + row

/-- The rows of store `st` of plot `p` (R257). -/
def State.storeRows (s : State) (p st : Nat) : Nat :=
  if st = 0 then s.rd Reg.PLT_CAP_WS_ROWS [p]
  else if st = 1 then s.rd Reg.PLT_CAP_AS_ROWS [p]
  else if st = 2 then s.rd Reg.PLT_CAP_PS_ROWS [p] else 0

/-- A row of zeros. -/
def zeroRow : List Byte := fill 256 0

/-- What a row that nothing has written reads: zero after a clear, undefined data before (R273, R284). -/
def State.rowDefault (s : State) (p st row : Nat) : List Byte :=
  if (s.plot p).sto.known then zeroRow
  else (List.range 256).map (fun i => Config.storeByte s.storeGen (64 * (s.plot p).sto.gen + 4 * p + st) row i)

/-- The bytes of a row in its bank: always 256. -/
def State.rowBytes (s : State) (p st row : Nat) : List Byte :=
  match FMap.find (s.plot p).sto.rows (rowKey st row) with
  | some l => padTo 256 l
  | none => s.rowDefault p st row

/-- Put bytes in the bank; a row equal to what it would read unwritten is not listed. -/
def putRow (s : State) (p st row : Nat) (data : List Byte) : State :=
  let x := (s.plot p).sto
  s.setSto p { x with rows := FMap.set x.rows (s.rowDefault p st row) (rowKey st row) data }

/-- Whether a row's tag is FULL (R263, R266). -/
def State.tagFull (s : State) (p st row : Nat) : Bool :=
  match FMap.find (s.plot p).sto.tags (rowKey st row) with
  | some b => b
  | none => !(s.plot p).sto.tagsKnown && Config.storeTag s.storeGen (64 * (s.plot p).sto.gen + 4 * p + st) row

/-- Set a row's tag. -/
def setTag (s : State) (p st row : Nat) (full : Bool) : State :=
  let x := (s.plot p).sto
  s.setSto p { x with tags :=
    if x.tagsKnown ∧ !full then FMap.erase x.tags (rowKey st row) else FMap.put x.tags (rowKey st row) full }

/-- Bytes of a code word: 16 in WS, 8 in AS and PS (R256). -/
def codeWordBytes (st : Nat) : Nat := if st = 0 then 16 else 8

/-- Whether a row holds a poisoned code word (R275). -/
def State.rowPoisoned (s : State) (p st row : Nat) : Bool :=
  (s.plot p).sto.poison.any (fun x => x.1 == rowKey st row)

/-- Clear the poison of the code words of a row that satisfy a test. -/
def clearPoison (s : State) (p st row : Nat) (covered : Nat → Bool) : State :=
  let x := (s.plot p).sto
  s.setSto p { x with poison := x.poison.filter (fun e => !(e.1 == rowKey st row && covered e.2)) }

/-! ### Coalescer (R269-R271) -/

/-- SB_WS: the open coalescer entries of the Weight Store (R261). -/
def showScoreboard (s : State) (p : Nat) : State :=
  s.wr Reg.STO_STAT_SB_WS [p] ((s.plot p).sto.coal.filter (fun e => e.store == 0)).length

/-- The bytes of a row with words replaced. -/
def mergeWords (l : List Byte) (words : FMap Nat) : List Byte :=
  words.foldl (fun l w => l.take (4 * w.1) ++ leBytes 4 w.2 ++ l.drop (4 * w.1 + 4)) l

/-- Whether the words of an entry cover code word `cw` of store `st` wholly. -/
def coversWord (st : Nat) (words : FMap Nat) (cw : Nat) : Bool :=
  let n := codeWordBytes st / 4
  (List.range n).all (fun i => FMap.has words (n * cw + i))

/-- Flush an entry: its valid words are merged into the row; a code word covered wholly loses its poison (R270). -/
def flushEntry (s : State) (p : Nat) (e : CoalEntry) : State :=
  let x := (s.plot p).sto
  let s := s.setSto p { x with coal := x.coal.filter (fun d => !(d.store == e.store && d.row == e.row)) }
  let s := putRow s p e.store e.row (mergeWords (s.rowBytes p e.store e.row) e.words)
  showScoreboard (clearPoison s p e.store e.row (coversWord e.store e.words)) p

/-- The open entry of a row. -/
def State.entryOf (s : State) (p st row : Nat) : Option CoalEntry :=
  (s.plot p).sto.coal.find? (fun e => e.store == st && e.row == row)

/-- Flush the open entry of a row, if any. -/
def flushRow (s : State) (p st row : Nat) : State :=
  match s.entryOf p st row with
  | some e => flushEntry s p e
  | none => s

/-- Flush every open entry of a plot: a FENCE of any scope (R270). -/
def flushAll (s : State) (p : Nat) : State := (s.plot p).sto.coal.foldl (fun s e => flushEntry s p e) s

/-- The 4-byte words of a byte string, numbered from `w`. -/
def wordsFrom : Nat → Nat → List Byte → FMap Nat
  | 0, _, _ => []
  | _, _, [] => []
  | k + 1, w, l => (w, leNat (l.take 4)) :: wordsFrom k (w + 1) (l.drop 4)

/-! ### Reads and writes -/

/-- The outcome of a row read: no such row, waiting for FULL, poisoned, or the data. -/
inductive RowRead where
  | range | wait | poison
  | ok (data : List Byte)
  deriving DecidableEq, Repr

/-- The outcome of a row write: no such row, waiting for EMPTY, or done. -/
inductive RowWrite where
  | range | wait | ok
  deriving DecidableEq, Repr

/-- Tag operations of R263: 0 NONE, 1 WAIT, 2 TAKE, 3 FILL. -/
def tagNone : Nat := 0
def tagFill : Nat := 3

/-- Read a row with a tag operation: the open entry of the row flushes first, a WAIT or TAKE waits for FULL, a TAKE
leaves the row EMPTY (R262, R263, R275). -/
def readRow (s : State) (p st row tag : Nat) : State × RowRead :=
  if s.storeRows p st ≤ row then (s, .range)
  else
    let s := flushRow s p st row
    if (tag = 1 ∨ tag = 2) ∧ !s.tagFull p st row then (s, .wait)
    else if s.rowPoisoned p st row then (s, .poison)
    else
      let d := s.rowBytes p st row
      (if tag = 2 then setTag s p st row false else s, .ok d)

/-- Whether a write with a tag operation has to wait: a FILL of a FULL row (R264). -/
def State.fillWaits (s : State) (p st row tag : Nat) : Bool := tag == tagFill && s.tagFull p st row

/-- Write a whole row: an open entry of the row flushes first, poison is cleared, a FILL sets FULL (R269, R275). -/
def writeRow (s : State) (p st row tag : Nat) (data : List Byte) : State × RowWrite :=
  if s.storeRows p st ≤ row then (s, .range)
  else if s.fillWaits p st row tag then (s, .wait)
  else
    let s := putRow (flushRow s p st row) p st row (padTo 256 data)
    let s := clearPoison s p st row (fun _ => true)
    (if tag = tagFill then setTag s p st row true else s, .ok)

/-- Merge words into the coalescer (R269): into the row's open entry or a new one, the least recently written entry
flushing when all 16 are open; the entry flushes when it is whole or the write carries FILL. -/
def writeWords (s : State) (p st row ctx tag : Nat) (words : FMap Nat) : State × RowWrite :=
  if s.storeRows p st ≤ row then (s, .range)
  else if s.fillWaits p st row tag then (s, .wait)
  else
    let s := match s.entryOf p st row with
      | some _ => s
      | none =>
        match (s.plot p).sto.coal with
        | e :: _ => if 16 ≤ (s.plot p).sto.coal.length then flushEntry s p e else s
        | [] => s
    let old := (s.entryOf p st row).getD ⟨st, row, [], [], 0⟩
    let e : CoalEntry := { old with
      ctxs := if old.ctxs.contains ctx then old.ctxs else ctx :: old.ctxs
      words := words.foldl (fun m w => FMap.put m w.1 w.2) old.words
      time := s.now }
    let x := (s.plot p).sto
    let s := s.setSto p { x with coal := x.coal.filter (fun d => !(d.store == st && d.row == row)) ++ [e] }
    let s := showScoreboard s p
    let s := if 64 ≤ e.words.length ∨ tag = tagFill then flushEntry s p e else s
    (if tag = tagFill then setTag s p st row true else s, .ok)

/-! ### Error reports (R273-R275) -/

/-- Record the first store error and raise its source (R259, R275). -/
def storeError (s : State) (p kind st row agent ctx : Nat) : State :=
  if s.on Reg.STO_ERR_VALID [p] then s
  else
    let s := (s.wr Reg.STO_ERR_KIND [p] kind).wr Reg.STO_ERR_STORE [p] st
    let s := (s.wr Reg.STO_ERR_ROW [p] row).wr Reg.STO_ERR_AGENT [p] agent
    let s := (s.wr Reg.STO_ERR_CTX [p] (if agent ≤ 2 then ctx else 0)).wr Reg.STO_ERR_TIME [p] s.now
    hedgeLevel (s.wr Reg.STO_ERR_VALID [p] 1) (64 + 8 * p + 2) true 0

/-- What the check code of a row read finds (R274, R275): a corrected error is counted, a bad code word that is not
yet poisoned is marked, counted and recorded. -/
def storeEcc (s : State) (p st row agent ctx : Nat) (ecc : EccEvent) : State :=
  match ecc with
  | .clean => s
  | .corrected => s.satInc Reg.STO_ECC_CNT_CE [p] 1
  | .uncorrectable w =>
    let cw := w % (256 / codeWordBytes st)
    let x := (s.plot p).sto
    if x.poison.contains (rowKey st row, cw) then s
    else
      let s := s.setSto p { x with poison := (rowKey st row, cw) :: x.poison }
      let s := memRecord s (32 * (rowKey st row + 2 ^ 18 * p) + cw) 0 p agent (s.plotHolder p) row
        (if agent ≤ 2 then Status.jobFault.code else 0)
      storeError (s.satInc Reg.STO_ECC_CNT_UE [p] 1) p 0 st row agent ctx

/-- The bytes of `n` consecutive rows as they stand, with open entries flushed; none when a row is out of range or
poisoned. -/
def readRows (s : State) (p st row tag : Nat) : Nat → State × RowRead
  | 0 => (s, .ok [])
  | n + 1 =>
    match readRow s p st row tag with
    | (s, .ok d) =>
      (match readRows s p st (row + 1) tag n with
       | (s, .ok r) => (s, .ok (d ++ r))
       | (s, x) => (s, x))
    | (s, x) => (s, x)

/-- Whether `n` consecutive rows can be read now with a tag operation. -/
def State.rowsReady (s : State) (p st row tag : Nat) (n : Nat) : Bool :=
  (List.range n).all (fun i => (tag ≠ 1 ∧ tag ≠ 2) || s.tagFull p st (row + i))

/-- The first row of a run that a FILL has to wait for. -/
def State.firstFull (s : State) (p st row n : Nat) : Nat :=
  ((List.range n).find? (fun i => s.tagFull p st (row + i))).getD 0 + row

/-- The first row of a run that waits for FULL. -/
def State.firstEmpty (s : State) (p st row n : Nat) : Nat :=
  ((List.range n).find? (fun i => !s.tagFull p st (row + i))).getD 0 + row

end Sys2Proof.Machine
end

