-- ==== Sys2Proof/Machine/JobCore.lean ====
section
/-! DEFINITION. What every part of the compute core shares: the sections of a bundle (R207, R208), the state that a
Rake context shows (R290), local quiescence (R389-R392), context faults (R325) and the end of a job (R202-R204,
R397, R635). -/

namespace Sys2Proof.Machine

open Host (Outcome)

/-! ### Bundles -/

/-- The section of a type in a bundle: offset, length and COUNT (R207). -/
def sectionOf (b : List Byte) (typ : Nat) : Option (Nat × Nat × Nat) :=
  ((List.range (fieldAt b 6 2)).find? (fun i => fieldAt b (64 + 16 * i) 1 == typ)).map
    (fun i => (fieldAt b (68 + 16 * i) 4, fieldAt b (72 + 16 * i) 4, fieldAt b (76 + 16 * i) 4))

/-- The bytes of a section; none of them when it is absent. -/
def sectionBytes (b : List Byte) (typ : Nat) : List Byte :=
  match sectionOf b typ with
  | some (o, n, _) => (b.drop o).take n
  | none => []

/-- The fixed-size records of a section. -/
def records (b : List Byte) (typ size : Nat) : List (List Byte) :=
  match sectionOf b typ with
  | some (o, _, n) => (List.range n).map (fun i => (b.drop (o + size * i)).take size)
  | none => []

/-- Records of variable length: `size` gives a record's length from its bytes on. -/
def varRecords (size : List Byte → Nat) : Nat → List Byte → List (List Byte)
  | 0, _ => []
  | n + 1, l => l.take (size l) :: varRecords size n (l.drop (size l))

/-- The PROGRAM records of a bundle (R208). -/
def programs (b : List Byte) : List (List Byte) :=
  match sectionOf b 2 with
  | some (_, _, n) => varRecords (fun l => 16 + 16 * fieldAt l 4 2) n (sectionBytes b 2)
  | none => []

/-- The LAYOUT records (R208). -/
def layouts (b : List Byte) : List (List Byte) :=
  match sectionOf b 3 with
  | some (_, _, n) => varRecords (fun l => 16 + 8 * fieldAt l 10 2) n (sectionBytes b 3)
  | none => []

/-- Bit `i` of a mask held in bytes. -/
def maskBit (l : List Byte) (at' i : Nat) : Bool := bitOf (fieldAt l (at' + i / 8) 1) (i % 8)

/-- The dies of RUN (R208). -/
def runDies (b : List Byte) : List Nat := (List.range 256).filter (maskBit (sectionBytes b 1) 0)

/-- JOB_ID and LEADER. -/
def jobId (b : List Byte) : Nat := fieldAt b 8 4
def leader (b : List Byte) : Nat := fieldAt (sectionBytes b 1) 32 1

/-- Whether this die leads the job: the leader of RUN, or the one die of a bundle that runs on any die. -/
def State.leads (s : State) (b : List Byte) : Bool := fieldAt b 12 1 == 0xFF || leader b == s.self

/-- The entry point of a context, if the bundle names it (R208). -/
def entryPoint (b : List Byte) (p c : Nat) : Option Nat :=
  match (programs b).find? (fun r => fieldAt r 0 1 == p) with
  | some r => let e := fieldAt r (6 + 2 * c) 2
              if e = 0xFFFF then none else some e
  | none => none

/-! ### Contexts -/

/-- A context. -/
def State.ctx (s : State) (p c : Nat) : Ctx := FMap.get (s.plot p).ctxs {} c

/-- Replace a context. -/
def State.setCtx (s : State) (p c : Nat) (x : Ctx) : State :=
  s.setPlot p { s.plot p with ctxs := FMap.set (s.plot p).ctxs {} c x }

/-- STATE of RKE_CTX_c: 0 HALTED, 1 RUNNING, 2 BLOCKED, 3 FAULTED. -/
def State.ctxState (s : State) (p c : Nat) : Nat := s.rd Reg.RKE_CTX_STATE [p, c]

/-- Whether a context runs its program. -/
def State.ctxLive (s : State) (p c : Nat) : Bool := s.ctxState p c == 1 || s.ctxState p c == 2

/-- WAIT_ARG of a TAG wait for FULL; a wait for EMPTY carries a mark above it that the register does not show. -/
def tagArg (st row : Nat) : Nat := row + 2 ^ 16 * st
def fillArg (st row : Nat) : Nat := tagArg st row + 2 ^ 18

/-- WAIT_ARG as the register shows it. -/
def shownArg (k a : Nat) : Nat := if k = 1 then a % 2 ^ 18 else a

/-- Show a live context: BLOCKED with the kind and argument of what it waits for, or RUNNING (R290). -/
def showCtx (s : State) (p c : Nat) : State :=
  if s.ctxLive p c then
    let x := s.ctx p c
    match x.wait <|> x.bg with
    | some (k, a) =>
      ((s.wr Reg.RKE_CTX_STATE [p, c] 2).wr Reg.RKE_CTX_WAIT_KIND [p, c] k).wr Reg.RKE_CTX_WAIT_ARG [p, c]
        (shownArg k a)
    | none =>
      ((s.wr Reg.RKE_CTX_STATE [p, c] 1).wr Reg.RKE_CTX_WAIT_KIND [p, c] 0).wr Reg.RKE_CTX_WAIT_ARG [p, c] 0
  else (s.wr Reg.RKE_CTX_WAIT_KIND [p, c] 0).wr Reg.RKE_CTX_WAIT_ARG [p, c] 0

/-- The current instruction of a context waits (R290); kinds: 1 TAG, 2 CREDIT, 3 SIGNAL, 4 ARRAY, 5 GATHER, 6 FENCE,
7 DMA, 8 SCOREBOARD. -/
def setWait (s : State) (p c kind arg : Nat) : State :=
  showCtx (s.setCtx p c { s.ctx p c with wait := some (kind, arg) }) p c

/-- The current instruction no longer waits. -/
def clearWait (s : State) (p c : Nat) : State := showCtx (s.setCtx p c { s.ctx p c with wait := none }) p c

/-- A store access or remote write that the context started waits in the background, or no longer does. -/
def setBg (s : State) (p c : Nat) (w : Option (Nat × Nat)) : State :=
  showCtx (s.setCtx p c { s.ctx p c with bg := w }) p c

/-- Whether a wait of a context is over: its row is FULL or EMPTY, a credit is held, its counter has reached COUNT,
its channel holds no pending descriptor. -/
def State.waitOver (s : State) (p c k a : Nat) : Bool :=
  match k with
  | 1 => s.tagFull p (bitsOf a 16 2) (bitsOf a 0 15) == decide (a < 2 ^ 18)
  | 2 => s.rd Reg.RKE_CRD_CREDITS [p, a] != 0
  | 3 => decide (bitsOf a 16 16 ≤ s.rd Reg.RKE_SIG_COUNT [p, c, a % 8])
  | 7 => (FMap.get (s.plot p).chans {} a).pend.isNone
  | _ => false

/-- A context whose wait is over no longer shows it. -/
def wakeCtx (s : State) (p c : Nat) : State :=
  let x := s.ctx p c
  let ended (w : Option (Nat × Nat)) : Bool := match w with | some (k, a) => s.waitOver p c k a | none => false
  if ended x.wait ∨ ended x.bg then
    showCtx (s.setCtx p c { x with
      wait := if ended x.wait then none else x.wait, bg := if ended x.bg then none else x.bg }) p c
  else s

/-- Every context of the die. -/
def wakeAll (s : State) : State :=
  (List.range 64).foldl (fun s e => wakeCtx s (e / 4) (e % 4)) s

/-- The load slot of the job that holds a plot. -/
def State.job (s : State) (j : Nat) : Job := FMap.get s.jobs {} j
def State.setJob (s : State) (j : Nat) (x : Job) : State := { s with jobs := FMap.set s.jobs {} j x }
def State.jobOf (s : State) (p : Nat) : Option Nat :=
  (List.range 16).find? (fun j => (s.job j).loaded && bitOf (s.job j).plots p)

/-- The function that a plot works for. -/
def State.plotFunc (s : State) (p : Nat) : Nat :=
  match s.jobOf p with
  | some j => (s.job j).func
  | none => s.plotHolder p

/-! ### Local quiescence (R389-R392) -/

/-- Whether slot `g` is armed. -/
def State.armed (s : State) (g : Nat) : Bool := s.on Reg.TOP_QD_GRP_EN [g]

/-- The member plots of slot `g` on this die. -/
def State.members (s : State) (g : Nat) : List Nat :=
  (List.range 16).filter (bitOf (s.rd Reg.TOP_QD_GRP_PLOTS [g]))

/-- The row of a window's oldest outstanding offset, as (store, row). -/
def State.oldestRow (s : State) (p w : Nat) : Nat × Nat :=
  let n := s.rd Reg.STO_WIN_ROWS [p, w]
  let o := (s.rd Reg.STO_WINSTAT_NEXT_OFF [p, w] + n - s.rd Reg.STO_WINSTAT_OUTSTANDING [p, w]) % max n 1
  (s.rd Reg.STO_WIN_STORE [p, w], s.rd Reg.STO_WIN_BASE_ROW [p, w] + o)

/-- Whether an inbound window owes its producer a credit (R281). -/
def State.owesCredit (s : State) (p w : Nat) : Bool :=
  s.on Reg.STO_WIN_EN [p, w] && s.rd Reg.STO_WINSTAT_OUTSTANDING [p, w] != 0
    && !s.tagFull p (s.oldestRow p w).1 (s.oldestRow p w).2

/-- Whether a counted operation of a plot is in flight (R390). -/
def State.plotBusy (s : State) (p : Nat) : Bool :=
  s.flights.any (fun f => f.ctx / 4 == p)
    || !(s.plot p).sto.coal.isEmpty
    || [(s.plot p).arr.p0, (s.plot p).arr.p1].any
        (fun x => x.held && x.drain.isSome && (s.ctx p x.ctx).bg.isNone)
    || (List.range 8).any (fun h =>
        let x := FMap.get (s.plot p).chans {} h
        x.cur.isSome || x.pend.isSome)
    || (List.range 4).any (fun c =>
        !(s.ctx p c).gslots.isEmpty || (s.ctx p c).colls != 0 || !(s.ctx p c).sigs.isEmpty)
    || (List.range 16).any (s.owesCredit p)

/-- Whether the batch queue of the job that holds a plot is empty: no batch waits to run (R391). -/
def State.batchQueueEmpty (s : State) (p : Nat) : Bool :=
  match s.jobOf p with
  | some j => ((s.job j).batches.filter (fun b => b.phase < 2)).isEmpty
  | none => true

/-- R391. -/
def State.suspended (s : State) (g : Nat) : Bool :=
  let p := s.rd Reg.TOP_QD_GRP_FEED_PLOT [g]
  let c := s.rd Reg.TOP_QD_GRP_FEED_CTX [g]
  s.on Reg.TOP_QD_GRP_FEED_EN [g] && s.ctxState p c == 2 && s.rd Reg.RKE_CTX_WAIT_KIND [p, c] == 3
    && s.rd Reg.RKE_CTX_WAIT_ARG [p, c] % 8 == 7 && s.batchQueueEmpty p

/-- R389. -/
def State.quiescent (s : State) (g : Nat) : Bool :=
  let ok (p c : Nat) : Bool :=
    s.ctxState p c == 0 || (s.ctxState p c == 2 && s.rd Reg.RKE_CTX_WAIT_KIND [p, c] ≤ 3)
  s.armed g && (s.members g).all (fun p => (List.range 4).all (ok p))
    && (s.members g).any (fun p => (List.range 4).any (fun c => s.ctxState p c == 2))
    && (s.members g).all (fun p => !s.plotBusy p) && !s.suspended g

/-- The detector's own state of a slot. -/
def State.qslot (s : State) (g : Nat) : QSlot := FMap.get s.qd {} g
def State.setQslot (s : State) (g : Nat) (x : QSlot) : State := { s with qd := FMap.set s.qd {} g x }

/-- Follow local quiescence of slot `g`: entering it starts the window, leaving it advances GEN (R392, R393). -/
def qdFollow (s : State) (g : Nat) : State :=
  let now := s.quiescent g
  let was := s.on Reg.TOP_QD_GST_QUIET [g]
  let s := s.wrb Reg.TOP_QD_GST_SUSPENDED [g] (s.armed g && s.suspended g)
  if now = was then s
  else
    let s := (s.wrb Reg.TOP_QD_GST_QUIET [g] now).wr Reg.TOP_QD_GST_REPORTED [g] 0
    if now then s.setQslot g { s.qslot g with since := s.now, window := usCounts (s.rd Reg.TOP_QD_WIN_WIN_US [g]) }
    else s.wrapInc Reg.TOP_QD_GST_GEN [g] 1

/-- Every slot follows. -/
def qdRefresh (s : State) : State := (List.range 16).foldl qdFollow s

/-- The outcome of a command of the compute core: its effect; contexts whose waits are over show it, and the detector
slots follow. -/
def nextQ (s : State) : Outcome State Fault Refusal := .next (qdRefresh (wakeAll s))

/-- Write EN = 0 to a detector slot: it changes EN alone (R383). -/
def qdDisarmOp (s : State) (g : Nat) : State :=
  let s := (s.wr Reg.TOP_QD_GRP_EN [g] 0).wr Reg.TOP_QD_GST_ARMED [g] 0
  let s := if s.on Reg.TOP_QD_GST_QUIET [g] then s.wrapInc Reg.TOP_QD_GST_GEN [g] 1 else s
  let s := (s.wr Reg.TOP_QD_GST_QUIET [g] 0).wr Reg.TOP_QD_GST_SUSPENDED [g] 0
  (s.wr Reg.TOP_QD_GST_REPORTED [g] 0).setQslot g {}

/-! ### Halting -/

/-- PLT_ARR_STAT as the array stands (07_plot_array_vector). -/
def showArray (s : State) (p cls : Nat) (fast : Bool) : State :=
  let a := (s.plot p).arr
  let s := s.wrb Reg.PLT_ARR_STAT_BUSY [p] a.owner.isSome
  let s := (s.wr Reg.PLT_ARR_STAT_CLASS [p] (if a.owner.isSome then cls else 0)).wr Reg.PLT_ARR_STAT_CTX [p]
    (a.owner.getD 0)
  let s := s.wrb Reg.PLT_ARR_STAT_SHADOW_READY [p] a.shadow.key.isSome
  let s := (s.wrb Reg.PLT_ARR_STAT_PLANE0_HELD [p] a.p0.held).wr Reg.PLT_ARR_STAT_PLANE0_CTX [p] a.p0.ctx
  let s := (s.wrb Reg.PLT_ARR_STAT_PLANE1_HELD [p] a.p1.held).wr Reg.PLT_ARR_STAT_PLANE1_CTX [p] a.p1.ctx
  s.wrb Reg.PLT_ARR_STAT_FAST [p] (a.owner.isSome && fast)

/-- SIV_STAT as the buffers of Sieve `i` stand. -/
def showSieve (s : State) (i : Nat) : State :=
  let n := (s.sieves.filter (fun e => e.1 / 4 == i)).length
  (s.wr Reg.SIV_STAT_BUFFERS [i] n).wrb Reg.SIV_STAT_BUSY [i] (n != 0)

/-- Drop what a context has in the Sieves and in collectives: its batches and exchanges end with it. -/
def dropWork (s : State) (p c : Nat) : State :=
  let g := s.graft
  let s := { s with
    sieves := s.sieves.filter (fun e => !(e.2.plot == p && e.2.ctx == c))
    graft := { g with
      colls := FMap.erase g.colls (4 * p + c)
      rx := FMap.erase g.rx (4 * p + c)
      egress := g.egress.map (fun e => (e.1, e.2.filter (fun d => d.rwrite || d.pkt.srcAgent != 4 * p + c))) } }
  showSieve (showSieve s 0) 1

/-- Halt a context: it stops where it is and its captured descriptor sets are discarded (R204). -/
def haltCtx (s : State) (p : Nat) (c : Nat) : State :=
  if p < 16 ∧ c < 4 then
    let s := dropSet (dropSet s (.rkeDt (Fin.ofNat 16 p) (Fin.ofNat 4 c))) (.vec (Fin.ofNat 16 p) (Fin.ofNat 4 c))
    let s := (dropWork s p c).setCtx p c { s.ctx p c with
      walk := none, wait := none, bg := none, fence := none, halting := false, progress := 0, gslots := [], colls := 0,
      inBytes := [], held := [], outRows := [], sigs := [] }
    let live := s.ctxLive p c
    let s := if live then s.wr Reg.RKE_CTX_STATE [p, c] 0 else s
    let s := showCtx s p c
    if live then hedgeEvent s (64 + 8 * p + 1) c else s
  else s

/-- Stop what a plot does: its contexts halt, the array gives up its tile and its planes, the DMA channels stop and
rows waiting for credits are dropped. Contents stay (R283). -/
def haltPlot (s : State) (p : Nat) : State :=
  let s := (List.range 4).foldl (fun s c => haltCtx s p c) s
  let x := s.plot p
  let p0 : Plane := { x.arr.p0 with held := false, drain := none }
  let p1 : Plane := { x.arr.p1 with held := false, drain := none }
  let a : MArray := { x.arr with owner := none, step := 0, plane := none, p0 := p0, p1 := p1 }
  let s := s.setPlot p { x with chans := [], rq := [], arr := a }
  showArray s p 0 false

/-- Disable every inbound window of a plot (R277). -/
def closeWindows (s : State) (p : Nat) : State :=
  (List.range 16).foldl (fun s w => s.wr Reg.STO_WIN_EN [p, w] 0) s

/-! ### Entries of the Graft units (R501) -/

/-- Entry `k` (unit × 256 + slot). -/
def State.gent (s : State) (k : Nat) : Option GEntry := FMap.find s.graft.entries k
def State.setGent (s : State) (k : Nat) (e : GEntry) : State :=
  { s with graft := { s.graft with entries := FMap.put s.graft.entries k e } }

/-- Words of scale memory that an entry uses: one for each scale, one more with a zero point, one for each table
entry; new scales that a captured image names use theirs until it takes effect (R520). -/
def GEntry.words (e : GEntry) : Nat :=
  let new : Nat := match e.cap with
    | some (_, sc, zp) => if sc = e.scales ∧ zp = e.zp then 0 else sc.length * (if zp then 2 else 1)
    | none => 0
  e.scales.length * (if e.zp then 2 else 1) + e.books.length + new

/-- The scale memory of a unit in words, and its entries (R501). -/
def graftWords : Nat := 16384
def graftSlots : Nat := 256

/-- The entries of unit `n`. -/
def State.gentsOf (s : State) (n : Nat) : List (Nat × GEntry) := s.graft.entries.filter (fun e => e.1 / 256 == n)

/-- Scale memory free in unit `n`. -/
def State.graftFree (s : State) (n : Nat) : Nat := graftWords - ((s.gentsOf n).map (fun e => e.2.words)).sum

/-- The rung that a run starts at: STICKY keeps it between the runs of a collective (R516). -/
def GEntry.startRung (e : GEntry) : Nat :=
  if fieldAt e.img 5 1 = 0 ∧ !bitOf (fieldAt e.img 11 1) 3 then 0 else e.rung

/-- The 64 bytes that GRF_ENT shows of entry `k` with `n` effective scales. -/
def GEntry.image (e : GEntry) (k n : Nat) : List Byte :=
  e.img.take 44 ++ leBytes 4 (Config.scaleWord k).val ++ leBytes 4 n ++ leBytes 1 e.startRung ++ fill 11 0

/-- GRF_STAT of unit `n`, and its mirror of the selected entry, as the entries stand. -/
def showGraft (s : State) (n : Nat) : State :=
  let s := (s.wr Reg.GRF_STAT_ENTRIES [n] (s.gentsOf n).length).wr Reg.GRF_STAT_FREE [n] (s.graftFree n)
  let s := s.wrb Reg.GRF_STAT_BUSY [n] (!(FMap.get s.graft.egress [] n).isEmpty)
  let k := 256 * n + s.rd Reg.GRF_ESEL_SLOT [n]
  match s.gent k with
  | some e =>
    let b := e.image k e.scales.length
    (List.range 16).foldl (fun s i => s.wr Reg.GRF_ENT_WORD.mirror [n, i] (fieldAt b (4 * i) 4)) s
  | none => (List.range 16).foldl (fun s i => s.wr Reg.GRF_ENT_WORD.mirror [n, i] 0) s

/-- Every unit. -/
def showGrafts (s : State) : State := (List.range 8).foldl showGraft s

/-- Remove the entries that a job installed from its own bundle on this die (R501). -/
def dropJobEntries (s : State) (job : Nat) : State :=
  let g := s.graft
  showGrafts { s with graft := { g with entries := g.entries.filter (fun e => !(e.2.jobId == job && e.2.leader == s.self)) } }

/-! ### The end of a job -/

/-- The plots of a job. -/
def Job.plotList (x : Job) : List Nat := (List.range 16).filter (bitOf x.plots)

/-- A job handle (R197a). -/
def Job.handle (x : Job) (j : Nat) : Nat := j + 256 * x.gen

/-- The body of JOB_WAIT (R202). -/
def Job.waitBody (x : Job) : List Byte :=
  leBytes 8 x.changedAt ++ leBytes 8 x.steps ++ leBytes 4 x.faultAt ++ leBytes 4 x.faultIdx
    ++ (if x.final = Status.deadlock.code then padTo 96 x.snap else [])

/-- The message lifetime of R622 in counts: 1 ms × (H + 1), H the longest route that the extents of the routing table
in effect allow. -/
def State.lifetime (s : State) : Nat :=
  let h := if s.link.routed then (List.range 3).foldl (fun a d => a + s.extent 0 d / 2) 0 else 0
  msCounts (h + 1)

/-- Stage a result with a status code. -/
def State.finishCode (s : State) (f i st : Nat) (body : List Byte) : State :=
  match s.cmd? f i with
  | some c => s.setCmd { c with started := true, waiting := false, result := some (st, body) }
  | none => s

/-- Every JOB_WAIT that waits on load slot `j` posts (R202). -/
def postWaits (s : State) (j : Nat) : State :=
  let x := s.job j
  (s.mbx.cmds.filter (fun c => c.opcode == 0x204 && c.waiting && fieldAt c.desc 8 2 == x.handle j && c.func == x.func)).foldl
    (fun s c => s.finishCode c.func c.slot x.final x.waitBody) s

/-- Array steps of a job's plots since its start (R202). -/
def State.jobSteps (s : State) (x : Job) : Nat :=
  x.plotList.foldl (fun a p =>
    a + (s.rd Reg.PLT_STEPS_COUNT [p] + 2 ^ 64 - FMap.get x.steps0 0 p) % 2 ^ 64) 0

/-- The dies that authorise leases for a job's agents: the destinations of its credit counters and the owners of its
update plans, and for the leader the dies it installed records on (R628). -/
def State.noticeDies (s : State) (b : List Byte) : List Nat :=
  let crd := (records b 6 16).map (fun r => fieldAt r 4 1)
  let upd := match sectionOf b 10 with
    | some (_, _, n) =>
      (varRecords (fun l => 16 + (fieldAt l 6 1 + fieldAt l 7 1 + 15) / 16 * 16) n (sectionBytes b 10)).flatMap
        (fun r => (List.range (fieldAt r 7 1)).map (fun i => fieldAt r (16 + fieldAt r 6 1 + i) 1))
    | none => []
  ((crd ++ upd).eraseDups).filter (fun d => d != s.self)

/-- Send a release notice for every pipeline group of a job to every die that authorises a lease for it (R628). -/
def sendReleases (s : State) (b : List Byte) : State :=
  (records b 7 48).foldl (fun s g =>
    let gtag := fieldAt g 0 2
    let ep := ((List.range 16).find? (fun k => s.rd Reg.TOP_QD_GRP_GTAG [k] == gtag)).map
      (fun k => s.rd Reg.TOP_QD_GRP_EPOCH [k])
    (s.noticeDies b).foldl (fun s d =>
      injectPkt s { ctlPacket 14 d s.self 192 192 (ep.getD 0)
        (2 + 2 ^ 16 * gtag + 2 ^ 32 * jobId b) with vc := 0, first := true, last := true }) s) s

/-- The batches of a job end with it (R203): a batch whose outputs were all written posts its own completion later,
every other one posts ABORTED. -/
def endBatches (s : State) (j : Nat) : State :=
  let x := s.job j
  let gone := x.batches.filter (fun b => b.phase < 3)
  let s := s.setJob j { x with batches := x.batches.filter (fun b => 3 ≤ b.phase) }
  gone.foldl (fun s b => s.failCmd b.func b.slot .aborted 0xFFFF 0 0) s

/-- A running job ends on this die with a final status (R202-R204, R325, R397, R635). -/
def endJob (s : State) (j : Nat) (st : Status) : State :=
  let x := s.job j
  if !x.loaded ∨ x.state ≠ 1 then s
  else
    let s := x.plotList.foldl haltPlot s
    let s := x.plotList.foldl closeWindows s
    let s := dropJobEntries s (jobId x.bundle)
    let s := sendReleases s x.bundle
    let s := x.groups.foldl qdDisarmOp s
    let hold := if st = .ok then msCounts 1 else s.lifetime
    let s := x.plotList.foldl (fun s p => { s with plotHold := FMap.put s.plotHold p (s.now + hold) }) s
    let s := s.setJob j { x with
      state := 2, final := st.code, changedAt := s.now, steps := s.jobSteps x, groups := [], start := none,
      aborting := false, aborts := [] }
    let s := if st = .ok then s else endBatches s j
    let s := x.aborts.foldl (fun s a => s.finish a.1 a.2 .ok []) s
    let s := postWaits s j
    if st = .ok then s
    else
      let g := (records x.bundle 7 48).headD []
      faultRecord s 1 (leBytes 2 (x.handle j) ++ leBytes 1 x.func ++ leBytes 1 s.role ++ leBytes 2 st.code
        ++ leBytes 2 (fieldAt g 0 2) ++ leBytes 4 x.faultAt ++ leBytes 4 x.faultIdx ++ leBytes 1 s.self)

/-- A context faults (R325): the first record stands, the context is FAULTED, and a running job that holds the plot
ends with the status given. -/
def ctxFaultAs (s : State) (p c cause arg : Nat) (st : Status) : State :=
  let s := if s.on Reg.RKE_ERR_VALID [p] then s
    else
      let s := (s.wr Reg.RKE_ERR_CAUSE [p] cause).wr Reg.RKE_ERR_CTX [p] c
      let s := (s.wr Reg.RKE_ERR_PC [p] (s.rd Reg.RKE_CTX_PC [p, c])).wr Reg.RKE_ERR_ARG [p] arg
      hedgeLevel (s.wr Reg.RKE_ERR_VALID [p] 1) (64 + 8 * p) true 0
  if s.ctxState p c = 3 then s
  else
    let s := (dropWork s p c).setCtx p c { s.ctx p c with
      walk := none, wait := none, bg := none, fence := none, halting := false, gslots := [], colls := 0,
      inBytes := [], held := [], outRows := [], sigs := [] }
    let s := showCtx (s.wr Reg.RKE_CTX_STATE [p, c] 3) p c
    let a := (s.plot p).arr
    let s := if a.owner = some c then
        showArray (s.setPlot p { s.plot p with arr := { a with owner := none, plane := none, step := 0 } }) p 0 false
      else s
    let s := hedgeEvent s (64 + 8 * p + 1) (c + 4)
    match s.jobOf p with
    | none => s
    | some j =>
      let x := s.job j
      let s := if x.state = 1 ∧ x.faultAt = 0 then s.setJob j { x with faultAt := p + 256 * c } else s
      endJob s j st

/-- A context faults and its job ends with JOB_FAULT. -/
def ctxFault (s : State) (p c cause arg : Nat) : State := ctxFaultAs s p c cause arg .jobFault

/-- BAD_FIELD with the field byte (R325). -/
def badField (s : State) (p c byte : Nat) : State := ctxFault s p c 2 byte

/-- RANGE of a store access, recorded in STO_ERR as well (R259). -/
def rangeFault (s : State) (p c agent st row : Nat) : State :=
  ctxFault (storeError s p 1 st row agent c) p c 6 (tagArg st row)

/-- POISON of a store row (R275). -/
def poisonFault (s : State) (p c : Nat) : State := ctxFault s p c 18 0

/-- MODE: R242, R243, R371. -/
def modeFault (s : State) (p c : Nat) : State :=
  let s := ((s.wr Reg.PLT_ARR_ERR_MODE_FAULT [p] 1).wr Reg.PLT_ARR_ERR_CTX [p] c).satInc Reg.PLT_ARR_ERR_COUNT [p] 1
  ctxFault (hedgeLevel s (64 + 8 * p + 4) true 0) p c 7 0

end Sys2Proof.Machine
end

