-- ==== Sys2Proof/Machine/Num.lean ====
section
/-! DEFINITION. Numbers: exact values, the rounding modes of R356 and R357, the storage formats of R326 with their
decoding (R332-R336) and encoding (R344), block scales (R340, R346), the extended accumulator form (R304), FP32
arithmetic under R366-R369, and the stochastic streams of R359. -/

namespace Sys2Proof.Machine

/-- An exact value: a NaN or an infinity with its sign, or (−1)^neg × mag × 2^exp, a zero keeping its sign. -/
inductive Num where
  | nan (neg : Bool)
  | inf (neg : Bool)
  | fin (neg : Bool) (mag : Nat) (exp : Int)
  deriving DecidableEq, Repr

/-- +0. -/
def zeroNum : Num := .fin false 0 0

/-- The rounding modes of R356 (the draw stands with the stochastic mode), rounding toward +∞ of a magnitude (R346)
and to nearest with ties away from zero (Graft units). -/
inductive Rnd where
  | rne | zero | stoch (draw : Nat) | trunc | up | away
  deriving DecidableEq, Repr

/-- What a conversion counts (R364). -/
structure NumEv where
  sat : Nat := 0
  ovf : Nat := 0
  nanLoss : Nat := 0
  flushIn : Nat := 0
  flushOut : Nat := 0
  deriving DecidableEq, Repr

/-- Both counts together. -/
def NumEv.add (a b : NumEv) : NumEv :=
  ⟨a.sat + b.sat, a.ovf + b.ovf, a.nanLoss + b.nanLoss, a.flushIn + b.flushIn, a.flushOut + b.flushOut⟩

/-! ### Exact arithmetic -/

def Num.neg? : Num → Bool
  | .nan n => n
  | .inf n => n
  | .fin n _ _ => n

def Num.isNan : Num → Bool
  | .nan _ => true
  | _ => false

def Num.isInf : Num → Bool
  | .inf _ => true
  | _ => false

def Num.isZero : Num → Bool
  | .fin _ 0 _ => true
  | _ => false

/-- The value with its sign changed. -/
def Num.negate : Num → Num
  | .nan n => .nan (!n)
  | .inf n => .inf (!n)
  | .fin n m e => .fin (!n) m e

/-- The magnitude. -/
def Num.abs : Num → Num
  | .nan _ => .nan false
  | .inf _ => .inf false
  | .fin _ m e => .fin false m e

/-- The integer with a sign and a magnitude. -/
def signed (neg : Bool) (m : Nat) : Int := if neg then -(m : Int) else (m : Int)

/-- `m × 2^k` for `k ≥ 0`. -/
def shiftUp (m : Nat) (k : Int) : Nat := m * 2 ^ k.toNat

/-- The value of an integer. -/
def ofInt (i : Int) : Num := .fin (i < 0) i.natAbs 0

/-- The exact product; a NaN operand's sign wins in order, 0 × ∞ is a positive NaN (R366). -/
def Num.mul (a b : Num) : Num :=
  match a, b with
  | .nan n, _ => .nan n
  | _, .nan n => .nan n
  | .inf n, .inf m => .inf (n != m)
  | .inf n, .fin m k _ => if k = 0 then .nan false else .inf (n != m)
  | .fin n k _, .inf m => if k = 0 then .nan false else .inf (n != m)
  | .fin n k e, .fin m l f => .fin (n != m) (k * l) (e + f)

/-- The exact sum; ∞ − ∞ is a positive NaN, x + (−x) is +0 and −0 + −0 is −0 (R366, R369). -/
def Num.add (a b : Num) : Num :=
  match a, b with
  | .nan n, _ => .nan n
  | _, .nan n => .nan n
  | .inf n, .inf m => if n = m then .inf n else .nan false
  | .inf n, .fin _ _ _ => .inf n
  | .fin _ _ _, .inf n => .inf n
  | .fin n k e, .fin m l f =>
    if k = 0 ∧ l = 0 then .fin (n && m) 0 0
    else
      let q := min e f
      let v := signed n (shiftUp k (e - q)) + signed m (shiftUp l (f - q))
      .fin (v < 0) v.natAbs q

/-- The exact fused multiply-add a × b + c; the sign of the first NaN operand wins. -/
def Num.fma (a b c : Num) : Num :=
  match a, b, c with
  | .nan n, _, _ => .nan n
  | _, .nan n, _ => .nan n
  | _, _, .nan n => .nan n
  | _, _, _ => (a.mul b).add c

/-- Whether `a < b` as real numbers; false with a NaN, and −0 equals +0 (R369). -/
def Num.lt (a b : Num) : Bool :=
  match a, b with
  | .nan _, _ => false
  | _, .nan _ => false
  | .inf n, .inf m => n && !m
  | .inf n, .fin _ _ _ => n
  | .fin _ _ _, .inf m => !m
  | .fin n k e, .fin m l f =>
    let q := min e f
    signed n (shiftUp k (e - q)) < signed m (shiftUp l (f - q))

/-- Whether `a = b` as real numbers; false with a NaN. -/
def Num.eqv (a b : Num) : Bool := !a.isNan && !b.isNan && !a.lt b && !b.lt a

/-- Maximum under R368: −0 < +0; `ignore` selects NAN_IGNORE. -/
def Num.maxOf (ignore : Bool) (a b : Num) : Num :=
  match a, b with
  | .nan n, .nan _ => .nan n
  | .nan n, _ => if ignore then b else .nan n
  | _, .nan n => if ignore then a else .nan n
  | _, _ => if a.lt b then b else if b.lt a then a else if a.neg? then b else a

/-- Minimum under R368. -/
def Num.minOf (ignore : Bool) (a b : Num) : Num :=
  match a, b with
  | .nan n, .nan _ => .nan n
  | .nan n, _ => if ignore then b else .nan n
  | _, .nan n => if ignore then a else .nan n
  | _, _ => if a.lt b then a else if b.lt a then b else if a.neg? then a else b

/-! ### Rounding -/

/-- ⌊log₂ (num / den)⌋ for positive `num`, `den`. -/
def log2Rat (num den : Nat) : Int :=
  let a : Int := (Nat.log2 num : Int) - (Nat.log2 den : Int)
  let big := if 0 ≤ a then den * 2 ^ a.toNat ≤ num else den ≤ num * 2 ^ (-a).toNat
  if big then a else a - 1

/-- Units of 2^q that the magnitude num/den × 2^e rounds to. -/
def roundAt (r : Rnd) (num den : Nat) (e q : Int) : Nat :=
  let sh := e - q
  let n := if 0 ≤ sh then num * 2 ^ sh.toNat else num
  let d := if 0 ≤ sh then den else den * 2 ^ (-sh).toNat
  let u := n / d
  let rem := n % d
  match r with
  | .rne => if d < 2 * rem ∨ (2 * rem = d ∧ u % 2 = 1) then u + 1 else u
  | .zero => u
  | .trunc => u
  | .stoch draw => if 2 ^ 24 ≤ rem * 2 ^ 24 / d + draw then u + 1 else u
  | .up => if 0 < rem then u + 1 else u
  | .away => if d ≤ 2 * rem then u + 1 else u

/-- Round to `p` significand bits with smallest normal exponent `emin` (none: unbounded): units and their exponent. -/
def roundMag (r : Rnd) (p : Nat) (emin : Option Int) (num den : Nat) (e : Int) : Nat × Int :=
  let l := log2Rat num den + e
  let q0 := l - ((p : Int) - 1)
  let q := match emin with
    | some m => max q0 (m - ((p : Int) - 1))
    | none => q0
  (roundAt r num den e q, q)

/-- Round an exact value to a significand of `p` bits with the extended exponent range; a zero is +0 (R235, R355,
R369). -/
def roundSig (r : Rnd) (p : Nat) : Num → Num
  | .fin n m e =>
    if m = 0 then zeroNum
    else
      let x := roundMag r p none m 1 e
      if x.1 = 0 then zeroNum else .fin n x.1 x.2
  | .nan _ => .nan false
  | x => x

/-! ### Storage formats -/

/-- A floating-point format (R332): exponent and mantissa widths, bias, and its specials: 0 none, 1 infinities and
NaNs, 2 NaN only (F8E4M3). -/
structure FloatFmt where
  e : Nat
  m : Nat
  bias : Nat
  special : Nat
  deriving DecidableEq, Repr

def fp32 : FloatFmt := ⟨8, 23, 127, 1⟩
def fp16 : FloatFmt := ⟨5, 10, 15, 1⟩
def bf16 : FloatFmt := ⟨8, 7, 127, 1⟩
def f8e4m3 : FloatFmt := ⟨4, 3, 7, 2⟩

/-- The floating-point format of a format code (R326, R332). -/
def floatFmt : Nat → Option FloatFmt
  | 0 => some fp32
  | 1 => some fp16
  | 2 => some bf16
  | 3 => some f8e4m3
  | 4 => some ⟨5, 2, 15, 1⟩
  | 5 => some ⟨3, 2, 3, 0⟩
  | 6 => some ⟨2, 3, 1, 0⟩
  | 7 => some ⟨2, 1, 1, 0⟩
  | _ => none

/-- The width in bits of a format code; 0 for an unassigned one (R326). -/
def fmtBits : Nat → Nat
  | 0 => 32 | 1 => 16 | 2 => 16 | 3 => 8 | 4 => 8 | 5 => 6 | 6 => 6 | 7 => 4 | 8 => 8
  | 9 => 32 | 0xA => 16 | 0xB => 8 | 0xC => 8 | 0xD => 4 | 0xE => 4 | 0xF => 4 | 0x10 => 8 | _ => 0

/-- The format codes of integers with their ranges. -/
def intRange : Nat → Option (Int × Int)
  | 8 => some (-127, 127)
  | 9 => some (-2147483648, 2147483647)
  | 0xA => some (-32768, 32767)
  | 0xB => some (-128, 127)
  | 0xC => some (0, 255)
  | 0xD => some (-8, 7)
  | 0xE => some (0, 15)
  | _ => none

/-- Whether an integer format is unsigned. -/
def fmtUnsigned (f : Nat) : Bool := f == 0xC || f == 0xE

/-- The value that a floating-point code holds (R332, R333). -/
def FloatFmt.decode (f : FloatFmt) (c : Nat) : Num :=
  let s := bitOf c (f.e + f.m)
  let e := bitsOf c f.m f.e
  let m := bitsOf c 0 f.m
  if f.special = 1 ∧ e = 2 ^ f.e - 1 then (if m = 0 then .inf s else .nan s)
  else if f.special = 2 ∧ e = 2 ^ f.e - 1 ∧ m = 2 ^ f.m - 1 then .nan s
  else if e = 0 then .fin s m (1 - (f.bias : Int) - f.m)
  else .fin s (2 ^ f.m + m) ((e : Int) - f.bias - f.m)

/-- Whether a code is a nonzero subnormal. -/
def FloatFmt.subnormal (f : FloatFmt) (c : Nat) : Bool := bitsOf c f.m f.e == 0 && bitsOf c 0 f.m != 0

/-- The integer that a code of `w` bits holds. -/
def intCode (w : Nat) (uns : Bool) (c : Nat) : Int :=
  if uns ∨ c % 2 ^ w < 2 ^ (w - 1) then ((c % 2 ^ w : Nat) : Int) else ((c % 2 ^ w : Nat) : Int) - 2 ^ w

/-- The value of a code in a format without codebook (R333-R335): MXI8 counts in 2⁻⁶. -/
def decodeFmt (f c : Nat) : Num :=
  match floatFmt f with
  | some x => x.decode c
  | none =>
    match ofInt (intCode (fmtBits f) (fmtUnsigned f) c) with
    | .fin n m e => if f = 8 ∧ m ≠ 0 then .fin n m (e - 6) else .fin n m e
    | x => x

/-- Decode under a subnormal mode: the value and the inputs flushed (R333, R362). -/
def decodeFlush (flush : Bool) (f c : Nat) : Num × Nat :=
  match floatFmt f with
  | some x =>
    if flush && x.subnormal c then (.fin (bitOf c (x.e + x.m)) 0 0, 1) else (x.decode c, 0)
  | none => (decodeFmt f c, 0)

/-- The largest finite value of a floating-point format as (magnitude, exponent). -/
def FloatFmt.maxFin (f : FloatFmt) : Nat × Int :=
  if f.special = 1 then (2 ^ (f.m + 1) - 1, (2 ^ f.e - 2 : Int) - f.bias - f.m)
  else if f.special = 2 then (2 ^ (f.m + 1) - 2, (2 ^ f.e - 1 : Int) - f.bias - f.m)
  else (2 ^ (f.m + 1) - 1, (2 ^ f.e - 1 : Int) - f.bias - f.m)

/-- The code of (−1)^s × u × 2^q for a value the format holds exactly. -/
def FloatFmt.code (f : FloatFmt) (s : Bool) (u : Nat) (q : Int) : Nat :=
  let sg := if s then 2 ^ (f.e + f.m) else 0
  let x := if u = 2 ^ (f.m + 1) then (2 ^ f.m, q + 1) else (u, q)
  if x.1 < 2 ^ f.m then sg + x.1
  else sg + 2 ^ f.m * (x.2 + f.m + f.bias).toNat + (x.1 - 2 ^ f.m)

/-- The code of the largest finite value with a sign. -/
def FloatFmt.maxCode (f : FloatFmt) (s : Bool) : Nat := f.code s f.maxFin.1 f.maxFin.2

/-- The canonical NaN (R366). -/
def FloatFmt.nanCode (f : FloatFmt) (s : Bool) : Nat :=
  let sg := if s then 2 ^ (f.e + f.m) else 0
  if f.special = 1 then sg + 2 ^ f.m * (2 ^ f.e - 1) + 2 ^ (f.m - 1)
  else if f.special = 2 then sg + 2 ^ (f.e + f.m) - 1
  else 0

/-- The infinity of a format that has one. -/
def FloatFmt.infCode (f : FloatFmt) (s : Bool) : Nat := (if s then 2 ^ (f.e + f.m) else 0) + 2 ^ f.m * (2 ^ f.e - 1)

/-- Whether finite overflow of a format is an OVF (FP32, FP16, BF16) and not a saturation (R344, R364). -/
def FloatFmt.wide (f : FloatFmt) : Bool := f.special == 1 && f.m != 2

/-- Encode the finite magnitude num/den × 2^e with a sign (R344 steps 3-5). -/
def FloatFmt.encodeFin (f : FloatFmt) (r : Rnd) (flush s : Bool) (num den : Nat) (e : Int) : Nat × NumEv :=
  if num = 0 then (if s then 2 ^ (f.e + f.m) else 0, {})
  else
    let emin : Int := 1 - f.bias
    let x := roundMag r (f.m + 1) (some emin) num den e
    let mx := f.maxFin
    let q := min x.2 mx.2
    if shiftUp mx.1 (mx.2 - q) < shiftUp x.1 (x.2 - q) then
      if f.wide then ((match r with | .rne => f.infCode s | _ => f.maxCode s), { ovf := 1 })
      else (f.maxCode s, { sat := 1 })
    else if flush ∧ x.2 = emin - f.m ∧ x.1 < 2 ^ f.m then
      (if s then 2 ^ (f.e + f.m) else 0, { flushOut := if x.1 = 0 then 0 else 1 })
    else (f.code s x.1 x.2, {})

/-- Encode a magnitude to an integer format or to MXI8: nearest end of the range, counted (R344). -/
def encodeIntFin (f : Nat) (r : Rnd) (s : Bool) (num den : Nat) (e : Int) : Nat × NumEv :=
  let lim := (intRange f).getD (0, 0)
  let u := roundAt r num den (if f = 8 then e + 6 else e) 0
  let v := signed s u
  let w := fmtBits f
  let code := fun (i : Int) => (i % (2 ^ w : Int)).toNat
  if v < lim.1 then (code lim.1, { sat := 1 })
  else if lim.2 < v then (code lim.2, { sat := 1 })
  else (code v, {})

/-- The encoder of R344 for a quotient (−1)^s × num/den × 2^e. -/
def encodeQ (f : Nat) (r : Rnd) (flush s : Bool) (num den : Nat) (e : Int) : Nat × NumEv :=
  match floatFmt f with
  | some x => x.encodeFin r flush s num den e
  | none => encodeIntFin f r s num den e

/-- The encoder of R344 for a value without a block scale. -/
def encodeNum (f : Nat) (r : Rnd) (flush : Bool) (x : Num) : Nat × NumEv :=
  match x with
  | .fin s m e => encodeQ f r flush s m 1 e
  | .nan s =>
    match floatFmt f with
    | some y => if y.special = 0 then (0, { nanLoss := 1 }) else (y.nanCode s, {})
    | none => (0, { nanLoss := 1 })
  | .inf s =>
    match floatFmt f with
    | some y => if y.special = 1 then (y.infCode s, {}) else (y.maxCode s, { sat := 1 })
    | none =>
      let lim := (intRange f).getD (0, 0)
      (((if s then lim.1 else lim.2) % (2 ^ fmtBits f : Int)).toNat, { sat := 1 })

/-! ### FP32 arithmetic on codes -/

/-- The value of an FP32 code. -/
def f32 (c : Nat) : Num := fp32.decode c

/-- Round to FP32 to nearest even, subnormals kept: the code. -/
def toF32 (x : Num) : Nat := (encodeNum 0 .rne false x).1

/-- FP32 sum, product and fused multiply-add of codes, to nearest even with subnormals kept. -/
def f32Add (a b : Nat) : Nat := toF32 ((f32 a).add (f32 b))
def f32Mul (a b : Nat) : Nat := toF32 ((f32 a).mul (f32 b))
def f32Fma (a b c : Nat) : Nat := toF32 ((f32 a).fma (f32 b) (f32 c))
def f32Neg (a : Nat) : Nat := if bitOf a 31 then a - 2 ^ 31 else a + 2 ^ 31
def f32Sub (a b : Nat) : Nat := toF32 ((f32 a).add ((f32 b).negate))

/-- FP32 quotient, correctly rounded to nearest even. -/
def f32Div (a b : Nat) : Nat :=
  match f32 a, f32 b with
  | .nan n, _ => fp32.nanCode n
  | _, .nan n => fp32.nanCode n
  | .inf _, .inf _ => fp32.nanCode false
  | .inf n, .fin m _ _ => fp32.infCode (n != m)
  | .fin n _ _, .inf m => fp32.code (n != m) 0 0
  | .fin n k e, .fin m l f =>
    if l = 0 then (if k = 0 then fp32.nanCode false else fp32.infCode (n != m))
    else (fp32.encodeFin .rne false (n != m) k l (e - f)).1

/-- The integer square root by `fuel` bits from the top. -/
def isqrtFrom : Nat → Nat → Nat → Nat
  | 0, _, r => r
  | k + 1, v, r => if (r + 2 ^ k) * (r + 2 ^ k) ≤ v then isqrtFrom k v (r + 2 ^ k) else isqrtFrom k v r

/-- FP32 square root, correctly rounded to nearest even: 64 result bits and a sticky half. -/
def f32Sqrt (a : Nat) : Nat :=
  match f32 a with
  | .nan n => fp32.nanCode n
  | .inf n => if n then fp32.nanCode false else fp32.infCode false
  | .fin n m e =>
    if m = 0 then a
    else if n then fp32.nanCode false
    else
      let sh : Nat := if (e % 2 = 0) then 80 else 81
      let v := m * 2 ^ sh
      let r := isqrtFrom 64 v 0
      let num := 2 * r + (if r * r = v then 0 else 1)
      (fp32.encodeFin .rne false false num 2 ((e - sh) / 2)).1

/-! ### Block scales -/

/-- The value of a scale entry: kind 1 E8M0, 2 or 3 E4M3 (R340). -/
def scaleValue (kind c : Nat) : Num :=
  if kind = 0 then .fin false 1 0
  else if kind = 1 then (if c = 0xFF then .nan false else .fin false 1 ((c : Int) - 127))
  else f8e4m3.decode c

/-- The elements of a block by SCALE_KIND (R297). -/
def scaleLen (kind : Nat) : Nat := if kind = 2 then 16 else 32

/-- e_max of R346. -/
def eMax (f : Nat) : Int :=
  match f with
  | 3 => 8 | 4 => 15 | 5 => 4 | 6 => 2 | 7 => 2 | 8 => 0 | 0xB => 6 | 0xC => 7 | 0xD => 2 | 0xE => 3 | _ => 0

/-- max_elem of R346 as (magnitude, exponent). -/
def maxElem (f : Nat) : Nat × Int :=
  match floatFmt f with
  | some x => x.maxFin
  | none => match f with
    | 8 => (127, -6) | 0xB => (127, 0) | 0xC => (255, 0) | 0xD => (7, 0) | 0xE => (15, 0) | _ => (1, 0)

/-- The scale code that the encoder chooses for a block with largest magnitude m × 2^e (R346). -/
def chooseScale (kind f m : Nat) (e : Int) : Nat :=
  if kind = 1 then
    if m = 0 then 127
    else (max 0 (min 254 ((Nat.log2 m : Int) + e - eMax f + 127))).toNat
  else if m = 0 then 0x38
  else
    let mx := maxElem f
    let x := roundMag .up 4 (some (-6)) m mx.1 (e - mx.2)
    let big := f8e4m3.maxFin
    let q := min x.2 big.2
    if shiftUp big.1 (big.2 - q) < shiftUp x.1 (x.2 - q) then f8e4m3.maxCode false else f8e4m3.code false x.1 x.2

/-- Encode one element of a block whose scale is positive and finite: divide, then round once (R344). -/
def encodeScaled (f : Nat) (r : Rnd) (flush : Bool) (scale x : Num) : Nat × NumEv :=
  match x, scale with
  | .fin s m e, .fin _ k g => if k = 0 then (0, {}) else encodeQ f r flush s m k (e - g)
  | _, _ => (0, {})

/-- The largest magnitude of a list of finite values. -/
def maxAbs (l : List Num) : Num := l.foldl (fun a x => if a.lt x.abs then x.abs else a) zeroNum

/-- Encode one block of a scaled destination: the scale code, the element codes and the counts. A block with a NaN or
an infinity takes the NaN scale and +0 elements, counting nothing (R345). -/
def encodeBlock (f kind : Nat) (flush : Bool) (l : List (Num × Rnd)) : Nat × List Nat × NumEv :=
  if l.any (fun x => x.1.isNan || x.1.isInf) then
    (if kind = 1 then 0xFF else 0x7F, l.map (fun _ => 0), {})
  else
    match maxAbs (l.map (·.1)) with
    | .fin _ m e =>
      let sc := chooseScale kind f m e
      let r := l.map (fun x => encodeScaled f x.2 flush (scaleValue kind sc) x.1)
      (sc, r.map (·.1), r.foldl (fun a y => a.add y.2) {})
    | _ => (0, [], {})

/-! ### The extended accumulator form (R304) -/

/-- The stored form of an accumulator value. -/
def encodeExt : Num → Nat
  | .nan _ => 1023 * 2 ^ 32 + 0xC0000000
  | .inf n => (if n then 2 ^ 42 else 0) + 1023 * 2 ^ 32 + 0x80000000
  | .fin n m e =>
    if m = 0 then 0
    else
      let l := Nat.log2 m
      let sig := if l ≤ 31 then m * 2 ^ (31 - l) else m / 2 ^ (l - 31)
      (if n then 2 ^ 42 else 0) + (e + l + 511).toNat % 1024 * 2 ^ 32 + sig

/-- The value of a stored accumulator entry. -/
def decodeExt (v : Nat) : Num :=
  let e := bitsOf v 32 10
  let m := bitsOf v 0 32
  let n := bitOf v 42
  if e = 1023 then (if m = 0x80000000 then .inf n else .nan false)
  else if m = 0 then zeroNum
  else .fin n m ((e : Int) - 542)

/-- The integer that an integer entry holds, and the 64-bit form of an integer (R304). -/
def entryInt (v : Nat) : Int := intCode 64 false v
def intEntry (i : Int) : Nat := (i % (2 ^ 64 : Int)).toNat

/-! ### Codebooks (R331, R336, R337) -/

/-- The common-form word of an encoding of R331, or none. -/
def cfDecode (w : Nat) : Option Num :=
  let sig := bitsOf w 0 12
  let e := bitsOf w 12 10
  let n := bitOf w 22
  if 2 ^ 23 ≤ w then none
  else if e = 0 then (if sig = 0 then some (.fin n 0 0) else none)
  else if e = 1023 then
    (if sig = 0x800 then some (.inf n) else if sig = 0xC00 then some (.nan n) else none)
  else if sig < 0x800 then none
  else some (.fin n sig ((e : Int) - 522))

/-- Whether a value is exactly representable in binary32. -/
def exactF32 (x : Num) : Bool :=
  match x with
  | .fin _ m _ => m == 0 || (f32 (toF32 x)).eqv x
  | _ => true

/-- Trailing zero bits of a 12-bit significand. -/
def trailing : Nat → Nat → Nat
  | 0, _ => 0
  | k + 1, v => if v % 2 = 0 then 1 + trailing k (v / 2) else 0

/-- The significand width of a well-formed entry (R337), or none. -/
def entryWidth (w : Nat) : Option Nat :=
  match cfDecode w with
  | none => none
  | some (.fin n m e) =>
    if !exactF32 (.fin n m e) then none else if m = 0 then some 1 else some (12 - trailing 12 (bitsOf w 0 12))
  | some _ => some 1

/-! ### Stochastic streams (R359) -/

/-- The mixing function of R359. -/
def mix64 (z : Nat) : Nat :=
  let z := (z ^^^ (z / 2 ^ 30)) * 0xBF58476D1CE4E5B9 % 2 ^ 64
  let z := (z ^^^ (z / 2 ^ 27)) * 0x94D049BB133111EB % 2 ^ 64
  z ^^^ (z / 2 ^ 31)

/-- Draw `i` of tile ordinal `t`: bits [63:40] (R359). -/
def srDraw (seed die p c t i : Nat) : Nat :=
  let k := seed ^^^ (die * 2 ^ 56) ^^^ (p * 2 ^ 48) ^^^ (c * 2 ^ 44)
  mix64 ((mix64 (k ^^^ t) + i * 0x9E3779B97F4A7C15) % 2 ^ 64) / 2 ^ 40

/-- The rounding mode that a ROUND field selects, with its draw. -/
def roundMode (field draw : Nat) : Rnd := if field = 1 then .zero else if field = 2 then .stoch draw else .rne

/-! ### Trees and bit strings -/

/-- One level of a balanced tree over adjacent pairs. -/
def treeLevel {α : Type} (f : α → α → α) : List α → List α
  | a :: b :: r => f a b :: treeLevel f r
  | l => l

/-- A balanced binary tree: adjacent pairs in ascending order at every level (R236, R248). -/
def treeFold {α : Type} (f : α → α → α) : Nat → List α → List α
  | 0, l => l
  | k + 1, l => treeFold f k (treeLevel f l)

/-- The bit string of a byte list as one number (R329). -/
def rowBits (l : List Byte) : Nat := leNat l

/-- Element `i` of width `w` in a byte string (R329). -/
def element (l : List Byte) (w i : Nat) : Nat :=
  let lo := w * i
  leNat ((l.drop (lo / 8)).take ((lo % 8 + w + 7) / 8)) / 2 ^ (lo % 8) % 2 ^ w

/-- Pack codes of `w` bits into bytes (R329). -/
def packCodes (w : Nat) (codes : List Nat) : List Byte :=
  let n := codes.foldr (fun c a => c % 2 ^ w + 2 ^ w * a) 0
  leBytes ((w * codes.length + 7) / 8) n

end Sys2Proof.Machine
end

