-- ==== Sys2Proof/Machine/Table.lean ====
section
/-! DEFINITION. Descriptor tables (R294-R299): their fields, step classes (R227, R228), tile shapes (R298), the rows
a walk reaches, the agreement checks of R253 and R299, codebook tables (R336-R338), and a set taking effect at a
tile boundary (R252, R307). -/

namespace Sys2Proof.Machine

/-! ### Fields -/

/-- The 16-bit field at a byte, unsigned and signed. -/
def u16 (b : List Byte) (o : Nat) : Nat := fieldAt b o 2
def i16 (b : List Byte) (o : Nat) : Int := intCode 16 false (fieldAt b o 2)

/-- Header fields (R295). -/
def dtOrder (b : List Byte) : Nat := fieldAt b 0 1
def dtGroup (b : List Byte) : Nat := 32 * 2 ^ fieldAt b 1 1
def dtRounded (b : List Byte) : Bool := bitOf (fieldAt b 2 1) 0
def dtFast (b : List Byte) : Bool := bitOf (fieldAt b 2 1) 1
def dtZp (b : List Byte) : Bool := bitOf (fieldAt b 2 1) 2
def dtExpand (b : List Byte) : Bool := bitOf (fieldAt b 2 1) 3
def dtPasses (b : List Byte) : Nat := bitsOf (fieldAt b 2 1) 4 2
def dtRefineB (b : List Byte) : Bool := bitOf (fieldAt b 2 1) 6
def dtPair (b : List Byte) : Bool := bitOf (fieldAt b 2 1) 7
def dtRound (b : List Byte) : Nat := bitsOf (fieldAt b 3 1) 0 2
def dtFlush (b : List Byte) : Bool := bitOf (fieldAt b 3 1) 2
def dtK (b : List Byte) : Nat := u16 b 4
def dtRsc (b : List Byte) : Nat := fieldAt b 8 4
def dtAct (b : List Byte) : Nat := fieldAt b 12 4

/-- Level fields (R296): DIM 0 NONE, 1 M, 2 N, 3 K; iterations; the stride of operand 0 A, 1 B, 2 C, 3 P. -/
def lvDim (b : List Byte) (n : Nat) : Nat := bitsOf (fieldAt b (16 + 16 * n) 4) 0 2
def lvIter (b : List Byte) (n : Nat) : Nat := bitsOf (fieldAt b (16 + 16 * n) 4) 16 16 + 1
def lvStride (b : List Byte) (n x : Nat) : Int := i16 b (16 + 16 * n + 4 + 2 * x)

/-- Operand fields (R297) of operand 0 A, 1 B, 2 C, 3 P. -/
def opAt (x : Nat) : Nat := 112 + 32 * x
def opBase (b : List Byte) (x : Nat) : Nat := u16 b (opAt x) % 2 ^ 15
def opStore (b : List Byte) (x : Nat) : Nat := fieldAt b (opAt x + 2) 1
def opFmt (b : List Byte) (x : Nat) : Nat := bitsOf (fieldAt b (opAt x + 3) 1) 0 5
def opStride (b : List Byte) (x : Nat) : Nat := u16 b (opAt x + 4)
def opScale (b : List Byte) (x : Nat) : Nat := fieldAt b (opAt x + 6) 1
def opTag (b : List Byte) (x : Nat) : Nat := fieldAt b (opAt x + 7) 1
def opScaleRow (b : List Byte) (x : Nat) : Nat := u16 b (opAt x + 8)
def opCbRow (b : List Byte) (x : Nat) : Nat := u16 b (opAt x + 10)
def opZpRow (b : List Byte) (x : Nat) : Nat := u16 b (opAt x + 12)
def opZpVal (b : List Byte) (x : Nat) : Nat := fieldAt b (opAt x + 14) 1
def opCrd (b : List Byte) (x : Nat) : Nat := fieldAt b (opAt x + 15) 1

/-! ### Codebooks -/

/-- Whether a format is a codebook format, and the WS rows its table takes. -/
def isCb (f : Nat) : Bool := f == 0xF || f == 0x10
def cbRows (f : Nat) : Nat := if f = 0x10 then 4 else 1

/-- The words of a codebook table that starts in WS row `row` (R336). -/
def State.cbWords (s : State) (p f row : Nat) : List Nat :=
  let bytes := (List.range (cbRows f)).flatMap (fun i => s.rowBytes p 0 (row + i))
  (List.range (if f = 0x10 then 256 else 16)).map (fun i => fieldAt bytes (4 * i) 4)

/-- The significand width of a table: its widest entry, or none when an entry is not well formed (R337). -/
def tableWidth (l : List Nat) : Option Nat :=
  l.foldl (fun a w => match a, entryWidth w with | some x, some y => some (max x y) | _, _ => none) (some 0)

/-- The class of a codebook operand (R227, R337): 1 4-bit, 2 8-bit, 3 16-bit. -/
def cbClass (f : Nat) (l : List Nat) : Option Nat :=
  (tableWidth l).map (fun w =>
    let c := if w ≤ 4 then 1 else if w ≤ 8 then 2 else 3
    if f = 0x10 then max c 2 else c)

/-! ### Step class and shape -/

/-- The class of an array operand by its format (R227); none for one that is not an array operand. -/
def fmtClass : Nat → Option Nat
  | 0 => some 3 | 1 => some 3 | 2 => some 3 | 3 => some 2 | 4 => some 2 | 5 => some 2 | 6 => some 2 | 7 => some 1
  | 8 => some 2 | 0xA => some 3 | 0xB => some 2 | 0xC => some 2 | 0xD => some 1 | 0xE => some 1 | _ => none

/-- Whether a format accepts a SCALE_KIND (R326, R327). -/
def scaleAccepted (f k : Nat) : Bool :=
  if f = 8 then k == 1
  else if k = 0 then true
  else 1 ≤ k && k ≤ 3 && [3, 4, 5, 6, 7, 0xB, 0xC, 0xD, 0xE].contains f

/-- The class of operand `x` of a set; its codebook, if it has one, is read from the Weight Store. -/
def State.opClass (s : State) (p : Nat) (b : List Byte) (x : Nat) : Option Nat :=
  let f := opFmt b x
  if isCb f then cbClass f (s.cbWords p f (opCbRow b x)) else fmtClass f

/-- The class of B after expansion (R231). -/
def State.bClass (s : State) (p : Nat) (b : List Byte) : Option Nat :=
  (s.opClass p b 1).map (fun c => if dtExpand b ∧ 2 ≤ opScale b 1 then min 3 (c + 1) else c)

/-- Whether A and B are array operands. -/
def State.arrayOps (s : State) (p : Nat) (b : List Byte) : Bool :=
  (s.opClass p b 0).isSome && (s.opClass p b 1).isSome
    && scaleAccepted (opFmt b 0) (opScale b 0) && scaleAccepted (opFmt b 1) (opScale b 1)

/-- The step class (R228): the wider of the two. -/
def State.stepClass (s : State) (p : Nat) (b : List Byte) : Nat :=
  max ((s.opClass p b 0).getD 2) ((s.bClass p b).getD 2)

/-- K_STEP and COLS (R297). -/
def kStep (cls : Nat) : Nat := if cls = 1 then 512 else if cls = 2 then 256 else 128
def cols (cls : Nat) : Nat := if cls = 3 then 128 else 256

/-- ⌈a / b⌉. -/
def cdiv (a b : Nat) : Nat := (a + b - 1) / b

/-- Iterations of the levels `lo` to `hi - 1` whose DIM is `d`, multiplied. -/
def dimIter (b : List Byte) (d lo hi : Nat) : Nat :=
  (List.range (hi - lo)).foldl (fun a i => if lvDim b (lo + i) = d then a * lvIter b (lo + i) else a) 1

/-- TM, TN, M and N (R298). -/
def tileM (b : List Byte) : Nat := 256 * dimIter b 1 0 3
def tileN (b : List Byte) (cls : Nat) : Nat := cols cls * dimIter b 2 0 3
def matM (b : List Byte) : Nat := 256 * dimIter b 1 0 6
def matN (b : List Byte) (cls : Nat) : Nat := cols cls * dimIter b 2 0 6

/-- B column-vectors per row; 0 for FP32, whose vectors take two rows (R297, R330). -/
def bVecs (b : List Byte) (cls : Nat) : Nat := 256 / (cols cls * fmtBits (opFmt b 1) / 8)

/-- WS rows that hold `k` K column-vectors of B. -/
def bRows (b : List Byte) (cls k : Nat) : Nat :=
  if bVecs b cls = 0 then 2 * k else cdiv k (bVecs b cls)

/-- Store rows of one A row, of one C output row and of one P output row. -/
def aRows (b : List Byte) : Nat := if opFmt b 0 = 0 then 2 else 1
def cBytes (b : List Byte) (cls : Nat) : Nat :=
  if dtPair b then 8 * cols cls else cols cls * fmtBits (opFmt b 2) / 8
def cRows (b : List Byte) (cls : Nat) : Nat := cdiv (cBytes b cls) 256
def pRows (cls : Nat) : Nat := cols cls * 8 / 256

/-! ### Rows reached -/

/-- The least and the greatest first row of a block of operand `x`, from its offset. -/
def firstRows (b : List Byte) (x : Nat) (off : Int) : Int × Int :=
  let base : Int := opBase b x + off
  (List.range 6).foldl (fun a n =>
    let d := ((lvIter b n : Int) - 1) * lvStride b n x
    (a.1 + min 0 d, a.2 + max 0 d)) (base, base)

/-- The rows of operand `x` within a block, counted from its first row. -/
def blockSpan (b : List Byte) (cls x : Nat) : Nat :=
  if x = 0 then 255 * opStride b 0 + aRows b
  else if x = 1 then bRows b cls (min (kStep cls) (max 1 (dtK b)))
  else if x = 2 then 255 * opStride b 2 + cRows b cls
  else 255 * opStride b 3 + pRows cls

/-- Scale entry bytes of one row of A or C, and the elements a block scale covers there (R342). -/
def scaleBytesPerRow (b : List Byte) (cls x : Nat) : Nat :=
  (if x = 0 then kStep cls else cols cls) / scaleLen (opScale b x)

/-- S of R342. -/
def scaleEntry (b : List Byte) : Nat := if dtExpand b then 2 else 1

/-- The scale group of B that holds its K column-vector number `v`. -/
def bGroup (b : List Byte) (v : Nat) : Nat := v / scaleLen (opScale b 1)

/-- The last scale byte that operand `x` reaches when its last row lies `d` rows past BASE_ROW. -/
def lastScaleByte (b : List Byte) (cls x d : Nat) : Nat :=
  if x = 1 then scaleEntry b * (cols cls * (bGroup b (max 1 (bVecs b cls) * (d + 1) - 1) + 1)) - 1
  else scaleBytesPerRow b cls x * (d + 1) - 1

/-- Whether operand `x` at an offset stays within its store, with its scales, codebook and zero points (check 9). -/
def State.opFits (s : State) (p : Nat) (b : List Byte) (cls x : Nat) (off : Int) : Bool :=
  if x = 2 ∧ opStore b 2 = 3 then true
  else if x = 3 ∧ dtOrder b = 0 then true
  else
    let r := firstRows b x off
    let last := r.2 + blockSpan b cls x - 1
    let cap : Int := s.storeRows p (opStore b x)
    let scaled := opScale b x != 0 && x != 3
    0 ≤ r.1 && last < cap
      && (!scaled || ((opBase b x : Int) ≤ r.1
            && decide (opScaleRow b x + lastScaleByte b cls x (last - opBase b x).toNat / 256
                < s.storeRows p (opStore b x))))
      && (2 ≤ x || !isCb (opFmt b x) || decide (opCbRow b x + cbRows (opFmt b x) ≤ s.storeRows p 0))
      && (x != 1 || !dtZp b || decide (opZpRow b 1 + cdiv (8 * matN b cls) 256 ≤ s.storeRows p 0))

/-- Whether every operand fits at the given offsets. -/
def State.extentsFit (s : State) (p : Nat) (b : List Byte) (cls : Nat) (oA oB oC oP : Int) : Bool :=
  s.opFits p b cls 0 oA && s.opFits p b cls 1 oB && s.opFits p b cls 2 oC && s.opFits p b cls 3 oP

/-! ### Agreement checks -/

/-- The fields of the words of VEC_RSC_c and VEC_ACT_c. -/
def rscBase (v : Nat) : Nat := bitsOf v 0 15
def rscChannels (v : Nat) : Nat := bitsOf v 16 13
def rscBias (v : Nat) : Bool := bitOf v 29
def rscEn (v : Nat) : Bool := bitOf v 30
def actBase (v : Nat) : Nat := bitsOf v 0 15
def actSegs (v : Nat) : Nat := bitsOf v 16 6
def actDegree (v : Nat) : Nat := bitsOf v 22 2
def actEn (v : Nat) : Bool := bitOf v 24

/-- Bytes of one rescale entry (R250). -/
def rscEntry (v : Nat) : Nat := if rscBias v then 8 else 4

/-- The agreement check of R253. -/
def State.vecAgrees (s : State) (p rsc act : Nat) : Bool :=
  (!rscEn rsc || (1 ≤ rscChannels rsc && rscChannels rsc ≤ 4096
      && rscBase rsc + cdiv (rscEntry rsc * rscChannels rsc) 256 ≤ s.storeRows p 0))
    && (!actEn act || (actBase act + 3 ≤ s.storeRows p 0 && 1 ≤ actSegs act && actSegs act ≤ 32))

/-- Reserved bits of an operand (R297, R299), and of its 4-bit zero point. -/
def opReserved (b : List Byte) (x : Nat) : Bool :=
  bitOf (u16 b (opAt x)) 15 || 3 < opStore b x || fieldAt b (opAt x + 3) 1 / 32 != 0 || 3 < opScale b x
    || 3 < opTag b x || 15 < opCrd b x || !allZero ((b.drop (opAt x + 16)).take 16)
    || ((opFmt b x == 0xD || opFmt b x == 0xE) && x == 0 && opZpVal b x / 16 != 0)

/-- How many of the levels `lo` to `hi - 1` have DIM `d`. -/
def dimCount (b : List Byte) (d lo hi : Nat) : Nat :=
  ((List.range (hi - lo)).filter (fun i => lvDim b (lo + i) == d)).length

/-- Checks of R299 that need no step class: 1, 2, 3. -/
def dtCheck1 (b : List Byte) : Bool :=
  1 < dtOrder b || 2 < fieldAt b 1 1 || dtPasses b == 0 || dtRound b == 3 || fieldAt b 3 1 / 8 != 0
    || u16 b 6 != 0 || !allZero ((b.drop 240).take 16)
    || dtK b == 0 || decide (4096 < dtK b) || dtK b % dtGroup b != 0
def dtCheck2 (b : List Byte) : Bool :=
  dimCount b 3 0 3 != 1 || decide (1 < dimCount b 1 0 3) || decide (1 < dimCount b 2 0 3)
def dtCheck3 (b : List Byte) : Bool :=
  dimCount b 3 3 6 != 0
    || (List.range 6).any (fun n => (lvDim b n == 0 && lvIter b n != 1)
        || bitsOf (fieldAt b (16 + 16 * n) 4) 2 14 != 0 || fieldAt b (16 + 16 * n + 12) 4 != 0)

/-- The inner K level. -/
def kLevel (b : List Byte) : Nat := ((List.range 3).find? (fun n => lvDim b n == 3)).getD 0

/-- Checks 4 and 5. -/
def dtCheck4 (b : List Byte) (cls : Nat) : Bool := lvIter b (kLevel b) != cdiv (dtK b) (kStep cls)
def dtCheck5 (b : List Byte) (cls : Nat) : Bool :=
  decide (4096 < tileM b) || tileN b cls % 256 != 0 || decide (4096 < tileN b cls)

/-- Checks 6 and 7. -/
def dtCheck6 (b : List Byte) : Bool := (dtOrder b == 0) != (lvDim b 0 == 3)
def dtCheck7 (b : List Byte) : Bool :=
  dtOrder b == 1 && (opStore b 3 != 2 || lvStride b (kLevel b) 3 != 0 || dtZp b)

/-- Check 8. -/
def State.dtCheck8 (s : State) (p : Nat) (b : List Byte) : Bool :=
  !s.arrayOps p b || (List.range 4).any (opReserved b)
    || fmtBits (opFmt b 2) == 0 || !scaleAccepted (opFmt b 2) (opScale b 2)
    || opStore b 0 == 3 || opStore b 1 == 3 || opStore b 3 == 3
    || opTag b 0 == 3 || opTag b 1 == 3 || opTag b 2 == 1 || opTag b 2 == 2 || opTag b 3 != 0
    || (dtExpand b && (!([0xB, 0xC, 0xD, 0xE].contains (opFmt b 1)) || opScale b 1 == 0))
    || (opStore b 2 == 3 && opScale b 2 != 0)

/-- Check 9. -/
def State.dtCheck9 (s : State) (p : Nat) (b : List Byte) (cls : Nat) : Bool :=
  !s.extentsFit p b cls 0 0 0 0 || decide (opStride b 2 < cRows b cls)

/-- Check 10. -/
def State.dtCheck10 (s : State) (p : Nat) (b : List Byte) (cls : Nat) : Bool :=
  let rsc := dtRsc b
  let act := dtAct b
  bitOf rsc 15 || bitOf rsc 31 || bitOf act 15 || act / 2 ^ 25 != 0 || !s.vecAgrees p rsc act
    || (rscEn rsc && decide (rscChannels rsc < matN b cls))

/-- The first failing check of R299, or none. -/
def State.dtFails (s : State) (p : Nat) (b : List Byte) : Option Nat :=
  let cls := s.stepClass p b
  let arr := s.arrayOps p b
  if dtCheck1 b then some 1
  else if dtCheck2 b then some 2
  else if dtCheck3 b then some 3
  else if arr ∧ dtCheck4 b cls then some 4
  else if arr ∧ dtCheck5 b cls then some 5
  else if dtCheck6 b then some 6
  else if dtCheck7 b then some 7
  else if s.dtCheck8 p b then some 8
  else if s.dtCheck9 p b cls then some 9
  else if s.dtCheck10 p b cls then some 10
  else none

/-! ### Sets in the registers -/

/-- The bytes of a context's staging set, and of its active set (R307). -/
def State.dtStaged (s : State) (p c : Nat) : List Byte :=
  (List.range 64).flatMap (fun i => leBytes 4 (s.rd Reg.RKE_DT_WORD [p, c, i]))
def State.dtActive (s : State) (p c : Nat) : List Byte :=
  (List.range 64).flatMap (fun i => leBytes 4 (s.rdA Reg.RKE_DT_WORD [p, c, i]))

/-- The empty set (R288). -/
def emptySet (b : List Byte) : Bool := allZero b

/-- The words of VEC_RSC_c and VEC_ACT_c as staged or as active. -/
def State.rscWord (s : State) (p c : Nat) (act : Bool) : Nat :=
  let f (x : Field) : Nat := if act then s.rdA x [p, c] else s.rd x [p, c]
  f Reg.VEC_RSC_BASE_ROW + 2 ^ 16 * f Reg.VEC_RSC_CHANNELS + 2 ^ 29 * f Reg.VEC_RSC_BIAS_EN + 2 ^ 30 * f Reg.VEC_RSC_EN
def State.actWord (s : State) (p c : Nat) (act : Bool) : Nat :=
  let f (x : Field) : Nat := if act then s.rdA x [p, c] else s.rd x [p, c]
  f Reg.VEC_ACT_BASE_ROW + 2 ^ 16 * f Reg.VEC_ACT_SEGMENTS + 2 ^ 22 * f Reg.VEC_ACT_DEGREE + 2 ^ 24 * f Reg.VEC_ACT_EN

/-- Write a context's Vector Unit words into staging. -/
def stageVec (s : State) (p c rsc act : Nat) : State :=
  let s := ((s.wr Reg.VEC_RSC_BASE_ROW [p, c] (rscBase rsc)).wr Reg.VEC_RSC_CHANNELS [p, c] (rscChannels rsc))
  let s := (s.wrb Reg.VEC_RSC_BIAS_EN [p, c] (rscBias rsc)).wrb Reg.VEC_RSC_EN [p, c] (rscEn rsc)
  let s := (s.wr Reg.VEC_ACT_BASE_ROW [p, c] (actBase act)).wr Reg.VEC_ACT_SEGMENTS [p, c] (actSegs act)
  (s.wr Reg.VEC_ACT_DEGREE [p, c] (actDegree act)).wrb Reg.VEC_ACT_EN [p, c] (actEn act)

/-- Record a refused set in RKE_DTERR (R299). -/
def dtError (s : State) (p c check : Nat) : State :=
  ((s.wr Reg.RKE_DTERR_CHECK [p] check).wr Reg.RKE_DTERR_CTX [p] c).wr Reg.RKE_DTERR_VALID [p] 1

/-! ### A set takes effect -/

/-- Whether the used breakpoints of an activation set ascend strictly (R252). -/
def breakpointsAscend (coef : List Byte) (segs : Nat) : Bool :=
  (List.range (segs - 2)).all (fun i => (f32 (fieldAt coef (4 * i) 4)).lt (f32 (fieldAt coef (4 * i + 4) 4)))

/-- The two sets of a context. -/
def dtSet (p c : Nat) : StagedSet := .rkeDt (Fin.ofNat 16 p) (Fin.ofNat 4 c)
def vecSet (p c : Nat) : StagedSet := .vec (Fin.ofNat 16 p) (Fin.ofNat 4 c)

/-- Load and check the activation set that takes effect (R252). -/
def loadAct (s : State) (p c : Nat) : State :=
  let act := s.actWord p c true
  if !actEn act then s
  else
    match readRows s p 0 (actBase act) 0 3 with
    | (s, .ok d) =>
      let s := s.setCtx p c { s.ctx p c with coef := d }
      let bit : Field := { Reg.VEC_STAT_SET_LOADED with lo := c, wid := 1 }
      let s := s.wr Reg.VEC_STAT_SET_LOADED [p] (s.rd Reg.VEC_STAT_SET_LOADED [p] ||| 2 ^ bit.lo)
      if breakpointsAscend d (actSegs act) then s
      else
        let s := s.wr Reg.VEC_STAT_BP_FAULT [p] (s.rd Reg.VEC_STAT_BP_FAULT [p] ||| 2 ^ c)
        ctxFault (hedgeLevel s (64 + 8 * p + 5) true 0) p c 17 (actBase act)
    | (s, .poison) => poisonFault s p c
    | (s, _) => rangeFault s p c 1 0 (actBase act)

/-- Note the classes of A and B that the agreement check took (R338). -/
def noteClass (s : State) (p c : Nat) (b : List Byte) : State :=
  s.setCtx p c { s.ctx p c with clsA := (s.opClass p b 0).getD 0, clsB := (s.opClass p b 1).getD 0 }

/-- Load the codebook tables of the descriptor set that takes effect; one that is no longer well formed or changes
the step class faults the context (R230, R338). -/
def loadCodebooks (s : State) (p c : Nat) : State :=
  let b := s.dtActive p c
  let get (x : Nat) : List Nat := if isCb (opFmt b x) then s.cbWords p (opFmt b x) (opCbRow b x) else []
  let s' := s.setCtx p c { s.ctx p c with cbA := get 0, cbB := get 1 }
  let x := s.ctx p c
  if (isCb (opFmt b 0) || isCb (opFmt b 1)) &&
      (s.opClass p b 0 != some x.clsA || s.opClass p b 1 != some x.clsB) then
    badField s' p c 0
  else s'

/-- A tile boundary of a context, or the gap between two of its instructions: the captured sets take effect (R307), and
a weight plane loaded before no longer serves it (R303). -/
def takeSets (s : State) (p c : Nat) : State :=
  let dt := s.on (cPending (dtSet p c)) []
  let vec := s.on (cPending (vecSet p c)) []
  let s := effectSet s (dtSet p c)
  let s := effectSet s (vecSet p c)
  let s := if dt then
      let a := (s.plot p).arr
      let drop (w : WPlane) : WPlane := match w.key with
        | some k => if k.ctx = c then {} else w
        | none => w
      loadCodebooks (s.setPlot p { s.plot p with arr := { a with cur := drop a.cur, shadow := drop a.shadow } }) p c
    else s
  if vec ∧ s.ctxState p c ≠ 3 then loadAct s p c else s

end Sys2Proof.Machine
end

