-- ==== Sys2Proof/Machine/Acs.lean ====
section
/-! DEFINITION. How every ACS command starts (R182-R193): its place in the order of its ring and of the die, checks 1
to 6 of R182, buffer references (R185) and the posting of results. -/

namespace Sys2Proof.Machine

open Host (Outcome)

/-! ### Fields -/

/-- Bytes `o` to `o + n - 1` of a descriptor. -/
def Cmd.fld (c : Cmd) (o n : Nat) : Nat := fieldAt c.desc o n

/-- The buffer reference at byte `o` (R185). -/
def Cmd.ref (c : Cmd) (o : Nat) : BufRef := ⟨c.fld o 8, c.fld (o + 8) 4, c.fld (o + 12) 1⟩

/-- The bytes of a body that a command's table names, as (first, last). -/
def bodyBytes : Nat → List (Nat × Nat)
  | 0x102 => [(8, 8)]
  | 0x105 => [(8, 12), (16, 47)]
  | 0x106 => [(8, 10), (12, 15)]
  | 0x201 => [(8, 20)]
  | 0x202 => [(8, 13), (16, 36)]
  | 0x203 => [(8, 9), (12, 28), (32, 44)]
  | 0x204 => [(8, 9)]
  | 0x205 => [(8, 9)]
  | 0x206 => [(8, 9)]
  | 0x207 => [(8, 9)]
  | 0x301 => [(8, 36)]
  | 0x302 => [(8, 9)]
  | 0x303 => [(8, 9), (16, 31)]
  | 0x304 => [(8, 9), (12, 23)]
  | 0x305 => [(8, 10)]
  | 0x401 => [(8, 10), (12, 28)]
  | 0x402 => [(8, 10), (12, 15)]
  | 0x502 => [(8, 20), (24, 24)]
  | 0x503 => [(8, 9), (12, 15)]
  | 0x504 => [(8, 8), (12, 15)]
  | 0x602 => [(8, 11), (16, 28)]
  | 0x701 => [(8, 28)]
  | 0x702 => [(8, 11), (16, 28)]
  | 0x703 => [(8, 15)]
  | 0x704 => [(8, 8), (12, 32)]
  | 0x801 => [(8, 11)]
  | 0x802 => [(8, 9), (12, 15)]
  | 0x901 => [(8, 63)]
  | 0x902 => [(8, 12)]
  | 0x903 => [(8, 9), (16, 31)]
  | 0xA02 => [(8, 8)]
  | 0xA03 => [(8, 20)]
  | 0xA04 => [(8, 9)]
  | _ => []

/-- The bytes whose high bits are reserved, with the number of bits that are not. -/
def bodyBits : Nat → List (Nat × Nat)
  | 0x105 => [(9, 1)]
  | 0x106 => [(10, 2)]
  | 0x301 => [(11, 3)]
  | 0x305 => [(10, 1)]
  | 0x502 => [(24, 1)]
  | 0x801 => [(11, 1)]
  | _ => []

/-- The first reserved byte or bit of a descriptor that is not zero (check 3). -/
def Cmd.reservedBad (c : Cmd) : Option Nat :=
  let named (i : Nat) : Bool := (bodyBytes c.opcode).any (fun r => decide (r.1 ≤ i ∧ i ≤ r.2))
  let bits (i : Nat) : Nat := ((bodyBits c.opcode).find? (fun r => r.1 == i)).elim 8 (·.2)
  if 4 ≤ c.fld 4 1 then some 4
  else if c.fld 6 1 ≠ 0 then some 6
  else if c.fld 7 1 ≠ 0 then some 7
  else ((List.range 56).map (· + 8)).find? (fun i =>
    if named i then decide (2 ^ bits i ≤ c.fld i 1) else c.fld i 1 != 0)

/-! ### Order (R188-R190) -/

/-- The objects that a command names, as (kind, from, to): 0 job handle, 1 table, 2 aperture, 3 Graft entry, 4 flash
sector, 5 Hedge source, 6 vector, 7 the die. -/
def Cmd.objects (c : Cmd) : List (Nat × Nat × Nat) :=
  let one (k v : Nat) : List (Nat × Nat × Nat) := [(k, v, v)]
  match c.opcode / 256 with
  | 2 => if c.opcode = 0x201 then [] else one 0 (c.fld 8 2)
  | 3 => one 1 (c.fld 8 2)
  | 4 => one 3 (c.fld 8 3 + 2 ^ 24 * c.fld 12 4)
  | 5 => one 7 0
  | 6 => one 7 0
  | 7 =>
    (match c.opcode with
     | 0x701 => [(4, c.fld 8 4 / 4096, (c.fld 8 4 + c.fld 12 4) / 4096)]
     | 0x702 => [(4, c.fld 8 4 / 4096, (c.fld 8 4 + c.fld 24 4 - 1) / 4096)]
     | 0x703 => [(4, c.fld 8 4, c.fld 8 4 + c.fld 12 4 - 1)]
     | _ => [])
  | 8 => if c.opcode = 0x801 then one 5 (c.fld 8 2) ++ one 6 (c.fld 10 1) else one 6 (c.fld 8 1)
  | 0xA => one 7 0
  | _ => if c.opcode = 0x106 then one 2 (c.fld 8 2) else []

/-- Whether two commands name the same object. -/
def Cmd.meets (a b : Cmd) : Bool :=
  a.objects.any (fun x => b.objects.any (fun y => x.1 == y.1 && decide (x.2.1 ≤ y.2.2 ∧ y.2.1 ≤ x.2.2)))

/-- Whether a command has passed its commit point: its result stands, or it waits. -/
def Cmd.committed (c : Cmd) : Bool := c.result.isSome || c.waiting

/-- Whether the order of R188, R189 and R190 lets a fetched command start. -/
def State.mayStart (s : State) (c : Cmd) : Bool :=
  let before := (s.mbx.cmds.takeWhile (fun d => !(d.func == c.func && d.slot == c.slot))).filter
    (fun d => d.func == c.func)
  (!c.ordered || before.isEmpty)
    && before.all (fun d => d.committed || !d.meets c)
    && (!c.barrier || s.mbx.cmds.all (fun d => d.waiting || (d.func == c.func && d.slot == c.slot)))

/-! ### Checks 4 to 6 -/

/-- The commands that only the PF may issue. -/
def pfOnly : List Nat := [0x102, 0x103, 0x104, 0x105, 0x502, 0x503, 0x602, 0x603, 0x604, 0x605, 0x701, 0x702, 0x703,
  0x704, 0x902, 0x903, 0xA01, 0xA02, 0xA03, 0xA04]

/-- Whether a command needs VCORE (R186). -/
def Cmd.needsCore (c : Cmd) : Bool :=
  [2, 3, 4, 0xA].contains (c.opcode / 256) || (c.opcode == 0x102 && c.fld 8 1 == 1)

/-- The failing check among 1 to 6 of R182, with FIELD and VALUE. -/
def State.acsRefusal (s : State) (c : Cmd) : Option (Status × Nat × Nat) :=
  let op := c.opcode
  if c.fld 5 1 ≠ 1 then some (.badVersion, 5, c.fld 5 1)
  else match c.reservedBad with
  | some i => some (.badReserved, i, c.fld i 1)
  | none =>
    if c.func ≠ 0 ∧ pfOnly.contains op then some (.notPermitted, 0, op)
    else if c.func ≠ 0 ∧ (op = 0x106 ∨ op = 0x504) ∧ c.fld 8 1 ≠ c.func then some (.notPermitted, 8, c.fld 8 1)
    else if op = 0x104 ∧ s.on Reg.TOP_MODE_TEST_LOCK [] then some (.testLocked, 0xFFFF, 0)
    else if s.on Reg.TOP_PINSTAT_THERMTRIP [] ∧ c.needsCore then some (.fabricHalted, 0xFFFF, 0)
    else if s.role = 1 ∧ (op / 256 = 2 ∨ (op = 0x105 ∧ c.fld 10 2 ≠ 0) ∨ (op = 0x903 ∧ c.fld 8 1 = 0)) then
      some (.wrongRole, if op = 0x105 then 10 else if op = 0x903 then 8 else 0, 0)
    else none

/-! ### Starting and posting -/

/-- Stage a result for a command. -/
def done (s : State) (c : Cmd) (body : List Byte) : State := s.finish c.func c.slot .ok body

/-- Stage a failure for a command. -/
def fail (s : State) (c : Cmd) (st : Status) (field sub value : Nat) : State := s.failCmd c.func c.slot st field sub value

/-- Start the command of a slot if it is this opcode and may start now; `act` runs it once checks 1 to 6 pass. -/
def acs (s : State) (f i op : Nat) (act : State → Cmd → State) : State :=
  match s.cmd? f i with
  | none => s
  | some c =>
    if c.opcode ≠ op ∨ c.started ∨ c.result.isSome ∨ !s.fwRuns ∨ s.rd Reg.TOP_BOOTSTAT_STATE [] ≠ 2 ∨ !s.mayStart c then s
    else
      match s.acsRefusal c with
      | some (st, fld, v) => fail s c st fld 0 v
      | none => if c.needsCore && !s.coreUp then s else act s c

/-- Leave a command running: its result comes later. -/
def running (s : State) (c : Cmd) : State := s.setCmd { c with started := true }

/-- Leave a command waiting past its commit point. -/
def waiting (s : State) (c : Cmd) : State := s.setCmd { c with started := true, waiting := true }

/-! ### Buffer references (R185) -/

/-- The bytes of a named buffer, or the failure: BAD_PARAM for LEN 0 or an undefined SPACE, NOT_ASSIGNED for HBM that the
function does not hold, HOST_DMA_FAULT for a host read that fails, MEDIA_ERROR for an uncorrectable error. -/
def State.buffer (s : State) (f : Nat) (r : BufRef) (o : Nat) (buf : HostBuf) : Except (Status × Nat × Nat) (List Byte) :=
  if r.len = 0 then .error (.badParam, o + 8, 0)
  else if 1 < r.space then .error (.badParam, o + 12, r.space)
  else if r.space = 0 then
    if !s.holdsHbm f r.addr r.len then .error (.notAssigned, o, r.addr % 2 ^ 32)
    else if s.hbmPoisoned r.addr r.len then .error (.mediaError, o, 0)
    else .ok (s.hbmRead r.addr r.len)
  else
    match buf with
    | none => .error (.hostDmaFault, o, 0)
    | some l => .ok (padTo r.len (l.take r.len))

/-- The mailbox block moves `n` bytes to or from HBM for a function (R106, R206, R606). -/
def bulk (s : State) (f a n : Nat) : State :=
  let k := cdiv n 256
  let s := hbmActivity s f k
  (s.wrapInc Reg.TOP_TRL_FLITS_COUNT [22] k).wrapInc Reg.TOP_TRL_FLITS_COUNT [16 + a / stackBytes] k

/-- Run with the bytes of a buffer, or fail. -/
def withBuffer (s : State) (c : Cmd) (o : Nat) (buf : HostBuf) (act : State → List Byte → State) : State :=
  let r := c.ref o
  match s.buffer c.func r o buf with
  | .ok l => act (if r.space = 0 then bulk s c.func r.addr r.len else s) l
  | .error e => fail s c e.1 e.2.1 0 e.2.2

/-- The failing check of a destination buffer. -/
def State.destBad (s : State) (f : Nat) (r : BufRef) (o : Nat) : Option (Status × Nat × Nat) :=
  if r.len = 0 then some (.badParam, o + 8, 0)
  else if 1 < r.space then some (.badParam, o + 12, r.space)
  else if r.space = 0 ∧ !s.holdsHbm f r.addr r.len then some (.notAssigned, o, r.addr % 2 ^ 32)
  else none

/-- Write bytes to a buffer: HBM, or a device-mastered write of the function. -/
def putBuffer (s : State) (f : Nat) (r : BufRef) (l : List Byte) : State :=
  if r.space = 0 then hbmWrite (bulk s f r.addr l.length) r.addr l else s.emit (.hostWrite f r.addr l)

end Sys2Proof.Machine
end

