-- ==== Sys2Proof/Machine/GraftOps.lean ====
section
/-! DEFINITION. Graft plan entries (R500-R505): their fields and checks, effective scales, quantisation and
dequantisation of elements (R506, R508), packing (R509-R511), observing entries and the routing of packets past them
(R488, R499, R512). -/

namespace Sys2Proof.Machine

open Host (Outcome)

/-! ### Fields of an entry (R500) -/

def geLayer (b : List Byte) : Nat := fieldAt b 0 4
def geEidx (b : List Byte) : Nat := fieldAt b 4 1
def geKind (b : List Byte) : Nat := fieldAt b 5 1
def geSrcDie (b : List Byte) : Nat := fieldAt b 6 1
def geSrcPort (b : List Byte) : Nat := fieldAt b 7 1 % 8
def geDstDie (b : List Byte) : Nat := fieldAt b 8 1
def geDstPort (b : List Byte) : Nat := fieldAt b 9 1 % 8
def geAgent (b : List Byte) : Nat := fieldAt b 10 1
def geEvent (b : List Byte) : Bool := bitOf (fieldAt b 11 1) 0
def geRerun (b : List Byte) : Bool := bitOf (fieldAt b 11 1) 1
def geEscalate (b : List Byte) : Bool := bitOf (fieldAt b 11 1) 2
def geSticky (b : List Byte) : Bool := bitOf (fieldAt b 11 1) 3
def geWin (b : List Byte) : Nat := 2 ^ fieldAt b 12 1
def geRungs (b : List Byte) : Nat := fieldAt b 13 1
def geEvtLimit (b : List Byte) : Nat := fieldAt b 14 2
def geFbLimit (b : List Byte) : Nat := fieldAt b 16 2
def gePeriod (b : List Byte) : Nat := fieldAt b 18 2
def geClipLo (b : List Byte) : Nat := fieldAt b 36 4
def geClipHi (b : List Byte) : Nat := fieldAt b 40 4

/-- A rung: FORMAT, MODE (0 NONE, 1 LEARNED, 2 DYNAMIC), BLOCK_LOG2, codebook table, and its reserved bits. -/
structure Rung where
  fmt : Nat
  mode : Nat
  blk : Nat
  table : Nat
  resv : Nat
  deriving DecidableEq, Repr

/-- Rung `r` of an entry. -/
def geRung (b : List Byte) (r : Nat) : Rung :=
  let w := fieldAt b (20 + 4 * r) 4
  ⟨bitsOf w 0 5, bitsOf w 5 2, bitsOf w 8 4, bitsOf w 12 3, bitsOf w 7 1 + bitsOf w 15 17⟩

/-- The last rung. -/
def geLast (b : List Byte) : Nat := geRungs b - 1

/-! ### The checks of R502 -/

/-- The narrow formats of a ladder. -/
def narrowFmts : List Nat := [3, 4, 5, 6, 7, 0xB, 0xC, 0xD, 0xE, 0xF, 0x10]

/-- Whether rung `r` of an entry of `n` rungs obeys the rules of R502. -/
def rungOk (b : List Byte) (n r : Nat) : Bool :=
  let x := geRung b r
  let width := if r = 0 then true
    else decide (fmtBits (geRung b (r - 1)).fmt ≤ fmtBits x.fmt)
      && (fmtBits (geRung b (r - 1)).fmt != fmtBits x.fmt || (geRung b (r - 1)).mode != x.mode)
  x.resv == 0 && width && (x.mode == 0) == (r + 1 == n) &&
    (match x.mode with
     | 0 => decide (x.fmt < 3) && x.blk == 0
     | 1 => r == 0 && narrowFmts.contains x.fmt && decide (4 ≤ x.blk ∧ x.blk ≤ 12)
     | 2 => narrowFmts.contains x.fmt && x.fmt != 0xC && x.fmt != 0xE && decide (4 ≤ x.blk ∧ x.blk ≤ 12)
     | _ => false)

/-- Whether a format holds an FP32 value exactly. -/
def exactIn (f c : Nat) : Bool :=
  match f32 c with
  | .fin n m e =>
    let x := encodeNum f .rne false (.fin n m e)
    x.2 == {} && (decodeFmt f x.1).eqv (.fin n m e)
  | _ => false

/-- Whether the clip limits obey R502. -/
def clipOk (b : List Byte) : Bool :=
  let f := (geRung b 0).fmt
  isCb f || ((f32 (geClipLo b)).lt (f32 (geClipHi b)) && exactIn f (geClipLo b) && exactIn f (geClipHi b))

/-- Whether the fields of an entry are within R500 and its ladder obeys R502. -/
def entryOk (b : List Byte) : Bool :=
  let coll := geKind b == 0
  let n := geRungs b
  geEidx b != 0 && decide (geKind b ≤ 1) && decide (fieldAt b 7 1 < 8) && decide (fieldAt b 9 1 < 8)
    && decide (fieldAt b 11 1 < 16) && (coll || !geRerun b) && (!coll || !geEscalate b)
    && decide (10 ≤ fieldAt b 12 1 ∧ fieldAt b 12 1 ≤ 24) && decide (1 ≤ n ∧ n ≤ 4)
    && geEvtLimit b != 0 && geFbLimit b != 0
    && (if coll then gePeriod b == 0 else decide (1 ≤ gePeriod b ∧ gePeriod b ≤ 4096))
    && (List.range n).all (rungOk b n) && clipOk b

/-- The tables of R502: finite, strictly ascending, at most 8 significant bits. -/
def bookOk (l : List Nat) : Bool :=
  l.all (fun c => match f32 c with
    | .fin n m e => (roundSig .rne 8 (.fin n m e)).eqv (.fin n m e)
    | _ => false)
  && (l.zip (l.drop 1)).all (fun e => (f32 e.1).lt (f32 e.2))

/-- Elements of a 256-byte row of an RWRITE stream: those of the ladder's wide format (R505). -/
def rowElems (b : List Byte) : Nat := 2048 / max 1 (fmtBits (geRung b (geLast b)).fmt)

/-! ### Effective scales (R503, R504) -/

/-- Whether a scale has a magnitude of 2⁻¹⁰⁰ to 2¹⁰⁰. -/
def scaleIn (x : Num) : Bool :=
  match x with
  | .fin _ m _ => m != 0 && !((x.abs).lt (.fin false 1 (-100))) && !((Num.fin false 1 100).lt x.abs)
  | _ => false

/-- COARSE × s rounded to 16 significant bits, as FP32; none when R503 refuses it. -/
def effScale (coarse s : Num) : Option Nat :=
  let x := roundSig .rne 16 (coarse.mul s)
  if scaleIn x then some (toF32 x) else none

/-- Entry `j` of a scale tensor (R348): its value and its zero point. -/
def tensorEntry (t : List Byte) (j : Nat) : Num × Int :=
  match fieldAt t 0 1 with
  | 1 => (scaleValue 1 (fieldAt t (16 + j) 1), 0)
  | 2 => (f8e4m3.decode (fieldAt t (16 + j) 1), 0)
  | 3 => (f32 (fieldAt t (16 + 4 * j) 4), 0)
  | _ => (f32 (fieldAt t (16 + 8 * j) 4), intCode 32 false (fieldAt t (16 + 8 * j + 4) 4))

/-- The bytes of a scale tensor of `n` entries. -/
def tensorLen (kind n : Nat) : Nat := 16 * cdiv (16 + n * (if kind = 3 then 4 else if kind = 4 then 8 else 1)) 16

/-- Whether a scale tensor is well formed and fits rung 0 of an entry (R348, R505). -/
def tensorOk (b t : List Byte) : Bool :=
  let kind := fieldAt t 0 1
  let n := fieldAt t 4 4
  let el := fieldAt t 12 4
  let r := geRung b 0
  decide (1 ≤ kind ∧ kind ≤ 4) && fieldAt t 1 1 == r.blk && fieldAt t 2 2 == 0
    && n == cdiv el (2 ^ r.blk) && t.length == tensorLen kind n
    && (match f32 (fieldAt t 8 4) with | .fin _ m _ => m != 0 | _ => false)
    && (geKind b == 0 || (el == gePeriod b * rowElems b && rowElems b % 2 ^ r.blk == 0))

/-- Whether a zero point lies within a format's range. -/
def zeroOk (f : Nat) (z : Int) : Bool :=
  match intRange f with
  | some (lo, hi) => decide (lo ≤ z ∧ z ≤ hi)
  | none => true

/-- The effective scales of a tensor, or the number of the first entry that R503 refuses. -/
def effScales (f : Nat) (t : List Byte) : Except Nat (List (Nat × Int)) :=
  (List.range (fieldAt t 4 4)).foldl (fun a j =>
    match a with
    | .error i => .error i
    | .ok l =>
      let e := tensorEntry t j
      match effScale (f32 (fieldAt t 8 4)) e.1 with
      | some c => if zeroOk f e.2 then .ok (l ++ [(c, if (intRange f).isSome then e.2 else 0)]) else .error j
      | none => .error j) (.ok [])

/-- Whether packets of an entry carry zero points: an integer format under a KIND 4 tensor (R511). -/
def tensorZp (f : Nat) (t : List Byte) : Bool := fieldAt t 0 1 == 4 && (intRange f).isSome

/-- The largest finite magnitude of a dynamic rung's format or codebook. -/
def dynMax (f : Nat) (book : List Nat) : Num :=
  if isCb f then maxAbs (book.map f32) else .fin false (maxElem f).1 (maxElem f).2

/-- The scale of a dynamic block: a / m rounded up to 16 significant bits, limited to 2⁻¹⁰⁰ to 2¹⁰⁰; 1 for zeros
(R504). -/
def dynScale (f : Nat) (book : List Nat) (l : List Num) : Nat :=
  match maxAbs l, dynMax f book with
  | .fin _ 0 _, _ => 0x3F800000
  | .fin _ m e, .fin _ k g =>
    if k = 0 then 0x3F800000
    else
      let x := roundMag .up 16 none m k (e - g)
      let v : Num := .fin false x.1 x.2
      if v.lt (.fin false 1 (-100)) then toF32 (.fin false 1 (-100))
      else if (Num.fin false 1 100).lt v then toF32 (.fin false 1 100)
      else toF32 v
  | _, _ => 0x3F800000

/-! ### Quantisation (R506) -/

/-- An exact quotient as numerator over denominator. -/
structure Quot where
  num : Int
  den : Nat
  deriving DecidableEq, Repr

/-- x / s for finite x and finite nonzero s; zero otherwise. -/
def quotOf (x s : Num) : Quot :=
  match x, s with
  | .fin n m e, .fin k d g =>
    if d = 0 then ⟨0, 1⟩
    else
      let v := signed (n != k) (shiftUp m (e - g))
      ⟨v, d * 2 ^ (g - e).toNat⟩
  | _, _ => ⟨0, 1⟩

def Quot.addInt (q : Quot) (z : Int) : Quot := ⟨q.num + z * q.den, q.den⟩
def Quot.lt (a b : Quot) : Bool := decide (a.num * b.den < b.num * a.den)
def Quot.dist (a b : Quot) : Quot := ⟨((a.num * b.den - b.num * a.den).natAbs : Int), a.den * b.den⟩
def quotNum (x : Num) : Quot := quotOf x (.fin false 1 0)

/-- The entry of a codebook nearest to a quotient: a tie goes to the greater magnitude, then to the higher index. -/
def nearest (book : List Num) (q : Quot) : Nat :=
  let better (i j : Nat) : Bool :=
    let di := q.dist (quotNum (book.getD i zeroNum))
    let dj := q.dist (quotNum (book.getD j zeroNum))
    let mi := (book.getD i zeroNum).abs
    let mj := (book.getD j zeroNum).abs
    dj.lt di || (!di.lt dj && !(mj.lt mi))
  (List.range book.length).foldl (fun a i => if i = 0 then 0 else if better a i then i else a) 0

/-- The clip limits of a rung: CLIP_LO and CLIP_HI for rung 0 when learned, else the format's range. -/
def clipLimits (b : List Byte) (r : Rung) : Num × Num :=
  if r.mode = 1 then (f32 (geClipLo b), f32 (geClipHi b))
  else match intRange r.fmt with
    | some (lo, hi) => (ofInt lo, ofInt hi)
    | none => let m : Num := .fin false (maxElem r.fmt).1 (maxElem r.fmt).2; (m.negate, m)

/-- The code of a clip limit. -/
def limitCode (f : Nat) (x : Num) : Nat := (encodeNum f .rne false x).1

/-- Quantise one finite element under scale `sc` and zero point `z`: the code and whether it was clipped. -/
def quantOne (b : List Byte) (r : Rung) (book : List Nat) (sc : Nat) (z : Int) (x : Num) : Nat × Bool :=
  let q := quotOf x (f32 sc)
  if isCb r.fmt then
    let bk := book.map f32
    if q.lt (quotNum (bk.headD zeroNum)) then (0, true)
    else if (quotNum (bk.getLastD zeroNum)).lt q then (bk.length - 1, true)
    else (nearest bk q, false)
  else
    let lim := clipLimits b r
    let v := q.addInt z
    if v.lt (quotNum lim.1) then (limitCode r.fmt lim.1, true)
    else if (quotNum lim.2).lt v then (limitCode r.fmt lim.2, true)
    else if (intRange r.fmt).isSome then
      let u := roundAt .away q.num.natAbs q.den 0 0
      (((signed (decide (q.num < 0)) u + z) % (2 ^ fmtBits r.fmt : Int)).toNat, false)
    else ((encodeQ r.fmt .away false (q.num < 0 || (q.num == 0 && x.neg?)) q.num.natAbs q.den 0).1, false)

/-- An element of a wide rung: ties away from zero, infinity beyond the largest finite magnitude, canonical NaN. -/
def wideCode (f : Nat) (x : Num) : Nat :=
  match floatFmt f, x with
  | some y, .fin n m e =>
    if (Num.fin false y.maxFin.1 y.maxFin.2).lt (.fin false m e) then y.infCode n else (encodeNum f .away false x).1
  | some y, .inf n => y.infCode n
  | some y, .nan _ => y.nanCode false
  | none, _ => 0

/-- The canonical FP32 NaN. -/
def nan32 : Nat := 0x7FC00000

/-- Whether a value is NaN or infinite. -/
def Num.nonfinite (x : Num) : Bool := x.isNan || x.isInf

/-- Dequantise a code (R508): exact in FP32. -/
def dequant (r : Rung) (book : List Nat) (sc : Nat) (z : Int) (c : Nat) : Nat :=
  if (f32 sc).isNan then nan32
  else if isCb r.fmt then toF32 ((f32 (book.getD c 0)).mul (f32 sc))
  else
    match intRange r.fmt with
    | some _ => toF32 ((ofInt (intCode (fmtBits r.fmt) (fmtUnsigned r.fmt) c - z)).mul (f32 sc))
    | none => toF32 ((decodeFmt r.fmt c).mul (f32 sc))

/-! ### Codebooks and statistics -/

/-- The codebook of a rung among an entry's tables: 256 words each. -/
def GEntry.book (e : GEntry) (r : Rung) : List Nat :=
  if isCb r.fmt then ((e.books.drop (256 * r.table)).take 256).take (if r.fmt = 0xF then 16 else 256) else []

/-- The largest finite magnitude so far, as an FP32 code. -/
def maxAbs32 (old : Nat) (l : List Num) : Nat :=
  let m := maxAbs (l.filter (fun x => !x.nonfinite))
  if (f32 old).lt m then toF32 m else old

/-! ### Packets (R509-R511) -/

/-- Bytes of a scale entry in a packet. -/
def GEntry.scaleBytes (e : GEntry) (r : Rung) : Nat := if r.mode = 1 ∧ e.zp then 8 else 4

/-- The blocks that begin among elements `off` to `off + n - 1` of a send. -/
def blocksIn (r : Rung) (off n : Nat) : Nat :=
  if r.mode = 0 then 0 else cdiv (off + n) (2 ^ r.blk) - cdiv off (2 ^ r.blk)

/-- Scale cells for those blocks. -/
def scaleCells (e : GEntry) (r : Rung) (off n : Nat) : Nat := cdiv (blocksIn r off n * e.scaleBytes r) 16

/-- The elements of the packet that begins at element `off` of a send of `total`: as many data cells as leave no more
than 16 cells in all (R511). -/
def packetElems (e : GEntry) (r : Rung) (off total : Nat) : Nat :=
  let w := max 1 (fmtBits r.fmt)
  let fits (d : Nat) : Nat := min (total - off) (128 * d / w)
  ((List.range 16).reverse.map (fun i => fits (i + 1))).find? (fun n =>
    decide (scaleCells e r off n + cdiv (n * w) 128 ≤ 16)) |>.getD 0

/-- The body of a packet: scale entries in cells, then codes. -/
def packetBody (e : GEntry) (r : Rung) (scales : List (Nat × Int)) (codes : List Nat) : List Byte :=
  let entry (x : Nat × Int) : List Byte :=
    leBytes 4 x.1 ++ (if e.scaleBytes r = 8 then leBytes 4 (x.2 % (2 ^ 32 : Int)).toNat else [])
  let a := scales.flatMap entry
  let b := packCodes (fmtBits r.fmt) codes
  padTo (16 * cdiv a.length 16) a ++ padTo (16 * cdiv b.length 16) b

/-- EIDX, FORMAT, RUNG and SC of a packet: byte 8 on for COLL, byte 12 on for RWRITE. -/
def pkEidx (q : Packet) : Nat := if q.typ = 10 then q.tfb 8 1 else q.tfb 12 1
def pkFmt (q : Packet) : Nat := bitsOf (if q.typ = 10 then q.tfb 9 1 else q.tfb 13 1) 0 5
def pkRung (q : Packet) : Nat := bitsOf (if q.typ = 10 then q.tfb 9 1 else q.tfb 13 1) 5 2
def pkSc (q : Packet) : Nat := if q.typ = 10 then bitsOf (q.tfb 11 1) 1 4 else bitsOf (q.tfb 14 1) 0 4
def pkOff (q : Packet) : Nat := if q.typ = 10 then q.tfb 12 3 else 0
def pkVerdict (q : Packet) : Bool := q.typ == 10 && bitOf (q.tfb 9 1) 7

/-- Whether a Graft unit acts on a packet: COLL or RWRITE with EIDX nonzero, verdicts apart (R498, R518). -/
def converted (q : Packet) : Bool := (q.typ == 1 || q.typ == 10) && pkEidx q != 0 && !pkVerdict q

/-- The elements that a packet can hold: those of its data cells, and of a row those of the row. -/
def pkElems (b : List Byte) (r : Rung) (q : Packet) : Nat :=
  let n := 128 * (q.len - pkSc q) / max 1 (fmtBits r.fmt)
  if q.typ = 1 then min n (rowElems b) else n

/-- Whether SC and the element count of a packet agree with R511 (check 3 of R512). -/
def scOk (e : GEntry) (r : Rung) (q : Packet) : Bool :=
  let w := max 1 (fmtBits r.fmt)
  let d := q.len - pkSc q
  if q.typ = 1 then pkElems e.img r q == rowElems e.img && cdiv (rowElems e.img * w) 128 == d
    && scaleCells e r 0 (rowElems e.img) == pkSc q && decide (pkSc q ≤ q.len)
  else
    decide (pkSc q < q.len) &&
      (List.range (128 / w + 1)).any (fun i =>
        let n := 128 * (d - 1) / w + 1 + i
        decide (n ≤ 128 * d / w) && scaleCells e r (pkOff q) n == pkSc q)

/-- The failing check of R512 with an entry: its DETAIL. -/
def graftFails (e : GEntry) (q : Packet) : Option Nat :=
  let r := geRung e.img (pkRung q)
  if geRungs e.img ≤ pkRung q ∨ r.fmt ≠ pkFmt q then some 1
  else if !scOk e r q then some 2
  else none

/-- Record a refusal in GRF_NAK of unit `n` and answer it (R512). -/
def graftRefuse (s : State) (n : Nat) (q : Packet) (code detail : Nat) : State :=
  let s := s.satInc Reg.GRF_NAK_CNT_COUNT [n] 1
  let s := if s.on Reg.GRF_NAK_VALID [n] then s
    else
      let s := (s.wr Reg.GRF_NAK_CODE [n] code).wr Reg.GRF_NAK_SRC_DIE [n] q.srcDie
      let s := (s.wr Reg.GRF_NAK_EIDX [n] (pkEidx q)).wr Reg.GRF_NAK_DETAIL [n] detail
      hedgeLevel (s.wr Reg.GRF_NAK_VALID [n] 1) (321 + 8 * n) true 0
  sendNak s q code detail

/-- The scale entries that a packet carries. -/
def pkScales (e : GEntry) (r : Rung) (q : Packet) : List (Nat × Int) :=
  let n := e.scaleBytes r
  (List.range (16 * pkSc q / n)).map (fun i =>
    (fieldAt q.body (n * i) 4, if n = 8 then intCode 32 false (fieldAt q.body (n * i + 4) 4) else 0))

/-- The codes of a packet with the scale and zero point of each: the open block's until a block begins. -/
def pkCodes (e : GEntry) (r : Rung) (q : Packet) (n : Nat) : List (Nat × Nat × Int) :=
  let sc := pkScales e r q
  let data := q.body.drop (16 * pkSc q)
  let w := fmtBits r.fmt
  let first := cdiv (pkOff q) (2 ^ r.blk)
  (List.range n).map (fun i =>
    let c := element data w i
    if r.mode = 0 then (c, 0x3F800000, 0)
    else
      let k := (pkOff q + i) / 2 ^ r.blk
      if k < first then (c, e.rxS, e.rxZ) else let x := sc.getD (k - first) (0, 0); (c, x.1, x.2))

/-- The FP32 value of a received code. -/
def pkValue (e : GEntry) (r : Rung) (x : Nat × Nat × Int) : Nat :=
  if r.mode = 0 then toF32 (decodeFmt r.fmt x.1) else dequant r (e.book r) x.2.1 x.2.2 x.1

/-- Whether a received code stands at a clip limit or a table extreme (R513). -/
def atLimit (e : GEntry) (r : Rung) (c : Nat) : Bool :=
  if r.mode = 0 then false
  else if isCb r.fmt then c == 0 || c + 1 == (e.book r).length
  else
    let lim := clipLimits e.img r
    let v : Num := match intRange r.fmt with
      | some _ => ofInt (intCode (fmtBits r.fmt) (fmtUnsigned r.fmt) c)
      | none => decodeFmt r.fmt c
    v.eqv lim.1 || v.eqv lim.2

/-- Count a packet of `n` elements at an ingress or observing entry (R513); its FP32 elements. -/
def countRx (s : State) (k : Nat) (e : GEntry) (q : Packet) (n : Nat) : State × List Nat :=
  let r := geRung e.img (pkRung q)
  let cs := pkCodes e r q n
  let vs := cs.map (pkValue e r)
  let fin := cs.filter (fun x => !(f32 x.2.1).isNan)
  let last := cs.getLastD (0, e.rxS, e.rxZ)
  let e := { e with
    elems := satAdd 64 e.elems n
    clipped := satAdd 64 e.clipped (fin.filter (fun x => atLimit e r x.1)).length
    nonfin := satAdd 32 e.nonfin (if r.mode = 0 then (vs.filter (fun v => (f32 v).nonfinite)).length else n - fin.length)
    maxAbs := maxAbs32 e.maxAbs (vs.map f32)
    fallbacks := if e.rung = pkRung q then e.fallbacks else satAdd 32 e.fallbacks 1
    rung := pkRung q, rxS := last.2.1, rxZ := last.2.2 }
  ((s.setGent k e).wrapInc Reg.GRF_ELEMS_COUNT [k / 256] n, vs)

/-! ### Sends waiting at a unit -/

/-- Put a send into the egress of a unit. -/
def queueSend (s : State) (d : GSend) : State :=
  let n := d.entry / 256
  let g := s.graft
  showGraft { s with graft := { g with egress := FMap.set g.egress [] n (FMap.get g.egress [] n ++ [d]) } } n

/-- The egress entry of an RWRITE stream. -/
def State.rowEntryOf (s : State) (q : Packet) : Option Nat :=
  (s.graft.entries.find? (fun e => e.2.role == 0 && geKind e.2.img == 1 && geDstDie e.2.img == q.dstDie
    && geAgent e.2.img == q.dstAgent / 4 + 16 * (q.tfb 10 1 % 16))).map (·.1)

/-- A row leaves: through the Graft unit when the plan converts its stream, otherwise as it is (R498). -/
def sendRowPacket (s : State) (q : Packet) : State :=
  match s.rowEntryOf q with
  | none => injectPkt s q
  | some k =>
    match s.gent k with
    | none => injectPkt s q
    | some e =>
      let f := (geRung e.img (geLast e.img)).fmt
      let l := (List.range (rowElems e.img)).map (fun i => toF32 (decodeFmt f (element q.body (fmtBits f) i)))
      queueSend s { entry := k, pkt := q, rwrite := true, elems := l, block0 := 0, rung := 0 }

/-! ### Routing past observing entries (R488, R499) -/

/-- The observing entry for a packet that this die forwards. -/
def State.observer (s : State) (q : Packet) : Option (Nat × GEntry) :=
  s.graft.entries.find? (fun e => e.2.role == 2 && geSrcDie e.2.img == q.srcDie && geEidx e.2.img == pkEidx q
    && geKind e.2.img == (if q.typ = 10 then 0 else 1)
    && (if q.typ = 10 then geAgent e.2.img == q.srcAgent
        else geAgent e.2.img == q.dstAgent / 4 + 16 * (q.tfb 10 1 % 16)))

/-- PACKET_ROUTE: the oldest packet of the routing stage; a converted packet that this die forwards is counted by its
observing entry, or refused and discarded. -/
def packetRouteOp (s : State) : State :=
  match s.link.routeQ with
  | [] => s
  | q :: rest =>
    let s := { s with link := { s.link with routeQ := rest } }
    if q.inPort < 8 ∧ q.pkt.dstDie ≠ s.self ∧ converted q.pkt then
      match s.observer q.pkt with
      | none => routeOne s q
      | some (k, e) =>
        match graftFails e q.pkt with
        | some d => graftRefuse (returnCells s q) (k / 256) q.pkt 0x29 d
        | none => routeOne (countRx s k e q.pkt (pkElems e.img (geRung e.img (pkRung q.pkt)) q.pkt)).1 q
    else routeOne s q

/-- PACKET_ROUTE. -/
def execPacketRoute (s : State) : Outcome State Fault Refusal := .next (packetRouteOp s)

end Sys2Proof.Machine
end

