-- ==== Sys2Proof/Machine/ArrayMath.lean ====
section
/-! DEFINITION. The numbers of the Matrix Array: operand elements (R229-R232), the parts of binary32 (R243, R370),
products and digit products (R233), groups (R235), trees (R236), special values (R237), exact integers (R238), and
the counters of R364. -/

namespace Sys2Proof.Machine

/-! ### Counters (R364, R365) -/

/-- Set a numeric flag; its source is raised when it is first set (R550). -/
def numFlag (s : State) (p bit : Nat) : State :=
  let v := s.rd Reg.PLT_NUMFLAG_FLAGS [p]
  if bitOf v bit then s
  else hedgeEvent (s.wr Reg.PLT_NUMFLAG_FLAGS [p] (v + 2 ^ bit)) (64 + 8 * p + 6) bit

/-- Charge numeric events to a context. -/
def charge (s : State) (p c : Nat) (e : NumEv) : State :=
  let s := (s.satInc Reg.PLT_NUM_SAT [p, c] e.sat).satInc Reg.PLT_NUM_OVF [p, c] e.ovf
  let s := s.satInc Reg.PLT_NUM_NAN_LOSS [p, c] e.nanLoss
  let s := (s.satInc Reg.PLT_FLUSH_FLUSH_IN [p, c] e.flushIn).satInc Reg.PLT_FLUSH_FLUSH_OUT [p, c] e.flushOut
  let s := if e.flushIn + e.flushOut = 0 then s else numFlag s p (4 * c)
  let s := if e.sat = 0 then s else numFlag s p (4 * c + 1)
  let s := if e.ovf = 0 then s else numFlag s p (4 * c + 2)
  if e.nanLoss = 0 then s else numFlag s p (4 * c + 3)

/-! ### Elements -/

/-- A decoded element: its value and whether its 16-bit magnitude is |q| (I16, R229). -/
structure Elem where
  v : Num
  i16 : Bool := false
  deriving DecidableEq, Repr

/-- A zero element. -/
def zeroElem : Elem := ⟨zeroNum, false⟩

/-- The BF16 value nearest to x, the largest finite one for a finite x beyond it (R370), with the flushes. -/
def toBf16 (flush : Bool) (x : Num) : Num × Nat :=
  let r := encodeNum 2 .rne false x
  let code := match x with
    | .fin s _ _ => if r.2.ovf = 0 then r.1 else bf16.maxCode s
    | _ => r.1
  decodeFlush flush 2 code

/-- Part 1 or 2 of a binary32 code (R243, R370), with the flushes. -/
def f32Part (flush : Bool) (part code : Nat) : Num × Nat :=
  let x := decodeFlush flush 0 code
  let p1 := toBf16 flush x.1
  if part = 1 then (p1.1, x.2 + p1.2)
  else match x.1 with
    | .fin _ _ _ =>
      let p2 := toBf16 flush (x.1.add p1.1.negate)
      (p2.1, x.2 + p2.2)
    | _ => (zeroNum, x.2)

/-- Decode one element of an operand: a codebook entry, a binary32 part, or the format's value; with the flushes. -/
def decodeElem (f : Nat) (cb : List Nat) (flush : Bool) (part code : Nat) : Elem × Nat :=
  if isCb f then (⟨(cfDecode (cb.getD code 0)).getD zeroNum, false⟩, 0)
  else if f = 0 then
    let x := f32Part flush part code
    (⟨x.1, false⟩, x.2)
  else
    let x := decodeFlush flush f code
    (⟨x.1, f == 0xA⟩, x.2)

/-- The elements of an A row from K offset `k0`: those beyond K are zero (R302). -/
def aElems (b : List Byte) (cls : Nat) (cb : List Nat) (part k0 : Nat) (row : List Byte) : List (Elem × Nat) :=
  let w := fmtBits (opFmt b 0)
  (List.range (kStep cls)).map (fun i =>
    if k0 + i < dtK b then decodeElem (opFmt b 0) cb (dtFlush b) part (element row w i) else (zeroElem, 0))

/-- The code of column `n` in K vector `k` of a weight plane (R330). -/
def bCode (b : List Byte) (cls : Nat) (rows : List (List Byte)) (k n : Nat) : Nat :=
  let w := fmtBits (opFmt b 1)
  let v := bVecs b cls
  if v = 0 then element (rows.getD (2 * k) [] ++ rows.getD (2 * k + 1) []) w n
  else element ((rows.getD (k / v) []).drop (k % v * (cols cls * w / 8))) w n

/-- The scale entry of column `n` of K vector number `vec` of B, and its zero point; `g0` is the first group that
the plane's scale bytes cover (R231, R342). -/
def bScale (b : List Byte) (cls : Nat) (scales : List Byte) (g0 vec n : Nat) : Num × Int :=
  if opScale b 1 = 0 then (.fin false 1 0, 0)
  else
    let at' := scaleEntry b * (cols cls * (bGroup b vec - g0) + n)
    let z := if dtExpand b then
        let f := opFmt b 1
        intCode (fmtBits f) (fmtUnsigned f) (fieldAt scales (at' + 1) 1 % 2 ^ fmtBits f)
      else 0
    (scaleValue (opScale b 1) (fieldAt scales at' 1), z)

/-- Column `n` of a weight plane: each element with the block scale that its products take; an expanded weight has
its scale in it (R231). -/
def bColumn (b : List Byte) (cls : Nat) (cb : List Nat) (pl : WPlane) (part vec0 k0 n : Nat) : List (Elem × Num) :=
  let g0 := bGroup b vec0
  (List.range (kStep cls)).map (fun k =>
    if k0 + k < dtK b then
      let e := (decodeElem (opFmt b 1) cb (dtFlush b) part (bCode b cls pl.rows k n)).1
      let sc := bScale b cls pl.scales g0 (vec0 + k) n
      if dtExpand b then (⟨(e.v.add (ofInt (-sc.2))).mul sc.1, false⟩, .fin false 1 0) else (e, sc.1)
    else (zeroElem, .fin false 1 0))

/-- Elements that the load of a weight plane flushes (R365). -/
def bFlushes (b : List Byte) (cls part k0 : Nat) (rows : List (List Byte)) : Nat :=
  (List.range (min (kStep cls) (dtK b - k0))).foldl (fun a k =>
    (List.range (cols cls)).foldl (fun a n =>
      a + (decodeElem (opFmt b 1) [] (dtFlush b) part (if isCb (opFmt b 1) then 0 else bCode b cls rows k n)).2) a) 0

/-! ### Products -/

/-- The digits of an element's significand magnitude: itself below the 16-bit class, else its high and low digit
(R229). -/
def digits (cls : Nat) (e : Elem) : List (Nat × Int) :=
  match e.v with
  | .fin _ m x =>
    if m = 0 then []
    else if cls ≠ 3 then [(m, x)]
    else if e.i16 then [(m / 256, x + 8), (m % 256, x)]
    else
      let l := Nat.log2 m
      let sig := m * 2 ^ (11 - l)
      let y := x - ((11 - l : Nat) : Int)
      [(sig / 256, y + 8), (sig % 256, y)]
  | _ => []

/-- A product with its block scales applied (R233): its exact value and the magnitudes that the window aligns. -/
structure Prod where
  v : Num
  parts : List (Nat × Int)
  deriving DecidableEq, Repr

/-- Magnitude and exponent of a finite number. -/
def magExp : Num → Nat × Int
  | .fin _ m e => (m, e)
  | _ => (0, 0)

/-- The product of two elements under their scales. `dropA` or `dropB` marks a factor that is a first part whose
infinity or NaN this term leaves out (R370). -/
def prodOf (cls : Nat) (a b : Elem) (sa sb : Num) (dropA dropB : Bool) : Prod :=
  if (dropA && (a.v.isNan || a.v.isInf)) || (dropB && (b.v.isNan || b.v.isInf)) then ⟨zeroNum, []⟩
  else
    let v := ((a.v.mul b.v).mul sa).mul sb
    match v with
    | .fin _ m _ =>
      if m = 0 then ⟨v, []⟩
      else
        let s := magExp sa
        let t := magExp sb
        ⟨v, ((digits cls a).flatMap (fun x => (digits cls b).map (fun y =>
          (x.1 * y.1 * s.1 * t.1, x.2 + y.2 + s.2 + t.2)))).filter (fun z => z.1 != 0)⟩
    | _ => ⟨v, []⟩

/-- What the special values of a group or tree make of it (R237): a NaN, an infinity, or nothing. -/
def specialOf (l : List Prod) : Option Num :=
  let pos := l.any (fun x => x.v == .inf false)
  let neg := l.any (fun x => x.v == .inf true)
  if l.any (fun x => x.v.isNan) ∨ (pos ∧ neg) then some (.nan false)
  else if pos then some (.inf false)
  else if neg then some (.inf true)
  else none

/-- The sum of a group in the window whose bit `top` holds the most significant bit of the largest product, rounded
into the extended form (R235, R244). -/
def groupSum (top : Nat) (r : Rnd) (l : List Prod) : Num :=
  match specialOf l with
  | some x => x
  | none =>
    match l.flatMap (·.parts) with
    | [] => zeroNum
    | x :: xs =>
      let msb (y : Nat × Int) : Int := (Nat.log2 y.1 : Int) + y.2
      let lsb := xs.foldl (fun a y => max a (msb y)) (msb x) - top
      let sum := l.foldl (fun a q => q.parts.foldl (fun a y =>
        a + signed q.v.neg? (roundAt .trunc y.1 1 y.2 lsb)) a) (0 : Int)
      roundSig r 32 (.fin (sum < 0) sum.natAbs lsb)

/-- Cut a list into pieces of `n`. -/
def pieces {α : Type} (n : Nat) : Nat → List α → List (List α)
  | 0, _ => []
  | _, [] => []
  | k + 1, l => l.take n :: pieces n k (l.drop n)

/-- A column result in ACC_EXACT: the groups, added in ascending K order (R235). -/
def exactColumn (g : Nat) (fast : Bool) (l : List Prod) : Num :=
  let r : Rnd := if fast then .trunc else .rne
  match (pieces g l.length l).map (groupSum (if fast then 40 else 88) r) with
  | [] => zeroNum
  | x :: xs => xs.foldl (fun a y => roundSig r 32 (a.add y)) x

/-- Round to FP32 as ACC_ROUNDED does, with the events (R236, R244, R362). -/
def treeRound (fast flush : Bool) (x : Num) : Num × NumEv :=
  if x.isNan then (.nan false, {})
  else
    let r := encodeNum 0 (if fast then .trunc else .rne) flush x
    (f32 r.1, r.2)

/-- A column result in ACC_ROUNDED: the balanced tree of rounded products; a zero is +0 (R236, R369). -/
def roundedColumn (fast flush : Bool) (l : List Prod) : Num × NumEv :=
  match specialOf l with
  | some x => (x, {})
  | none =>
    let f (x y : Num × NumEv) : Num × NumEv :=
      let r := treeRound fast flush (x.1.add y.1)
      (r.1, (x.2.add y.2).add r.2)
    match treeFold f 9 (l.map (fun q => treeRound fast flush q.v)) with
    | (v, e) :: _ => (if v.isZero then zeroNum else v, e)
    | [] => (zeroNum, {})

/-- Whether the array accumulates exact integers (R238). -/
def intMode (b : List Byte) : Bool :=
  let ok (x : Nat) : Bool := [0xA, 0xB, 0xC, 0xD, 0xE].contains (opFmt b x) && opScale b x == 0
  ok 0 && ok 1 && !dtExpand b

/-- The integer value of an element. -/
def elemInt (e : Elem) : Int :=
  match e.v with
  | .fin n m x => signed n (shiftUp m x)
  | _ => 0

/-- Add a column result to an accumulator entry, or initialise it (R239, R355). -/
def accumulate (b : List Byte) (first : Bool) (old : Nat) (x : Num) : Nat :=
  if first then encodeExt x
  else
    encodeExt (roundSig (if dtFast b then .trunc else .rne) (if dtRounded b then 24 else 32) ((decodeExt old).add x))

/-- One column of a step: the new entry and the events. `a` holds the row's elements with their block scales. -/
def columnStep (b : List Byte) (cls : Nat) (first : Bool) (pass : Nat × Nat) (a : List (Elem × Num))
    (col : List (Elem × Num)) (old : Nat) : Nat × NumEv :=
  if intMode b then
    let sum := (a.zip col).foldl (fun t x => t + elemInt x.1.1 * elemInt x.2.1) (0 : Int)
    (intEntry (sum + (if first then 0 else entryInt old)), {})
  else
    let l := (a.zip col).map (fun x =>
      prodOf cls x.1.1 x.2.1 x.1.2 x.2.2 (pass.2 == 2) (pass.1 == 2))
    if dtRounded b then
      let r := roundedColumn (dtFast b) (dtFlush b) l
      (accumulate b first old r.1, r.2)
    else (accumulate b first old (exactColumn (dtGroup b) (dtFast b) l), {})

/-- The passes of a set as (part of A, part of B), in order (R243). -/
def passList (b : List Byte) : List (Nat × Nat) :=
  if dtPasses b = 3 then [(2, 1), (1, 2), (1, 1)]
  else if dtPasses b = 2 then [if dtRefineB b then (1, 2) else (2, 1), (1, 1)]
  else [(1, 1)]

/-- The conditions of R242, R243 and R371 that fault a MATMUL; `rscOn`, `actOn` are the Vector Unit enables. -/
def modeBad (b : List Byte) (rscOn actOn : Bool) : Bool :=
  let fA := opFmt b 0 == 0
  let fB := opFmt b 1 == 0
  (dtZp b && !intMode b)
    || (dtPasses b == 2 && !(if dtRefineB b then fB else fA))
    || (dtPasses b == 3 && !(fA && fB))
    || (dtPair b && (opFmt b 2 != 0 || opScale b 2 != 0 || dtRound b != 0 || dtFast b || dtZp b || rscOn || actOn))

/-! ### The output operation (R249-R251, R372) -/

/-- Flush a subnormal FP32 input under SUBN_FLUSH (R362). -/
def f32In (flush : Bool) (c : Nat) : Num × Nat := decodeFlush flush 0 c

/-- An FP32 fused multiply-add to nearest even under the subnormal mode. -/
def vecFma (flush : Bool) (a b c : Num) : Num × NumEv :=
  let r := encodeNum 0 .rne flush (a.fma b c)
  (f32 r.1, r.2)

/-- The activation polynomial (R251): the segment of x, then Horner's rule up to DEGREE. -/
def activate (flush : Bool) (coef : List Byte) (act : Nat) (x : Num) : Num × NumEv :=
  if x.isNan then (x, {})
  else
    let j := ((List.range (actSegs act - 1)).filter (fun i => !(x.lt (f32 (fieldAt coef (4 * i) 4))))).length
    let c (i : Nat) : Num × Nat := f32In flush (fieldAt coef (256 + 16 * j + 4 * i) 4)
    let d := actDegree act
    (List.range d).foldl (fun y i =>
      let ci := c (d - 1 - i)
      let r := vecFma flush y.1 x ci.1
      (r.1, (y.2.add r.2).add { flushIn := ci.2 })) ((c d).1, { flushIn := (c d).2 })

/-- Steps 1 to 4 of RESCALE_ACT for one entry: `zp` is the correction to apply to an integer entry, `draw` the draw of
step 2, `sc` and `bi` the channel's scale and bias codes. -/
def outValue (b : List Byte) (zp : Option Int) (draw sc bi act : Nat) (coef : List Byte) (entry : Nat) : Num × NumEv :=
  let flush := dtFlush b
  let x : Num := match zp with
    | some z => f32 (toF32 (ofInt (entryInt entry + z)))
    | none => if intMode b then ofInt (entryInt entry) else decodeExt entry
  let r := encodeNum 0 (if dtFast b then .trunc else roundMode (dtRound b) draw) flush x
  let s := f32In flush sc
  let t := f32In flush bi
  let y := vecFma flush s.1 (f32 r.1) t.1
  let e := (r.2.add y.2).add { flushIn := s.2 + t.2 }
  if actEn act then
    let z := activate flush coef act y.1
    (z.1, e.add z.2)
  else (y.1, e)

/-- The hi and lo parts of an error-compensating pair (R372). -/
def pairOut (flush : Bool) (x : Num) : Nat × Nat × NumEv :=
  match x with
  | .nan _ => (0x7FC00000, 0, {})
  | .inf n => (fp32.infCode n, 0, {})
  | .fin _ _ _ =>
    let h := encodeNum 0 .rne flush x
    if h.2.ovf ≠ 0 then (h.1, 0, { ovf := 1 })
    else
      let l := encodeNum 0 .rne flush (x.add (f32 h.1).negate)
      (h.1, l.1, h.2.add l.2)

end Sys2Proof.Machine
end

