-- ==== Sys2Proof/Machine/Array.lean ====
section
/-! DEFINITION. The Matrix Array at work (R239, R240, R245, R300-R305): MATMUL and its walk, tile and block
boundaries, shadow loads, steps, spills and reloads, and the drain of a plane through RESCALE_ACT (R249). -/

namespace Sys2Proof.Machine

open Host (Outcome)

/-! ### Instructions of a context -/

/-- The 16 bytes of the instruction at an address of program memory (R287). -/
def State.instrAt (s : State) (p pc : Nat) : List Byte :=
  leBytes 16 (match FMap.find (s.plot p).prog pc with
    | some w => w
    | none => (Config.programWord p pc).toNat)

/-- The program counter. -/
def State.pcOf (s : State) (p c : Nat) : Nat := s.rd Reg.RKE_CTX_PC [p, c]

/-- The opcodes of R292. -/
def rakeOpcodes : List Nat := [0, 1, 2, 3, 4, 8, 0x10, 0x11, 0x18, 0x20, 0x21, 0x28, 0x29, 0x2A]

/-- Whether a context can issue the instruction at its PC: it is live and no MATMUL, fence or HALT holds it. -/
def State.canIssue (s : State) (p c : Nat) : Bool :=
  let x := s.ctx p c
  s.ctxLive p c && x.walk.isNone && x.fence.isNone && !x.halting

/-- Whether the bytes `l` of an instruction that an opcode leaves unused are zero: the first nonzero one. -/
def firstNonzero (l : List Byte) (unused : List Nat) : Option Nat :=
  unused.find? (fun i => fieldAt l i 1 != 0)

/-- Retire the instruction at PC (R325, PC_RANGE past 4,095). -/
def retireTo (s : State) (p c pc : Nat) : State :=
  let x := s.ctx p c
  let s := s.setCtx p c { x with
    wait := none, progress := 0, inBytes := [], held := [], outRows := [], issued := x.issued + 1 }
  let s := showCtx s p c
  if 4095 < pc then ctxFault s p c 3 pc
  else takeSets (s.wr Reg.RKE_CTX_PC [p, c] pc) p c

/-- Retire and go on to the next instruction. -/
def retireNext (s : State) (p c : Nat) : State := retireTo s p c (s.pcOf p c + 1)

/-- Run one instruction: nothing when the context cannot issue or its instruction is another one of the set; an
opcode outside the set faults (R325). -/
def issue (s : State) (p c opcode : Nat) (act : State → List Byte → State) : State :=
  let l := s.instrAt p (s.pcOf p c)
  let op := fieldAt l 0 1
  if !s.coreUp ∨ !s.canIssue p c then s
  else if !(rakeOpcodes.contains op) then ctxFault s p c 1 op
  else if op ≠ opcode then s
  else act s l

/-- The lowest byte of an instruction that breaks a check, among those marked bad and the unused ones that are not
zero. -/
def badByte (l : List Byte) (bad : List (Nat × Bool)) (unused : List Nat) : Option Nat :=
  (List.range 32).find? (fun i => bad.contains (i, true) || (unused.contains i && fieldAt l i 1 != 0))

/-- Fault BAD_FIELD on the lowest byte that breaks a check, or go on (R325). -/
def checked (s : State) (p c : Nat) (l : List Byte) (bad : List (Nat × Bool)) (unused : List Nat)
    (act : State → State) : State :=
  match badByte l bad unused with
  | some i => badField s p c i
  | none => act s

/-- Fault BAD_FIELD on the first unused byte that is not zero, or go on (R292, R325). -/
def strictly (s : State) (p c : Nat) (l : List Byte) (unused : List Nat) (act : State → State) : State :=
  match firstNonzero l unused with
  | some i => badField s p c i
  | none => act s

/-! ### The walk -/

/-- First row of a block of operand `x` (R301). -/
def Walk.row (w : Walk) (b : List Byte) (x : Nat) : Int :=
  let off := match x with | 0 => w.offA | 1 => w.offB | 2 => w.offC | _ => w.offP
  (List.range 6).foldl (fun a n => a + (w.idx.getD n 0 : Int) * lvStride b n x) (opBase b x + off)

/-- The indices of DIM `d` among levels `lo` to `hi - 1` as one number, the lowest level fastest (R301). -/
def Walk.dimIndex (w : Walk) (b : List Byte) (d lo hi : Nat) : Nat :=
  ((List.range (hi - lo)).foldl (fun (a : Nat × Nat) i =>
    if lvDim b (lo + i) = d then (a.1 + a.2 * w.idx.getD (lo + i) 0, a.2 * lvIter b (lo + i)) else a) (0, 1)).1

/-- The K block of the walk. -/
def Walk.kIdx (w : Walk) (b : List Byte) : Nat := w.idx.getD (kLevel b) 0

/-- First and last blocks of an output block (R302). -/
def Walk.isFirst (w : Walk) (b : List Byte) : Bool := w.pass == 0 && w.kIdx b == 0
def Walk.isLast (w : Walk) (b : List Byte) : Bool :=
  w.pass + 1 == (passList b).length && w.kIdx b + 1 == lvIter b (kLevel b)

/-- The digits of the inner walk, fastest first: the levels 0 to 2 with the pass (9) just outside the K level. -/
def innerOrder (b : List Byte) : List Nat :=
  if kLevel b = 0 then [0, 9, 1, 2] else if kLevel b = 1 then [0, 1, 9, 2] else [0, 1, 2, 9]

/-- Advance the digits with carry; none when they all wrap. -/
def advance (b : List Byte) (w : Walk) : List Nat → Option Walk
  | [] => none
  | n :: r =>
    let v := if n = 9 then w.pass else w.idx.getD n 0
    let top := if n = 9 then (passList b).length else lvIter b n
    let put (x : Nat) : Walk := if n = 9 then { w with pass := x } else { w with idx := w.idx.set n x }
    if v + 1 < top then some (put (v + 1)) else advance b (put 0) r

/-- The next block of the tile, and the next tile. -/
def Walk.nextBlock (w : Walk) (b : List Byte) : Option Walk := advance b w (innerOrder b)
def Walk.nextTile (w : Walk) (b : List Byte) : Option Walk := advance b w [3, 4, 5]

/-- Whether two blocks belong to one output block. -/
def sameOutput (b : List Byte) (v w : Walk) : Bool :=
  (List.range 3).all (fun n => n == kLevel b || v.idx.getD n 0 == w.idx.getD n 0)

/-- The part of A and of B in the current pass. -/
def Walk.parts (w : Walk) (b : List Byte) : Nat × Nat := (passList b).getD w.pass (1, 1)

/-- The key of the weights a block needs (R303). -/
def Walk.wkey (w : Walk) (b : List Byte) (c : Nat) : WKey :=
  ⟨c, w.row b 1, opScaleRow b 1, opCbRow b 1, (w.parts b).2⟩

/-! ### The array's planes -/

/-- Change the array of a plot. -/
def State.setArr (s : State) (p : Nat) (a : MArray) : State := s.setPlot p { s.plot p with arr := a }

/-- Plane 0 or 1. -/
def MArray.getPlane (a : MArray) (i : Nat) : Plane := if i = 0 then a.p0 else a.p1
def MArray.putPlane (a : MArray) (i : Nat) (x : Plane) : MArray := if i = 0 then { a with p0 := x } else { a with p1 := x }

/-- The class and fast mode of the tile that the array serves, shown in PLT_ARR_STAT. -/
def showTile (s : State) (p : Nat) : State :=
  match (s.plot p).arr.owner with
  | some c => showArray s p (s.stepClass p (s.dtActive p c)) (dtFast (s.dtActive p c))
  | none => showArray s p 0 false

/-- Entries of one output row as P holds them (R301, R304), and back. -/
def spillBytes (x : Plane) (cls m : Nat) : List Byte :=
  (List.range (cols cls)).flatMap (fun n => leBytes 8 (FMap.get x.entries 0 (m * 256 + n)))

/-- Spill a plane to P (R302, R304); false when a row lies beyond the store. -/
def spillPlane (s : State) (p cls : Nat) (x : Plane) (row stride : Int) : State × Bool :=
  (List.range 256).foldl (fun (a : State × Bool) (m : Nat) =>
    let bytes := spillBytes x cls m
    (List.range (pRows cls)).foldl (fun (a : State × Bool) (i : Nat) =>
      let r : Int := row + (m : Int) * stride + (i : Int)
      if r < 0 then (a.1, false)
      else match writeRow a.1 p 2 r.toNat tagNone ((bytes.drop (256 * i)).take 256) with
        | (s, .ok) => (s, a.2)
        | (s, _) => (s, false)) a) (s, true)

/-- Reload a plane from P: the entries, or why not. -/
def reloadPlane (s : State) (p cls : Nat) (row stride : Int) : State × RowRead × FMap Nat :=
  (List.range 256).foldl (fun (a : State × RowRead × FMap Nat) (m : Nat) =>
    let r : Int := row + (m : Int) * stride
    match a.2.1 with
    | .ok _ =>
      if r < 0 then (a.1, .range, [])
      else match readRows a.1 p 2 r.toNat tagNone (pRows cls) with
        | (s, .ok d) =>
          (s, .ok [], (List.range (cols cls)).foldl (fun (m' : FMap Nat) (n : Nat) =>
            let v := fieldAt d (8 * n) 8
            if v = 0 then m' else m' ++ [(m * 256 + n, v)]) a.2.2)
        | (s, x) => (s, x, [])
    | _ => a) (s, .ok [], [])

/-! ### Blocks -/

/-- Take the array's weights for a block: reuse, or the shadow plane becomes current (R240, R303). -/
def takeWeights (s : State) (p : Nat) (k : WKey) : State :=
  let a := (s.plot p).arr
  if a.cur.key = some k then s
  else if a.shadow.key = some k then s.setArr p { a with cur := a.shadow, shadow := {} }
  else s

/-- Begin a block of the owner's walk (R302 steps 1 and 2): a plane is taken when its output block holds none, and
reloaded when the block is not first; the context waits for the array while both planes are held. -/
def startBlock (s : State) (p : Nat) : State :=
  let a := (s.plot p).arr
  match a.owner with
  | none => s
  | some c =>
    match (s.ctx p c).walk with
    | none => s
    | some w =>
      let b := s.dtActive p c
      let cls := s.stepClass p b
      match a.plane with
      | some _ => showTile (takeWeights (clearWait (s.setArr p { a with step := 0 }) p c) p (w.wkey b c)) p
      | none =>
        if a.p0.held ∧ a.p1.held then setWait s p c 4 0
        else
          let i := if a.p0.held then 1 else 0
          let fresh : Plane := { held := true, ctx := c }
          if w.isFirst b then
            let s := s.setArr p { a.putPlane i fresh with plane := some i, step := 0 }
            showTile (takeWeights (clearWait s p c) p (w.wkey b c)) p
          else
            match reloadPlane s p cls (w.row b 3) (opStride b 3) with
            | (s, .ok _, e) =>
              let s := s.setArr p { a.putPlane i { fresh with entries := e } with plane := some i, step := 0 }
              showTile (takeWeights (clearWait s p c) p (w.wkey b c)) p
            | (s, .poison, _) => poisonFault s p c
            | (s, _, _) => rangeFault s p c 0 2 (w.row b 3).toNat

/-- A MATMUL is over: it retires (R292). -/
def matmulDone (s : State) (p c : Nat) : State :=
  retireNext (s.setCtx p c { s.ctx p c with walk := none }) p c

/-- Start a tile of context `c` on the array: the boundary of R300, where captured sets take effect and the ordinal
advances; an index beyond its new bound retires the MATMUL (R309). -/
def startTile (s : State) (p c : Nat) : State :=
  let a := (s.plot p).arr
  let s := clearWait (s.setArr p { a with owner := some c, last := c, plane := none, step := 0 }) p c
  let s := takeSets s p c
  if s.ctxState p c = 3 then s
  else
    let b := s.dtActive p c
    match (s.ctx p c).walk with
    | none => s
    | some w =>
      if (List.range 6).any (fun n => lvIter b n ≤ w.idx.getD n 0) then
        matmulDone (s.setArr p { (s.plot p).arr with owner := none }) p c
      else
        let s := s.wrapInc Reg.RKE_TILES_ORDINAL [p, c] 1
        startBlock (s.setCtx p c { s.ctx p c with vops := 0 }) p

/-- Give the idle array to the next waiting context in turn (R117, R239); the others wait for it. -/
def grantArray (s : State) (p : Nat) : Nat → State
  | 0 => showTile s p
  | k + 1 =>
    if (s.plot p).arr.owner.isSome then showTile s p
    else
      let order := (List.range 4).map (fun i => ((s.plot p).arr.last + 1 + i) % 4)
      match order.find? (fun c => (s.ctx p c).walk.isSome && s.ctxLive p c) with
      | none => showTile s p
      | some c =>
        let s := order.foldl (fun s d =>
          if d ≠ c ∧ (s.ctx p d).walk.isSome ∧ s.ctxLive p d then setWait s p d 4 0 else s) s
        grantArray (startTile s p c) p k

/-! ### MATMUL -/

/-- The checks of MATMUL before any step, in order: the fault it takes, or none (R300, R325, R339). -/
def State.matmulFault (s : State) (p c : Nat) (b : List Byte) (o : Int × Int × Int × Int) : Option Nat :=
  if emptySet b then some 5
  else if !s.extentsFit p b (s.stepClass p b) o.1 o.2.1 o.2.2.1 o.2.2.2 then some 6
  else if isCb (opFmt b 2) then some 2
  else if modeBad b (rscEn (s.rscWord p c true)) (actEn (s.actWord p c true)) then some 7
  else none

/-- MATMUL: checks, then its tiles wait for the array. -/
def matmulOp (s : State) (p c : Nat) : State :=
  issue s p c 0x10 (fun s l => strictly s p c l [1, 10, 11, 12, 13, 14, 15] (fun s =>
    let b := s.dtActive p c
    let o := (i16 l 2, i16 l 4, i16 l 6, i16 l 8)
    match s.matmulFault p c b o with
    | some 7 => modeFault s p c
    | some k => ctxFault s p c k (if k = 2 then opAt 2 + 3 else 0)
    | none =>
      let w : Walk := ⟨o.1, o.2.1, o.2.2.1, o.2.2.2, [0, 0, 0, 0, 0, 0], 0⟩
      let s := s.setCtx p c { s.ctx p c with walk := some w }
      grantArray (if (s.plot p).arr.owner.isSome then setWait s p c 4 0 else s) p 4))

/-- MATMUL. -/
def execMatmul (p : Fin 16) (c : Fin 4) (s : State) : Outcome State Fault Refusal := nextQ (matmulOp s p c)

/-! ### Shadow load -/

/-- The block whose weights are loaded next: the current one while its weights are missing, else the next block of
the tile. -/
def State.loadTarget (s : State) (p c : Nat) (w : Walk) (b : List Byte) : Option Walk :=
  if (s.plot p).arr.cur.key ≠ some (w.wkey b c) then some w else w.nextBlock b

/-- Read the scale bytes that cover the K vectors of a block (R342). -/
def readScales (s : State) (p : Nat) (b : List Byte) (cls vec0 k : Nat) : State × RowRead :=
  if opScale b 1 = 0 then (s, .ok [])
  else
    let lo := scaleEntry b * cols cls * bGroup b vec0
    let hi := scaleEntry b * cols cls * (bGroup b (vec0 + (k - 1)) + 1)
    let r0 := opScaleRow b 1 + lo / 256
    match readRows s p (opStore b 1) r0 tagNone (cdiv hi 256 - lo / 256) with
    | (s, .ok d) => (s, .ok (d.drop (lo % 256)))
    | x => x

/-- Load a weight tile into the shadow plane, with B's tag operation (R240, R302): the context waits while a row is
EMPTY. -/
def shadowLoadOp (s : State) (p : Nat) : State :=
  let a := (s.plot p).arr
  match a.owner with
  | none => s
  | some c =>
    match (s.ctx p c).walk with
    | none => s
    | some w =>
      let b := s.dtActive p c
      let cls := s.stepClass p b
      match s.loadTarget p c w b with
      | none => s
      | some t =>
        let key := t.wkey b c
        if a.shadow.key = some key ∨ a.cur.key = some key then s
        else
          let k := min (kStep cls) (dtK b - kStep cls * t.kIdx b)
          let row := t.row b 1
          let n := bRows b cls k
          let st := opStore b 1
          if row < 0 then rangeFault s p c 0 st 0
          else if !s.rowsReady p st row.toNat (opTag b 1) n then
            setWait s p c 1 (tagArg st (s.firstEmpty p st row.toNat n))
          else
            let vec0 := bVecs b cls * (row - opBase b 1).toNat
            match readRows s p st row.toNat (opTag b 1) n with
            | (s, .ok d) =>
              (match readScales s p b cls vec0 k with
               | (s, .ok sc) =>
                 let rows := (List.range n).map (fun i => (d.drop (256 * i)).take 256)
                 let s := charge s p c { flushIn := bFlushes b cls (t.parts b).2 (kStep cls * t.kIdx b) rows }
                 let s := s.setArr p { (s.plot p).arr with shadow := ⟨some key, rows, sc⟩ }
                 let s := clearWait s p c
                 showTile (if t = w then takeWeights s p key else s) p
               | (s, .poison) => poisonFault s p c
               | (s, _) => rangeFault s p c 0 st (opScaleRow b 1))
            | (s, .poison) => poisonFault s p c
            | (s, _) => rangeFault s p c 0 st row.toNat

/-- SHADOW_LOAD_COMPLETE. -/
def execShadowLoadComplete (p : Fin 16) (s : State) : Outcome State Fault Refusal :=
  nextQ (if s.coreUp then shadowLoadOp s p else s)

/-! ### Steps -/

/-- A parity error of the array: the tile stops and the job ends (07_plot_array_vector, R638). -/
def arrayUpset (s : State) (p c : Nat) (u : Upset) : State :=
  let s := match u with
    | .weight => s.wr Reg.PLT_ARR_ERR_WPLANE_PAR [p] 1
    | _ => s.wr Reg.PLT_ARR_ERR_ACC_PAR [p] 1
  let s := (s.wr Reg.PLT_ARR_ERR_CTX [p] c).satInc Reg.PLT_ARR_ERR_COUNT [p] 1
  let s := hedgeLevel s (64 + 8 * p + 4) true 0
  let s := faultRecord s 2 ([3, BitVec.ofNat 8 p, 0, BitVec.ofNat 8 (s.plotFunc p)] ++ fill 8 0
    ++ leBytes 2 Status.jobFault.code)
  match s.jobOf p with
  | some j => endJob s j .jobFault
  | none => haltPlot s p

/-- The scales of an A row: one per element (R342). -/
def aScales (b : List Byte) (bytes : List Byte) (i : Nat) : Num :=
  if opScale b 0 = 0 then .fin false 1 0
  else scaleValue (opScale b 0) (fieldAt bytes (i / scaleLen (opScale b 0)) 1)

/-- The scale bytes of an A row that lies `d` rows past BASE_ROW. -/
def readAScales (s : State) (p : Nat) (b : List Byte) (cls d : Nat) : State × RowRead :=
  if opScale b 0 = 0 then (s, .ok [])
  else
    let off := scaleBytesPerRow b cls 0 * d
    match readRow s p (opStore b 0) (opScaleRow b 0 + off / 256) tagNone with
    | (s, .ok l) => (s, .ok (l.drop (off % 256)))
    | x => x

/-- The effect of one step on its plane (R245 steps 3 to 6): the plane, the events and the row sum's part. -/
def stepPlane (b : List Byte) (cls : Nat) (x : Ctx) (w : Walk) (cur : WPlane) (pl : Plane) (m : Nat)
    (row sc : List Byte) : Plane × NumEv :=
  let pass := w.parts b
  let k0 := kStep cls * w.kIdx b
  let el := aElems b cls x.cbA pass.1 k0 row
  let a := (el.zipIdx).map (fun e => (e.1.1, aScales b sc e.2))
  let vec0 := bVecs b cls * (w.row b 1 - opBase b 1).toNat
  let ev : NumEv := { flushIn := el.foldl (fun t e => t + e.2) 0 }
  let r := (List.range (cols cls)).foldl (fun (t : FMap Nat × NumEv) n =>
    let old := FMap.get pl.entries 0 (m * 256 + n)
    let y := columnStep b cls (w.isFirst b) pass a (bColumn b cls x.cbB cur pass.2 vec0 k0 n) old
    (FMap.set t.1 0 (m * 256 + n) y.1, t.2.add y.2)) (pl.entries, ev)
  let rs := if intMode b then el.foldl (fun t e => t + elemInt e.1) (0 : Int) else 0
  let old := if w.isFirst b then 0 else entryInt (FMap.get pl.sums 0 m)
  ({ pl with entries := r.1, sums := FMap.set pl.sums 0 m (intEntry (old + rs)) }, r.2)

/-- One array step (R245). -/
def arrayStepOp (s : State) (p : Nat) (u : Upset) : State :=
  let a := (s.plot p).arr
  match a.owner, a.plane with
  | some c, some i =>
    (match (s.ctx p c).walk with
     | none => s
     | some w =>
       let b := s.dtActive p c
       let cls := s.stepClass p b
       if a.cur.key ≠ some (w.wkey b c) ∨ 256 ≤ a.step then s
       else if u ≠ .none then arrayUpset s p c u
       else
         let st := opStore b 0
         let row := w.row b 0 + a.step * opStride b 0
         if row < 0 then rangeFault s p c 0 st 0
         else if !s.rowsReady p st row.toNat (opTag b 0) (aRows b) then
           setWait s p c 1 (tagArg st (s.firstEmpty p st row.toNat (aRows b)))
         else
           match readRows s p st row.toNat (opTag b 0) (aRows b) with
           | (s, .ok d) =>
             (match readAScales s p b cls (row - opBase b 0).toNat with
              | (s, .ok sc) =>
                let r := stepPlane b cls (s.ctx p c) w a.cur (a.getPlane i) a.step d sc
                let s := charge (clearWait s p c) p c r.2
                let s := s.setArr p { a.putPlane i r.1 with step := a.step + 1 }
                let s := s.wrapInc Reg.PLT_STEPS_COUNT [p] 1
                { s with gov := { s.gov with actSteps := FMap.put s.gov.actSteps p (FMap.get s.gov.actSteps 0 p + 1) } }
              | (s, .poison) => poisonFault s p c
              | (s, _) => rangeFault s p c 0 st (opScaleRow b 0))
           | (s, .poison) => poisonFault s p c
           | (s, _) => rangeFault s p c 0 st row.toNat)
  | _, _ => s

/-- ARRAY_STEP. -/
def execArrayStep (p : Fin 16) (u : Upset) (s : State) : Outcome State Fault Refusal :=
  nextQ (if s.coreUp then arrayStepOp s p u else s)

/-! ### Block completion -/

/-- The drain of an output block whose last step is complete. -/
def State.drainOf (s : State) (p c : Nat) (w : Walk) (b : List Byte) (cls : Nat) : Drain :=
  { set := (List.range 64).map (fun i => s.rdA Reg.RKE_DT_WORD [p, c, i])
    rsc := s.rscWord p c true, act := s.actWord p c true, coef := (s.ctx p c).coef
    tile := s.rd Reg.RKE_TILES_ORDINAL [p, c]
    m0 := 256 * w.dimIndex b 1 0 3, n0 := cols cls * w.dimIndex b 2 0 3
    col0 := cols cls * w.dimIndex b 2 0 6, cRow := w.row b 2, row := 0
    order := (s.plot p).arr.drains, stamp := (s.ctx p c).issued }

/-- Leave the plane of a block (R302 step 4): it drains, stays with its output block, or is spilled to P. -/
def leavePlane (s : State) (p c i : Nat) (w : Walk) (nxt : Option Walk) (b : List Byte) (cls : Nat) : State :=
  let a := (s.plot p).arr
  let pl := a.getPlane i
  if w.isLast b then
    let d := s.drainOf p c w b cls
    s.setArr p { a.putPlane i { pl with drain := some d } with plane := none, step := 0, drains := a.drains + 1 }
  else
    let stay := match nxt with
      | some v => sameOutput b v w
      | none => false
    if stay then s.setArr p { a with step := 0 }
    else
      match spillPlane s p cls pl (w.row b 3) (opStride b 3) with
      | (s, true) => s.setArr p { (s.plot p).arr.putPlane i { pl with held := false } with plane := none, step := 0 }
      | (s, false) => rangeFault s p c 0 2 (w.row b 3).toNat

/-- A block's last step is complete (R302): the plane drains, spills or stays, and the next block, tile or context
goes on. -/
def blockCompleteOp (s : State) (p : Nat) : State :=
  let a := (s.plot p).arr
  match a.owner, a.plane with
  | some c, some i =>
    (match (s.ctx p c).walk with
     | none => s
     | some w =>
       if a.step ≠ 256 then s
       else
         let b := s.dtActive p c
         let cls := s.stepClass p b
         let nxt := w.nextBlock b
         let s := leavePlane s p c i w nxt b cls
         if s.ctxState p c = 3 then s
         else match nxt with
           | some v => startBlock (s.setCtx p c { s.ctx p c with walk := some v }) p
           | none =>
             let s := s.setArr p { (s.plot p).arr with owner := none }
             match w.nextTile b with
             | some v =>
               grantArray (s.setCtx p c { s.ctx p c with walk := some { v with idx := [0, 0, 0] ++ v.idx.drop 3, pass := 0 } }) p 4
             | none => grantArray (matmulDone s p c) p 4)
  | _, _ => s

/-- BLOCK_COMPLETE. -/
def execBlockComplete (p : Fin 16) (s : State) : Outcome State Fault Refusal :=
  nextQ (if s.coreUp then blockCompleteOp s p else s)

/-! ### RESCALE_ACT -/

/-- The bytes at `off` to `off + n - 1` counted from WS row `row`. -/
def wsBytes (s : State) (p row off n : Nat) : State × RowRead :=
  match readRows s p 0 (row + off / 256) tagNone (cdiv (off % 256 + n) 256) with
  | (s, .ok d) => (s, .ok ((d.drop (off % 256)).take n))
  | x => x

/-- The rescale entries, zero points and column sums of the channels of a drain. -/
def drainTables (s : State) (p : Nat) (b : List Byte) (cls : Nat) (d : Drain) :
    State × RowRead × List Byte × List Byte × List Byte :=
  let n := cols cls
  let e := rscEntry d.rsc
  let r1 := if rscEn d.rsc then wsBytes s p (rscBase d.rsc) (e * d.col0) (e * n) else (s, .ok [])
  let r2 := if dtZp b then wsBytes r1.1 p (opZpRow b 1) (4 * d.col0) (4 * n) else (r1.1, .ok [])
  let r3 := if dtZp b then wsBytes r2.1 p (opZpRow b 1) (4 * (matN b cls + d.col0)) (4 * n) else (r2.1, .ok [])
  match r1.2, r2.2, r3.2 with
  | .ok x, .ok y, .ok z => (r3.1, .ok [], x, y, z)
  | .poison, _, _ => (r3.1, .poison, [], [], [])
  | _, .poison, _ => (r3.1, .poison, [], [], [])
  | _, _, .poison => (r3.1, .poison, [], [], [])
  | _, _, _ => (r3.1, .range, [], [], [])

/-- z_a (R297). -/
def zpA (b : List Byte) : Int :=
  let f := opFmt b 0
  let v := opZpVal b 0
  if f = 0xA then intCode 8 false v else intCode (fmtBits f) (fmtUnsigned f) (v % 2 ^ fmtBits f)

/-- The correction that R241 adds to the sum of channel `n`: −z_b·Σa − z_a·Σb + K·z_a·z_b. -/
def zpCorrection (b : List Byte) (zb cs : List Byte) (rowSum : Int) (n : Nat) : Int :=
  let z := intCode 32 false (fieldAt zb (4 * n) 4)
  let c := intCode 32 false (fieldAt cs (4 * n) 4)
  let a := zpA b
  dtK b * a * z - z * rowSum - a * c

/-- One output row after steps 1 to 4 of R249: the FP32 values with the rounding of step 5. -/
def outRow (s : State) (p c : Nat) (b : List Byte) (cls : Nat) (d : Drain) (pl : Plane)
    (rs zb cs : List Byte) : List (Num × Rnd) × NumEv :=
  let seed := s.rd Reg.PLT_SR_SEED_SEED [p]
  let die := s.rd Reg.PLT_SR_DIE_DIE [p]
  let e := rscEntry d.rsc
  (List.range (cols cls)).foldl (fun (a : List (Num × Rnd) × NumEv) n =>
    let i := 2 * (4096 * (d.m0 + d.row) + (d.n0 + n))
    let sc := if rscEn d.rsc then fieldAt rs (e * n) 4 else 0x3F800000
    let bi := if rscEn d.rsc ∧ rscBias d.rsc then fieldAt rs (e * n + 4) 4 else 0
    let zp := if dtZp b then some (zpCorrection b zb cs (entryInt (FMap.get pl.sums 0 d.row)) n) else none
    let y := outValue b zp (srDraw seed die p c d.tile i) sc bi d.act d.coef (FMap.get pl.entries 0 (d.row * 256 + n))
    let r : Rnd := if dtFast b then .trunc else roundMode (dtRound b) (srDraw seed die p c d.tile (i + 1))
    (a.1 ++ [(y.1, r)], a.2.add y.2)) ([], {})

/-- Encode an output row for C: its bytes, its scale bytes and the events (R249 step 5, R342, R372). -/
def encodeRow (b : List Byte) (cls : Nat) (l : List (Num × Rnd)) : List Byte × List Byte × NumEv :=
  let f := opFmt b 2
  if opScale b 2 = 0 then
    let r := l.map (fun x => encodeNum f x.2 (dtFlush b) x.1)
    (packCodes (fmtBits f) (r.map (·.1)), [], r.foldl (fun a y => a.add y.2) {})
  else
    let r := (pieces (scaleLen (opScale b 2)) (cols cls) l).map (encodeBlock f (opScale b 2) (dtFlush b))
    (packCodes (fmtBits f) (r.flatMap (fun x => x.2.1)), r.map (fun x => BitVec.ofNat 8 x.1),
      r.foldl (fun a x => a.add x.2.2) {})

/-- An output row of PAIR_OUT (R372). -/
def encodePairs (b : List Byte) (cls : Nat) (d : Drain) (pl : Plane) : List Byte × NumEv :=
  (List.range (cols cls)).foldl (fun (a : List Byte × NumEv) n =>
    let e := FMap.get pl.entries 0 (d.row * 256 + n)
    let x := pairOut (dtFlush b) (if intMode b then ofInt (entryInt e) else decodeExt e)
    (a.1 ++ leBytes 4 x.1 ++ leBytes 4 x.2.1, a.2.add x.2.2)) ([], {})

/-- The agent ID of a context (R293). -/
def ctxAgent (p c : Nat) : Nat := 4 * p + c

/-- Write the consecutive rows of one output row with C's tag operation; they have been found writable. -/
def writeRowsFrom (s : State) (p st row tag : Nat) : List (List Byte) → State
  | [] => s
  | x :: r => writeRowsFrom (writeRow s p st row tag x).1 p st (row + 1) tag r

/-- Whether a sender may use a counter (R314). -/
def State.mayUse (s : State) (p k agent : Nat) : Bool :=
  s.on Reg.RKE_CRD_EN [p, k] && s.rd Reg.RKE_CRD_AGENT [p, k] == agent

/-- Put rows in line for credits of counter `k` (R314); the context waits with kind CREDIT while none is held. -/
def queueRows (s : State) (p c k agent stamp : Nat) (rows : List (List Byte)) : State :=
  let s := s.setPlot p { s.plot p with rq := (s.plot p).rq ++ rows.map (fun d => ⟨k, agent, c, stamp, padTo 256 d⟩) }
  if s.rd Reg.RKE_CRD_CREDITS [p, k] = 0 ∧ agent < 64 then setBg s p c (some (2, k)) else s

/-- Which plane drains next: the one whose drain began first. -/
def State.draining (s : State) (p : Nat) : Option (Nat × Drain) :=
  let a := (s.plot p).arr
  match a.p0.drain, a.p1.drain with
  | some d, some e => if d.order ≤ e.order then some (0, d) else some (1, e)
  | some d, none => some (0, d)
  | none, some e => some (1, e)
  | none, none => none

/-- The drain goes on: after row 255 the plane is released, and a tile that waits for a plane goes on (R239). -/
def drainNext (s : State) (p i : Nat) (d : Drain) : State :=
  let a := (s.plot p).arr
  let pl := a.getPlane i
  if d.row + 1 < 256 then s.setArr p (a.putPlane i { pl with drain := some { d with row := d.row + 1 } })
  else
    let s := showTile (s.setArr p (a.putPlane i { pl with held := false, drain := none })) p
    if (s.plot p).arr.owner.isSome ∧ (s.plot p).arr.plane = none then startBlock s p else s

/-- One vector step of a drain (R249): one output row goes to C. -/
def rescaleActOp (s : State) (p : Nat) : State :=
  match s.draining p with
  | none => s
  | some (i, d) =>
    let pl := (s.plot p).arr.getPlane i
    let c := pl.ctx
    let b := d.set.flatMap (leBytes 4)
    let cls := s.stepClass p b
    let st := opStore b 2
    let row := d.cRow + d.row * opStride b 2
    let n := cRows b cls
    if (s.plot p).rq.any (fun x => x.agent == ctxAgent p c) then s
    else if st = 3 ∧ !s.mayUse p (opCrd b 2) (ctxAgent p c) then ctxFault s p c 8 (opCrd b 2)
    else if st ≠ 3 ∧ (row < 0 ∨ s.storeRows p st < row.toNat + n) then rangeFault s p c 1 st row.toNat
    else if st ≠ 3 ∧ (List.range n).any (fun j => s.fillWaits p st (row.toNat + j) (opTag b 2)) then
      setBg s p c (some (1, fillArg st (s.firstFull p st row.toNat n)))
    else
      match drainTables s p b cls d with
      | (s, .ok _, rs, zb, cs) =>
        let pr := encodePairs b cls d pl
        let v := outRow s p c b cls d pl rs zb cs
        let e := encodeRow b cls v.1
        let bytes := if dtPair b then pr.1 else e.1
        let s := charge s p c (if dtPair b then pr.2 else v.2.add e.2.2)
        let s := if st ≠ 3 then setBg s p c none else s
        let dist := (row - opBase b 2).toNat
        let s := if opScale b 2 = 0 then s
          else
            let off := scaleBytesPerRow b cls 2 * dist
            let r := opScaleRow b 2 + off / 256
            flushRow (writeWords s p st r c tagNone (wordsFrom 64 (off % 256 / 4) e.2.1)).1 p st r
        let rows := pieces 256 n bytes
        let s := if st = 3 then queueRows s p c (opCrd b 2) (ctxAgent p c) d.stamp rows
          else writeRowsFrom s p st row.toNat (opTag b 2) rows
        drainNext s p i d
      | (s, .poison, _, _, _) => poisonFault s p c
      | (s, _, _, _, _) => rangeFault s p c 1 0 (rscBase d.rsc)

/-- RESCALE_ACT. -/
def execRescaleAct (p : Fin 16) (s : State) : Outcome State Fault Refusal :=
  nextQ (if s.coreUp then rescaleActOp s p else s)

end Sys2Proof.Machine
end

