-- ==== Sys2Proof/Machine/Vector.lean ====
section
/-! DEFINITION. The Vector Unit's VOP instruction (R247, R248, R310, R360, R362, R366-R369, R377): its checks, lanes,
operations and reductions, and how it reads and writes rows. -/

namespace Sys2Proof.Machine

open Host (Outcome)

/-! ### Fields (R310) -/

def vopKind (l : List Byte) : Nat := fieldAt l 1 1
def vopInt (l : List Byte) : Bool := bitOf (fieldAt l 2 1) 0
def vopIgnore (l : List Byte) : Bool := bitOf (fieldAt l 2 1) 1
def vopAcross (l : List Byte) : Bool := bitOf (fieldAt l 2 1) 2
def vopDst (l : List Byte) : Nat := fieldAt l 3 1
def vopRow (l : List Byte) (i : Nat) : Nat := fieldAt l (4 + 2 * i) 2
def vopStore (l : List Byte) (i : Nat) : Nat := bitsOf (fieldAt l 10 1) (2 * i) 2
def vopTag (l : List Byte) (i : Nat) : Nat := bitsOf (fieldAt l 11 1) (2 * i) 2
def vopVecs (l : List Byte) : Nat := fieldAt l 12 2
def vopSrc (l : List Byte) : Nat := fieldAt l 14 1

/-- Rows of one vector of a format. -/
def fmtRows (f : Nat) : Nat := cdiv (fmtBits f) 8

/-- Whether a format code may stand in a CVT: assigned and no codebook (R310, R339). -/
def cvtFmt (f : Nat) : Bool := fmtBits f != 0 && !isCb f

/-- The bytes of a VOP that break a check (R310, R325). -/
def vopBad (l : List Byte) : List (Nat × Bool) :=
  let op := vopKind l
  [(1, decide (11 < op)),
   (2, fieldAt l 2 1 / 8 != 0 || (vopAcross l && decide (op < 9))),
   (3, if op = 8 then !cvtFmt (vopDst l) else if op = 6 then decide (2 < vopDst l) else vopDst l != 0),
   (10, (List.range 3).any (fun i => vopStore l i == 3) || fieldAt l 10 1 / 64 != 0),
   (11, vopTag l 0 == 3 || vopTag l 1 == 3 || vopTag l 2 == 1 || vopTag l 2 == 2 || fieldAt l 11 1 / 64 != 0),
   (12, vopVecs l == 0 || decide (4096 < vopVecs l)),
   (14, if op = 8 then !cvtFmt (vopSrc l) else vopSrc l != 0)]

/-- `n` rows from a row on, as (store, row, tag operation). -/
def rowRefs (st row tag n : Nat) : List (Nat × Nat × Nat) := (List.range n).map (fun i => (st, row + i, tag))

/-- The rows that vector `j` reads, in order: SRC1, SRC2, then the DST rows that FMA and SEL take (R310). A mask row
shared by eight vectors is taken with its last use. -/
def vopReads (l : List Byte) (j : Nat) : List (Nat × Nat × Nat) :=
  let op := vopKind l
  let n1 := if op = 8 then fmtRows (vopSrc l) else 4
  let maskTag := if vopTag l 1 = 2 ∧ j % 8 ≠ 7 ∧ j + 1 ≠ vopVecs l then 1 else vopTag l 1
  rowRefs (vopStore l 0) (vopRow l 0 + n1 * j) (vopTag l 0) n1
    ++ (if op ≤ 6 then rowRefs (vopStore l 1) (vopRow l 1 + 4 * j) (vopTag l 1) 4
        else if op = 7 then rowRefs (vopStore l 1) (vopRow l 1 + j / 8) maskTag 1 else [])
    ++ (if op = 3 ∨ op = 7 then rowRefs (vopStore l 2) (vopRow l 2 + 4 * j) tagNone 4 else [])

/-! ### Lanes -/

/-- The 256 lanes of 32 bits that start at a byte. -/
def lanesAt (b : List Byte) (o : Nat) : List Nat :=
  (pieces 4 256 ((b.drop o).take 1024)).map leNat

/-- Lane codes as bytes. -/
def laneBytes (l : List Nat) : List Byte := l.flatMap (leBytes 4)

/-- An FP32 lane operation (R247): the result code and its events. -/
def fpLane (op : Nat) (ignore flush : Bool) (r : Rnd) (a b d : Nat) : Nat × NumEv :=
  let x := f32In flush a
  let y := f32In flush b
  let z := f32In flush d
  let neg (v : Num) : Num := if v.isNan then v else v.negate
  let ev2 : NumEv := { flushIn := x.2 + y.2 }
  let out (v : Num) (e : NumEv) : Nat × NumEv :=
    let w := encodeNum 0 r flush v
    (w.1, e.add w.2)
  match op with
  | 0 => out (x.1.add y.1) ev2
  | 1 => out (x.1.add (neg y.1)) ev2
  | 2 => out (x.1.mul y.1) ev2
  | 3 => out (x.1.fma y.1 z.1) { flushIn := x.2 + y.2 + z.2 }
  | 4 => (toF32 (x.1.maxOf ignore y.1), ev2)
  | _ => (toF32 (x.1.minOf ignore y.1), ev2)

/-- An I32 lane operation, modulo 2^32 (R377). -/
def intLane (op a b d : Nat) : Nat :=
  let x := intCode 32 false a
  let y := intCode 32 false b
  match op with
  | 0 => (a + b) % 2 ^ 32
  | 1 => (a + 2 ^ 32 - b) % 2 ^ 32
  | 2 => a * b % 2 ^ 32
  | 3 => (a * b + d) % 2 ^ 32
  | 4 => if x < y then b else a
  | _ => if x < y then a else b

/-- A comparison: 0 EQ, 1 LT, 2 LE (R369), with the inputs flushed. -/
def laneCmp (int flush : Bool) (pred a b : Nat) : Bool × NumEv :=
  if int then
    let x := intCode 32 false a
    let y := intCode 32 false b
    (match pred with | 0 => x == y | 1 => decide (x < y) | _ => decide (x ≤ y), {})
  else
    let x := f32In flush a
    let y := f32In flush b
    (match pred with | 0 => x.1.eqv y.1 | 1 => x.1.lt y.1 | _ => x.1.lt y.1 || x.1.eqv y.1, { flushIn := x.2 + y.2 })

/-- The combination of a reduction (R248, R368): SUM 9, MAX 10, MIN 11. -/
def redStep (op : Nat) (int ignore flush : Bool) (a b : Nat × NumEv) : Nat × NumEv :=
  let k := if op = 9 then 0 else if op = 10 then 4 else 5
  if int then (intLane k a.1 b.1 0, {})
  else
    let r := fpLane k ignore flush .rne a.1 b.1 0
    (r.1, (a.2.add b.2).add { r.2 with flushIn := 0 })

/-- The lanes of a reduction's input vector, subnormals flushed (R362). -/
def redInput (int flush : Bool) (l : List Nat) : List (Nat × NumEv) :=
  l.map (fun a => if int then (a, {}) else
    let x := f32In flush a
    (toF32 x.1, { flushIn := x.2 }))

/-- All events of a list. -/
def sumEv (l : List (Nat × NumEv)) : NumEv := l.foldl (fun a x => a.add x.2) {}

/-- Consecutive whole rows from a row on. -/
def rowsOut (row : Nat) (b : List Byte) : List (Nat × List Byte) :=
  (pieces 256 (cdiv b.length 256) b).zipIdx.map (fun e => (row + e.2, padTo 256 e.1))

/-! ### One vector -/

/-- The rounding of lane `i` of vector `j` (R310, R360). -/
def State.vopRnd (s : State) (p c j i : Nat) : Rnd :=
  let b := s.dtActive p c
  if emptySet b then .rne
  else roundMode (dtRound b) (srDraw (s.rd Reg.PLT_SR_SEED_SEED [p]) (s.rd Reg.PLT_SR_DIE_DIE [p]) p c
    (s.rd Reg.RKE_TILES_ORDINAL [p, c]) (2 ^ 40 + 2 ^ 24 * ((s.ctx p c).vops % 65536) + 256 * j + i))

/-- Elementwise results of vector `j`. -/
def State.vopLanes (s : State) (p c : Nat) (l : List Byte) (j : Nat) (b : List Byte) (flush : Bool) :
    List (Nat × NumEv) :=
  let x := lanesAt b 0
  let y := lanesAt b 1024
  let z := lanesAt b 2048
  (List.range 256).map (fun i =>
    let a := x.getD i 0
    let e := y.getD i 0
    let d := z.getD i 0
    if vopInt l then (intLane (vopKind l) a e d, {})
    else fpLane (vopKind l) (vopIgnore l) flush (s.vopRnd p c j i) a e d)

/-- A converted vector (R310, R347): FP32 inputs are flushed under SUBN_FLUSH. -/
def State.vopCvt (s : State) (p c : Nat) (l : List Byte) (j : Nat) (b : List Byte) (flush : Bool) :
    List (Nat × NumEv) :=
  let f := vopSrc l
  (List.range 256).map (fun i =>
    let v := decodeFlush (flush && f == 0) f (element b (fmtBits f) i)
    let r := encodeNum (vopDst l) (s.vopRnd p c j i) flush v.1
    (r.1, NumEv.add { flushIn := v.2 } r.2))

/-- What vector `j` with the rows `b` read gives: the results gathered so far, the rows to write, and its events. -/
def State.vopVector (s : State) (p c : Nat) (l : List Byte) (j : Nat) (b held : List Byte) :
    List Byte × List (Nat × List Byte) × NumEv :=
  let op := vopKind l
  let dtb := s.dtActive p c
  let flush := !emptySet dtb && dtFlush dtb
  let row := vopRow l 2
  let last := j + 1 == vopVecs l
  if op ≤ 5 then
    let r := s.vopLanes p c l j b flush
    ([], rowsOut (row + 4 * j) (laneBytes (r.map (·.1))), sumEv r)
  else if op = 6 then
    let r := (List.zip (lanesAt b 0) (lanesAt b 1024)).map (fun e => laneCmp (vopInt l) flush (vopDst l) e.1 e.2)
    let held := held ++ packCodes 1 (r.map (fun x => b2n x.1))
    let ev := r.foldl (fun a x => a.add x.2) {}
    if j % 8 = 7 ∨ last then ([], [(row + j / 8, held)], ev) else (held, [], ev)
  else if op = 7 then
    let mask := (b.drop (1024 + 32 * (j % 8))).take 32
    let x := lanesAt b 0
    let z := lanesAt b 1280
    let r := (List.range 256).map (fun i => if element mask 1 i = 1 then x.getD i 0 else z.getD i 0)
    ([], rowsOut (row + 4 * j) (laneBytes r), {})
  else if op = 8 then
    let r := s.vopCvt p c l j b flush
    let w := vopDst l
    ([], rowsOut (row + fmtRows w * j) (padTo (256 * fmtRows w) (packCodes (fmtBits w) (r.map (·.1)))), sumEv r)
  else
    let x := redInput (vopInt l) flush (lanesAt b 0)
    let f := redStep op (vopInt l) (vopIgnore l) flush
    if vopAcross l then
      let r := if j = 0 then x else List.zipWith f ((lanesAt held 0).map (fun a => (a, {}))) x
      let out := laneBytes (r.map (·.1))
      if last then ([], rowsOut row out, sumEv r) else (out, [], sumEv r)
    else
      let r := (treeFold f 8 x).headD (0, {})
      let held := held ++ leBytes 4 r.1
      if j % 256 = 255 ∨ last then ([], rowsOut (row + 4 * (j / 256)) (padTo 1024 held), r.2) else (held, [], r.2)

/-! ### Running it -/

/-- Write one row of results: a whole row, or the words of a narrower one through the coalescer (R269). -/
def vopWrite (s : State) (p c st row tag : Nat) (d : List Byte) : State × RowWrite :=
  if d.length < 256 then writeWords s p st row c tag (wordsFrom 64 0 d) else writeRow s p st row tag d

/-- Rows to write, rows to read, then the next vector, until something waits or the VOP retires. -/
def vopRun (p c : Nat) (l : List Byte) : Nat → State → State
  | 0, s => s
  | k + 1, s =>
    let x := s.ctx p c
    match x.outRows with
    | (r, d) :: rest =>
      (match vopWrite s p c (vopStore l 2) r (vopTag l 2) d with
       | (s, .ok) => vopRun p c l k (s.setCtx p c { s.ctx p c with outRows := rest })
       | (s, .wait) => setWait s p c 1 (fillArg (vopStore l 2) r)
       | (s, .range) => rangeFault s p c 1 (vopStore l 2) r)
    | [] =>
      if vopVecs l ≤ x.progress then retireNext (s.setCtx p c { x with vops := x.vops + 1 }) p c
      else
        match (vopReads l x.progress)[x.inBytes.length / 256]? with
        | some (st, r, t) =>
          (match readRow s p st r t with
           | (s, .ok d) => vopRun p c l k (s.setCtx p c { s.ctx p c with inBytes := x.inBytes ++ d })
           | (s, .wait) => setWait s p c 1 (tagArg st r)
           | (s, .poison) => poisonFault s p c
           | (s, .range) => rangeFault s p c 1 st r)
        | none =>
          let v := s.vopVector p c l x.progress x.inBytes x.held
          let s := s.setCtx p c { x with
            progress := x.progress + 1, inBytes := [], held := v.1, outRows := v.2.1 }
          vopRun p c l k (charge s p c v.2.2)

/-- VOP: its fields are checked before any vector is read. -/
def vopOp (s : State) (p c : Nat) : State :=
  issue s p c 0x11 (fun s l => checked s p c l (vopBad l) [15] (fun s => vopRun p c l 69700 s))

/-- VOP. -/
def execVop (p : Fin 16) (c : Fin 4) (s : State) : Outcome State Fault Refusal := nextQ (vopOp s p c)

end Sys2Proof.Machine
end

