-- ==== Sys2Proof/Machine/Rake.lean ====
section
/-! DEFINITION. The control instructions of a Rake context (R291, R292, R308, R315-R319): NOP, HALT, SETL, LOOP, JUMP,
LDT, WAIT, SIGNAL and FENCE, and the order of a context's signals behind its earlier writes (R137). -/

namespace Sys2Proof.Machine

open Host (Outcome)

/-! ### Signals behind earlier writes (R137) -/

/-- DIR of a DMA descriptor (R311). -/
def dmaDir (b : List Byte) : Nat := bitsOf (fieldAt b 10 1) 2 2

/-- The descriptors a context has running or pending on the channels of its plot. -/
def State.ctxDescs (s : State) (p c : Nat) : List DmaDesc :=
  ((List.range 8).flatMap (fun h =>
    let x := FMap.get (s.plot p).chans {} h
    x.cur.toList ++ x.pend.toList)).filter (fun d => d.ctx == c)

/-- The drains of a context's planes. -/
def State.ctxDrains (s : State) (p c : Nat) : List Drain :=
  let a := (s.plot p).arr
  ([a.p0, a.p1].filter (fun x => x.held && x.ctx == c)).flatMap (fun x => x.drain.toList)

/-- Whether a drain goes to a remote window. -/
def Drain.remote (d : Drain) : Bool := opStore (d.set.flatMap (leBytes 4)) 2 == 3

/-- Whether a remote write, HBM write or Furrow update that a context started before instruction count `n` is still
unacknowledged. -/
def State.writesBefore (s : State) (p c n : Nat) : Bool :=
  s.flights.any (fun f => f.ctx == 4 * p + c && (f.typ == 1 || f.typ == 8) && decide (f.stamp < n))
    || (s.plot p).rq.any (fun r => r.ctx == c && decide (r.stamp < n))
    || (s.ctxDescs p c).any (fun d => dmaDir d.bytes != 0 && decide (d.stamp < n))
    || (s.ctxDrains p c).any (fun d => d.remote && decide (d.stamp < n))

/-- Send the queued signals of a context whose earlier writes are all acknowledged, in order. -/
def releaseSigs (p c : Nat) : Nat → State → State
  | 0, s => s
  | k + 1, s =>
    match (s.ctx p c).sigs with
    | [] => s
    | (n, q) :: r =>
      if s.writesBefore p c n then s
      else
        let s := s.setCtx p c { s.ctx p c with sigs := r }
        let f : Flight := ⟨ctxAgent p c, 4 * p + c, 2, q.dstDie, q.dstAgent, q.epoch, q.tfb 13 2, n⟩
        releaseSigs p c k (injectPkt { s with flights := s.flights ++ [f] } q)

/-- Send what may now leave, for every context of a plot. -/
def releasePlot (s : State) (p : Nat) : State :=
  (List.range 4).foldl (fun s c => releaseSigs p c ((s.ctx p c).sigs.length) s) s

/-! ### Fences (R138, R319) -/

/-- Whether the operations of a context that a fence of a scope waits for are complete. -/
def State.fenceClear (s : State) (p c scope : Nat) : Bool :=
  let x := s.plot p
  let local' := !(x.sto.coal.any (fun e => e.ctxs.contains c)) && (s.ctxDrains p c).isEmpty
    && !((s.ctxDescs p c).any (fun d => dmaDir d.bytes == 0))
  let mine := s.flights.filter (fun f => f.ctx == 4 * p + c)
  let die := (s.ctxDescs p c).isEmpty && !(x.rq.any (fun r => r.ctx == c))
    && !(mine.any (fun f => f.die == s.self && f.typ != 2)) && (s.ctx p c).gslots.isEmpty
  let system := mine.isEmpty && (s.ctx p c).colls == 0 && (s.ctx p c).sigs.isEmpty
  local' && (scope == 0 || die) && (scope != 2 || system)

/-- The fence of a context retires once its operations are complete. -/
def fenceCheck (s : State) (p c : Nat) : State :=
  let x := s.ctx p c
  match x.fence with
  | some sc =>
    if !x.halting && s.ctxLive p c && s.fenceClear p c sc then
      retireNext (s.setCtx p c { x with fence := none }) p c
    else s
  | none => s

/-- FENCE: flush the plot's coalescer entries and hold the context; with nothing outstanding it completes at once. -/
def fenceOp (s : State) (p c : Nat) : State :=
  issue s p c 0x2A (fun s l =>
    let sc := fieldAt l 1 1
    checked s p c l [(1, decide (2 < sc))] [2, 3, 4, 5, 6, 7, 8, 9, 10, 11, 12, 13, 14, 15] (fun s =>
      let s := flushAll s p
      fenceCheck (setWait (s.setCtx p c { s.ctx p c with fence := some sc }) p c 6 sc) p c))

/-- FENCE. -/
def execFence (p : Fin 16) (c : Fin 4) (s : State) : Outcome State Fault Refusal := nextQ (fenceOp s p c)

/-- FENCE_COMPLETE. -/
def execFenceComplete (p : Fin 16) (c : Fin 4) (s : State) : Outcome State Fault Refusal := nextQ (fenceCheck s p c)

/-! ### HALT (R291) -/

/-- HALT: the context waits as a FENCE SYSTEM does. -/
def haltOp (s : State) (p c : Nat) : State :=
  issue s p c 1 (fun s l => strictly s p c l [1, 2, 3, 4, 5, 6, 7, 8, 9, 10, 11, 12, 13, 14, 15] (fun s =>
    let s := flushAll s p
    setWait (s.setCtx p c { s.ctx p c with fence := some 2, halting := true }) p c 6 2))

/-- HALT. -/
def execHalt (p : Fin 16) (c : Fin 4) (s : State) : Outcome State Fault Refusal := nextQ (haltOp s p c)

/-- Whether every context that a bundle names has halted. -/
def State.allHalted (s : State) (x : Job) : Bool :=
  x.plotList.all (fun p => (List.range 4).all (fun c => (entryPoint x.bundle p c).isNone || s.ctxState p c == 0))

/-- HALT retires when every operation of the context is complete; the job ends with OK when every context that the
bundle names has halted. -/
def haltRetireOp (s : State) (p c : Nat) : State :=
  let x := s.ctx p c
  if !x.halting ∨ !s.ctxLive p c ∨ !s.fenceClear p c 2 then s
  else
    let s := s.setCtx p c { x with fence := none, halting := false, wait := none }
    let s := showCtx (s.wr Reg.RKE_CTX_STATE [p, c] 0) p c
    let s := hedgeEvent s (64 + 8 * p + 1) c
    match s.jobOf p with
    | some j => if s.allHalted (s.job j) then endJob s j .ok else s
    | none => s

/-- HALT_RETIRE. -/
def execHaltRetire (p : Fin 16) (c : Fin 4) (s : State) : Outcome State Fault Refusal := nextQ (haltRetireOp s p c)

/-! ### NOP, SETL, LOOP, JUMP -/

/-- NOP. -/
def nopOp (s : State) (p c : Nat) : State :=
  issue s p c 0 (fun s l => strictly s p c l [1, 2, 3, 4, 5, 6, 7, 8, 9, 10, 11, 12, 13, 14, 15]
    (fun s => retireNext s p c))

/-- NOP. -/
def execNop (p : Fin 16) (c : Fin 4) (s : State) : Outcome State Fault Refusal := nextQ (nopOp s p c)

/-- SETL: the register takes VALUE. -/
def setlOp (s : State) (p c : Nat) : State :=
  issue s p c 2 (fun s l =>
    let r := fieldAt l 1 1
    checked s p c l [(1, decide (3 < r))] [2, 3, 8, 9, 10, 11, 12, 13, 14, 15] (fun s =>
      let x := s.ctx p c
      retireNext (s.setCtx p c { x with loops := x.loops.set r (fieldAt l 4 4) }) p c))

/-- SETL. -/
def execSetl (p : Fin 16) (c : Fin 4) (s : State) : Outcome State Fault Refusal := nextQ (setlOp s p c)

/-- LOOP: decrement, and jump while the result is nonzero; a zero register stays zero (R292). -/
def loopOp (s : State) (p c : Nat) : State :=
  issue s p c 3 (fun s l =>
    let r := fieldAt l 1 1
    let target := fieldAt l 2 2
    checked s p c l [(1, decide (3 < r))] [4, 5, 6, 7, 8, 9, 10, 11, 12, 13, 14, 15] (fun s =>
      if 4095 < target then ctxFault s p c 3 target
      else
        let x := s.ctx p c
        let v := x.loops.getD r 0 - 1
        retireTo (s.setCtx p c { x with loops := x.loops.set r v }) p c (if v = 0 then s.pcOf p c + 1 else target)))

/-- LOOP. -/
def execLoopDec (p : Fin 16) (c : Fin 4) (s : State) : Outcome State Fault Refusal := nextQ (loopOp s p c)

/-- JUMP. -/
def jumpOp (s : State) (p c : Nat) : State :=
  issue s p c 4 (fun s l =>
    let target := fieldAt l 2 2
    strictly s p c l [1, 4, 5, 6, 7, 8, 9, 10, 11, 12, 13, 14, 15] (fun s =>
      if 4095 < target then ctxFault s p c 3 target else retireTo s p c target))

/-- JUMP. -/
def execJump (p : Fin 16) (c : Fin 4) (s : State) : Outcome State Fault Refusal := nextQ (jumpOp s p c)

/-! ### LDT (R308) -/

/-- LDT: the row goes whole into staging with the Vector Unit words; both sets are checked, then captured together, or
the refusal is recorded and the context faults. -/
def ldtOp (s : State) (p c : Nat) : State :=
  issue s p c 8 (fun s l =>
    let row := fieldAt l 2 2
    strictly s p c l [1, 4, 5, 6, 7, 8, 9, 10, 11, 12, 13, 14, 15] (fun s =>
      match readRow s p 0 row tagNone with
      | (s, .ok d) =>
        let s := stageWords s Reg.RKE_DT_WORD [p, c] 0 (wordsAt d 0 64)
        let s := stageVec s p c (dtRsc d) (dtAct d)
        (match s.dtFails p d with
         | some k => ctxFault (refuseSet (dtError s p c k) (dtSet p c) 2) p c 4 0
         | none => retireNext (captureSet (captureSet (noteClass s p c d) (dtSet p c)) (vecSet p c)) p c)
      | (s, .poison) => poisonFault s p c
      | (s, _) => rangeFault s p c 0 0 row))

/-- LDT. -/
def execLdt (p : Fin 16) (c : Fin 4) (s : State) : Outcome State Fault Refusal := nextQ (ldtOp s p c)

/-! ### WAIT and SIGNAL (R315-R318) -/

/-- WAIT: test and subtract in one step, or wait with kind SIGNAL. -/
def waitOp (s : State) (p c : Nat) : State :=
  issue s p c 0x28 (fun s l =>
    let n := fieldAt l 1 1
    let k := fieldAt l 2 2
    checked s p c l [(1, decide (7 < n)), (2, k == 0)] [4, 5, 6, 7, 8, 9, 10, 11, 12, 13, 14, 15] (fun s =>
      let v := s.rd Reg.RKE_SIG_COUNT [p, c, n]
      if k ≤ v then retireNext (s.wr Reg.RKE_SIG_COUNT [p, c, n] (v - k)) p c
      else setWait s p c 3 (n + 2 ^ 16 * k)))

/-- WAIT. -/
def execWait (p : Fin 16) (c : Fin 4) (s : State) : Outcome State Fault Refusal := nextQ (waitOp s p c)

/-- GTAG and EPOCH of the pipeline group that a plot is a member of (R385). -/
def State.groupOf (s : State) (p : Nat) : Option Nat :=
  (List.range 16).find? (fun g => s.armed g && (s.members g).contains p)

/-- The signal packet of a SIGNAL instruction (R482): TAG is the context's instruction count. -/
def State.signalPacket (s : State) (p c : Nat) (l : List Byte) : Packet :=
  let g := (s.groupOf p).getD 0
  let die := if bitOf (fieldAt l 6 1) 0 then fieldAt l 4 1 else s.self
  ctlPacket 2 die s.self (fieldAt l 5 1) (ctxAgent p c)
    (if (s.groupOf p).isSome then s.rd Reg.TOP_QD_GRP_EPOCH [g] else 0)
    ((if (s.groupOf p).isSome then s.rd Reg.TOP_QD_GRP_GTAG [g] else 0) + 2 ^ 16 * fieldAt l 2 2
      + 2 ^ 32 * fieldAt l 1 1 + 2 ^ 40 * ((s.ctx p c).issued % 65536))

/-- SIGNAL: the signal is queued and leaves once the context's earlier writes are acknowledged. -/
def signalOp (s : State) (p c : Nat) : State :=
  issue s p c 0x29 (fun s l =>
    checked s p c l [(1, decide (7 < fieldAt l 1 1)), (2, fieldAt l 2 2 == 0), (6, decide (1 < fieldAt l 6 1))]
      [7, 8, 9, 10, 11, 12, 13, 14, 15] (fun s =>
      let x := s.ctx p c
      let s := s.setCtx p c { x with sigs := x.sigs ++ [(x.issued, s.signalPacket p c l)] }
      retireNext (releaseSigs p c (x.sigs.length + 1) s) p c))

/-- SIGNAL. -/
def execSignal (p : Fin 16) (c : Fin 4) (s : State) : Outcome State Fault Refusal := nextQ (signalOp s p c)

end Sys2Proof.Machine
end

