-- ==== Sys2Proof/Machine/Dma.lean ====
section
/-! DEFINITION. Plot DMA (R311): descriptors, their capture and start, and the rows they move. -/

namespace Sys2Proof.Machine

open Host (Outcome)

/-! ### Descriptors -/

def dmaAddr (b : List Byte) : Nat := fieldAt b 0 8
def dmaRow0 (b : List Byte) : Nat := fieldAt b 8 2
def dmaStore (b : List Byte) : Nat := bitsOf (fieldAt b 10 1) 0 2
def dmaTag (b : List Byte) : Nat := bitsOf (fieldAt b 11 1) 0 2
def dmaCrd (b : List Byte) : Nat := bitsOf (fieldAt b 11 1) 4 4
def dmaRows (b : List Byte) : Nat := fieldAt b 12 2
def dmaStride (b : List Byte) : Nat := fieldAt b 14 2
def dmaHbmStride (b : List Byte) : Nat := fieldAt b 16 4

/-- The bytes of a descriptor that break a check (R311). -/
def dmaBad (b : List Byte) : List (Nat × Bool) :=
  let dir := dmaDir b
  [(0, dmaAddr b % 256 != 0),
   (10, dir == 3 || dmaStore b == 3 || fieldAt b 10 1 / 16 != 0),
   (11, (dir == 0 && dmaTag b != 0 && dmaTag b != 3) || (dir != 0 && dmaTag b == 3) || (dir != 2 && dmaCrd b != 0)
     || bitsOf (fieldAt b 11 1) 2 2 != 0),
   (12, dmaRows b == 0 || decide (4096 < dmaRows b)),
   (16, dmaHbmStride b % 256 != 0)]

/-- HBM address and store row of row `i`. -/
def dmaAddrOf (b : List Byte) (i : Nat) : Nat := dmaAddr b + i * dmaHbmStride b
def dmaStoreRow (b : List Byte) (i : Nat) : Nat := dmaRow0 b + i * dmaStride b

/-- Whether every HBM row of a descriptor lies in the HBM of the job's function. -/
def State.dmaInRange (s : State) (p : Nat) (b : List Byte) : Bool :=
  dmaDir b == 2 || (List.range (dmaRows b)).all (fun i => s.holdsHbm (s.plotFunc p) (dmaAddrOf b i) 256)

/-! ### Channels -/

/-- Channel `h` of a plot. -/
def State.chan (s : State) (p h : Nat) : Chan := FMap.get (s.plot p).chans {} h
def State.setChan (s : State) (p h : Nat) (x : Chan) : State :=
  s.setPlot p { s.plot p with chans := FMap.set (s.plot p).chans {} h x }

/-- The agent ID of a channel (R293). -/
def chanAgent (p h : Nat) : Nat := 64 + 8 * p + h

/-- A channel starts its pending descriptor when it runs none. -/
def chanStart (s : State) (p h : Nat) : State :=
  let x := s.chan p h
  match x.cur, x.pend with
  | none, some d => s.setChan p h { cur := some d, pend := none, row := 0 }
  | _, _ => s

/-- DMA: the descriptor is checked and captured; the context waits while the channel holds a pending one. An idle
channel starts it at once (R131). -/
def dmaOp (s : State) (p c : Nat) : State :=
  issue s p c 0x18 (fun s l =>
    let h := fieldAt l 1 1
    let row := fieldAt l 2 2
    let slot := fieldAt l 4 1
    checked s p c l [(1, decide (7 < h)), (4, decide (7 < slot))] [5, 6, 7, 8, 9, 10, 11, 12, 13, 14, 15] (fun s =>
      if (s.chan p h).pend.isSome then setWait s p c 7 h
      else
        match readRow s p 0 row tagNone with
        | (s, .ok w) =>
          let b := (w.drop (32 * slot)).take 32
          checked s p c b (dmaBad b) [20, 21, 22, 23, 24, 25, 26, 27, 28, 29, 30, 31] (fun s =>
            if s.dmaInRange p b then
              let s := s.setChan p h { s.chan p h with pend := some ⟨b, c, (s.ctx p c).issued⟩ }
              retireNext (chanStart s p h) p c
            else ctxFault s p c 12 0)
        | (s, .poison) => poisonFault s p c
        | (s, _) => rangeFault s p c 2 0 row))

/-- DMA. -/
def execDma (p : Fin 16) (c : Fin 4) (s : State) : Outcome State Fault Refusal := nextQ (dmaOp s p c)

/-- DMA_DESCRIPTOR_START. -/
def execDmaDescriptorStart (p : Fin 16) (h : Fin 8) (s : State) : Outcome State Fault Refusal :=
  nextQ (if s.coreUp then chanStart s p h else s)

/-- One row of a channel has moved: after the last one the descriptor is done, and signals it held back may leave. -/
def chanAdvance (s : State) (p h : Nat) : State :=
  let x := s.chan p h
  match x.cur with
  | some d =>
    if x.row + 1 < dmaRows d.bytes then s.setChan p h { x with row := x.row + 1 }
    else releasePlot (s.setChan p h { x with cur := none, row := 0 }) p
  | none => s

/-- A channel stops: the context that started it faults (R275, R311). -/
def chanFault (s : State) (p h : Nat) (act : State → State) : State :=
  act (s.setChan p h { s.chan p h with cur := none, row := 0 })

/-- HBM to store: one row, with NONE or FILL. -/
def dmaIn (s : State) (p h : Nat) (d : DmaDesc) (i : Nat) : State :=
  let st := dmaStore d.bytes
  let row := dmaStoreRow d.bytes i
  let a := dmaAddrOf d.bytes i
  if s.hbmPoisoned a 256 then
    chanFault (hbmRecord s a 256 2 (s.plotFunc p) Status.jobFault.code) p h (fun s => ctxFault s p d.ctx 18 1)
  else
    match writeRow s p st row (dmaTag d.bytes) (s.hbmRead a 256) with
    | (s, .ok) =>
      chanAdvance (hbmActivity (flit (flit s p) (16 + a / stackBytes)) (s.plotFunc p) 1) p h
    | (s, .wait) => s
    | (s, .range) => chanFault s p h (fun s => rangeFault s p d.ctx 2 st row)

/-- Store to HBM: one row; the controller acknowledges the write. -/
def dmaOut (s : State) (p h : Nat) (d : DmaDesc) (i : Nat) : State :=
  let st := dmaStore d.bytes
  let row := dmaStoreRow d.bytes i
  let a := dmaAddrOf d.bytes i
  match readRow s p st row (dmaTag d.bytes) with
  | (s, .ok w) =>
    chanAdvance (hbmActivity (flit (flit (hbmWrite s a w) p) (16 + a / stackBytes)) (s.plotFunc p) 1) p h
  | (s, .wait) => s
  | (s, .poison) => chanFault s p h (fun s => poisonFault s p d.ctx)
  | (s, .range) => chanFault s p h (fun s => rangeFault s p d.ctx 2 st row)

/-- Store to remote window: one row joins the line for credits of its counter (R314). -/
def dmaSend (s : State) (p h : Nat) (d : DmaDesc) (i : Nat) : State :=
  let st := dmaStore d.bytes
  let row := dmaStoreRow d.bytes i
  let k := dmaCrd d.bytes
  if !s.mayUse p k (chanAgent p h) then chanFault s p h (fun s => ctxFault s p d.ctx 8 k)
  else if (s.plot p).rq.any (fun r => r.agent == chanAgent p h) then s
  else
    match readRow s p st row (dmaTag d.bytes) with
    | (s, .ok w) => queueRows s p d.ctx k (chanAgent p h) d.stamp [w]
    | (s, .wait) => s
    | (s, .poison) => chanFault s p h (fun s => poisonFault s p d.ctx)
    | (s, .range) => chanFault s p h (fun s => rangeFault s p d.ctx 2 st row)

/-- DMA_ROW: the next row of the running descriptor moves. -/
def dmaRowOp (s : State) (p h : Nat) : State :=
  let x := s.chan p h
  match x.cur with
  | none => s
  | some d =>
    match dmaDir d.bytes with
    | 0 => dmaIn s p h d x.row
    | 1 => dmaOut s p h d x.row
    | _ => dmaSend s p h d x.row

/-- DMA_ROW. -/
def execDmaRow (p : Fin 16) (h : Fin 8) (s : State) : Outcome State Fault Refusal :=
  nextQ (if s.coreUp then dmaRowOp s p h else s)

end Sys2Proof.Machine
end

