-- ==== Sys2Proof/Machine/Remote.lean ====
section
/-! DEFINITION. Remote writes (R277-R281, R312-R314): sending rows under credit, the inbound port's checks, credit
counters and the return of credits. -/

namespace Sys2Proof.Machine

open Host (Outcome)

/-! ### The sender -/

/-- The RWRITE packet of a row sent through counter `k` of plot `p` (R278, R482). -/
def State.rwritePacket (s : State) (p k : Nat) (r : RowOut) : Packet :=
  { typ := 1, vc := 0, len := 16, first := false, last := false, dstDie := s.rd Reg.RKE_CRD_DEST_DIE [p, k],
    srcDie := s.self, dstAgent := 4 * s.rd Reg.RKE_CRD_DEST_PLOT [p, k], srcAgent := r.agent,
    epoch := s.rd Reg.RKE_CRD_EPOCH [p, k],
    tf := s.rd Reg.RKE_CRDSEQ_NEXT_SEQ [p, k] + 2 ^ 16 * s.rd Reg.RKE_CRD_WINDOW [p, k], resv := false,
    body := r.data }

/-- What sending one row changes beside the packet: the credit, NEXT_SEQ, the flight and the line of waiting rows. -/
def sendRow (s : State) (p k : Nat) (r : RowOut) : State :=
  let q := s.rwritePacket p k r
  let s := s.wr Reg.RKE_CRD_CREDITS [p, k] (s.rd Reg.RKE_CRD_CREDITS [p, k] - 1)
  let s := s.wrapInc Reg.RKE_CRDSEQ_NEXT_SEQ [p, k] 1
  let f : Flight := ⟨r.agent, 4 * p + r.ctx, 1, q.dstDie, q.dstAgent, q.epoch, q.tfb 8 2, r.stamp⟩
  let s := s.setPlot p { s.plot p with rq := (s.plot p).rq.erase r }
  let s := sendRowPacket { s with flights := s.flights ++ [f] } q
  if r.agent < 64 then setBg s p r.ctx none else chanAdvance s p ((r.agent - 64) % 8)

/-- REMOTE_WRITE_SEND: the row first in line for a counter goes out while a credit is held; a sender that the counter
does not name, or a disabled counter, faults the context (R314). -/
def remoteSendOp (s : State) (p k : Nat) : State :=
  match (s.plot p).rq.find? (fun r => r.counter == k) with
  | none => s
  | some r =>
    if !s.mayUse p k r.agent then
      ctxFault (s.setPlot p { s.plot p with rq := (s.plot p).rq.erase r }) p r.ctx 8 k
    else if s.rd Reg.RKE_CRD_CREDITS [p, k] = 0 then s
    else sendRow s p k r

/-- REMOTE_WRITE_SEND. -/
def execRemoteWriteSend (p k : Fin 16) (s : State) : Outcome State Fault Refusal :=
  nextQ (if s.coreUp then remoteSendOp s p k else s)

/-! ### The inbound port (R278, R279) -/

/-- Whether a window is enabled and well formed (check 1). -/
def State.windowOk (s : State) (p w : Nat) : Bool :=
  let st := s.rd Reg.STO_WIN_STORE [p, w]
  let n := s.rd Reg.STO_WIN_ROWS [p, w]
  s.on Reg.STO_WIN_EN [p, w] && decide (st < 3 ∧ 1 ≤ n ∧ n ≤ 4096)
    && decide (s.rd Reg.STO_WIN_BASE_ROW [p, w] + n ≤ s.storeRows p st)

/-- The store and row that the next accepted write fills. -/
def State.windowTarget (s : State) (p w : Nat) : Nat × Nat :=
  (s.rd Reg.STO_WIN_STORE [p, w], s.rd Reg.STO_WIN_BASE_ROW [p, w] + s.rd Reg.STO_WINSTAT_NEXT_OFF [p, w])

/-- The first failing check of R278, as its reason; 0 when the write is accepted. -/
def State.inboundReason (s : State) (p w : Nat) (q : Packet) : Nat :=
  if !s.windowOk p w then 1
  else if q.srcDie ≠ s.rd Reg.STO_WIN_PROD_DIE [p, w] ∨ q.srcAgent ≠ s.rd Reg.STO_WIN_PROD_AGENT [p, w] then 2
  else if q.epoch ≠ s.rd Reg.STO_WIN_EPOCH [p, w] then 3
  else if q.tfb 8 2 ≠ s.rd Reg.STO_WINSTAT_NEXT_SEQ [p, w] then 4
  else if s.tagFull p (s.windowTarget p w).1 (s.windowTarget p w).2 then 5
  else 0

/-- Refuse a remote write (R279). -/
def refuseWrite (s : State) (p w reason : Nat) (q : Packet) : State :=
  let s := (s.satInc Reg.STO_INB_ERR_COUNT [p] 1).satInc Reg.STO_WINSTAT_REFUSED [p, w] 1
  let s := ((s.wr Reg.STO_INB_ERR_REASON [p] reason).wr Reg.STO_INB_ERR_WINDOW [p] w).wr Reg.STO_INB_ERR_DIE [p] q.srcDie
  let s := hedgeEvent s (64 + 8 * p + 3) (reason + 2 ^ 3 * w + 2 ^ 8 * q.srcDie)
  sendNak s q (0x0F + reason) 0

/-- Accept a remote write: the row is filled, the window advances and the acknowledgement leaves (R278). -/
def acceptWrite (s : State) (p w : Nat) (q : Packet) (data : List Byte) : State :=
  let t := s.windowTarget p w
  let s := (writeRow s p t.1 t.2 tagFill data).1
  let s := s.wrapInc Reg.STO_WINSTAT_NEXT_SEQ [p, w] 1
  let off := s.rd Reg.STO_WINSTAT_NEXT_OFF [p, w] + 1
  let s := s.wr Reg.STO_WINSTAT_NEXT_OFF [p, w] (if off < s.rd Reg.STO_WIN_ROWS [p, w] then off else 0)
  sendAck (s.wrapInc Reg.STO_WINSTAT_OUTSTANDING [p, w] 1) q false false 0

/-- The inbound port takes a remote write whose 256 bytes are `data`. -/
def inboundOp (s : State) (q : Packet) (data : List Byte) : State :=
  let p := q.dstAgent / 4
  let w := q.tfb 10 1 % 16
  if 16 ≤ p ∨ !s.plotEn p then sendNak s q 0x10 0
  else
    match s.inboundReason p w q with
    | 0 => acceptWrite s p w q data
    | r => refuseWrite s p w r q

/-! ### Credits (R280, R281, R313) -/

/-- A CREDIT packet: `n` credits of window `w` to its producer (R482). -/
def State.creditPacket (s : State) (p w n : Nat) : Packet :=
  ctlPacket 5 (s.rd Reg.STO_WIN_PROD_DIE [p, w]) s.self (s.rd Reg.STO_WIN_PROD_AGENT [p, w]) (4 * p)
    (s.rd Reg.STO_WIN_EPOCH [p, w]) (w + 2 ^ 16 * n)

/-- Grant a producer the whole window (R280). -/
def grantWindow (s : State) (p w : Nat) : State := injectPkt s (s.creditPacket p w (s.rd Reg.STO_WIN_ROWS [p, w]))

/-- The counter of a plot that a credit message is for: it names that window as its destination (R313). -/
def State.creditCounter (s : State) (p : Nat) (q : Packet) : Option Nat :=
  (List.range 16).find? (fun k => s.on Reg.RKE_CRD_EN [p, k] && s.rd Reg.RKE_CRD_AGENT [p, k] == q.dstAgent
    && s.rd Reg.RKE_CRD_DEST_DIE [p, k] == q.srcDie && s.rd Reg.RKE_CRD_DEST_PLOT [p, k] == q.srcAgent / 4
    && s.rd Reg.RKE_CRD_WINDOW [p, k] == q.tfb 8 1 % 16)

/-- A credit message reaches its counter: an unbound counter takes its epoch; another epoch is discarded (R313). -/
def creditOp (s : State) (q : Packet) : State :=
  let p := agentStop q.dstAgent
  if 16 ≤ p ∨ q.typ ≠ 5 then s
  else
    match s.creditCounter p q with
    | none => s
    | some k =>
      let s := if s.on Reg.RKE_CRD_BOUND [p, k] then s
        else (s.wr Reg.RKE_CRD_EPOCH [p, k] q.epoch).wr Reg.RKE_CRD_BOUND [p, k] 1
      if s.rd Reg.RKE_CRD_EPOCH [p, k] = q.epoch then
        s.wr Reg.RKE_CRD_CREDITS [p, k] (min 4096 (s.rd Reg.RKE_CRD_CREDITS [p, k] + q.tfb 10 2))
      else s

/-- CREDIT. -/
def execCredit (q : Packet) (s : State) : Outcome State Fault Refusal :=
  nextQ (if s.coreUp then creditOp (takeInbox s q) q else takeInbox s q)

/-- The rows from the oldest outstanding offset on that are EMPTY, at most `n`. -/
def State.returnable (s : State) (p w : Nat) : Nat → Nat → Nat
  | 0, _ => 0
  | n + 1, i =>
    if s.rd Reg.STO_WINSTAT_OUTSTANDING [p, w] ≤ i then 0
    else
      let st := (s.oldestRow p w).1
      let off := (s.oldestRow p w).2 - s.rd Reg.STO_WIN_BASE_ROW [p, w]
      let row := s.rd Reg.STO_WIN_BASE_ROW [p, w] + (off + i) % max 1 (s.rd Reg.STO_WIN_ROWS [p, w])
      if s.tagFull p st row then 0 else 1 + s.returnable p w n (i + 1)

/-- CREDIT_RETURN: up to 16 credits of emptied rows, in ring order, under the window's epoch (R281). -/
def creditReturnOp (s : State) (p w : Nat) : State :=
  let n := s.returnable p w 16 0
  if !s.on Reg.STO_WIN_EN [p, w] ∨ n = 0 then s
  else
    let s := s.wr Reg.STO_WINSTAT_OUTSTANDING [p, w] (s.rd Reg.STO_WINSTAT_OUTSTANDING [p, w] - n)
    injectPkt s (s.creditPacket p w n)

/-- CREDIT_RETURN. -/
def execCreditReturn (p w : Fin 16) (s : State) : Outcome State Fault Refusal :=
  nextQ (if s.coreUp then creditReturnOp s p w else s)

end Sys2Proof.Machine
end

