-- ==== Sys2Proof/Machine/Graft.lean ====
section
/-! DEFINITION. The Graft units at work (R498-R520): quantised sends, windows and their actions, the ingress of
COLL and RWRITE packets, and the COLLECTIVE with its runs and verdict rounds (R322-R324). -/

namespace Sys2Proof.Machine

open Host (Outcome)

/-! ### A captured image takes effect (R520) -/

/-- An entry takes its captured image: statistics and starting rung clear. -/
def takeCap (s : State) (k : Nat) : State :=
  match s.gent k with
  | none => s
  | some e =>
    match e.cap with
    | none => s
    | some (img, sc, zp) =>
      let s := s.setGent k { role := e.role, plan := e.plan, jobId := e.jobId, leader := e.leader, img := img,
                             scales := sc, zp := zp, books := e.books }
      showGraft (effectSet s (.grfEnt (Fin.ofNat 8 (k / 256)))) (k / 256)

/-! ### Windows (R514-R516) -/

/-- What the end of a window of entry `k` does: the event, the escalation, the misfit mark. -/
def judgeWindow (s : State) (k clip bad rung : Nat) : State :=
  match s.gent k with
  | none => s
  | some e =>
    let n := k / 256
    let wide := (geRung e.img rung).mode == 0
    let s := if geEvent e.img && decide (geEvtLimit e.img < clip) then
        hedgeEvent (s.satInc Reg.GRF_EVTCNT_COUNT [n] 1) (320 + 8 * n)
          (geEidx e.img + 2 ^ 8 * n + 2 ^ 11 * rung + 2 ^ 13 * min clip (2 ^ 19 - 1))
      else s
    let misfit := !wide && (decide (geFbLimit e.img < clip) || bad != 0)
    if !misfit then s
    else
      let e := { e with misfit := true }
      if geEscalate e.img ∧ e.rung < geLast e.img then
        let s := s.setGent k { e with rung := e.rung + 1, fallbacks := satAdd 32 e.fallbacks 1 }
        hedgeEvent (s.satInc Reg.GRF_RUNGUP_COUNT [n] 1) (322 + 8 * n) (geEidx e.img)
      else s.setGent k e

/-- GRAFT_WINDOW_END: the oldest ended window of an entry is judged. -/
def windowEndOp (s : State) (n slot : Nat) : State :=
  let k := 256 * n + slot % 256
  match s.gent k with
  | none => s
  | some e =>
    match e.ended with
    | [] => s
    | (clip, bad, rung) :: rest => judgeWindow (s.setGent k { e with ended := rest }) k clip bad rung

/-! ### The egress unit (R506, R509-R511) -/

/-- Count one element into the open window of an entry; a window that is full ends. -/
def windowElem (rung : Nat) (e : GEntry) (x : Bool × Bool) : GEntry :=
  let clip := e.winClip + b2n x.1
  let bad := e.winBad + b2n x.2
  if e.winElems + 1 = geWin e.img then
    { e with winElems := 0, winClip := 0, winBad := 0, ended := e.ended ++ [(clip, bad, rung)] }
  else { e with winElems := e.winElems + 1, winClip := clip, winBad := bad }

/-- Close the open partial window of a COLL entry at the end of a run. -/
def closePartial (s : State) (k rung : Nat) : State :=
  match s.gent k with
  | none => s
  | some e =>
    if e.winElems = 0 then s
    else judgeWindow (s.setGent k { e with winElems := 0, winClip := 0, winBad := 0 }) k e.winClip e.winBad rung

/-- One block: the scale and zero point its packets carry, its codes, and for each element whether it was clipped. -/
def quantBlock (e : GEntry) (d : GSend) (l : List Num) : (Nat × Int) × List Nat × List Bool :=
  let r := geRung e.img d.rung
  if r.mode = 0 then ((0, 0), l.map (wideCode r.fmt), l.map (fun _ => false))
  else if l.any Num.nonfinite then ((nan32, 0), l.map (fun _ => 0), l.map (fun _ => false))
  else
    let sc : Nat × Int := if r.mode = 1 then e.scales.getD (d.block0 + d.done / 2 ^ r.blk) (0x3F800000, 0)
      else (dynScale r.fmt (e.book r) l, 0)
    let q := l.map (quantOne e.img r (e.book r) sc.1 sc.2)
    (sc, q.map (·.1), q.map (·.2))

/-- The header fields of a converted packet (R509, R510). -/
def graftTf (d : GSend) (e : GEntry) (sc off : Nat) : Nat :=
  let fr := (geRung e.img d.rung).fmt + 2 ^ 5 * d.rung
  if d.rwrite then d.pkt.tf + 2 ^ 32 * (geEidx e.img + 2 ^ 8 * fr + 2 ^ 16 * sc)
  else d.pkt.tf + geEidx e.img + 2 ^ 8 * fr + 2 ^ 25 * sc + 2 ^ 32 * off

/-- Send the packets of a send whose elements are all quantised. -/
def sendReady (e : GEntry) : Nat → State → GSend → State × GSend
  | 0, s, d => (s, d)
  | k + 1, s, d =>
    let r := geRung e.img d.rung
    let n := packetElems e r d.packed d.elems.length
    if n = 0 ∨ d.done < d.packed + n then (s, d)
    else
      let nb := blocksIn r d.packed n
      let sc := (d.scales.drop (cdiv d.packed (2 ^ r.blk))).take nb
      let body := packetBody e r (if r.mode = 0 then [] else sc) ((d.codes.drop d.packed).take n)
      let q : Packet := { d.pkt with
        len := body.length / 16, tf := graftTf d e (scaleCells e r d.packed n) d.packed, body := body }
      sendReady e k (injectPkt s q) { d with packed := d.packed + n }

/-- A row of an RWRITE stream begins: a captured image takes effect, and the row takes the stream's rung and blocks. -/
def rowBegin (s : State) (d : GSend) : State × GSend :=
  if d.rwrite ∧ d.done = 0 then
    let s := takeCap s d.entry
    match s.gent d.entry with
    | some e =>
      let r := geRung e.img 0
      let per := if r.mode = 0 then 0 else rowElems e.img / 2 ^ r.blk
      (s.setGent d.entry { e with row := e.row + 1 },
        { d with rung := e.rung, block0 := e.row % max 1 (gePeriod e.img) * per })
    | none => (s, d)
  else (s, d)

/-- Quantise the next block of a send and send what is ready; the send that remains, if any. -/
def egressStep (s : State) (d0 : GSend) : State × Option GSend :=
  let (s, d) := rowBegin s d0
  match s.gent d.entry with
  | none => (s, none)
  | some e =>
    let n := d.entry / 256
    let r := geRung e.img d.rung
    let rest := d.elems.drop d.done
    let l := ((if r.mode = 0 then rest else rest.take (2 ^ r.blk)).map f32)
    let q := quantBlock e d l
    let nf := l.map Num.nonfinite
    let clips := (q.2.2.filter id).length
    let bads := (nf.filter id).length
    let e := (q.2.2.zip nf).foldl (windowElem d.rung) e
    let e := { e with
      elems := satAdd 64 e.elems l.length, clipped := satAdd 64 e.clipped clips, nonfin := satAdd 32 e.nonfin bads,
      maxAbs := maxAbs32 e.maxAbs l }
    let s := (s.setGent d.entry e).wrapInc Reg.GRF_ELEMS_COUNT [n] l.length
    let s := (s.wrapInc Reg.GRF_CLIP_COUNT [n] clips).satInc Reg.GRF_NONFIN_COUNT [n] bads
    let d := { d with done := d.done + l.length, codes := d.codes ++ q.2.1, scales := d.scales ++ [q.1] }
    let x := sendReady e (d.elems.length + 1) s d
    (x.1, if x.2.packed < x.2.elems.length then some x.2 else none)

/-! ### Remote writes through a Graft unit -/

/-- A converted row arrives on a port: the ingress entry's checks, then the 256-byte row that the inbound port takes (R508, R510,
R512). -/
def rwriteGraft (s : State) (q : Packet) (port : Nat) : State :=
  let n := port % 8
  match s.graft.entries.find? (fun e => e.2.role == 1 && geKind e.2.img == 1 && geEidx e.2.img == pkEidx q
      && geAgent e.2.img == q.dstAgent / 4 + 16 * (q.tfb 10 1 % 16)) with
  | none => graftRefuse s n q 0x28 0
  | some (k, e) =>
    match graftFails e q with
    | some d => graftRefuse s (k / 256) q 0x29 d
    | none =>
      let (s, vs) := countRx s k e q (rowElems e.img)
      let f := (geRung e.img (geLast e.img)).fmt
      inboundOp s q (packCodes (fmtBits f) (vs.map (fun v => (encodeNum f .rne false (f32 v)).1)))

/-- RWRITE: a converted row goes through the ingress unit, any other to the inbound port as it is. -/
def rwriteOp (s : State) (q : Packet) (port : Nat) : State :=
  if converted q then rwriteGraft s q port else inboundOp s q q.body

/-- RWRITE. -/
def execRwrite (q : Packet) (s : State) : Outcome State Fault Refusal :=
  nextQ (if s.coreUp && q.typ == 1 then rwriteOp (takeInbox s q) q (s.arrivalPort q) else takeInbox s q)

/-! ### COLLECTIVE: fields (R322) -/

def coOp (l : List Byte) : Nat := fieldAt l 1 1
def coRed (l : List Byte) : Nat := fieldAt l 2 1
def coInTag (l : List Byte) : Nat := bitsOf (fieldAt l 3 1) 0 2
def coOutTag (l : List Byte) : Nat := bitsOf (fieldAt l 3 1) 2 2
def coDesc (l : List Byte) : Nat := fieldAt l 4 2
def coSrc (l : List Byte) : Nat := fieldAt l 6 2
def coDst (l : List Byte) : Nat := fieldAt l 8 2
def coRows (l : List Byte) : Nat := fieldAt l 10 2
def cdPlan (b : List Byte) : Nat := fieldAt b 0 2
def cdLayer (b : List Byte) : Nat := fieldAt b 4 4
def cdAlgo (b : List Byte) : Nat := fieldAt b 8 1
def cdFmt (b : List Byte) : Nat := fieldAt b 9 1
def cdIgnore (b : List Byte) : Bool := bitOf (fieldAt b 10 1) 0
def cdSrcStore (b : List Byte) : Nat := bitsOf (fieldAt b 10 1) 1 2
def cdDstStore (b : List Byte) : Nat := bitsOf (fieldAt b 10 1) 3 2
def cdGroup (b : List Byte) : Nat := fieldAt b 12 2
def cdSize (b : List Byte) : Nat := fieldAt b 14 2

/-- The bytes of an instruction that break a check. -/
def coBad (l : List Byte) : List (Nat × Bool) :=
  [(1, decide (4 < coOp l)), (2, decide (coOp l < 2) && decide (2 < coRed l)),
   (3, coInTag l == 3 || coOutTag l == 1 || coOutTag l == 2 || fieldAt l 3 1 / 16 != 0), (10, coRows l == 0)]

/-- The bytes of a descriptor that break a check. -/
def cdBad (b : List Byte) : List (Nat × Bool) :=
  [(8, decide (2 < cdAlgo b)), (9, decide (2 < cdFmt b)),
   (10, cdSrcStore b == 3 || cdDstStore b == 3 || fieldAt b 10 1 / 32 != 0),
   (14, decide (cdSize b < 2) || decide (256 < cdSize b))]

/-- The reserved bytes of a descriptor. -/
def cdReserved : List Nat := [2, 3, 11] ++ (List.range 240).map (· + 16)

/-! ### Schedules (R323) -/

/-- A step of an exchange: send elements lo to hi − 1 to a die, or wait for them from one and place them (mode 0),
combine received with own (1) or own with received (2). -/
inductive CAct where
  | send (die phase chunk lo hi : Nat)
  | recv (die phase chunk lo hi mode : Nat)
  deriving DecidableEq, Repr

/-- The elements of chunk `j` of `n`: from and to. -/
def chunkLo (t n j : Nat) : Nat := j * t / n
def chunkHi (t n j : Nat) : Nat := (j + 1) * t / n

/-- The reduce steps of a ring: chunk j starts at rank j + 1 and ends at rank j. -/
def ringReduce (line : List Nat) (r t : Nat) : List CAct :=
  let n := line.length
  (List.range (n - 1)).flatMap (fun i =>
    let a := (r + 2 * n - 1 - i) % n
    let b := (r + 2 * n - 2 - i) % n
    [.send (line.getD ((r + 1) % n) 0) 0 a (chunkLo t n a) (chunkHi t n a),
     .recv (line.getD ((r + n - 1) % n) 0) 0 b (chunkLo t n b) (chunkHi t n b) 1])

/-- The distribute steps of a ring: rank j begins with chunk j. -/
def ringGather (line : List Nat) (r t : Nat) : List CAct :=
  let n := line.length
  (List.range (n - 1)).flatMap (fun i =>
    let a := (r + 2 * n - i) % n
    let b := (r + 2 * n - 1 - i) % n
    [.send (line.getD ((r + 1) % n) 0) 1 a (chunkLo t n a) (chunkHi t n a),
     .recv (line.getD ((r + n - 1) % n) 0) 1 b (chunkLo t n b) (chunkHi t n b) 0])

/-- The levels of a tree over `n` ranks, lowest first. -/
def treeLevels (n : Nat) : List Nat := ((List.range 8).map (fun l => 2 ^ l)).filter (fun w => decide (w < n))

/-- The reduce steps of a tree: at width w, rank 2w·i takes in rank 2w·i + w. -/
def treeUp (g : List Nat) (r t : Nat) (gather : Bool) : List CAct :=
  let n := g.length
  (treeLevels n).flatMap (fun w =>
    let range (a : Nat) : Nat × Nat := if gather then (chunkLo t n a, chunkLo t n (min n (a + w))) else (0, t)
    if r % (2 * w) = w then [.send (g.getD (r - w) 0) 0 0 (range r).1 (range r).2]
    else if r % (2 * w) = 0 ∧ r + w < n then
      [.recv (g.getD (r + w) 0) 0 0 (range (r + w)).1 (range (r + w)).2 (if gather then 0 else 2)]
    else [])

/-- The distribute steps of a tree: the whole tensor from rank 0 outwards. -/
def treeDown (g : List Nat) (r t : Nat) : List CAct :=
  let n := g.length
  (treeLevels n).reverse.flatMap (fun w =>
    if r % (2 * w) = w then [.recv (g.getD (r - w) 0) 1 0 0 t 0]
    else if r % (2 * w) = 0 ∧ r + w < n then [.send (g.getD (r + w) 0) 1 0 0 t]
    else [])

/-- From rank 0 each chunk to its rank. -/
def scatterFrom0 (g : List Nat) (r t : Nat) : List CAct :=
  let n := g.length
  if r = 0 then (List.range (n - 1)).map (fun i => .send (g.getD (i + 1) 0) 1 (i + 1) (chunkLo t n (i + 1)) (chunkHi t n (i + 1)))
  else [.recv (g.getD 0 0) 1 r (chunkLo t n r) (chunkHi t n r) 0]

/-- Broadcast along a ring from rank 0. -/
def ringPass (g : List Nat) (r t : Nat) : List CAct :=
  (if r = 0 then [] else [.recv (g.getD (r - 1) 0) 1 0 0 t 0])
    ++ (if r + 1 < g.length then [.send (g.getD (r + 1) 0) 1 0 0 t] else [])

/-- Every chunk to its rank, and one from every rank. -/
def allToAll (g : List Nat) (r t : Nat) : List CAct :=
  let n := g.length
  let others := (List.range n).filter (fun i => i != r)
  others.map (fun i => .send (g.getD i 0) 1 i (chunkLo t n i) (chunkHi t n i))
    ++ others.map (fun i => .recv (g.getD i 0) 1 r (chunkLo t n i) (chunkHi t n i) 0)

/-- The members of a group on this die's line in dimension `k` of the torus, in rank order. -/
def State.torusLine (s : State) (g : List Nat) (k : Nat) : List Nat :=
  g.filter (fun d => (List.range 3).all (fun j =>
    j == k || rtCoord (s.rtEntry 0 d) j == rtCoord (s.rtEntry 0 s.self) j))

/-- This die's rank in a list of dies. -/
def State.rankIn (s : State) (g : List Nat) : Nat := g.idxOf s.self

/-- An all-reduce along each dimension of the torus in turn. -/
def State.torusSteps (s : State) (g : List Nat) (t : Nat) : List CAct :=
  (List.range 3).flatMap (fun k =>
    let line := s.torusLine g k
    ringReduce line (s.rankIn line) t ++ ringGather line (s.rankIn line) t)

/-- Whether a step moves anything. -/
def CAct.moves : CAct → Bool
  | .send _ _ _ lo hi => decide (lo < hi)
  | .recv _ _ _ lo hi _ => decide (lo < hi)

/-- The schedule of a run on this die. -/
def State.collSteps (s : State) (x : Coll) : List CAct :=
  let g := x.group
  let r := s.rankIn g
  let t := x.src.length
  let algo := cdAlgo x.desc
  let l := match coOp x.instr with
    | 0 => if algo = 1 then treeUp g r t false ++ treeDown g r t else if algo = 2 then s.torusSteps g t
           else ringReduce g r t ++ ringGather g r t
    | 1 => if algo = 1 then treeUp g r t false ++ scatterFrom0 g r t else if algo = 2 then s.torusSteps g t
           else ringReduce g r t
    | 2 => if algo = 1 then treeUp g r t true ++ treeDown g r t else ringGather g r t
    | 3 => if algo = 1 then treeDown g r t else ringPass g r t
    | _ => allToAll g r t
  l.filter CAct.moves

/-- The OR all-reduce of verdicts along a ring: every member's knowledge passes on at each step. -/
def orRing (line : List Nat) (r : Nat) : List CAct :=
  let n := line.length
  (List.range (n - 1)).flatMap (fun _ => [.send (line.getD ((r + 1) % n) 0) 0 0 0 0, .recv (line.getD ((r + n - 1) % n) 0) 0 0 0 0 1])

/-- The schedule of a verdict round, by the collective's ALGO (R518): CHUNK and PHASE are 0. -/
def State.verdictSteps (s : State) (x : Coll) : List CAct :=
  let g := x.group
  let flat (a : CAct) : CAct := match a with
    | .send d _ _ _ _ => .send d 0 0 0 0
    | .recv d _ _ _ _ m => .recv d 0 0 0 0 m
  match cdAlgo x.desc with
  | 1 => ((treeUp g (s.rankIn g) 1 false) ++ treeDown g (s.rankIn g) 1).map flat
  | 2 => (List.range 3).flatMap (fun k => orRing (s.torusLine g k) (s.rankIn (s.torusLine g k)))
  | _ => orRing g (s.rankIn g)

/-! ### Entries of a collective -/

/-- The keys of the egress entries of a context's collectives under a plan and layer. -/
def State.layerKeys (s : State) (p c : Nat) (x : Coll) : List Nat :=
  (s.graft.entries.filter (fun e => e.2.role == 0 && e.2.plan == cdPlan x.desc && geLayer e.2.img == cdLayer x.desc
    && geKind e.2.img == 0 && geAgent e.2.img == ctxAgent p c)).map (·.1)

/-- The key of the entry that converts sends to a die. -/
def State.sendKey (s : State) (p c : Nat) (x : Coll) (die : Nat) : Option Nat :=
  (s.layerKeys p c x).find? (fun k => match s.gent k with | some e => geDstDie e.img == die | none => false)

/-- The COLL entries of the Graft section of a bundle for a plan and layer (R208). -/
def graftRecords (b : List Byte) : List (List Byte) :=
  let g := sectionBytes b 9
  varRecords (fun l => 64 + 16 * cdiv (fieldAt l 56 2) 16) (fieldAt g 4 4) (g.drop 16)
def bundleLayer (b : List Byte) (plan layer : Nat) : List (List Byte) :=
  if fieldAt (sectionBytes b 9) 0 2 = plan then (graftRecords b).filter (fun e => geLayer e == layer && geKind e == 0) else []

/-- The first entry of a layer as an image: its ladder is the ladder of every entry of the layer (R502). -/
def State.layerImg (s : State) (p : Nat) (x : Coll) : Option (List Byte) :=
  match s.jobOf p with
  | some j => (bundleLayer (s.job j).bundle (cdPlan x.desc) (cdLayer x.desc)).head?
  | none => none

/-- Whether a layer reruns misfit runs. -/
def State.layerRerun (s : State) (p : Nat) (x : Coll) : Bool :=
  match s.jobOf p with
  | some j => (bundleLayer (s.job j).bundle (cdPlan x.desc) (cdLayer x.desc)).any geRerun
  | none => false

/-! ### Sending and receiving -/

/-- The header of a COLL packet without its Graft fields. -/
def State.collPacket (s : State) (p c die phase chunk : Nat) : Packet :=
  { typ := 10, vc := 0, len := 0, first := false, last := false, dstDie := die, srcDie := s.self,
    dstAgent := ctxAgent p c, srcAgent := ctxAgent p c, epoch := 0, tf := 2 ^ 16 * (chunk % 256) + 2 ^ 24 * phase,
    resv := false, body := [] }

/-- Send elements unconverted, in the wide format of the descriptor (R498). -/
def sendWide (q : Packet) (f : Nat) : Nat → Nat → List Nat → State → State
  | 0, _, _, s => s
  | _, _, [], s => s
  | k + 1, off, l, s =>
    let n := 2048 / max 1 (fmtBits f)
    let b := packCodes (fmtBits f) ((l.take n).map (fun v => (encodeNum f .rne false (f32 v)).1))
    let body := padTo (16 * cdiv b.length 16) b
    sendWide q f k (off + n) (l.drop n)
      (injectPkt s { q with len := body.length / 16, tf := q.tf + 2 ^ 8 * f + 2 ^ 32 * off, body := body })

/-- Send elements of a run to a die: through the Graft unit that the plan names, or unconverted. -/
def collSend (s : State) (p c : Nat) (x : Coll) (die phase chunk : Nat) (l : List Nat) : State :=
  let q := s.collPacket p c die phase chunk
  match s.sendKey p c x die with
  | none => sendWide q (cdFmt x.desc) (l.length + 1) 0 l s
  | some k =>
    match s.gent k with
    | none => s
    | some e =>
      let r := geRung e.img x.rung
      let s := s.setGent k { e with run := e.run + (if r.mode = 0 then 0 else cdiv l.length (2 ^ r.blk)) }
      queueSend s { entry := k, pkt := q, rwrite := false, elems := l, block0 := e.run, rung := x.rung }

/-- A verdict packet (R518). -/
def sendVerdict (s : State) (p c : Nat) (x : Coll) (die : Nat) : State :=
  let q := s.collPacket p c die 0 0
  injectPkt s { q with
    len := 1, tf := 2 ^ 15, body := padTo 16 [BitVec.ofNat 8 (b2n x.misfit), BitVec.ofNat 8 x.rung] }

/-- What has arrived for a context. -/
def State.rxOf (s : State) (p c : Nat) : List Rx := FMap.get s.graft.rx [] (4 * p + c)
def State.setRx (s : State) (p c : Nat) (l : List Rx) : State :=
  { s with graft := { s.graft with rx := FMap.set s.graft.rx [] (4 * p + c) l } }
def State.collsOf (s : State) (p c : Nat) : List Coll := FMap.get s.graft.colls [] (4 * p + c)
def State.setColls (s : State) (p c : Nat) (l : List Coll) : State :=
  { s with graft := { s.graft with colls := FMap.set s.graft.colls [] (4 * p + c) l } }

/-- Take `need` elements of a transfer out of what has arrived, in order of arrival: they begin at element 0 and follow
one another. -/
def takeRx (is : Rx → Bool) (need : Nat) : List Nat → List Rx → Option (List Nat × List Rx)
  | acc, [] => if need ≤ acc.length then some (acc.take need, []) else none
  | acc, e :: rest =>
    if need ≤ acc.length then some (acc.take need, e :: rest)
    else if is e then
      if e.off = acc.length then takeRx is need (acc ++ e.elems) rest else none
    else (takeRx is need acc rest).map (fun x => (x.1, e :: x.2))

/-- Replace elements from `lo` on. -/
def splice (l : List Nat) (lo : Nat) (x : List Nat) : List Nat := l.take lo ++ x ++ l.drop (lo + x.length)

/-- Combine two elements in FP32 (R323, R368). -/
def redElem (red : Nat) (ignore : Bool) (a b : Nat) : Nat :=
  match red with
  | 0 => f32Add a b
  | 1 => toF32 ((f32 a).maxOf ignore (f32 b))
  | _ => toF32 ((f32 a).minOf ignore (f32 b))

/-- Elements lo on after those received are placed or combined. -/
def mergeRx (x : Coll) (lo mode : Nat) (l : List Nat) : List Nat :=
  let own := (x.acc.drop lo).take l.length
  let f := redElem (coRed x.instr) (cdIgnore x.desc)
  splice x.acc lo (if mode = 0 then l else if mode = 1 then List.zipWith f l own else List.zipWith f own l)

/-- One step of the head collective of a context; none when it waits. -/
def collStep (s : State) (p c : Nat) (x : Coll) (a : CAct) : Option (State × Coll) :=
  let x' := { x with step := x.step + 1 }
  let verdict := x.phase == 2
  match a with
  | .send die ph ch lo hi =>
    if verdict then some (sendVerdict s p c x die, x')
    else some (collSend s p c x die ph ch ((x.acc.drop lo).take (hi - lo)), x')
  | .recv die ph ch lo hi mode =>
    let is (e : Rx) : Bool := e.die == die && e.phase == ph && e.chunk == ch % 256 && e.verdict == verdict
    let need := if verdict then 2 else hi - lo
    match takeRx is need [] (s.rxOf p c) with
    | none => none
    | some (l, rest) =>
      if verdict then some (s.setRx p c rest, { x' with misfit := x.misfit || l.getD 0 0 % 2 == 1 })
      else some (s.setRx p c rest, { x' with acc := mergeRx x lo mode l })

/-- Run the steps of a schedule until one waits. -/
def collSteps (p c : Nat) (l : List CAct) : Nat → State → Coll → State × Coll
  | 0, s, x => (s, x)
  | k + 1, s, x =>
    match l[x.step]? with
    | none => (s, x)
    | some a =>
      match collStep s p c x a with
      | none => (s, x)
      | some (s, x) => collSteps p c l k s x

/-- Whether sends of a context still wait in an egress unit. -/
def State.collSending (s : State) (p c : Nat) : Bool :=
  s.graft.egress.any (fun e => e.2.any (fun d => !d.rwrite && d.pkt.srcAgent == ctxAgent p c))

/-- A run starts: captured images take effect, windows and block counts restart. -/
def startRun (s : State) (p c : Nat) (x : Coll) : State :=
  (s.layerKeys p c x).foldl (fun s k =>
    let s := takeCap s k
    match s.gent k with
    | some e => s.setGent k { e with run := 0, misfit := false, winElems := 0, winClip := 0, winBad := 0, rung := x.rung }
    | none => s) s

/-- The rung on which a new COLLECTIVE begins (R519). -/
def State.startRung (s : State) (p c : Nat) (x : Coll) : Nat :=
  match s.layerImg p x, (s.layerKeys p c x).head? with
  | some img, some k =>
    if geSticky img then (match s.gent k with | some e => if e.cap.isSome then 0 else e.rung | none => 0) else 0
  | _, _ => 0

/-! ### Completion (R324) -/

/-- The elements that a run leaves in the destination: the own chunk of a REDUCE_SCATTER, otherwise all. -/
def State.collResult (s : State) (x : Coll) : List Nat :=
  if coOp x.instr = 1 then
    let n := x.group.length
    let r := s.rankIn x.group
    (x.acc.drop (chunkLo x.acc.length n r)).take (chunkHi x.acc.length n r - chunkLo x.acc.length n r)
  else x.acc

/-- The rows that the destination takes. -/
def State.collRowsOut (s : State) (x : Coll) : List (Nat × List Byte) :=
  let f := cdFmt x.desc
  rowsOut (coDst x.instr) (packCodes (fmtBits f) ((s.collResult x).map (fun v => (encodeNum f .rne false (f32 v)).1)))

/-- Write the destination and end the head collective, unless a FILL has to wait; whether it ended. -/
def collFinish (s : State) (p c : Nat) (x : Coll) : State × Bool :=
  let rows := s.collRowsOut x
  let st := cdDstStore x.desc
  if coOutTag x.instr = tagFill ∧ rows.any (fun e => s.tagFull p st e.1) then (s, false)
  else
    let s := rows.foldl (fun s e => (writeRow s p st e.1 (coOutTag x.instr) e.2).1) s
    let s := s.setColls p c ((s.collsOf p c).drop 1)
    let s := (s.layerKeys p c x).foldl (fun s k => match s.gent k with
      | some e => s.setGent k { e with rung := if geSticky e.img then e.rung else 0 }
      | none => s) s
    (s.setCtx p c { s.ctx p c with colls := (s.ctx p c).colls - 1 }, true)

/-- Drive the head collective of a context as far as it goes; when it ends, the next one begins. -/
def collAdvance (p c : Nat) : Nat → State → State
  | 0, s => s
  | k + 1, s =>
    match s.collsOf p c with
    | [] => s
    | x :: rest =>
      let put (s : State) (x : Coll) : State := s.setColls p c (x :: rest)
      let finish (s : State) (x : Coll) : State :=
        match collFinish s p c x with
        | (s, false) => put s { x with phase := 3 }
        | (s, true) =>
          (match s.collsOf p c with
           | [] => s
           | y :: more =>
             let y := { y with rung := s.startRung p c y }
             collAdvance p c k ((startRun s p c y).setColls p c (y :: more)))
      match x.phase with
      | 0 =>
        let l := s.collSteps x
        let r := collSteps p c l (l.length + 1) s x
        if r.2.step < l.length ∨ r.1.collSending p c then put r.1 r.2
        else
          let s := (r.1.layerKeys p c x).foldl (fun s k => closePartial s k x.rung) r.1
          if s.layerRerun p x then put s { r.2 with phase := 1, step := 0 } else finish s r.2
      | 2 =>
        let l := s.verdictSteps x
        let r := collSteps p c l (l.length + 1) s x
        put r.1 r.2
      | 3 => finish s x
      | _ => s

/-- Drive a context's collectives. -/
def collGo (s : State) (p c : Nat) : State := collAdvance p c ((s.collsOf p c).length + 1) s

/-! ### COLLECTIVE -/

/-- Whether the job lets this die exchange with the group: it names this die, every member runs the job, and a plan
other than 0 has entries for the layer. -/
def State.collOk (s : State) (p : Nat) (b : List Byte) (g : List Nat) : Bool :=
  match s.jobOf p with
  | none => false
  | some j =>
    let bd := (s.job j).bundle
    g.contains s.self && g.all (fun d => (runDies bd).contains d)
      && (cdPlan b == 0 || !(bundleLayer bd (cdPlan b) (cdLayer b)).isEmpty)

/-- Elements in a number of rows of the wide format. -/
def wideElems (f rows : Nat) : Nat := rows * (2048 / max 1 (fmtBits f))

/-- The rows that an operation reads and writes out of ROWS: an ALL_GATHER reads its own chunk, a REDUCE_SCATTER writes
its own chunk (R322). -/
def coSrcRows (l : List Byte) (n : Nat) : Nat := if coOp l = 2 then cdiv (coRows l) n else coRows l
def coDstRows (l : List Byte) (n : Nat) : Nat := if coOp l = 1 then cdiv (coRows l) n else coRows l

/-- The tensor a run begins with: the source elements, an ALL_GATHER's at the place of the own chunk. -/
def collTensor (l : List Byte) (f n r : Nat) (d : List Byte) : List Nat :=
  let t := wideElems f (coRows l)
  let get (i : Nat) : Nat := toF32 (decodeFmt f (element d (fmtBits f) i))
  if coOp l = 2 then
    let lo := chunkLo t n r
    splice (List.replicate t 0) lo ((List.range (chunkHi t n r - lo)).map get)
  else (List.range t).map get

/-- COLLECTIVE with its descriptor and group at hand: the source is read with its tags, and the exchange is queued. -/
def collAccept (s : State) (p c : Nat) (l b g : List Byte) : State :=
  let dies := (List.range (cdSize b)).map (fun i => fieldAt g i 1)
  if !s.collOk p b dies then ctxFault s p c 11 0
  else
    let n := cdSize b
    let st := cdSrcStore b
    let rows := coSrcRows l n
    if s.storeRows p st < coSrc l + rows then rangeFault s p c 0 st (max (coSrc l) (s.storeRows p st))
    else if s.storeRows p (cdDstStore b) < coDst l + coDstRows l n then
      rangeFault s p c 0 (cdDstStore b) (max (coDst l) (s.storeRows p (cdDstStore b)))
    else if !s.rowsReady p st (coSrc l) (coInTag l) rows then
      setWait s p c 1 (tagArg st (s.firstEmpty p st (coSrc l) rows))
    else
      match readRows s p st (coSrc l) (coInTag l) rows with
      | (s, .ok d) =>
        let t := collTensor l (cdFmt b) n (s.rankIn dies) d
        let x : Coll := { instr := l, desc := b, group := dies, src := t, acc := t, rung := 0 }
        let old := s.collsOf p c
        let x := if old.isEmpty then { x with rung := s.startRung p c x } else x
        let s := if old.isEmpty then startRun s p c x else s
        let s := s.setCtx p c { s.ctx p c with colls := (s.ctx p c).colls + 1 }
        retireNext (collGo (s.setColls p c (old ++ [x])) p c) p c
      | (s, .poison) => poisonFault s p c
      | (s, _) => s

/-- COLLECTIVE. -/
def collectiveOp (s : State) (p c : Nat) : State :=
  issue s p c 0x21 (fun s l => checked s p c l (coBad l) [12, 13, 14, 15] (fun s =>
    match readRow s p 0 (coDesc l) tagNone with
    | (s, .ok b) =>
      checked s p c b (cdBad b) cdReserved (fun s =>
        match readRow s p 0 (cdGroup b) tagNone with
        | (s, .ok g) => collAccept s p c l b g
        | (s, .poison) => poisonFault s p c
        | (s, _) => rangeFault s p c 0 0 (cdGroup b))
    | (s, .poison) => poisonFault s p c
    | (s, _) => rangeFault s p c 0 0 (coDesc l)))

/-- COLLECTIVE. -/
def execCollective (p : Fin 16) (c : Fin 4) (s : State) : Outcome State Fault Refusal := nextQ (collectiveOp s p c)

/-! ### COLL (R508) -/

/-- The elements that the running exchange of a context still expects with a packet, when it expects that transfer. -/
def State.expects (s : State) (q : Packet) : Option Nat :=
  let p := q.dstAgent / 4
  let c := q.dstAgent % 4
  match s.collsOf p c with
  | x :: _ =>
    if x.phase ≠ 0 then none
    else ((s.collSteps x).drop x.step).findSome? (fun a => match a with
      | .recv die ph ch lo hi _ =>
        if die = q.srcDie ∧ ph = bitsOf (q.tfb 11 1) 0 1 ∧ ch % 256 = q.tfb 10 1 then some (hi - lo - pkOff q) else none
      | .send _ _ _ _ _ => none)
  | [] => none

/-- What has arrived for a context is kept until its exchange takes it. -/
def addRx (s : State) (q : Packet) (verdict : Bool) (off : Nat) (l : List Nat) : State :=
  let p := q.dstAgent / 4
  let c := q.dstAgent % 4
  let x : Rx := ⟨q.srcDie, bitsOf (q.tfb 11 1) 0 1, q.tfb 10 1, off, verdict, l⟩
  collGo (s.setRx p c (s.rxOf p c ++ [x])) p c

/-- COLL: a verdict record, an unconverted packet, or one that the ingress unit checks and dequantises. -/
def collOp (s : State) (q : Packet) (port : Nat) : State :=
  if 64 ≤ q.dstAgent ∨ !s.plotEn (q.dstAgent / 4) then s
  else if pkVerdict q then addRx s q true 0 [fieldAt q.body 0 1, fieldAt q.body 1 1]
  else
    let limit (n : Nat) : Nat := match s.expects q with | some m => min n m | none => n
    if !converted q then
      let f := pkFmt q
      let n := limit (128 * q.len / max 1 (fmtBits f))
      addRx s q false (pkOff q) ((List.range n).map (fun i => toF32 (decodeFmt f (element q.body (fmtBits f) i))))
    else
      match s.graft.entries.find? (fun e => e.2.role == 1 && geKind e.2.img == 0 && geEidx e.2.img == pkEidx q
          && geAgent e.2.img == q.dstAgent) with
      | none => graftRefuse s (port % 8) q 0x28 0
      | some (k, e) =>
        match graftFails e q with
        | some d => graftRefuse s (k / 256) q 0x29 d
        | none =>
          let x := countRx s k e q (limit (pkElems e.img (geRung e.img (pkRung q)) q))
          addRx x.1 q false (pkOff q) x.2

/-- COLL. -/
def execColl (q : Packet) (s : State) : Outcome State Fault Refusal :=
  nextQ (if s.coreUp && q.typ == 10 then collOp (takeInbox s q) q (s.arrivalPort q) else takeInbox s q)

/-! ### Egress blocks and verdict rounds -/

/-- GRAFT_EGRESS_BLOCK: the oldest send of a unit quantises its next block, once the windows that have ended are
judged. -/
def egressBlockOp (s : State) (n : Nat) : State :=
  match FMap.get s.graft.egress [] n with
  | [] => s
  | d :: rest =>
    if (match s.gent d.entry with | some e => !e.ended.isEmpty | none => false) then s
    else
      let r := egressStep s d
      let left := match r.2 with | some d => d :: rest | none => rest
      let s := r.1
      let s := showGraft { s with graft := { s.graft with egress := FMap.set s.graft.egress [] n left } } n
      if d.rwrite ∨ r.2.isSome then s else collGo s (d.pkt.srcAgent / 4) (d.pkt.srcAgent % 4)

/-- GRAFT_EGRESS_BLOCK. -/
def execGraftEgressBlock (n : Fin 8) (s : State) : Outcome State Fault Refusal :=
  nextQ (if s.coreUp then egressBlockOp s n else s)

/-- GRAFT_WINDOW_END. -/
def execGraftWindowEnd (n : Fin 8) (slot : Nat) (s : State) : Outcome State Fault Refusal :=
  nextQ (if s.coreUp then windowEndOp s n slot else s)

/-- VERDICT_ROUND: the run has ended and every window is judged, so this die contributes its record (R518). -/
def verdictRoundOp (s : State) (p c : Nat) : State :=
  match s.collsOf p c with
  | [] => s
  | x :: rest =>
    let es := (s.layerKeys p c x).filterMap s.gent
    if x.phase ≠ 1 ∨ es.any (fun e => !e.ended.isEmpty) then s
    else collGo (s.setColls p c ({ x with phase := 2, step := 0, misfit := es.any (·.misfit) } :: rest)) p c

/-- VERDICT_ROUND. -/
def execVerdictRound (p : Fin 16) (c : Fin 4) (s : State) : Outcome State Fault Refusal :=
  nextQ (if s.coreUp then verdictRoundOp s p c else s)

/-- The entries of a run count a rerun and its event (R517). -/
def countRerun (s : State) (p c : Nat) (x : Coll) : State :=
  (s.layerKeys p c x).foldl (fun s k => match s.gent k with
    | some e =>
      let s := s.setGent k { e with fallbacks := satAdd 32 e.fallbacks 1 }
      hedgeEvent (s.satInc Reg.GRF_RUNGUP_COUNT [k / 256] 1) (322 + 8 * (k / 256)) (geEidx e.img)
    | none => s) s

/-- VERDICT_ROUND_COMPLETE: a misfit group reruns on the next rung, unless the run's rung is the last; otherwise the
COLLECTIVE completes with its run. -/
def verdictCompleteOp (s : State) (p c : Nat) : State :=
  match s.collsOf p c with
  | [] => s
  | x :: rest =>
    if x.phase = 3 then collGo s p c
    else if x.phase ≠ 2 ∨ x.step < (s.verdictSteps x).length then s
    else
      let last := match s.layerImg p x with | some i => geLast i | none => 0
      if x.misfit ∧ x.rung < last then
        let x := { x with phase := 0, step := 0, acc := x.src, rung := x.rung + 1, misfit := false }
        let s := startRun (countRerun s p c x) p c x
        collGo (s.setColls p c (x :: rest)) p c
      else collGo (s.setColls p c ({ x with phase := 3 } :: rest)) p c

/-- VERDICT_ROUND_COMPLETE. -/
def execVerdictRoundComplete (p : Fin 16) (c : Fin 4) (s : State) : Outcome State Fault Refusal :=
  nextQ (if s.coreUp then verdictCompleteOp s p c else s)

end Sys2Proof.Machine
end

