-- ==== Sys2Proof/Machine/TableOps.lean ====
section
/-! DEFINITION. Embedding tables as the lookup path reads them (R400-R414): the directory slot in effect, the shard map,
placement in HBM, hashing, composition and the read part of a row. -/

namespace Sys2Proof.Machine

/-! ### Directory slots (R447) -/

/-- The 64 bytes of directory slot `t` in effect. -/
def State.dirBytes (s : State) (t : Nat) : List Byte :=
  (List.range 16).flatMap (fun i => leBytes 4 (s.rdA Reg.SIV_DIR_WORD [t, i]))

/-- A table as a directory slot describes it. -/
structure Dir where
  tkey : Nat
  id : Nat
  func : Nat
  valid : Bool
  drop : Bool
  interleave : Bool
  kind : Nat
  concat : Bool
  fmt : Nat
  space : Nat
  rows : Nat
  seed : Nat
  modulus : Nat
  compP : Nat
  compQ : Nat
  entries : Nat
  mapBase : Nat
  mask : Nat
  elems : Nat
  pitch : Nat
  deriving DecidableEq, Repr

/-- The fields of 64 directory bytes. -/
def dirOf (b : List Byte) : Dir :=
  { tkey := fieldAt b 0 4, id := fieldAt b 4 2, func := bitsOf (fieldAt b 6 1) 0 4, valid := bitOf (fieldAt b 6 1) 4,
    drop := bitOf (fieldAt b 6 1) 5, interleave := bitOf (fieldAt b 6 1) 6, kind := bitsOf (fieldAt b 7 1) 0 2,
    concat := bitOf (fieldAt b 7 1) 2, fmt := bitsOf (fieldAt b 7 1) 3 5, space := fieldAt b 8 8, rows := fieldAt b 16 8,
    seed := fieldAt b 24 8, modulus := fieldAt b 32 4 + 1, compP := fieldAt b 36 1, compQ := fieldAt b 37 1,
    entries := fieldAt b 38 2, mapBase := fieldAt b 40 2, mask := bitsOf (fieldAt b 42 1) 0 6, elems := fieldAt b 44 2,
    pitch := 64 * fieldAt b 46 1 }

/-- The 64 bytes of a directory slot. -/
def dirPack (d : Dir) : List Byte :=
  leBytes 4 d.tkey ++ leBytes 2 d.id
    ++ leBytes 1 (d.func + 16 * b2n d.valid + 32 * b2n d.drop + 64 * b2n d.interleave)
    ++ leBytes 1 (d.kind + 4 * b2n d.concat + 8 * d.fmt) ++ leBytes 8 d.space ++ leBytes 8 d.rows ++ leBytes 8 d.seed
    ++ leBytes 4 (d.modulus - 1) ++ leBytes 1 d.compP ++ leBytes 1 d.compQ ++ leBytes 2 d.entries ++ leBytes 2 d.mapBase
    ++ leBytes 1 d.mask ++ leBytes 1 0 ++ leBytes 2 d.elems ++ leBytes 1 (d.pitch / 64) ++ fill 17 0

/-- Directory slot `t`. -/
def State.dir (s : State) (t : Nat) : Dir := dirOf (s.dirBytes t)

/-- The slots in use. -/
def State.dirs (s : State) : List Nat := (List.range 256).filter (fun t => (s.dir t).valid)

/-- The slot of a function's table. -/
def State.tableOf (s : State) (f id : Nat) : Option Nat :=
  s.dirs.find? (fun t => (s.dir t).func == f && (s.dir t).id == id)

/-- The slot of a TKEY that stores rows or is named on the wire. -/
def State.slotOfKey (s : State) (k : Nat) : Option Nat := s.dirs.find? (fun t => (s.dir t).tkey == k)

/-- What firmware keeps of the table in slot `t`. -/
def State.tbl (s : State) (t : Nat) : Tbl := FMap.get s.tbls {} t
def State.setTbl (s : State) (t : Nat) (x : Tbl) : State := { s with tbls := FMap.put s.tbls t x }

/-! ### Rows (R401, R413) -/

/-- D of R401: the bytes of a row's elements, and D8. -/
def rowD (fmt elems : Nat) : Nat := elems * fmtBits fmt / 8
def rowD8 (fmt elems : Nat) : Nat := (rowD fmt elems + 7) / 8 * 8

/-- The bytes that a gather reads of a row. -/
def readPart (fmt elems : Nat) : Nat := 8 + rowD fmt elems

/-- The pitch of R401. -/
def pitchOf (fmt elems state : Nat) : Nat := (8 + rowD8 fmt elems + state + 63) / 64 * 64

/-- Whether a format may be a row format (R401). -/
def rowFmtOk (f : Nat) : Bool := f < 5 || f == 0xB

/-- Whether a row format has a scale (R401). -/
def scaledFmt (f : Nat) : Bool := f == 3 || f == 4 || f == 0xB

/-- SCALE of a row as FP32: 1 for the formats without one. -/
def rowScale (fmt : Nat) (row : List Byte) : Nat := if scaledFmt fmt then fieldAt row 4 4 else 0x3F800000

/-- Element `k` of a row as FP32. -/
def rowElem (fmt : Nat) (row : List Byte) (k : Nat) : Nat :=
  toF32 (decodeFmt fmt (element (row.drop 8) (fmtBits fmt) k))

/-! ### Shard maps (R405) -/

/-- Entry `i` of the shard-map memory. -/
def State.mapEntry (s : State) (i : Nat) : List Byte := FMap.get s.shard (fill 16 0) i

/-- The entries of a table. -/
def State.mapOf (s : State) (d : Dir) : List (List Byte) := (List.range d.entries).map (fun i => s.mapEntry (d.mapBase + i))

/-- FIRST_ROW, COUNT and DIE of an entry. -/
def meFirst (e : List Byte) : Nat := fieldAt e 0 8
def meCount (e : List Byte) : Nat := fieldAt e 8 4
def meDie (e : List Byte) : Nat := fieldAt e 12 1

/-- The owning die and local row of stored row `r` under RANGE: `skip` holds the entries before. -/
def rangeOwner (r : Nat) (before : List (List Byte)) : List (List Byte) → Nat × Nat
  | [] => (0, 0)
  | e :: rest =>
    if meFirst e ≤ r ∧ r < meFirst e + meCount e then
      (meDie e, r - meFirst e + ((before.filter (fun x => meDie x == meDie e)).map meCount).sum)
    else rangeOwner r (before ++ [e]) rest

/-- The owning die and local row of stored row `r` (R405). -/
def ownerIn (d : Dir) (map : List (List Byte)) (r : Nat) : Nat × Nat :=
  if d.interleave then
    let n := max 1 d.entries
    let die (i : Nat) : Nat := meDie (map.getD i [])
    let me := die (r % n)
    let rank := ((List.range (r % n)).filter (fun i => die i == me)).length
    let size := ((List.range n).filter (fun i => die i == me)).length
    (me, r / n * size + rank)
  else rangeOwner r [] map

/-- The rows that a die owns (R405). -/
def ownedRows (d : Dir) (map : List (List Byte)) (die : Nat) : Nat :=
  if d.interleave then
    let n := max 1 d.entries
    let pos := (List.range n).filter (fun i => meDie (map.getD i []) == die)
    pos.length * (d.rows / n) + (pos.filter (fun i => i < d.rows % n)).length
  else ((map.filter (fun e => meDie e == die)).map meCount).sum

/-- The dies that own rows of a table. -/
def ownersOf (map : List (List Byte)) : List Nat := (map.map meDie).eraseDups

/-! ### Placement (R403) -/

/-- The stacks of a mask in ascending order. -/
def maskStacks (m : Nat) : List Nat := (List.range 6).filter (bitOf m)

/-- The stack of local row `l`. -/
def stackIn (mask l : Nat) : Nat := (maskStacks mask).getD (l % max 1 (maskStacks mask).length) 0

/-- The HBM address of local row `l` in a placement. -/
def placeRow (mask base pitch l : Nat) : Nat :=
  stackIn mask l * stackBytes + base % stackBytes + l / max 1 (maskStacks mask).length * pitch

/-- The base pointer of slot `t`. -/
def State.basePtr (s : State) (t : Nat) : Nat := s.rd Reg.SIV_BASE_BASE [t]

/-- The HBM address of local row `l` of the table in slot `t`. -/
def State.rowAddr (s : State) (t l : Nat) : Nat := placeRow (s.dir t).mask (s.basePtr t) (s.dir t).pitch l

/-- The byte ranges (address, length) that `n` local rows of a placement occupy, one for each stack. -/
def placeRanges (mask base pitch n : Nat) : List (Nat × Nat) :=
  let st := maskStacks mask
  let k := max 1 st.length
  st.zipIdx.map (fun e => (e.1 * stackBytes + base % stackBytes, (n + k - 1 - e.2) / k * pitch))

/-- The byte ranges of the current version of the table in slot `t` on this die. -/
def State.tableRanges (s : State) (t : Nat) : List (Nat × Nat) :=
  let d := s.dir t
  placeRanges d.mask (s.basePtr t) d.pitch (ownedRows d (s.mapOf d) s.self)

/-! ### From an index to stored rows (R409, R411, R414) -/

/-- Whether an index of `w` bits is bad (R414). -/
def badIndex (d : Dir) (w i : Nat) : Bool := decide (d.space ≤ i) || i == 2 ^ w - 1

/-- The stored row of an index of a PLAIN or HASHED table. -/
def storedRow (d : Dir) (i : Nat) : Nat := if d.kind = 1 then mix64 (i ^^^ d.seed) % max 1 d.rows else i

/-- The (component, directory slot, stored row) references of a good index of slot `t` (R411). -/
def State.refsOf (s : State) (t i : Nat) : List (Nat × Nat × Nat) :=
  let d := s.dir t
  if d.kind = 2 then
    [(0, d.compP, storedRow (s.dir d.compP) (i / d.modulus)), (1, d.compQ, storedRow (s.dir d.compQ) (i % d.modulus))]
  else [(0, t, storedRow d i)]

end Sys2Proof.Machine
end

