-- ==== Sys2Proof/Machine/RowCache.lean ====
section
/-! DEFINITION. The Row Cache (R432-R439): lookups, fills and their victims, pins, decay, and invalidation by table, by
step epoch and whole. -/

namespace Sys2Proof.Machine

open Host (Outcome)

/-! ### Lines -/

/-- The longest read part that the cache holds (R432). -/
def rwcBytes : Nat := 256

/-- The set of a row (R432). -/
def rwcSet (tkey row : Nat) : Nat := mix64 (((tkey * 2 ^ 40) ^^^ row) % 2 ^ 64) % 4096

/-- The keys of the ways of a set. -/
def rwcWays (set : Nat) : List Nat := (List.range 16).map (fun w => 16 * set + w)

/-- Whether a line holds a row. -/
def Line.holds (l : Line) (tkey row : Nat) : Bool := l.tkey == tkey && l.row == row

/-- The way that holds a row. -/
def State.lineOf (s : State) (tkey row : Nat) : Option Nat :=
  (rwcWays (rwcSet tkey row)).find? (fun k =>
    match FMap.find s.rwc.lines k with | some l => l.holds tkey row | none => false)

/-- Whether a row is present. -/
def State.cached (s : State) (tkey row : Nat) : Bool := (s.lineOf tkey row).isSome

/-- Whether a row is pinned (R436). -/
def State.pinned (s : State) (tkey row : Nat) : Bool :=
  s.on Reg.RWC_PIN_KEY_EN [] && s.rd Reg.RWC_PIN_KEY_TKEY [] == tkey
    && decide (s.rd Reg.RWC_PIN_BASE_ROW [] ≤ row) && decide (row ≤ s.rd Reg.RWC_PIN_LIMIT_ROW [])

/-! ### Lookups (R432, R433) -/

/-- Look up the read part, `n` bytes long, of a row: a hit answers the line and counts its use; a part too long for a
line counts a bypass. The rows that hit are copied in the same step, so no hold outlasts it (R435). -/
def rwcLookup (s : State) (tkey row n : Nat) : State × Option (List Byte) :=
  let s := s.wrapInc Reg.RWC_LOOKUP_COUNT [] 1
  if rwcBytes < n then (s.wrapInc Reg.RWC_BYPASS_COUNT [] 1, none)
  else
    match s.lineOf tkey row with
    | none => (s.wrapInc Reg.RWC_MISS_COUNT [] 1, none)
    | some k =>
      match FMap.find s.rwc.lines k with
      | none => (s, none)
      | some l =>
        let s := s.wrapInc Reg.RWC_HIT_COUNT [] 1
        let l' : Line := { l with use := min 255 (l.use + 1) }
        ({ s with rwc := { s.rwc with lines := FMap.put s.rwc.lines k l' } }, some l.data)

/-! ### Fills (R434, R436, R437) -/

/-- A row read from HBM starts on its way into the cache; a read part too long for a line never does (R432). -/
def rwcFillStart (s : State) (tkey row : Nat) (data : List Byte) (prefetch : Bool) : State :=
  if rwcBytes < data.length then s
  else { s with rwc := { s.rwc with fills := s.rwc.fills ++ [⟨tkey, row, data, prefetch, false⟩] } }

/-- The valid ways of a set as (key, line). -/
def State.setLines (s : State) (set : Nat) : List (Nat × Line) :=
  (rwcWays set).filterMap (fun k => (FMap.find s.rwc.lines k).map (fun l => (k, l)))

/-- The line with the lowest counter, the lowest-numbered way first. -/
def lowestUse : List (Nat × Line) → Option (Nat × Line)
  | [] => none
  | e :: r =>
    match lowestUse r with
    | some x => some (if x.2.use < e.2.use then x else e)
    | none => some e

/-- The way that a fill takes (R434): the lowest-numbered invalid one, else the least used of those not pinned, unless
a demand fill finds its counter above ADMIT. -/
def State.victim (s : State) (f : Fill) : Option Nat :=
  let set := rwcSet f.tkey f.row
  let ls := s.setLines set
  let pins := ls.filter (fun e => s.pinned e.2.tkey e.2.row)
  if s.pinned f.tkey f.row ∧ 12 ≤ pins.length then none
  else
    match (rwcWays set).find? (fun k => (FMap.find s.rwc.lines k).isNone) with
    | some k => some k
    | none =>
      match lowestUse (ls.filter (fun e => !s.pinned e.2.tkey e.2.row)) with
      | some (k, l) => if !f.prefetch ∧ s.rdA Reg.RWC_PARAM_ADMIT [] < l.use then none else some k
      | none => none

/-- ROW_CACHE_FILL: fill `i` ends as a line, a bypass, or nothing when it is discarded or already present. -/
def rowCacheFillOp (s : State) (i : Nat) : State :=
  match s.rwc.fills[i]? with
  | none => s
  | some f =>
    let s := { s with rwc := { s.rwc with fills := s.rwc.fills.eraseIdx i } }
    if f.dead then s.wrapInc Reg.RWC_DISCARD_COUNT [] 1
    else if s.cached f.tkey f.row then s
    else
      match s.victim f with
      | none => s.wrapInc Reg.RWC_BYPASS_COUNT [] 1
      | some k =>
        let use := if f.prefetch then s.rdA Reg.RWC_PARAM_PF_INSERT [] else s.rdA Reg.RWC_PARAM_INSERT []
        { (s.wrapInc Reg.RWC_FILL_COUNT [] 1) with
          rwc := { s.rwc with lines := FMap.put s.rwc.lines k ⟨f.tkey, f.row, use, f.data⟩ } }

/-- ROW_CACHE_FILL. -/
def execRowCacheFill (i : Nat) (s : State) : Outcome State Fault Refusal :=
  .next (if s.coreUp then rowCacheFillOp s i else s)

/-! ### Decay (R433) -/

/-- CACHE_DECAY: after DECAY_BATCHES batches every counter is halved. -/
def cacheDecayOp (s : State) : State :=
  let n := s.rdA Reg.RWC_PARAM_DECAY_BATCHES []
  if n = 0 ∨ s.rwc.batches < n then s
  else { s with rwc := { s.rwc with
    batches := 0, lines := s.rwc.lines.map (fun e => (e.1, { e.2 with use := e.2.use / 2 })) } }

/-- CACHE_DECAY. -/
def execCacheDecay (s : State) : Outcome State Fault Refusal := .next (cacheDecayOp s)

/-! ### Invalidation (R437-R439) -/

/-- Invalidate the lines of the rows that satisfy a test, and mark the fills of such rows as overtaken. -/
def rwcDrop (s : State) (p : Nat → Nat → Bool) : State :=
  { s with rwc := { s.rwc with
    lines := s.rwc.lines.filter (fun e => !p e.2.tkey e.2.row)
    fills := s.rwc.fills.map (fun f => { f with dead := f.dead || p f.tkey f.row }) } }

/-- Invalidate every line. -/
def rwcDropAll (s : State) : State := rwcDrop s (fun _ _ => true)

/-- Invalidate the lines of one table. -/
def rwcDropKey (s : State) (tkey : Nat) : State := rwcDrop s (fun k _ => k == tkey)

/-- Advance the step epoch: every line is invalidated (R439), and a captured parameter set takes effect (R130). -/
def epochAdvance (s : State) : State := rwcDropAll (effectSet (s.wrapInc Reg.RWC_STAT_EPOCH [] 1) .rwcParam)

/-- EPOCH_ADV: a write of 1 to RWC_CTL.EPOCH_ADV. -/
def execEpochAdv (src : Src) (s : State) : Outcome State Fault Refusal :=
  .next (fwWrite s src (Reg.RWC_CTL_EPOCH_ADV.addr []) (fun s => if s.coreUp then epochAdvance s else s))

/-- INVAL_ALL: a write of 1 to RWC_CTL.INVAL_ALL. -/
def execInvalAll (src : Src) (s : State) : Outcome State Fault Refusal :=
  .next (fwWrite s src (Reg.RWC_CTL_INVAL_ALL.addr []) (fun s => if s.coreUp then rwcDropAll s else s))

/-- Start the invalidation of one table. -/
def rwcInvStart (s : State) (tkey : Nat) : State :=
  { (s.wr Reg.RWC_STAT_INV_BUSY [] 1) with rwc := { s.rwc with inv := s.rwc.inv ++ [tkey % 2 ^ 32] } }

/-- RWC_INV_KEY: a write of the register. -/
def execRwcInvKey (src : Src) (tkey : Nat) (s : State) : Outcome State Fault Refusal :=
  .next (fwWrite s src (Reg.RWC_INV_KEY_TKEY.addr []) (fun s => if s.coreUp then rwcInvStart s tkey else s))

/-- INVALIDATION_COMPLETE: the oldest keyed invalidation takes effect; once none is left, INV_BUSY clears and the
commands that waited post (R213, R423). -/
def invalidationCompleteOp (s : State) : State :=
  match s.rwc.inv with
  | [] => s
  | k :: r =>
    let s := rwcDropKey { s with rwc := { s.rwc with inv := r } } k
    let s := hedgeEvent (s.wrb Reg.RWC_STAT_INV_BUSY [] (!r.isEmpty)) 196 0
    if r.isEmpty then
      let w := s.rwc.waits
      w.foldl (fun s e => s.finish e.1 e.2 .ok []) { s with rwc := { s.rwc with waits := [] } }
    else s

/-- INVALIDATION_COMPLETE. -/
def execInvalidationComplete (s : State) : Outcome State Fault Refusal := .next (invalidationCompleteOp s)

end Sys2Proof.Machine
end

