-- ==== Sys2Proof/Machine/GatherOps.lean ====
section
/-! DEFINITION. Gather descriptors (R424-R426, R451, R458), and what the Sieve makes of a batch: references, parts, row
gradients and waves (R428-R431, R453). -/

namespace Sys2Proof.Machine

open Host (Outcome)

/-! ### The descriptor (R424, R451) -/

def gdSegments (b : List Byte) : Nat := fieldAt b 0 1
def gdPrefetch (b : List Byte) : Bool := bitOf (fieldAt b 1 1) 0
def gdWide (b : List Byte) : Bool := bitOf (fieldAt b 1 1) 1
def gdScratch (b : List Byte) : Nat := fieldAt b 2 2
def gdScratchRows (b : List Byte) : Nat := fieldAt b 4 2
def gdFmt (b : List Byte) : Nat := fieldAt b 6 1

/-- Segment `i`, and the segments of a descriptor. -/
def gdSeg (b : List Byte) (i : Nat) : List Byte := (b.drop (16 + 24 * i)).take 24
def gdSegs (b : List Byte) : List (List Byte) := (List.range (min 8 (gdSegments b))).map (gdSeg b)

def sgTable (g : List Byte) : Nat := fieldAt g 0 2
def sgPool (g : List Byte) : Nat := fieldAt g 2 1
def sgBags (g : List Byte) : Nat := fieldAt g 4 2
def sgIndices (g : List Byte) : Nat := fieldAt g 8 4
def sgLenOff (g : List Byte) : Nat := fieldAt g 12 2
def sgIdxOff (g : List Byte) : Nat := fieldAt g 14 2
def sgWgtOff (g : List Byte) : Nat := fieldAt g 16 2
def sgOutOff (g : List Byte) : Nat := fieldAt g 18 2

/-- Whether a segment carries weights: WSUM or UWSUM. -/
def sgWeighted (g : List Byte) : Bool := sgPool g == 2 || sgPool g == 5

/-- Whether a segment divides by the surviving count: MEAN or UMEAN. -/
def sgMean (g : List Byte) : Bool := sgPool g == 1 || sgPool g == 4

/-- Whether a descriptor is an update descriptor (R451). -/
def gdUpdate (b : List Byte) : Bool := (gdSegs b).any (fun g => decide (3 ≤ sgPool g))

/-- The update block, bytes 208-239 (R451). -/
def gdBlock (b : List Byte) : List Byte := (b.drop 208).take 32
def ubOpt (u : List Byte) : Nat := fieldAt u 0 1
def ubEndStep (u : List Byte) : Bool := bitOf (fieldAt u 1 1) 0

/-- The bytes of an index. -/
def gdIdxBytes (b : List Byte) : Nat := if gdWide b then 8 else 4

/-- The arrays of a segment as (first row, rows) from IDX_ROW: bag lengths, indices, and weights. -/
def sgArrays (b g : List Byte) : List (Nat × Nat) :=
  [(sgLenOff g, cdiv (2 * sgBags g) 256), (sgIdxOff g, cdiv (gdIdxBytes b * sgIndices g) 256)]
    ++ (if sgWeighted g then [(sgWgtOff g, cdiv (4 * sgIndices g) 256)] else [])

/-- Whether two runs of rows overlap. -/
def runsMeet (x y : Nat × Nat) : Bool := decide (x.1 < y.1 + y.2) && decide (y.1 < x.1 + x.2)

/-- Whether runs lie within `n` rows and none overlaps another. -/
def runsFit (n : Nat) : List (Nat × Nat) → Bool
  | [] => true
  | x :: r => decide (x.1 + x.2 ≤ n) && r.all (fun y => !runsMeet x y) && runsFit n r

/-- Elements of a pooled vector of slot `t`, and rows of such a vector in a format (R425). -/
def State.vecElems (s : State) (t : Nat) : Nat := (s.dir t).elems
def vecRows (fmt elems : Nat) : Nat := cdiv (elems * fmtBits fmt) 2048

/-- Scratch rows of a slot for a table of `elems` elements (R431). -/
def slotRows (elems : Nat) : Nat := cdiv (4 * elems) 256

/-- Bytes of optimiser state that an optimiser needs (R463). -/
def optState (opt elems : Nat) : Nat :=
  match opt with
  | 1 => 4 * elems | 2 => 4 * elems | 3 => 4 | 4 => 8 * elems | _ => 0

/-- Whether a table's rows can take an optimiser's updates (R458, R465). -/
def updatable (opt fmt elems pitch : Nat) : Bool :=
  decide (opt ≤ 4) && rowFmtOk fmt && decide (8 + rowD8 fmt elems + optState opt elems ≤ pitch)

/-- The directory slots that store the rows of slot `t`: itself, or the components of a COMPOSED table. -/
def State.rowSlots (s : State) (t : Nat) : List Nat :=
  if (s.dir t).kind = 2 then [(s.dir t).compP, (s.dir t).compQ] else [t]

/-- The writers and owners that the update plans of a bundle name for a TKEY (R208, R456). -/
def bundlePlan (b : List Byte) (tkey : Nat) : Option (List Nat × List Nat) :=
  match sectionOf b 10 with
  | some (_, _, n) =>
    ((varRecords (fun l => 16 + (fieldAt l 6 1 + fieldAt l 7 1 + 15) / 16 * 16) n (sectionBytes b 10)).find?
      (fun r => fieldAt r 0 4 == tkey)).map (fun r =>
        ((List.range (fieldAt r 6 1)).map (fun i => fieldAt r (16 + i) 1),
         (List.range (fieldAt r 7 1)).map (fun i => fieldAt r (16 + fieldAt r 6 1 + i) 1)))
  | none => none

/-- The writers and owners of a table as this die's context knows them: the plan of its job's bundle, else one that was
installed here. -/
def State.planOf (s : State) (p tkey : Nat) : Option (List Nat × List Nat) :=
  match (s.jobOf p).bind (fun j => bundlePlan (s.job j).bundle tkey) with
  | some x => some x
  | none => (s.upd.plans.find? (fun x => x.tkey == tkey)).map (fun x => (x.writers.map (·.die), x.owners))

/-- Whether this die may send a segment's updates: R458's checks from the directory and the plan. -/
def State.updateOk (s : State) (p t opt : Nat) : Bool :=
  (s.rowSlots t).all (fun k =>
    let d := s.dir k
    updatable opt d.fmt d.elems d.pitch
      && (match s.planOf p d.tkey with | some (w, _) => w.contains s.self | none => false))

/-- Whether a segment of a descriptor meets R424, R425, R426 and R451. -/
def State.segOk (s : State) (p func : Nat) (b : List Byte) (idxRows outRow : Nat) (g : List Byte) : Bool :=
  let upd := gdUpdate b
  match s.tableOf func (sgTable g) with
  | none => false
  | some t =>
    let pitch := vecRows (gdFmt b) (s.vecElems t)
    let rows := sgBags g * pitch + (if upd then 0 else cdiv (sgBags g) 2048)
    (if upd then decide (3 ≤ sgPool g ∧ sgPool g ≤ 5) else decide (sgPool g ≤ 2))
      && fieldAt g 3 1 == 0 && fieldAt g 6 2 == 0 && fieldAt g 20 4 == 0
      && decide (1 ≤ sgBags g ∧ sgBags g ≤ 16384) && runsFit idxRows (sgArrays b g)
      && (gdPrefetch b || decide (outRow + sgOutOff g + rows ≤ s.storeRows p 1))
      && (!upd || s.updateOk p t (ubOpt (gdBlock b)))

/-- Whether a descriptor passes the checks of R426 and R451 that need no index. -/
def State.gdescOk (s : State) (p func : Nat) (b : List Byte) (idxRows outRow : Nat) (fillOut : Bool) : Bool :=
  let n := gdSegments b
  let upd := gdUpdate b
  decide (1 ≤ n ∧ n ≤ 8) && fieldAt b 1 1 / 4 == 0 && decide (1 ≤ gdScratchRows b ∧ gdScratchRows b ≤ 8192)
    && (if upd then gdFmt b < 3 else gdFmt b < 5) && allZero ((b.drop 7).take 9)
    && allZero ((b.drop (16 + 24 * n)).take (192 - 24 * n))
    && (if upd then !gdPrefetch b && !fillOut && fieldAt b 209 1 / 2 == 0 && fieldAt b 210 2 == 0
          && allZero ((b.drop 240).take 16)
        else allZero ((b.drop 208).take 48))
    && decide (((gdSegs b).map sgBags).sum ≤ 16384)
    && (gdPrefetch b || decide (gdScratch b + gdScratchRows b ≤ s.storeRows p 2))
    && (gdSegs b).all (s.segOk p func b idxRows outRow)

/-! ### The index area (R425) -/

/-- Bag lengths, index `i` and weight `i` of a segment in the index area. -/
def bagLens (data g : List Byte) : List Nat :=
  (List.range (sgBags g)).map (fun j => fieldAt data (256 * sgLenOff g + 2 * j) 2)
def indexAt (b data g : List Byte) (i : Nat) : Nat :=
  fieldAt data (256 * sgIdxOff g + gdIdxBytes b * i) (gdIdxBytes b)
def weightAt (data g : List Byte) (i : Nat) : Nat :=
  if sgWeighted g then fieldAt data (256 * sgWgtOff g + 4 * i) 4 else 0x3F800000

/-- Whether every segment's bag lengths sum to INDICES. -/
def lensOk (b data : List Byte) : Bool := (gdSegs b).all (fun g => (bagLens data g).sum == sgIndices g)

/-- The places of a batch: a composed index takes two (R412, R426). -/
def State.placesOf (s : State) (func : Nat) (b : List Byte) : Nat :=
  ((gdSegs b).map (fun g =>
    match s.tableOf func (sgTable g) with
    | some t => if (s.dir t).kind = 2 then 2 * sgIndices g else sgIndices g
    | none => sgIndices g)).sum

/-- The bag of each index of a segment. -/
def spread : Nat → List Nat → List Nat
  | _, [] => []
  | j, n :: r => List.replicate n j ++ spread (j + 1) r

/-- A surviving reference: bag number in the batch, component, directory slot, owner, stack (6 when remote), local row
and weight. -/
structure Ref where
  bag : Nat
  comp : Nat
  dir : Nat
  die : Nat
  stack : Nat
  row : Nat
  weight : Nat
  deriving DecidableEq, Repr

/-- What the Sieve finds in a batch (R428): bags, references in ascending original position, drops of each segment, and
the first bad index of a FAULT-mode table as (directory slot, index). -/
structure Found where
  bags : List Bag := []
  refs : List Ref := []
  drops : List Nat := []
  bad : Option (Nat × Nat) := none
  deriving DecidableEq, Repr

/-- The reference of a stored row (R405, R430). -/
def State.refAt (s : State) (bag weight : Nat) (e : Nat × Nat × Nat) : Ref :=
  let d := s.dir e.2.1
  let o := ownerIn d (s.mapOf d) e.2.2
  ⟨bag, e.1, e.2.1, o.1, if o.1 = s.self then stackIn d.mask o.2 else 6, o.2, weight⟩

/-- The Sieve's pass over segment `k`, whose first bag is number `bag0`. -/
def State.findSeg (s : State) (func : Nat) (b data : List Byte) (k bag0 : Nat) (g : List Byte) : Found :=
  let t := (s.tableOf func (sgTable g)).getD 0
  let d := s.dir t
  let w := 8 * gdIdxBytes b
  let lens := bagLens data g
  let places := (spread 0 lens).zipIdx.map (fun e => (e.1, indexAt b data g e.2, weightAt data g e.2))
  let bad := places.filter (fun e => badIndex d w e.2.1)
  let good := places.filter (fun e => !badIndex d w e.2.1)
  { bags := (List.range lens.length).map (fun j => ⟨k, j, (good.filter (fun e => e.1 == j)).length, 0⟩)
    refs := good.flatMap (fun e => (s.refsOf t e.2.1).map (s.refAt (bag0 + e.1) e.2.2))
    drops := [bad.length]
    bad := if d.drop then none else bad.head?.map (fun e => (t, e.2.1)) }

/-- The Sieve's pass over a batch. -/
def State.findAll (s : State) (func : Nat) (b data : List Byte) : Found :=
  (gdSegs b).zipIdx.foldl (fun f e =>
    let x := s.findSeg func b data e.2 f.bags.length e.1
    { bags := f.bags ++ x.bags, refs := f.refs ++ x.refs, drops := f.drops ++ x.drops,
      bad := f.bad <|> x.bad }) {}

/-! ### Order -/

/-- Lexicographic order of keys. -/
def keyLe : List Nat → List Nat → Bool
  | [], _ => true
  | _ :: _, [] => false
  | a :: r, b :: q => decide (a < b) || (a == b && keyLe r q)

/-- Insert after every element whose key is not greater. -/
def insertKey {α : Type} (key : α → List Nat) (x : α) : List α → List α
  | [] => [x]
  | y :: r => if keyLe (key y) (key x) then y :: insertKey key x r else x :: y :: r

/-- A stable sort by keys. -/
def sortKeys {α : Type} (key : α → List Nat) (l : List α) : List α := l.foldl (fun a x => insertKey key x a) []

/-- Distinct neighbours' first elements: a list without repeats of a key, the list sorted by it. -/
def firsts {α : Type} (key : α → List Nat) (l : List α) : List α :=
  (sortKeys key l).foldr (fun x a => match a with
    | y :: r => if key x == key y then x :: r else x :: a
    | [] => [x]) []

/-! ### Parts (R430) -/

/-- The canonical order of a reference's part, then its row. -/
def Ref.partKey (r : Ref) : List Nat := [r.bag, r.dir, r.comp, r.die, r.stack]
def Ref.key (r : Ref) : List Nat := r.partKey ++ [r.row]

/-- The part key of a part. -/
def Part.key (p : Part) : List Nat := [p.bag, p.dir, p.comp, p.die, p.stack]

/-- Group sorted references into parts. -/
def groupRefs (rowsOf : Nat → Nat) : List Ref → List Part
  | [] => []
  | r :: rest =>
    let one : Part := ⟨r.bag, r.comp, r.dir, r.die, r.stack, [(r.row, r.weight)], 0, 0, 0, false, [], rowsOf r.dir⟩
    match groupRefs rowsOf rest with
    | p :: ps => if p.key = r.partKey then { p with terms := (r.row, r.weight) :: p.terms } :: ps else one :: p :: ps
    | [] => [one]

/-- The parts of a batch in canonical order, bag by bag. -/
def State.partsOf (s : State) (refs : List Ref) : List Part :=
  groupRefs (fun t => slotRows (s.dir t).elems) (sortKeys Ref.key refs)

/-! ### Waves (R431) -/

/-- The most elements that a wave pools. -/
def waveElems : Nat := 262144

/-- Cut bags into waves: each bag comes as (rows, elements) of its slots; none when a bag alone exceeds a limit. -/
def cutWaves (maxRows : Nat) : Nat → Nat → Nat → List (Nat × Nat) → Option (List Nat)
  | _, _, _, [] => some []
  | w, r, e, (br, be) :: rest =>
    if maxRows < br ∨ waveElems < be then none
    else if maxRows < r + br ∨ waveElems < e + be then (cutWaves maxRows (w + 1) br be rest).map (fun l => (w + 1) :: l)
    else (cutWaves maxRows w (r + br) (e + be) rest).map (fun l => w :: l)

/-- Number slots and their first scratch rows within each wave: each item comes as (wave, rows). -/
def numberSlots : Nat → Nat → Nat → List (Nat × Nat) → List (Nat × Nat)
  | _, _, _, [] => []
  | w, n, at', (w', rows) :: rest =>
    if w' = w then (n, at') :: numberSlots w (n + 1) (at' + rows) rest
    else (0, 0) :: numberSlots w' 1 rows rest

/-- The waves of a batch by bag, and its parts with wave, slot and first row; none when GATHER_SIZE applies. -/
def State.cutParts (s : State) (b : List Byte) (bags : List Bag) (parts : List Part) :
    Option (List Nat × List Part) :=
  let need (j : Nat) : Nat × Nat :=
    let mine := parts.filter (fun p => p.bag == j)
    ((mine.map (·.rows)).sum, (mine.map (fun p => (s.dir p.dir).elems)).sum)
  (cutWaves (gdScratchRows b) 0 0 0 ((List.range bags.length).map need)).map (fun ws =>
    let slots := numberSlots 0 0 0 (parts.map (fun p => (ws.getD p.bag 0, p.rows)))
    (ws, List.zipWith (fun p e => { p with wave := ws.getD p.bag 0, slot := e.1, at' := e.2 }) parts slots))

/-! ### Row gradients (R453, R454) -/

/-- What identifies a stored row of a batch. -/
def Ref.rowKey (r : Ref) : List Nat := [r.dir, r.die, r.stack, r.row]
def GRow.key (g : GRow) : List Nat := [g.dir, g.die, g.stack, g.row]

/-- The first element of the bag gradient that a reference's row takes (R454). -/
def State.gradOffset (s : State) (func : Nat) (b : List Byte) (bags : List Bag) (r : Ref) : Nat :=
  let seg := (bags[r.bag]?).map (·.seg) |>.getD 0
  let t := (s.tableOf func (sgTable (gdSeg b seg))).getD 0
  let d := s.dir t
  if d.kind = 2 ∧ d.concat ∧ r.comp = 1 then (s.dir d.compP).elems else 0

/-- The coefficient of a reference: 1, its weight, or one over its bag's surviving count (R454). -/
def gradCoef (b : List Byte) (bags : List Bag) (r : Ref) : Nat :=
  match bags[r.bag]? with
  | some g => if sgMean (gdSeg b g.seg) then f32Div 0x3F800000 (toF32 (.fin false g.live 0)) else r.weight
  | none => r.weight

/-- The bags that name new rows, for wave forming: for each bag, its unique rows and those that no earlier bag names. -/
def newRows (refs : List Ref) (n : Nat) : List (List Ref × List Ref) :=
  (List.range n).map (fun j =>
    let mine := firsts Ref.rowKey (refs.filter (fun r => r.bag == j))
    (mine, mine.filter (fun r => !(refs.any (fun q => decide (q.bag < j) && q.rowKey == r.rowKey)))))

/-- The waves of an update gather by bag and its row gradients, each in the wave of the first bag that names its row;
none when GATHER_SIZE applies. -/
def State.cutGrads (s : State) (func : Nat) (b : List Byte) (bags : List Bag) (refs : List Ref) :
    Option (List Nat × List GRow) :=
  let el (r : Ref) : Nat := (s.dir r.dir).elems
  let size (l : List Ref) : Nat × Nat := ((l.map (fun r => slotRows (el r))).sum, (l.map el).sum)
  let rows := newRows refs bags.length
  if rows.any (fun e => decide (gdScratchRows b < (size e.1).1) || decide (waveElems < (size e.1).2)) then none
  else
    (cutWaves (gdScratchRows b) 0 0 0 (rows.map (fun e => size e.2))).map (fun ws =>
      let mk (w : Nat) (r : Ref) : GRow :=
        ⟨r.dir, r.die, r.stack, r.row, (refs.filter (fun q => q.rowKey == r.rowKey)).map
          (fun q => (q.bag, gradCoef b bags q, s.gradOffset func b bags q)), 0, w⟩
      let gs := sortKeys (fun g => g.wave :: g.key)
        (rows.zipIdx.flatMap (fun e => e.1.2.map (mk (ws.getD e.2 0))))
      let slots := numberSlots 0 0 0 (gs.map (fun g => (g.wave, slotRows (s.dir g.dir).elems)))
      (ws, List.zipWith (fun g e => { g with at' := e.2 }) gs slots))

end Sys2Proof.Machine
end

