-- ==== Sys2Proof/Machine/FurrowOps.lean ====
section
/-! DEFINITION. Request groups and pooling in the Furrow units (R440-R443, R483): streams of packets, the parts that
wait at a unit, and the pooling sequence. -/

namespace Sys2Proof.Machine

open Host (Outcome)

/-! ### Streams (R483) -/

/-- The packets that carry a body as a stream: at most 16 cells each, FIRST on the first and LAST on the last. -/
def streamPkts (q : Packet) (first : Bool) : Nat → List Byte → List Packet
  | 0, _ => []
  | k + 1, b =>
    if b.length ≤ 256 then
      [{ q with len := cdiv b.length 16, first := first, last := true, body := padTo (16 * cdiv b.length 16) b }]
    else { q with len := 16, first := first, last := false, body := b.take 256 } :: streamPkts q false k (b.drop 256)

/-- The packets of a stream. -/
def streamOf (q : Packet) (b : List Byte) : List Packet := streamPkts q true (b.length / 256 + 1) b

/-- Send packets in order. -/
def injectAll (s : State) (l : List Packet) : State := l.foldl injectPkt s

/-- Whether packets are one whole stream: one header, FIRST and LAST at its ends alone. -/
def streamOk (l : List Packet) : Bool :=
  match l with
  | [] => false
  | q :: _ => l.zipIdx.all (fun e =>
      e.1.typ == q.typ && e.1.dstDie == q.dstDie && e.1.srcDie == q.srcDie && e.1.dstAgent == q.dstAgent
        && e.1.srcAgent == q.srcAgent && e.1.epoch == q.epoch && e.1.tf == q.tf
        && e.1.first == (e.2 == 0) && e.1.last == (e.2 + 1 == l.length))

/-- The bytes of a stream. -/
def streamBody (l : List Packet) : List Byte := l.flatMap (·.body)

/-- Take the packets of a stream out of those delivered. -/
def takeStream (s : State) (l : List Packet) : State := l.foldl takeInbox s

/-- A stream body that breaks R483 is MALFORMED (R491) at the port it came by. -/
def badStream (s : State) (l : List Packet) (port : Nat) : State :=
  match l with
  | q :: _ => if port < 8 then linkViolation s port 1 0 (some q) else s
  | [] => s

/-- A row entry: local row and occurrences. -/
def rowEntry (row occ : Nat) : List Byte := leBytes 8 (row % 2 ^ 40 + 2 ^ 40 * (occ % 2 ^ 16))
def reRow (b : List Byte) : Nat := bitsOf (fieldAt b 0 8) 0 40
def reOcc (b : List Byte) : Nat := bitsOf (fieldAt b 0 8) 40 16

/-- Zero bytes to a multiple of 16. -/
def pad16 (b : List Byte) : List Byte := padTo (16 * cdiv b.length 16) b

/-! ### A Furrow unit -/

/-- Furrow unit `u`, with FUR_STAT.BUSY as it stands. -/
def State.fur (s : State) (u : Nat) : Furrow := FMap.get s.furrow {} u
def State.setFur (s : State) (u : Nat) (x : Furrow) : State :=
  ({ s with furrow := FMap.set s.furrow {} u x }).wrb Reg.FUR_STAT_BUSY [u] (!(x.parts.isEmpty && x.upds.isEmpty))

/-- The agent ID of a unit (R461). -/
def furAgent (u : Nat) : Nat := 200 + u

/-- A part joins a unit's queue. -/
def pushPart (s : State) (u : Nat) (x : FPart) : State :=
  s.setFur u { s.fur u with parts := (s.fur u).parts ++ [x] }

/-- Record a memory error in a gathered row and raise the unit's source (R443). -/
def furError (s : State) (u addr : Nat) : State :=
  if s.on Reg.FUR_ERR_VALID [u] then s
  else
    let s := (s.wr Reg.FUR_ERR_UE [u] 1).wr Reg.FUR_ERR_ROW [u] (addr / 64)
    hedgeLevel (s.wr Reg.FUR_ERR_VALID [u] 1) (200 + 4 * u) true 0

/-! ### The pooling sequence (R442) -/

/-- One more term: coefficient `c`, elements `x`. -/
def poolStep (acc : Option (List Nat)) (c : Nat) (x : List Nat) : Option (List Nat) :=
  some (match acc with
    | none => x.map (f32Mul c)
    | some a => List.zipWith (f32Fma c) x a)

/-- Pool rows: terms as (weight, read part) in order. -/
def poolRows (fmt elems : Nat) (terms : List (Nat × List Byte)) : List Nat :=
  ((terms.foldl (fun acc t =>
    poolStep acc (f32Mul t.1 (rowScale fmt t.2)) ((List.range elems).map (rowElem fmt t.2))) none).getD [])

/-- The bytes of a term's row: those of the cache, else HBM. -/
def State.termBytes (s : State) (n : Nat) (t : FTerm) : List Byte := t.cached.getD (s.hbmRead t.addr n)

/-- A part's rows that are read from HBM, each once. -/
def FPart.reads (x : FPart) : List FTerm :=
  (x.terms.filter (fun t => t.cached.isNone)).foldl
    (fun l t => if l.any (fun u => u.row == t.row) then l else l ++ [t]) []

/-- The scratch packets that carry a partial (R482, R483). -/
def scratchPkts (self u : Nat) (x : FPart) (poison : Bool) (b : List Byte) : List Packet :=
  (List.range (slotRows x.elems)).map (fun r =>
    { typ := 7, vc := 0, len := 16, first := false, last := false, dstDie := x.die, srcDie := self, dstAgent := x.agent,
      srcAgent := furAgent u, epoch := 0,
      tf := x.wave % 2 ^ 16 + 2 ^ 16 * (x.slot % 2 ^ 16) + 2 ^ 32 * r + 2 ^ 40 * x.gslot + 2 ^ 48 * b2n poison,
      resv := false, body := padTo 256 ((b.drop (256 * r)).take 256) })

/-- Send scratch packets, each with its entry in flight (R390). -/
def sendScratch (s : State) (u : Nat) (l : List Packet) : State :=
  l.foldl (fun s q =>
    injectPkt { s with flights := s.flights ++ [⟨furAgent u, 800 + u, 7, q.dstDie, q.dstAgent, 0, 0, 0⟩] } q) s

/-- FURROW_PART_POOLED: the part at the head of the unit's queue is pooled from HBM and the rows that hit, its partial
leaves as scratch writes, and the rows read start on their way into the Row Cache; a row with an uncorrectable error
poisons the partial (R441-R443). -/
def partPooledOp (s : State) (u : Nat) : State :=
  match (s.fur u).parts with
  | [] => s
  | x :: rest =>
    let n := readPart x.fmt x.elems
    let burst := 64 * cdiv n 64
    let s := s.setFur u { s.fur u with parts := rest }
    let reads := x.reads
    let bad := reads.filter (fun t => s.hbmPoisoned t.addr burst)
    let good := reads.filter (fun t => !s.hbmPoisoned t.addr burst)
    let func := ((s.slotOfKey x.tkey).map (fun t => (s.dir t).func)).getD 0
    let s := hbmActivity (s.wrapInc Reg.FUR_ROWS_COUNT [u] reads.length) func (reads.length * cdiv burst 256)
    let s := good.foldl (fun s t => rwcFillStart s x.tkey t.row (s.hbmRead t.addr n) false) s
    let s := bad.foldl (fun s t => hbmRecord (furError s u t.addr) t.addr burst 6 func Status.jobFault.code) s
    let sum := if bad.isEmpty then poolRows x.fmt x.elems (x.terms.map (fun t => (t.weight, s.termBytes n t))) else []
    sendScratch (s.wrapInc Reg.FUR_PARTIALS_COUNT [u] 1) u
      (scratchPkts s.self u x (!bad.isEmpty) (sum.flatMap (leBytes 4)))

/-- FURROW_PART_POOLED. -/
def execFurrowPartPooled (u : Fin 6) (s : State) : Outcome State Fault Refusal :=
  nextQ (if s.coreUp then partPooledOp s u else s)

/-! ### Request groups from other dies (R441, R483) -/

/-- A part of a request group: slot, rows as (row, occurrences), and the weight of each term. -/
structure GPart where
  slot : Nat
  rows : List (Nat × Nat)
  weights : List Nat
  deriving DecidableEq, Repr

/-- Bytes of a part that begins a body, and the part; none when the body breaks R483. -/
def groupPart (b : List Byte) : Option (Nat × GPart) :=
  let nr := fieldAt b 2 2
  let nt := fieldAt b 4 2
  let pool := fieldAt b 6 1
  let rows := (List.range nr).map (fun i => (reRow (b.drop (16 + 8 * i)), reOcc (b.drop (16 + 8 * i))))
  let wb := if pool = 2 then 4 * nt else 0
  let size := 16 * cdiv (16 + 8 * nr + wb) 16
  let rising := (List.range (nr - 1)).all (fun i => decide ((rows.getD i (0, 0)).1 < (rows.getD (i + 1) (0, 0)).1))
  if 2 < pool ∨ !allZero ((b.drop 7).take 9) ∨ b.length < size ∨ nr = 0 ∨ !rising
      ∨ rows.any (fun e => e.2 == 0)
      ∨ (List.range nr).any (fun i => fieldAt b (16 + 8 * i + 7) 1 != 0)
      ∨ (rows.map (·.2)).sum ≠ nt ∨ !allZero ((b.drop (16 + 8 * nr + wb)).take (size - (16 + 8 * nr + wb))) then none
  else
    let w (i : Nat) : Nat := if pool = 2 then fieldAt b (16 + 8 * nr + 4 * i) 4 else 0x3F800000
    some (size, ⟨fieldAt b 0 2, rows, (List.range nt).map w⟩)

/-- The parts of a body. -/
def groupParts : Nat → List Byte → Option (List GPart)
  | 0, _ => none
  | k + 1, b =>
    if b.isEmpty then some []
    else match groupPart b with
      | none => none
      | some (n, p) => (groupParts k (b.drop n)).map (fun r => p :: r)

/-- The terms of a part in the order of R442: each row as often as it occurs. -/
def GPart.terms (g : GPart) : List (Nat × Nat) :=
  (g.rows.flatMap (fun e => List.replicate e.2 e.1)).zip g.weights

/-- The read parts in the Row Cache of distinct rows of slot `t`. -/
def lookupRows (t : Nat) : List Nat → State → FMap (List Byte) → State × FMap (List Byte)
  | [], s, m => (s, m)
  | r :: rest, s, m =>
    let d := s.dir t
    match rwcLookup s d.tkey r (readPart d.fmt d.elems) with
    | (s, some b) => lookupRows t rest s (FMap.put m r b)
    | (s, none) => lookupRows t rest s m

/-- The Furrow part of terms of slot `t`. -/
def State.furPart (s : State) (t die agent gslot wave slot : Nat) (hits : FMap (List Byte)) (terms : List (Nat × Nat)) :
    FPart :=
  let d := s.dir t
  ⟨die, agent, gslot, wave, slot, d.tkey, d.fmt, d.elems,
    terms.map (fun e => ⟨s.rowAddr t e.1, e.1, e.2, FMap.find hits e.1⟩)⟩

/-- GREQ: the Sieve of the arrival port looks up the group's rows; each part goes whole to the unit of the stack of its
lowest local row. An unknown TKEY is refused, a malformed body is a violation, and a group waits while the table's
switch is pending (R419, R441). -/
def greqOp (s : State) (l : List Packet) : State :=
  match l with
  | [] => s
  | q :: _ =>
    if q.typ ≠ 6 then s
    else
      let port := s.arrivalPort q
      let body := streamBody l
      match s.slotOfKey (q.tfb 8 4) with
      | none => sendNak (takeStream s l) q 0x20 (q.tfb 8 4)
      | some t =>
        if (s.tbl t).switch.isSome then s
        else
          let s := takeStream s l
          match (if streamOk l then groupParts (body.length + 1) body else none) with
          | none => badStream s l port
          | some parts =>
            let i := port % 2
            let rows := (sortKeys (fun r => [r]) (parts.flatMap (fun g => g.rows.map (·.1)))).eraseDups
            let s := s.wrapInc Reg.SIV_PLACES_COUNT [i] (parts.map (fun g => g.weights.length)).sum
            let s := s.wrapInc Reg.SIV_UNIQUE_COUNT [i] rows.length
            let r := lookupRows t rows s []
            let s := { r.1 with rwc := { r.1.rwc with batches := r.1.rwc.batches + 1 } }
            parts.foldl (fun s g =>
              let u := stackIn (s.dir t).mask ((g.rows.headD (0, 0)).1)
              pushPart s u (s.furPart t q.srcDie q.srcAgent (q.tfb 12 1 % 4) (q.tfb 14 2) g.slot r.2 g.terms)) s

/-- GREQ. -/
def execGreq (l : List Packet) (s : State) : Outcome State Fault Refusal :=
  nextQ (if s.coreUp then greqOp s l else takeStream s l)

/-! ### Prefetch groups (R448) -/

/-- Read rows that are not present from HBM and start their fills; a row with an uncorrectable error is not filled. -/
def prefetchRows (s : State) (t : Nat) (rows : List Nat) : State :=
  let d := s.dir t
  let n := readPart d.fmt d.elems
  rows.foldl (fun s r =>
    let a := s.rowAddr t r
    let s' := hbmActivity s d.func (cdiv (64 * cdiv n 64) 256)
    if s.cached d.tkey r ∨ rwcBytes < n then s
    else if s.hbmPoisoned a (64 * cdiv n 64) then hbmRecord s' a (64 * cdiv n 64) 6 d.func 0
    else rwcFillStart s' d.tkey r (s.hbmRead a n) true) s

/-- PFETCH: the rows of the list are read and filled; an unknown TKEY is discarded without a NAK. -/
def pfetchOp (s : State) (l : List Packet) : State :=
  match l with
  | [] => s
  | q :: _ =>
    if q.typ ≠ 13 then s
    else
      let port := s.arrivalPort q
      let s := takeStream s l
      let b := streamBody l
      let ents := (List.range (b.length / 8)).map (fun i => (reRow (b.drop (8 * i)), reOcc (b.drop (8 * i))))
      match s.slotOfKey (q.tfb 8 4) with
      | none => s
      | some t =>
        if !streamOk l ∨ ents.any (fun e => decide (1 < e.2)) then badStream s l port
        else prefetchRows s t ((ents.filter (fun e => e.2 == 1)).map (·.1)).eraseDups

/-- PFETCH. -/
def execPfetch (l : List Packet) (s : State) : Outcome State Fault Refusal :=
  nextQ (if s.coreUp then pfetchOp s l else takeStream s l)

end Sys2Proof.Machine
end

