-- ==== Sys2Proof/Machine/Sieve.lean ====
section
/-! DEFINITION. GATHER and the Sieves (R320, R321, R427-R431, R440, R445, R446, R448, R453-R457): buffers, sorting, waves,
scratch writes, combination in bag order, update sends and prefetch. -/

namespace Sys2Proof.Machine

open Host (Outcome)

/-! ### GATHER (R320) -/

def gaSieve (l : List Byte) : Nat := bitsOf (fieldAt l 1 1) 0 1
def gaInTag (l : List Byte) : Nat := bitsOf (fieldAt l 1 1) 1 2
def gaOutTag (l : List Byte) : Nat := bitsOf (fieldAt l 1 1) 3 2
def gaDescRow (l : List Byte) : Nat := fieldAt l 2 2
def gaIdxRow (l : List Byte) : Nat := fieldAt l 4 2
def gaIdxRows (l : List Byte) : Nat := fieldAt l 6 2
def gaOutRow (l : List Byte) : Nat := fieldAt l 8 2

/-- The bytes of a GATHER that break a check. -/
def gaBad (l : List Byte) : List (Nat × Bool) :=
  [(1, gaInTag l == 3 || !(gaOutTag l == 0 || gaOutTag l == 3) || fieldAt l 1 1 / 32 != 0),
   (6, gaIdxRows l == 0 || decide (4096 < gaIdxRows l))]

/-- Issue a GATHER up to the checks of its descriptor that need no index (R426). -/
def withGather (s : State) (p c : Nat) (act : State → List Byte → List Byte → State) : State :=
  issue s p c 0x20 (fun s l => checked s p c l (gaBad l) [10, 11, 12, 13, 14, 15] (fun s =>
    match readRow s p 0 (gaDescRow l) tagNone with
    | (s, .ok d) =>
      if s.gdescOk p (s.plotFunc p) d (gaIdxRows l) (gaOutRow l) (gaOutTag l == 3) then act s l d
      else ctxFault s p c 14 0
    | (s, .poison) => poisonFault s p c
    | (s, _) => rangeFault s p c 0 0 (gaDescRow l)))

/-- GATHER: checked, then waiting with kind GATHER for a slot and a buffer of its Sieve. -/
def gatherOp (s : State) (p c : Nat) : State := withGather s p c (fun s l _ => setWait s p c 5 (gaSieve l))

/-- GATHER. -/
def execGather (p : Fin 16) (c : Fin 4) (s : State) : Outcome State Fault Refusal := nextQ (gatherOp s p c)

/-! ### Buffers (R427) -/

/-- Buffer `b` of Sieve `i`. -/
def State.gbuf (s : State) (i b : Nat) : Option Gather := FMap.find s.sieves (4 * i + b)
def State.setGbuf (s : State) (k : Nat) (g : Gather) : State := { s with sieves := FMap.put s.sieves k g }

/-- A buffer is freed. -/
def freeBuf (s : State) (k : Nat) : State := showSieve { s with sieves := FMap.erase s.sieves k } (k / 4)

/-- The lowest free buffer of Sieve `i`. -/
def State.freeBufOf (s : State) (i : Nat) : Option Nat := (List.range 4).find? (fun b => (s.gbuf i b).isNone)

/-- The epoch of this die's writer lease on a table from an owning die, if it holds one (R209, R460). -/
def State.leaseOf (s : State) (tkey owner : Nat) : Option Nat :=
  if owner = s.self then
    (s.upd.plans.find? (fun x => x.tkey == tkey)).bind (fun x => (x.writers.find? (fun w => w.die == owner)).map (·.epoch))
  else FMap.find s.upd.grants (tkey * 256 + owner)

/-- The keys of the tables that an update descriptor names. -/
def State.updateKeys (s : State) (func : Nat) (d : List Byte) : List Nat :=
  ((gdSegs d).flatMap (fun g =>
    match s.tableOf func (sgTable g) with
    | some t => (s.rowSlots t).map (fun k => (s.dir k).tkey)
    | none => [])).eraseDups

/-- The owning dies of a table by the plan. -/
def State.ownersBy (s : State) (p tkey : Nat) : List Nat := ((s.planOf p tkey).map (·.2)).getD []

/-- Whether a writer holds the grant of every owning die of every table a descriptor updates (R209). -/
def State.leasesHeld (s : State) (p func : Nat) (d : List Byte) : Bool :=
  !gdUpdate d || (s.updateKeys func d).all (fun k => (s.ownersBy p k).all (fun o => (s.leaseOf k o).isSome))

/-- Discard the prefetch batches of Sieve `i` that have not begun sorting (R448). -/
def dropPrefetch (s : State) (i : Nat) : State :=
  (s.sieves.filter (fun e => e.1 / 4 == i && e.2.gslot.isNone && e.2.phase == 0)).foldl
    (fun s e => hedgeEvent ((freeBuf s e.1).satInc Reg.SIV_PFDROP_COUNT [i] 1) (193 + 2 * i) 0) s

/-- The lowest GATHER slot that a context does not use. -/
def State.freeSlotOf (s : State) (p c : Nat) : Nat :=
  ((List.range 4).find? (fun g => !(s.ctx p c).gslots.contains g)).getD 0

/-- The index area is in the buffer: the GATHER retires, and holds a slot until it completes unless it prefetches. -/
def enterBuf (s : State) (p c i b : Nat) (l d data : List Byte) : State :=
  let n := (s.ctx p c).issued
  let slot := s.freeSlotOf p c
  let pf := gdPrefetch d
  let s := retireNext s p c
  let s := if pf then s else dropPrefetch s i
  let s := if pf then s else s.setCtx p c { s.ctx p c with gslots := (s.ctx p c).gslots ++ [slot] }
  let g : Gather := { plot := p, ctx := c, gslot := if pf then none else some slot, outRow := gaOutRow l,
                      fill := gaOutTag l == 3, desc := d, data := data, stamp := n }
  showSieve (s.setGbuf (4 * i + b) g) i

/-- Stream the index area of a waiting GATHER into a buffer. -/
def streamIn (s : State) (p c i b : Nat) (l d : List Byte) : State :=
  let row := gaIdxRow l
  let n := gaIdxRows l
  if s.storeRows p 1 < row + n then rangeFault s p c 0 1 (max row (s.storeRows p 1))
  else if !s.rowsReady p 1 row (gaInTag l) n then setWait s p c 1 (tagArg 1 (s.firstEmpty p 1 row n))
  else
    match readRows s p 1 row (gaInTag l) n with
    | (s, .ok data) =>
      if !lensOk d data then ctxFault s p c 14 0
      else if 65536 < s.placesOf (s.plotFunc p) d then ctxFault s p c 10 0
      else enterBuf s p c i b l d data
    | (s, .poison) => poisonFault s p c
    | (s, _) => s

/-- Whether context `e` (4p + c) waits for a buffer of Sieve `i` and may take one. -/
def State.mayEnter (s : State) (i e : Nat) : Bool :=
  let x := s.ctx (e / 4) (e % 4)
  x.wait == some (5, i) && s.ctxLive (e / 4) (e % 4) && decide (x.gslots.length < 4)
    && s.leasesHeld (e / 4) (s.plotFunc (e / 4))
        (s.rowBytes (e / 4) 0 (gaDescRow (s.instrAt (e / 4) (s.pcOf (e / 4) (e % 4)))))

/-- SIEVE_BUFFER_GRANT: the next waiting context in cyclic order takes a free buffer (R117, R427). -/
def bufferGrantOp (s : State) (i : Nat) : State :=
  let last := FMap.get s.sieveLast 63 i
  match s.freeBufOf i, ((List.range 64).map (fun k => (last + 1 + k) % 64)).find? (s.mayEnter i) with
  | some b, some e =>
    let s := { s with sieveLast := FMap.put s.sieveLast i e }
    withGather s (e / 4) (e % 4) (fun s l d => streamIn s (e / 4) (e % 4) i b l d)
  | _, _ => s

/-- SIEVE_BUFFER_GRANT. -/
def execSieveBufferGrant (i : Fin 2) (s : State) : Outcome State Fault Refusal :=
  nextQ (if s.coreUp then bufferGrantOp s i else s)

/-! ### Sorting (R428-R431) -/

/-- The directory slots that a batch reads, COMPOSED tables and their components alike. -/
def State.batchSlots (s : State) (g : Gather) : List Nat :=
  (gdSegs g.desc).flatMap (fun x =>
    match s.tableOf (s.plotFunc g.plot) (sgTable x) with
    | some t => t :: s.rowSlots t
    | none => [])

/-- Whether a batch is held for a table switch (R419, R468). -/
def State.batchHeld (s : State) (g : Gather) : Bool := (s.batchSlots g).any (fun t => (s.tbl t).switch.isSome)

/-- A FAULT-mode gather with a bad index ends its job (R415). -/
def indexFault (s : State) (i k : Nat) (g : Gather) (t idx : Nat) : State :=
  let s := hedgeEvent (freeBuf s k) (192 + 2 * i) t
  let s := s.setTbl t { s.tbl t with aborts := (s.tbl t).aborts + 1 }
  match s.jobOf g.plot with
  | some j =>
    let x := s.job j
    let s := if x.state = 1 then
        s.setJob j { x with faultAt := g.plot + 256 * g.ctx + 2 ^ 16 * (s.dir t).id, faultIdx := idx % 2 ^ 32 }
      else s
    endJob s j .indexFault
  | none => haltPlot s g.plot

/-- SIEVE_SORT_COMPLETE: the batch is checked, sorted and made unique, and cut into waves; a bag beyond the limits of a
wave is GATHER_SIZE. -/
def sortCompleteOp (s : State) (i b : Nat) : State :=
  match s.gbuf i b with
  | none => s
  | some g =>
    if g.phase ≠ 0 ∨ g.gslot.isNone ∨ s.batchHeld g then s
    else
      let f := s.plotFunc g.plot
      let x := s.findAll f g.desc g.data
      match x.bad with
      | some (t, idx) => indexFault s i (4 * i + b) g t idx
      | none =>
        let s := s.wrapInc Reg.SIV_PLACES_COUNT [i] x.refs.length
        let s := s.wrapInc Reg.SIV_UNIQUE_COUNT [i] (firsts Ref.rowKey x.refs).length
        let set (s : State) (ws : List Nat) (parts : List Part) (grads : List GRow) : State :=
          s.setGbuf (4 * i + b) { g with
            phase := 1, bags := List.zipWith (fun y w => { y with wave := w }) x.bags ws, parts := parts, grads := grads,
            drops := x.drops, wave := 0, waves := ws.foldl max 0 + 1, nextBag := 0 }
        if gdUpdate g.desc then
          match s.cutGrads f g.desc x.bags x.refs with
          | some (ws, gs) => set s ws [] gs
          | none => ctxFault s g.plot g.ctx 10 0
        else
          match s.cutParts g.desc x.bags (s.partsOf x.refs) with
          | some (ws, ps) => set s ws ps []
          | none => ctxFault s g.plot g.ctx 10 0

/-- SIEVE_SORT_COMPLETE. -/
def execSieveSortComplete (i : Fin 2) (b : Fin 4) (s : State) : Outcome State Fault Refusal :=
  nextQ (if s.coreUp then sortCompleteOp s i b else s)

/-! ### Completion (R418, R446) -/

/-- A gather completes: its drops and empty bags are counted, its buffer and slot are freed. -/
def gatherDone (s : State) (k : Nat) (g : Gather) : State :=
  let f := s.plotFunc g.plot
  let empty (i : Nat) : Nat := (g.bags.filter (fun b => b.seg == i && b.live == 0)).length
  let s := (gdSegs g.desc).zipIdx.foldl (fun s e =>
    match s.tableOf f (sgTable e.1) with
    | some t => s.setTbl t { s.tbl t with
        drops := ((s.tbl t).drops + g.drops.getD e.2 0) % 2 ^ 64, empties := ((s.tbl t).empties + empty e.2) % 2 ^ 64 }
    | none => s) s
  let s := match s.jobOf g.plot with
    | some j => s.setJob j { s.job j with
        dropped := (s.job j).dropped + g.drops.sum
        empty := (s.job j).empty + (g.bags.filter (fun (b : Bag) => b.live == 0)).length }
    | none => s
  let s := s.setCtx g.plot g.ctx { s.ctx g.plot g.ctx with
    gslots := (s.ctx g.plot g.ctx).gslots.filter (fun x => some x != g.gslot) }
  freeBuf { s with rwc := { s.rwc with batches := s.rwc.batches + 1 } } k

/-! ### A wave of a pooling gather (R440) -/

/-- The local rows of parts as (directory slot, row), each once, in ascending order. -/
def localRows (self : Nat) (l : List Part) : List (Nat × Nat) :=
  firsts (fun e => [e.1, e.2]) ((l.filter (fun p => p.die == self)).flatMap (fun p => p.terms.map (fun t => (p.dir, t.1))))

/-- Key of a row in the copies of a wave. -/
def copyKey (dir row : Nat) : Nat := dir * 2 ^ 40 + row

/-- Look up rows in order; the read parts of those that hit, by `copyKey`. -/
def lookupAll : List (Nat × Nat) → State → FMap (List Byte) → State × FMap (List Byte)
  | [], s, m => (s, m)
  | e :: rest, s, m =>
    let d := s.dir e.1
    match rwcLookup s d.tkey e.2 (readPart d.fmt d.elems) with
    | (s, some b) => lookupAll rest s (FMap.put m (copyKey e.1 e.2) b)
    | (s, none) => lookupAll rest s m

/-- Mark the local hit parts whose rows fit in the scratch that remains, in canonical order, and give each copied row a
scratch row from `next` on. -/
def takeHits (self limit : Nat) (hits : FMap (List Byte)) : Nat → FMap Nat → List Part → List Part × FMap Nat
  | _, m, [] => ([], m)
  | next, m, p :: rest =>
    let keys := (p.terms.map (fun t => copyKey p.dir t.1)).eraseDups
    let new := keys.filter (fun k => !FMap.has m k)
    if p.die = self ∧ keys.all (FMap.has hits) ∧ next + new.length ≤ limit then
      let m := new.zipIdx.foldl (fun m e => FMap.put m e.1 (next + e.2)) m
      let r := takeHits self limit hits (next + new.length) m rest
      ({ p with hit := true } :: r.1, r.2)
    else
      let r := takeHits self limit hits next m rest
      (p :: r.1, r.2)

/-- A part as a request group carries it (R483). -/
def partBytes (pool : Nat) (p : Part) : List Byte :=
  let rows := (p.terms.map (·.1)).eraseDups
  pad16 (leBytes 2 p.slot ++ leBytes 2 rows.length ++ leBytes 2 p.terms.length ++ leBytes 1 pool ++ fill 9 0
    ++ rows.flatMap (fun r => rowEntry r (p.terms.filter (fun t => t.1 == r)).length)
    ++ (if pool = 2 then p.terms.flatMap (fun t => leBytes 4 t.2) else []))

/-- The pooling mode of a bag. -/
def Gather.poolOf (g : Gather) (bag : Nat) : Nat :=
  sgPool (gdSeg g.desc (((g.bags[bag]?).map (·.seg)).getD 0))

/-- The header of packets that a context's Sieve sends to a die's firmware stop. -/
def sievePacket (self : Nat) (g : Gather) (typ die epoch tf : Nat) : Packet :=
  { typ := typ, vc := 0, len := 0, first := false, last := false, dstDie := die, srcDie := self, dstAgent := 192,
    srcAgent := ctxAgent g.plot g.ctx, epoch := epoch, tf := tf, resv := false, body := [] }

/-- Send the remote parts of a wave: one request group for each owning die and directory slot. -/
def sendGroups (s : State) (g : Gather) (parts : List Part) : State :=
  (firsts (fun p => [p.die, p.dir]) parts).foldl (fun s h =>
    let mine := parts.filter (fun p => p.die == h.die && p.dir == h.dir)
    let q := sievePacket s.self g 6 h.die 0
      ((s.dir h.dir).tkey + 2 ^ 32 * (g.gslot.getD 0) + 2 ^ 48 * (g.wave % 2 ^ 16))
    injectAll s (streamOf q (mine.flatMap (fun p => partBytes (g.poolOf p.bag) p)))) s

/-- Start a wave of a pooling gather. -/
def waveRead (s : State) (k : Nat) (g : Gather) : State :=
  let mine := g.parts.filter (fun p => p.wave == g.wave)
  let slots := (mine.map (·.rows)).sum
  let r := lookupAll (localRows s.self mine) s []
  let t := takeHits s.self (gdScratchRows g.desc) r.2 slots [] mine
  let s := t.2.foldl (fun s e =>
    (writeRow s g.plot 2 (gdScratch g.desc + e.2) tagNone (FMap.get r.2 [] e.1)).1) r.1
  let miss := t.1.filter (fun p => p.die == s.self && !p.hit)
  let s := miss.foldl (fun s p =>
    pushPart s p.stack (s.furPart p.dir s.self (ctxAgent g.plot g.ctx) (g.gslot.getD 0) g.wave p.slot [] p.terms)) s
  let s := sendGroups s g (mine.filter (fun p => p.die != s.self))
  let keep := g.parts.filter (fun p => p.wave != g.wave)
  s.setGbuf k { g with phase := 2, parts := keep ++ t.1, copies := t.2 }

/-! ### Update gathers (R453-R457) -/

/-- The first row of a bag's vector among the outputs, and the rows that it takes. -/
def State.vecAt (s : State) (g : Gather) (y : Bag) : Nat × Nat :=
  let x := gdSeg g.desc y.seg
  let t := (s.tableOf (s.plotFunc g.plot) (sgTable x)).getD 0
  let n := vecRows (gdFmt g.desc) (s.vecElems t)
  (g.outRow + sgOutOff x + y.idx * n, n)

/-- Elements `off` to `off + n - 1` of a bag gradient as FP32. -/
def gradElems (fmt off n : Nat) (b : List Byte) : List Nat :=
  (List.range n).map (fun k => toF32 (decodeFmt fmt (element b (fmtBits fmt) (off + k))))

/-- One row gradient (R454); none when a row that it reads is poisoned. -/
def rowGrad (g : Gather) (elems : Nat) : List (Nat × Nat × Nat) → State → Option (List Nat) → State × Option (List Nat)
  | [], s, acc => (s, some (acc.getD []))
  | (bag, coef, off) :: rest, s, acc =>
    match g.bags[bag]? with
    | none => rowGrad g elems rest s acc
    | some y =>
      let v := s.vecAt g y
      match readRows s g.plot 1 v.1 tagNone v.2 with
      | (s, .ok b) => rowGrad g elems rest s (poolStep acc coef (gradElems (gdFmt g.desc) off elems b))
      | (s, _) => (s, none)

/-- Form the row gradients of a wave in their scratch slots: each with its bytes; none when one is poisoned. -/
def formGrads (g : Gather) : List GRow → State → State × Option (List (GRow × List Byte))
  | [], s => (s, some [])
  | x :: rest, s =>
    match rowGrad g (s.dir x.dir).elems x.terms s none with
    | (s, none) => (s, none)
    | (s, some v) =>
      let b := v.flatMap (leBytes 4)
      let s := writeRowsFrom s g.plot 2 (gdScratch g.desc + x.at') tagNone
        ((List.range (slotRows (s.dir x.dir).elems)).map (fun i => (b.drop (256 * i)).take 256))
      match formGrads g rest s with
      | (s, some l) => (s, some ((x, b) :: l))
      | (s, none) => (s, none)

/-- The step ordinal of this die for a table (R456). -/
def State.stepOf (s : State) (tkey : Nat) : Nat := FMap.get s.upd.ordinals 0 tkey

/-- Send the updates of a wave (R455): each row counts as one operation in flight. -/
def sendUpdates (s : State) (g : Gather) (rows : List (GRow × List Byte)) : State :=
  let agent := ctxAgent g.plot g.ctx
  let hdr := gdBlock g.desc
  let s := { s with flights := s.flights ++ rows.map (fun e =>
    ⟨agent, agent, 8, e.1.die, 192, (s.leaseOf (s.dir e.1.dir).tkey e.1.die).getD 0, 0, g.stamp⟩) }
  let s := (rows.filter (fun e => e.1.die == s.self)).foldl (fun s e =>
    let k := (s.dir e.1.dir).tkey
    let u : FUpd := ⟨k, s.self, agent, s.stepOf k, (s.leaseOf k s.self).getD 0, e.1.row, hdr, e.2⟩
    s.setFur e.1.stack { s.fur e.1.stack with upds := (s.fur e.1.stack).upds ++ [u] }) s
  let far := rows.filter (fun e => e.1.die != s.self)
  (firsts (fun e => [e.1.dir, e.1.die]) far).foldl (fun s h =>
    let k := (s.dir h.1.dir).tkey
    let q := sievePacket s.self g 8 h.1.die ((s.leaseOf k h.1.die).getD 0) (k + 2 ^ 32 * (s.stepOf k % 2 ^ 32))
    let mine := far.filter (fun e => e.1.dir == h.1.dir && e.1.die == h.1.die)
    injectAll s (streamOf q (hdr ++ mine.flatMap (fun e => pad16 (rowEntry e.1.row 0 ++ e.2))))) s

/-- After the last wave of a gather with END_STEP: END to every owning die of every table it names, and the step
ordinals advance (R456, R457). -/
def sendEnds (s : State) (g : Gather) : State :=
  if !ubEndStep (gdBlock g.desc) then s
  else
    (s.updateKeys (s.plotFunc g.plot) g.desc).foldl (fun s k =>
      let s := (s.ownersBy g.plot k).foldl (fun s o =>
        injectPkt s { sievePacket s.self g 9 o ((s.leaseOf k o).getD 0) (k + 2 ^ 32 * (s.stepOf k % 2 ^ 32)) with vc := 2 }) s
      { s with upd := { s.upd with ordinals := FMap.put s.upd.ordinals k ((s.stepOf k + 1) % 2 ^ 32) } }) s

/-- Run a wave of an update gather: row gradients are formed and sent. -/
def waveUpdate (s : State) (k : Nat) (g : Gather) : State :=
  match formGrads g (g.grads.filter (fun x => x.wave == g.wave)) s with
  | (s, none) => poisonFault s g.plot g.ctx
  | (s, some rows) =>
    let s := sendUpdates s g rows
    let g := { g with left := g.left + rows.length }
    if g.wave + 1 < g.waves then s.setGbuf k { g with wave := g.wave + 1 }
    else
      let s := sendEnds s g
      if g.left = 0 then gatherDone s k g else s.setGbuf k { g with phase := 3 }

/-- WAVE_START: the next wave of a sorted batch. -/
def waveStartOp (s : State) (i b : Nat) : State :=
  match s.gbuf i b with
  | none => s
  | some g =>
    if g.phase ≠ 1 then s
    else if gdUpdate g.desc then waveUpdate s (4 * i + b) g else waveRead s (4 * i + b) g

/-- WAVE_START. -/
def execWaveStart (i : Fin 2) (b : Fin 4) (s : State) : Outcome State Fault Refusal :=
  nextQ (if s.coreUp then waveStartOp s i b else s)

/-- A row update of a context is acknowledged: the oldest update gather with one outstanding counts it (R452). -/
def updateAcked (s : State) (p c n : Nat) : State :=
  match s.sieves.find? (fun e => e.2.plot == p && e.2.ctx == c && e.2.left != 0) with
  | none => s
  | some (k, g) =>
    let g := { g with left := g.left - n }
    if g.left = 0 ∧ g.phase = 3 then gatherDone s k g else s.setGbuf k g

/-! ### Scratch writes (R441) -/

/-- The gather that a scratch write is for. -/
def State.scratchBuf (s : State) (q : Packet) : Option (Nat × Gather) :=
  s.sieves.find? (fun e => ctxAgent e.2.plot e.2.ctx == q.dstAgent && e.2.gslot == some (q.tfb 13 1 % 4)
    && e.2.phase == 2 && e.2.wave % 2 ^ 16 == q.tfb 8 2
    && e.2.parts.any (fun p => p.wave == e.2.wave && p.slot == q.tfb 10 2 && !p.hit && decide (q.tfb 12 1 < p.rows)))

/-- SCRATCH: a write into a slot of the current wave of an outstanding gather is taken, any other one discarded; each is
acknowledged. A poisoned partial faults the context. -/
def scratchOp (s : State) (q : Packet) : State :=
  if q.typ ≠ 7 then s
  else
    let s := sendAck s q false false 0
    match s.scratchBuf q with
    | none => s
    | some (k, g) =>
      if bitOf (q.tfb 14 1) 0 then ctxFault s g.plot g.ctx 18 (if q.srcDie = s.self then 1 else 2)
      else
        let r := q.tfb 12 1
        let me (p : Part) : Bool := p.wave == g.wave && p.slot == q.tfb 10 2
        let row := gdScratch g.desc + ((g.parts.find? me).map (·.at')).getD 0 + r
        let s := (writeRow s g.plot 2 row tagNone q.body).1
        s.setGbuf k { g with parts := g.parts.map (fun p =>
          if me p ∧ !p.got.contains r then { p with got := r :: p.got } else p) }

/-- SCRATCH. -/
def execScratch (q : Packet) (s : State) : Outcome State Fault Refusal :=
  nextQ (if s.coreUp then scratchOp (takeInbox s q) q else takeInbox s q)

/-! ### Combination (R445, R446) -/

/-- The partial of a part: pooled from copied rows, or read from its slot; none when a row is poisoned. -/
def partVec (g : Gather) (s : State) (p : Part) : State × Option (List Nat) :=
  let d := s.dir p.dir
  let base := gdScratch g.desc
  if p.hit then
    p.terms.foldl (fun a t =>
      match a with
      | (s, none) => (s, none)
      | (s, some l) =>
        match readRow s g.plot 2 (base + FMap.get g.copies 0 (copyKey p.dir t.1)) tagNone with
        | (s, .ok b) => (s, some (l ++ [(t.2, b)]))
        | (s, _) => (s, none)) (s, some [])
    |> fun r => (r.1, r.2.map (fun l => poolRows d.fmt d.elems l))
  else
    match readRows s g.plot 2 (base + p.at') tagNone p.rows with
    | (s, .ok b) => (s, some ((List.range d.elems).map (fun k => fieldAt b (4 * k) 4)))
    | (s, _) => (s, none)

/-- The sum of partials in canonical order; none when one is poisoned. -/
def sumParts (g : Gather) : List Part → State → Option (List Nat) → State × Option (List Nat)
  | [], s, acc => (s, some (acc.getD []))
  | p :: rest, s, acc =>
    match partVec g s p with
    | (s, none) => (s, none)
    | (s, some v) => sumParts g rest s (some (match acc with | none => v | some a => List.zipWith f32Add a v))

/-- The pooled vector of a bag as FP32; none when a row it reads is poisoned. -/
def bagVec (g : Gather) (s : State) (bag : Nat) (y : Bag) : State × Option (List Nat) :=
  let x := gdSeg g.desc y.seg
  let t := (s.tableOf (s.plotFunc g.plot) (sgTable x)).getD 0
  let d := s.dir t
  let mine (comp : Nat) : List Part := g.parts.filter (fun p => p.bag == bag && p.comp == comp)
  let mean (l : List Nat) : List Nat :=
    if sgMean x then l.map (fun a => f32Div a (toF32 (.fin false y.live 0))) else l
  if y.live = 0 then (s, some (List.replicate (s.vecElems t) 0))
  else
    match sumParts g (mine 0) s none with
    | (s, none) => (s, none)
    | (s, some a) =>
      if d.kind ≠ 2 then (s, some (mean a))
      else
        match sumParts g (mine 1) s none with
        | (s, none) => (s, none)
        | (s, some b) =>
          (s, some (if d.concat then mean a ++ mean b else List.zipWith f32Add (mean a) (mean b)))

/-- The 256-byte rows of a vector of codes, zero beyond its end. -/
def vecBytes (fmt rows : Nat) (codes : List Nat) : List (List Byte) :=
  let b := packCodes (fmtBits fmt) codes
  (List.range rows).map (fun i => padTo 256 ((b.drop (256 * i)).take 256))

/-- The mask rows of segment `i` as (first row, rows) (R425). -/
def State.maskOf (s : State) (g : Gather) (i : Nat) : Nat × List (List Byte) :=
  let x := gdSeg g.desc i
  let n := cdiv (sgBags x) 2048
  let b := packCodes 1 ((g.bags.filter (fun y => y.seg == i)).map (fun y => b2n (y.live == 0)))
  ((s.vecAt g ⟨i, sgBags x, 0, 0⟩).1, (List.range n).map (fun r => padTo 256 ((b.drop (256 * r)).take 256)))

/-- Write output rows with OUT_TAG; a FULL row under FILL makes the context wait, and nothing is written. -/
def writeOut (s : State) (g : Gather) (row : Nat) (rows : List (List Byte)) (go : State → State) : State :=
  if g.fill ∧ (List.range rows.length).any (fun i => s.tagFull g.plot 1 (row + i)) then
    setBg s g.plot g.ctx (some (1, fillArg 1 (s.firstFull g.plot 1 row rows.length)))
  else go (writeRowsFrom s g.plot 1 row (if g.fill then tagFill else tagNone) rows)

/-- The mask rows of the segments, then completion. -/
def writeMasks (k : Nat) (g : Gather) : List Nat → State → State
  | [], s => gatherDone s k g
  | i :: rest, s => let m := s.maskOf g i; writeOut s g m.1 m.2 (writeMasks k g rest)

/-- What follows the last bag of a wave: the next wave, or the mask rows and completion. -/
def waveDone (s : State) (k : Nat) (g : Gather) : State :=
  let maskRows := (List.range (gdSegments g.desc)).flatMap (fun i =>
    let m := s.maskOf g i
    (List.range m.2.length).map (fun r => m.1 + r))
  if g.wave + 1 < g.waves then s.setGbuf k { g with phase := 1, wave := g.wave + 1, copies := [] }
  else
    match (if g.fill then maskRows.find? (s.tagFull g.plot 1) else none) with
    | some r => setBg (s.setGbuf k g) g.plot g.ctx (some (1, fillArg 1 r))
    | none => writeMasks k g (List.range (gdSegments g.desc)) s

/-- Whether every slot of a bag is filled. -/
def Gather.bagReady (g : Gather) (bag : Nat) : Bool :=
  (g.parts.filter (fun p => p.bag == bag)).all (fun p => p.hit || p.got.length == p.rows)

/-- BAG_COMBINE: the next bag of the wave is combined and written; the last one of the last wave completes the gather. -/
def bagCombineOp (s : State) (i b : Nat) : State :=
  let k := 4 * i + b
  match s.gbuf i b with
  | none => s
  | some g =>
    if g.phase ≠ 2 then s
    else
      match g.bags[g.nextBag]? with
      | none => waveDone s k g
      | some y =>
        if y.wave ≠ g.wave then waveDone s k g
        else if !g.bagReady g.nextBag then s
        else
          match bagVec g s g.nextBag y with
          | (s, none) => poisonFault s g.plot g.ctx
          | (s, some v) =>
            let fmt := gdFmt g.desc
            let enc := v.map (fun a => encodeNum fmt .rne false (f32 a))
            let at' := s.vecAt g y
            writeOut s g at'.1 (vecBytes fmt at'.2 (enc.map (·.1))) (fun s =>
              let s := charge s g.plot g.ctx (sumEv enc)
              let g := { g with nextBag := g.nextBag + 1 }
              let more := match g.bags[g.nextBag]? with | some z => z.wave == g.wave | none => false
              if more then s.setGbuf k g else waveDone s k g)

/-- BAG_COMBINE. -/
def execBagCombine (i : Fin 2) (b : Fin 4) (s : State) : Outcome State Fault Refusal :=
  nextQ (if s.coreUp then bagCombineOp s i b else s)

/-! ### Prefetch (R448) -/

/-- PREFETCH_BATCH: while no demand batch waits for the Sieve, its first prefetch batch reads the absent local rows and
sends one prefetch group for each owning die and table. -/
def prefetchBatchOp (s : State) (i : Nat) : State :=
  let mine := s.sieves.filter (fun e => e.1 / 4 == i)
  if mine.any (fun e => e.2.gslot.isSome && e.2.phase == 0) then s
  else
    match mine.find? (fun e => e.2.gslot.isNone) with
    | none => s
    | some (k, g) =>
      if s.batchHeld g then s
      else
        let x := s.findAll (s.plotFunc g.plot) g.desc g.data
        let rows := firsts Ref.rowKey x.refs
        let s := freeBuf s k
        let s := (s.wrapInc Reg.SIV_PLACES_COUNT [i] x.refs.length).wrapInc Reg.SIV_UNIQUE_COUNT [i] rows.length
        let s := (rows.filter (fun r => r.die == s.self)).foldl (fun s r => prefetchRows s r.dir [r.row]) s
        let far := rows.filter (fun r => r.die != s.self)
        (firsts (fun r => [r.die, r.dir]) far).foldl (fun s h =>
          let q := sievePacket s.self g 13 h.die 0 (s.dir h.dir).tkey
          injectAll s (streamOf q (pad16 ((far.filter (fun r => r.die == h.die && r.dir == h.dir)).flatMap
            (fun r => rowEntry r.row 1))))) s

/-- PREFETCH_BATCH. -/
def execPrefetchBatch (i : Fin 2) (s : State) : Outcome State Fault Refusal :=
  nextQ (if s.coreUp then prefetchBatchOp s i else s)

end Sys2Proof.Machine
end

