-- ==== Sys2Proof/Machine/Fence.lean ====
section
/-! DEFINITION. Leases and fences (R621-R632): writer leases, their plans and step turns, the fence of a window, a
writer lease or a unit's row locks, and the reclaim at the end of the drain interval. -/

namespace Sys2Proof.Machine

open Host (Outcome)

/-! ### Epochs (R621) -/

/-- The last epoch of a writer of a table on this die. -/
def State.writerEpoch (s : State) (tkey die : Nat) : Nat := FMap.get s.upd.epochs s.bootEpoch (tkey * 256 + die)

/-! ### Plans (R456, R457, R460) -/

/-- The plan of a table. -/
def State.plan (s : State) (tkey : Nat) : Option Plan := s.upd.plans.find? (fun x => x.tkey == tkey)

/-- Replace the plan of a table. -/
def setPlan (s : State) (x : Plan) : State :=
  { s with upd := { s.upd with plans := s.upd.plans.map (fun y => if y.tkey == x.tkey then x else y) } }

/-- The open step of a plan: the steps that every writer still in the set has ended. -/
def Plan.step (x : Plan) : Nat :=
  match (x.writers.filter (fun w => !w.gone)).map (·.ended) with
  | [] => 0
  | a :: r => r.foldl min a

/-- The writer whose END for the open step is awaited: the lowest that has not sent it. -/
def Plan.awaited (x : Plan) : Option Writer := x.writers.find? (fun w => !w.gone && w.ended == x.step)

/-- Change a plan; the turn of the awaited writer begins anew when it or the step changes. -/
def movePlan (s : State) (x y : Plan) : State :=
  setPlan s (if y.awaited.map (·.die) = x.awaited.map (·.die) ∧ y.step = x.step then y else { y with turnAt := s.now })

/-! ### The fence (R629) -/

/-- Whether a fence of a lease is in its drain interval. -/
def State.fencing (s : State) (cls a b : Nat) : Bool := s.fences.any (fun f => f.cls == cls && f.a == a && f.b == b)

/-- Steps 3 and 4: report the fence and begin the drain interval. -/
def beginFence (s : State) (cls a b trigger old new die agent name gtag func : Nat) : State :=
  let s := (s.wr Reg.TOP_FENCE_LAST_CLASS [] cls).wr Reg.TOP_FENCE_LAST_TRIGGER [] trigger
  let s := (s.wr Reg.TOP_FENCE_LAST_HOLDER_DIE [] die).wr Reg.TOP_FENCE_LAST_HOLDER_AGENT [] agent
  let s := (s.wr Reg.TOP_FENCE_LAST_NEW_EPOCH [] new).wr Reg.TOP_FENCE_LAST_GTAG [] gtag
  let s := s.satInc Reg.TOP_FENCE_CNT_FENCES [] 1
  let s := faultRecord s 4 (leBytes 1 cls ++ leBytes 1 trigger ++ leBytes 2 old ++ leBytes 2 new ++ leBytes 1 die
    ++ leBytes 1 agent ++ leBytes 4 name ++ leBytes 2 gtag)
  let s := faultVector s func
  { s with fences := s.fences ++ [⟨cls, a, b, s.now, s.rd Reg.TOP_DRAIN_DRAIN_US []⟩] }

/-- The GTAG of the group that a plot is a member of, or 0. -/
def State.plotGtag (s : State) (p : Nat) : Nat := ((s.groupOf p).map (fun g => s.rd Reg.TOP_QD_GRP_GTAG [g])).getD 0

/-- Fence a store window. -/
def fenceWindow (s : State) (p w trigger : Nat) : State :=
  if !s.on Reg.STO_WIN_EN [p, w] ∨ s.fencing 1 p w then s
  else
    let old := s.rd Reg.STO_WIN_EPOCH [p, w]
    let s := s.wr Reg.STO_WIN_EPOCH [p, w] (epochNext old)
    beginFence s 1 p w trigger old (epochNext old) (s.rd Reg.STO_WIN_PROD_DIE [p, w])
      (s.rd Reg.STO_WIN_PROD_AGENT [p, w]) (16 * p + w) (s.plotGtag p) (s.plotFunc p)

/-- Fence the writer lease of a die on a table. -/
def fenceWriter (s : State) (tkey die trigger : Nat) : State :=
  match s.plan tkey with
  | none => s
  | some x =>
    match x.writers.find? (fun w => w.die == die && !w.gone) with
    | none => s
    | some w =>
      if s.fencing 3 tkey die then s
      else
        let new := epochNext w.epoch
        let ws := x.writers.map (fun y => if y.die == die then { y with epoch := new } else y)
        let s := setPlan s { x with writers := ws }
        let s := { s with upd := { s.upd with epochs := FMap.put s.upd.epochs (tkey * 256 + die) new } }
        beginFence s 3 tkey die trigger w.epoch new die w.agent tkey x.gtag ((x.slot.map (fun j => (s.job j).func)).getD 0)

/-- Fence the row locks of a Furrow unit (R461). -/
def fenceLocks (s : State) (u trigger : Nat) : State :=
  if s.fencing 4 u 0 then s
  else
    let old := s.rd Reg.FUR_LOCK_EPOCH [u]
    let s := s.wr Reg.FUR_LOCK_EPOCH [u] (epochNext old)
    beginFence s 4 u 0 trigger old (epochNext old) s.self (furAgent u) 0 0 0

/-- LEASE_FENCE: the authority takes a trigger of R627 for a lease. -/
def execLeaseFence (l : LeaseRef) (trigger : Nat) (s : State) : Outcome State Fault Refusal :=
  nextQ (if !s.coreUp then s else
    match l with
    | .window p w => fenceWindow s p w trigger
    | .writer k d => fenceWriter s k d trigger
    | .rowLocks u => fenceLocks s u trigger)

/-- ROW_LOCK_TIMEOUT: trigger 5. -/
def execRowLockTimeout (u : Fin 6) (s : State) : Outcome State Fault Refusal :=
  nextQ (if s.coreUp then fenceLocks s u 5 else s)

/-- WRITER_STEP_TIMEOUT: the awaited writer's END has been missing for TMO_MS (trigger 3). -/
def writerTimeoutOp (s : State) (tkey : Nat) : State :=
  let tmo := s.rd Reg.TOP_LEASE_TMO_TMO_MS []
  match s.plan tkey with
  | none => s
  | some x =>
    match x.awaited with
    | none => s
    | some w => if tmo ≠ 0 ∧ x.turnAt + msCounts tmo ≤ s.now then fenceWriter s tkey w.die 3 else s

/-- WRITER_STEP_TIMEOUT. -/
def execWriterStepTimeout (tkey : Nat) (s : State) : Outcome State Fault Refusal := nextQ (writerTimeoutOp s tkey)

/-! ### Reclaim (R624) -/

/-- Remove the plans that a release notice asked to remove, once none of their leases is in a drain interval. -/
def dropLeaving (s : State) : State :=
  { s with upd := { s.upd with plans := s.upd.plans.filter (fun x =>
      !(x.leaving && x.writers.all (fun w => !s.fencing 3 x.tkey w.die))) } }

/-- Reclaim what a fence names. -/
def reclaim (s : State) (f : Fence) : State :=
  match f.cls with
  | 1 => s.wr Reg.STO_WIN_EN [f.a, f.b] 0
  | 3 =>
    match s.plan f.a with
    | some x => movePlan s x { x with writers := x.writers.map (fun w => if w.die == f.b then { w with gone := true } else w) }
    | none => s
  | _ => s.wr Reg.FUR_LOCK_HELD [f.a] 0

/-- DRAIN_EXPIRY: the drain interval of fence `i` is over and no port is RETRAINING. -/
def drainExpiryOp (s : State) (i : Nat) : State :=
  match s.fences[i]? with
  | none => s
  | some f =>
    if s.now < f.at' + usCounts f.drain ∨ (List.range 8).any (fun n => s.portState n == psRetraining) then s
    else
      let s := { s with fences := s.fences.eraseIdx i }
      dropLeaving ((reclaim s f).satInc Reg.TOP_FENCE_CNT_RECLAIMS [] 1)

/-- DRAIN_EXPIRY. -/
def execDrainExpiry (i : Nat) (s : State) : Outcome State Fault Refusal := nextQ (drainExpiryOp s i)

/-! ### Release notices (R628) and LEASE packets (R460) -/

/-- Remove what INSTALL put here for a job of a leader. -/
def dropInstalled (s : State) (job leader : Nat) : State :=
  let mine (x : Plan) : Bool := x.slot.isNone && x.jobId == job && x.leader == leader
  let g := s.graft
  let s := { s with
    upd := { s.upd with plans := s.upd.plans.map (fun x => if mine x then { x with leaving := true } else x) }
    graft := { g with entries := g.entries.filter (fun e => !(e.2.jobId == job && e.2.leader == leader && leader != s.self)) } }
  showGrafts (dropLeaving s)

/-- RELEASE: the leases that agents of the sender's die hold for the notice's group are fenced (trigger 2), and what the
sender installed for its job is removed. -/
def releaseOp (s : State) (q : Packet) : State :=
  let gtag := q.tfb 10 2
  let here := (List.range 16).filter (fun g => s.armed g && s.rd Reg.TOP_QD_GRP_GTAG [g] == gtag
    && s.rd Reg.TOP_QD_GRP_EPOCH [g] == q.epoch)
  let s := (List.range 256).foldl (fun s e =>
    let p := e / 16
    let w := e % 16
    if s.rd Reg.STO_WIN_PROD_DIE [p, w] = q.srcDie ∧ here.any (fun g => (s.members g).contains p)
    then fenceWindow s p w 2 else s) s
  let s := (s.upd.plans.filter (fun x => x.gtag == gtag)).foldl (fun s x => fenceWriter s x.tkey q.srcDie 2) s
  dropInstalled s (q.tfb 12 4) q.srcDie

/-- RELEASE. -/
def execRelease (q : Packet) (s : State) : Outcome State Fault Refusal :=
  let s := takeInbox s q
  nextQ (if s.coreUp && q.typ == 14 && q.tfb 8 2 == 2 then releaseOp s q else s)

/-- LEASE: a GRANT gives this die the epoch of its writer lease; a FENCE announces one that its updates no longer carry,
so they are refused. -/
def leaseOp (s : State) (q : Packet) : State :=
  if q.typ = 12 ∧ q.tfb 8 1 = 1 ∧ q.tfb 9 1 = 0 then
    { s with upd := { s.upd with grants := FMap.put s.upd.grants (q.tfb 12 4 * 256 + q.srcDie) q.epoch } }
  else s

/-- LEASE. -/
def execLease (q : Packet) (s : State) : Outcome State Fault Refusal :=
  nextQ (if s.coreUp then leaseOp (takeInbox s q) q else takeInbox s q)

end Sys2Proof.Machine
end

