-- ==== Sys2Proof/Machine/Updates.lean ====
section
/-! DEFINITION. Sparse updates at the owning die (R457-R467): update groups and END markers, the order of application,
the optimisers and the read-modify-write of a row. -/

namespace Sys2Proof.Machine

open Host (Outcome)

/-! ### Update groups (R458, R483) -/

/-- Bytes of one row of an update group for a table of `elems` elements. -/
def groupRowBytes (elems : Nat) : Nat := 16 * cdiv (8 + 4 * elems) 16

/-- The rows of an update group as (local row, gradient); none when the body breaks R483. -/
def groupRows (elems : Nat) (b : List Byte) : Option (List (Nat × List Byte)) :=
  let n := groupRowBytes elems
  let k := (b.length - 32) / n
  let row (i : Nat) : List Byte := (b.drop (32 + n * i)).take n
  if b.length ≠ 32 + n * k ∨ (List.range k).any (fun i =>
      fieldAt (row i) 5 3 != 0 || !allZero ((row i).drop (8 + 4 * elems))) then none
  else some ((List.range k).map (fun i => (reRow (row i), ((row i).drop 8).take (4 * elems))))

/-- Count a refused group or END marker at a unit (FUR_UPD_SKIP.STALE), and answer it. -/
def refuseUpdate (s : State) (q : Packet) (u code detail : Nat) : State :=
  sendNak (s.satInc Reg.FUR_UPD_SKIP_STALE [u] 1) q code detail

/-- The refusal of a group or marker by its writer, as (code, detail). -/
def writerRefusal (x : Option Plan) (q : Packet) : Option (Nat × Nat) :=
  match x.bind (fun x => x.writers.find? (fun w => w.die == q.srcDie)) with
  | none => some (0x21, 1)
  | some w => if w.epoch = q.epoch then none else some (0x22, 0)

/-- The refusal of a group by its optimiser (R458): DETAIL as R491 gives it. -/
def optRefusal (opt fmt elems pitch : Nat) : Option Nat :=
  if 4 < opt then some 2
  else if pitch < 8 + rowD8 fmt elems + optState opt elems then some 3
  else if !rowFmtOk fmt then some 4
  else none

/-- UPDATE: the group is checked, and its rows join the queues of the units of their stacks in order. -/
def updateOp (s : State) (l : List Packet) : State :=
  match l with
  | [] => s
  | q :: _ =>
    if q.typ ≠ 8 then s
    else
      let port := s.arrivalPort q
      let body := streamBody l
      let k := q.tfb 8 4
      match s.slotOfKey k with
      | none => sendNak (takeStream s l) q 0x20 k
      | some t =>
        if (s.tbl t).switch.isSome then s
        else
          let s := takeStream s l
          let d := s.dir t
          match (if streamOk l then groupRows d.elems body else none) with
          | none => badStream s l port
          | some rows =>
            let u0 := stackIn d.mask ((rows.map (·.1)).headD 0)
            match writerRefusal (s.plan k) q with
            | some e => refuseUpdate s q u0 e.1 e.2
            | none =>
              match optRefusal (fieldAt body 0 1) d.fmt d.elems d.pitch with
              | some n => refuseUpdate s q u0 0x21 n
              | none =>
                let s := match s.plan k with
                  | some x => setPlan s { x with writers := x.writers.map (fun w =>
                      if w.die == q.srcDie then { w with agent := q.srcAgent } else w) }
                  | none => s
                rows.foldl (fun s e =>
                  let u := stackIn d.mask e.1
                  s.setFur u { s.fur u with upds := (s.fur u).upds ++
                    [⟨k, q.srcDie, q.srcAgent, q.tfb 12 4, q.epoch, e.1, body.take 32, e.2⟩] }) s

/-- UPDATE. -/
def execUpdate (l : List Packet) (s : State) : Outcome State Fault Refusal :=
  nextQ (if s.coreUp then updateOp s l else takeStream s l)

/-- UPDATE_END: the writer has ended the step; the next writer may proceed, or the next step opens (R457). -/
def updateEndOp (s : State) (q : Packet) : State :=
  let k := q.tfb 8 4
  if q.typ ≠ 9 then s
  else
    match s.slotOfKey k with
    | none => sendNak s q 0x20 k
    | some t =>
      match s.plan k, writerRefusal (s.plan k) q with
      | some x, none =>
        movePlan s x { x with writers := x.writers.map (fun w =>
          if w.die == q.srcDie then { w with ended := max w.ended (q.tfb 12 4 + 1) } else w) }
      | _, some e => refuseUpdate s q (stackIn (s.dir t).mask 0) e.1 e.2
      | none, none => s

/-- UPDATE_END. -/
def execUpdateEnd (q : Packet) (s : State) : Outcome State Fault Refusal :=
  nextQ (if s.coreUp then updateEndOp (takeInbox s q) q else takeInbox s q)

/-! ### The order of application (R457) -/

/-- Whether it is a writer's turn in a step: every lower writer has ended it and every other one the step before; a
writer removed from the set counts as ended. -/
def Plan.turn (x : Plan) (die step : Nat) : Bool :=
  x.writers.all (fun w => w.gone || w.die == die || (if w.die < die then decide (step < w.ended) else decide (step ≤ w.ended)))

/-- Whether an update comes before another one of the same table. -/
def FUpd.before (a b : FUpd) : Bool :=
  a.tkey == b.tkey && (decide (a.step < b.step) || (a.step == b.step && decide (a.writer < b.writer)))

/-- The update that a unit may apply next: the first in its queue whose turn has come. -/
def State.nextUpd (s : State) (u : Nat) : Option FUpd :=
  let l := (s.fur u).upds
  l.find? (fun x =>
    (match s.plan x.tkey with | some y => y.turn x.writer x.step | none => true) && !l.any (fun y => y.before x))

/-! ### Optimisers (R463, R464) -/

/-- The parameters of the update block, as FP32. -/
def ubLr (u : List Byte) : Nat := fieldAt u 4 4
def ubBeta1 (u : List Byte) : Nat := fieldAt u 8 4
def ubBeta2 (u : List Byte) : Nat := fieldAt u 12 4
def ubEps (u : List Byte) : Nat := fieldAt u 16 4
def ubLambda (u : List Byte) : Nat := fieldAt u 20 4
def ubBc1 (u : List Byte) : Nat := fieldAt u 24 4
def ubBc2 (u : List Byte) : Nat := fieldAt u 28 4

/-- FP32 one. -/
def one32 : Nat := 0x3F800000

/-- One optimiser step of an element with state `m`, `v`: the new θ, m and v; `r` is the row's divisor of ROWWISE. -/
def optStep (u : List Byte) (r : Nat) (theta g m v : Nat) : Nat × Nat × Nat :=
  let d := f32Fma (ubLambda u) theta g
  match ubOpt u with
  | 0 => (f32Fma (f32Neg (ubLr u)) d theta, m, v)
  | 1 =>
    let m := f32Fma (ubBeta1 u) m d
    (f32Fma (f32Neg (ubLr u)) m theta, m, v)
  | 2 =>
    let v := f32Fma d d v
    (f32Sub theta (f32Div (f32Mul (ubLr u) d) (f32Add (f32Sqrt v) (ubEps u))), m, v)
  | 3 => (f32Sub theta (f32Div (f32Mul (ubLr u) d) r), m, v)
  | _ =>
    let m := f32Fma (ubBeta1 u) m (f32Mul (f32Sub one32 (ubBeta1 u)) g)
    let v := f32Fma (ubBeta2 u) v (f32Mul (f32Sub one32 (ubBeta2 u)) (f32Mul g g))
    let w := f32Div (f32Mul m (ubBc1 u)) (f32Add (f32Sqrt (f32Mul v (ubBc2 u))) (ubEps u))
    (f32Sub theta (f32Mul (ubLr u) (f32Fma (ubLambda u) theta w)), m, v)

/-- The row's accumulator of ROWWISE_ADAGRAD after a step: v + s / E. -/
def rowwiseV (u : List Byte) (theta g : List Nat) (v : Nat) : Nat :=
  let d := List.zipWith (f32Fma (ubLambda u)) theta g
  let s := match d with
    | [] => 0
    | a :: r => r.foldl (fun s x => f32Fma x x s) (f32Mul a a)
  f32Add v (f32Div s (toF32 (.fin false d.length 0)))

/-- A whole row: the new elements and the new state bytes. -/
def optRow (u : List Byte) (theta g : List Nat) (st : List Byte) : List Nat × List Byte :=
  let e := theta.length
  let at' (o k : Nat) : Nat := fieldAt st (o + 4 * k) 4
  let run (r : Nat) (m v : Nat → Nat) : List (Nat × Nat × Nat) :=
    (List.range e).map (fun k => optStep u r (theta.getD k 0) (g.getD k 0) (m k) (v k))
  match ubOpt u with
  | 1 => let l := run 0 (at' 0) (fun _ => 0); (l.map (·.1), l.flatMap (fun x => leBytes 4 x.2.1))
  | 2 => let l := run 0 (fun _ => 0) (at' 0); (l.map (·.1), l.flatMap (fun x => leBytes 4 x.2.2))
  | 3 =>
    let v := rowwiseV u theta g (at' 0 0)
    let l := run (f32Add (f32Sqrt v) (ubEps u)) (fun _ => 0) (fun _ => 0)
    (l.map (·.1), leBytes 4 v)
  | 4 =>
    let l := run 0 (at' 0) (at' (4 * e))
    (l.map (·.1), l.flatMap (fun x => leBytes 4 x.2.1) ++ l.flatMap (fun x => leBytes 4 x.2.2))
  | _ => ((run 0 (fun _ => 0) (fun _ => 0)).map (·.1), [])

/-! ### Writing the row (R465, R466) -/

/-- Whether a code of a format is a finite number. -/
def finite (f c : Nat) : Bool :=
  match decodeFmt f c with
  | .fin _ _ _ => true
  | _ => false

/-- The new SCALE of a scaled row: the largest magnitude over max_elem, rounded up; 1 for a row of zeros. -/
def newScale (fmt : Nat) (theta : List Nat) : Nat :=
  match maxAbs (theta.map f32) with
  | .fin _ 0 _ => one32
  | .fin _ m e => (encodeQ 0 .up false false m (if fmt = 3 then 448 else if fmt = 4 then 57344 else 127) e).1
  | _ => one32

/-- The new SCALE and element codes of a row, with the encoder's events. -/
def encodeRowOf (fmt oldScale : Nat) (theta : List Nat) : Nat × List Nat × NumEv :=
  if scaledFmt fmt then
    let sc := newScale fmt theta
    let l := theta.map (fun t => encodeScaled fmt .rne false (f32 sc) (f32 t))
    (sc, l.map (·.1), l.foldl (fun a x => a.add x.2) {})
  else
    let l := theta.map (fun t => encodeNum fmt .rne false (f32 t))
    (oldScale, l.map (·.1), l.foldl (fun a x => a.add x.2) {})

/-- The new image of a row, with the encoder's events; none when a value is NaN or infinite (R466). -/
def newRow (u : List Byte) (fmt elems : Nat) (old grad : List Byte) : Option (List Byte × NumEv) :=
  let scale (k : Nat) : Nat :=
    if scaledFmt fmt then f32Mul (rowElem fmt old k) (rowScale fmt old) else rowElem fmt old k
  let theta := (List.range elems).map scale
  let g := (List.range elems).map (fun k => fieldAt grad (4 * k) 4)
  let s0 := 8 + rowD8 fmt elems
  let n := optState (ubOpt u) elems
  let r := optRow u theta g ((old.drop s0).take n)
  let x := encodeRowOf fmt (fieldAt old 4 4) r.1
  let ok := r.1.all (finite 0) && (List.range (r.2.length / 4)).all (fun i => finite 0 (fieldAt r.2 (4 * i) 4))
    && x.2.1.all (finite fmt)
  if ok then
    some (leBytes 4 ((fieldAt old 0 4 + 1) % 2 ^ 32) ++ leBytes 4 x.1
      ++ padTo (rowD8 fmt elems) (packCodes (fmtBits fmt) x.2.1) ++ r.2 ++ old.drop (s0 + n), x.2.2)
  else none

/-! ### The read-modify-write (R462, R466, R467) -/

/-- Record the first skip of a unit and raise its source. -/
def updError (s : State) (u kind addr writer : Nat) : State :=
  if s.on Reg.FUR_UPD_ERR_VALID [u] then s
  else
    let s := (s.wr Reg.FUR_UPD_ERR_KIND [u] kind).wr Reg.FUR_UPD_ERR_ROW [u] (addr / 64)
    hedgeLevel ((s.wr Reg.FUR_UPD_ERR_WRITER [u] writer).wr Reg.FUR_UPD_ERR_VALID [u] 1) (201 + 4 * u) true 0

/-- The acknowledgement of one row update (R459). -/
def ackUpdate (s : State) (x : FUpd) (skip fault : Bool) : State :=
  injectPkt s (ctlPacket 3 x.writer s.self x.agent 192 x.epoch
    (8 + 2 ^ 8 * (b2n skip + 2 * b2n fault) + 2 ^ 32 * 1))

/-- One row update: its turn has come. -/
def applyUpd (s : State) (u t : Nat) (x : FUpd) (ue : Bool) : State :=
  let d := s.dir t
  let a := s.rowAddr t x.row
  let s := hbmActivity s d.func (cdiv d.pitch 256)
  let s := if ue then hbmUe s (a / 32) 0 else s
  if s.hbmPoisoned a d.pitch then
    let s := hbmRecord (s.satInc Reg.FUR_UPD_SKIP_UE [u] 1) a d.pitch 6 d.func Status.jobFault.code
    ackUpdate (updError (furError s u a) u 0 a x.writer) x false true
  else
    match newRow x.hdr d.fmt d.elems (s.hbmRead a d.pitch) x.grad with
    | none => ackUpdate (updError (s.satInc Reg.FUR_UPD_SKIP_NONFINITE [u] 1) u 1 a x.writer) x true false
    | some (b, ev) =>
      let s := hbmActivity (hbmWrite s a b) d.func (cdiv d.pitch 256)
      let s := (s.satInc Reg.FUR_UPD_SKIP_SAT [u] ev.sat).wrapInc Reg.FUR_UPD_CNT_COUNT [u] 1
      ackUpdate (rwcDrop s (fun k r => k == d.tkey && r == x.row)) x false false

/-- ROW_UPDATE: the unit takes the next update whose turn has come, under the row's lock, from read to acknowledgement
in one step. -/
def rowUpdateOp (s : State) (u : Nat) (ue : Bool) : State :=
  match s.nextUpd u with
  | none => s
  | some x =>
    let s := s.setFur u { s.fur u with upds := (s.fur u).upds.erase x }
    match s.slotOfKey x.tkey with
    | some t => applyUpd s u t x ue
    | none => s

/-- ROW_UPDATE. -/
def execRowUpdate (u : Fin 6) (ue : Bool) (s : State) : Outcome State Fault Refusal :=
  nextQ (if s.coreUp then rowUpdateOp s u ue else s)

end Sys2Proof.Machine
end

