-- ==== Sys2Proof/Machine/Install.lean ====
section
/-! DEFINITION. Records that JOB_START and INSTALL put on a die (R209, R456, R500-R503): the checks of a bundle's GRAFT
and UPDATE sections, the space they take, and installing and removing them. -/

namespace Sys2Proof.Machine

open Host (Outcome)

/-! ### The GRAFT section (R500-R503) -/

/-- PLAN ID of a bundle. -/
def planId (b : List Byte) : Nat := fieldAt (sectionBytes b 9) 0 2

/-- The observing dies of a record. -/
def grObservers (r : List Byte) : List Nat := (List.range (fieldAt r 56 2)).map (fun i => fieldAt r (64 + i) 1)

/-- The scale tensor and the codebook bytes of a record, within the section. -/
def grTensor (g r : List Byte) : List Byte :=
  if (geRung r 0).mode = 1 then (g.drop (fieldAt r 44 4)).take (fieldAt r 48 4) else []
def cbTables (r : List Byte) : Nat :=
  (List.range (geRungs r)).foldl (fun m i => if isCb (geRung r i).fmt then max m ((geRung r i).table + 1) else m) 0
def grBooks (g r : List Byte) : List Byte := (g.drop (fieldAt r 52 4)).take (1024 * cbTables r)

/-- Codebook bytes as FP32 words. -/
def bookWords (l : List Byte) : List Nat := (List.range (l.length / 4)).map (fun i => fieldAt l (4 * i) 4)

/-- Whether two entries of a plan have a key in common on a unit (R501). -/
def keysMeet (x y : List Byte) : Bool :=
  let same (f : List Byte → Nat) : Bool := f x == f y
  let src := same geSrcDie && same geSrcPort
  let dst := same geDstDie && same geDstPort
  same geKind && same geAgent &&
    ((src && (if geKind x = 0 then same geEidx else same geDstDie)) || (dst && same geEidx))

/-- Whether a GRAFT record obeys R500, R502 and R503 within its section. -/
def grOk (g r : List Byte) : Bool :=
  let t := grTensor g r
  let inside := (geRung r 0).mode != 1 || decide (fieldAt r 44 4 + fieldAt r 48 4 ≤ g.length)
  let books := bookWords (grBooks g r)
  entryOk r && inside && allZero ((r.drop 58).take 6) && allZero (r.drop (64 + fieldAt r 56 2))
    && ((geRung r 0).mode != 1 ||
        (tensorOk r t && (match effScales (geRung r 0).fmt t with | .ok _ => true | .error _ => false)))
    && decide (fieldAt r 52 4 + 1024 * cbTables r ≤ g.length ∨ cbTables r = 0)
    && (List.range (geRungs r)).all (fun i =>
        let x := geRung r i
        !isCb x.fmt || bookOk ((books.drop (256 * x.table)).take (if x.fmt = 0xF then 16 else 256)))

/-- Whether the GRAFT section of a bundle is well formed (SUBCODE 4 of R200). -/
def graftSectionOk (b : List Byte) : Bool :=
  match sectionOf b 9 with
  | none => true
  | some _ =>
    let g := sectionBytes b 9
    let l := graftRecords b
    decide (16 ≤ g.length) && fieldAt g 2 2 == 0 && allZero ((g.drop 8).take 8)
      && l.all (fun r => decide (64 ≤ r.length) && grOk g r)
      && l.zipIdx.all (fun x => l.zipIdx.all (fun y =>
        decide (y.2 ≤ x.2) || (!keysMeet x.1 y.1
          && (geLayer x.1 != geLayer y.1 ||
              (geRungs x.1 == geRungs y.1 && (x.1.drop 20).take 16 == (y.1.drop 20).take 16)))))

/-! ### Entries of this die -/

/-- The units and roles that an entry has on this die: its source's egress, its destination's ingress, and an observing
entry on the unit of the port toward the source. -/
def State.entryRoles (s : State) (r : List Byte) (observers : List Nat) : List (Nat × Nat) :=
  (if geSrcDie r = s.self then [(geSrcPort r, 0)] else [])
    ++ (if geDstDie r = s.self then [(geDstPort r, 1)] else [])
    ++ (if observers.contains s.self then [(rtPort (s.rtEntry 0 (geSrcDie r)), 2)] else [])

/-- An entry as a unit holds it. -/
def newEntry (role plan job leader : Nat) (r tensor books : List Byte) : GEntry :=
  let f := (geRung r 0).fmt
  let sc := if role = 2 then [] else
    match effScales f tensor with
    | .ok l => if tensor.isEmpty then [] else l
    | .error _ => []
  { role := role, plan := plan, jobId := job, leader := leader, img := r.take 64, scales := sc,
    zp := !tensor.isEmpty && tensorZp f tensor, books := if role = 2 then [] else bookWords books }

/-- Entries and words that the loaded jobs which have not started keep reserved at unit `n` (R501). -/
def State.graftReserved (s : State) (n : Nat) : Nat × Nat :=
  (List.range 16).foldl (fun a j =>
    let x := s.job j
    if x.loaded ∧ x.state = 0 ∧ x.start.isNone then
      let g := sectionBytes x.bundle 9
      (graftRecords x.bundle).foldl (fun a r =>
        (s.entryRoles r (grObservers r)).foldl (fun a u =>
          if u.1 = n then (a.1 + 1, a.2 + (newEntry u.2 0 0 0 r (grTensor g r) (grBooks g r)).words) else a) a) a
    else a) (0, 0)

/-- Whether unit `n` has room for entries, keeping what is reserved when `keep`. -/
def State.graftRoom (s : State) (keep : Bool) (n k w : Nat) : Bool :=
  let r := if keep then s.graftReserved n else (0, 0)
  decide ((s.gentsOf n).length + r.1 + k ≤ graftSlots ∧ w + r.2 ≤ s.graftFree n)

/-- The lowest free slot of unit `n`. -/
def State.freeEntry (s : State) (n : Nat) : Option Nat := (List.range graftSlots).find? (fun i => (s.gent (256 * n + i)).isNone)

/-- Install an entry in every role it has here; none when a unit lacks the space. -/
def installEntry (s : State) (keep : Bool) (plan job leader : Nat) (r : List Byte) (observers : List Nat)
    (tensor books : List Byte) : Option State :=
  (s.entryRoles r observers).foldl (fun a u =>
    match a with
    | none => none
    | some s =>
      let e := newEntry u.2 plan job leader r tensor books
      if s.graftRoom keep u.1 1 e.words then
        (s.freeEntry u.1).map (fun i => showGraft (s.setGent (256 * u.1 + i) e) u.1)
      else none) (some s)

/-! ### The UPDATE section (R456) -/

/-- The UPDATE records of a bundle. -/
def updateRecords (b : List Byte) : List (List Byte) :=
  match sectionOf b 10 with
  | some (_, _, n) => varRecords (fun l => 16 + 16 * cdiv (fieldAt l 6 1 + fieldAt l 7 1) 16) n (sectionBytes b 10)
  | none => []

def upTkey (r : List Byte) : Nat := fieldAt r 0 4
def upGtag (r : List Byte) : Nat := fieldAt r 4 2
def upWriters (r : List Byte) : List Nat := (List.range (fieldAt r 6 1)).map (fun i => fieldAt r (16 + i) 1)
def upOwners (r : List Byte) : List Nat :=
  (List.range (fieldAt r 7 1)).map (fun i => fieldAt r (16 + fieldAt r 6 1 + i) 1)

/-- Whether a list rises strictly. -/
def ascends (l : List Nat) : Bool := (l.zip (l.drop 1)).all (fun e => decide (e.1 < e.2))

/-- Whether the UPDATE records are well formed (SUBCODE 5). -/
def updateSectionOk (b : List Byte) : Bool :=
  let l := updateRecords b
  l.all (fun r => allZero ((r.drop 8).take 8) && !(upWriters r).isEmpty && !(upOwners r).isEmpty
    && ascends (upWriters r) && ascends (upOwners r) && (upWriters r).all (fun d => (runDies b).contains d)
    && allZero (r.drop (16 + fieldAt r 6 1 + fieldAt r 7 1)))
  && ((l.map upTkey).dedup.length == l.length)

/-- Install an update plan on an owning die: the epoch of every writer advances and is granted (R209, R460). None when
no table of this die has the TKEY. -/
def installPlan (s : State) (r : List Byte) (job leader : Nat) (slot : Option Nat) : Option State :=
  if !(upOwners r).contains s.self then some s
  else
    match s.slotOfKey (upTkey r) with
    | none => none
    | some _ =>
      let k := upTkey r
      let ws : List Writer := (upWriters r).map (fun d => { die := d, epoch := epochNext (s.writerEpoch k d) })
      let x : Plan := { tkey := k, gtag := upGtag r, writers := ws, owners := upOwners r, jobId := job, leader := leader,
                        slot := slot, turnAt := s.now }
      let eps := ws.foldl (fun m w => FMap.put m (k * 256 + w.die) w.epoch) s.upd.epochs
      let s := { s with
        upd := { s.upd with plans := s.upd.plans.filter (fun y => y.tkey != k) ++ [x], epochs := eps }
        rwc := { s.rwc with epochs := FMap.erase s.rwc.epochs (upGtag r) } }
      some (ws.foldl (fun s w =>
        injectPkt s (ctlPacket 12 w.die s.self 192 192 w.epoch (1 + 2 ^ 32 * k))) s)

/-! ### A job's own records -/

/-- Step 1 of R209 for the records of this die's own bundle that name it. -/
def installOwn (s : State) (j : Nat) : Option State :=
  let b := (s.job j).bundle
  let g := sectionBytes b 9
  let a := (graftRecords b).foldl (fun a r =>
    a.bind (fun s => installEntry s false (planId b) (jobId b) s.self r (grObservers r) (grTensor g r) (grBooks g r)))
    (some s)
  (updateRecords b).foldl (fun a r => a.bind (fun s =>
    installPlan { s with upd := { s.upd with
      ordinals := if (upWriters r).contains s.self then FMap.set s.upd.ordinals 0 (upTkey r) 0 else s.upd.ordinals } }
      r (jobId b) s.self (some j))) a

/-- Take back what a job's own bundle installed here. -/
def removeOwn (s : State) (j : Nat) : State :=
  let s := dropJobEntries s (jobId (s.job j).bundle)
  dropLeaving { s with upd := { s.upd with plans := s.upd.plans.map (fun x =>
    if x.slot = some j then { x with leaving := true } else x) } }

/-! ### INSTALL streams (R209) -/

/-- A record of an INSTALL stream. -/
def installRecord (typ : Nat) (l : List Byte) : List Byte :=
  leBytes 4 typ ++ leBytes 4 l.length ++ fill 8 0 ++ padTo (16 * cdiv l.length 16) l

/-- The dies outside RUN that a bundle's records name. -/
def outsideDies (b : List Byte) : List Nat :=
  let named := (graftRecords b).flatMap (fun r => geSrcDie r :: geDstDie r :: grObservers r)
    ++ (updateRecords b).flatMap upOwners
  (List.range 256).filter (fun d => named.contains d && !(runDies b).contains d)

/-- The body of the stream for die `d`. -/
def installBody (b : List Byte) (d : Nat) : List Byte :=
  let g := sectionBytes b 9
  (graftRecords b).flatMap (fun r =>
    if (geSrcDie r :: geDstDie r :: grObservers r).contains d then
      let t := grTensor g r
      let k := grBooks g r
      installRecord 1 (r.take (64 + fieldAt r 56 2))
        ++ (if t.isEmpty then [] else installRecord 2 t) ++ (if k.isEmpty then [] else installRecord 2 k)
    else [])
  ++ (updateRecords b).flatMap (fun r => if (upOwners r).contains d then installRecord 3 r else [])

/-- The records of a stream body as (RTYPE, content). -/
def installRecords : Nat → List Byte → List (Nat × List Byte)
  | 0, _ => []
  | k + 1, l =>
    if l.length < 16 then []
    else
      let n := fieldAt l 4 4
      (fieldAt l 0 1, (l.drop 16).take n) :: installRecords k (l.drop (16 + 16 * cdiv n 16))

/-- Install the records of a stream in order: the state, how many were installed, and whether one did not fit. The
stream carries no PLAN ID, so that of its entries is `plan`. -/
def installAll (job leader plan : Nat) : List (Nat × List Byte) → State × Nat → State × Nat × Bool
  | [], a => (a.1, a.2, false)
  | (t, c) :: rest, a =>
    if t = 1 then
      let more := (rest.takeWhile (fun e => e.1 == 2)).map (·.2)
      let learned := (geRung c 0).mode == 1
      let tensor := if learned then more.headD [] else []
      let books := (if learned then more.drop 1 else more).headD []
      match installEntry a.1 true plan job leader c (grObservers c) tensor books with
      | some s => installAll job leader plan rest (s, a.2 + 1)
      | none => (a.1, a.2, true)
    else if t = 3 then
      match installPlan a.1 c job leader none with
      | some s => installAll job leader plan rest (s, a.2 + 1)
      | none => (a.1, a.2, true)
    else installAll job leader plan rest (a.1, if t = 2 then a.2 + 1 else a.2)

/-- INSTALL: the stream's records are installed and answered with one ACK. -/
def installOp (s : State) (l : List Packet) : State :=
  match l with
  | [] => s
  | q :: _ =>
    if q.typ ≠ 14 ∨ q.tfb 8 2 ≠ 3 then s
    else
      let port := s.arrivalPort q
      let s := takeStream s l
      if !streamOk l then badStream s l port
      else
        let body := streamBody l
        let r := installAll (q.tfb 10 4) q.srcDie (s.freeVal 16) (installRecords (body.length / 16) body) (s.freeNext, 0)
        sendAck r.1 q false r.2.2 r.2.1

/-- INSTALL. -/
def execInstall (l : List Packet) (s : State) : Outcome State Fault Refusal :=
  nextQ (if s.coreUp then installOp s l else takeStream s l)

end Sys2Proof.Machine
end

