-- ==== Sys2Proof/Machine/Sram.lean ====
section
/-! DEFINITION. Island SRAM (R526 and the SRAM map of 18_cloche_island) and the command lists of the Cloche Matrix
Engine as they stand in memory (R539). -/

namespace Sys2Proof.Machine

/-- Size of island SRAM and start of the retained region. -/
def sramSize : Nat := 0x100000
def retainedBase : Nat := 0xC0000

/-- A byte of SRAM. The code region reads as the image the boot ROM loaded (R79); a byte of another region that
nothing has written since its contents were lost reads a free value (R100). -/
def State.sramByte (s : State) (a : Nat) : Byte :=
  if a < 0x40000 then
    match s.boot.code with
    | some m => FMap.get m 0xFF a
    | none => Config.sramByte (2 * s.cloche.sramGen) a
  else
  match FMap.find s.cloche.sram a with
  | some b => b
  | none => if a < retainedBase then Config.sramByte (2 * s.cloche.sramGen) a
            else Config.sramByte (2 * s.cloche.retGen + 1) a

/-- `n` bytes of SRAM. -/
def State.sramRead (s : State) (a n : Nat) : List Byte := (List.range n).map (fun i => s.sramByte (a + i))

/-- Write bytes to the working and retained regions of SRAM; no command writes the code region (R528). -/
def sramPut (s : State) (a : Nat) : List Byte → State
  | [] => s
  | b :: r =>
    sramPut (if 0x40000 ≤ a ∧ a < sramSize then { s with cloche := { s.cloche with sram := FMap.put s.cloche.sram a b } } else s)
      (a + 1) r

/-- The code and working regions lose their contents (R100). -/
def sramLost (s : State) : State :=
  let c := s.cloche
  { s with
    cloche := { c with sram := FMap.dropWhere c.sram (fun a => decide (a < retainedBase)), sramGen := c.sramGen + 1 }
    boot := { s.boot with code := none } }

/-- All of SRAM loses its contents: the island rails failed (R526). -/
def sramLostAll (s : State) : State :=
  let c := s.cloche
  { s with
    cloche := { c with sram := [], sramGen := c.sramGen + 1, retGen := c.retGen + 1 }
    boot := { s.boot with code := none } }

/-! ### CME memory (R539): bit 31 of an address selects flash -/

/-- Whether an address range lies in the memory it names. -/
def memOk (addr n : Nat) : Bool :=
  if bitOf addr 31 then decide (addr % 2 ^ 31 + n ≤ 0x800000) else decide (addr + n ≤ sramSize)

/-- Bytes at an address. -/
def State.memRead (s : State) (addr n : Nat) : List Byte :=
  if bitOf addr 31 then s.flashRead (addr % 2 ^ 31) n else s.sramRead addr n

/-- Command `pc` of the list at `addr`. -/
def State.cmeCmd (s : State) (addr pc : Nat) : List Byte := s.memRead (addr + 32 * pc) 32

/-- Weight values of `n` codes packed under R329: 8 or 4 bits each. -/
def weightBytes (wfmt n : Nat) : Nat := if wfmt = 1 ∨ wfmt = 2 then (n + 1) / 2 else n

/-- The memory ranges that a command reads besides A and P: itself and its weights or table, and its codebook. -/
def cmeRanges (addr pc : Nat) (c : List Byte) : List (Nat × Nat) :=
  let m := fieldAt c 2 2
  let k := fieldAt c 4 2
  let wf := fieldAt c 1 1 % 4
  let w := fieldAt c 8 4
  let t := fieldAt c 24 4
  (addr + 32 * pc, 32) :: match fieldAt c 0 1 with
    | 1 => (w, m * weightBytes wf k) :: (if wf = 2 then [(t, 16)] else if wf = 3 then [(t, 256)] else [])
    | 2 => [(w, k * fieldAt c 6 2)]
    | 3 => [(w, 256)]
    | _ => []

/-- Whether the list from `pc` to END reads a flash range. -/
def State.listReads (s : State) (addr lo n : Nat) : Nat → Nat → Bool
  | 0, _ => false
  | fuel + 1, pc =>
    let c := s.cmeCmd addr pc
    (cmeRanges addr pc c).any (fun r => bitOf r.1 31 && decide (r.1 % 2 ^ 31 < lo + n ∧ lo < r.1 % 2 ^ 31 + r.2)) ||
      (fieldAt c 0 1 != 0 && State.listReads s addr lo n fuel (pc + 1))

/-- Whether the running CME list reads a flash range (R585). -/
def State.cmeHolds (s : State) (lo n : Nat) : Bool :=
  s.on Reg.CME_STAT_BUSY [] && s.listReads s.cloche.cmeAddr lo n 4096 s.cloche.cmePc

end Sys2Proof.Machine
end

