-- ==== Sys2Proof/Machine/Flash.lean ====
section
/-! DEFINITION. The flash controller's commands of 20_flash: erase and program through FLC_CTL (R570, R574), their
completion in each bank's queue (R569-R572), and delivery of an image in the recovery state (R588). -/

namespace Sys2Proof.Machine

open Host (Outcome)

/-- Controller causes of FLC_STAT.CAUSE. -/
def cNotBlank : Nat := 1
def cVerify : Nat := 2
def cWorn : Nat := 3
def cProtected : Nat := 4

/-- An operation ended: FLC_STAT.DONE and source 405. -/
def flashDone (s : State) : State := hedgeEvent (s.wr Reg.FLC_STAT_DONE [] 1) 405 0

/-- An operation failed at an address: FLC_STAT.FAIL with its cause, FLC_FAILADDR and source 406. -/
def flashFail (s : State) (cause addr : Nat) : State :=
  hedgeEvent (((s.wr Reg.FLC_STAT_FAIL [] 1).wr Reg.FLC_STAT_CAUSE [] cause).wr Reg.FLC_FAILADDR_ADDR [] addr) 406 0

/-- Whether sectors `a` to `a + n - 1` lie wholly in the model region (R568). -/
def modelSectors (a n : Nat) : Bool := decide (1088 ≤ a ∧ a + n ≤ 2048)

/-- The status that a failed operation posts for the command or message it serves (R221, R586). -/
def failStatus (cause : Nat) : Status := if cause = cWorn then .flashWorn else .flashVerify

/-- Drop every queued operation of an owner. -/
def dropOwner (s : State) (o : FlashOwner) : State :=
  let keep (x : FlashOp) : Bool := match x with | .erase p _ _ => p != o | .program p _ _ => p != o
  { s with flash := { s.flash with bank0 := s.flash.bank0.filter keep, bank1 := s.flash.bank1.filter keep } }

/-- Whether an owner still has an operation queued. -/
def State.ownsOp (s : State) (o : FlashOwner) : Bool :=
  (s.flash.bank0 ++ s.flash.bank1).any (fun x => match x with | .erase p _ _ => p == o | .program p _ _ => p == o)

/-- What follows the end of an owner's last operation. -/
def ownerDone (s : State) (o : FlashOwner) : State :=
  if s.ownsOp o then s
  else match o with
    | .cmd f i => s.finish f i .ok []
    | .mctp p => s.emit (.mctp p 0 [])
    | .spare => logCaughtUp (flushLogWait (setReserved s))
    | .rcv => { s with flash := { s.flash with rcvPhase := 2 } }
    | _ => s

/-- What follows a failure: the owner's other operations are dropped, and its command posts the status. A worn spare
is retired and the next log sector becomes the spare (R580). -/
def ownerFail (s : State) (o : FlashOwner) (cause value : Nat) : State :=
  let s := dropOwner s o
  match o with
  | .cmd f i => s.failCmd f i (failStatus cause) 0xFFFF 0 value
  | .mctp p => s.emit (.mctp p (failStatus cause).code (failBody 0xFFFF 0 value))
  | .rcv => { s with flash := { s.flash with rcvPhase := 4 } }
  | .spare =>
    let bad := value - 512
    let s := { s with flash := { s.flash with retired := bad :: s.flash.retired } }
    let s := s.wr Reg.FLC_LOGSTAT_RETIRED [] s.flash.retired.length
    let nxt := 512 + s.logNext bad
    queueFlash s nxt (.erase .spare nxt 1)
  | _ => s

/-- BUSY follows each bank's queue. -/
def busyFollows (s : State) : State :=
  (s.wrb Reg.FLC_STAT_BUSY0 [] !s.flash.bank0.isEmpty).wrb Reg.FLC_STAT_BUSY1 [] !s.flash.bank1.isEmpty

/-- The queue of a bank. -/
def State.bank (s : State) (b : Nat) : List FlashOp := if b = 0 then s.flash.bank0 else s.flash.bank1

/-- Replace the queue of a bank. -/
def State.setBank (s : State) (b : Nat) (q : List FlashOp) : State :=
  if b = 0 then { s with flash := { s.flash with bank0 := q } } else { s with flash := { s.flash with bank1 := q } }

/-- FLC_CTL.ERASE (R574). -/
def flcEraseOp (s : State) (src : Src) : State :=
  let a := s.rd Reg.FLC_ERASE_ADDR_SECTOR []
  let n := s.rd Reg.FLC_ERASE_COUNT_SECTORS []
  if s.on Reg.PWR_STAT_CUT [] then s
  else if src ≠ .bench ∧ !modelSectors a n then flashFail s cProtected (a * 4096)
  else queueFlash s a (.erase .register a n)

/-- FLC_CTL_ERASE. -/
def execFlcCtlErase (src : Src) (s : State) : Outcome State Fault Refusal :=
  .next (fwWrite s src (Reg.FLC_CTL_ERASE.addr []) (fun s => flcEraseOp s src))

/-- The segments of an operation: 64 bytes each. -/
def segments : Nat → List Byte → List (List Byte)
  | 0, _ => []
  | n + 1, l => padTo 64 l :: segments n (l.drop 64)

/-- FLC_CTL.PROGRAM (R570, R574): 1-64 consecutive segments within one sector, from island SRAM. -/
def flcProgramOp (s : State) (src : Src) : State :=
  let a := s.rd Reg.FLC_PROG_ADDR_SEG [] * 64
  let n := min (s.rd Reg.FLC_PROG_LEN_LEN1 [] + 1) (64 - a / 64 % 64)
  if s.on Reg.PWR_STAT_CUT [] then s
  else if src ≠ .bench ∧ !modelSectors (a / 4096) 1 then flashFail s cProtected a
  else queueFlash s (a / 4096)
    (.program .register a (segments n (s.sramRead (s.rd Reg.FLC_PROG_SRC_SRC []) (64 * n))))

/-- FLC_CTL_PROGRAM. -/
def execFlcCtlProgram (src : Src) (s : State) : Outcome State Fault Refusal :=
  .next (fwWrite s src (Reg.FLC_CTL_PROGRAM.addr []) (fun s => flcProgramOp s src))

/-- SECTOR_ERASE_COMPLETE (R571, R572): the erase at the head of the bank's queue ends its next sector, or is
refused as WORN; an erase of a range that a running CME list reads is deferred (R585). -/
def sectorEraseOp (s : State) (b : Nat) : State :=
  match s.bank b with
  | .erase o a n :: rest =>
    if s.cmeHolds (a * 4096) 4096 then s
    else if s.worn a then
      busyFollows (ownerFail (flashFail (s.setBank b rest) cWorn (a * 4096)) o cWorn a)
    else
      let s := eraseSector s a
      if 1 < n then s.setBank b (.erase o (a + 1) (n - 1) :: rest)
      else busyFollows (ownerDone (flashDone (s.setBank b rest)) o)
  | _ => s

/-- SECTOR_ERASE_COMPLETE. -/
def execSectorEraseComplete (b : Fin 2) (s : State) : Outcome State Fault Refusal := .next (sectorEraseOp s b)

/-- SEGMENT_PROGRAM_COMPLETE (R570): the next segment is programmed when it is blank, and read back; the operation
stops at its first failing segment. -/
def segmentProgramOp (s : State) (b : Nat) (verifyOk : Bool) : State :=
  match s.bank b with
  | .program o a (d :: ds) :: rest =>
    if s.cmeHolds a 64 then s
    else if !s.blank a then busyFollows (ownerFail (flashFail (s.setBank b rest) cNotBlank a) o cNotBlank a)
    else if !verifyOk then
      busyFollows (ownerFail (flashFail ((undefSegment s (a / 64)).setBank b rest) cVerify a) o cVerify a)
    else
      let s := programSegment s a d
      if ds.isEmpty then busyFollows (ownerDone (flashDone (s.setBank b rest)) o)
      else s.setBank b (.program o (a + 64) ds :: rest)
  | _ => s

/-- SEGMENT_PROGRAM_COMPLETE. -/
def execSegmentProgramComplete (b : Fin 2) (verifyOk : Bool) (s : State) : Outcome State Fault Refusal :=
  .next (segmentProgramOp s b verifyOk)

/-! ### Recovery delivery (R588) -/

/-- Whether the boot ROM answers recovery commands (R78). -/
def State.inRecovery (s : State) : Bool := s.rd Reg.TOP_BOOTSTAT_STATE [] == 3

/-- First address of a boot block. -/
def blockAddr (blk : Nat) : Nat := if blk = 0 then 0 else 0x400000

/-- RCV_STATUS: 8 bytes. -/
def rcvStatusOp (s : State) (pecOk : Bool) : State :=
  if !s.inRecovery then s
  else if !pecOk then s.emit (.nack 0)
  else s.emit (.smbus 0 (leBytes 1 s.flash.rcvPhase ++ leBytes 1 s.flash.rcvBlock ++ leBytes 1 s.flash.rcvReason
    ++ leBytes 1 0 ++ leBytes 4 (128 * s.flash.rcvSeen.length)))

/-- RCV_STATUS. -/
def execRcvStatus (pecOk : Bool) (s : State) : Outcome State Fault Refusal := .next (rcvStatusOp s pecOk)

/-- RCV_BEGIN: erase the block; PHASE is busy until every sector is erased, then receiving. -/
def rcvBeginOp (s : State) (data : List Byte) (pecOk : Bool) : State :=
  if !s.inRecovery then s
  else if !pecOk ∨ data.length ≠ 1 ∨ 1 < fieldAt data 0 1 then s.emit (.nack 0)
  else
    let blk := fieldAt data 0 1
    let s := { s with flash := { s.flash with rcvPhase := 1, rcvBlock := blk, rcvSeen := [], rcvReason := 0 } }
    queueFlash s (blockAddr blk / 4096) (.erase .rcv (blockAddr blk / 4096) 64)

/-- RCV_BEGIN. -/
def execRcvBegin (data : List Byte) (pecOk : Bool) (s : State) : Outcome State Fault Refusal :=
  .next (rcvBeginOp s data pecOk)

/-- RCV_DATA: 128 bytes at an offset; a repeated or out-of-range OFFSET sets PHASE invalid. -/
def rcvDataOp (s : State) (data : List Byte) (pecOk : Bool) : State :=
  if !s.inRecovery then s
  else if !pecOk ∨ data.length ≠ 132 ∨ s.flash.rcvPhase ≠ 2 then s.emit (.nack 0)
  else
    let o := fieldAt data 0 4
    let a := blockAddr s.flash.rcvBlock + o
    if o % 128 ≠ 0 ∨ 0x40000 ≤ o ∨ s.flash.rcvSeen.contains o ∨ !s.blank a ∨ !s.blank (a + 64) then
      { s with flash := { s.flash with rcvPhase := 4 } }
    else
      let s := programSegment (programSegment s a ((data.drop 4).take 64)) (a + 64) (data.drop 68)
      { s with flash := { s.flash with rcvSeen := o :: s.flash.rcvSeen } }

/-- RCV_DATA. -/
def execRcvData (data : List Byte) (pecOk : Bool) (s : State) : Outcome State Fault Refusal :=
  .next (rcvDataOp s data pecOk)

/-- RCV_COMMIT: a valid image gets a TRIAL swap record. -/
def rcvCommitOp (s : State) (data : List Byte) (pecOk : Bool) (img : ImageCheck) : State :=
  if !s.inRecovery then s
  else if !pecOk ∨ data.length ≠ 1 ∨ fieldAt data 0 1 ≠ 0 ∨ s.flash.rcvPhase ≠ 2 then s.emit (.nack 0)
  else if img.reason ≠ 0 then
    { s with flash := { s.flash with rcvPhase := 4, rcvReason := img.reason } }
  else
    let (s, ok) := writeSwap s ⟨0, s.flash.rcvBlock, true, 0, 2, img.version, s.boot.bootCount⟩
    { s with flash := { s.flash with rcvPhase := if ok then 3 else 4 } }

/-- RCV_COMMIT. -/
def execRcvCommit (data : List Byte) (pecOk : Bool) (img : ImageCheck) (s : State) : Outcome State Fault Refusal :=
  .next (rcvCommitOp s data pecOk img)

end Sys2Proof.Machine
end

