-- ==== Sys2Proof/Machine/Cloche.lean ====
section
/-! DEFINITION. The Cloche island of 18_cloche_island: LISTEN (R523-R525), the time base and the tick (R104, R527),
RTC (R531), timers (R532, R533), GPIO (R534), SPI (R536), PDM (R537), the Cloche Matrix Engine (R538-R541) and the
Bench core's debug registers (R529). -/

namespace Sys2Proof.Machine

open Host (Outcome)

/-! ### LISTEN (R523-R527) -/

/-- Whether the island is in LISTEN. -/
def State.listening (s : State) : Bool := s.rd Reg.CLO_STATE_STATE [] == 2

/-- Whether an enabled wake source of R525 is already pending. -/
def State.wakePending (s : State) : Bool :=
  (s.on Reg.CLO_LISTEN_GPI [] && s.on Reg.CLO_GPI_LATCH_LATCH []) ||
  (s.on Reg.CLO_LISTEN_RTC [] && (s.cloche.alarmDue || s.on Reg.HDG_SRC_PENDING [396])) ||
  (s.on Reg.CLO_LISTEN_TIMER [] && (!s.cloche.tmrDue.isEmpty
    || (List.range 8).any (fun n => s.on Reg.HDG_SRC_PENDING [384 + n]))) ||
  s.on Reg.PWR_STAT_CUT []

/-- A write of CLO_LISTEN.ENTER (R524). -/
def listenEnterOp (s : State) : State :=
  if s.on Reg.TOP_PINSTAT_MAIN_EN [] ∨ s.wakePending then s
  else (s.wr Reg.CLO_STATE_STATE [] 2).wr Reg.CLO_STATE_REF_OK [] 0

/-- LISTEN_ENTER. -/
def execListenEnter (src : Src) (s : State) : Outcome State Fault Refusal :=
  .next (fwWrite s src (Reg.CLO_LISTEN_ENTER.addr []) listenEnterOp)

/-- The cause that CLO_STATE.WAKE records (R525). -/
def WakeSource.code : WakeSource → Nat
  | .gpi _ => 1 | .rtc => 2 | .timer _ => 3 | .smbus => 4 | .powerCut => 5

/-- Whether a wake source is enabled in CLO_LISTEN; the power cut always is. -/
def State.wakeEnabled (s : State) : WakeSource → Bool
  | .gpi n => s.on Reg.CLO_LISTEN_GPI [] && bitOf (s.rd Reg.CLO_GPI_LATCH_LATCH []) n
  | .rtc => s.on Reg.CLO_LISTEN_RTC []
  | .timer _ => s.on Reg.CLO_LISTEN_TIMER []
  | .smbus => s.on Reg.CLO_LISTEN_SMBUS []
  | .powerCut => s.on Reg.PWR_STAT_CUT []

/-- LISTEN_WAKE: the first enabled wake source ends LISTEN. -/
def listenWakeOp (s : State) (w : WakeSource) : State :=
  if s.listening && s.wakeEnabled w then
    (s.wr Reg.CLO_STATE_STATE [] 0).wr Reg.CLO_STATE_WAKE [] (WakeSource.code w)
  else s

/-- LISTEN_WAKE. -/
def execListenWake (w : WakeSource) (s : State) : Outcome State Fault Refusal := .next (listenWakeOp s w)

/-- REFERENCE_STABLE (R527): outside LISTEN the 25 MHz reference counts again. -/
def referenceStableOp (s : State) : State :=
  if s.boot.rails && s.boot.osc && !s.listening then s.wr Reg.CLO_STATE_REF_OK [] 1 else s

/-- REFERENCE_STABLE. -/
def execReferenceStable (s : State) : Outcome State Fault Refusal := .next (referenceStableOp s)

/-! ### Timers (R532, R533) -/

/-- Note an expiry when a timer's count equals CMP. -/
def timerCompare (s : State) (n : Nat) : State :=
  if s.rd Reg.CLO_TMR_CNT_COUNT [n] = s.rd Reg.CLO_TMR_CMP_VALUE [n] then
    { s with cloche := { s.cloche with tmrDue := s.cloche.tmrDue ++ [n] } }
  else s

/-- One time-base count of timer `n`: it advances once every 2^PRESCALE counts, and after RELOAD returns to 0 or
stops. -/
def timerCount (s : State) (n : Nat) : State :=
  if !s.on Reg.CLO_TMR_CTL_EN [n] then s
  else
    let sub := FMap.get s.cloche.tmrSub 0 n + 1
    if sub < 2 ^ s.rd Reg.CLO_TMR_CTL_PRESCALE [n] then
      { s with cloche := { s.cloche with tmrSub := FMap.set s.cloche.tmrSub 0 n sub } }
    else
      let s := { s with cloche := { s.cloche with tmrSub := FMap.set s.cloche.tmrSub 0 n 0 } }
      let c := s.rd Reg.CLO_TMR_CNT_COUNT [n]
      if s.rd Reg.CLO_TMR_RELOAD_VALUE [n] ≤ c then
        if s.on Reg.CLO_TMR_CTL_PERIODIC [n] then timerCompare (s.wr Reg.CLO_TMR_CNT_COUNT [n] 0) n
        else s.wr Reg.CLO_TMR_CTL_EN [n] 0
      else timerCompare (s.wr Reg.CLO_TMR_CNT_COUNT [n] (c + 1)) n

/-- `k` time-base counts of every timer. -/
def timersCount : Nat → State → State
  | 0, s => s
  | k + 1, s => timersCount k ((List.range 8).foldl timerCount s)

/-- TIMER_EXPIRY: the count has reached CMP, so EXPIRIES counts and the timer's source is raised. -/
def timerExpiryOp (s : State) (n : Nat) : State :=
  if s.cloche.tmrDue.contains n then
    let s := { s with cloche := { s.cloche with tmrDue := s.cloche.tmrDue.erase n } }
    let s := s.satInc Reg.CLO_TMR_CTL_EXPIRIES [n] 1
    hedgeEvent s (384 + n) (s.rd Reg.CLO_TMR_CTL_EXPIRIES [n])
  else s

/-- TIMER_EXPIRY. -/
def execTimerExpiry (n : Fin 8) (s : State) : Outcome State Fault Refusal := .next (timerExpiryOp s n)

/-- A write of EN = 1: a stopped timer counts from 0. -/
def timerEnableOp (s : State) (n : Nat) : State :=
  if s.on Reg.CLO_TMR_CTL_EN [n] then s
  else
    let s := { s with cloche := { s.cloche with tmrSub := FMap.set s.cloche.tmrSub 0 n 0 } }
    timerCompare ((s.wr Reg.CLO_TMR_CNT_COUNT [n] 0).wr Reg.CLO_TMR_CTL_EN [n] 1) n

/-- TIMER_ENABLE. -/
def execTimerEnable (src : Src) (n : Fin 8) (s : State) : Outcome State Fault Refusal :=
  .next (fwWrite s src (Reg.CLO_TMR_CTL_EN.addr [n]) (fun s => timerEnableOp s n))

/-- TIMER_DISABLE: a write of EN = 0 stops the timer and keeps its count. -/
def execTimerDisable (src : Src) (n : Fin 8) (s : State) : Outcome State Fault Refusal :=
  .next (fwWrite s src (Reg.CLO_TMR_CTL_EN.addr [n]) (fun s => s.wr Reg.CLO_TMR_CTL_EN [n] 0))

/-- EXP_CLR: clears EXPIRIES. -/
def execExpClr (src : Src) (n : Fin 8) (s : State) : Outcome State Fault Refusal :=
  .next (fwWrite s src (Reg.CLO_TMR_CTL_EXP_CLR.addr [n]) (fun s => s.wr Reg.CLO_TMR_CTL_EXPIRIES [n] 0))

/-! ### The tick: one count of the time base on an empty queue (R104), or one RTC period while the reference is
stopped (R527) -/

/-- Advance the RTC's sub-second count by `k` time-base counts at the nominal ratio; RTC_TICK ends the second. -/
def rtcSubAdvance (s : State) (k : Nat) : State :=
  let a := s.cloche.rtcAcc + 32768 * k
  let s := { s with cloche := { s.cloche with rtcAcc := a % 25000000 } }
  s.wr Reg.CLO_RTC_SUB_SUB [] (min 32767 (s.rd Reg.CLO_RTC_SUB_SUB [] + a / 25000000))

/-- The hold-up sequence ends at most 400 us after the cut (R611): HOLDUP shows done. -/
def holdupEnds (s : State) : State :=
  if s.boot.holdup ∧ s.boot.cutAt + usCounts 400 ≤ s.now then
    { (if s.rd Reg.PWR_STAT_HOLDUP [] = 1 then s.wr Reg.PWR_STAT_HOLDUP [] 2 else s) with
      boot := { s.boot with holdup := false } }
  else s

/-- Running firmware increments HEARTBEAT at least once in each millisecond (R529): by 1 more than a free value. -/
def heartbeat (s t : State) : State :=
  if s.now / 25000 ≠ t.now / 25000 ∧ t.fwRuns ∧ !t.listening then
    (t.wrapInc Reg.CLO_FWSTAT_HEARTBEAT [] (1 + t.freeVal 8)).freeNext
  else t

/-- What passes on an empty queue. -/
def tick (s : State) : State :=
  if !s.boot.rails ∨ !s.boot.porstN then s
  else heartbeat s (if s.on Reg.CLO_STATE_REF_OK [] then
    holdupEnds (rtcSubAdvance (timersCount 1 (s.wrapInc Reg.TOP_TIMEBASE_COUNT [] 1)) 1)
  else
    let a := s.cloche.listenAcc + 30784
    let k := 762 + a / 32768
    let s := { s with cloche := { s.cloche with listenAcc := a % 32768 } }
    let s := timersCount k (s.wrapInc Reg.TOP_TIMEBASE_COUNT [] k)
    holdupEnds (s.wr Reg.CLO_RTC_SUB_SUB [] (min 32767 (s.rd Reg.CLO_RTC_SUB_SUB [] + 1))))

/-! ### RTC (R531) -/

/-- The alarm fires once when the second is reached with ALARM_EN set. -/
def alarmCompare (s : State) : State :=
  if s.on Reg.CLO_RTC_CTL_ALARM_EN [] ∧ s.rd Reg.CLO_RTC_SEC_SEC [] = s.rd Reg.CLO_RTC_ALARM_SEC [] then
    { s with cloche := { s.cloche with alarmDue := true } }
  else s

/-- RTC_TICK: one second passes; with accounting on, a second that is a multiple of DEMAND_S ends the interval
(R603). -/
def rtcTickOp (s : State) : State :=
  if !s.boot.rails then s
  else
    let s := (s.wrapInc Reg.CLO_RTC_SEC_SEC [] 1).wr Reg.CLO_RTC_SUB_SUB [] 0
    let s := alarmCompare { s with cloche := { s.cloche with rtcAcc := 0 } }
    if s.on Reg.PWR_CTL_ACCT_EN [] ∧ !s.on Reg.PWR_STAT_CUT [] ∧ s.demandS ≠ 0
        ∧ s.rd Reg.CLO_RTC_SEC_SEC [] % s.demandS = 0 then
      { s with gov := { s.gov with closeDue := true } }
    else s

/-- RTC_TICK. -/
def execRtcTick (s : State) : Outcome State Fault Refusal := .next (rtcTickOp s)

/-- RTC_ALARM: the RTC alarm source is raised. -/
def rtcAlarmOp (s : State) : State :=
  if s.cloche.alarmDue then
    hedgeEvent { s with cloche := { s.cloche with alarmDue := false } } 396 (s.rd Reg.CLO_RTC_SEC_SEC [])
  else s

/-- RTC_ALARM. -/
def execRtcAlarm (s : State) : Outcome State Fault Refusal := .next (rtcAlarmOp s)

/-- RTC_CRYSTAL_STOP (R64). -/
def execRtcCrystalStop (s : State) : Outcome State Fault Refusal :=
  .next (if s.boot.rails then s.wr Reg.TOP_PINSTAT_RTC_SRC [] 1 else s)

/-! ### Watchdog (R530) -/

/-- KICK restarts the watchdog. -/
def kickOp (s : State) : State :=
  { s with cloche := { s.cloche with wdtAt := s.now + msCounts (s.rd Reg.CLO_WDT_TIMEOUT_MS []) } }

/-- KICK. -/
def execKick (src : Src) (s : State) : Outcome State Fault Refusal :=
  .next (fwWrite s src (Reg.CLO_WDT_KICK.addr []) kickOp)

/-! ### GPIO (R534) -/

/-- Fields of CLO_GPI_CTL and CLO_GPI_CNT for input `n`. -/
def gpiSense (n : Nat) : Field := { Reg.CLO_GPI_CTL_SENSE0 with lo := 3 * n }
def gpiEn (n : Nat) : Field := { Reg.CLO_GPI_CTL_EN0 with lo := 3 * n + 2 }
def gpiCnt (n : Nat) : Field := { Reg.CLO_GPI_CNT_CNT0 with lo := 8 * n }

/-- Replace bit `n` of a number. -/
def putBit (v n : Nat) (b : Bool) : Nat := v - v / 2 ^ n % 2 * 2 ^ n + (if b then 2 ^ n else 0)

/-- GPI_EDGE: the input changes level; an enabled edge sets its latch and is counted, and the latch's level raises
the source. -/
def gpiEdgeOp (s : State) (n : Nat) (level : Bool) : State :=
  if !s.boot.rails ∨ bitOf (s.rd Reg.CLO_GPI_LVL_LVL []) n = level then s
  else
    let s := s.wr Reg.CLO_GPI_LVL_LVL [] (putBit (s.rd Reg.CLO_GPI_LVL_LVL []) n level)
    let se := s.rd (gpiSense n) []
    if s.on (gpiEn n) [] && (if level then bitOf se 0 else bitOf se 1) then
      let s := s.wr Reg.CLO_GPI_LATCH_LATCH [] (putBit (s.rd Reg.CLO_GPI_LATCH_LATCH []) n true)
      let s := s.satInc (gpiCnt n) [] 1
      hedgeLevel s (392 + n) true (s.rd (gpiCnt n) [])
    else s

/-- GPI_EDGE. -/
def execGpiEdge (n : Fin 4) (level : Bool) (s : State) : Outcome State Fault Refusal := .next (gpiEdgeOp s n level)

/-- A W1C write of CLO_GPI_LATCH: cleared latches release their sources. -/
def gpiLatchClear (s : State) (mask : Nat) : State :=
  (List.range 4).foldl (fun s n =>
    if bitOf mask n then
      hedgeLevel (s.wr Reg.CLO_GPI_LATCH_LATCH [] (putBit (s.rd Reg.CLO_GPI_LATCH_LATCH []) n false)) (392 + n) false 0
    else s) s

/-! ### SPI and PDM (R536, R537) -/

/-- Write bytes of the working region only (R528, R536). -/
def workPut (s : State) (a : Nat) : List Byte → State
  | [] => s
  | b :: r => workPut (if 0x40000 ≤ a ∧ a < retainedBase then sramPut s a [b] else s) (a + 1) r

/-- SPI_START: a transfer of LEN bytes begins, sending the buffer. -/
def spiStartOp (s : State) : State :=
  if s.on Reg.CLO_SPI_CTL_BUSY [] then s
  else
    let n := s.rd Reg.CLO_SPI_CTL_LEN1 [] + 1
    (s.wr Reg.CLO_SPI_CTL_BUSY [] 1).emit (.spi (s.sramRead (s.rd Reg.CLO_SPI_ADDR_ADDR []) (min n 4096)))

/-- SPI_START. -/
def execSpiStart (src : Src) (s : State) : Outcome State Fault Refusal :=
  .next (fwWrite s src (Reg.CLO_SPI_CTL_START.addr []) spiStartOp)

/-- SPI_COMPLETE: the bytes received stand in the buffer and the completion source is raised. -/
def spiCompleteOp (s : State) (miso : List Byte) : State :=
  if s.on Reg.CLO_SPI_CTL_BUSY [] then
    let n := min (s.rd Reg.CLO_SPI_CTL_LEN1 [] + 1) 4096
    let s := workPut s (s.rd Reg.CLO_SPI_ADDR_ADDR []) (padTo n miso)
    hedgeEvent (s.wr Reg.CLO_SPI_CTL_BUSY [] 0) 397 0
  else s

/-- SPI_COMPLETE. -/
def execSpiComplete (miso : List Byte) (s : State) : Outcome State Fault Refusal := .next (spiCompleteOp s miso)

/-- PDM_SAMPLE: a 16-bit sample goes into the ring, or is dropped and counted when the ring is full or the seam of
an exchange runs (R545). -/
def pdmSampleOp (s : State) (n sample : Nat) : State :=
  if !s.on Reg.CLO_PDM_CTL_EN [n] then s
  else
    let size := s.rd Reg.CLO_PDM_CTL_SIZE [n] * 64
    let wr := s.rd Reg.CLO_PDM_RD_WR [n]
    let nxt := if wr + 2 < size then wr + 2 else 0
    let drop : Field := if n = 0 then Reg.CLO_PDM_STAT_DROP0 else Reg.CLO_PDM_STAT_DROP1
    if s.on Reg.CLO_FWSTAT_SEAM [] ∨ size = 0 ∨ nxt = s.rd Reg.CLO_PDM_RD_RD [n] then s.satInc drop [] 1
    else
      let s := workPut s (s.rd Reg.CLO_PDM_CTL_BASE [n] * 1024 + wr) (leBytes 2 sample)
      let s := s.wr Reg.CLO_PDM_RD_WR [n] nxt
      if nxt % 1024 = 0 then hedgeEvent s (398 + n) nxt else s

/-- PDM_SAMPLE. -/
def execPdmSample (n : Fin 2) (sample : Nat) (s : State) : Outcome State Fault Refusal :=
  .next (pdmSampleOp s n (sample % 65536))

/-! ### The Cloche Matrix Engine (R538-R541) -/

/-- Start a list (R539); a list that reads a range with a queued flash operation is not started by firmware (R585). -/
def cmeBegin (s : State) (addr : Nat) : State :=
  if s.on Reg.CME_STAT_BUSY [] then s.wr Reg.CME_STAT_OVERRUN [] 1
  else
    let s := ((s.wr Reg.CME_STAT_BUSY [] 1).wr Reg.CME_STAT_ERR [] 0).wr Reg.CME_STAT_PC [] 0
    { s with cloche := { s.cloche with cmeAddr := addr, cmePc := 0, cmeLast := 0 } }

/-- The flash sectors with a queued or running operation. -/
def State.queuedRanges (s : State) : List (Nat × Nat) :=
  (s.flash.bank0 ++ s.flash.bank1).map (fun o => match o with
    | .erase _ a n => (a * 4096, n * 4096)
    | .program _ a d => (a, 64 * d.length))

/-- CME_START. -/
def cmeStartOp (s : State) (src : Src) : State :=
  let a := s.rd Reg.CME_LIST_ADDR []
  if src = .bench ∧ !s.on Reg.CME_STAT_BUSY [] ∧ s.queuedRanges.any (fun r => s.listReads a r.1 r.2 4096 0) then s
  else cmeBegin s a

/-- CME_START. -/
def execCmeStart (src : Src) (s : State) : Outcome State Fault Refusal :=
  .next (fwWrite s src (Reg.CME_CTL_START.addr []) (fun s => cmeStartOp s src))

/-- The list stops at a fault (R541). -/
def cmeFault (s : State) (err : Nat) : State :=
  let pc := s.cloche.cmePc
  let s := ((s.wr Reg.CME_STAT_BUSY [] 0).wr Reg.CME_STAT_ERR [] err).wr Reg.CME_STAT_PC [] pc
  hedgeEvent s 401 (err + 2 ^ 16 * pc)

/-- Clamp to the I8 range. -/
def clamp8 (x : Int) : Int := max (-128) (min 127 x)

/-- The byte code of an I8 value. -/
def i8code (x : Int) : Byte := BitVec.ofInt 8 x

/-- The I8 value of a byte. -/
def byteInt (b : Byte) : Int := b.toInt

/-- Weight `k` of a row of codes (R539). -/
def cmeWeight (wfmt : Nat) (row table : List Byte) (k : Nat) : Int :=
  match wfmt with
  | 0 => byteInt (row.getD k 0)
  | 3 => byteInt (table.getD (row.getD k 0).toNat 0)
  | _ =>
    let nib := bitsOf (row.getD (k / 2) 0).toNat (4 * (k % 2)) 4
    if wfmt = 1 then (if nib < 8 then (nib : Int) else (nib : Int) - 16) else byteInt (table.getD nib 0)

/-- The requantised output of R540. -/
def requant (acc b g : Int) (sh : Nat) (zp : Int) (relu : Bool) : Int :=
  let r : Int := if sh = 0 then 0 else 2 ^ (sh - 1)
  let y := clamp8 ((((acc + b) * g + r) / 2 ^ sh) + zp)
  if relu then max zp y else y

/-- A signed 32-bit field. -/
def i32At (l : List Byte) (o : Nat) : Int :=
  let v := fieldAt l o 4
  if v < 2 ^ 31 then (v : Int) else (v : Int) - 2 ^ 32

/-- The cause that stops a command before it runs, 0 for none: 1 OP, 3 a reserved field, 4 S or G, 5 an address. -/
def State.cmeErr (s : State) (c : List Byte) : Nat :=
  let op := fieldAt c 0 1
  let wf := fieldAt c 1 1 % 4
  let m := fieldAt c 2 2
  let k := fieldAt c 4 2
  let n := fieldAt c 6 2
  let w := fieldAt c 8 4
  let a := fieldAt c 12 4
  let o := fieldAt c 16 4
  let p := fieldAt c 20 4
  let t := fieldAt c 24 4
  let sram (x len : Nat) : Bool := decide (x + len ≤ sramSize)
  let outOk (x len : Nat) : Bool := decide (0x40000 ≤ x ∧ x + len ≤ sramSize)
  if 5 < op then 1
  else if bitsOf (fieldAt c 1 1) 3 5 ≠ 0 ∨ fieldAt c 31 1 ≠ 0 ∨ (op ≠ 5 ∧ fieldAt c 29 2 ≠ 0) then 3
  else match op with
    | 1 =>
      if !memOk w (m * weightBytes wf k) ∨ !sram a (k * n) ∨ !outOk o (m * n) ∨ !memOk p (12 * m)
          ∨ (wf = 2 ∧ !memOk t 16) ∨ (wf = 3 ∧ !memOk t 256) then 5
      else
        let ent (i : Nat) : List Byte := s.memRead (p + 12 * i) 12
        if (List.range m).any (fun i => fieldAt (ent i) 9 3 != 0) then 3
        else if (List.range m).any (fun i => decide (62 < fieldAt (ent i) 8 1 ∨ i32At (ent i) 4 ≤ 0)) then 4
        else 0
    | 2 => if !memOk w (k * n) ∨ !sram a (k * n) ∨ !outOk o (k * n) then 5 else 0
    | 3 => if !memOk w 256 ∨ !sram a (k * n) ∨ !outOk o (k * n) then 5 else 0
    | 4 => if !sram a (k * n) ∨ !outOk o (k * n) then 5 else 0
    | _ => 0

/-- The output bytes of a command (R540). -/
def State.cmeOut (s : State) (c : List Byte) : List Byte :=
  let m := fieldAt c 2 2
  let k := fieldAt c 4 2
  let n := fieldAt c 6 2
  let wf := fieldAt c 1 1 % 4
  let relu := bitOf (fieldAt c 1 1) 2
  let zp := sbyte (fieldAt c 28 1)
  let w := fieldAt c 8 4
  let a := fieldAt c 12 4
  match fieldAt c 0 1 with
  | 1 =>
    let table := if wf = 2 then s.memRead (fieldAt c 24 4) 16 else if wf = 3 then s.memRead (fieldAt c 24 4) 256 else []
    let rows := (List.range m).map (fun i => s.memRead (w + i * weightBytes wf k) (weightBytes wf k))
    let ents := (List.range m).map (fun i => s.memRead (fieldAt c 20 4 + 12 * i) 12)
    (List.range n).flatMap (fun j =>
      let col := s.sramRead (a + j * k) k
      List.zipWith (fun row e =>
        let acc := (List.range k).foldl (fun x i => x + cmeWeight wf row table i * byteInt (col.getD i 0)) 0
        i8code (requant acc (i32At e 0) (i32At e 4) (fieldAt e 8 1) zp relu)) rows ents)
  | 2 => List.zipWith (fun x y => i8code (clamp8 (byteInt x + byteInt y - zp)))
      (s.sramRead a (k * n)) (s.memRead w (k * n))
  | 3 => (s.sramRead a (k * n)).map (fun x => s.memRead (w + (byteInt x + 128).toNat) 1 |>.headD 0)
  | 4 => s.sramRead a (k * n)
  | _ => []

/-- Whether a command reads a flash bank that is busy (R571). -/
def State.cmeWaits (s : State) (c : List Byte) : Bool :=
  (cmeRanges s.cloche.cmeAddr s.cloche.cmePc c).any (fun r => bitOf r.1 31 &&
    (if r.1 % 2 ^ 31 < 0x400000 then !s.flash.bank0.isEmpty else !s.flash.bank1.isEmpty))

/-- Whether an uncorrectable segment lies in what a command reads. -/
def State.cmeHit (s : State) (c : List Byte) (ecc : FlashEcc) : Bool :=
  match ecc.bad with
  | none => false
  | some g => (cmeRanges s.cloche.cmeAddr s.cloche.cmePc c).any (fun r => bitOf r.1 31 &&
      decide (g.val * 64 < r.1 % 2 ^ 31 + r.2 ∧ r.1 % 2 ^ 31 < g.val * 64 + 64))

/-- Flash error counts of one read (R573). -/
def flashEccCount (s : State) (ecc : FlashEcc) : State :=
  let s := s.satInc Reg.FLC_ECC_CE [] ecc.corrected
  match ecc.bad with
  | some g => (s.satInc Reg.FLC_ECC_UE [] 1).wr Reg.FLC_FAILADDR_ADDR [] (64 * g.val)
  | none => s

/-- Run the command at the list's index when its OP is `op`; an undefined OP stops the list whichever is named. -/
def cmeStepOp (s : State) (op : Nat) (ecc : FlashEcc) : State :=
  if !s.on Reg.CME_STAT_BUSY [] then s
  else if !memOk (s.cloche.cmeAddr + 32 * s.cloche.cmePc) 32 then cmeFault s 5
  else
    let c := s.cmeCmd s.cloche.cmeAddr s.cloche.cmePc
    let o := fieldAt c 0 1
    if o ≠ op ∧ o ≤ 5 then s
    else if s.cmeWaits c then s
    else if s.cmeHit c ecc then cmeFault (flashEccCount s ecc) 5
    else
      let s := flashEccCount s { ecc with bad := none }
      let e := s.cmeErr c
      if e ≠ 0 then cmeFault s e
      else if o = 0 then
        hedgeLevel ((s.wr Reg.CME_STAT_BUSY [] 0).wr Reg.CME_STAT_DONE [] 1) 400 true 0
      else
        let out := s.cmeOut c
        let s := if o = 1 then s.wrapInc Reg.CME_MACS_COUNT [] (fieldAt c 2 2 * fieldAt c 4 2 * fieldAt c 6 2) else s
        let s := sramPut s (fieldAt c 16 4) out
        let s := if o = 5 then hedgeEvent s 402 (fieldAt c 29 2) else s
        { s with cloche := { s.cloche with
            cmePc := s.cloche.cmePc + 1, cmeLast := out.length, lastOut := fieldAt c 16 4 } }

/-- CME_MATMUL. -/
def execCmeMatmul (ecc : FlashEcc) (s : State) : Outcome State Fault Refusal := .next (cmeStepOp s 1 ecc)

/-- CME_ADD. -/
def execCmeAdd (ecc : FlashEcc) (s : State) : Outcome State Fault Refusal := .next (cmeStepOp s 2 ecc)

/-- CME_LUT. -/
def execCmeLut (ecc : FlashEcc) (s : State) : Outcome State Fault Refusal := .next (cmeStepOp s 3 ecc)

/-- CME_COPY. -/
def execCmeCopy (ecc : FlashEcc) (s : State) : Outcome State Fault Refusal := .next (cmeStepOp s 4 ecc)

/-- CME_RAISE. -/
def execCmeRaise (ecc : FlashEcc) (s : State) : Outcome State Fault Refusal := .next (cmeStepOp s 5 ecc)

/-- CME_END. -/
def execCmeEnd (ecc : FlashEcc) (s : State) : Outcome State Fault Refusal := .next (cmeStepOp s 0 ecc)

/-- Run a started list to its end, with no flash error. -/
def cmeRunAll : Nat → State → State
  | 0, s => s
  | fuel + 1, s =>
    if s.on Reg.CME_STAT_BUSY [] then
      cmeRunAll fuel (cmeStepOp s (fieldAt (s.cmeCmd s.cloche.cmeAddr s.cloche.cmePc) 0 1) ⟨0, none⟩)
    else s

/-! ### The model directory and DORMANT jobs (R583, R584, R544) -/

/-- The entry in force for a directory slot: the valid entry with the highest SEQ (R583). -/
def State.modelEntry (s : State) (slot : Nat) : Option (List Byte) :=
  ((s.usedSegs 0x440000 4096).map (fun g => s.flashRead (64 * g) 64)).foldl (fun best r =>
    if crcOk r && fieldAt r 1 1 == slot && fieldAt r 0 1 != 0xFF then
      match best with
      | some b => if fieldAt b 4 4 < fieldAt r 4 4 then some r else some b
      | none => some r
    else best) none

/-- The entry of a slot whose content's CRC matches and that is not deleted. -/
def State.model (s : State) (slot : Nat) : Option (List Byte) :=
  match s.modelEntry slot with
  | some r =>
    if fieldAt r 0 1 ≠ 0xFE ∧ crc32 (s.flashRead (fieldAt r 8 4) (fieldAt r 12 4)) = fieldAt r 20 4 then some r else none
  | none => none

/-- The entry of the DORMANT job table for a trigger and its input (R584). -/
def State.dormantEntry (s : State) (trigger input : Nat) : Option (List Byte) :=
  match (List.range 16).findSome? (fun k => (s.model k).filter (fun r => fieldAt r 0 1 == 1)) with
  | none => none
  | some dir =>
    let es := (List.range 32).map (fun e => s.flashRead (fieldAt dir 8 4 + 16 * e) 16)
    (es.takeWhile (fun e => fieldAt e 0 1 != 0xFF)).find? (fun e =>
      fieldAt e 0 1 == trigger && fieldAt e 1 1 == input)

/-- DORMANT_JOB_TRIGGER (R544): the job's list runs, its result is copied into its area, the area's sequence byte
counts, and SMB_ALERT_N is pulled low. -/
def dormantJobOp (s : State) (trigger input : Nat) : State :=
  if s.role ≠ 2 ∨ !s.fwRuns ∨ s.listening ∨ s.on Reg.CME_STAT_BUSY [] then s
  else match s.dormantEntry trigger input with
    | none => s
    | some e =>
      match s.model (fieldAt e 4 4) with
      | none => s
      | some m =>
        let s := cmeRunAll 65536 (cmeBegin s (fieldAt m 16 4))
        if !s.on Reg.CME_STAT_DONE [] then s
        else
          let s := hedgeLevel (s.wr Reg.CME_STAT_DONE [] 0) 400 false 0
          let area := fieldAt e 3 1
          let (q, _) := FMap.get s.cloche.areas (0, []) area
          { s with cloche := { s.cloche with
              areas := FMap.put s.cloche.areas area ((q + 1) % 256, s.sramRead s.cloche.lastOut (fieldAt e 2 1)),
              alert := true } }

/-- DORMANT_JOB_TRIGGER. -/
def execDormantJobTrigger (trigger input : Nat) (s : State) : Outcome State Fault Refusal :=
  .next (dormantJobOp s trigger input)

/-! ### Bench debug (R529) -/

/-- A write of HALT, effective in Open mode only; BNC_PC then shows the core's program counter, which the spec gives
no value. -/
def benchHaltOp (s : State) : State :=
  if s.isOpen && !s.on Reg.BNC_CTL_HALTED [] then
    ((s.wr Reg.BNC_CTL_HALTED [] 1).wr Reg.BNC_PC_PC [] (s.freeVal 32)).freeNext
  else s

/-- BENCH_HALT. -/
def execBenchHalt (src : Src) (s : State) : Outcome State Fault Refusal :=
  .next (fwWrite s src (Reg.BNC_CTL_HALT.addr []) benchHaltOp)

/-- BENCH_RESUME. -/
def execBenchResume (src : Src) (s : State) : Outcome State Fault Refusal :=
  .next (fwWrite s src (Reg.BNC_CTL_RESUME.addr []) (fun s => if s.isOpen then s.wr Reg.BNC_CTL_HALTED [] 0 else s))

/-- A write of STEP: the halted core runs one instruction, so its program counter moves. -/
def benchStepOp (s : State) : State :=
  if s.isOpen && s.on Reg.BNC_CTL_HALTED [] then (s.wr Reg.BNC_PC_PC [] (s.freeVal 32)).freeNext else s

/-- BENCH_STEP. -/
def execBenchStep (src : Src) (s : State) : Outcome State Fault Refusal :=
  .next (fwWrite s src (Reg.BNC_CTL_STEP.addr []) benchStepOp)

end Sys2Proof.Machine
end

