-- ==== Sys2Proof/Machine/Boot.lean ====
section
/-! DEFINITION. Power-up and boot of 02_balls_rails_straps and 03_power_up_boot: island rails and PORST_N (R51, R58),
straps (R59), image selection (R79-R81), main power and VCORE (R51), self-test and harvest (R82), HBM bring-up (R87,
R88), thermal sensors (R65), power cuts (R55-R57), pace snapshots (R107) and the test access port (R70). -/

namespace Sys2Proof.Machine

open Host (Outcome)

/-! ### Power-on reset (R75, R100) -/

/-- Fields that a power-on reset keeps: causes and cuts survive (R100), the real-time clock runs on, and pins show
their live level. -/
def porKept : List Field :=
  [Reg.TOP_RSTCAUSE_POR, Reg.TOP_RSTCAUSE_FABRIC, Reg.TOP_RSTCAUSE_HOST, Reg.TOP_RSTCAUSE_ISLAND,
   Reg.TOP_RSTCAUSE_SWAP, Reg.TOP_RSTCAUSE_THERMAL, Reg.TOP_RSTCAUSE_CUT, Reg.TOP_RSTCAUSE_BROWNOUT,
   Reg.TOP_PINSTAT_PWRFAIL_N, Reg.TOP_PINSTAT_RTC_SRC, Reg.TOP_PINSTAT_CUT_SEEN, Reg.TOP_PINSTAT_CUT_CAUSE,
   Reg.CLO_RTC_SEC_SEC, Reg.CLO_RTC_SUB_SUB, Reg.CLO_GPI_LVL_LVL]

/-- State.reset with what a power-on reset keeps outside the register file (R100). -/
def porBase (s : State) : State :=
  { State.reset with
    pending := s.pending, freeCtr := s.freeCtr, outs := s.outs, hbm := s.hbm, hbmPoison := s.hbmPoison, hbmUndef := s.hbmUndef,
    storeGen := s.storeGen + 1,
    flash := { State.reset.flash with bytes := s.flash.bytes, undef := s.flash.undef, wear := s.flash.wear },
    cloche := { State.reset.cloche with sram := s.cloche.sram, sramGen := s.cloche.sramGen, retGen := s.cloche.retGen,
                                        rtcAcc := s.cloche.rtcAcc, tap := s.cloche.tap },
    boot := { State.reset.boot with rails := s.boot.rails, osc := s.boot.osc, pwrfailLow := s.boot.pwrfailLow,
                                    pwrfailAt := s.boot.pwrfailAt, perstN := s.boot.perstN, budget := s.boot.budget } }

/-- `t` with each of a list of scalar fields as `s` has it. -/
def keepFields (s t : State) (l : List Field) : State := l.foldl (fun t f => t.wr f [] (s.rd f [])) t

/-- `s` with each of a list of scalar fields at its reset value. -/
def clearFields (s : State) (l : List Field) : State := l.foldl (fun t f => t.wr f [] (f.rst [])) s

/-- The machine after a power-on reset: everything as State.reset has it, but for what R100 keeps. -/
def powerOnReset (s : State) : State := sramLost (keepFields s (porBase s) porKept)

/-- Step 1 of R75: straps are captured (R59); ROLE 0b11 is DORMANT with STRAP_ERR. -/
def strapCapture (s : State) (x : Straps) : State :=
  let pin := x.role.val
  let s := (s.wr Reg.TOP_STRAP_ROLE_PIN [] pin).wr Reg.TOP_STRAP_ROLE [] (if pin = 3 then 2 else pin)
  let s := (s.wrb Reg.TOP_STRAP_STRAP_ERR [] (pin == 3)).wrb Reg.TOP_STRAP_HARV_CAP [] x.harvCap
  let s := (s.wrb Reg.TOP_STRAP_D2D_SEL [] x.d2dSel).wrb Reg.TOP_STRAP_PKG_POS [] x.pkgPos
  let s := (s.wr Reg.TOP_STRAP_SMB_ADDR [] x.smbAddr.val).wrb Reg.TOP_STRAP_TEST_EN [] x.testEn
  let s := s.wrb Reg.TOP_MODE_TEST_LOCK [] x.testEn
  (List.range 4).foldl (fun s n => s.wrb Reg.CSK_STAT_D2D [n] x.d2dSel) s

/-- ISLAND_RAILS_UP: the island is powered and its oscillator starts. -/
def islandRailsUpOp (s : State) : State :=
  if s.boot.rails then s else { s with boot := { s.boot with rails := true, osc := true } }

/-- ISLAND_RAILS_UP. -/
def execIslandRailsUp (s : State) : Outcome State Fault Refusal := .next (islandRailsUpOp s)

/-- After strap capture: cause, reference and phase are shown and a SHOOT or ROOT die raises MAIN_EN. -/
def riseEnd (s : State) : State :=
  let s := s.wr Reg.TOP_RSTCAUSE_POR [] 1
  let s := (s.wr Reg.CLO_STATE_REF_OK [] 1).wr Reg.TOP_MODE_PHASE [] 1
  let s := { s with boot := { s.boot with porstN := true, osc := true, mainEnAt := s.now } }
  if s.role = 2 then s else s.wr Reg.TOP_PINSTAT_MAIN_EN [] 1

/-- PORST_N_RISE: the power-on reset begins; a SHOOT or ROOT die raises MAIN_EN. -/
def porstRiseOp (s : State) (x : Straps) : State :=
  if !s.boot.rails ∨ s.boot.porstN then s else riseEnd (strapCapture (powerOnReset s) x)

/-- PORST_N_RISE. -/
def execPorstNRise (x : Straps) (s : State) : Outcome State Fault Refusal := .next (porstRiseOp s x)

/-- The island is held in reset: the enables fall with it. -/
def holdInReset (s : State) : State := { powerOnReset s with boot := { (powerOnReset s).boot with porstN := false } }

/-- PORST_N_FALL (R58): held off while the hold-up sequence runs. -/
def porstFallOp (s : State) : State :=
  if !s.boot.porstN then s
  else if s.boot.holdup then { s with boot := { s.boot with porstHeld := true } }
  else holdInReset s

/-- PORST_N_FALL. -/
def execPorstNFall (s : State) : Outcome State Fault Refusal := .next (porstFallOp s)

/-- PORST_N_HOLDOFF_EXPIRY (R58): the sequence has ended, or 3 ms have passed since the cut. -/
def porstHoldoffOp (s : State) : State :=
  if s.boot.porstHeld ∧ (!s.boot.holdup ∨ s.boot.cutAt + msCounts 3 ≤ s.now) then holdInReset s else s

/-- PORST_N_HOLDOFF_EXPIRY. -/
def execPorstNHoldoffExpiry (s : State) : Outcome State Fault Refusal := .next (porstHoldoffOp s)

/-- REFCLK_CHECK_TIMEOUT (R63): REFCLK_FAIL is latched and MAIN_EN is never raised. -/
def refclkTimeoutOp (s : State) : State :=
  if s.boot.porstN ∧ s.rd Reg.TOP_BOOTSTAT_STATE [] = 0 ∧ !s.boot.restarting then
    let s := (s.wr Reg.TOP_PINSTAT_REFCLK_FAIL [] 1).wr Reg.TOP_PINSTAT_MAIN_EN [] 0
    let s := (s.wr Reg.CLO_STATE_REF_OK [] 0).wr Reg.TOP_MODE_PHASE [] 0
    { s with boot := { s.boot with osc := false } }
  else s

/-- REFCLK_CHECK_TIMEOUT. -/
def execRefclkCheckTimeout (s : State) : Outcome State Fault Refusal := .next (refclkTimeoutOp s)

/-- The retained SRAM, the RTC, TOP_RSTCAUSE and CUT_SEEN go with the island rails (R100). -/
def islandLossEnd (s : State) : State :=
  let t := (clearFields (sramLostAll s) porKept).wr Reg.TOP_RSTCAUSE_POR [] 1
  { t with boot := { t.boot with rails := false, porstN := false, osc := false }, cloche := { t.cloche with rtcAcc := 0 } }

/-- ISLAND_RAILS_LOSS. -/
def islandRailsLossOp (s : State) : State := islandLossEnd (powerOnReset s)

/-- ISLAND_RAILS_LOSS. -/
def execIslandRailsLoss (s : State) : Outcome State Fault Refusal := .next (islandRailsLossOp s)

/-! ### Main power and VCORE (R51) -/

/-- Step 7 of R51: with MAIN_PG high and the image verified, VID 0x64 is driven and VCORE_EN rises. -/
def tryVcore (s : State) : State :=
  if s.on Reg.TOP_PINSTAT_MAIN_EN [] && s.on Reg.TOP_PINSTAT_MAIN_PG [] && s.rd Reg.TOP_BOOTSTAT_STATE [] == 1
      && !s.on Reg.TOP_PINSTAT_VCORE_EN [] && !s.on Reg.TOP_PINSTAT_THERMTRIP [] && !s.boot.powerFault
      && !s.on Reg.PWR_STAT_CUT [] && s.role != 2 then
    let s := (driveVid s 0x64).wr Reg.TOP_PINSTAT_VCORE_EN [] 1
    { s.wr Reg.TOP_MODE_PHASE [] 2 with boot := { s.boot with vcoreEnAt := s.now } }
  else s

/-- VCORE_EN falls: VID reads 0 while it is low (R47). -/
def vcoreOff (s : State) : State := driveVid (s.wr Reg.TOP_PINSTAT_VCORE_EN [] 0) 0

/-- A die fault record (KIND 5 of R638). -/
def dieRecord (s : State) (cause unit temp : Nat) : State :=
  faultRecord s 5 (leBytes 1 cause ++ leBytes 1 unit ++ leBytes 2 temp)

/-- MAIN_PG_RISE. -/
def mainPgRiseOp (s : State) : State :=
  if s.on Reg.TOP_PINSTAT_MAIN_EN [] then tryVcore (s.wr Reg.TOP_PINSTAT_MAIN_PG [] 1) else s

/-- MAIN_PG_RISE. -/
def execMainPgRise (s : State) : Outcome State Fault Refusal := .next (mainPgRiseOp s)

/-- A power-up fault: the enables fall and it is recorded; the next power-on reset retries. -/
def powerUpFault (s : State) : State :=
  let s := (vcoreOff s).wr Reg.TOP_PINSTAT_MAIN_EN [] 0
  let s := (s.wr Reg.TOP_MODE_PHASE [] 15)
  dieRecord { s with boot := { s.boot with powerFault := true } } 4 0 0

/-- MAIN_PG_TIMEOUT: MAIN_PG is not high 100 ms after MAIN_EN. -/
def mainPgTimeoutOp (s : State) : State :=
  if s.on Reg.TOP_PINSTAT_MAIN_EN [] && !s.on Reg.TOP_PINSTAT_MAIN_PG []
      && decide (s.boot.mainEnAt + msCounts 100 ≤ s.now) then powerUpFault s else s

/-- MAIN_PG_TIMEOUT. -/
def execMainPgTimeout (s : State) : Outcome State Fault Refusal := .next (mainPgTimeoutOp s)

/-- VCORE_PG_TIMEOUT: VCORE_PG is not raised within 5 ms of VCORE_EN. -/
def vcorePgTimeoutOp (s : State) : State :=
  if s.on Reg.TOP_PINSTAT_VCORE_EN [] && !s.on Reg.TOP_PINSTAT_VCORE_PG []
      && decide (s.boot.vcoreEnAt + msCounts 5 ≤ s.now) then powerUpFault s else s

/-- VCORE_PG_TIMEOUT. -/
def execVcorePgTimeout (s : State) : Outcome State Fault Refusal := .next (vcorePgTimeoutOp s)

/-- Step 4 of R75: fuses are read, enabled plots are powered, and the Ciskaca ports start training (R92). -/
def vcorePgRiseOp (s : State) (x : Fuses) : State :=
  if !s.on Reg.TOP_PINSTAT_VCORE_EN [] ∨ s.on Reg.TOP_PINSTAT_VCORE_PG [] then s
  else
    let s := s.wr Reg.TOP_PINSTAT_VCORE_PG [] 1
    let s := (List.range 32).foldl (fun s n => s.wr Reg.TOP_TSENS_VALID [n] 0) s
    let s := s.wr Reg.TOP_HARVEST_FUSE_GOOD [] x.good
    let root := s.role == 1
    let s := s.wr Reg.TOP_MODE_PHASE [] (if root then 5 else 4)
    let s := { s with boot := { s.boot with
      serial := x.serial, minSecVer := x.minSecVer, fuseWs := x.wsRows, fuseAs := x.asRows, fusePs := x.psRows,
      bistDone := root, trained := false } }
    (List.range 8).foldl (fun s n => if s.portState n = psDown then
        setPortState (s.wr Reg.CSK_EPOCH_RX_EPOCH [n] (s.firstEpoch (s.rd Reg.CSK_EPOCH_RX_EPOCH [n]))) n psTraining
      else s) s

/-- VCORE_PG_RISE. -/
def execVcorePgRise (x : Fuses) (s : State) : Outcome State Fault Refusal := .next (vcorePgRiseOp s x)

/-- The number whose bit `p` says whether plot `p` satisfies a test. -/
def plotMask (f : Nat → Bool) : Nat := (List.range 16).foldl (fun m p => if f p then m + 2 ^ p else m) 0

/-- The enable map of R82: the fuse-good plots that pass, cut to the 14 lowest under HARV_CAP. -/
def enableMap (good fail : Nat) (cap : Bool) : Nat :=
  let pass := (List.range 16).filter (fun p => bitOf good p && !bitOf fail p)
  let keep := if cap then pass.take 14 else pass
  plotMask keep.contains

/-- How many bits of a 16-bit map are set. -/
def count16 (m : Nat) : Nat := ((List.range 16).filter (bitOf m)).length

/-- PLOT_BIST_COMPLETE: TOP_HARVEST and PLT_CAP become final (R82-R86). -/
def plotBistOp (s : State) (fail : Nat) : State :=
  if !s.on Reg.TOP_PINSTAT_VCORE_PG [] ∨ s.boot.bistDone ∨ s.rd Reg.TOP_BOOTSTAT_STATE [] ≠ 1 then s
  else
    let good := s.rd Reg.TOP_HARVEST_FUSE_GOOD []
    let cap := s.on Reg.TOP_STRAP_HARV_CAP []
    let en := enableMap good fail cap
    let s := (s.wr Reg.TOP_HARVEST_PLOT_EN [] en).wr Reg.TOP_HARVEST_BIST_FAIL []
      (plotMask (fun p => bitOf good p && bitOf fail p))
    let s := (s.wr Reg.TOP_HARVEST_PLOT_COUNT [] (count16 en)).wrb Reg.TOP_HARVEST_CAP_APPLIED []
      (enableMap good fail false != en)
    let s := s.wrb Reg.TOP_HARVEST_DEGRADED [] (decide (count16 en < 14))
    let s := (List.range 16).foldl (fun s p =>
      if bitOf en p then
        ((s.wr Reg.PLT_CAP_WS_ROWS [p] (s.boot.fuseWs.getD p 0)).wr Reg.PLT_CAP_AS_ROWS [p]
          (s.boot.fuseAs.getD p 0)).wr Reg.PLT_CAP_PS_ROWS [p] (s.boot.fusePs.getD p 0)
      else s) s
    let s := s.wr Reg.TOP_MODE_PHASE [] (if s.boot.trained then (if s.boot.cleared then 7 else 6) else 5)
    { s with boot := { s.boot with bistDone := true } }

/-- PLOT_BIST_COMPLETE. -/
def execPlotBistComplete (fail : Nat) (s : State) : Outcome State Fault Refusal := .next (plotBistOp s fail)

/-- HBM_TRAINING_COMPLETE (R87): `best` gives each stack's highest passing rate as TOP_HBMSTAT codes it, 0 for a
stack that fails at 6.4 Gb/s; every working stack runs at the highest rate that all of them pass. -/
def hbmTrainingOp (s : State) (best : List Nat) : State :=
  if !s.on Reg.TOP_PINSTAT_VCORE_PG [] ∨ s.boot.trained ∨ s.rd Reg.TOP_BOOTSTAT_STATE [] ≠ 1 then s
  else
    let r (n : Nat) : Nat := min 5 (best.getD n 0)
    let works := (List.range 6).filter (fun n => r n != 0)
    let rate := works.foldl (fun m n => min m (r n)) 5
    let s := (List.range 6).foldl (fun s n =>
      let ok := r n != 0
      let s := (s.wr (hbmRate n) [] (if ok then rate else 0)).wrb (hbmFail n) [] !ok
      s.wrb Reg.FUR_STAT_UNPOWERED [n] !ok) s
    let s := if s.boot.bistDone then s.wr Reg.TOP_MODE_PHASE [] (if s.boot.cleared then 7 else 6) else s
    { s with boot := { s.boot with trained := true } }

/-- HBM_TRAINING_COMPLETE. -/
def execHbmTrainingComplete (best : List Nat) (s : State) : Outcome State Fault Refusal := .next (hbmTrainingOp s best)

/-- HBM_CLEAR_COMPLETE (R88): every byte of every working stack is zero with valid check bits. -/
def hbmClearOp (s : State) : State :=
  if !s.boot.trained ∨ s.boot.cleared ∨ s.rd Reg.TOP_BOOTSTAT_STATE [] ≠ 1 then s
  else
    let s := (List.range 6).foldl (fun s n => s.wrb (hbmCleared n) [] (s.stackOk n)) s
    let s := if s.boot.bistDone then s.wr Reg.TOP_MODE_PHASE [] 7 else s
    { s with hbm := [], hbmPoison := [], hbmUndef := [], boot := { s.boot with cleared := true } }

/-- HBM_CLEAR_COMPLETE. -/
def execHbmClearComplete (s : State) : Outcome State Fault Refusal := .next (hbmClearOp s)

/-! ### Boot block selection (R79-R81, R576, R577) -/

/-- What the boot ROM decides: the block to try first, the record to write, whether it reverted, and whether the
record can be written. -/
structure BootPlan where
  blk : Nat
  new : SwapRec
  reverted : Bool
  write : Bool
  deriving DecidableEq, Repr

/-- The selection of R79 up to the validity check, with the case of a full swap area (R577). -/
def State.bootPlan (s : State) : BootPlan :=
  let canWrite := s.swapSlot.isSome
  match s.newestSwap with
  | none => ⟨0, ⟨0, 0, false, 0, 0, 0, 1⟩, false, canWrite⟩
  | some (_, r) =>
    let count := (r.bootCount + 1) % 2 ^ 32
    if r.trial && (decide (3 ≤ r.tries) || !canWrite) then
      ⟨1 - r.active, ⟨0, 1 - r.active, false, 0, 0, 0, count⟩, true, canWrite⟩
    else if r.trial then ⟨r.active, ⟨0, r.active, true, r.tries + 1, 0, r.version, count⟩, false, canWrite⟩
    else ⟨r.active, ⟨0, r.active, false, r.tries, 0, r.version, count⟩, false, canWrite⟩

/-- RECOVERY_STATE_ENTRY (R78). -/
def recoveryEntry (s : State) : State :=
  let s := (vcoreOff s).wr Reg.TOP_PINSTAT_MAIN_EN [] 0
  ((s.wr Reg.TOP_BOOTSTAT_STATE [] 3).wr Reg.TOP_MODE_MODE [] 3).wr Reg.TOP_MODE_PHASE [] 15

/-- Firmware keeps the swap sector after the current one erased (R577). -/
def swapUpkeep (s : State) : State :=
  let cur := match s.newestSwap with | some (i, _) => i / 64 | none => 0
  let nxt := 64 + (cur + 1) % 4
  if (s.usedSegs (nxt * 4096) 4096).isEmpty then s else eraseSector s nxt

/-- Load a block into the code region and start the Bench core: the watchdog is enabled at 100 ms (R530), the swap area
is kept ready (R577) and the log is mounted (R582). -/
def startImage (s : State) (blk : Nat) (img : ImageCheck) : State :=
  let base := blockAddr blk
  let code : FMap Byte := s.flash.bytes.filterMap (fun e =>
    if base ≤ e.1 ∧ e.1 < base + 0x40000 then some (e.1 - base, e.2) else none)
  let s := { s with boot := { s.boot with code := some code, runVersion := img.version, runSec := img.secVersion } }
  let s := (s.wr Reg.CLO_FWVER_VERSION [] img.version).wr Reg.TOP_BOOTSTAT_BLOCK [] blk
  let s := (s.wr Reg.CLO_WDT_EN [] 1).wr Reg.CLO_WDT_TIMEOUT_MS [] 100
  mountLog (swapUpkeep (kickOp s))

/-- The VERSION of the record of one boot (R576): the newest record's, when it names the same block; else the image
version of the named block, or 0 when its check fails. -/
def State.bootVersion (s : State) (pl : BootPlan) (img : ImageCheck) : Nat :=
  match s.newestSwap with
  | some (_, r) => if r.active = pl.new.active then r.version else if img.reason = 0 then img.version else 0
  | none => if img.reason = 0 then img.version else 0

/-- Select, verify and record one boot (R79). Answers the started block, if one is valid. -/
def bootSelect (s : State) (a b : ImageCheck) : State × Option Nat :=
  let pl := s.bootPlan
  let ver := s.bootVersion pl (if pl.new.active = 0 then a else b)
  let s := if pl.write then (writeSwap s { pl.new with version := ver }).1 else s
  let count := pl.new.bootCount
  let s := { s with boot := { s.boot with bootCount := count } }
  let s := s.wr Reg.TOP_BOOTSTAT_BOOT_COUNT [] count
  let s := (s.wrb Reg.TOP_BOOTSTAT_REVERTED [] pl.reverted).wr Reg.TOP_BOOTSTAT_TRIES [] pl.new.tries
  let s := s.wr Reg.TOP_BOOTSTAT_FAIL_REASON [] (if pl.reverted then 6 else 0)
  let img (k : Nat) : ImageCheck := if k = 0 then a else b
  if (img pl.blk).reason = 0 then
    ((s.wr Reg.TOP_BOOTSTAT_FALLBACK [] 0).wrb Reg.TOP_BOOTSTAT_TRIAL [] pl.new.trial, some pl.blk)
  else
    let s := s.wr Reg.TOP_BOOTSTAT_FAIL_REASON [] (img pl.blk).reason
    let s := (s.wr Reg.TOP_BOOTSTAT_FALLBACK [] 1).wr Reg.TOP_BOOTSTAT_TRIAL [] 0
    (s, if (img (1 - pl.blk)).reason = 0 then some (1 - pl.blk) else none)

/-- The BOOT record (KIND 6 of R638). -/
def bootRecord (s : State) : State :=
  faultRecord s 6 (leBytes 1 (s.rd Reg.TOP_BOOTSTAT_BLOCK [])
    ++ leBytes 1 (s.rd Reg.TOP_BOOTSTAT_FALLBACK [] + 2 * s.rd Reg.TOP_BOOTSTAT_REVERTED []
      + 4 * s.rd Reg.TOP_BOOTSTAT_TRIAL [])
    ++ leBytes 1 (s.rd Reg.TOP_BOOTSTAT_FAIL_REASON []) ++ leBytes 1 0 ++ leBytes 4 s.boot.runVersion)

/-- Commands fetched before a restart and not past their commit point post RESTARTED (R193). -/
def restartCmds (s : State) : State :=
  let s := disownOps s (fun o => match o with | .cmd _ _ => true | .mctp _ => true | _ => false)
  { s with mbx := { s.mbx with cmds := s.mbx.cmds.map (fun c =>
      if c.result.isNone && !c.waiting then { c with result := some (Status.restarted.code, failBody 0xFFFF 0 0) } else c) } }

/-- BOOT_IMAGE_VERIFIED: the boot ROM has checked the blocks; `a` and `b` are what it finds of blocks A and B. At a
power-on reset the mailbox epochs start from BOOT_COUNT (R621). At an island restart the new firmware resumes at the
state the die had (R99), and a DEV_RESET with scope ISLAND posts OK (R195). -/
def bootImageOp (s : State) (a b : ImageCheck) : State :=
  if !s.boot.porstN ∨ s.rd Reg.TOP_BOOTSTAT_STATE [] ≠ 0 ∨ !s.boot.osc ∨ s.on Reg.PWR_STAT_CUT [] then s
  else
    let (s, blk) := bootSelect s a b
    match blk with
    | none => recoveryEntry s
    | some k =>
      let s := bootRecord (startImage s k (if k = 0 then a else b))
      if s.boot.restarting then
        let s := s.wr Reg.TOP_BOOTSTAT_STATE [] (if s.boot.wasReady then 2 else 1)
        let s := match s.boot.islandCmd with
          | some (f, i) => s.finish f i .ok []
          | none => s
        let s := restartCmds s
        { s with boot := { s.boot with restarting := false, islandCmd := none } }
      else
        let e := if s.boot.bootCount % 65536 = 0 then 1 else s.boot.bootCount % 65536
        let s := (List.range 16).foldl (fun s f => s.wr Reg.TOP_MBX_EPOCH_EPOCH [f] e) s
        let s := (s.wr Reg.TOP_BOOTSTAT_STATE [] 1).wr Reg.TOP_MODE_PHASE [] 2
        tryVcore s

/-- BOOT_IMAGE_VERIFIED. -/
def execBootImageVerified (a b : ImageCheck) (s : State) : Outcome State Fault Refusal := .next (bootImageOp s a b)

/-- ISLAND_RESTART (R99): the Bench core restarts from the boot ROM; the code and working regions are undefined. -/
def islandRestart (s : State) : State :=
  let ready := s.rd Reg.TOP_BOOTSTAT_STATE [] == 2
  let s := (sramLost s).wr Reg.TOP_RSTCAUSE_ISLAND [] 1
  let s := ((s.wr Reg.TOP_BOOTSTAT_STATE [] 0).wr Reg.CLO_WDT_EN [] 0).wr Reg.CLO_FWSTAT_SEAM [] 0
  let s := s.wr Reg.BNC_CTL_HALTED [] 0
  { s with boot := { s.boot with restarting := true, wasReady := ready }, cloche := { s.cloche with swapCmd := none } }

/-- WATCHDOG_EXPIRY (R530, R633): TOP_FAULT, a DIE record, vector 3 of every function, and an island restart. -/
def watchdogOp (s : State) : State :=
  if s.on Reg.CLO_WDT_EN [] && !s.on Reg.CLO_FWSTAT_SEAM [] && decide (s.cloche.wdtAt ≤ s.now) then
    faultVectorAll (islandRestart (dieRecord (s.wr Reg.TOP_FAULT_WATCHDOG [] 1) 5 0 0))
  else s

/-- WATCHDOG_EXPIRY. -/
def execWatchdogExpiry (s : State) : Outcome State Fault Refusal := .next (watchdogOp s)

/-! ### PCIe link (R89, R91) -/

/-- PERST_N_RELEASE: link training starts. -/
def perstReleaseOp (s : State) : State :=
  { s with boot := { s.boot with perstN := true }, mbx := { s.mbx with linkUp := true, cfgReady := false } }

/-- PERST_N_RELEASE. -/
def execPerstNRelease (s : State) : Outcome State Fault Refusal := .next (perstReleaseOp s)

/-- PCIE_CONFIG_READY. -/
def pcieReadyOp (s : State) : State :=
  if s.boot.perstN then { s with mbx := { s.mbx with cfgReady := true } } else s

/-- PCIE_CONFIG_READY. -/
def execPcieConfigReady (s : State) : Outcome State Fault Refusal := .next (pcieReadyOp s)

/-! ### Power fail (R54-R57, R610) -/

/-- PWRFAIL_N_FALL: the low level enters the glitch filter. -/
def pwrfailFallOp (s : State) : State :=
  if !s.boot.rails ∨ s.boot.pwrfailLow then s
  else { s with boot := { s.boot with pwrfailLow := true, pwrfailAt := s.now } }

/-- PWRFAIL_N_FALL. -/
def execPwrfailNFall (s : State) : Outcome State Fault Refusal := .next (pwrfailFallOp s)

/-- PWRFAIL_N_RISE: the filtered level in TOP_PINSTAT follows. -/
def pwrfailRiseOp (s : State) : State :=
  if !s.boot.rails then s
  else { (s.wr Reg.TOP_PINSTAT_PWRFAIL_N [] 1) with boot := { s.boot with pwrfailLow := false } }

/-- PWRFAIL_N_RISE. -/
def execPwrfailNRise (s : State) : Outcome State Fault Refusal := .next (pwrfailRiseOp s)

/-- Register a power cut (R56, R610, R611): an interval whose tick has come is closed first (R612), the meter
freezes, the flash controller aborts, the hold-up records are written in order, and VCORE_EN and MAIN_EN fall. A
thermal trip registered with it adds its DIE record when a slot is left (R634). -/
def registerCut (s : State) (cause : Nat) : State :=
  if s.on Reg.PWR_STAT_CUT [] ∨ !s.boot.porstN then s
  else
    let s := demandCloseOp s
    let s := (s.wr Reg.PWR_STAT_CUT [] 1).wr Reg.PWR_CUT_TB_TB [] s.now
    let s := (s.wr Reg.TOP_PINSTAT_CUT_SEEN [] 1).wr Reg.TOP_PINSTAT_CUT_CAUSE [] cause
    let s := s.wr Reg.TOP_RSTCAUSE_CUT [] 1
    let s := flashCutAbort s
    let s := hedgeEvent s 4 cause
    let (s, _) := holdupWrites s cause
    let s := s.wr Reg.PWR_STAT_HOLDUP [] (if s.on Reg.FLC_RSV_VALID [] then 1 else 3)
    let s := (vcoreOff s).wr Reg.TOP_PINSTAT_MAIN_EN [] 0
    { s with boot := { s.boot with holdup := true, cutAt := s.now } }

/-- POWER_CUT (R55): PWRFAIL_N has been low for 1 us. -/
def powerCutOp (s : State) : State :=
  if s.boot.pwrfailLow ∧ s.boot.pwrfailAt + usCounts 1 ≤ s.now then
    registerCut (s.wr Reg.TOP_PINSTAT_PWRFAIL_N [] 0) 1
  else s

/-- POWER_CUT. -/
def execPowerCut (s : State) : Outcome State Fault Refusal := .next (powerCutOp s)

/-- MAIN_LOSS (R57): a power-good input falls while the island holds its enable and PWRFAIL_N is high. -/
def mainLossOp (s : State) (r : Rail) : State :=
  let (pg, en) := match r with
    | .main => (Reg.TOP_PINSTAT_MAIN_PG, Reg.TOP_PINSTAT_MAIN_EN)
    | .vcore => (Reg.TOP_PINSTAT_VCORE_PG, Reg.TOP_PINSTAT_VCORE_EN)
  if !s.on pg [] then s
  else
    let held := s.on en [] && !s.boot.pwrfailLow
    let s := s.wr pg [] 0
    if held then registerCut s 2 else s

/-- MAIN_LOSS. -/
def execMainLoss (r : Rail) (s : State) : Outcome State Fault Refusal := .next (mainLossOp s r)

/-! ### Sensors and pace (R65, R107, R110) -/

/-- TSENS_UPDATE: a sensor's reading and maximum; fabric sensors read 0 while VCORE is down and in DORMANT. -/
def tsensOp (s : State) (n temp : Nat) : State :=
  if !s.boot.rails ∨ (n < 32 ∧ (!s.on Reg.TOP_PINSTAT_VCORE_PG [] ∨ s.role = 2)) then s
  else
    let s := (s.wr Reg.TOP_TSENS_TEMP [n] temp).wr Reg.TOP_TSENS_VALID [n] 1
    s.wr Reg.TOP_TSENS_TEMP_MAX [n] (max (s.rd Reg.TOP_TSENS_TEMP_MAX [n]) temp)

/-- TSENS_UPDATE. -/
def execTsensUpdate (n : Fin 33) (temp : Nat) (s : State) : Outcome State Fault Refusal := .next (tsensOp s n (temp % 4096))

/-- REPLICA_UPDATE. -/
def replicaOp (s : State) (p rate : Nat) : State :=
  if s.coreUp && s.plotEn p then (s.wr Reg.PLT_REPLICA_RATE [p] rate).wr Reg.PLT_REPLICA_VALID [p] 1 else s

/-- REPLICA_UPDATE. -/
def execReplicaUpdate (p : Fin 16) (rate : Nat) (s : State) : Outcome State Fault Refusal := .next (replicaOp s p rate)

/-- The pace counters with their snapshot copies (R106). -/
def paceCounters (s : State) : List (Field × Field × List Nat) :=
  (List.range 32).map (fun n => (Reg.TOP_TRL_FLITS_COUNT, Reg.TOP_TRL_FLITS_SNAP_COUNT, [n]))
  ++ ((List.range 16).filter s.plotEn).map (fun p => (Reg.PLT_STEPS_COUNT, Reg.PLT_STEPS_SNAP_COUNT, [p]))
  ++ (List.range 2).map (fun i => (Reg.SIV_PLACES_COUNT, Reg.SIV_PLACES_SNAP_COUNT, [i]))
  ++ [(Reg.RWC_LOOKUP_COUNT, Reg.RWC_LOOKUP_SNAP_COUNT, [])]
  ++ (List.range 6).map (fun i => (Reg.FUR_ROWS_COUNT, Reg.FUR_ROWS_SNAP_COUNT, [i]))
  ++ (List.range 8).flatMap (fun n => [(Reg.CSK_TXCELLS_COUNT, Reg.CSK_TXCELLS_SNAP_COUNT, [n]),
      (Reg.CSK_RXCELLS_COUNT, Reg.CSK_RXCELLS_SNAP_COUNT, [n]), (Reg.GRF_ELEMS_COUNT, Reg.GRF_ELEMS_SNAP_COUNT, [n])])

/-- A snapshot request (R107, R108): each copy takes the live value, or LOST is set while BUSY. -/
def paceSnapOp (s : State) : State :=
  if s.on Reg.TOP_PACE_STAT_BUSY [] then s.wr Reg.TOP_PACE_STAT_LOST [] 1
  else
    let s := (s.wr Reg.TOP_PACE_SNAPTIME_COUNT [] s.now).wr Reg.TOP_PACE_STAT_BUSY [] 1
    (paceCounters s).foldl (fun s c => s.wr c.2.1 c.2.2 (s.rd c.1 c.2.2)) s

/-- PACE_SNAP: TOP_PACE_CTL is a Host register. -/
def execPaceSnap (src : Src) (s : State) : Outcome State Fault Refusal :=
  .next (match src with
    | .bench => paceSnapOp s
    | .host f => if f == 0 && s.hostReach 0 then paceSnapOp s else s)

/-- PACE_AUTO_SNAP: the period of AUTO_MS has passed. -/
def paceAutoOp (s : State) : State :=
  let m := s.rd Reg.TOP_PACE_CTL_AUTO_MS []
  if m = 0 ∨ s.now < s.cloche.paceAt + msCounts m then s
  else paceSnapOp { s with cloche := { s.cloche with paceAt := s.now } }

/-- PACE_AUTO_SNAP. -/
def execPaceAutoSnap (s : State) : Outcome State Fault Refusal := .next (paceAutoOp s)

/-- PACE_SNAP_COMPLETE: BUSY clears, SEQ increments, source 3 is raised. -/
def paceCompleteOp (s : State) : State :=
  if s.on Reg.TOP_PACE_STAT_BUSY [] then
    let s := (s.wr Reg.TOP_PACE_STAT_BUSY [] 0).wrapInc Reg.TOP_PACE_STAT_SEQ [] 1
    hedgeEvent s 3 (s.rd Reg.TOP_PACE_STAT_SEQ [])
  else s

/-- PACE_SNAP_COMPLETE. -/
def execPaceSnapComplete (s : State) : Outcome State Fault Refusal := .next (paceCompleteOp s)

/-! ### Boundary scan (R70, R71) -/

/-- The next state of the IEEE 1149.1 controller: 0 Test-Logic-Reset, 1 Run-Test/Idle, 2 Select-DR, 3 Capture-DR,
4 Shift-DR, 5 Exit1-DR, 6 Pause-DR, 7 Exit2-DR, 8 Update-DR, 9 Select-IR, 10 Capture-IR, 11 Shift-IR, 12 Exit1-IR,
13 Pause-IR, 14 Exit2-IR, 15 Update-IR. -/
def tapNext (st : Nat) (tms : Bool) : Nat :=
  match st, tms with
  | 0, true => 0 | 0, false => 1
  | 1, true => 2 | 1, false => 1
  | 2, true => 9 | 2, false => 3
  | 3, true => 5 | 3, false => 4
  | 4, true => 5 | 4, false => 4
  | 5, true => 8 | 5, false => 6
  | 6, true => 7 | 6, false => 6
  | 7, true => 8 | 7, false => 4
  | 8, true => 2 | 8, false => 1
  | 9, true => 0 | 9, false => 10
  | 10, true => 12 | 10, false => 11
  | 11, true => 12 | 11, false => 11
  | 12, true => 15 | 12, false => 13
  | 13, true => 14 | 13, false => 13
  | 14, true => 15 | 14, false => 11
  | 15, true => 2 | _, _ => 1

/-- Length of the data register that the instruction selects: IDCODE 32, BYPASS, CLAMP and HIGHZ 1, and the boundary
register otherwise. -/
def tapDrLen (ir : Nat) : Nat := if ir = 3 then 32 else if ir = 1 ∨ ir = 2 then Config.tapBsrLen else 1

/-- What the data register captures. -/
def tapCapture (ir pins : Nat) : Nat := if ir = 3 then 0x19E4B36B else if ir = 1 ∨ ir = 2 then pins else 0

/-- Shift a register of `n` bits right by one, with TDI at the top. -/
def tapShift (v n : Nat) (tdi : Bool) : Nat := v / 2 + (if tdi ∧ n ≠ 0 then 2 ^ (n - 1) else 0)

/-- TCK_EDGE: on a rising edge the controller acts in its state and moves under TMS; on a falling edge TDO changes
and the update registers load; TRST_N low resets it. -/
def tckOp (s : State) (tms tdi trstN rising : Bool) (pins : Nat) : State :=
  let t := s.cloche.tap
  let set (x : Tap) : State := { s with cloche := { s.cloche with tap := x } }
  if !s.boot.rails then s
  else if !trstN then set { t with st := 0, ir := 3 }
  else if rising then
    let t := match t.st with
      | 3 => { t with shift := tapCapture t.ir pins }
      | 4 => { t with shift := tapShift t.shift (tapDrLen t.ir) tdi }
      | 10 => { t with shift := 1 }
      | 11 => { t with shift := tapShift t.shift Config.tapIrLen tdi }
      | _ => t
    set { t with st := tapNext t.st tms }
  else match t.st with
    | 0 => set { t with ir := 3 }
    | 4 => s.emit (.tdo (bitOf t.shift 0))
    | 11 => s.emit (.tdo (bitOf t.shift 0))
    | 8 => set { t with bsr := if t.ir = 1 ∨ t.ir = 2 then t.shift else t.bsr }
    | 15 => set { t with ir := (Config.tapInstr t.shift).val }
    | _ => s

/-- TCK_EDGE. -/
def execTckEdge (tms tdi trstN rising : Bool) (pins : Nat) (s : State) : Outcome State Fault Refusal :=
  .next (tckOp s tms tdi trstN rising pins)

end Sys2Proof.Machine
end

