-- ==== Sys2Proof/Machine/RegMap.lean ====
section
/-! DEFINITION. Looking an address up in the register map (R641, R647): the register that covers it, its instance and
the byte within it, and the active mirrors of staged registers (R645). -/

namespace Sys2Proof.Machine

/-- The indices of the instance that an offset falls in, with the offset within it. -/
def indexIn : List (Nat × Nat) → Nat → Option (List Nat × Nat)
  | [], o => some ([], o)
  | (st, n) :: r, o => if o / st < n then (indexIn r (o % st)).map (fun e => (o / st :: e.1, e.2)) else none

/-- The instance of a register that covers address `a`, with the byte within the register. -/
def Row.covers (r : Row) (a : Nat) : Option (List Nat × Nat) :=
  if a < r.base then none
  else match indexIn r.dims (a - r.base) with
    | some (i, o) => if o < r.bytes then some (i, o) else none
    | none => none

/-- An address as the map resolves it: the register, the instance, the byte within it, and whether it is the active
mirror (R645). -/
structure Place where
  row : Row
  idx : List Nat
  off : Nat
  mirror : Bool

/-- What stands at a BAR0 address. -/
def placeOf (a : Nat) : Option Place :=
  (Reg.map.findSome? (fun r => (r.covers a).map (fun e => ⟨r, e.1, e.2, false⟩))) <|>
  (Reg.map.findSome? (fun r => if r.staged ∧ 0x8000 ≤ a then (r.covers (a - 0x8000)).map (fun e => ⟨r, e.1, e.2, true⟩) else none))

/-- Whether a key of the register file is a field that only firmware writes with plain reads and writes. -/
def firmwareField (k : Nat) : Bool :=
  match placeOf (k / 128) with
  | some p => decide (p.row.vis ≠ .H) && p.row.fields.any (fun f => f.lo == k % 128 && decide (f.acc = .RW))
  | none => false

end Sys2Proof.Machine
end

