-- ==== Sys2Proof/Machine/Stores.lean ====
section
/-! DEFINITION. The commands of a plot's stores (R260-R286) and of its numeric counters (R365, R380): one access at an
issue arbiter, idle flushes, scrub reads, the clear, and debug access. -/

namespace Sys2Proof.Machine

open Host (Outcome)

/-! ### One access (R259-R264) -/

/-- The number of a store. -/
def storeNum : StoreId → Nat
  | .ws => 0 | .as => 1 | .ps => 2

/-- The tag operation of an access (R263). -/
def accTag (a : StoreAccess) : Nat :=
  if a.write then (if a.waitTag then tagFill else tagNone)
  else if a.clearTag then 2 else if a.waitTag then 1 else tagNone

/-- The words that a masked write carries. -/
def accWords (a : StoreAccess) : FMap Nat :=
  (a.mask.zipIdx.filter (fun e => e.1)).map (fun e => (e.2, fieldAt a.data (4 * e.2) 4))

/-- Whether a write covers its whole row. -/
def accWhole (a : StoreAccess) : Bool := a.mask.length == 64 && a.mask.all id

/-- An access beyond the store's rows: contexts and channels fault (R259). -/
def accessRange (s : State) (p : Nat) (a : StoreAccess) : State :=
  if a.agent ≤ 2 then rangeFault s p a.ctx a.agent (storeNum a.store) a.row else s

/-- A granted access, or one that waits: its context is BLOCKED until the tag lets it proceed (R264, R290). -/
def accessOp (s : State) (p : Nat) (a : StoreAccess) : State :=
  let st := storeNum a.store
  let bg (s : State) (w : Option (Nat × Nat)) : State := if a.agent ≤ 1 then setBg s p a.ctx w else s
  if s.storeRows p st ≤ a.row then accessRange s p a
  else if a.write then
    let r := if accWhole a then writeRow s p st a.row (accTag a) a.data else writeWords s p st a.row a.ctx (accTag a) (accWords a)
    match r with
    | (s, .wait) => bg s (some (1, fillArg st a.row))
    | (s, _) => bg s none
  else
    match readRow (storeEcc (flushRow s p st a.row) p st a.row a.agent a.ctx a.ecc) p st a.row (accTag a) with
    | (s, .wait) => bg s (some (1, tagArg st a.row))
    | (s, .poison) => if a.agent ≤ 2 then poisonFault s p a.ctx else s
    | (s, _) => bg s none

/-- STORE_ACCESS. -/
def execStoreAccess (p : Fin 16) (a : StoreAccess) (s : State) : Outcome State Fault Refusal :=
  nextQ (if s.coreUp && s.plotEn p then accessOp s p a else s)

/-! ### Coalescer and scrubber -/

/-- COALESCER_IDLE_FLUSH: an entry with no write merged for 1 us flushes (R270). -/
def idleFlushOp (s : State) (p e : Nat) : State :=
  match (s.plot p).sto.coal[e]? with
  | some x => if x.time + usCounts 1 ≤ s.now then flushEntry s p x else s
  | none => s

/-- COALESCER_IDLE_FLUSH. -/
def execCoalescerIdleFlush (p e : Fin 16) (s : State) : Outcome State Fault Refusal :=
  nextQ (if s.coreUp then idleFlushOp s p e else s)

/-- STORE_SCRUB: the scrubber reads the next row of the Weight Store (R276). -/
def storeScrubOp (s : State) (p : Nat) (ecc : EccEvent) : State :=
  let n := s.storeRows p 0
  if s.rd Reg.STO_CTL_SCRUB_MS [p] = 0 ∨ n = 0 then s
  else
    let row := (s.plot p).sto.scrubRow % n
    let s := storeEcc (flushRow s p 0 row) p 0 row 5 0 ecc
    s.setSto p { (s.plot p).sto with scrubRow := (row + 1) % n }

/-- STORE_SCRUB. -/
def execStoreScrub (p : Fin 16) (ecc : EccEvent) (s : State) : Outcome State Fault Refusal :=
  nextQ (if s.coreUp then storeScrubOp s p ecc else s)

/-! ### The clear (R284) -/

/-- Steps 2 and 3: the channels stop, open coalescer entries are discarded, and the clear is in progress. -/
def clearStart (s : State) (p : Nat) : State :=
  if s.on Reg.STO_STAT_CLEAR_BUSY [p] then s
  else
    let x := s.plot p
    let s := s.setPlot p { x with chans := [], sto := { x.sto with coal := [] } }
    showScoreboard (s.wr Reg.STO_STAT_CLEAR_BUSY [p] 1) p

/-- STORE_CLEAR: a write of 1 to STO_CTL.CLEAR. -/
def execStoreClear (src : Src) (p : Fin 16) (s : State) : Outcome State Fault Refusal :=
  nextQ (fwWrite s src (Reg.STO_CTL_CLEAR.addr [p]) (fun s => if s.coreUp && s.plotEn p then clearStart s p else s))

/-- Step 4: every row zero, every tag EMPTY, planes, row sums and coefficient buffers zero, counters clear. -/
def clearStorage (s : State) (p : Nat) : State :=
  let x := s.plot p
  let a : MArray := { x.arr with cur := {}, shadow := {}, p0 := {}, p1 := {} }
  let s := s.setPlot p { x with sto := { known := true, tagsKnown := true, gen := x.sto.gen }, arr := a }
  let s := (List.range 4).foldl (fun s c => s.setCtx p c { s.ctx p c with coef := [] }) s
  let s := (List.range 3).foldl (fun s i => s.wr Reg.STO_CONFLICT_COUNT [p, i] 0) s
  let s := (List.range 64).foldl (fun s b => s.wr Reg.STO_BANKCONF_COUNT [p, b] 0) s
  let s := (s.wr Reg.STO_ECC_CNT_CE [p] 0).wr Reg.STO_ECC_CNT_UE [p] 0
  let s := [Reg.STO_ERR_VALID, Reg.STO_ERR_KIND, Reg.STO_ERR_STORE, Reg.STO_ERR_ROW, Reg.STO_ERR_AGENT,
    Reg.STO_ERR_CTX, Reg.STO_ERR_TIME].foldl (fun s f => s.wr f [p] 0) s
  showScoreboard (hedgeLevel (showArray s p 0 false) (64 + 8 * p + 2) false 0) p

/-- The clear of a plot ends: step 5. -/
def clearEnd (s : State) (p : Nat) : State :=
  if s.on Reg.STO_STAT_CLEAR_BUSY [p] then
    ((clearStorage s p).wr Reg.STO_STAT_CLEAR_BUSY [p] 0).wrapInc Reg.STO_STAT_CLEAR_GEN [p] 1
  else s

/-! ### Debug access (R286) -/

/-- The store and row that STO_DBG_ROW names, when it names one. -/
def State.debugRow (s : State) (p : Nat) : Option (Nat × Nat) :=
  let st := s.rd Reg.STO_DBG_ROW_STORE [p]
  let row := s.rd Reg.STO_DBG_ROW_ROW [p]
  if s.coreUp && s.plotEn p && decide (st < 3) && decide (row < s.storeRows p st) then some (st, row) else none

/-- What a read of word `i` of STO_DBG_DATA returns, and its effect: a NONE read. -/
def debugReadOp (s : State) (p i : Nat) : Nat × State :=
  match s.debugRow p with
  | some (st, row) =>
    let s := flushRow s p st row
    (fieldAt (s.rowBytes p st row) (4 * i) 4, s)
  | none => (0, s)

/-- DEBUG_ROW_READ. -/
def execDebugRowRead (src : Src) (p : Fin 16) (w : Fin 64) (s : State) : Outcome State Fault Refusal :=
  if s.mayWrite src then
    let r := debugReadOp s p w
    nextQ (r.2.emit (match src with | .bench => .benchRead r.1 | .host f => .completion f (leBytes 4 r.1) false))
  else
    match src with
    | .bench => .next s
    | .host f => .next ((if s.isRun && f == 0 && s.hostReach 0 then
        hostViolation s 0 vRegRefused 0 (Reg.STO_DBG_DATA_WORD.addr [p, w]) true else s).emit
        (.completion f (leBytes 4 0) false))

/-- A write of word `i` of STO_DBG_DATA: a NONE write through the coalescer, of no context. -/
def debugWriteOp (s : State) (p i v : Nat) : State :=
  match s.debugRow p with
  | some (st, row) => (writeWords s p st row 4 tagNone [(i, v % 2 ^ 32)]).1
  | none => s

/-- DEBUG_ROW_WRITE. -/
def execDebugRowWrite (src : Src) (p : Fin 16) (w : Fin 64) (v : Nat) (s : State) : Outcome State Fault Refusal :=
  nextQ (fwWrite s src (Reg.STO_DBG_DATA_WORD.addr [p, w]) (fun s => debugWriteOp s p w v))

/-! ### Numeric counters and seeds -/

/-- Clear the counters and flags of the contexts of a mask (R365). -/
def numClearOp (s : State) (p mask : Nat) : State :=
  (List.range 4).foldl (fun s c =>
    if bitOf mask c then
      let s := ((s.wr Reg.PLT_NUM_SAT [p, c] 0).wr Reg.PLT_NUM_OVF [p, c] 0).wr Reg.PLT_NUM_NAN_LOSS [p, c] 0
      let s := (s.wr Reg.PLT_FLUSH_FLUSH_IN [p, c] 0).wr Reg.PLT_FLUSH_FLUSH_OUT [p, c] 0
      let v := s.rd Reg.PLT_NUMFLAG_FLAGS [p]
      s.wr Reg.PLT_NUMFLAG_FLAGS [p] (v - 2 ^ (4 * c) * bitsOf v (4 * c) 4)
    else s) s

/-- NUM_CLEAR: a write of PLT_NUMCLR. -/
def execNumClear (src : Src) (p : Fin 16) (mask : Nat) (s : State) : Outcome State Fault Refusal :=
  .next (fwWrite s src (Reg.PLT_NUMCLR_CTX_MASK.addr [p])
    (fun s => if s.coreUp && s.plotEn p then numClearOp s p mask else s))

/-- Whether no context of a plot is RUNNING or BLOCKED. -/
def State.plotIdle (s : State) (p : Nat) : Bool := (List.range 4).all (fun c => !s.ctxLive p c)

/-- A write of PLT_SR_SEED or PLT_SR_DIE, discarded while a context runs (R380). -/
def seedWriteOp (s : State) (p : Nat) (die : Bool) (v : Nat) : State :=
  if !s.coreUp ∨ !s.plotEn p ∨ !s.plotIdle p then s
  else if die then s.wr Reg.PLT_SR_DIE_DIE [p] v else s.wr Reg.PLT_SR_SEED_SEED [p] v

/-- SR_SEED_WRITE. -/
def execSrSeedWrite (src : Src) (p : Fin 16) (die : Bool) (v : Nat) (s : State) : Outcome State Fault Refusal :=
  .next (fwWrite s src (if die then Reg.PLT_SR_DIE_DIE.addr [p] else Reg.PLT_SR_SEED_SEED.addr [p])
    (fun s => seedWriteOp s p die v))

end Sys2Proof.Machine
end

