-- ==== Sys2Proof/Machine/Signals.lean ====
section
/-! DEFINITION. Signals (R385-R388), acknowledgements and refusals of packets (R482, R493), and the quiescence
protocol (R383-R399). -/

namespace Sys2Proof.Machine

open Host (Outcome)

/-! ### Signals -/

/-- The first failing check of R386 for a signal, as its reason; 0 when it is accepted. -/
def State.signalReason (s : State) (q : Packet) : Nat :=
  let a := q.dstAgent
  let holds (g : Nat) : Bool := s.armed g && s.rd Reg.TOP_QD_GRP_GTAG [g] == q.tfb 8 2
  if a = 192 ∧ q.srcDie = s.self then 0
  else if 64 ≤ a then 3
  else if (List.range 16).any (fun g => holds g && s.rd Reg.TOP_QD_GRP_EPOCH [g] == q.epoch
      && (s.members g).contains (a / 4)) then 0
  else if (List.range 16).any (fun g => holds g && s.rd Reg.TOP_QD_GRP_EPOCH [g] != q.epoch) then 2
  else 1

/-- Refuse a signal: record the first refusal, raise source 2, and return a refusal. -/
def refuseSignal (s : State) (reason : Nat) (q : Packet) : State :=
  let s := if s.on Reg.TOP_SIG_ERR_VALID [] then s
    else
      let s := (s.wr Reg.TOP_SIG_ERR_DIE [] q.srcDie).wr Reg.TOP_SIG_ERR_AGENT [] q.srcAgent
      let s := (s.wr Reg.TOP_SIG_ERR_DEST [] q.dstAgent).wr Reg.TOP_SIG_ERR_REASON [] reason
      hedgeLevel (s.wr Reg.TOP_SIG_ERR_VALID [] 1) 2 true 0
  sendNak s q (0x17 + reason) 0

/-- Add to a signal counter; above 65,535 it holds 65,535 and the receiving context faults (R316). -/
def addSignal (s : State) (p c n inc : Nat) : State :=
  let v := s.rd Reg.RKE_SIG_COUNT [p, c, n] + inc
  if v < 65536 then s.wr Reg.RKE_SIG_COUNT [p, c, n] v
  else ctxFault (s.wr Reg.RKE_SIG_COUNT [p, c, n] 65535) p c 9 n

/-- A signal reaches its die: it is applied and acknowledged, or refused. One to agent 192 waits for firmware. -/
def signalDeliveryOp (s : State) (q : Packet) : State :=
  if q.typ ≠ 2 then s
  else
    match s.signalReason q with
    | 0 =>
      let s := if q.dstAgent = 192 then
          { s with cloche := { s.cloche with sigQ := s.cloche.sigQ ++ [q] } }
        else addSignal s (q.dstAgent / 4) (q.dstAgent % 4) (q.tfb 12 1 % 8) (q.tfb 10 2)
      sendAck s q false false 0
    | r => refuseSignal s r q

/-- SIGNAL_DELIVERY. -/
def execSignalDelivery (q : Packet) (s : State) : Outcome State Fault Refusal :=
  nextQ (if s.coreUp then signalDeliveryOp (takeInbox s q) q else takeInbox s q)

/-! ### Acknowledgements and refusals -/

/-- The flight that an ACK or NAK answers: its type, agents and SEQ or TAG; a NAK may come from a die on the way. -/
def Flight.answers (f : Flight) (q : Packet) : Bool :=
  f.typ == q.tfb 8 1 && f.srcAgent == q.dstAgent && f.agent == q.srcAgent && f.epoch == q.epoch
    && f.tag == q.tfb 10 2 && (q.typ == 4 || f.die == q.srcDie)

/-- Take the flight that a packet answers out of the flights. -/
def takeFlight (s : State) (q : Packet) : State × Option Flight :=
  match s.flights.find? (fun f => f.answers q) with
  | some f => ({ s with flights := s.flights.erase f }, some f)
  | none => (s, none)

/-- The status that a job ends with after a NAK (R493). -/
def nakStatus (code : Nat) : Status := if code = 0x12 ∨ code = 0x19 ∨ code = 0x22 then .staleEpoch else .jobFault

/-- The cause and argument of the fault after a NAK (R325, R386, R458, R493). -/
def nakCause (typ code : Nat) : Nat × Nat :=
  if typ = 2 ∧ 0x18 ≤ code ∧ code ≤ 0x1A then (13, code)
  else if code = 0x21 then (15, code)
  else (16, code)

/-- A context receives a NAK and faults (R493). -/
def nakFault (s : State) (k typ code : Nat) : State :=
  let x := nakCause typ code
  ctxFaultAs s (k / 4) (k % 4) x.1 x.2 (nakStatus code)

/-! ### Arming (R383) -/

/-- A write of TOP_QD_GRP_g with EN = 1, made while EN = 0: every field is written, GEN clears. -/
def qdArmOp (s : State) (g v : Nat) : State :=
  if s.armed g then s
  else
    let s := (s.wr Reg.TOP_QD_GRP_PLOTS [g] (bitsOf v 0 16)).wr Reg.TOP_QD_GRP_FEED_EN [g] (bitsOf v 17 1)
    let s := (s.wr Reg.TOP_QD_GRP_FEED_PLOT [g] (bitsOf v 18 4)).wr Reg.TOP_QD_GRP_FEED_CTX [g] (bitsOf v 22 2)
    let s := (s.wr Reg.TOP_QD_GRP_COORD [g] (bitsOf v 24 8)).wr Reg.TOP_QD_GRP_GTAG [g] (bitsOf v 32 16)
    let s := (s.wr Reg.TOP_QD_GRP_EPOCH [g] (bitsOf v 48 16)).wr Reg.TOP_QD_GRP_EN [g] 1
    let s := (s.wr Reg.TOP_QD_GST_ARMED [g] 1).wr Reg.TOP_QD_GST_GEN [g] 0
    ((s.wr Reg.TOP_QD_GST_QUIET [g] 0).wr Reg.TOP_QD_GST_REPORTED [g] 0).setQslot g {}

/-- QD_ARM. -/
def execQdArm (src : Src) (g : Fin 16) (v : Nat) (s : State) : Outcome State Fault Refusal :=
  nextQ (fwWrite s src (Reg.TOP_QD_GRP_EN.addr [g]) (fun s => qdArmOp s g v))

/-- QD_DISARM. -/
def execQdDisarm (src : Src) (g : Fin 16) (s : State) : Outcome State Fault Refusal :=
  nextQ (fwWrite s src (Reg.TOP_QD_GRP_EN.addr [g]) (fun s => qdDisarmOp s g))

/-! ### The protocol (R393-R396) -/

/-- A quiescence message of slot `g` (R482): 0 QUIET, 1 PROBE, 2 QUIET answer, 3 ACTIVE, 4 NOT_ARMED, 5 VERDICT. -/
def State.qdPacket (s : State) (g kind die : Nat) : Packet :=
  ctlPacket 11 die s.self 192 192 (s.rd Reg.TOP_QD_GRP_EPOCH [g])
    (s.rd Reg.TOP_QD_GRP_GTAG [g] + 2 ^ 16 * kind + 2 ^ 32 * s.rd Reg.TOP_QD_GST_GEN [g])

/-- The die set of a slot. -/
def State.dieSet (s : State) (g : Nat) : List Nat :=
  (List.range 256).filter (fun d => bitOf (s.rd Reg.TOP_QD_DIES_MASK [g, d / 32]) (d % 32))

/-- The armed slot that a message names by GTAG and EPOCH. -/
def State.slotOf (s : State) (q : Packet) : Option Nat :=
  (List.range 16).find? (fun g => s.armed g && s.rd Reg.TOP_QD_GRP_GTAG [g] == q.tfb 8 2
    && s.rd Reg.TOP_QD_GRP_EPOCH [g] == q.epoch)

/-- QD_WINDOW_EXPIRY: the slot has been quiescent for its window, so one QUIET report leaves (R393). -/
def windowExpiryOp (s : State) (g : Nat) : State :=
  let x := s.qslot g
  if s.armed g && s.on Reg.TOP_QD_GST_QUIET [g] && !s.on Reg.TOP_QD_GST_REPORTED [g]
      && !s.on Reg.TOP_QD_WIN_OFF [g] && decide (x.since + x.window ≤ s.now) then
    injectPkt (s.wr Reg.TOP_QD_GST_REPORTED [g] 1) (s.qdPacket g 0 (s.rd Reg.TOP_QD_GRP_COORD [g]))
  else s

/-- QD_WINDOW_EXPIRY. -/
def execQdWindowExpiry (g : Fin 16) (s : State) : Outcome State Fault Refusal := nextQ (windowExpiryOp (qdRefresh s) g)

/-- The coordinator holds a report from every die of the set and no round is open: it sends the PROBEs (R394). -/
def startRound (s : State) (g : Nat) : State :=
  let x := s.qslot g
  let dies := s.dieSet g
  if !x.round && !dies.isEmpty && dies.all (fun d => FMap.has x.reports d) then
    dies.foldl (fun s d => injectPkt s (s.qdPacket g 1 d))
      (s.setQslot g { x with round := true, answers := [], lostProbes := 0 })
  else s

/-- QUIET at the coordinator. -/
def quietOp (s : State) (q : Packet) : State :=
  match s.slotOf q with
  | some g =>
    if (s.dieSet g).contains q.srcDie ∧ q.tfb 10 1 = 0 then
      startRound (s.setQslot g { s.qslot g with reports := FMap.put (s.qslot g).reports q.srcDie (q.tfb 12 2) }) g
    else s
  | none => s

/-- QUIET. -/
def execQuiet (q : Packet) (s : State) : Outcome State Fault Refusal := nextQ (quietOp (takeInbox s q) q)

/-- The snapshot entry of a context (R399). -/
def State.snapEntry (s : State) (p c : Nat) : Nat :=
  s.self + 2 ^ 8 * p + 2 ^ 12 * c + 2 ^ 14 * b2n (s.ctxState p c == 0)
    + 2 ^ 16 * s.rd Reg.RKE_CTX_WAIT_KIND [p, c] + 2 ^ 20 * s.pcOf p c + 2 ^ 32 * s.rd Reg.RKE_CTX_WAIT_ARG [p, c]

/-- Latch the member contexts of a slot, once for each GEN (R394). -/
def latchSnap (s : State) (g : Nat) : State :=
  let gen := s.rd Reg.TOP_QD_GST_GEN [g]
  if (s.qslot g).latched = some gen then s
  else
    let s := (s.members g).foldl (fun s p => (List.range 4).foldl (fun s c =>
      s.wr Reg.TOP_QD_SNAP_ENTRY [4 * p + c] (s.snapEntry p c)) s) s
    (s.wr Reg.TOP_QD_GST_SNAP_VALID [g] 1).setQslot g { s.qslot g with latched := some gen }

/-- PROBE at a member die. -/
def probeOp (s : State) (q : Packet) : State :=
  match s.slotOf q with
  | none => injectPkt s (ctlPacket 11 q.srcDie s.self 192 192 q.epoch (q.tfb 8 2 + 2 ^ 16 * 4))
  | some g =>
    if s.on Reg.TOP_QD_GST_QUIET [g] then
      let s := if s.on Reg.TOP_QD_GST_REPORTED [g] then latchSnap s g else s
      injectPkt s (s.qdPacket g 2 q.srcDie)
    else injectPkt s (s.qdPacket g 3 q.srcDie)

/-- PROBE. -/
def execProbe (q : Packet) (s : State) : Outcome State Fault Refusal := nextQ (probeOp (qdRefresh (takeInbox s q)) q)

/-- The round ends once every PROBE is answered or lost: a verdict when every answer is QUIET with its report's GEN,
otherwise the reports of the other dies are discarded (R394). -/
def closeRound (s : State) (g : Nat) : State :=
  let x := s.qslot g
  let dies := s.dieSet g
  let good (d : Nat) : Bool := match FMap.find x.answers d, FMap.find x.reports d with
    | some (some a), some r => a == r
    | _, _ => false
  if !x.round ∨ x.answers.length + x.lostProbes < dies.length then s
  else if dies.all good then
    let s := s.satInc Reg.TOP_QD_STAT_VERDICTS [] 1
    dies.foldl (fun s d => injectPkt s (s.qdPacket g 5 d))
      (s.setQslot g { x with round := false, answers := [], reports := [], lostProbes := 0 })
  else
    let s := s.satInc Reg.TOP_QD_STAT_CANCELLED [] 1
    s.setQslot g { x with round := false, answers := [], reports := FMap.dropWhere x.reports (fun d => !good d),
                          lostProbes := 0 }

/-- QD_ANSWER at the coordinator: QUIET with its GEN, ACTIVE or NOT_ARMED. -/
def answerOp (s : State) (q : Packet) : State :=
  match s.slotOf q with
  | some g =>
    let x := s.qslot g
    if x.round ∧ (s.dieSet g).contains q.srcDie then
      let a := if q.tfb 10 1 = 2 then some (q.tfb 12 2) else none
      closeRound (s.setQslot g { x with answers := FMap.put x.answers q.srcDie a }) g
    else s
  | none => s

/-- QD_ANSWER. -/
def execQdAnswer (q : Packet) (s : State) : Outcome State Fault Refusal := nextQ (answerOp (takeInbox s q) q)

/-- A quiescence message could not be delivered: its PROBE counts as an answer that differs (R394). -/
def lostProbe (s : State) (epoch : Nat) : State :=
  match (List.range 16).find? (fun g => (s.qslot g).round && s.rd Reg.TOP_QD_GRP_EPOCH [g] == epoch) with
  | some g => closeRound (s.setQslot g { s.qslot g with lostProbes := (s.qslot g).lostProbes + 1 }) g
  | none => s

/-- The snapshot that JOB_WAIT carries (R399). -/
def State.snapBytes (s : State) (g : Nat) : List Byte :=
  let all := (s.members g).flatMap (fun p => (List.range 4).map (fun c => 4 * p + c))
  let l := all.take 10
  leBytes 2 (s.rd Reg.TOP_QD_GRP_GTAG [g]) ++ leBytes 2 (s.rd Reg.TOP_QD_GRP_EPOCH [g])
    ++ leBytes 1 (s.rd Reg.TOP_QD_GRP_COORD [g]) ++ leBytes 1 ((s.dieSet g).length) ++ leBytes 1 all.length
    ++ leBytes 1 l.length ++ leBytes 8 s.now
    ++ padTo 80 (l.flatMap (fun e => leBytes 8 (s.rd Reg.TOP_QD_SNAP_ENTRY [e])))

/-- VERDICT at a member die: firmware ends its part of the job with DEADLOCK (R397, R398). -/
def verdictOp (s : State) (q : Packet) : State :=
  match s.slotOf q with
  | none => s
  | some g =>
    let s := hedgeEvent (s.wr Reg.TOP_QD_GST_VERDICT [g] 1) (16 + g) (s.rd Reg.TOP_QD_GRP_GTAG [g])
    match (List.range 16).find? (fun j => (s.job j).loaded && (s.job j).groups.contains g) with
    | some j => endJob (s.setJob j { s.job j with snap := s.snapBytes g }) j .deadlock
    | none => s

/-- VERDICT. -/
def execVerdict (q : Packet) (s : State) : Outcome State Fault Refusal := nextQ (verdictOp (takeInbox s q) q)

end Sys2Proof.Machine
end

