-- ==== Sys2Proof/Machine/Starts.lean ====
section
/-! DEFINITION. The start sequence (R209, R210): JOB_START and its hold (R637), the messages READY, GO and START_ABORT,
abandoning a start, and what step 1 prepares (R266, R280, R288, R312, R365, R380, R383). -/

namespace Sys2Proof.Machine

open Host (Outcome)

/-! ### The job a command names (R184, R197a) -/

/-- The load slot that a handle names for a function. -/
def State.jobNamed (s : State) (f h : Nat) : Option Nat :=
  let j := h % 256
  if j < 16 ∧ (s.job j).loaded ∧ (s.job j).func = f ∧ (s.job j).handle j = h then some j else none

/-- Run with the job that descriptor bytes 8-9 name, or fail with NO_JOB. -/
def withJob (s : State) (c : Cmd) (act : Nat → State) : State :=
  match s.jobNamed c.func (c.fld 8 2) with
  | some j => act j
  | none => fail s c .noJob 8 0 (c.fld 8 2)

/-! ### Step 1 of R209 -/

/-- The contexts that a bundle names on a plot. -/
def namedCtxs (b : List Byte) (p : Nat) : List Nat := (List.range 4).filter (fun c => (entryPoint b p c).isSome)

/-- The tags of a plot at JOB_START: FULL in the runs of its LAYOUT record, EMPTY elsewhere (R266). -/
def startTags (s : State) (p : Nat) (r : List Byte) : State :=
  let rows := (List.range (fieldAt r 10 2)).flatMap (fun i =>
    let o := 16 + 8 * i
    (List.range (fieldAt r (o + 4) 2)).map (fun k => rowKey (fieldAt r o 1) (fieldAt r (o + 2) 2 + k)))
  let tags := rows.foldl (fun m k => FMap.put m k true) []
  s.setSto p { (s.plot p).sto with tags := tags, tagsKnown := true }

/-- A window is written and enabled under a new epoch, empty and with nothing granted (R280). -/
def startWindow (s : State) (r : List Byte) : State :=
  let p := fieldAt r 0 1
  let w := fieldAt r 1 1
  let i := [p, w]
  let base := fieldAt r 2 2
  let rows := fieldAt r 4 2
  let st := fieldAt r 6 1
  let s := s.wr Reg.STO_WIN_EPOCH i (epochNext (s.rd Reg.STO_WIN_EPOCH i))
  let s := (s.wr Reg.STO_WINSTAT_NEXT_SEQ i 0).wr Reg.STO_WINSTAT_NEXT_OFF i 0
  let s := s.wr Reg.STO_WINSTAT_OUTSTANDING i 0
  let s := (List.range rows).foldl (fun s k => setTag s p st (base + k) false) s
  let s := ((s.wr Reg.STO_WIN_BASE_ROW i base).wr Reg.STO_WIN_ROWS i rows).wr Reg.STO_WIN_STORE i st
  let s := (s.wr Reg.STO_WIN_PROD_DIE i (fieldAt r 7 1)).wr Reg.STO_WIN_PROD_AGENT i (fieldAt r 8 1)
  s.wr Reg.STO_WIN_EN i 1

/-- A credit counter is bound and enabled (R312). -/
def startCounter (s : State) (r : List Byte) : State :=
  let i := [fieldAt r 0 1, fieldAt r 1 1]
  let s := (s.wr Reg.RKE_CRD_WINDOW i (fieldAt r 2 1)).wr Reg.RKE_CRD_DEST_PLOT i (fieldAt r 3 1)
  let s := (s.wr Reg.RKE_CRD_DEST_DIE i (fieldAt r 4 1)).wr Reg.RKE_CRD_AGENT i (fieldAt r 5 1)
  let s := ((s.wr Reg.RKE_CRD_CREDITS i 0).wr Reg.RKE_CRD_EPOCH i 0).wr Reg.RKE_CRD_BOUND i 0
  (s.wr Reg.RKE_CRDSEQ_NEXT_SEQ i 0).wr Reg.RKE_CRD_EN i 1

/-- A detector slot is armed for a pipeline group with members on this die (R383); the job remembers the slot. -/
def startGroup (s : State) (j : Nat) (r : List Byte) : State :=
  if fieldAt r 2 2 = 0 then s
  else
    match (List.range 16).find? (fun g => !s.armed g) with
    | none => s
    | some g =>
      let s := (List.range 8).foldl (fun s w => s.wr Reg.TOP_QD_DIES_MASK [g, w] (fieldAt r (16 + 4 * w) 4)) s
      let s := s.wr Reg.TOP_QD_WIN_WIN_US [g] (max 1 (fieldAt r 6 2))
      let feed := fieldAt r 5 1
      let s := qdArmOp s g (fieldAt r 2 2 + 2 ^ 16 + 2 ^ 17 * bitsOf feed 0 1 + 2 ^ 18 * bitsOf feed 1 4
        + 2 ^ 22 * bitsOf feed 5 2 + 2 ^ 24 * fieldAt r 4 1 + 2 ^ 32 * fieldAt r 0 2
        + 2 ^ 48 * epochNext (s.rd Reg.TOP_QD_GRP_EPOCH [g]))
      let s := { s with rwc := { s.rwc with epochs := FMap.erase s.rwc.epochs (fieldAt r 0 2) } }
      s.setJob j { s.job j with groups := (s.job j).groups ++ [g] }

/-- A named context stands HALTED at its entry point under the empty set (R288). -/
def startCtx (s : State) (p c entry : Nat) : State :=
  let s := dropSet s (.rkeDt (Fin.ofNat 16 p) (Fin.ofNat 4 c))
  let s := (List.range 64).foldl (fun s i => s.wr Reg.RKE_DT_WORD.mirror [p, c, i] 0) s
  let s := (List.range 8).foldl (fun s k => s.wr Reg.RKE_SIG_COUNT [p, c, k] 0) s
  let s := (s.wr Reg.RKE_TILES_ORDINAL [p, c] 0).wr Reg.RKE_CTX_PC [p, c] entry
  let s := { s with graft := { s.graft with rx := FMap.erase s.graft.rx (4 * p + c) } }
  showCtx ((s.setCtx p c { coef := (s.ctx p c).coef }).wr Reg.RKE_CTX_STATE [p, c] 0) p c

/-- A plot as JOB_START prepares it. The empty set has taken effect, so no weight plane is reused (R303). -/
def startPlot (s : State) (b : List Byte) (seed p : Nat) : State :=
  let s := match (layouts b).find? (fun r => fieldAt r 0 1 == p) with
    | some r => startTags s p r
    | none => s
  let named := namedCtxs b p
  let s := numClearOp s p (named.foldl (fun m c => m + 2 ^ c) 0)
  let s := (List.range 3).foldl (fun s i => s.wr Reg.STO_CONFLICT_COUNT [p, i] 0) s
  let s := (List.range 64).foldl (fun s k => s.wr Reg.STO_BANKCONF_COUNT [p, k] 0) s
  let s := (s.wr Reg.PLT_SR_SEED_SEED [p] seed).wr Reg.PLT_SR_DIE_DIE [p] s.self
  let a := (s.plot p).arr
  let cur : WPlane := { a.cur with key := none }
  let sh : WPlane := { a.shadow with key := none }
  let s := showArray (s.setPlot p { s.plot p with arr := { a with cur := cur, shadow := sh } }) p 0 false
  let s := { s with flights := s.flights.filter (fun f => f.ctx / 4 != p) }
  named.foldl (fun s c => startCtx s p c ((entryPoint b p c).getD 0)) s

/-- Step 1: the state, and whether this die's own records found room. -/
def prepareStart (s : State) (j seed : Nat) : State × Bool :=
  let x := s.job j
  let b := x.bundle
  let s := x.plotList.foldl (fun s p => startPlot s b seed p) s
  let s := (records b 5 16).foldl startWindow s
  let s := (records b 6 16).foldl startCounter s
  let s := (records b 7 48).foldl (fun s r => startGroup s j r) s
  let steps := x.plotList.foldl (fun m p => FMap.put m p (s.rd Reg.PLT_STEPS_COUNT [p])) []
  let s := s.setJob j { s.job j with steps0 := steps }
  match installOwn s j with
  | some s => (s, true)
  | none => (s, false)

/-! ### Abandoning (R210) -/

/-- A start message. -/
def State.startPacket (s : State) (kind die job tag : Nat) : Packet :=
  { ctlPacket 14 die s.self 192 192 0 (kind + 2 ^ 16 * job + 2 ^ 48 * tag) with vc := 0, first := true, last := true }

/-- Undo step 1. -/
def undoStart (s : State) (j : Nat) : State :=
  let x := s.job j
  let s := x.plotList.foldl closeWindows s
  let s := (records x.bundle 6 16).foldl (fun s r => s.wr Reg.RKE_CRD_EN [fieldAt r 0 1, fieldAt r 1 1] 0) s
  let s := x.groups.foldl qdDisarmOp s
  let s := removeOwn s j
  s.setJob j { s.job j with groups := [], start := none }

/-- Abandon a start: undo step 1, send START_ABORT and fail the command. -/
def abandonStart (s : State) (j : Nat) (st : Status) (value : Nat) : State :=
  let x := s.job j
  match x.start with
  | none => s
  | some t =>
    let b := x.bundle
    let s := undoStart s j
    let dies := if s.leads b then (runDies b).filter (fun d => d != s.self) ++ t.targets else [leader b]
    let s := dies.foldl (fun s d => injectPkt s (s.startPacket 7 d (jobId b) t.tag)) s
    s.failCmd t.func t.slot st 0xFFFF 0 value

/-! ### Steps 2 to 5 -/

/-- Step 5 on this die: credits are granted, named contexts run and JOB_START posts. -/
def goHere (s : State) (j : Nat) : State :=
  let x := s.job j
  match x.start with
  | none => s
  | some t =>
    let b := x.bundle
    let s := (records b 5 16).foldl (fun s r => grantWindow s (fieldAt r 0 1) (fieldAt r 1 1)) s
    let s := s.setJob j { x with start := none, state := 1, changedAt := s.now }
    let s := s.finish t.func t.slot .ok (leBytes 8 s.now)
    let faulted := x.plotList.any (fun p => (namedCtxs b p).any (fun c => s.ctxState p c == 3))
    let s := x.plotList.foldl (fun s p => (namedCtxs b p).foldl (fun s c =>
      if s.ctxState p c = 0 then s.wr Reg.RKE_CTX_STATE [p, c] 1 else s) s) s
    if faulted then endJob s j .jobFault
    else if x.plotList.all (fun p => (namedCtxs b p).isEmpty) then endJob s j .ok
    else s

/-- Step 4 at the leader, once every READY and every ACK has come. -/
def tryGo (s : State) (j : Nat) : State :=
  let x := s.job j
  match x.start with
  | none => s
  | some t =>
    let b := x.bundle
    let others := (runDies b).filter (fun d => d != s.self)
    if s.leads b && others.all t.ready.contains && t.targets.all t.acked.contains then
      let s := others.foldl (fun s d => injectPkt s (s.startPacket 6 d (jobId b) t.tag)) s
      goHere s j
    else s

/-- Steps 1 to 3 for a command whose checks have passed. -/
def beginStart (s : State) (c : Cmd) (j : Nat) : State :=
  let x := s.job j
  let b := x.bundle
  let tmo := c.fld 12 2
  let targets := if s.leads b then outsideDies b else []
  let t : Start := { func := c.func, slot := c.slot, tag := c.fld 10 2, tmo := msCounts (if tmo = 0 then 1000 else tmo),
                     at' := s.now, targets := targets }
  let s := running (s.setJob j { x with start := some t, groups := [] }) c
  let r := prepareStart s j (c.fld 16 8)
  let s := r.1
  if !r.2 then abandonStart s j .noResource s.self
  else if s.leads b then
    let s := targets.foldl (fun s d => injectAll s (streamOf
      { s.startPacket 3 d (jobId b) t.tag with first := false, last := false } (installBody b d))) s
    tryGo s j
  else injectPkt s (s.startPacket 5 (leader b) (jobId b) t.tag)

/-- Whether the start of a job is held (R637). -/
def State.startHeld (s : State) (j : Nat) : Bool :=
  (s.job j).plotList.any (fun p => decide (s.now < FMap.get s.plotHold 0 p))

/-- JOB_START: its checks, then the start unless it is held. The argument buffer is read and no rule uses it. -/
def jobStartOp (s : State) (f i : Nat) (buf : HostBuf) : State :=
  acs s f i 0x202 (fun s c =>
    let go (s : State) : State := withJob s c (fun j =>
      if (s.job j).state ≠ 0 ∨ (s.job j).start.isSome then fail s c .jobState 8 0 (s.job j).state
      else if s.startHeld j then running s c
      else beginStart s c j)
    if c.fld 32 4 = 0 then (if 1 < c.fld 36 1 then fail s c .badParam 36 0 (c.fld 36 1) else go s)
    else withBuffer s c 24 buf (fun s _ => go s))

/-- JOB_START. -/
def execJobStart (f : Fin 16) (i : Fin 128) (buf : HostBuf) (s : State) : Outcome State Fault Refusal :=
  nextQ (jobStartOp s f i buf)

/-- JOB_START_HOLD_EXPIRY: a held JOB_START proceeds. -/
def holdExpiryOp (s : State) (f i : Nat) : State :=
  match s.cmd? f i with
  | none => s
  | some c =>
    if c.opcode ≠ 0x202 ∨ !c.started ∨ c.result.isSome ∨ !s.coreUp ∨ !s.fwRuns then s
    else
      match s.jobNamed f (c.fld 8 2) with
      | none => fail s c .noJob 8 0 (c.fld 8 2)
      | some j =>
        match (s.job j).start with
        | some t => if t.func = f ∧ t.slot = i then s else fail s c .jobState 8 0 (s.job j).state
        | none =>
          if (s.job j).state ≠ 0 then fail s c .jobState 8 0 (s.job j).state
          else if s.startHeld j then s
          else beginStart s c j

/-- JOB_START_HOLD_EXPIRY. -/
def execJobStartHoldExpiry (f : Fin 16) (i : Fin 128) (s : State) : Outcome State Fault Refusal :=
  nextQ (holdExpiryOp s f i)

/-! ### Messages -/

/-- The start in progress that a message names by JOB_ID and START_TAG. -/
def State.startNamed (s : State) (q : Packet) : Option (Nat × Start) :=
  (List.range 16).findSome? (fun j =>
    match (s.job j).start with
    | some t => if t.tag = q.tfb 14 2 ∧ jobId (s.job j).bundle = q.tfb 10 4 then some (j, t) else none
    | none => none)

/-- READY at the leader. -/
def readyOp (s : State) (q : Packet) : State :=
  match s.startNamed q with
  | some (j, t) =>
    if s.leads (s.job j).bundle ∧ (runDies (s.job j).bundle).contains q.srcDie then
      tryGo (s.setJob j { s.job j with start := some { t with ready := q.srcDie :: t.ready } }) j
    else s
  | none => s

/-- READY. -/
def execReady (q : Packet) (s : State) : Outcome State Fault Refusal :=
  let s := takeInbox s q
  nextQ (if s.coreUp && q.typ == 14 && q.tfb 8 2 == 5 then readyOp s q else s)

/-- GO from the leader. -/
def goOp (s : State) (q : Packet) : State :=
  match s.startNamed q with
  | some (j, _) => if q.srcDie = leader (s.job j).bundle then goHere s j else s
  | none => s

/-- GO. -/
def execGo (q : Packet) (s : State) : Outcome State Fault Refusal :=
  let s := takeInbox s q
  nextQ (if s.coreUp && q.typ == 14 && q.tfb 8 2 == 6 then goOp s q else s)

/-- START_ABORT: a running die abandons its start; a die outside RUN removes what it installed. -/
def startAbortOp (s : State) (q : Packet) : State :=
  match s.startNamed q with
  | some (j, _) => abandonStart s j .dieSet q.srcDie
  | none => dropInstalled s (q.tfb 10 4) q.srcDie

/-- START_ABORT. -/
def execStartAbort (q : Packet) (s : State) : Outcome State Fault Refusal :=
  let s := takeInbox s q
  nextQ (if s.coreUp && q.typ == 14 && q.tfb 8 2 == 7 then startAbortOp s q else s)

/-- The first die whose READY, ACK or GO is missing. -/
def State.missingDie (s : State) (b : List Byte) (t : Start) : Nat :=
  if s.leads b then
    (((runDies b).filter (fun d => d != s.self && !t.ready.contains d)
      ++ t.targets.filter (fun d => !t.acked.contains d)).foldl (fun m d => min m d) 255)
  else leader b

/-- START_TIMEOUT: START_TMO_MS has passed since step 1. -/
def startTimeoutOp (s : State) (j : Nat) : State :=
  match (s.job j).start with
  | some t => if t.at' + t.tmo ≤ s.now then abandonStart s j .dieSet (s.missingDie (s.job j).bundle t) else s
  | none => s

/-- START_TIMEOUT. -/
def execStartTimeout (j : Fin 16) (s : State) : Outcome State Fault Refusal := nextQ (startTimeoutOp s j)

/-- An ACK of an INSTALL stream: the target counts, or it lacks the space and the start is abandoned. -/
def installAcked (s : State) (q : Packet) : State :=
  match (List.range 16).findSome? (fun j =>
      match (s.job j).start with
      | some t => if t.tag = q.tfb 10 2 ∧ t.targets.contains q.srcDie then some (j, t) else none
      | none => none) with
  | some (j, t) =>
    if bitOf (q.tfb 9 1) 1 then abandonStart s j .noResource q.srcDie
    else tryGo (s.setJob j { s.job j with start := some { t with acked := q.srcDie :: t.acked } }) j
  | none => s

end Sys2Proof.Machine
end

