-- ==== Sys2Proof/Machine/Jobs.lean ====
section
/-! DEFINITION. The job commands (R199-R208): loading a bundle with its checks, unloading, waiting, aborting, and the
batches of a job. -/

namespace Sys2Proof.Machine

open Host (Outcome)

/-! ### The sections of a bundle (R207, R208) -/

/-- The types of section table entries. -/
def bundleTypes (b : List Byte) : List Nat := (List.range (fieldAt b 6 2)).map (fun i => fieldAt b (64 + 16 * i) 1)

/-- Whether a COUNT is within the bound of its type. -/
def countOk (typ n : Nat) : Bool :=
  match typ with
  | 1 => n == 1
  | 2 => 1 ≤ n && n ≤ 16
  | 3 => 1 ≤ n && n ≤ 16
  | 5 => n ≤ 256
  | 6 => n ≤ 256
  | 7 => 1 ≤ n && n ≤ 16
  | 9 => n == 1
  | 11 => n == 1
  | _ => true

/-- The section table: bounds, alignment, overlap, types and counts. -/
def sectionTableOk (b : List Byte) : Bool :=
  let k := fieldAt b 6 2
  let o (i : Nat) : Nat := fieldAt b (68 + 16 * i) 4
  let n (i : Nat) : Nat := fieldAt b (72 + 16 * i) 4
  decide (1 ≤ k ∧ k ≤ 64 ∧ 64 + 16 * k ≤ b.length)
    && (List.range k).all (fun i =>
      let t := fieldAt b (64 + 16 * i) 1
      fieldAt b (65 + 16 * i) 3 == 0 && 1 ≤ t && t ≤ 11 && countOk t (fieldAt b (76 + 16 * i) 4)
        && o i % 16 == 0 && decide (64 + 16 * k ≤ o i ∧ o i + n i ≤ b.length)
        && (List.range i).all (fun j => decide (o j + n j ≤ o i ∨ o i + n i ≤ o j)))
    && (bundleTypes b).dedup.length == k
    && [1, 2, 3, 7].all (bundleTypes b).contains

/-- Whether the records of a section of fixed-size records lie within it. -/
def recordsFit (b : List Byte) (typ size : Nat) : Bool :=
  match sectionOf b typ with
  | some (_, l, n) => decide (size * n ≤ l)
  | none => true

/-- Whether records of variable length lie within their section. -/
def varFit (size : List Byte → Nat) : Nat → List Byte → Bool
  | 0, _ => true
  | n + 1, l => decide (16 ≤ l.length ∧ size l ≤ l.length) && varFit size n (l.drop (size l))

def varRecordsFit (b : List Byte) (typ : Nat) (size : List Byte → Nat) : Bool :=
  match sectionOf b typ with
  | some (_, _, n) => varFit size n (sectionBytes b typ)
  | none => true

/-- The IMAGE records. -/
def imageSize (l : List Byte) : Nat := 16 + 256 * fieldAt l 4 2
def images (b : List Byte) : List (List Byte) :=
  match sectionOf b 4 with
  | some (_, _, n) => varRecords imageSize n (sectionBytes b 4)
  | none => []

/-- The plots that a bundle names. -/
def bundlePlots (b : List Byte) : List Nat := (programs b).map (fun r => fieldAt r 0 1)

/-- A list of plots as a mask. -/
def bitMask (l : List Nat) : Nat := l.dedup.foldl (fun m p => m + 2 ^ p) 0

/-- The GROUPS record of a plot. -/
def groupRec (b : List Byte) (p : Nat) : Option (List Byte) := (records b 7 48).find? (fun r => bitOf (fieldAt r 2 2) p)

/-- Whether a die, and on this die a plot, belongs to the pipeline group of plot `p` (R382). -/
def inGroup (self : Nat) (b : List Byte) (p die plot : Nat) : Bool :=
  match groupRec b p with
  | some r => maskBit r 16 die && (die != self || bitOf (fieldAt r 2 2) plot)
  | none => false

/-- The plot of a context or DMA channel by its agent ID. -/
def agentPlot (a : Nat) : Nat := if a < 64 then a / 4 else (a - 64) / 8

/-- The sections that R208 lays out, but for GRAFT, UPDATE and BATCH. -/
def fixedSectionsOk (b : List Byte) : Bool :=
  recordsFit b 1 64 && recordsFit b 5 16 && recordsFit b 6 16 && recordsFit b 7 48 && recordsFit b 8 8 && recordsFit b 11 48
    && varRecordsFit b 2 (fun l => 16 + 16 * fieldAt l 4 2)
    && varRecordsFit b 3 (fun l => 16 + 8 * fieldAt l 10 2) && varRecordsFit b 4 imageSize

/-- DIES: reserved bytes and LEADER. -/
def diesOk (b : List Byte) : Bool :=
  let d := sectionBytes b 1
  allZero (d.drop 34) && (runDies b).head? == some (leader b)

/-- PROGRAM: distinct plots, bounds and entry points. -/
def programsOk (b : List Byte) : Bool :=
  (bundlePlots b).dedup.length == (programs b).length
    && (programs b).all (fun r => fieldAt r 0 1 < 16 && fieldAt r 1 1 == 0 && fieldAt r 14 2 == 0
      && fieldAt r 2 2 + fieldAt r 4 2 ≤ 4096
      && (List.range 4).all (fun c => let e := fieldAt r (6 + 2 * c) 2; e == 0xFFFF || e < 4096))

/-- LAYOUT: one for each named plot; runs name a store. -/
def layoutsOk (b : List Byte) : Bool :=
  let l := (layouts b).map (fun r => fieldAt r 0 1)
  l.dedup.length == l.length && l.length == (bundlePlots b).length && l.all (bundlePlots b).contains
    && (layouts b).all (fun r => fieldAt r 1 3 == 0 && fieldAt r 12 4 == 0
      && (List.range (fieldAt r 10 2)).all (fun i =>
        let o := 16 + 8 * i
        fieldAt r o 1 < 3 && fieldAt r (o + 1) 1 == 0 && fieldAt r (o + 6) 2 == 0))

/-- IMAGE: a named plot and a store. -/
def imagesOk (b : List Byte) : Bool :=
  (images b).all (fun r => (bundlePlots b).contains (fieldAt r 0 1) && fieldAt r 1 1 < 3 && allZero ((r.drop 6).take 10))

/-- WINDOWS: distinct windows of named plots whose producers lie in their groups (R382). -/
def windowsOk (self : Nat) (b : List Byte) : Bool :=
  let l := records b 5 16
  (l.map (fun r => fieldAt r 0 2)).dedup.length == l.length
    && l.all (fun r => (bundlePlots b).contains (fieldAt r 0 1) && fieldAt r 1 1 < 16 && fieldAt r 6 1 < 3
      && 1 ≤ fieldAt r 4 2 && fieldAt r 4 2 ≤ 4096 && allZero (r.drop 9)
      && inGroup self b (fieldAt r 0 1) (fieldAt r 7 1) (agentPlot (fieldAt r 8 1)))

/-- CREDITS: distinct counters of named plots whose agents are of the plot and whose destinations lie in its group. -/
def creditsOk (self : Nat) (b : List Byte) : Bool :=
  let l := records b 6 16
  (l.map (fun r => fieldAt r 0 2)).dedup.length == l.length
    && l.all (fun r => (bundlePlots b).contains (fieldAt r 0 1) && fieldAt r 1 1 < 16 && fieldAt r 2 1 < 16
      && fieldAt r 3 1 < 16 && fieldAt r 5 1 < 192 && agentPlot (fieldAt r 5 1) == fieldAt r 0 1 && allZero (r.drop 6)
      && inGroup self b (fieldAt r 0 1) (fieldAt r 4 1) (fieldAt r 3 1))

/-- GROUPS: the named plots are shared out among the groups, each with this die in its die set under its lowest die. -/
def groupsOk (self : Nat) (b : List Byte) : Bool :=
  let l := records b 7 48
  l.all (fun r => fieldAt r 5 1 < 128 && allZero ((r.drop 8).take 8) && maskBit r 16 self
      && (List.range 256).find? (maskBit r 16) == some (fieldAt r 4 1)
      && (fieldAt r 5 1 % 2 == 0 || bitOf (fieldAt r 2 2) (bitsOf (fieldAt r 5 1) 1 4)))
    && (List.range 16).all (fun p =>
      (l.filter (fun r => bitOf (fieldAt r 2 2) p)).length == b2n ((bundlePlots b).contains p))
    && (l.map (fun r => fieldAt r 0 2)).dedup.length == l.length

/-- SIGNAL instructions name contexts of their own group (R382). -/
def signalsOk (self : Nat) (b : List Byte) : Bool :=
  (programs b).all (fun r => (List.range (fieldAt r 4 2)).all (fun i =>
    let l := (r.drop (16 + 16 * i)).take 16
    let die := if bitOf (fieldAt l 6 1) 0 then fieldAt l 4 1 else self
    fieldAt l 0 1 != 0x29 || 64 ≤ fieldAt l 5 1 || inGroup self b (fieldAt r 0 1) die (fieldAt l 5 1 / 4)))

/-- BATCH: present exactly when BATCHES is set, and well formed. -/
def batchOk (b : List Byte) : Bool :=
  let x := sectionBytes b 11
  (sectionOf b 11).isSome == bitOf (fieldAt b 13 1) 0
    && ((sectionOf b 11).isNone || (1 ≤ fieldAt x 0 1 && fieldAt x 0 1 ≤ 32 && allZero ((x.drop 1).take 7)
      && fieldAt x 16 4 % 256 == 0 && fieldAt x 20 4 % 256 == 0 && allZero (x.drop 32)))

/-- The SUBCODE of BUNDLE_INVALID (R200, R207), if a bundle breaks its format. -/
def State.bundleBad (s : State) (b : List Byte) : Option Nat :=
  if b.length < 64 ∨ fieldAt b 0 4 ≠ 0x4E444C42 ∨ fieldAt b 16 8 ≠ b.length
      ∨ crc32 (b.take 24 ++ fill 4 0 ++ b.drop 28) ≠ fieldAt b 24 4 then some 1
  else if fieldAt b 4 2 ≠ 1 then some 2
  else if !(fieldAt b 13 1 < 4 && fieldAt b 14 2 == 0 && allZero ((b.drop 28).take 36) && sectionTableOk b
      && fixedSectionsOk b && diesOk b && programsOk b && layoutsOk b && imagesOk b && groupsOk s.self b
      && windowsOk s.self b && creditsOk s.self b && signalsOk s.self b
      && (records b 8 8).all (fun r => fieldAt r 2 2 == 0)) then some 3
  else if !graftSectionOk b then some 4
  else if !(varRecordsFit b 10 (fun l => 16 + 16 * cdiv (fieldAt l 6 1 + fieldAt l 7 1) 16) && updateSectionOk b) then some 5
  else if !batchOk b then some 6
  else none

/-! ### The other checks of R200 -/

/-- Whether a record's rows, image or windows exceed the stores of plot `p`, or its windows overlap (R277). -/
def State.layoutBad (s : State) (b : List Byte) (p : Nat) : Bool :=
  let above (st n : Nat) : Bool := decide (s.storeRows p st < n)
  let wins := (records b 5 16).filter (fun r => fieldAt r 0 1 == p)
  let last (r : List Byte) : Nat := fieldAt r 2 2 + fieldAt r 4 2
  (layouts b).any (fun r => fieldAt r 0 1 == p && (above 0 (fieldAt r 4 2) || above 1 (fieldAt r 6 2)
      || above 2 (fieldAt r 8 2) || (List.range (fieldAt r 10 2)).any (fun i =>
        let o := 16 + 8 * i
        above (fieldAt r o 1) (fieldAt r (o + 2) 2 + fieldAt r (o + 4) 2))))
    || (images b).any (fun r => fieldAt r 0 1 == p && above (fieldAt r 1 1) (last r))
    || wins.any (fun r => above (fieldAt r 6 1) (last r))
    || wins.any (fun x => wins.any (fun y => x != y && fieldAt x 6 1 == fieldAt y 6 1
        && decide (fieldAt x 2 2 < last y ∧ fieldAt y 2 2 < last x)))

/-- The stacks that a table's rows stand on, with its components'. -/
def State.tableStacks (s : State) (t : Nat) : List Nat :=
  let d := s.dir t
  if d.kind = 2 then maskStacks (s.dir d.compP).mask ++ maskStacks (s.dir d.compQ).mask else maskStacks d.mask

/-- The slot of a TABLES record. -/
def State.recTable (s : State) (f : Nat) (r : List Byte) : Option Nat :=
  (s.tableOf f (fieldAt r 0 2)).filter (fun t => (s.dir t).tkey == fieldAt r 4 4)

/-- The Graft space that a bundle needs on this die (R501). -/
def State.graftFits (s : State) (b : List Byte) : Bool :=
  let g := sectionBytes b 9
  let need (n : Nat) : Nat × Nat :=
    (graftRecords b).foldl (fun a r => (s.entryRoles r (grObservers r)).foldl (fun a u =>
      if u.1 = n then (a.1 + 1, a.2 + (newEntry u.2 0 0 0 r (grTensor g r) (grBooks g r)).words) else a) a) (0, 0)
  (List.range 8).all (fun n => s.graftRoom true n (need n).1 (need n).2)

/-- The first failing condition of R200 as status, SUBCODE and VALUE. -/
def State.loadBad (s : State) (f : Nat) (b : List Byte) : Option (Status × Nat × Nat) :=
  match s.bundleBad b with
  | some n => some (.bundleInvalid, n, 0)
  | none =>
    let plots := bundlePlots b
    let absent := plots.filter (fun p => !s.plotEn p)
    let ports := fieldAt (sectionBytes b 1) 33 1
    let usesPort := (List.range 8).filter (bitOf ports)
    let die := fieldAt b 12 1
    let foreignPlots := plots.filter (fun p => s.plotHolder p != f)
    let foreignPorts := usesPort.filter (fun n => !s.holdsPort f n)
    let x := sectionBytes b 11
    let slots := fieldAt x 0 1
    let tabs := records b 8 8
    let held := plots.filter (fun p => (s.jobOf p).isSome)
    if !absent.isEmpty then some (.plotAbsent, 0, bitMask absent)
    else match plots.find? (s.layoutBad b) with
    | some p => some (.storeLayout, 0, p)
    | none =>
      if die ≠ 0xFF ∧ (!s.link.idValid ∨ die ≠ s.self) then some (.dieSet, 0, die)
      else if !(runDies b).contains s.self then some (.dieSet, 0, s.self)
      else match usesPort.find? (fun n => s.portState n != psActive) with
      | some n => some (.dieSet, 0, 256 + n)
      | none =>
        if !foreignPlots.isEmpty then some (.notAssigned, 0, bitMask foreignPlots)
        else if !foreignPorts.isEmpty then some (.notAssigned, 0, bitMask foreignPorts)
        else if slots ≠ 0 ∧ !s.holdsHbm f (fieldAt x 8 8) (slots * fieldAt x 16 4) then
          some (.notAssigned, 0, fieldAt x 8 8 % 2 ^ 32)
        else if slots ≠ 0 ∧ !s.holdsHbm f (fieldAt x 24 8) (slots * fieldAt x 20 4) then
          some (.notAssigned, 0, fieldAt x 24 8 % 2 ^ 32)
        else match tabs.find? (fun r => (s.recTable f r).isNone) with
        | some r => some (.noTable, 0, fieldAt r 0 2)
        | none =>
          match ((tabs.filterMap (s.recTable f)).flatMap s.tableStacks).find? (fun n => !s.stackOk n) with
          | some n => some (.stackFailed, 0, n)
          | none =>
            if !held.isEmpty then some (.busy, 0, bitMask held)
            else if (List.range 16).all (fun j => (s.job j).loaded) then some (.noResource, 0, 0)
            else if !s.graftFits b then some (.noResource, 4, 0)
            else none

/-! ### Loading and unloading -/

/-- Load the instructions of a PROGRAM record. -/
def loadProgram (s : State) (r : List Byte) : State :=
  let p := fieldAt r 0 1
  (List.range (fieldAt r 4 2)).foldl (fun s i =>
    s.setPlot p { s.plot p with
      prog := FMap.put (s.plot p).prog (fieldAt r 2 2 + i) (fieldAt r (16 + 16 * i) 16) }) s

/-- Write the rows of an IMAGE record. -/
def loadImage (s : State) (r : List Byte) : State :=
  let p := fieldAt r 0 1
  let st := fieldAt r 1 1
  (List.range (fieldAt r 4 2)).foldl (fun s i =>
    let row := fieldAt r 2 2 + i
    let x := (s.plot p).sto
    let s := s.setSto p { x with coal := x.coal.filter (fun e => !(e.store == st && e.row == row)) }
    showScoreboard (clearPoison (putRow s p st row ((r.drop (16 + 256 * i)).take 256)) p st row (fun _ => true)) p) s

/-- Whether a bundle is a training bundle (R439). -/
def isTraining (b : List Byte) : Bool := bitOf (fieldAt b 13 1) 1

/-- RWC_CTL.TRAIN as the loaded jobs ask (R439). -/
def showTrain (s : State) : State :=
  s.wrb Reg.RWC_CTL_TRAIN [] ((List.range 16).any (fun j => (s.job j).loaded && isTraining (s.job j).bundle))

/-- Store bytes used, as JOB_LOAD reports them. -/
def bytesUsed (b : List Byte) : Nat :=
  256 * ((layouts b).map (fun r => fieldAt r 4 2 + fieldAt r 6 2 + fieldAt r 8 2)).sum

/-- The effect of JOB_LOAD: programs and images, then the claim of the lowest free load slot. -/
def loadBundle (s : State) (c : Cmd) (b : List Byte) : State :=
  match (List.range 16).find? (fun j => !(s.job j).loaded) with
  | none => s
  | some j =>
    let s := (programs b).foldl loadProgram s
    let s := (images b).foldl loadImage s
    let x : Job := { gen := (s.job j).gen, loaded := true, func := c.func, bundle := b, plots := bitMask (bundlePlots b),
                     changedAt := s.now }
    let s := showTrain (s.setJob j x)
    done s c (leBytes 2 (x.handle j) ++ leBytes 2 x.plots ++ leBytes 4 1 ++ leBytes 8 (bytesUsed b))

/-- JOB_LOAD. While a named plot's stores are being cleared the command does not start. -/
def jobLoadOp (s : State) (f i : Nat) (buf : HostBuf) : State :=
  acs s f i 0x201 (fun s c => withBuffer s c 8 buf (fun s b =>
    match s.loadBad c.func b with
    | some (st, sub, v) => fail s c st 8 sub v
    | none =>
      if (bundlePlots b).any (fun p => s.on Reg.STO_STAT_CLEAR_BUSY [p]) then s else loadBundle s c b))

/-- JOB_LOAD. -/
def execJobLoad (f : Fin 16) (i : Fin 128) (buf : HostBuf) (s : State) : Outcome State Fault Refusal :=
  nextQ (jobLoadOp s f i buf)

/-- Free a load slot: its windows, slots, records and grants go with it, and the generation advances (R197a, R204). -/
def unloadJob (s : State) (j : Nat) : State :=
  let x := s.job j
  let s := x.plotList.foldl closeWindows s
  let s := x.groups.foldl qdDisarmOp s
  let s := removeOwn s j
  let keys := (updateRecords x.bundle).map upTkey
  let s := { s with upd := { s.upd with
    grants := FMap.dropWhere s.upd.grants (fun k => keys.contains (k / 256))
    plans := s.upd.plans.map (fun (y : Plan) => if y.slot = some j then { y with slot := none } else y) } }
  let s := x.batches.foldl (fun s b => s.failCmd b.func b.slot .aborted 0xFFFF 0 0) s
  showTrain (s.setJob j { gen := if x.gen = 255 then 1 else x.gen + 1 })

/-- JOB_UNLOAD; batches whose outputs are complete post first. -/
def jobUnloadOp (s : State) (f i : Nat) : State :=
  acs s f i 0x206 (fun s c => withJob s c (fun j =>
    let x := s.job j
    if x.state = 1 ∨ x.start.isSome then fail s c .jobState 8 0 x.state
    else if !x.batches.isEmpty then s
    else done (unloadJob s j) c []))

/-- JOB_UNLOAD. -/
def execJobUnload (f : Fin 16) (i : Fin 128) (s : State) : Outcome State Fault Refusal := nextQ (jobUnloadOp s f i)

/-! ### Waiting, status, aborting -/

/-- JOB_WAIT. -/
def jobWaitOp (s : State) (f i : Nat) : State :=
  acs s f i 0x204 (fun s c => withJob s c (fun j =>
    let x := s.job j
    if x.state = 2 then s.finishCode f i x.final x.waitBody else waiting s c))

/-- JOB_WAIT. -/
def execJobWait (f : Fin 16) (i : Fin 128) (s : State) : Outcome State Fault Refusal := .next (jobWaitOp s f i)

/-- JOB_STATUS. -/
def jobStatusOp (s : State) (f i : Nat) : State :=
  acs s f i 0x207 (fun s c => withJob s c (fun j =>
    let x := s.job j
    done s c (leBytes 1 x.state ++ leBytes 1 0 ++ leBytes 2 x.final
      ++ leBytes 4 (x.batches.filter (fun b => b.phase < 2)).length ++ leBytes 8 x.doneBatches ++ leBytes 8 x.changedAt)))

/-- JOB_STATUS. -/
def execJobStatus (f : Fin 16) (i : Fin 128) (s : State) : Outcome State Fault Refusal := .next (jobStatusOp s f i)

/-- Whether a job's outstanding traffic is acknowledged. -/
def State.jobQuiet (s : State) (x : Job) : Bool := s.flights.all (fun q => !x.plotList.contains (q.ctx / 4))

/-- An aborted job whose traffic is acknowledged, or whose drain interval has passed, ends (R204). -/
def abortDrainedOp (s : State) (j : Nat) : State :=
  let x := s.job j
  if x.aborting ∧ (s.jobQuiet x ∨ x.abortAt + usCounts (s.rd Reg.TOP_DRAIN_DRAIN_US []) ≤ s.now) then endJob s j .aborted
  else s

/-- JOB_ABORT_DRAINED. -/
def execJobAbortDrained (j : Fin 16) (s : State) : Outcome State Fault Refusal := nextQ (abortDrainedOp s j)

/-- JOB_ABORT: the contexts of a running job halt at once; one that is not running is left as it is. -/
def jobAbortOp (s : State) (f i : Nat) : State :=
  acs s f i 0x205 (fun s c => withJob s c (fun j =>
    let x := s.job j
    if x.state ≠ 1 then done s c []
    else
      let s := x.plotList.foldl haltPlot (running s c)
      let x := s.job j
      abortDrainedOp (s.setJob j { x with
        aborts := x.aborts ++ [(f, i)], aborting := true, abortAt := if x.aborting then x.abortAt else s.now }) j))

/-- JOB_ABORT. -/
def execJobAbort (f : Fin 16) (i : Fin 128) (s : State) : Outcome State Fault Refusal := nextQ (jobAbortOp s f i)

/-! ### Batches (R205, R206, R388) -/

/-- The fields of a bundle's BATCH section. -/
def bSlots (b : List Byte) : Nat := fieldAt (sectionBytes b 11) 0 1
def bInBase (b : List Byte) : Nat := fieldAt (sectionBytes b 11) 8 8
def bInBytes (b : List Byte) : Nat := fieldAt (sectionBytes b 11) 16 4
def bOutBytes (b : List Byte) : Nat := fieldAt (sectionBytes b 11) 20 4
def bOutBase (b : List Byte) : Nat := fieldAt (sectionBytes b 11) 24 8

/-- Input and output slot of batch `q`. -/
def inSlot (b : List Byte) (q : Nat) : Nat := bInBase b + q % max 1 (bSlots b) * bInBytes b
def outSlot (b : List Byte) (q : Nat) : Nat := bOutBase b + q % max 1 (bSlots b) * bOutBytes b

/-- JOB_SUBMIT: its checks, then the batch enters the queue and the command waits. -/
def jobSubmitOp (s : State) (f i : Nat) : State :=
  acs s f i 0x203 (fun s c => withJob s c (fun j =>
    let x := s.job j
    let r := c.ref 16
    let w := c.ref 32
    let takes := bitOf (fieldAt x.bundle 13 1) 0
    if r.len = 0 then fail s c .badParam 24 0 0
    else if w.len = 0 then fail s c .badParam 40 0 0
    else if 1 < r.space then fail s c .badParam 28 0 r.space
    else if 1 < w.space then fail s c .badParam 44 0 w.space
    else if takes ∧ bInBytes x.bundle < r.len then fail s c .badParam 16 0 r.len
    else if takes ∧ bOutBytes x.bundle < w.len then fail s c .badParam 32 0 w.len
    else if r.space = 0 ∧ !s.holdsHbm f r.addr r.len then fail s c .notAssigned 16 0 (r.addr % 2 ^ 32)
    else if w.space = 0 ∧ !s.holdsHbm f w.addr w.len then fail s c .notAssigned 32 0 (w.addr % 2 ^ 32)
    else if !takes ∨ x.state ≠ 1 then fail s c .jobState 8 0 x.state
    else if 32 ≤ x.batches.length then s
    else
      waiting (s.setJob j { x with
        batches := x.batches ++ [{ func := f, slot := i, id := c.fld 12 4, inBuf := r, outBuf := w }] }) c))

/-- JOB_SUBMIT. -/
def execJobSubmit (f : Fin 16) (i : Fin 128) (s : State) : Outcome State Fault Refusal := nextQ (jobSubmitOp s f i)

/-- Replace the first batch in a given phase. -/
def setFirst (l : List Batch) (k : Nat) (b : Batch) : List Batch :=
  match l with
  | [] => []
  | x :: r => if x.phase = k then b :: r else x :: setFirst r k b

/-- Remove the first batch in a given phase. -/
def dropFirst (l : List Batch) (k : Nat) : List Batch := l.eraseP (fun x => x.phase == k)

/-- The first batch of a phase. -/
def Job.batchIn (x : Job) (k : Nat) : Option Batch := x.batches.find? (fun b => b.phase == k)

/-- Whether the batch first in the queue may be staged: none stands staged before it, and the slot it takes is free. -/
def Job.mayStage (x : Job) : Bool :=
  x.state == 1 && !x.aborting && (x.batchIn 1).isNone
    && x.batches.all (fun b => b.phase < 2 || b.q + bSlots x.bundle != x.nextQ)

/-- Step 2 of R206. A copy that fails ends the batch, which takes no number. -/
def stageBatch (s : State) (j : Nat) (data : HostBuf) : State :=
  let x := s.job j
  match x.batchIn 0 with
  | none => s
  | some b =>
    if !x.mayStage then s
    else
      let at' := inSlot x.bundle x.nextQ
      let r := b.inBuf
      let drop (s : State) (st : Status) : State :=
        (s.setJob j { x with batches := dropFirst x.batches 0 }).failCmd b.func b.slot st 16 0 0
      let put (s : State) (l : List Byte) : State :=
        let s := hbmWrite (bulk s b.func at' (bInBytes x.bundle)) at' (padTo (bInBytes x.bundle) l)
        s.setJob j { x with batches := setFirst x.batches 0 { b with phase := 1 } }
      if r.space = 0 then
        if r.addr = at' then
          (hbmWrite s (at' + r.len) (fill (bInBytes x.bundle - r.len) 0)).setJob j
            { x with batches := setFirst x.batches 0 { b with phase := 1 } }
        else if s.hbmPoisoned r.addr r.len then drop s .mediaError
        else put (bulk s b.func r.addr r.len) (s.hbmRead r.addr r.len)
      else
        match data with
        | none => drop s .hostDmaFault
        | some l => put s (padTo r.len (l.take r.len))

/-- BATCH_INPUT_STAGE. -/
def execBatchInputStage (j : Fin 16) (data : HostBuf) (s : State) : Outcome State Fault Refusal :=
  nextQ (if s.coreUp && s.fwRuns then stageBatch s j data else s)

/-- Advance the step epoch at a batch boundary, once for each boundary of a group (R439). -/
def boundaryAdvance (s : State) (gtag ord : Nat) : State :=
  if ord ≤ FMap.get s.rwc.epochs 0 gtag then s
  else
    let s := epochAdvance s
    { s with rwc := { s.rwc with epochs := FMap.put s.rwc.epochs gtag ord } }

/-- The GTAG that a training job's epoch-advance messages carry. -/
def bundleGtag (b : List Byte) : Nat :=
  match updateRecords b with
  | r :: _ => upGtag r
  | [] => fieldAt ((records b 7 48).headD []) 0 2

/-- The dies that own rows of a job's tables. -/
def State.ownerDies (s : State) (x : Job) : List Nat :=
  let maps := ((records x.bundle 8 8).filterMap (s.recTable x.func)).flatMap (fun t =>
    let d := s.dir t
    let of (t : Nat) : List Nat := ownersOf (s.mapOf (s.dir t))
    if d.kind = 2 then of d.compP ++ of d.compQ else of t)
  (maps ++ (updateRecords x.bundle).flatMap upOwners).eraseDups.filter (fun d => d != s.self)

/-- The boundary between two batches of a training job, after the completion of the earlier one and before the release
of the later one: this die's step epoch advances, and the dies that own rows are told. -/
def trainBoundary (s : State) (j : Nat) : State :=
  let x := s.job j
  if !x.boundaryDue then s
  else
    let g := bundleGtag x.bundle
    let ord := x.doneBatches + (x.batches.filter (fun b => b.phase == 3)).length
    let s := boundaryAdvance (s.setJob j { x with boundaryDue := false }) g ord
    (s.ownerDies x).foldl (fun s d => injectPkt s
      { ctlPacket 14 d s.self 192 192 0 (1 + 2 ^ 16 * ord + 2 ^ 48 * g) with vc := 0, first := true, last := true }) s

/-- Step 3 of R206: the staged batch runs under the next number, and counter 7 of the feed contexts rises. A batch of a
training job is held while an earlier one runs (R439). -/
def releaseBatch (s : State) (j : Nat) : State :=
  let x := s.job j
  match x.batchIn 1 with
  | none => s
  | some b =>
    if x.state ≠ 1 ∨ x.aborting ∨ (isTraining x.bundle ∧ (x.batchIn 2).isSome) then s
    else
      let s := trainBoundary s j
      let x := s.job j
      let s := s.setJob j { x with
        batches := setFirst x.batches 1 { b with phase := 2, q := x.nextQ }, nextQ := x.nextQ + 1 }
      x.groups.foldl (fun s g =>
        if s.on Reg.TOP_QD_GRP_FEED_EN [g] then
          addSignal s (s.rd Reg.TOP_QD_GRP_FEED_PLOT [g]) (s.rd Reg.TOP_QD_GRP_FEED_CTX [g]) 7 1
        else s) s

/-- BATCH_INPUT_COPIED. -/
def execBatchInputCopied (j : Fin 16) (s : State) : Outcome State Fault Refusal :=
  nextQ (if s.coreUp && s.fwRuns then releaseBatch s j else s)

/-- One completion: the oldest running batch has its outputs complete, and takes the drops and empty bags counted. The
boundary of a training job is due, and passed at once when a later batch waits (R439). -/
def batchDone (s : State) (j : Nat) : State :=
  let x := s.job j
  match x.batchIn 2 with
  | none => s
  | some b =>
    let b := { b with phase := 3, dropped := x.dropped, empty := x.empty }
    let s := s.setJob j { x with
      batches := setFirst x.batches 2 b, dropped := 0, empty := 0, boundaryDue := isTraining x.bundle }
    if x.batches.any (fun b => decide (b.phase < 2)) then trainBoundary s j else s

/-- BATCH_DONE_SIGNAL: the oldest signal to agent 192 from the job's plots; each unit of INC completes one batch. -/
def batchDoneOp (s : State) (j : Nat) : State :=
  let x := s.job j
  match s.cloche.sigQ.find? (fun q => bitOf x.plots (agentPlot q.srcAgent)) with
  | none => s
  | some q =>
    let s := { s with cloche := { s.cloche with sigQ := s.cloche.sigQ.erase q } }
    (List.range (min (q.tfb 10 2) 32)).foldl (fun s _ => batchDone s j) s

/-- BATCH_DONE_SIGNAL. -/
def execBatchDoneSignal (j : Fin 16) (s : State) : Outcome State Fault Refusal :=
  nextQ (if s.coreUp && s.fwRuns && (s.job j).loaded then batchDoneOp s j else s)

/-- Steps 5 and 6 of R206 for the oldest batch whose outputs are complete. -/
def outputCopied (s : State) (j : Nat) (accepted : Bool) : State :=
  let x := s.job j
  match x.batchIn 3 with
  | none => s
  | some b =>
    let at' := outSlot x.bundle b.q
    let w := b.outBuf
    let s := s.setJob j { x with batches := dropFirst x.batches 3, doneBatches := x.doneBatches + 1 }
    let own := w.space = 0 ∧ w.addr = at'
    if !own ∧ s.hbmPoisoned at' w.len then s.failCmd b.func b.slot .mediaError 32 0 0
    else if w.space = 1 ∧ !accepted then s.failCmd b.func b.slot .hostDmaFault 32 0 0
    else
      let s := if own then s else putBuffer (bulk s b.func at' w.len) b.func w (s.hbmRead at' w.len)
      s.finish b.func b.slot .ok (leBytes 4 b.id ++ leBytes 4 0 ++ leBytes 8 s.now ++ leBytes 4 b.dropped ++ leBytes 4 b.empty)

/-- BATCH_OUTPUT_COPIED. -/
def execBatchOutputCopied (j : Fin 16) (accepted : Bool) (s : State) : Outcome State Fault Refusal :=
  nextQ (if s.coreUp && s.fwRuns then outputCopied s j accepted else s)

/-- EPOCH_ADV_MESSAGE: an owning die advances at the boundary, unless it has. -/
def execEpochAdvMessage (q : Packet) (s : State) : Outcome State Fault Refusal :=
  let s := takeInbox s q
  nextQ (if s.coreUp && q.typ == 14 && q.tfb 8 2 == 1 then boundaryAdvance s (q.tfb 14 2) (q.tfb 10 4) else s)

end Sys2Proof.Machine
end

