-- ==== Sys2Proof/Machine/Tenancy.lean ====
section
/-! DEFINITION. Who holds what: tenancy (R197, R198), BAR2 apertures (R177-R179), virtual functions, the clear that
follows a tenant change (R152, R284), and the resets of one function and of every function (R98, R171, R626). -/

namespace Sys2Proof.Machine

open Host (Outcome)

/-! ### BAR2 apertures (R177-R180) -/

/-- The size of a function's apertures in bytes. -/
def State.apertureBytes (s : State) (f : Nat) : Nat := if f = 0 then 2 ^ (s.mbx.bar2Log2 - 4) else 2 ^ 30

/-- At Run-mode entry and after a resize, PF aperture k maps HBM address k × S/16 when that lies in working HBM (R178). -/
def remapPf (s : State) : State :=
  let a := s.apertureBytes 0
  (List.range 16).foldl (fun s k =>
    let ok := s.hbmWorks (k * a) a
    let s := s.wr Reg.MBX_WIN_BASE [0, k] (if ok then k * a / 2 ^ 26 else 0)
    (s.wrb Reg.MBX_WIN_EN [0, k] ok).wrb Reg.MBX_WIN_WRITE_EN [0, k] ok) s

/-- BAR2_RESIZE: the PF's BAR2 takes 1 to 256 GiB, and firmware remaps the PF's apertures. -/
def bar2ResizeOp (s : State) (n : Nat) : State :=
  if n < 30 ∨ 38 < n ∨ !s.hostReach 0 then s
  else remapPf { s with mbx := { s.mbx with bar2Log2 := n } }

/-- BAR2_RESIZE. -/
def execBar2Resize (n : Nat) (s : State) : Outcome State Fault Refusal := .next (bar2ResizeOp s n)

/-- The parts of a BAR2 access as (aperture, offset in it, length, bytes before): it is split at each boundary (R179). -/
def bar2Parts (size : Nat) : Nat → Nat → Nat → Nat → List (Nat × Nat × Nat × Nat)
  | 0, _, _, _ => []
  | _, _, 0, _ => []
  | fuel + 1, off, len, before =>
    let n := min len (size - off % size)
    (off / size, off % size, n, before) :: bar2Parts size fuel (off + n) (len - n) (before + n)

/-- Where a part of an access lands in HBM, when its aperture lets it. -/
def State.bar2Target (s : State) (f k x n : Nat) (write : Bool) : Option Nat :=
  let a := s.rd Reg.MBX_WIN_BASE [f, k] * 2 ^ 26 + x
  if s.on Reg.MBX_WIN_EN [f, k] && (!write || s.on Reg.MBX_WIN_WRITE_EN [f, k]) && s.hbmWorks a n then some a else none

/-- The bytes that a function's BAR2 covers. -/
def State.bar2Size (s : State) (f : Nat) : Nat := 16 * s.apertureBytes f

/-- One part of a BAR2 read: the bytes so far, whether any was poisoned, and the state. -/
def bar2ReadPart (f off : Nat) (a : List Byte × Bool × State) (x : Nat × Nat × Nat × Nat) : List Byte × Bool × State :=
  let s := a.2.2
  match s.bar2Target f x.1 x.2.1 x.2.2.1 false with
  | none => (a.1 ++ fill x.2.2.1 0, a.2.1, hostViolation s f vWinUnmapped x.1 (off + x.2.2.2) true)
  | some h =>
    let bad := s.hbmPoisoned h x.2.2.1
    let s := bulk s f h x.2.2.1
    let s := if bad then
        hbmRecord (s.satInc Reg.TOP_HBM_ECC_POISON_READS [h / stackBytes] 1) h x.2.2.1 8 f 0 else s
    (a.1 ++ s.hbmRead h x.2.2.1, a.2.1 || bad, s)

/-- A BAR2 read. -/
def bar2ReadOp (s : State) (f off len : Nat) : State :=
  if s.bar2Size f < off + len then s
  else if !s.hostReach f then s.emit (.completion f (fill len 0) false)
  else
    let r := (bar2Parts (s.apertureBytes f) (len + 1) off len 0).foldl (bar2ReadPart f off) ([], false, s)
    r.2.2.emit (.completion f r.1 r.2.1)

/-- BAR2_READ. -/
def execBar2Read (f : Fin 16) (off len : Nat) (s : State) : Outcome State Fault Refusal := .next (bar2ReadOp s f off len)

/-- Put the enabled bytes of a write. -/
def hbmPutEn (s : State) (a : Nat) : List (Byte × Bool) → State
  | [] => s
  | (b, e) :: r => hbmPutEn (if e then hbmPutByte s a b else s) (a + 1) r

/-- A write under byte enables; a unit that it covers wholly is clean again (R618). -/
def hbmWriteEn (s : State) (a : Nat) (l : List (Byte × Bool)) : State :=
  let s := hbmPutEn s a l
  let clean (u : Nat) : Bool := decide (a ≤ 32 * u ∧ 32 * (u + 1) ≤ a + l.length)
    && ((l.drop (32 * u - a)).take 32).all (·.2)
  { s with hbmPoison := s.hbmPoison.filter (fun u => !clean u) }

/-- One part of a BAR2 write. -/
def bar2WritePart (f off : Nat) (l : List (Byte × Bool)) (s : State) (x : Nat × Nat × Nat × Nat) : State :=
  match s.bar2Target f x.1 x.2.1 x.2.2.1 true with
  | none => hostViolation s f vWinUnmapped x.1 (off + x.2.2.2) false
  | some h => hbmWriteEn (bulk s f h x.2.2.1) h ((l.drop x.2.2.2).take x.2.2.1)

/-- A BAR2 write. -/
def bar2WriteOp (s : State) (f off : Nat) (data : List Byte) (enables : List Bool) : State :=
  let n := data.length
  if s.bar2Size f < off + n ∨ !s.hostReach f then s
  else
    let l := data.zipIdx.map (fun e => (e.1, enables.getD e.2 true))
    (bar2Parts (s.apertureBytes f) (n + 1) off n 0).foldl (bar2WritePart f off l) s

/-- BAR2_WRITE. -/
def execBar2Write (f : Fin 16) (off : Nat) (data : List Byte) (enables : List Bool) (s : State) :
    Outcome State Fault Refusal := .next (bar2WriteOp s f off data enables)

/-- WIN_SET. -/
def winSetOp (s : State) (f i : Nat) : State :=
  acs s f i 0x106 (fun s c =>
    let g := c.fld 8 1
    let k := c.fld 9 1
    let base := c.fld 12 4
    let en := bitOf (c.fld 10 1) 0
    let size := s.apertureBytes g
    if 15 < g then fail s c .badParam 8 0 g
    else if 15 < k then fail s c .badParam 9 0 k
    else if base * 2 ^ 26 % size ≠ 0 ∨ hbmBytes < base * 2 ^ 26 then fail s c .badParam 12 0 base
    else if en ∧ !s.holdsHbm g (base * 2 ^ 26) size then fail s c .notAssigned 12 0 base
    else
      let s := (s.wr Reg.MBX_WIN_BASE [g, k] base).wrb Reg.MBX_WIN_EN [g, k] en
      done (s.wrb Reg.MBX_WIN_WRITE_EN [g, k] (bitOf (c.fld 10 1) 1)) c [])

/-- WIN_SET. -/
def execWinSet (f : Fin 16) (i : Fin 128) (s : State) : Outcome State Fault Refusal := .next (winSetOp s f i)

/-! ### Tenant changes (R152, R284) -/

/-- Abort and unload a job as JOB_ABORT and JOB_UNLOAD would; a start in progress is abandoned. -/
def dropJob (s : State) (j : Nat) : State :=
  if (s.job j).loaded then unloadJob (endJob (abandonStart s j .aborted 0) j .aborted) j else s

/-- The storage of a plot that leaves its function is cleared. -/
def tenantChange (s : State) (p : Nat) : State :=
  if s.coreUp ∧ s.plotEn p then clearStart (closeWindows (haltPlot s p) p) p else s

/-- Whether a clear is in progress. -/
def State.clearing (s : State) : Bool := (List.range 16).any (fun p => s.on Reg.STO_STAT_CLEAR_BUSY [p])

/-- The commands that wait for clears post once none is in progress. -/
def postCleared (s : State) : State :=
  if s.clearing then s
  else (s.mbx.cmds.filter (fun c => c.waiting && (c.opcode == 0x105 || c.opcode == 0x104))).foldl
    (fun s c => done s c []) s

/-- STORE_CLEAR_COMPLETE. -/
def storeClearCompleteOp (s : State) (p : Nat) : State :=
  if s.coreUp ∧ s.on Reg.STO_STAT_CLEAR_BUSY [p] then postCleared (clearEnd s p) else s

/-- STORE_CLEAR_COMPLETE. -/
def execStoreClearComplete (p : Fin 16) (s : State) : Outcome State Fault Refusal := nextQ (storeClearCompleteOp s p)

/-- The ranges of TENANT_ASSIGN that are in use, as (descriptor offset, BASE, SIZE). -/
def Cmd.tenantRanges (c : Cmd) : List (Nat × Nat × Nat) :=
  ((List.range 4).map (fun i => (16 + 8 * i, c.fld (16 + 8 * i) 4, c.fld (20 + 8 * i) 4))).filter (fun r => r.2.2 != 0)

/-- Whether 64 MiB units `a` to `a + n - 1` meet a range. -/
def unitsMeet (a n : Nat) (r : Nat × Nat) : Bool := decide (a < r.1 + r.2 ∧ r.1 < a + n)

/-- The first failing check of R197. -/
def State.tenantBad (s : State) (c : Cmd) : Option (Status × Nat × Nat × Nat) :=
  let g := c.fld 8 1
  let mask := c.fld 10 2
  let rs := c.tenantRanges
  let absent := (List.range 16).filter (fun p => bitOf mask p && !s.plotEn p)
  let moving := (List.range 16).filter (fun p => bitOf mask p != (s.plotHolder p == g))
  let named := moving.filter (fun p => (s.jobOf p).isSome)
  let force := bitOf (c.fld 9 1) 0
  let foreign (r : Nat × Nat × Nat) : Bool :=
    s.tenants.any (fun e => e.1 != g && e.2.ranges.any (unitsMeet r.2.1 r.2.2))
      || (List.range 6).any (fun n => !s.stackOk n && unitsMeet r.2.1 r.2.2 (384 * n, 384))
  let kept (u : Nat) : Bool := rs.any (fun r => r.2.1 ≤ u && u < r.2.1 + r.2.2)
  let lost := s.dirs.find? (fun t => (s.dir t).func == g && (s.dir t).kind != 2
    && (s.tableRanges t).any (fun r => (hbmUnits r.1 r.2).any (fun u => !kept u)))
  if g = 0 ∨ 15 < g then some (.badParam, 8, 0, g)
  else match rs.find? (fun r => decide (2304 < r.2.1 + r.2.2 ∨ r.2.1 % 16 ≠ 0)) with
  | some r => some (.badParam, r.1, 0, r.2.1)
  | none =>
    if !absent.isEmpty then some (.plotAbsent, 10, 0, bitMask absent)
    else match rs.find? foreign with
    | some r => some (.noResource, r.1, 0, r.2.1)
    | none =>
      if !named.isEmpty ∧ !force then some (.busy, 10, 0, bitMask named)
      else match lost with
      | some t => some (.busy, 16, 3, (s.dir t).id)
      | none => none

/-- Take plots away from every VF but `g`. -/
def takePlots (l : FMap Tenant) (g mask : Nat) : FMap Tenant :=
  l.map (fun e => (e.1, if e.1 = g then e.2 else { e.2 with plots := bitMask ((List.range 16).filter
    (fun p => bitOf e.2.plots p && !bitOf mask p)) }))

/-- Disable the apertures of a VF that no longer lie in its HBM. -/
def trimApertures (s : State) (g : Nat) : State :=
  (List.range 16).foldl (fun s k =>
    if s.on Reg.MBX_WIN_EN [g, k] && !s.holdsHbm g (s.rd Reg.MBX_WIN_BASE [g, k] * 2 ^ 26) (2 ^ 30) then
      (s.wr Reg.MBX_WIN_EN [g, k] 0).wr Reg.MBX_WIN_WRITE_EN [g, k] 0
    else s) s

/-- A source routed to a function that no longer holds its plot or port is not copied to it any more. -/
def unrouteLost (s : State) (g : Nat) : State :=
  let gone (i : Nat) : Bool :=
    let port (b : Nat) : Bool := b ≤ i && i < b + 64 && !s.holdsPort (s.rd Reg.HDG_SRC_FUNC [i]) ((i - b) / 8)
    (64 ≤ i && i < 192 && s.plotHolder ((i - 64) / 8) != s.rd Reg.HDG_SRC_FUNC [i])
      || (s.rd Reg.HDG_SRC_FUNC [i] == g && (port 256 || port 320))
  ((s.srcsWith Reg.HDG_SRC_HEN).filter gone).foldl (fun s i => s.wr Reg.HDG_SRC_HEN [i] 0) s

/-- TENANT_ASSIGN: the assignment is written at once, and the command posts when the moving plots are clear. -/
def tenantAssignOp (s : State) (f i : Nat) : State :=
  acs s f i 0x105 (fun s c =>
    match s.tenantBad c with
    | some e => fail s c e.1 e.2.1 e.2.2.1 e.2.2.2
    | none =>
      let g := c.fld 8 1
      let mask := c.fld 10 2
      let moving := (List.range 16).filter (fun p => bitOf mask p != (s.plotHolder p == g))
      let s := (moving.filterMap s.jobOf).dedup.foldl dropJob s
      let t : Tenant := { plots := mask, ports := c.fld 12 1, ranges := c.tenantRanges.map (fun r => (r.2.1, r.2.2)) }
      let s := { s with tenants := FMap.set (takePlots s.tenants g mask) {} g t }
      let s := unrouteLost (trimApertures s g) g
      postCleared (waiting (moving.foldl tenantChange s) c))

/-- TENANT_ASSIGN. -/
def execTenantAssign (f : Fin 16) (i : Fin 128) (s : State) : Outcome State Fault Refusal := nextQ (tenantAssignOp s f i)

/-! ### Resets of a function (R98, R171, R566, R626) -/

/-- The page, ring, slots, queues, log, MSI-X state and commands of a function are cleared, and its mailbox epoch
advances; the page is served again after the drain interval. -/
def mbxReset (s : State) (f : Nat) : State :=
  let s := disownOps s (fun o => match o with | .cmd g _ => g == f | _ => false)
  let mine (x : Option (Nat × Nat)) : Option (Nat × Nat) := x.filter (fun e => e.1 != f)
  let s := { s with
    rwc := { s.rwc with waits := s.rwc.waits.filter (fun e => e.1 != f) }
    boot := { s.boot with fabricCmd := mine s.boot.fabricCmd, islandCmd := mine s.boot.islandCmd }
    cloche := { s.cloche with swapCmd := mine s.cloche.swapCmd } }
  let m := s.mbx
  let s := s.resetRegs (fun a => decide (pageOffset f 0 ≤ a ∧ a < pageOffset (f + 1) 0))
  let s := s.wr Reg.TOP_MBX_EPOCH_EPOCH [f] (epochNext (s.rd Reg.TOP_MBX_EPOCH_EPOCH [f]))
  let s := { s with
    mbx := { m with
      ring := FMap.dropWhere m.ring (fun k => k / 8192 == f)
      slots := FMap.dropWhere m.slots (fun k => k / 128 == f)
      evq := FMap.dropWhere m.evq (fun k => k / 256 == f)
      vlog := FMap.dropWhere m.vlog (fun k => k / 32 == f)
      msix := FMap.dropWhere m.msix (fun k => k / 128 == f)
      msixPend := m.msixPend.filter (fun k => k / 128 != f)
      lostSince := FMap.erase m.lostSince f
      cmds := m.cmds.filter (fun c => c.func != f)
      reclaimAt := FMap.put m.reclaimAt f (s.now + usCounts (s.rd Reg.TOP_DRAIN_DRAIN_US [])) }
    tbls := s.tbls.map (fun e => (e.1, match e.2.switch with
      | some (g, _, _) => if g = f then { e.2 with switch := none } else e.2
      | none => e.2)) }
  hedgeResetFunc s f

/-- The leases that a function's plots and tables authorise are fenced (trigger 6 of R627). -/
def fenceFunc (s : State) (f : Nat) : State :=
  let s := (List.range 256).foldl (fun s e =>
    if s.plotFunc (e / 16) = f then fenceWindow s (e / 16) (e % 16) 6 else s) s
  (s.upd.plans.filter (fun x => match s.slotOfKey x.tkey with | some t => (s.dir t).func == f | none => false)).foldl
    (fun s x => x.writers.foldl (fun s w => fenceWriter s x.tkey w.die 6) s) s

/-- A function is reset: leases fenced, jobs aborted and unloaded, its plots' stores cleared, its page reset. PF
configuration space takes the BAR2 size back to 16 GiB. -/
def funcReset (s : State) (f : Nat) : State :=
  let s := if s.coreUp then fenceFunc s f else s
  let s := ((List.range 16).filter (fun j => (s.job j).loaded && (s.job j).func == f)).foldl dropJob s
  let s := ((List.range 16).filter (fun p => s.plotHolder p == f)).foldl tenantChange s
  let s := mbxReset s f
  if f = 0 then remapPf { s with mbx := { s.mbx with bar2Log2 := 34 } } else s

/-- Whether the die has entered Run or Open mode since its power-on reset. -/
def State.served (s : State) : Bool := s.on Reg.TOP_MODE_MODE [] && s.on Reg.TOP_PINSTAT_MAIN_PG []

/-- FLR of function `f`. -/
def flrOp (s : State) (f : Nat) : State :=
  if !s.served ∨ !s.hostReach f then s else hedgeEvent (postCleared (funcReset s f)) (48 + f) 0

/-- FLR. -/
def execFlr (f : Fin 16) (s : State) : Outcome State Fault Refusal := nextQ (flrOp s f)

/-- VF_ENABLE: VFs 1 to `n` come into being. -/
def vfEnableOp (s : State) (n : Nat) : State :=
  if s.hostReach 0 then
    { s with mbx := { s.mbx with vfs := bitMask ((List.range 16).filter (fun f => bitOf s.mbx.vfs f || (1 ≤ f && f ≤ n))) } }
  else s

/-- VF_ENABLE. -/
def execVfEnable (n : Nat) (s : State) : Outcome State Fault Refusal := .next (vfEnableOp s n)

/-- VF_DISABLE: a tenant change for the VF's plots; its page, apertures and jobs go, and what it held is the PF's. -/
def vfDisableOp (s : State) (f : Nat) : State :=
  if f = 0 ∨ !bitOf s.mbx.vfs f then s
  else
    let s := postCleared (funcReset s f)
    { s with mbx := { s.mbx with vfs := s.mbx.vfs - 2 ^ f }, tenants := FMap.erase s.tenants f }

/-- VF_DISABLE. -/
def execVfDisable (f : Fin 16) (s : State) : Outcome State Fault Refusal := nextQ (vfDisableOp s f)

/-- A host reset of every function (R98): the Row Cache is dropped, HBM, tables and links are kept. No VF is left, so
what VFs held is the PF's. -/
def hostResetAll (s : State) : State :=
  let s := (List.range 16).foldl funcReset (s.wr Reg.TOP_RSTCAUSE_HOST [] 1)
  let s := if s.coreUp then rwcDropAll s else s
  postCleared { s with mbx := { s.mbx with vfs := 0 }, tenants := [] }

/-- HOST_RESET: PERST_N, a hot reset or link down. During a fabric reset it is held until that completes. -/
def hostResetOp (s : State) (k : HostResetKind) : State :=
  let s := match k with
    | .perst => { s with boot := { s.boot with perstN := false }, mbx := { s.mbx with linkUp := false, cfgReady := false } }
    | .linkDown => { s with mbx := { s.mbx with linkUp := false } }
    | .hotReset => s
  if !s.served then s
  else if s.boot.fabricReset then { s with boot := { s.boot with hostResetHeld := true } }
  else hostResetAll s

/-- HOST_RESET. -/
def execHostReset (k : HostResetKind) (s : State) : Outcome State Fault Refusal := nextQ (hostResetOp s k)

end Sys2Proof.Machine
end

