-- ==== Sys2Proof/Machine/Resets.lean ====
section
/-! DEFINITION. The fabric as a whole: entering Run mode (R75 steps 6 and 7, R101, R103), MODE_OPEN and MODE_RUN (R94,
R95, R196), the loss of VCORE and the fabric reset (R96, R97, R100), DEV_RESET (R195), and the die faults of R633:
brown-out, HBM controller fault, thermal trip (R65) and a fabric reset that fails. -/

namespace Sys2Proof.Machine

open Host (Outcome)

/-! ### Epochs (R101, R621) -/

/-- The epochs that registers of domain C hold and this die authorises. -/
def epochFields : List (Field × List Nat) :=
  (List.range 256).map (fun e => (Reg.STO_WIN_EPOCH, [e / 16, e % 16]))
  ++ (List.range 16).map (fun g => (Reg.TOP_QD_GRP_EPOCH, [g]))
  ++ (List.range 6).map (fun u => (Reg.FUR_LOCK_EPOCH, [u]))

/-- Every epoch of a fabric lease advances. -/
def advanceEpochs (s : State) : State :=
  let s := epochFields.foldl (fun s e => s.wr e.1 e.2 (s.firstEpoch (s.rd e.1 e.2))) s
  { s with upd := { s.upd with epochs := s.upd.epochs.map (fun e => (e.1, epochNext e.2)) } }

/-! ### Run values (R95, R103) -/

/-- Every staged set. -/
def allSets : List StagedSet :=
  (List.finRange 16).flatMap (fun p => (List.finRange 4).flatMap (fun c => [.rkeDt p c, .vec p c]))
  ++ (List.finRange 16).map .coal ++ (List.finRange 256).map .sivDir
  ++ (List.finRange 6).flatMap (fun u => (List.finRange 256).map (.furGeo u))
  ++ (List.finRange 8).flatMap (fun p => [.vcMap p, .route p, .grfEnt p]) ++ [.prioSplit, .rwcParam]

/-- Captured sets that satisfy a test are forgotten. -/
def dropSets (s : State) (p : StagedSet → Bool) : State :=
  if s.captured.isEmpty then s else (allSets.filter p).foldl dropSet s

/-- The schedule that is in effect on entering Run mode: the persisted one, else the default (R103, R597, R578). A set
that meets an open interval waits for its end (R596). -/
def runSchedule (s : State) : State :=
  match s.newestPersist with
  | none => defaultSchedule s
  | some (_, _, b) =>
    if (tariffBadField b).isSome ∨ (tariffBadBand b).isSome then defaultSchedule s
    else
      let s := stageTariff s b 2
      if s.on Reg.PWR_CTL_ACCT_EN [] then s else openWithBand s (s.rd Reg.CLO_RTC_SEC_SEC [])

/-- Addresses whose fields MODE_RUN leaves: table definitions, routing tables, the island, flash and Bench windows, and
the governor's schedule, budget and accounting. -/
def runKept (a : Nat) : Bool :=
  (0x602000 ≤ a && a < 0x608000) || (0x60A000 ≤ a && a < 0x60E000)
  || (0x700000 ≤ a && a < 0x760000 && 0x1000 ≤ a % 0x10000)
  || (0x800000 ≤ a && a < 0x880000 && 0x100 ≤ a % 0x10000)
  || 0xB00000 ≤ a || a == Reg.PWR_BUDGET_BUDGET_W.base || a == Reg.PWR_CTL_ACCT_EN.base
  || (0xA00000 ≤ a && a < 0xA10000 && 0x200 ≤ a % 0x8000)

/-- Every firmware-owned field takes its Run value, but for epochs and what `runKept` leaves. -/
def runValues (s : State) : State :=
  let ep := epochFields.map (fun e => e.1.key e.2)
  { s with regs := FMap.dropWhere s.regs (fun k => firmwareField k && !runKept (k / 128) && !ep.contains k) }

/-- Firmware sets both caps to the budget: neither lowers it (R598). -/
def openCaps (s : State) : State :=
  let b := s.rd Reg.PWR_BUDGET_BUDGET_W []
  (s.wr Reg.PWR_CAP_CAP_W [] b).wr Reg.PWR_BMC_CAP_CAP_W [] b

/-- Every Hedge source masked and none pending (R103), with the SENSE that firmware uses for its kind: rising for an
event source, level-high for a level source (R553). -/
def maskSources (s : State) : State :=
  let clear (s : State) (x : Field) : State := (s.srcsWith x).foldl (fun s i => s.wr x [i] 0) s
  let s := clear (clear (clear (clear s Reg.HDG_SRC_BEN) Reg.HDG_SRC_HEN) Reg.HDG_SRC_PENDING) Reg.HDG_SRC_SENSE
  hedgeDecide (((List.range 512).filter (fun i => srcKind i == .event)).foldl
    (fun s i => s.wr Reg.HDG_SRC_SENSE [i] 2) s)

/-- RUN_MODE_ENTRY, for a role: what must be complete before steps 6 and 7. -/
def State.bringUpDone (s : State) : Bool :=
  s.rd Reg.TOP_BOOTSTAT_STATE [] == 1 && !s.boot.fabricReset && !s.boot.restarting
    && (s.role == 2 || (s.boot.bistDone && s.boot.trained && s.boot.cleared && s.coreUp))

/-- RUN_MODE_ENTRY: mailbox epochs advance with the others, and a trial image that has come this far is confirmed. -/
def runModeEntryOp (s : State) : State :=
  if !s.bringUpDone then s
  else
    let s := if s.role = 2 then s else advanceEpochs s
    let s := (List.range 16).foldl (fun s f => s.wr Reg.TOP_MBX_EPOCH_EPOCH [f]
      (s.firstEpoch (s.rd Reg.TOP_MBX_EPOCH_EPOCH [f]))) s
    let s := runSchedule (openCaps (s.wr Reg.PWR_BUDGET_BUDGET_W [] s.boot.budget))
    let s := maskSources (remapPf s)
    let s := s.wr Reg.TOP_MODE_MODE [] (if s.on Reg.TOP_STRAP_TEST_EN [] then 2 else 1)
    let s := (s.wr Reg.TOP_MODE_PHASE [] 8).wr Reg.TOP_BOOTSTAT_STATE [] 2
    if s.on Reg.TOP_BOOTSTAT_TRIAL [] then
      match s.newestSwap with
      | some (_, r) =>
        (writeSwap s { r with trial := false, writer := 1, version := s.boot.runVersion }).1.wr Reg.TOP_BOOTSTAT_TRIAL [] 0
      | none => s
    else s

/-- RUN_MODE_ENTRY. -/
def execRunModeEntry (s : State) : Outcome State Fault Refusal := .next (runModeEntryOp s)

/-! ### MODE_OPEN and MODE_RUN -/

/-- MODE_OPEN. -/
def modeOpenOp (s : State) (f i : Nat) : State :=
  acs s f i 0x103 (fun s c =>
    if s.isOpen then done s c []
    else if s.mbx.vfs ≠ 0 then fail s c .busy 0xFFFF 1 0
    else if (List.range 16).any (fun j => (s.job j).loaded) then fail s c .busy 0xFFFF 2 0
    else done (s.wr Reg.TOP_MODE_MODE [] 2) c [])

/-- MODE_OPEN. -/
def execModeOpen (f : Fin 16) (i : Fin 128) (s : State) : Outcome State Fault Refusal := .next (modeOpenOp s f i)

/-- MODE_RUN from Open mode: the state of R103, with HBM, table definitions, die ID and routes kept. -/
def enterRun (s : State) : State :=
  let s := (List.range 16).foldl dropJob (s.wr Reg.TOP_MODE_MODE [] 1)
  let s := (List.range 16).foldl tenantChange s
  let s := if s.coreUp then advanceEpochs (rwcDropAll s) else s
  let s := runValues (dropSets s (fun _ => true))
  let s := { s with sieves := [], furrow := [], graft := {}, fences := [] }
  let s := showGrafts (showSieve (showSieve s 0) 1)
  let s := (List.range 8).foldl portEvaluate (maskSources s)
  let s := if s.on Reg.TOP_PINSTAT_VCORE_EN [] then driveVid s 0x64 else s
  remapPf (runSchedule (openCaps s))

/-- MODE_RUN: its result posts when every store is clear. -/
def modeRunOp (s : State) (f i : Nat) : State :=
  acs s f i 0x104 (fun s c => if s.isRun then done s c [] else postCleared (waiting (enterRun s) c))

/-- MODE_RUN. -/
def execModeRun (f : Fin 16) (i : Fin 128) (s : State) : Outcome State Fault Refusal := nextQ (modeRunOp s f i)

/-! ### Losing the fabric (R96, R100, R642) -/

/-- Addresses of domain C. -/
def coreAddr (a : Nat) : Bool :=
  (0x400 ≤ a && a < 0x600) || (0x800 ≤ a && a < 0x1000) || (0x400000 ≤ a && a < 0x800000) || (0x900000 ≤ a && a < 0x9A0000)

/-- Addresses of domain C whose contents a loss of VCORE leaves as firmware holds them: table definitions (R98), and
FUR_STAT of domain S. -/
def tableAddr (a : Nat) : Bool :=
  (0x602000 ≤ a && a < 0x606000) || (0x607000 ≤ a && a < 0x608000) || (0x60A000 ≤ a && a < 0x60E000)
  || (0x700000 ≤ a && a < 0x760000
      && (let x := a % 0x10000; x < 4 || (0x1000 ≤ x && x < 0x2000) || (0x9000 ≤ x && x < 0xA000)))

/-- VCORE is lost: registers, stores, contexts, caches, units and detector slots of the fabric go; epochs and table
definitions stay. Level sources of the fabric fall. -/
def coreLoss (s : State) : State :=
  let ep := epochFields.map (fun e => e.1.key e.2)
  let s := { s with
    regs := FMap.dropWhere s.regs (fun k => coreAddr (k / 128) && !tableAddr (k / 128) && !ep.contains k)
    captured := FMap.dropWhere s.captured (fun k => coreAddr (k / 128))
    plots := [], storeGen := s.storeGen + 1, flights := [], qd := [], sieves := [], sieveLast := [], rwc := {}
    furrow := [], graft := {}, fences := []
    upd := { s.upd with plans := [], grants := [], ordinals := [] }
    tbls := s.tbls.map (fun (e : Nat × Tbl) => (e.1, { e.2 with switch := none })) }
  ((s.srcsWith Reg.HDG_SRC_LEVEL).filter (fun i => i == 2 || (64 ≤ i && i < 384))).foldl
    (fun s i => hedgeLevel s i false 0) s

/-- The ports stop: each is down and sends no blocks (R633). -/
def portsStop (s : State) : State :=
  (List.range 8).foldl (fun s n => (setPortState s n psDown).setPort n {}) s

/-- The ports start again from nothing (R96, R484): the die ID, routes and the ports' registers go. The physical layer
that a port uses and its link epoch stay. -/
def linkLoss (s : State) : State :=
  let s := portsStop s
  let kept := (List.range 8).flatMap (fun n => [Reg.CSK_STAT_D2D.key [n], Reg.CSK_EPOCH_RX_EPOCH.key [n]])
  let csk (k : Nat) : Bool := 0x800000 ≤ k / 128 && k / 128 < 0x880000
  { s with
    regs := FMap.dropWhere s.regs (fun k => csk k && !kept.contains k)
    captured := FMap.dropWhere s.captured csk
    link := {} }

/-- A job ends with a status because the fabric goes. One that has not run ends too, and a start in progress fails. -/
def fabricJob (st : Status) (s : State) (j : Nat) : State :=
  let x := s.job j
  if !x.loaded then s
  else
    let s := abandonStart s j st 0
    let x := s.job j
    if x.state = 0 then
      postWaits (s.setJob j { x with state := 2, final := st.code, changedAt := s.now }) j
    else endJob s j st

/-- Every job ends, and every command that runs and needs VCORE fails, but for the DEV_RESET that asked. -/
def fabricAbort (s : State) (st : Status) (but : Option (Nat × Nat)) : State :=
  let s := (List.range 16).foldl (fabricJob st) s
  (s.mbx.cmds.filter (fun c => c.started && c.result.isNone && c.needsCore && but != some (c.func, c.slot))).foldl
    (fun s c => fail s c st 0xFFFF 0 0) s

/-- The fabric reset starts (R96, R97): VCORE_EN falls for 1 ms and rises again, and steps 3 to 7 repeat. Before the
die has served, it repeats bring-up and no command waits for it. -/
def fabricReset (s : State) (cmd : Option (Nat × Nat)) : State :=
  let b := s.boot
  let s := linkLoss (coreLoss (fabricAbort s .aborted cmd))
  let s := (s.wr Reg.TOP_RSTCAUSE_FABRIC [] 1).wr Reg.TOP_BOOTSTAT_STATE [] 1
  let s := ((s.wr Reg.TOP_MODE_PHASE [] 2).wr Reg.TOP_HARVEST_PLOT_EN [] 0).wr Reg.TOP_HARVEST_PLOT_COUNT [] 0
  let s := (vcoreOff s).wr Reg.TOP_PINSTAT_VCORE_PG [] 0
  let s := (driveVid s 0x64).wr Reg.TOP_PINSTAT_VCORE_EN [] 1
  let serving := s.on Reg.TOP_MODE_MODE []
  let s := { s with boot := { s.boot with
    vcoreEnAt := s.now + msCounts 1, bistDone := false, trained := false, fabricReset := serving
    fabricAt := if b.fabricReset then b.fabricAt else s.now
    fabricCmd := if b.fabricReset then b.fabricCmd else cmd } }
  postCleared (faultVectorAll s)

/-! ### DEV_RESET -/

/-- DEV_RESET. -/
def devResetOp (s : State) (f i : Nat) : State :=
  acs s f i 0x102 (fun s c =>
    match c.fld 8 1 with
    | 1 => if s.role = 2 then fail s c .fabricHalted 0xFFFF 0 0 else fabricReset (waiting s c) (some (f, i))
    | 2 => islandRestart { waiting s c with boot := { s.boot with islandCmd := some (f, i) } }
    | n => fail s c .badParam 8 0 n)

/-- DEV_RESET. -/
def execDevReset (f : Fin 16) (i : Fin 128) (s : State) : Outcome State Fault Refusal := nextQ (devResetOp s f i)

/-- FABRIC_RESET_COMPLETE: READY again; a host reset that came meanwhile takes place now. -/
def fabricCompleteOp (s : State) : State :=
  let b := s.boot
  if !b.fabricReset ∨ !s.coreUp ∨ !b.bistDone ∨ !b.trained then s
  else
    let s := advanceEpochs s
    let s := (s.wr Reg.TOP_MODE_PHASE [] 8).wr Reg.TOP_BOOTSTAT_STATE [] 2
    let s := { s with boot := { s.boot with fabricReset := false, fabricCmd := none, hostResetHeld := false } }
    let s := match b.fabricCmd with
      | some (f, i) => s.finish f i .ok (leBytes 8 s.now)
      | none => s
    if b.hostResetHeld then hostResetAll s else s

/-- FABRIC_RESET_COMPLETE. -/
def execFabricResetComplete (s : State) : Outcome State Fault Refusal := nextQ (fabricCompleteOp s)

/-- The die is HALTED: VCORE_EN falls and the ports send no blocks. -/
def haltDie (s : State) : State := portsStop ((vcoreOff s).wr Reg.TOP_MODE_MODE [] 3)

/-- FABRIC_RESET_TIMEOUT: 250 ms have passed. -/
def fabricTimeoutOp (s : State) : State :=
  let b := s.boot
  if !b.fabricReset ∨ s.now < b.fabricAt + msCounts 250 then s
  else
    let s := haltDie (coreLoss (fabricAbort s .fabricHalted none))
    let s := dieRecord (s.wr Reg.TOP_FAULT_RESET_FAIL [] 1) 6 0 0
    let s := { s with boot := { s.boot with fabricReset := false, fabricCmd := none } }
    let s := match b.fabricCmd with
      | some (f, i) => s.failCmd f i .fabricHalted 0xFFFF 0 0
      | none => s
    faultVectorAll s

/-- FABRIC_RESET_TIMEOUT. -/
def execFabricResetTimeout (s : State) : Outcome State Fault Refusal := nextQ (fabricTimeoutOp s)

/-! ### Die faults (R633) -/

/-- VCORE_BROWNOUT. -/
def brownoutOp (s : State) : State :=
  if !s.coreUp ∨ !s.on Reg.TOP_PINSTAT_VCORE_EN [] then s
  else
    let s := (s.wr Reg.TOP_FAULT_BROWNOUT [] 1).wr Reg.TOP_PINSTAT_BROWNOUT [] 1
    let s := hedgeLevel s 5 true 0
    let s := dieRecord (s.wr Reg.TOP_RSTCAUSE_BROWNOUT [] 1) 2 0 0
    fabricReset s none

/-- VCORE_BROWNOUT. -/
def execVcoreBrownout (s : State) : Outcome State Fault Refusal := nextQ (brownoutOp s)

/-- HBM_CONTROLLER_FAULT of a working stack. -/
def hbmControllerFaultOp (s : State) (n : Nat) : State :=
  if !s.coreUp ∨ !s.boot.trained ∨ !s.stackOk n then s
  else
    let m := s.rd Reg.TOP_FAULT_STACK []
    let s := (s.wr Reg.TOP_FAULT_HBM_CTRL [] 1).wr Reg.TOP_FAULT_STACK [] (if bitOf m n then m else m + 2 ^ n)
    fabricReset (dieRecord s 3 n 0) none

/-- HBM_CONTROLLER_FAULT. -/
def execHbmControllerFault (n : Fin 6) (s : State) : Outcome State Fault Refusal := nextQ (hbmControllerFaultOp s n)

/-- The DIE record of a trip: during a hold-up sequence it takes the fourth slot of the reserved page if that is free,
and is not written otherwise (R634). -/
def tripRecord (s : State) (n temp : Nat) : State :=
  if s.on Reg.PWR_STAT_CUT [] then
    if s.on Reg.FLC_RSV_VALID [] && s.blank (s.rd Reg.FLC_RSV_PAGE [] * 256 + 192) then
      holdupRecord s 3 1 5 (leBytes 1 1 ++ leBytes 1 n ++ leBytes 2 temp)
    else s
  else dieRecord s 1 n temp

/-- THERMAL_TRIP: a fabric sensor reads 115.0 °C or more; TEMP / 8 − 64 °C. The trip holds until power-on reset. -/
def thermalTripOp (s : State) (n temp : Nat) : State :=
  if !s.coreUp ∨ temp < (115 + 64) * 8 then s
  else
    let s := tsensOp s n temp
    let s := haltDie (coreLoss (fabricAbort s .fabricHalted none))
    let s := hedgeEvent ((s.wr Reg.TOP_PINSTAT_THERMTRIP [] 1).wr Reg.TOP_FAULT_THERMAL [] 1) 6 n
    let s := tripRecord (s.wr Reg.TOP_RSTCAUSE_THERMAL [] 1) n temp
    faultVectorAll { s with boot := { s.boot with fabricReset := false } }

/-- THERMAL_TRIP. -/
def execThermalTrip (n : Fin 32) (temp : Nat) (s : State) : Outcome State Fault Refusal :=
  nextQ (thermalTripOp s n (temp % 4096))

/-! ### Scrubbing (R619) -/

/-- HBM_SCRUB: the scrub of one 32-byte unit of a working stack. -/
def hbmScrubOp (s : State) (n unit : Nat) (ecc : EccEvent) : State :=
  let u := n * (stackBytes / 32) + unit
  if !s.coreUp ∨ !s.boot.trained ∨ !s.stackOk n ∨ stackBytes / 32 ≤ unit then s
  else match ecc with
    | .clean => s
    | .corrected => if s.hbmPoison.contains u then s else s.satInc Reg.TOP_HBM_ECC_CE [n] 1
    | .uncorrectable _ =>
      if s.hbmPoison.contains u then s else hbmRecord (hbmUe s u 3) (32 * u) 32 7 0 0

/-- HBM_SCRUB. -/
def execHbmScrub (n : Fin 6) (unit : Nat) (ecc : EccEvent) (s : State) : Outcome State Fault Refusal :=
  .next (hbmScrubOp s n unit ecc)

end Sys2Proof.Machine
end

