-- ==== Sys2Proof/Machine/Answers.lean ====
section
/-! DEFINITION. ACK and NAK packets as their senders take them (R390, R482, R493), and the link events whose effect on
routes may leave a leader unreachable (R624, R628): a retrain that fails, blocks that arrive and LINK messages. -/

namespace Sys2Proof.Machine

open Host (Outcome)

/-! ### ACK -/

/-- An ACK reaches its sender: the operation leaves its in-flight count, and what waited for it may go. An update or an
install counts its answer. -/
def ackOp (s : State) (q : Packet) : State :=
  let (s, fl) := takeFlight s q
  match fl with
  | some f => releasePlot s (f.ctx / 4)
  | none =>
    let typ := q.tfb 8 1
    if typ = 14 then installAcked s q
    else if typ = 8 ∧ q.dstAgent < 64 then
      let p := q.dstAgent / 4
      let c := q.dstAgent % 4
      if bitOf (q.tfb 9 1) 1 then ctxFault s p c 18 (if q.srcDie = s.self then 1 else 2)
      else updateAcked s p c (q.tfb 12 4)
    else s

/-- ACK. -/
def execAck (q : Packet) (s : State) : Outcome State Fault Refusal :=
  let s := takeInbox s q
  nextQ (if s.coreUp && q.typ == 3 then ackOp s q else s)

/-! ### NAK -/

/-- An INSTALL stream was refused: the start that waits for its answer is abandoned. -/
def installRefused (s : State) (q : Packet) : State :=
  match (List.range 16).findSome? (fun j =>
      match (s.job j).start with
      | some t => if t.tag = q.tfb 10 2 then some (j, t) else none
      | none => none) with
  | some (j, t) =>
    abandonStart s j .dieSet (if t.targets.contains q.srcDie then q.srcDie else s.missingDie (s.job j).bundle t)
  | none => s

/-- A NAK reaches the agent that sent what it refuses: a context faults and its job ends (R493), a PROBE counts as lost
(R394), a start is abandoned. -/
def nakOp (s : State) (q : Packet) : State :=
  let typ := q.tfb 8 1
  let code := q.tfb 9 1
  let (s, fl) := takeFlight s q
  match fl with
  | some f => nakFault (releasePlot s (f.ctx / 4)) f.ctx typ code
  | none =>
    if typ = 11 then lostProbe s q.epoch
    else if typ = 14 then installRefused s q
    else if [6, 8, 10, 13].contains typ && decide (q.dstAgent < 64) && s.ctxLive (q.dstAgent / 4) (q.dstAgent % 4) then
      nakFault s q.dstAgent typ code
    else s

/-- NAK. -/
def execNak (q : Packet) (s : State) : Outcome State Fault Refusal :=
  let s := takeInbox s q
  nextQ (if s.coreUp && q.typ == 4 then nakOp s q else s)

/-! ### Leaders that can no longer be reached (R628) -/

/-- The jobs of other dies that installed records here, as (JOB_ID, leader). -/
def State.installers (s : State) : List (Nat × Nat) :=
  ((s.upd.plans.filter (fun x => x.slot.isNone)).map (fun x => (x.jobId, x.leader))
    ++ (s.graft.entries.filter (fun e => e.2.leader != s.self)).map (fun e => (e.2.jobId, e.2.leader))).dedup

/-- Records of leaders whose route runs through a port that is DOWN or QUARANTINED are removed. -/
def dropUnreachable (s : State) : State :=
  let lost (d : Nat) : Bool :=
    let st := s.portState (rtPort (s.rtEntry 0 d))
    s.link.routed && rtValid (s.rtEntry 0 d) && (st == psDown || st == psQuarantined)
  (s.installers.filter (fun e => lost e.2)).foldl (fun s e => dropInstalled s e.1 e.2) s

/-- RETRAIN_TIMEOUT. -/
def execRetrainTimeout (n : Fin 8) (s : State) : Outcome State Fault Refusal := nextQ (dropUnreachable (retrainTimeoutOp s n))

/-- DATA_BLOCK: a DATA or IDLE block arrives. -/
def execDataBlock (n : Fin 8) (b : Block) (s : State) : Outcome State Fault Refusal :=
  nextQ (dropUnreachable (dataBlockOp s n b))

/-- RETRY_BLOCK. -/
def execRetryBlock (n : Fin 8) (b : Block) (s : State) : Outcome State Fault Refusal :=
  nextQ (dropUnreachable (retryBlockOp s n b))

/-- LINK_MESSAGE. -/
def execLinkMessage (n : Fin 8) (m : LinkMsg) (s : State) : Outcome State Fault Refusal :=
  nextQ (dropUnreachable (linkMessageOp s n m))

end Sys2Proof.Machine
end

