-- ==== Sys2Proof/Machine/CmdTable.lean ====
section
/-! DEFINITION. The table commands (R211-R214): TBL_DEFINE with the checks of R407, TBL_DELETE (R423), TBL_SYNC,
TBL_SWITCH with its batch boundary (R419, R420) and TBL_STATS (R418). -/

namespace Sys2Proof.Machine

open Host (Outcome)

/-- Run with the directory slot of the table that descriptor bytes 8-9 name, or fail with NO_TABLE. -/
def withTable (s : State) (c : Cmd) (act : Nat → State) : State :=
  match s.tableOf c.func (c.fld 8 2) with
  | some t => act t
  | none => fail s c .noTable 8 0 (c.fld 8 2)

/-! ### The shard-map buffer (R404, R405) -/

/-- KIND, SHARDING and ENTRIES of a buffer. -/
def smKind (b : List Byte) : Nat := fieldAt b 0 1
def smSharding (b : List Byte) : Nat := fieldAt b 1 1
def smEntries (b : List Byte) : Nat := fieldAt b 2 2

/-- The LEN that the header calls for. -/
def smLen (b : List Byte) : Nat :=
  if smKind b = 2 then 64
  else if smSharding b = 0 then 64 + 16 * smEntries b
  else (64 + smEntries b + 15) / 16 * 16

/-- The entries as the shard-map memory holds them. -/
def smMap (b : List Byte) : List (List Byte) :=
  (List.range (if smKind b = 2 then 0 else smEntries b)).map (fun j =>
    if smSharding b = 0 then padTo 16 ((b.drop (64 + 16 * j)).take 16)
    else fill 12 0 ++ leBytes 1 (fieldAt b (64 + j) 1) ++ fill 3 0)

/-- Whether the header is as R404 has it. -/
def smHeaderOk (b : List Byte) : Bool :=
  let k := smKind b
  let space := fieldAt b 8 8
  let comp := k == 2
  let zero (o n : Nat) : Bool := fieldAt b o n == 0
  decide (64 ≤ b.length ∧ k ≤ 2 ∧ smSharding b ≤ 1 ∧ b.length = smLen b)
    && (if comp then smSharding b == 0 && smEntries b == 0 else decide (1 ≤ smEntries b ∧ smEntries b ≤ 256))
    && (k == 0 || decide (1 ≤ space ∧ space ≤ 2 ^ 48))
    && (k == 1 || zero 16 8)
    && decide (fieldAt b 32 1 < 64)
    && (if comp then decide (fieldAt b 33 1 ≤ 1) && decide (1 ≤ fieldAt b 40 8 ∧ fieldAt b 40 8 ≤ 2 ^ 32)
        else zero 33 1 && zero 34 2 && zero 36 2 && zero 40 8)
    && zero 38 2 && zero 48 8 && zero 56 8
    && (smSharding b == 0 || (b.drop (64 + smEntries b)).all (fun x => x == 0))

/-- The first bad RANGE entry: `next` is the row that an entry must begin at. -/
def rangeBad (rows : Nat) : Nat → Nat → List (List Byte) → Option Nat
  | i, next, [] => if next = rows then none else some (i - 1)
  | i, next, e :: r =>
    if meFirst e ≠ next ∨ meCount e = 0 ∨ rows < next + meCount e ∨ fieldAt e 13 3 ≠ 0 then some i
    else rangeBad rows (i + 1) (next + meCount e) r

/-! ### TBL_DEFINE -/

/-- The directory slot that a definition describes, but for its place in the shard-map memory and its components. -/
def defDir (c : Cmd) (b : List Byte) : Dir :=
  let k := smKind b
  let state := if bitOf (c.fld 11 1) 2 then c.fld 14 2 else 0
  { tkey := fieldAt b 4 4, id := c.fld 8 2, func := c.func, valid := true, drop := bitOf (c.fld 11 1) 0,
    interleave := smSharding b == 1, kind := k, concat := fieldAt b 33 1 == 1, fmt := c.fld 10 1,
    space := fieldAt b 8 8, rows := c.fld 16 8, seed := fieldAt b 16 8,
    modulus := if k = 2 then fieldAt b 40 8 else 1, compP := 0, compQ := 0, entries := if k = 2 then 0 else smEntries b,
    mapBase := 0, mask := fieldAt b 32 1 % 64, elems := c.fld 12 2,
    pitch := if k = 2 then 0 else pitchOf (c.fld 10 1) (c.fld 12 2) state }

/-- Whether a placement of `n` local rows breaks R403. -/
def placementBad (mask base pitch n : Nat) : Bool :=
  let st := maskStacks mask
  if n = 0 then mask != 0 || base != 0
  else st.isEmpty || base / stackBytes != st.headD 6 || base % 64 != 0
    || (placeRanges mask base pitch n).any (fun r => decide (stackBytes < r.1 % stackBytes + r.2))

/-- The first 64 MiB unit of a placement that a function does not hold. -/
def State.unheld (s : State) (f mask base pitch n : Nat) : Option Nat :=
  ((placeRanges mask base pitch n).flatMap (fun r => hbmUnits r.1 r.2)).find? (fun u => s.unitHolder u != f)

/-- Whether byte ranges meet. -/
def rangesMeet (x y : List (Nat × Nat)) : Bool :=
  x.any (fun a => y.any (fun b => decide (a.1 < b.1 + b.2 ∧ b.1 < a.1 + a.2)))

/-- The first table of a function whose current version a placement overlaps. -/
def State.overlapped (s : State) (f mask base pitch n : Nat) : Option Nat :=
  s.dirs.find? (fun t => (s.dir t).func == f && (s.dir t).kind != 2
    && rangesMeet (placeRanges mask base pitch n) (s.tableRanges t))

/-- The component checks of R407 for the components' slots `p` and `q`. -/
def State.composeBad (s : State) (d : Dir) (p q : Nat) : Option (Status × Nat × Nat × Nat) :=
  let dp := s.dir p
  let dq := s.dir q
  let elems := if d.concat then dp.elems + dq.elems == d.elems else dp.elems == dq.elems && d.elems == dp.elems
  if !elems then some (.badParam, 12, 0, d.elems)
  else if dp.space < cdiv d.space d.modulus ∨ dq.space < d.modulus then some (.badParam, 24, 0, d.modulus - 1)
  else none

/-- The first failing check of R407. -/
def State.defineBad (s : State) (c : Cmd) (b : List Byte) : Option (Status × Nat × Nat × Nat) :=
  let k := smKind b
  let base := fieldAt b 24 8
  let d := defDir c b
  let map := smMap b
  let n := if k = 2 then 0 else ownedRows d map s.self
  let comp (o : Nat) : Option Nat := (s.tableOf c.func (fieldAt b o 2)).filter (fun t => (s.dir t).kind != 2)
  let ent : Option Nat := if k = 2 ∨ smSharding b = 1 then none else rangeBad d.rows 0 0 map
  let low (v : Nat) : Nat := v % 2 ^ 32
  if !rowFmtOk d.fmt then some (.badParam, 10, 0, d.fmt)
  else if k ≤ 1 ∧ d.elems = 0 then some (.badParam, 12, 0, 0)
  else if k ≤ 1 ∧ (d.rows = 0 ∨ 2 ^ 40 < d.rows) then some (.badParam, 16, 0, low d.rows)
  else if k ≤ 1 ∧ 4096 < d.pitch then some (.badParam, 0xFFFF, 0, d.pitch)
  else if k = 0 ∧ d.space ≠ d.rows then some (.badParam, 24, 0, low d.space)
  else if k = 2 ∧ d.fmt ≠ 0 then some (.badParam, 10, 0, d.fmt)
  else if k = 2 ∧ c.fld 11 1 / 2 ≠ 0 then some (.badParam, 11, 0, c.fld 11 1)
  else if k = 2 ∧ c.fld 14 2 ≠ 0 then some (.badParam, 14, 0, c.fld 14 2)
  else if k = 2 ∧ d.rows ≠ 0 then some (.badParam, 16, 0, low d.rows)
  else if !smHeaderOk b then some (.shardMapInvalid, 24, 0, 0xFFFFFFFF)
  else match ent with
  | some i => some (.shardMapInvalid, 24, 0, i)
  | none =>
    if placementBad d.mask base d.pitch n then some (.shardMapInvalid, 24, 0, 0xFFFFFFFF)
    else match (maskStacks d.mask).find? (fun u => !s.stackOk u) with
    | some u => some (.stackFailed, 24, 0, u)
    | none =>
      match s.unheld c.func d.mask base d.pitch n with
      | some u => some (.notAssigned, 24, 0, u)
      | none =>
        match s.overlapped c.func d.mask base d.pitch n with
        | some t => some (.noResource, 24, 0, (s.dir t).id)
        | none =>
          if (s.tableOf c.func d.id).isSome then some (.tableExists, 8, 0, d.id)
          else if (s.slotOfKey d.tkey).isSome then some (.tableExists, 24, 1, d.tkey)
          else if k ≠ 2 then none
          else match comp 34, comp 36 with
          | none, _ => some (.noTable, 24, 0, fieldAt b 34 2)
          | _, none => some (.noTable, 24, 0, fieldAt b 36 2)
          | some p, some q => s.composeBad d p q

/-- Shard-map entries. -/
def mapSize : Nat := 16384

/-- The lowest place for `n` consecutive free entries of the shard-map memory (R447). -/
def State.mapPlace (s : State) (n : Nat) : Option Nat :=
  let used := s.dirs.filterMap (fun t => let d := s.dir t
                                         if d.entries = 0 then none else some (d.mapBase, d.entries))
  let free (a : Nat) : Bool := decide (a + n ≤ mapSize) && used.all (fun u => decide (a + n ≤ u.1 ∨ u.1 + u.2 ≤ a))
  match ((0 :: used.map (fun u => u.1 + u.2)).filter free) with
  | [] => none
  | a :: r => some (r.foldl min a)

/-- Firmware fills a directory slot and commits it. -/
def putDir (s : State) (t : Nat) (b : List Byte) : State :=
  let x : StagedSet := .sivDir (Fin.ofNat 256 t)
  effectSet (captureSet (stageWords s Reg.SIV_DIR_WORD [t] 0 (wordsAt b 0 16)) x) x

/-- Firmware fills a geometry slot of Furrow unit `u` and commits it. -/
def putGeo (s : State) (u t : Nat) (words : List Nat) : State :=
  let x : StagedSet := .furGeo (Fin.ofNat 6 u) (Fin.ofNat 256 t)
  effectSet (captureSet (stageWords s Reg.FUR_GEO_WORD [u, t] 0 words) x) x

/-- The geometry of a table. -/
def geoWords (d : Dir) : List Nat :=
  [d.tkey, 1 + 2 * (maskStacks d.mask).length + 16 * d.fmt + 2 ^ 9 * (d.elems % 2 ^ 13) + 2 ^ 22 * (d.pitch / 64), 0, 0]

/-- Write the entries of a table. -/
def putMap (s : State) (a : Nat) : List (List Byte) → State
  | [] => s
  | e :: r => putMap { s with shard := FMap.set s.shard (fill 16 0) a e } (a + 1) r

/-- TBL_DEFINE once its checks have passed. -/
def defineTable (s : State) (c : Cmd) (b : List Byte) : State :=
  let d := defDir c b
  let map := smMap b
  let free := (List.range 256).find? (fun t => !(s.dir t).valid)
  match free, s.mapPlace d.entries with
  | none, _ => fail s c .noResource 0xFFFF 1 0
  | _, none => fail s c .noResource 0xFFFF 2 0
  | some t, some a =>
    let slot (o : Nat) : Nat := if d.kind = 2 then (s.tableOf c.func (fieldAt b o 2)).getD 0 else 0
    let d := { d with mapBase := a, compP := slot 34, compQ := slot 36 }
    let n := if d.kind = 2 then 0 else ownedRows d map s.self
    let s := putDir (putMap s a map) t (dirPack d)
    let s := (maskStacks d.mask).foldl (fun s u => putGeo s u t (geoWords d)) s
    let s := s.wr Reg.SIV_BASE_BASE [t] (fieldAt b 24 8)
    let fl := c.fld 11 1
    let x : Tbl := { versioned := bitOf fl 1, optState := bitOf fl 2, stateBytes := if bitOf fl 2 then c.fld 14 2 else 0 }
    done (s.setTbl t x) c (leBytes 4 1 ++ fill 4 0 ++ leBytes 8 (n * d.pitch))

/-- TBL_DEFINE. -/
def tblDefineOp (s : State) (f i : Nat) (buf : HostBuf) : State :=
  acs s f i 0x301 (fun s c => withBuffer s c 24 buf (fun s b =>
    match s.defineBad c b with
    | some e => fail s c e.1 e.2.1 e.2.2.1 e.2.2.2
    | none => defineTable s c b))

/-- TBL_DEFINE. -/
def execTblDefine (f : Fin 16) (i : Fin 128) (buf : HostBuf) (s : State) : Outcome State Fault Refusal :=
  .next (tblDefineOp s f i buf)

/-! ### TBL_DELETE and TBL_SYNC -/

/-- Whether a loaded job of this die names a table (R212). -/
def State.tableNamed (s : State) (t : Nat) : Bool :=
  (List.range 16).any (fun j => let x := s.job j
                                x.loaded && (records x.bundle 8 8).any (fun r => s.recTable x.func r == some t))

/-- Whether a COMPOSED table names a table as its component (R411). -/
def State.componentOf (s : State) (t : Nat) : Bool :=
  s.dirs.any (fun u => let d := s.dir u
                       d.kind == 2 && (d.compP == t || d.compQ == t))

/-- Start the invalidation of tables' lines; the command posts when it is complete. -/
def invalidateFor (s : State) (c : Cmd) (keys : List Nat) : State :=
  let s := keys.foldl (fun s k => rwcInvStart (rwcDropKey s k) k) (running s c)
  { s with rwc := { s.rwc with waits := s.rwc.waits ++ [(c.func, c.slot)] } }

/-- TBL_DELETE. -/
def tblDeleteOp (s : State) (f i : Nat) : State :=
  acs s f i 0x302 (fun s c => withTable s c (fun t =>
    if s.tableNamed t ∨ s.componentOf t then fail s c .busy 8 0 (c.fld 8 2)
    else
      let d := s.dir t
      let s := putMap s d.mapBase (List.replicate d.entries (fill 16 0))
      let s := (maskStacks d.mask).foldl (fun s u => putGeo s u t [0, 0, 0, 0]) (putDir s t (fill 64 0))
      let s := s.wr Reg.SIV_BASE_BASE [t] 0
      invalidateFor { s with tbls := FMap.erase s.tbls t } c [d.tkey]))

/-- TBL_DELETE. -/
def execTblDelete (f : Fin 16) (i : Fin 128) (s : State) : Outcome State Fault Refusal := .next (tblDeleteOp s f i)

/-- TBL_SYNC: a keyed invalidation covers the rows. -/
def tblSyncOp (s : State) (f i : Nat) : State :=
  acs s f i 0x303 (fun s c => withTable s c (fun t =>
    let d := s.dir t
    let first := c.fld 16 8
    let n := c.fld 24 8
    if d.kind = 2 then
      if first ≠ 0 ∨ n ≠ 0 then fail s c .badParam 16 0 (first % 2 ^ 32)
      else invalidateFor s c [(s.dir d.compP).tkey, (s.dir d.compQ).tkey]
    else if d.rows ≤ first ∨ (n = 0 ∧ first ≠ 0) then fail s c .badParam 16 0 (first % 2 ^ 32)
    else if d.rows < first + n then fail s c .badParam 24 0 (n % 2 ^ 32)
    else invalidateFor s c [d.tkey]))

/-- TBL_SYNC. -/
def execTblSync (f : Fin 16) (i : Fin 128) (s : State) : Outcome State Fault Refusal := .next (tblSyncOp s f i)

/-! ### TBL_SWITCH (R214, R419, R420) -/

/-- Whether a batch of the table in slot `t` is in progress on this die. -/
def State.tableBusy (s : State) (t : Nat) : Bool :=
  let k := (s.dir t).tkey
  s.sieves.any (fun e => decide (1 ≤ e.2.phase) && (s.batchSlots e.2).contains t)
    || s.furrow.any (fun e => e.2.parts.any (fun x => x.tkey == k) || e.2.upds.any (fun x => x.tkey == k))

/-- Steps 3 to 5 at the batch boundary. -/
def trySwitch (s : State) (t : Nat) : State :=
  match (s.tbl t).switch with
  | none => s
  | some (f, i, base) =>
    if s.tableBusy t then s
    else
      let s := rwcDropKey (s.wr Reg.SIV_BASE_BASE [t] base) (s.dir t).tkey
      let v := ((s.tbl t).version + 1) % 2 ^ 32
      let s := s.setTbl t { s.tbl t with switch := none, version := v }
      s.finish f i .ok (leBytes 4 v ++ fill 4 0 ++ leBytes 8 s.now)

/-- TBL_SWITCH: it holds new batches of the table from here on. -/
def tblSwitchOp (s : State) (f i : Nat) : State :=
  acs s f i 0x304 (fun s c => withTable s c (fun t =>
    let d := s.dir t
    let x := s.tbl t
    let base := c.fld 16 8
    let n := ownedRows d (s.mapOf d) s.self
    if !x.versioned then fail s c .badParam 8 0 (c.fld 8 2)
    else if placementBad (if n = 0 then 0 else d.mask) base d.pitch n ∨ (s.overlapped c.func d.mask base d.pitch n).isSome then
      fail s c .badParam 16 0 (base % 2 ^ 32)
    else match s.unheld c.func d.mask base d.pitch n with
      | some u => fail s c .notAssigned 16 0 u
      | none =>
        if c.fld 12 4 ≠ x.version then fail s c .versionMismatch 12 0 x.version
        else trySwitch ((running s c).setTbl t { x with switch := some (f, i, base) }) t))

/-- TBL_SWITCH. -/
def execTblSwitch (f : Fin 16) (i : Fin 128) (s : State) : Outcome State Fault Refusal := .next (tblSwitchOp s f i)

/-- TABLE_SWITCH_BOUNDARY: every batch of a table has ended. -/
def execTableSwitchBoundary (tkey : Nat) (s : State) : Outcome State Fault Refusal :=
  .next (if !s.coreUp then s else match s.slotOfKey tkey with | some t => trySwitch s t | none => s)

/-! ### TBL_STATS -/

/-- TBL_STATS. -/
def tblStatsOp (s : State) (f i : Nat) : State :=
  acs s f i 0x305 (fun s c => withTable s c (fun t =>
    let x := s.tbl t
    let body := leBytes 8 x.drops ++ leBytes 8 x.empties ++ leBytes 8 x.aborts ++ leBytes 4 x.version ++ fill 4 0
    let s := if bitOf (c.fld 10 1) 0 then s.setTbl t { x with drops := 0, empties := 0, aborts := 0 } else s
    done s c body))

/-- TBL_STATS. -/
def execTblStats (f : Fin 16) (i : Fin 128) (s : State) : Outcome State Fault Refusal := .next (tblStatsOp s f i)

end Sys2Proof.Machine
end

