-- ==== Sys2Proof/Machine/CmdMisc.lean ====
section
/-! DEFINITION. DEV_INFO (R194), the calibration commands (R215), the power commands (R216, R217), the forecast run
(R542, R543), the event commands (R222), DIAG_ECHO and DIAG_SELFTEST (R223, R224) and the link commands (R223, R225). -/

namespace Sys2Proof.Machine

open Host (Outcome)

/-! ### DEV_INFO -/

/-- The enabled plots that a function reports: the PF all of them, a VF those it holds. -/
def State.reportPlots (s : State) (f : Nat) : Nat := plotMask (fun p => s.plotEn p && (f == 0 || s.plotHolder p == f))

/-- The HBM bytes assigned to a function: a VF's ranges, and for the PF what no VF holds of the working stacks. -/
def State.hbmAssigned (s : State) (f : Nat) : Nat :=
  let sum (t : Tenant) : Nat := (t.ranges.map (·.2)).sum * 2 ^ 26
  if f = 0 then ((List.range 6).filter s.stackOk).length * stackBytes - (s.tenants.map (fun e => sum e.2)).sum
  else sum (s.tenant f)

/-- The body of DEV_INFO; the time base is that at posting. -/
def State.devInfoBody (s : State) (f : Nat) : List Byte :=
  let mask := s.reportPlots f
  let stack := ((List.range 6).find? s.stackOk).getD 0
  leBytes 8 s.boot.serial ++ leBytes 1 s.role ++ leBytes 1 (s.rd Reg.TOP_MODE_MODE []) ++ leBytes 1 (count16 mask)
    ++ leBytes 1 (s.rd (hbmRate stack) []) ++ leBytes 2 mask ++ leBytes 1 f
    ++ leBytes 1 (if f = 0 then count16 s.mbx.vfs else 0) ++ leBytes 4 s.boot.runVersion ++ leBytes 1 s.link.dieId
    ++ leBytes 1 (b2n s.link.idValid) ++ leBytes 2 1 ++ leBytes 8 (s.hbmAssigned f) ++ leBytes 8 s.now

/-- DEV_INFO. -/
def devInfoOp (s : State) (f i : Nat) : State := acs s f i 0x101 (fun s c => done s c (s.devInfoBody c.func))

/-- DEV_INFO. -/
def execDevInfo (f : Fin 16) (i : Fin 128) (s : State) : Outcome State Fault Refusal := .next (devInfoOp s f i)

/-! ### Calibration -/

/-- Whether an entry is of a job that function `f` may calibrate: its own job, or another die's entry on a port that it
holds. -/
def State.mayCalibrate (s : State) (f n : Nat) (e : GEntry) : Bool :=
  if e.leader = s.self then
    (List.range 16).any (fun j => (s.job j).loaded && jobId (s.job j).bundle == e.jobId && (s.job j).func == f)
  else s.holdsPort f n

/-- The first entry of unit PORT with a command's PLAN and LAYER. -/
def State.calEntry (s : State) (c : Cmd) : Option (Nat × GEntry) :=
  (s.gentsOf (c.fld 10 1)).find? (fun e =>
    e.2.plan == c.fld 8 2 && geLayer e.2.img == c.fld 12 4 && s.mayCalibrate c.func (c.fld 10 1) e.2)

/-- Stage and commit an entry's image with new scales (R520): they take effect at its next run or row. -/
def commitScales (s : State) (k : Nat) (e : GEntry) (sc : List (Nat × Int)) (zp : Bool) : State :=
  let n := k / 256
  let s := (s.gentsOf n).foldl (fun s (x : Nat × GEntry) => s.setGent x.1 { x.2 with cap := none }) s
  let s := s.setGent k { e with cap := some (e.img, sc, zp) }
  let s := stageWords (s.wr Reg.GRF_ESEL_SLOT [n] (k % 256)) Reg.GRF_ENT_WORD [n] 0
    (wordsAt (e.image k sc.length) 0 16)
  showGraft (captureSet s (.grfEnt (Fin.ofNat 8 n))) n

/-- CAL_SCALES. -/
def calScalesOp (s : State) (f i : Nat) (buf : HostBuf) : State :=
  acs s f i 0x401 (fun s c =>
    if 7 < c.fld 10 1 then fail s c .badParam 10 0 (c.fld 10 1)
    else match s.calEntry c with
    | none => fail s c .noPlan 8 0 (c.fld 8 2)
    | some (k, e) => withBuffer s c 16 buf (fun s t =>
      let r := geRung e.img 0
      if r.mode ≠ 1 ∨ !tensorOk e.img t then fail s c .badParam 24 0 t.length
      else match effScales r.fmt t with
      | .error j => fail s c .badParam 16 0 j
      | .ok l =>
        let sc := if e.role = 2 then [] else l
        let zp := tensorZp r.fmt t
        if s.graftFree (k / 256) + e.words < { e with cap := some (e.img, sc, zp) }.words then
          fail s c .noResource 0xFFFF 0 0
        else done (commitScales s k e sc zp) c []))

/-- CAL_SCALES. -/
def execCalScales (f : Fin 16) (i : Fin 128) (buf : HostBuf) (s : State) : Outcome State Fault Refusal :=
  .next (calScalesOp s f i buf)

/-- The rung that an entry's next packets take. -/
def GEntry.nextRung (e : GEntry) : Nat := if e.cap.isSome then 0 else e.startRung

/-- CAL_STATS. -/
def calStatsOp (s : State) (f i : Nat) : State :=
  acs s f i 0x402 (fun s c =>
    if 7 < c.fld 10 1 then fail s c .badParam 10 0 (c.fld 10 1)
    else match s.calEntry c with
    | none => fail s c .noPlan 8 0 (c.fld 8 2)
    | some (_, e) =>
      let share := if e.elems = 0 then 0 else (encodeQ 0 .rne false false e.clipped e.elems 0).1
      done s c (leBytes 4 e.maxAbs ++ leBytes 4 share ++ leBytes 8 e.elems ++ leBytes 4 e.fallbacks
        ++ leBytes 1 (geRung e.img e.nextRung).fmt ++ fill 3 0))

/-- CAL_STATS. -/
def execCalStats (f : Fin 16) (i : Fin 128) (s : State) : Outcome State Fault Refusal := .next (calStatsOp s f i)

/-! ### Power -/

/-- PWR_STATUS. -/
def execPwrStatus (f : Fin 16) (i : Fin 128) (s : State) : Outcome State Fault Refusal :=
  .next (acs s f i 0x501 (fun s c => done s c s.pwrStatusBody))

/-- The time base at the next second whose value DEMAND_S divides: when the next demand interval starts. -/
def State.nextInterval (s : State) : Nat :=
  if s.on Reg.PWR_CTL_ACCT_EN [] ∧ s.demandS ≠ 0 then
    let left := s.demandS - s.rd Reg.CLO_RTC_SEC_SEC [] % s.demandS
    s.now + (left * 32768 - s.rd Reg.CLO_RTC_SUB_SUB []) * 25000000 / 32768
  else s.now

/-- PWR_TARIFF. -/
def pwrTariffOp (s : State) (f i : Nat) (buf : HostBuf) : State :=
  acs s f i 0x502 (fun s c => withBuffer s c 8 buf (fun s b =>
    match tariffBadField b with
    | some o => fail s c .tariffInvalid 8 0 o
    | none =>
      match tariffBadBand b with
      | some k => fail s c .configMismatch 8 0 k
      | none =>
        let s := stageTariff s b 0
        let s := if bitOf (c.fld 24 1) 0 then writePersist s b else s
        done s c (leBytes 8 s.nextInterval)))

/-- PWR_TARIFF. -/
def execPwrTariff (f : Fin 16) (i : Fin 128) (buf : HostBuf) (s : State) : Outcome State Fault Refusal :=
  .next (pwrTariffOp s f i buf)

/-- The cap that a request for `w` watts gets: 0 or more than the budget is the budget (R94). -/
def State.capFor (s : State) (w : Nat) : Nat :=
  let b := s.rd Reg.PWR_BUDGET_BUDGET_W []
  if w = 0 ∨ b < w then b else w

/-- PWR_LIMITS: the order of the two writes keeps the pair in agreement. -/
def pwrLimitsOp (s : State) (f i : Nat) : State :=
  acs s f i 0x503 (fun s c =>
    let lo := c.fld 8 1
    let hi := c.fld 9 1
    if !pairAgree .vid lo hi then fail s c .configMismatch 8 0 (lo + 256 * hi)
    else
      let s := if lo < s.rd Reg.PWR_VID_MIN_CODE [] then pairWrite (pairWrite s 0 .vid false lo) 0 .vid true hi
        else pairWrite (pairWrite s 0 .vid true hi) 0 .vid false lo
      let w := s.capFor (c.fld 12 4)
      done (updateLimits (s.wr Reg.PWR_CAP_CAP_W [] w)) c (leBytes 4 w))

/-- PWR_LIMITS. -/
def execPwrLimits (f : Fin 16) (i : Fin 128) (s : State) : Outcome State Fault Refusal := .next (pwrLimitsOp s f i)

/-- PWR_ENERGY. -/
def pwrEnergyOp (s : State) (f i : Nat) : State :=
  acs s f i 0x504 (fun s c =>
    if 15 < c.fld 8 1 then fail s c .badParam 8 0 (c.fld 8 1)
    else match s.pwrEnergy (c.fld 8 1) (c.fld 12 4) with
    | some b => done s c b
    | none => fail s c .badParam 12 0 (c.fld 12 4))

/-- PWR_ENERGY. -/
def execPwrEnergy (f : Fin 16) (i : Fin 128) (s : State) : Outcome State Fault Refusal := .next (pwrEnergyOp s f i)

/-! ### FORECAST_RUN (R542, R543) -/

/-- Cells sent by all ports. -/
def State.cellsSent (s : State) : Nat := ((List.range 8).map (fun n => s.rd Reg.CSK_TXCELLS_COUNT [n])).sum

/-- The 48 features that the machine's state gives; `n` previous board features follow them in the vector. -/
def State.features (s : State) : List Int :=
  let rate (p : Nat) : Nat := s.rd Reg.PLT_REPLICA_RATE [p]
  let steps (p : Nat) : Nat := s.rd Reg.PLT_STEPS_COUNT [p] - FMap.get s.cloche.stepsSeen 0 p
  let temp (n : Nat) : Nat := s.rd Reg.TOP_TSENS_TEMP [n]
  let active : List Job := (List.range 16).map s.job
  let batches := (active.map (fun x => (x.batches.filter (fun b => b.phase < 2)).length)).sum
  let coreW := s.rd Reg.PWR_IMON_CORE [] * 1200 * 800 / 4096 * (500 + s.rd Reg.TOP_PINSTAT_VID [] * 5 / 2) / 1000000
  (List.range 16).map (fun p => if s.plotEn p then ((rate p : Int) - 1000) / 8 else 0)
    ++ (List.range 16).map (fun p =>
      if rate p = 0 ∨ !s.plotEn p then -128 else ((steps p * 127 / (rate p * 1000) : Nat) : Int) - 128)
    ++ (List.range 8).map (fun g => (((List.range 4).foldl (fun m k => max m (temp (4 * g + k))) 0 / 8 : Nat) : Int) - 128)
    ++ [((coreW / 5 : Nat) : Int) - 128, ((boardW (s.rd Reg.PWR_IMON_BOARD []) / 5 : Nat) : Int) - 128,
        (s.rd Reg.TOP_PINSTAT_VID [] : Int) - 100, (s.band : Int), ((s.capNow / 5 : Nat) : Int) - 128,
        (min batches 127 : Nat), (min (active.filter (fun x => x.loaded && x.state == 1)).length 127 : Nat),
        (((s.cellsSent - s.cloche.cellsSeen) / 2 ^ 16 : Nat) : Int)]

/-- The 64 bytes of the input vector. -/
def State.forecastVector (s : State) : List Byte :=
  s.features.map (fun x => i8code (clamp8 x)) ++ padTo 16 s.cloche.boardHist

/-- The model's outputs after a run that R543 accepts. -/
def State.forecastOut (s : State) : Option (List Byte) :=
  if s.on Reg.CME_STAT_DONE [] ∧ s.cloche.cmeLast = 4 then some (s.sramRead s.cloche.lastOut 4) else none

/-- FORECAST_RUN: with no usable model the governor runs without a forecast. -/
def forecastRunOp (s : State) : State :=
  if !s.govRuns ∨ s.on Reg.CME_STAT_BUSY [] then s
  else
    let v := s.forecastVector
    let c := s.cloche
    let s := { s with cloche := { c with
      boardHist := (v.getD 41 0 :: c.boardHist).take 16, cellsSeen := s.cellsSent,
      stepsSeen := (List.range 16).foldl (fun m p => FMap.set m 0 p (s.rd Reg.PLT_STEPS_COUNT [p])) [] } }
    match (s.model 0).filter (fun m => fieldAt m 0 1 == 0) with
    | none => s.wr Reg.CLO_STATE_NO_FORECAST [] 1
    | some m =>
      let s := sramPut s (0x40000 + Config.forecastInput.val) v
      let s := cmeRunAll 65536 (cmeBegin s (fieldAt m 16 4))
      match s.forecastOut with
      | none => s.wr Reg.CLO_STATE_NO_FORECAST [] 1
      | some y =>
        let s := hedgeLevel (s.wr Reg.CME_STAT_DONE [] 0) 400 false 0
        let s := (s.wr Reg.PWR_FCST_Y0 [] (fieldAt y 0 1)).wr Reg.PWR_FCST_Y1 [] (fieldAt y 1 1)
        let s := (s.wr Reg.PWR_FCST_Y2 [] (fieldAt y 2 1)).wr Reg.PWR_FCST_Y3 [] (fieldAt y 3 1)
        s.wr Reg.CLO_STATE_NO_FORECAST [] 0

/-- FORECAST_RUN. -/
def execForecastRun (s : State) : Outcome State Fault Refusal := .next (forecastRunOp s)

/-! ### Events -/

/-- Whether function `f` may have a source copied to it: the Host copy column of R550. -/
def State.routable (s : State) (f i : Nat) : Bool :=
  if srcKind i = .reserved then false
  else if 64 ≤ i ∧ i < 192 then s.plotHolder ((i - 64) / 8) == f
  else if 256 ≤ i ∧ i < 384 then s.holdsPort f ((i - 256) % 64 / 8)
  else f == 0 && ((1 ≤ i && i ≤ 3) || (192 ≤ i && i < 196) || inSeq i 200 4 6 || inSeq i 201 4 6 || i == 407 || i == 408)

/-- EVT_ROUTE. -/
def evtRouteOp (s : State) (f i : Nat) : State :=
  acs s f i 0x801 (fun s c =>
    let src := c.fld 8 2
    let v := c.fld 10 1
    let on := c.fld 11 1 % 2
    if src = 0 ∨ 1022 < src then fail s c .badParam 8 0 src
    else if v < 8 ∨ 127 < v then fail s c .badParam 10 0 v
    else if !s.routable c.func src then fail s c .notAssigned 8 0 src
    else if s.on Reg.HDG_SRC_HEN [src] ∧ s.rd Reg.HDG_SRC_FUNC [src] ≠ c.func then fail s c .busy 8 0 src
    else
      let w := s.rd Reg.HDG_SRC_BEN [src] + 2 * on + 4 * s.rd Reg.HDG_SRC_SENSE [src]
        + 32 * s.rd Reg.HDG_SRC_PRIO [src] + 2 ^ 13 * c.func + 2 ^ 17 * v
      done (hedgeSrcWriteOp s src w) c [])

/-- EVT_ROUTE. -/
def execEvtRoute (f : Fin 16) (i : Fin 128) (s : State) : Outcome State Fault Refusal := .next (evtRouteOp s f i)

/-- EVT_COALESCE: both values are staged and committed together; an open window keeps the settings it opened with. -/
def evtCoalesceOp (s : State) (f i : Nat) : State :=
  acs s f i 0x802 (fun s c =>
    let v := c.fld 8 1
    let n := c.fld 9 1
    let us := c.fld 12 4
    if 127 < v ∨ !coalesced v then fail s c .badParam 8 0 v
    else if n = 0 then fail s c .badParam 9 0 0
    else if us = 0 ∨ 65535 < us then fail s c .badParam 12 0 us
    else
      let s := (s.wr Reg.HDG_COAL_COUNT [c.func, v] n).wr Reg.HDG_COAL_TIME_US [c.func, v] us
      let x : StagedSet := .coal (Fin.ofNat 16 c.func)
      done (effectSet (captureSet s x) x) c [])

/-- EVT_COALESCE. -/
def execEvtCoalesce (f : Fin 16) (i : Fin 128) (s : State) : Outcome State Fault Refusal := .next (evtCoalesceOp s f i)

/-! ### Diagnosis -/

/-- DIAG_ECHO. -/
def execDiagEcho (f : Fin 16) (i : Fin 128) (s : State) : Outcome State Fault Refusal :=
  .next (acs s f i 0x901 (fun s c => done s c ((c.desc.drop 8).take 56)))

/-- A self-test leaves a plot's stores undefined (R224). -/
def undefStores (s : State) (p : Nat) : State := showScoreboard (s.setSto p { gen := (s.plot p).sto.gen + 1 }) p

/-- A self-test leaves bytes of HBM undefined (R224): units that it covers wholly are no longer poisoned. -/
def undefHbm (s : State) (a n : Nat) : State :=
  { s with
    hbm := FMap.dropWhere s.hbm (fun k => decide (a ≤ k ∧ k < a + n))
    hbmUndef := (a, n, s.freeCtr) :: s.hbmUndef
    hbmPoison := s.hbmPoison.filter (fun u => !(decide (a ≤ 32 * u) && decide (32 * (u + 1) ≤ a + n)))
    freeCtr := s.freeCtr + 1 }

/-- DIAG_SELFTEST; `bad` is the first failing bank or unit that the test finds. -/
def diagSelftestOp (s : State) (f i : Nat) (bad : Option Nat) : State :=
  acs s f i 0x903 (fun s c =>
    let body : List Byte := leBytes 4 (b2n bad.isSome) ++ leBytes 4 (bad.getD 0)
    let p := c.fld 9 1
    let a := c.fld 16 8
    let n := c.fld 24 8
    match c.fld 8 1 with
    | 0 =>
      if 15 < p then fail s c .badParam 9 0 p
      else if !s.plotEn p then fail s c .plotAbsent 9 0 p
      else if s.plotHolder p ≠ c.func then fail s c .notAssigned 9 0 p
      else if (s.jobOf p).isSome then fail s c .busy 9 0 p
      else if !s.coreUp then fail s c .fabricHalted 0xFFFF 0 0
      else done (undefStores s p) c body
    | 1 =>
      if n = 0 then fail s c .badParam 24 0 0
      else if !s.holdsHbm 0 a n then fail s c .notAssigned 16 0 (a % 2 ^ 32)
      else if !s.coreUp then fail s c .fabricHalted 0xFFFF 0 0
      else done (undefHbm s a n) c body
    | t => fail s c .badParam 8 0 t)

/-- DIAG_SELFTEST. -/
def execDiagSelftest (f : Fin 16) (i : Fin 128) (bad : Option Nat) (s : State) : Outcome State Fault Refusal :=
  .next (diagSelftestOp s f i bad)

/-! ### Link commands -/

/-- The 12 bytes of LINK_STATUS for port `n`. -/
def State.portBytes (s : State) (n : Nat) : List Byte :=
  let bit (k : Nat) (b : Bool) : Nat := if b then 2 ^ k else 0
  let flags := bit 0 (s.on Reg.CSK_STAT_D2D [n]) + bit 1 (s.on Reg.CSK_STAT_DEGRADED [n])
    + bit 2 (s.on Reg.CSK_STAT_PARTNER_EN [n]) + bit 3 (s.rd Reg.CSK_PARTNER_ID_ROLE [n] == 1)
    + bit 4 (s.on Reg.CSK_STAT_MISWIRED [n]) + bit 5 (s.on Reg.CSK_STAT_ID_CONFLICT [n])
    + bit 6 (s.on Reg.CSK_STAT_PEER_QUAR [n])
  leBytes 1 (s.portState n) ++ leBytes 1 (s.rd Reg.CSK_PARTNER_ID_PORT [n]) ++ leBytes 1 (s.rd Reg.CSK_PARTNER_ID_DIE [n])
    ++ leBytes 1 flags ++ leBytes 8 (s.rd Reg.CSK_PARTNER_SERIAL [n])

/-- LINK_STATUS. -/
def execLinkStatus (f : Fin 16) (i : Fin 128) (s : State) : Outcome State Fault Refusal :=
  .next (acs s f i 0xA01 (fun s c => done s c ((List.range 8).flatMap s.portBytes)))

/-- Every port is evaluated again. -/
def evaluatePorts (s : State) : State := (List.range 8).foldl portEvaluate s

/-- A trained neighbour reports a die ID. -/
def State.idTaken (s : State) (id : Nat) : Bool :=
  (List.range 8).any (fun n => (s.port n).trained && (s.port n).partnerSeen && s.on Reg.CSK_PARTNER_ID_ID_VALID [n]
    && s.rd Reg.CSK_PARTNER_ID_DIE [n] == id)

/-- LINK_SET_ID. -/
def linkSetIdOp (s : State) (f i : Nat) : State :=
  acs s f i 0xA02 (fun s c =>
    let id := c.fld 8 1
    if s.idTaken id then fail s c .dieIdConflict 8 0 id
    else if (List.range 8).any (fun n => s.portState n == psActive) then fail s c .busy 8 0 id
    else
      let s := { s with link := { s.link with dieId := id, idValid := true } }
      let s := (List.range 8).foldl (fun s n => portFlagLevel (s.wr Reg.CSK_STAT_ID_CONFLICT [n] 0) n) s
      done (evaluatePorts s) c [])

/-- LINK_SET_ID. -/
def execLinkSetId (f : Fin 16) (i : Fin 128) (s : State) : Outcome State Fault Refusal := .next (linkSetIdOp s f i)

/-- Stage, commit and take an accepted routing table on one port. -/
def routePort (b : List Byte) (s : State) (n : Fin 8) : State :=
  let s := stageWords s Reg.CSK_RTHDR_WORD [n.val] 0 (wordsAt b 0 4)
  let s := stageWords s Reg.CSK_RT_WORD [n.val] 0 (wordsAt b 64 256)
  effectSet (captureSet s (.route n)) (.route n)

/-- LINK_ROUTE. -/
def linkRouteOp (s : State) (f i : Nat) (buf : HostBuf) : State :=
  acs s f i 0xA03 (fun s c => withBuffer s c 8 buf (fun s b =>
    if b.length ≠ 1088 then fail s c .badParam 16 0 b.length
    else match routeCheck b with
    | some v => fail s c .routeInvalid 8 0 v
    | none =>
      let s := (List.finRange 8).foldl (routePort b) s
      done (evaluatePorts { s with link := { s.link with routed := true } }) c []))

/-- LINK_ROUTE. -/
def execLinkRoute (f : Fin 16) (i : Fin 128) (buf : HostBuf) (s : State) : Outcome State Fault Refusal :=
  .next (linkRouteOp s f i buf)

/-- LINK_ENABLE. -/
def linkEnableOp (s : State) (f i : Nat) : State :=
  acs s f i 0xA04 (fun s c =>
    let mask := c.fld 8 1
    let ports := (List.range 8).filter (bitOf mask)
    if ports.any (fun n => !(s.port n).trained) then fail s c .linkDown 8 0 mask
    else if ports.any (fun n => s.portState n == psQuarantined) then fail s c .portQuarantined 8 0 mask
    else done (ports.foldl (fun s n => portEvaluate (s.wrb Reg.CSK_CTL_ENABLE [n] (bitOf (c.fld 9 1) n)) n) s) c [])

/-- LINK_ENABLE. -/
def execLinkEnable (f : Fin 16) (i : Fin 128) (s : State) : Outcome State Fault Refusal := .next (linkEnableOp s f i)

end Sys2Proof.Machine
end

