-- ==== Sys2Proof/Machine/CmdFlash.lean ====
section
/-! DEFINITION. The flash and firmware commands (R218-R221): FLASH_READ, FLASH_PROGRAM, FLASH_ERASE, LOG_READ, FW_INFO,
FW_WRITE, FW_VERIFY, FW_ACTIVATE, and the online exchange of FW_SWAP (R545-R548). -/

namespace Sys2Proof.Machine

open Host (Outcome)

/-- Bytes of the flash. -/
def flashBytes : Nat := 0x800000

/-- The failing check of a named range of the flash whose address stands at byte `a` and length at byte `l`. -/
def rangeOut (addr n a l : Nat) : Option (Status × Nat × Nat) :=
  if flashBytes ≤ addr then some (.badParam, a, addr)
  else if flashBytes < addr + n then some (.badParam, l, n)
  else none

/-- Whether a bank that a range touches is programming or erasing: a read waits (R571). -/
def State.bankBusy (s : State) (addr n : Nat) : Bool :=
  (decide (addr < 0x400000) && !s.flash.bank0.isEmpty) || (decide (0x400000 < addr + n) && !s.flash.bank1.isEmpty)

/-- Whether the uncorrectable segment of a read lies in a range. -/
def eccHits (ecc : FlashEcc) (addr n : Nat) : Option Nat :=
  match ecc.bad with
  | some g => if 64 * g.val < addr + n ∧ addr < 64 * g.val + 64 then some (64 * g.val) else none
  | none => none

/-- Deliver what a command reads from flash: the segments read are counted, and an uncorrectable one fails the command
(R573). -/
def flashDeliver (s : State) (c : Cmd) (r : BufRef) (ecc : FlashEcc) (bad : Option Nat) (data body : List Byte) : State :=
  let s := flashEccCount s { ecc with bad := if bad.isSome then ecc.bad else none }
  match bad with
  | some a => fail (memRecord s (a / 64) 2 0 8 c.func a Status.mediaError.code) c .mediaError 0xFFFF 0 a
  | none => done (putBuffer s c.func r data) c body

/-- FLASH_READ. -/
def flashReadOp (s : State) (f i : Nat) (ecc : FlashEcc) : State :=
  acs s f i 0x701 (fun s c =>
    let a := c.fld 8 4
    let n := c.fld 12 4
    let r := c.ref 16
    if n = 0 ∨ 2 ^ 20 < n then fail s c .badParam 12 0 n
    else match rangeOut a n 8 12 with
    | some e => fail s c e.1 e.2.1 0 e.2.2
    | none =>
      match s.destBad c.func r 16 with
      | some e => fail s c e.1 e.2.1 0 e.2.2
      | none =>
        if r.len < n then fail s c .badParam 24 0 r.len
        else if s.bankBusy a n then s
        else flashDeliver s c r ecc (eccHits ecc a n) (s.flashRead a n) [])

/-- FLASH_READ. -/
def execFlashRead (f : Fin 16) (i : Fin 128) (ecc : FlashEcc) (s : State) : Outcome State Fault Refusal :=
  .next (flashReadOp s f i ecc)

/-- Queue the program of bytes at an address, one operation for each sector. -/
def queueProgram (o : FlashOwner) : Nat → State → Nat → List Byte → State
  | 0, s, _, _ => s
  | fuel + 1, s, a, l =>
    if l.isEmpty then s
    else
      let n := 4096 - a % 4096
      let part := l.take n
      queueProgram o fuel (queueFlash s (a / 4096) (.program o a (segments (cdiv part.length 64) part))) (a + n) (l.drop n)

/-- FLASH_PROGRAM. -/
def flashProgramOp (s : State) (f i : Nat) (buf : HostBuf) : State :=
  acs s f i 0x702 (fun s c =>
    let a := c.fld 8 4
    let n := c.fld 24 4
    if a % 256 ≠ 0 then fail s c .badParam 8 0 a
    else if n % 256 ≠ 0 then fail s c .badParam 24 0 n
    else match rangeOut a n 8 24 with
    | some e => fail s c e.1 e.2.1 0 e.2.2
    | none =>
      if !modelSectors (a / 4096) (cdiv (a % 4096 + n) 4096) then fail s c .flashProtected 8 0 a
      else withBuffer s c 16 buf (fun s l => queueProgram (.cmd c.func c.slot) 4096 (running s c) a l))

/-- FLASH_PROGRAM. -/
def execFlashProgram (f : Fin 16) (i : Fin 128) (buf : HostBuf) (s : State) : Outcome State Fault Refusal :=
  .next (flashProgramOp s f i buf)

/-- Firmware writes the range of an erase to the direct pair of R133: a count of 1, the sector, and the count, so that
the pair agrees after each write but a last one that is refused (R134). -/
def eraseRange (s : State) (a n : Nat) : State :=
  pairWrite (pairWrite (pairWrite s 0 .flashErase true 1) 0 .flashErase false a) 0 .flashErase true n

/-- FLASH_ERASE. -/
def flashEraseOp (s : State) (f i : Nat) : State :=
  acs s f i 0x703 (fun s c =>
    let a := c.fld 8 4
    let n := c.fld 12 4
    if 2047 < a then fail s c .badParam 8 0 a
    else if n = 0 ∨ 2048 < a + n then fail s c .badParam 12 0 n
    else
    let s := eraseRange s a n
    if a / 1024 ≠ (a + n - 1) / 1024 then fail s c .configMismatch 8 0 a
    else if !modelSectors a n then fail s c .flashProtected 8 0 (4096 * a)
    else queueFlash (running s c) a (.erase (.cmd c.func c.slot) a n))

/-- FLASH_ERASE. -/
def execFlashErase (f : Fin 16) (i : Fin 128) (s : State) : Outcome State Fault Refusal := .next (flashEraseOp s f i)

/-- The records of a log inside the wear window, oldest first. -/
def State.logOf (s : State) (log : Nat) : List (List Byte) :=
  (s.windowRecords.filter (fun r => fieldAt r 0 1 == log)).mergeSort (fun a b => fieldAt a 4 4 ≤ fieldAt b 4 4)

/-- The records that a read of a log from sequence `first` delivers. -/
def State.logFrom (s : State) (log first count : Nat) : List (List Byte) :=
  ((s.logOf log).filter (fun r => decide (first ≤ fieldAt r 4 4))).take count

/-- The sequence of the oldest record of a log that is held, or 0. -/
def State.logOldest (s : State) (log : Nat) : Nat := ((s.logOf log).head?.map (fun r => fieldAt r 4 4)).getD 0

/-- LOG_READ. -/
def logReadOp (s : State) (f i : Nat) (ecc : FlashEcc) : State :=
  acs s f i 0x704 (fun s c =>
    let log := c.fld 8 1
    let r := c.ref 20
    if 1 < log then fail s c .badParam 8 0 log
    else match s.destBad c.func r 20 with
    | some e => fail s c e.1 e.2.1 0 e.2.2
    | none =>
      if r.len < 64 * c.fld 16 4 then fail s c .badParam 28 0 r.len
      else
        let s := countTorn s
        let recs := s.logFrom log (c.fld 12 4) (c.fld 16 4)
        flashDeliver s c r ecc (eccHits ecc 0x200000 0x200000) recs.flatten
          (leBytes 4 recs.length ++ leBytes 4 (s.logOldest log)))

/-- LOG_READ. -/
def execLogRead (f : Fin 16) (i : Fin 128) (ecc : FlashEcc) (s : State) : Outcome State Fault Refusal :=
  .next (logReadOp s f i ecc)

/-! ### Firmware -/

/-- The block that the swap record does not name. -/
def State.inactive (s : State) : Nat :=
  match s.newestSwap with
  | some (_, r) => 1 - r.active
  | none => 1

/-- Whether a firmware write is in progress: an operation of a boot block is queued. -/
def State.fwBusy (s : State) : Bool :=
  s.queuedRanges.any (fun r => decide (r.1 < 0x40000) || decide (0x400000 ≤ r.1 ∧ r.1 < 0x440000))

/-- FW_INFO; `img` is what a check of the block that does not run finds. -/
def fwInfoOp (s : State) (f i : Nat) (img : ImageCheck) : State :=
  acs s f i 0x601 (fun s c =>
    done s c (leBytes 1 (s.rd Reg.TOP_BOOTSTAT_BLOCK []) ++ leBytes 1 (s.rd Reg.TOP_BOOTSTAT_TRIAL []) ++ leBytes 2 0
      ++ leBytes 4 s.boot.runVersion ++ leBytes 4 (if img.reason = 0 then img.version else 0) ++ leBytes 4 s.boot.runSec))

/-- FW_INFO. -/
def execFwInfo (f : Fin 16) (i : Fin 128) (img : ImageCheck) (s : State) : Outcome State Fault Refusal :=
  .next (fwInfoOp s f i img)

/-- Queue the erase and the program of each sector of a range in turn. -/
def queueRewrite (o : FlashOwner) : Nat → State → Nat → List Byte → State
  | 0, s, _, _ => s
  | fuel + 1, s, a, l =>
    if l.isEmpty then s
    else
      let s := queueFlash s (a / 4096) (.erase o (a / 4096) 1)
      let s := queueFlash s (a / 4096) (.program o a (segments 64 (l.take 4096)))
      queueRewrite o fuel s (a + 4096) (l.drop 4096)

/-- FW_WRITE. -/
def fwWriteOp (s : State) (f i : Nat) (buf : HostBuf) : State :=
  acs s f i 0x602 (fun s c =>
    let o := c.fld 8 4
    let n := c.fld 24 4
    if o % 4096 ≠ 0 ∨ 0x40000 ≤ o then fail s c .badParam 8 0 o
    else if n % 4096 ≠ 0 ∨ 0x40000 < o + n then fail s c .badParam 24 0 n
    else withBuffer s c 16 buf (fun s l =>
      queueRewrite (.cmd c.func c.slot) 64 (running s c) (blockAddr s.inactive + o) l))

/-- FW_WRITE. -/
def execFwWrite (f : Fin 16) (i : Fin 128) (buf : HostBuf) (s : State) : Outcome State Fault Refusal :=
  .next (fwWriteOp s f i buf)

/-- FW_VERIFY. -/
def fwVerifyOp (s : State) (f i : Nat) (img : ImageCheck) : State :=
  acs s f i 0x603 (fun s c =>
    if img.reason ≠ 0 then fail s c .imageInvalid 0xFFFF img.reason 0 else done s c (leBytes 4 0))

/-- FW_VERIFY. -/
def execFwVerify (f : Fin 16) (i : Fin 128) (img : ImageCheck) (s : State) : Outcome State Fault Refusal :=
  .next (fwVerifyOp s f i img)

/-- Why the inactive block cannot be activated: status and SUBCODE (R219). -/
def State.activateBad (s : State) (img : ImageCheck) : Option (Status × Nat) :=
  if s.on Reg.TOP_BOOTSTAT_TRIAL [] then some (.trialPending, 0)
  else if s.fwBusy then some (.busy, 0)
  else if img.reason ≠ 0 then some (.imageInvalid, img.reason)
  else none

/-- The swap record that names the inactive block for trial (R220). -/
def trialRecord (s : State) (img : ImageCheck) : State :=
  (writeSwap s ⟨0, s.inactive, true, 0, 1, img.version, s.boot.bootCount⟩).1

/-- FW_ACTIVATE. -/
def fwActivateOp (s : State) (f i : Nat) (img : ImageCheck) : State :=
  acs s f i 0x604 (fun s c =>
    match s.activateBad img with
    | some e => fail s c e.1 0xFFFF e.2 0
    | none => done (trialRecord s img) c [])

/-- FW_ACTIVATE. -/
def execFwActivate (f : Fin 16) (i : Fin 128) (img : ImageCheck) (s : State) : Outcome State Fault Refusal :=
  .next (fwActivateOp s f i img)

/-- A write of 1 to CLO_SWAP.GO, step 4 of R546: SEAM is set, the Bench core halts and the watchdog stops. -/
def swapGo (s : State) : State :=
  let s := (s.wr Reg.CLO_FWSTAT_SEAM [] 1).wr Reg.BNC_CTL_HALTED [] 1
  (s.wr Reg.TOP_RSTCAUSE_SWAP [] 1).wr Reg.CLO_WDT_EN [] 0

/-- Steps 3 and 4 of R546: claims are completed, SPI and PDM stop, the Bench core halts with SEAM set. The handoff is
firmware's own memory. -/
def seamEntry (s : State) : State :=
  let s := (s.srcsWith Reg.HDG_SRC_ACTIVE).foldl benchCompleteOp s
  let s := s.wr Reg.CLO_SPI_CTL_BUSY [] 0
  let s := (s.wr Reg.CLO_PDM_CTL_EN [0] 0).wr Reg.CLO_PDM_CTL_EN [1] 0
  swapGo s

/-- FW_SWAP: the swap record is the commit point, then the exchange begins. -/
def fwSwapOp (s : State) (f i : Nat) (img : ImageCheck) : State :=
  acs s f i 0x605 (fun s c =>
    match s.activateBad img with
    | some e => fail s c e.1 0xFFFF e.2 0
    | none =>
      let s := waiting (trialRecord s img) c
      seamEntry { s with cloche := { s.cloche with swapCmd := some (c.func, c.slot) } })

/-- FW_SWAP. -/
def execFwSwap (f : Fin 16) (i : Fin 128) (img : ImageCheck) (s : State) : Outcome State Fault Refusal :=
  .next (fwSwapOp s f i img)

/-- SEAM_IMAGE_LOADED: the boot ROM has selected under R79; `img` is its check of the new image. The new firmware posts OK
and confirms; after a fallback the old one posts RESTARTED. -/
def seamLoadedOp (s : State) (img : ImageCheck) : State :=
  if !s.on Reg.CLO_FWSTAT_SEAM [] then s
  else
    let old : ImageCheck := ⟨0, s.boot.runVersion, s.boot.runSec⟩
    let was := s.rd Reg.TOP_BOOTSTAT_BLOCK []
    let (s, blk) := bootSelect s (if was = 0 then old else img) (if was = 0 then img else old)
    match blk with
    | none => recoveryEntry s
    | some k =>
      let new := k != was
      let s := bootRecord (startImage s k (if new then img else old))
      let s := match s.cloche.swapCmd with
        | some (f, i) =>
          if new then s.finish f i .ok (leBytes 4 img.version ++ leBytes 4 0)
          else s.failCmd f i .restarted 0xFFFF 0 0
        | none => s
      let s := restartCmds s
      let s := (s.wr Reg.CLO_FWSTAT_SEAM [] 0).wr Reg.BNC_CTL_HALTED [] 0
      let s := { s with cloche := { s.cloche with swapCmd := none } }
      if new then
        (writeSwap s ⟨0, k, false, s.rd Reg.TOP_BOOTSTAT_TRIES [], 1, img.version, s.boot.bootCount⟩).1.wr
          Reg.TOP_BOOTSTAT_TRIAL [] 0
      else s

/-- SEAM_IMAGE_LOADED. -/
def execSeamImageLoaded (img : ImageCheck) (s : State) : Outcome State Fault Refusal := .next (seamLoadedOp s img)

end Sys2Proof.Machine
end

