-- ==== Sys2Proof/Machine/Mctp.lean ====
section
/-! DEFINITION. The MCTP endpoint of the die (R614): its control messages, and the vendor-defined messages of R615 by which
a board controller reads power and logs, sets tariff, cap and time, and serves a DORMANT die. -/

namespace Sys2Proof.Machine

open Host (Outcome)

/-! ### Control messages (R614) -/

/-- Completion codes of the control protocol (DSP0236). PRESUMED. -/
def ccInvalidData : Nat := 2
def ccUnsupported : Nat := 5
def ccNoVersion : Nat := 0x80

/-- A message has come on port `p`: it needs firmware, so the port's source requests (R550). -/
def mctpArrives (s : State) (p : Nat) : State := if s.boot.porstN then hedgeEvent s (403 + p) 0 else s

/-- The endpoint answers while firmware runs. -/
def mctpAnswer (s : State) (p st : Nat) (body : List Byte) : State :=
  let s := mctpArrives s p
  if s.fwRuns then s.emit (.mctp p st body) else s

/-- The endpoint ID of a port; 0 is the null endpoint ID. -/
def State.eid (s : State) (p : Nat) : Nat := FMap.get s.cloche.eids 0 p

/-- SET_ENDPOINT_ID. -/
def setEidOp (s : State) (p eid : Nat) : State :=
  let s := mctpArrives s p
  if !s.fwRuns then s
  else if eid = 0 ∨ 254 < eid then s.emit (.mctp p ccInvalidData [])
  else
    ({ s with cloche := { s.cloche with eids := FMap.set s.cloche.eids 0 p eid } }).emit
      (.mctp p 0 (leBytes 1 0 ++ leBytes 1 eid ++ leBytes 1 0))

/-- SET_ENDPOINT_ID. -/
def execSetEndpointId (p : Fin 2) (eid : Nat) (s : State) : Outcome State Fault Refusal := .next (setEidOp s p (eid % 256))

/-- GET_ENDPOINT_ID. -/
def execGetEndpointId (p : Fin 2) (s : State) : Outcome State Fault Refusal :=
  .next (mctpAnswer s p 0 (leBytes 1 (s.eid p) ++ leBytes 2 0))

/-- GET_ENDPOINT_UUID. -/
def execGetEndpointUuid (p : Fin 2) (s : State) : Outcome State Fault Refusal :=
  .next (mctpAnswer s p 0 (leBytes 16 Config.endpointUuid.toNat))

/-- Base version 1.3 as the control protocol writes it. PRESUMED. -/
def mctpVersion : List Byte := [0xF1, 0xF3, 0xF0, 0x00]

/-- GET_MCTP_VERSION_SUPPORT. -/
def execGetMctpVersionSupport (p : Fin 2) (msgType : Nat) (s : State) : Outcome State Fault Refusal :=
  .next (if msgType = 0xFF ∨ msgType = 0 ∨ msgType = 0x7F then mctpAnswer s p 0 (leBytes 1 1 ++ mctpVersion)
    else mctpAnswer s p ccNoVersion [])

/-- GET_MESSAGE_TYPE_SUPPORT. -/
def execGetMessageTypeSupport (p : Fin 2) (s : State) : Outcome State Fault Refusal :=
  .next (mctpAnswer s p 0 [2, 0x00, 0x7F])

/-- GET_VENDOR_DEFINED_MESSAGE_SUPPORT: one entry, with the enterprise number. -/
def execGetVendorDefinedMessageSupport (p : Fin 2) (selector : Nat) (s : State) : Outcome State Fault Refusal :=
  .next (if selector = 0 then
      mctpAnswer s p 0 ([0xFF, 1] ++ (leBytes 4 Config.enterpriseNumber.toNat).reverse ++ fill 2 0)
    else mctpAnswer s p ccInvalidData [])

/-- MCTP_UNSUPPORTED_CMD: ERROR_UNSUPPORTED_CMD. -/
def execMctpUnsupportedCmd (p : Fin 2) (_cmd : Nat) (s : State) : Outcome State Fault Refusal :=
  .next (mctpAnswer s p ccUnsupported [])

/-! ### Vendor-defined messages (R615) -/

/-- Answer with a status and the failure body of R183. -/
def mctpFail (s : State) (p : Nat) (st : Status) (field sub value : Nat) : State :=
  s.emit (.mctp p st.code (failBody field sub value))

/-- Answer OK. -/
def mctpOk (s : State) (p : Nat) (body : List Byte) : State := s.emit (.mctp p 0 body)

/-- The roles that a vendor-defined command serves. -/
inductive MctpRole where
  | fabric | dormant | all
  deriving DecidableEq, Repr

/-- Whether a die of role `r` serves the command: SHOOT 0, ROOT 1, DORMANT 2. -/
def MctpRole.serves (m : MctpRole) (r : Nat) : Bool :=
  match m with
  | .fabric => r != 2
  | .dormant => r == 2
  | .all => true

/-- Run a vendor-defined command while firmware runs, in the roles that it serves. -/
def vendor (s : State) (p : Nat) (m : MctpRole) (act : State → State) : State :=
  let s := mctpArrives s p
  if !s.fwRuns then s
  else if !m.serves s.role then mctpFail s p .wrongRole 0 0 0
  else act s

/-- GET_POWER. -/
def execGetPower (p : Fin 2) (s : State) : Outcome State Fault Refusal :=
  .next (vendor s p .fabric (fun s => mctpOk s p s.pwrStatusBody))

/-- GET_ENERGY. -/
def getEnergyOp (s : State) (p f back : Nat) : State :=
  vendor s p .fabric (fun s =>
    if 15 < f then mctpFail s p .badParam 8 0 f
    else match s.pwrEnergy f back with
    | some b => mctpOk s p b
    | none => mctpFail s p .badParam 12 0 back)

/-- GET_ENERGY. -/
def execGetEnergy (p : Fin 2) (f back : Nat) (s : State) : Outcome State Fault Refusal := .next (getEnergyOp s p f back)

/-- SET_TARIFF: the same staged set as PWR_TARIFF. -/
def setTariffOp (s : State) (p persist : Nat) (b : List Byte) : State :=
  vendor s p .fabric (fun s =>
    match tariffBadField b with
    | some o => mctpFail s p .tariffInvalid 8 0 o
    | none =>
      match tariffBadBand b with
      | some k => mctpFail s p .configMismatch 8 0 k
      | none =>
        let s := stageTariff s b 1
        let s := if bitOf persist 0 then writePersist s b else s
        mctpOk s p (leBytes 8 s.nextInterval))

/-- SET_TARIFF. -/
def execSetTariff (p : Fin 2) (persist : Nat) (data : List Byte) (s : State) : Outcome State Fault Refusal :=
  .next (setTariffOp s p persist data)

/-- SET_CAP: the board controller's cap; the response reports the cap applied, as PWR_LIMITS does. -/
def setCapOp (s : State) (p watts : Nat) : State :=
  vendor s p .fabric (fun s =>
    let w := s.capFor watts
    mctpOk (updateLimits (s.wr Reg.PWR_BMC_CAP_CAP_W [] w)) p (leBytes 4 w))

/-- SET_CAP. -/
def execSetCap (p : Fin 2) (watts : Nat) (s : State) : Outcome State Fault Refusal := .next (setCapOp s p (watts % 65536))

/-- SET_TIME. -/
def execSetTime (p : Fin 2) (sec : Nat) (s : State) : Outcome State Fault Refusal :=
  .next (vendor s p .all (fun s => mctpOk (rtcSetOp s (sec % 2 ^ 32)) p []))

/-- READ_LOG: LOG, FIRST and COUNT 1-15; the response carries the counts of LOG_READ and the records. -/
def readLogOp (s : State) (p log first count : Nat) (ecc : FlashEcc) : State :=
  vendor s p .all (fun s =>
    if 1 < log then mctpFail s p .badParam 8 0 log
    else if count = 0 ∨ 15 < count then mctpFail s p .badParam 16 0 count
    else
      let bad := eccHits ecc 0x200000 0x200000
      let s := flashEccCount (countTorn s) { ecc with bad := if bad.isSome then ecc.bad else none }
      match bad with
      | some a => mctpFail (memRecord s (a / 64) 2 0 8 0 a Status.mediaError.code) p .mediaError 0xFFFF 0 a
      | none =>
        let recs := s.logFrom log first count
        mctpOk s p (leBytes 4 recs.length ++ leBytes 4 (s.logOldest log) ++ recs.flatten))

/-- READ_LOG. -/
def execReadLog (p : Fin 2) (log first count : Nat) (ecc : FlashEcc) (s : State) : Outcome State Fault Refusal :=
  .next (readLogOp s p log first count ecc)

/-- MODEL_WRITE: 256 or 512 bytes, checked as FLASH_PROGRAM (R586); the response follows the last segment. -/
def modelWriteOp (s : State) (p a : Nat) (data : List Byte) : State :=
  vendor s p .all (fun s =>
    let n := data.length
    if a % 256 ≠ 0 ∨ flashBytes ≤ a then mctpFail s p .badParam 8 0 a
    else if n % 256 ≠ 0 ∨ n < 256 ∨ 512 < n ∨ flashBytes < a + n then mctpFail s p .badParam 24 0 n
    else if !modelSectors (a / 4096) (cdiv (a % 4096 + n) 4096) then mctpFail s p .flashProtected 8 0 a
    else if s.ownsOp (.mctp p) then mctpFail s p .busy 0xFFFF 0 0
    else queueProgram (.mctp p) 4096 s a data)

/-- MODEL_WRITE. -/
def execModelWrite (p : Fin 2) (a : Nat) (data : List Byte) (s : State) : Outcome State Fault Refusal :=
  .next (modelWriteOp s p a data)

/-- MODEL_ERASE, checked as FLASH_ERASE (R586). -/
def modelEraseOp (s : State) (p a n : Nat) : State :=
  vendor s p .all (fun s =>
    if 2047 < a then mctpFail s p .badParam 8 0 a
    else if n = 0 ∨ 2048 < a + n then mctpFail s p .badParam 12 0 n
    else if a / 1024 ≠ (a + n - 1) / 1024 then mctpFail s p .configMismatch 8 0 a
    else if !modelSectors a n then mctpFail s p .flashProtected 8 0 (4096 * a)
    else if s.ownsOp (.mctp p) then mctpFail s p .busy 0xFFFF 0 0
    else queueFlash s a (.erase (.mctp p) a n))

/-- MODEL_ERASE. -/
def execModelErase (p : Fin 2) (first count : Nat) (s : State) : Outcome State Fault Refusal :=
  .next (modelEraseOp s p first count)

/-- READ_RESULT: a result area of a DORMANT die; SMB_ALERT_N is released (R544). -/
def readResultOp (s : State) (p area : Nat) : State :=
  vendor s p .dormant (fun s =>
    if 15 < area then mctpFail s p .badParam 8 0 area
    else
      let (q, data) := FMap.get s.cloche.areas (0, []) area
      mctpOk { s with cloche := { s.cloche with alert := false } } p (leBytes 1 q ++ data))

/-- READ_RESULT. -/
def execReadResult (p : Fin 2) (area : Nat) (s : State) : Outcome State Fault Refusal := .next (readResultOp s p area)

/-- MCTP FW_WRITE: 512 bytes of the inactive block; the piece at a sector's start erases the sector first (R219). -/
def mctpFwWriteOp (s : State) (p o : Nat) (data : List Byte) : State :=
  vendor s p .dormant (fun s =>
    if o % 512 ≠ 0 ∨ 0x40000 ≤ o then mctpFail s p .badParam 8 0 o
    else if data.length ≠ 512 then mctpFail s p .badParam 24 0 data.length
    else if s.fwBusy then mctpFail s p .busy 0xFFFF 0 0
    else
      let a := blockAddr s.inactive + o
      let s := if o % 4096 = 0 then queueFlash s (a / 4096) (.erase (.mctp p) (a / 4096) 1) else s
      queueFlash s (a / 4096) (.program (.mctp p) a (segments 8 data)))

/-- MCTP FW_WRITE. -/
def execMctpFwWrite (p : Fin 2) (o : Nat) (data : List Byte) (s : State) : Outcome State Fault Refusal :=
  .next (mctpFwWriteOp s p o data)

/-- MCTP FW_ACTIVATE. -/
def mctpFwActivateOp (s : State) (p : Nat) (img : ImageCheck) : State :=
  vendor s p .dormant (fun s =>
    match s.activateBad img with
    | some e => mctpFail s p e.1 0xFFFF e.2 0
    | none => mctpOk (trialRecord s img) p [])

/-- MCTP FW_ACTIVATE. -/
def execMctpFwActivate (p : Fin 2) (img : ImageCheck) (s : State) : Outcome State Fault Refusal :=
  .next (mctpFwActivateOp s p img)

/-- RESTART: an island restart after the response. -/
def execRestart (p : Fin 2) (s : State) : Outcome State Fault Refusal :=
  .next (vendor s p .dormant (fun s => islandRestart (mctpOk s p [])))

end Sys2Proof.Machine
end

