-- ==== Sys2Proof/Machine/StagedSets.lean ====
section
/-! DEFINITION. Commits of staged sets by register (R123-R132): the agreement check of each set, the capture, the natural
boundary at which a captured set takes effect, and writes to direct pairs (R133, R134). -/

namespace Sys2Proof.Machine

open Host (Outcome)

/-! ### Agreement -/

/-- The staging words of a field as bytes. -/
def State.stagedBytes (s : State) (f : Field) (idx : List Nat) (n : Nat) : List Byte :=
  (List.range n).flatMap (fun i => leBytes 4 (s.rd f (idx ++ [i])))

/-- COUNT and TIME of a function's vectors (R563). -/
def State.coalAgrees (s : State) (f : Nat) : Bool :=
  (List.range 128).all (fun v =>
    let n := s.rd Reg.HDG_COAL_COUNT [f, v]
    let t := s.rd Reg.HDG_COAL_TIME_US [f, v]
    if coalesced v then n != 0 && t != 0 else n == 0 && t == 0)

/-- The fields of a directory slot (R447): within the ranges of R400-R405 and R411 when VALID, its entries within the map. -/
def dirAgrees (d : Dir) : Bool :=
  let comp := d.kind == 2
  decide (d.mapBase + d.entries ≤ mapSize) &&
  (!d.valid ||
    (decide (d.kind ≤ 2) && decide (1 ≤ d.space ∧ d.space ≤ 2 ^ 48)
      && (d.kind == 1 || d.seed == 0)
      && (if comp then
            d.fmt == 0 && d.rows == 0 && d.entries == 0 && !d.interleave && d.mask == 0 && d.pitch == 0
          else
            rowFmtOk d.fmt && decide (1 ≤ d.rows ∧ d.rows ≤ 2 ^ 40) && (d.kind == 1 || d.space == d.rows)
              && decide (1 ≤ d.entries ∧ d.entries ≤ 256) && !d.concat && d.modulus == 1 && d.compP == 0 && d.compQ == 0
              && d.elems != 0 && decide (8 + rowD8 d.fmt d.elems ≤ d.pitch ∧ d.pitch ≤ 4096))))

/-- A geometry slot with VALID: N_S 1-6 and room for a row. -/
def geoAgrees (w : Nat) : Bool :=
  !bitOf w 0 || (decide (1 ≤ bitsOf w 1 3 ∧ bitsOf w 1 3 ≤ 6)
    && decide (8 + bitsOf w 9 13 * fmtBits (bitsOf w 4 5) / 8 ≤ 64 * bitsOf w 22 7))

/-- The pools of a port (R477). -/
def State.vcMapAgrees (s : State) (n : Nat) : Bool :=
  let lo (i : Nat) : Nat := s.rd Reg.CSK_VCMAP_LOW [n, i]
  let hi (i : Nat) : Nat := s.rd Reg.CSK_VCMAP_HIGH [n, i]
  let data := [lo 0, hi 0, lo 1, hi 1, lo 2, hi 2]
  decide (data.sum + lo 3 ≤ 4096) && data.all (fun x => decide (17 ≤ x)) && decide (2 ≤ lo 3)
    && s.portState n != psActive && s.portState n != psRetraining

/-- The routing-table buffer that the staging copy of a port spells (R486). -/
def State.stagedRoute (s : State) (n : Nat) : List Byte :=
  s.stagedBytes Reg.CSK_RTHDR_WORD [n] 4 ++ fill 48 0 ++ s.stagedBytes Reg.CSK_RT_WORD [n] 256

/-- The entry that GRF_ESEL of a unit selects. -/
def State.selected (s : State) (n : Nat) : Nat := 256 * n + s.rd Reg.GRF_ESEL_SLOT [n]

/-- A staged entry image (R520): within R500 and R502, naming the scales and codebooks that the entry holds, in the blocks
that those scales cover (R505). -/
def State.grfAgrees (s : State) (n : Nat) : Bool :=
  match s.gent (s.selected n) with
  | none => false
  | some e =>
    let b := s.stagedBytes Reg.GRF_ENT_WORD [n] 16
    let r := geRung b 0
    let o := geRung e.img 0
    entryOk b && fieldAt b 44 4 == (Config.scaleWord (s.selected n)).val && fieldAt b 48 4 == e.scales.length
      && (r.mode != 1 || (o.mode == 1 && o.blk == r.blk && gePeriod b == gePeriod e.img && geKind b == geKind e.img
        && (geKind b == 0 || rowElems b == rowElems e.img) && e.scales.all (fun x => zeroOk r.fmt x.2)))
      && (List.range (geRungs b)).all (fun i =>
        let x := geRung b i
        !isCb x.fmt || (decide (256 * x.table + (if x.fmt = 0xF then 16 else 256) ≤ e.books.length)
          && bookOk ((e.books.drop (256 * x.table)).take (if x.fmt = 0xF then 16 else 256))))

/-- The agreement check of each set. -/
def State.agrees (s : State) : StagedSet → Bool
  | .rkeDt p c => (s.dtFails p (s.dtStaged p c)).isNone
  | .vec p c => s.vecAgrees p (s.rscWord p c false) (s.actWord p c false)
  | .prioSplit => decide ((s.srcsWith Reg.HDG_SRC_ACTIVE).length < 2)
  | .coal f => s.coalAgrees f
  | .sivDir t => dirAgrees (dirOf (s.stagedBytes Reg.SIV_DIR_WORD [t] 16))
  | .furGeo u t => geoAgrees (s.rd Reg.FUR_GEO_WORD [u, t, 1])
  | .rwcParam => true
  | .vcMap p => s.vcMapAgrees p
  | .route p => (routeCheck (s.stagedRoute p)).isNone
  | .grfEnt u => s.grfAgrees u
  | .tariff => s.tariffAgrees

/-! ### Boundaries -/

/-- Whether no run, block or send of a unit's entries is in progress. -/
def State.graftIdle (s : State) (n : Nat) : Bool :=
  (FMap.get s.graft.egress [] n).isEmpty && s.graft.colls.all (fun e => e.2.isEmpty)

/-- The natural boundary of a set (R130), if its block stands at one: the captured set takes effect. A tariff waits for the
demand interval while accounting is on. -/
def boundary (s : State) (x : StagedSet) : State :=
  if !s.on (cPending x) [] then s
  else match x with
  | .rkeDt p c => if (s.ctx p c).walk.isNone then takeSets s p c else s
  | .vec p c => if (s.ctx p c).walk.isNone then takeSets s p c else s
  | .prioSplit => hedgeDecide (effectSet s x)
  | .coal _ => effectSet s x
  | .sivDir _ => if s.sieves.isEmpty then effectSet s x else s
  | .furGeo u _ =>
    let f := FMap.get s.furrow {} u.val
    if f.parts.isEmpty && f.upds.isEmpty then effectSet s x else s
  | .rwcParam => if s.sieves.isEmpty && !s.on Reg.RWC_CTL_TRAIN [] then effectSet s x else s
  | .vcMap p => if (s.port p).txCells.isEmpty then effectSet s x else s
  | .route p =>
    if (s.port p).txCells.isEmpty then
      portEvaluate ({ effectSet s x with link := { s.link with routed := true } }) p
    else s
  | .grfEnt u =>
    if s.graftIdle u then
      ((s.gentsOf u).filter (fun e => e.2.cap.isSome)).foldl (fun s (e : Nat × GEntry) => takeCap s e.1) s
    else s
  | .tariff => if s.on Reg.PWR_CTL_ACCT_EN [] then s else openWithBand s (s.rd Reg.CLO_RTC_SEC_SEC [])

/-- STAGED_SET_EFFECT. -/
def execStagedSetEffect (x : StagedSet) (s : State) : Outcome State Fault Refusal :=
  nextQ (if s.setReach x then boundary s x else s)

/-! ### COMMIT -/

/-- What a capture notes beside the set itself: the step classes (R338), the entry image, where a schedule came from. -/
def noteCapture (s : State) (x : StagedSet) : State :=
  match x with
  | .rkeDt p c => noteClass s p c (s.dtStaged p c)
  | .grfEnt u =>
    let k := s.selected u
    match s.gent k with
    | some e =>
      let b := (s.stagedBytes Reg.GRF_ENT_WORD [u.val] 16).take 44 ++ fill 20 0
      let zp := e.zp && (intRange (geRung b 0).fmt).isSome
      let s := (s.gentsOf u).foldl (fun s (y : Nat × GEntry) => s.setGent y.1 { y.2 with cap := none }) s
      s.setGent k { e with cap := some (b, e.scales, zp) }
    | none => s
  | .tariff => { s with gov := { s.gov with pendingSource := 0, pendingCrc := crc32 s.stagedSchedule } }
  | _ => s

/-- A write of 1 to COMMIT: a set that agrees is captured, and an idle block treats the capture as its boundary (R131); one
that disagrees is refused. -/
def commitSet (s : State) (src : Src) (x : StagedSet) : State :=
  if s.agrees x then boundary (captureSet (noteCapture s x) x) x
  else
    let s := match x with
      | .rkeDt p c => dtError s p c ((s.dtFails p (s.dtStaged p c)).getD 0)
      | _ => s
    refuseSet s x (Src.agentCode src)

/-- COMMIT. -/
def commitOp (s : State) (src : Src) (x : StagedSet) : State :=
  fwWrite s src (commitAddr x) (fun s => if s.setReach x then commitSet s src x else s)

/-- COMMIT. -/
def execCommit (src : Src) (x : StagedSet) (s : State) : Outcome State Fault Refusal := nextQ (commitOp s src x)

/-! ### Direct pairs -/

/-- Whether the domain of a pair's registers is powered. -/
def State.pairReach (s : State) : DirectPair → Bool
  | .pin => s.coreUp
  | _ => true

/-- Write one field of a pair; the limits in force follow the VID pair (R598). -/
def directPair (s : State) (src : Src) (p : DirectPair) (second : Bool) (v : Nat) : State :=
  let s := pairWrite s (Src.agentCode src) p second v
  match p with
  | .vid => updateLimits s
  | _ => s

/-- DIRECT_PAIR_WRITE. -/
def directPairOp (s : State) (src : Src) (p : DirectPair) (second : Bool) (v : Nat) : State :=
  let (a, b) := pairFields p
  let e := if second then b else a
  fwWrite s src (e.1.addr e.2) (fun s => if s.pairReach p then directPair s src p second v else s)

/-- DIRECT_PAIR_WRITE. -/
def execDirectPairWrite (src : Src) (p : DirectPair) (second : Bool) (v : Nat) (s : State) : Outcome State Fault Refusal :=
  .next (directPairOp s src p second v)

end Sys2Proof.Machine
end

