-- ==== Sys2Proof/Machine/Bus.lean ====
section
/-! DEFINITION. Register accesses as a whole (R9-R11, R147-R151, R641-R646): which addresses are reserved or unpowered, what a
read returns, how a write acts on each field and what else it starts, and how host accesses are judged; DIAG_REG_READ and the
SMBus register read. -/

namespace Sys2Proof.Machine

open Host (Outcome)

/-! ### Places -/

/-- The plot or Furrow unit whose window holds an address is powered (R642). -/
def State.instanceUp (s : State) (a : Nat) : Bool :=
  if 0x400000 ≤ a ∧ a < 0x600000 then s.plotEn ((a - 0x400000) / 0x20000)
  else if 0x700000 ≤ a ∧ a < 0x760000 then s.stackOk ((a - 0x700000) / 0x10000)
  else true

/-- The domain of the register at an address is powered (R642). -/
def State.domainUp (s : State) (d : Dom) (a : Nat) : Bool :=
  match d with
  | .I => s.boot.porstN
  | .S => s.boot.porstN && s.on Reg.TOP_PINSTAT_MAIN_PG []
  | .C => s.boot.porstN && s.coreUp && s.instanceUp a

/-- The register at an address, when it is neither reserved nor unpowered; the HDG_SRC of a reserved source is reserved
(R550). -/
def State.placeAt (s : State) (a : Nat) : Option Place :=
  match placeOf a with
  | none => none
  | some p =>
    if !s.domainUp p.row.dom a then none
    else if p.row.base = 0x210000 ∧ srcKind (p.idx.headD 0) = .reserved then none
    else some p

/-- The offset within its function page of an address in the page's data areas (R153). -/
def pageArea (a : Nat) : Option (Nat × Nat) :=
  if a < 0x100000 ∨ 0x200000 ≤ a then none
  else
    let o := a % 0x10000
    if (0x200 ≤ o ∧ o < 0x410) ∨ (0x800 ≤ o ∧ o < 0x8000) then some (a / 0x10000 % 16, o) else none

/-! ### Reads -/

/-- A 32-bit word of a wider number. -/
def wordOf (v i : Nat) : Nat := v / 2 ^ (32 * i) % 2 ^ 32

/-- Word `o / 4` of a function page's data areas. -/
def State.pageWord (s : State) (f o : Nat) : Nat :=
  if o < 0x400 then wordOf (FMap.get s.mbx.vlog 0 (f * 32 + (o - 0x200) / 16)) (o / 4 % 4)
  else if o < 0x410 then
    (List.range 32).foldl (fun n b =>
      if s.mbx.msixPend.contains (f * 128 + 8 * (o - 0x400) + b) then n + 2 ^ b else n) 0
  else if o < 0x1000 then
    let e := s.msixEntry f ((o - 0x800) / 16)
    match o / 4 % 4 with
    | 0 => wordOf e.addr 0
    | 1 => wordOf e.addr 1
    | 2 => e.data
    | _ => b2n e.masked
  else if o < 0x2000 then wordOf (FMap.get s.mbx.evq 0 (f * 256 + (o - 0x1000) / 16)) (o / 4 % 4)
  else if o < 0x4000 then leNat ((List.range 4).map (fun k => s.ringByte f (o - 0x2000 + k)))
  else fieldAt (s.slotBytes f ((o - 0x4000) / 128)) (o % 128) 4

/-- Whether a field reads as its value (R9). -/
def Acc.reads : Acc → Bool
  | .WO => false
  | .WP => false
  | _ => true

/-- One bit per source: which of 32 sources from `32 * w` have the bit `f` of their HDG_SRC set. -/
def State.srcBits (s : State) (f : Field) (w : Nat) : Nat :=
  (s.srcsWith f).foldl (fun n i => if i / 32 = w then n + 2 ^ (i % 32) else n) 0

/-- VALID of a sensor: the fabric sensors read 0 while VCORE is down (TOP_TSENS). -/
def State.sensorValid (s : State) (n : Nat) : Bool :=
  s.on Reg.TOP_TSENS_VALID [n] && (n == 32 || s.on Reg.TOP_PINSTAT_VCORE_PG [])

/-- The whole register as a read returns it: fields under their access codes, and the registers that copy other state. -/
def State.regValue (s : State) (p : Place) : Nat :=
  let b := p.row.base
  let i := p.idx.headD 0
  if b = 0x100080 then s.now
  else if b = 0x200010 then 0
  else if b = 0x200100 then s.srcBits Reg.HDG_SRC_PENDING i
  else if b = 0x200200 then s.srcBits Reg.HDG_SRC_ACTIVE i
  else if b = 0xB80034 then
    let k := s.rd Reg.FLC_WEAR_SEL_SECTOR []
    s.wear k % 2 ^ 17 + 2 ^ 17 * b2n (s.worn k)
  else if b = 0x700000 then
    let u := FMap.get s.furrow {} i
    b2n (s.stackOk i && !(u.parts.isEmpty && u.upds.isEmpty)) + 2 * b2n (!s.stackOk i)
  else
    let v := (p.row.fields.map (fun f =>
      if f.acc.reads then (if p.mirror then s.rdA f p.idx else s.rd f p.idx) * 2 ^ f.lo else 0)).sum
    if b = 0x100040 then v % 32 + 32 * s.rd Reg.TOP_MODE_MODE []
    else if b = 0x100 then v % 2 ^ 31 + 2 ^ 31 * b2n (s.sensorValid i) else v

/-- A 32-bit read without a read side effect on claims (R646): reserved and unpowered addresses read zero. A read through the
debug window of a plot passes the coalescer. -/
def busRead (s : State) (a : Nat) : Nat × State :=
  match s.placeAt a with
  | some p =>
    if p.row.base = 0x403100 then debugReadOp s (p.idx.headD 0) (p.idx.getD 1 0)
    else (wordOf (s.regValue p) (p.off / 4), s)
  | none =>
    match pageArea a with
    | some (f, o) => (if s.domainUp .S a then s.pageWord f o else 0, s)
    | none => (0, s)

/-- `n` words from an address on. -/
def busReadWords (s : State) (a : Nat) : Nat → List Byte × State
  | 0 => ([], s)
  | n + 1 =>
    let r := busRead s a
    let t := busReadWords r.2 (a + 4) n
    (leBytes 4 r.1 ++ t.1, t.2)

/-- DIAG_REG_READ. -/
def diagRegReadOp (s : State) (f i : Nat) : State :=
  acs s f i 0x902 (fun s c =>
    if c.fld 8 4 % 4 ≠ 0 then fail s c .badParam 8 0 (c.fld 8 4)
    else if c.fld 12 1 = 0 ∨ 30 < c.fld 12 1 then fail s c .badParam 12 0 (c.fld 12 1)
    else
      let r := busReadWords s (c.fld 8 4) (c.fld 12 1)
      done r.2 c r.1)

/-- DIAG_REG_READ. -/
def execDiagRegRead (f : Fin 16) (i : Fin 128) (s : State) : Outcome State Fault Refusal := nextQ (diagRegReadOp s f i)

/-- A word as the SMBus target reads it (R613): what the host may read in Run mode, otherwise zero. -/
def State.smbusWord (s : State) (a : Nat) : Nat :=
  match placeOf a with
  | some p => if p.row.vis = .F then 0 else (busRead s a).1
  | none => (busRead s a).1

/-- SMBUS_REGISTER_READ: a count outside 1-8 is not acknowledged. -/
def smbusReadOp (s : State) (port off count : Nat) : State :=
  if !s.boot.porstN then s
  else if count = 0 ∨ 8 < count then s.emit (.nack port)
  else s.emit (.smbus port ((List.range count).flatMap (fun k => leBytes 4 (s.smbusWord (off / 4 * 4 + 4 * k)))))

/-- SMBUS_REGISTER_READ. -/
def execSmbusRegisterRead (p : Fin 2) (off count : Nat) (s : State) : Outcome State Fault Refusal :=
  .next (smbusReadOp s p off count)

/-! ### Writes: fields -/

/-- The value that a field takes from a write of `w` to the bits of `m` (R9). -/
def Field.written (f : Field) (old m w : Nat) : Nat :=
  let new := bitsOf w f.lo f.wid
  let mk := bitsOf m f.lo f.wid
  match f.acc with
  | .RW => (old - (old &&& mk)) + (new &&& mk)
  | .W1C => old - (old &&& (new &&& mk))
  | .W1S => old ||| (new &&& mk)
  | _ => old

/-- A write acts on each field of a register under its access code; reserved bits are ignored (R9, R10). -/
def plainWrite (s : State) (p : Place) (m w : Nat) : State :=
  p.row.fields.foldl (fun s f => s.wr f p.idx (f.written (s.rd f p.idx) m w)) s

/-- The value of one RW field after the write. -/
def State.merged (s : State) (f : Field) (idx : List Nat) (m w : Nat) : Nat := f.written (s.rd f idx) m w

/-- A level source follows a status field (R550). -/
def levelOf (s : State) (src : Nat) (f : Field) (idx : List Nat) : State := hedgeLevel s src (s.on f idx) 0

/-- A field that stores a smaller value as its least. -/
def atLeast (s : State) (f : Field) (idx : List Nat) (n : Nat) : State :=
  if s.rd f idx < n then s.wr f idx n else s

/-! ### Writes: commit registers -/

/-- The staged set whose commit register stands at a base address. -/
def setAtCommit (b : Nat) (idx : List Nat) : Option StagedSet :=
  let i := idx.headD 0
  let j := idx.getD 1 0
  if b = 0x404400 then some (.rkeDt (Fin.ofNat 16 i) (Fin.ofNat 4 j))
  else if b = 0x410008 then some (.vec (Fin.ofNat 16 i) (Fin.ofNat 4 j))
  else if b = 0x200008 then some .prioSplit
  else if b = 0x206000 then some (.coal (Fin.ofNat 16 i))
  else if b = 0x606000 then some (.sivDir (Fin.ofNat 256 i))
  else if b = 0x702000 then some (.furGeo (Fin.ofNat 6 i) (Fin.ofNat 256 j))
  else if b = 0x680014 then some .rwcParam
  else if b = 0x800110 then some (.vcMap (Fin.ofNat 8 i))
  else if b = 0x801500 then some (.route (Fin.ofNat 8 i))
  else if b = 0x900300 then some (.grfEnt (Fin.ofNat 8 i))
  else if b = 0xA01400 then some .tariff
  else none

/-- A write of a commit register: COMMIT wins over DISCARD (R128). -/
def commitWrite (s : State) (src : Src) (x : StagedSet) (w : Nat) : State :=
  if bitOf w Reg.HDG_PRIOSPLIT_COMMIT_COMMIT.lo then commitSet s src x
  else if bitOf w Reg.HDG_PRIOSPLIT_COMMIT_DISCARD.lo then discardSet s x
  else s

/-! ### Writes: each block -/

/-- TOP. -/
def topWrite (s : State) (p : Place) (m w : Nat) : State :=
  let b := p.row.base
  let i := p.idx.headD 0
  if b = 0x200 then
    let old := s.rd Reg.TOP_PACE_CTL_AUTO_MS []
    let s := plainWrite s p m w
    let s := if s.rd Reg.TOP_PACE_CTL_AUTO_MS [] = old then s
      else { s with cloche := { s.cloche with paceAt := s.now } }
    if bitOf w 0 then paceSnapOp s else s
  else if b = 0x44 then levelOf (plainWrite s p m w) 5 Reg.TOP_PINSTAT_BROWNOUT []
  else if b = 0x220 then levelOf (plainWrite s p m w) 1 Reg.TOP_CFGERR_VALID []
  else if b = 0x808 then levelOf (plainWrite s p m w) 2 Reg.TOP_SIG_ERR_VALID []
  else if b = 0x900 then
    if s.armed i then (if bitOf w 16 then s else qdDisarmOp s i)
    else if bitOf w 16 then qdArmOp s i w else plainWrite s p m w
  else if b = 0xC00 then (if s.armed i then s else plainWrite s p m w)
  else if b = 0x980 then atLeast (plainWrite s p m w) Reg.TOP_QD_WIN_WIN_US [i] 1
  else if b = 0x1000 then atLeast (plainWrite s p m w) Reg.TOP_DRAIN_DRAIN_US [] 1000
  else plainWrite s p m w

/-- A function page's registers. -/
def mbxWrite (s : State) (p : Place) (m w : Nat) : State :=
  let b := p.row.base
  let f := p.idx.headD 0
  if b = 0x100000 then (if bitOf w 0 then ringEnableOp s f else ringDisableOp s f)
  else if b = 0x100004 then doorbellOp s f (w % 65536)
  else if b = 0x10000C then retireOp s f (bitsOf w 0 7) (bitsOf w 16 16)
  else if b = 0x100014 then (if bitOf w 31 then violCntClearOp s f else s)
  else if b = 0x100020 then (if bitOf w 0 then evqEnableOp s f else evqDisableOp s f)
  else if b = 0x100028 then evqCiOp s f (w % 65536)
  else if b = 0x10002C then (if bitOf w 31 then evqLostClearOp s f else s)
  else plainWrite s p m w

/-- Hedge. -/
def hdgWrite (s : State) (p : Place) (m w : Nat) : State :=
  let b := p.row.base
  if b = 0x210000 then hedgeSrcWriteOp s (p.idx.headD 0) w
  else if b = 0x200014 then benchCompleteOp s (w % 1024)
  else plainWrite s p m w

/-- The plots. -/
def plotWrite (s : State) (p : Place) (m w : Nat) : State :=
  let b := p.row.base
  let n := p.idx.headD 0
  let j := p.idx.getD 1 0
  if b = 0x400204 then
    let s := plainWrite s p m w
    hedgeLevel s (64 + 8 * n + 4) (s.on Reg.PLT_ARR_ERR_WPLANE_PAR [n] || s.on Reg.PLT_ARR_ERR_ACC_PAR [n]
      || s.on Reg.PLT_ARR_ERR_MODE_FAULT [n]) 0
  else if b = 0x400344 then numClearOp s n (w % 16)
  else if b = 0x400348 then seedWriteOp s n false (s.merged Reg.PLT_SR_SEED_SEED [n] m w)
  else if b = 0x400350 then seedWriteOp s n true (s.merged Reg.PLT_SR_DIE_DIE [n] m w)
  else if b = 0x402000 then
    let s := plainWrite s p m w
    if bitOf w 0 then clearStart s n else s
  else if b = 0x402010 then levelOf (plainWrite s p m w) (64 + 8 * n + 2) Reg.STO_ERR_VALID [n]
  else if b = 0x403100 then debugWriteOp s n j w
  else if b = 0x404840 then levelOf (plainWrite s p m w) (64 + 8 * n) Reg.RKE_ERR_VALID [n]
  else if b = 0x404A00 then
    let s := if !s.on Reg.RKE_CRD_EN [n, j] && bitOf w 0 then
        let s := (s.wr Reg.RKE_CRD_BOUND [n, j] 0).wr Reg.RKE_CRD_CREDITS [n, j] 0
        (s.wr Reg.RKE_CRD_EPOCH [n, j] 0).wr Reg.RKE_CRDSEQ_NEXT_SEQ [n, j] 0
      else s
    plainWrite s p m w
  else if b = 0x410100 then levelOf (plainWrite s p m w) (64 + 8 * n + 5) Reg.VEC_STAT_BP_FAULT [n]
  else plainWrite s p m w

/-- The bits of word `i` of a Sieve directory slot that are not reserved. -/
def dirMask (i : Nat) : Nat :=
  if i = 1 then 0xFF7FFFFF else if i = 10 then 0x003FFFFF else if i = 11 then 0x00FFFFFF
  else if i < 11 then 0xFFFFFFFF else 0

/-- The bits of word `i` of a Furrow geometry slot that are not reserved. -/
def geoMask (i : Nat) : Nat := if i = 0 then 0xFFFFFFFF else if i = 1 then 0x1FFFFFFF else 0

/-- Sieves, Row Cache and Furrow units. -/
def tableWrite (s : State) (src : Src) (p : Place) (m w : Nat) : State :=
  let b := p.row.base
  let n := p.idx.headD 0
  if b = 0x602000 then plainWrite s p m (w &&& dirMask (p.idx.getD 1 0))
  else if b = 0x701000 then plainWrite s p m (w &&& geoMask (p.idx.getD 2 0))
  else if b = 0x680000 then
    let s := plainWrite s p m w
    let s := if bitOf w 1 then epochAdvance s else s
    if bitOf w 2 then rwcDropAll s else s
  else if b = 0x680008 then rwcInvStart s (w % 2 ^ 32)
  else if b = 0x680028 then directPair s src .pin false (s.merged Reg.RWC_PIN_BASE_ROW [] m w)
  else if b = 0x680030 then directPair s src .pin true (s.merged Reg.RWC_PIN_LIMIT_ROW [] m w)
  else if b = 0x700010 then levelOf (plainWrite s p m w) (200 + 4 * n) Reg.FUR_ERR_VALID [n]
  else if b = 0x700218 then levelOf (plainWrite s p m w) (201 + 4 * n) Reg.FUR_UPD_ERR_VALID [n]
  else plainWrite s p m w

/-- Ciskaca ports and Graft units. -/
def linkWrite (s : State) (p : Place) (m w : Nat) : State :=
  let b := p.row.base
  let n := p.idx.headD 0
  if b = 0x800000 then
    let s := portEvaluate (plainWrite s p m w) n
    let s := if bitOf w 1 && s.portState n != psQuarantined then startRetrain s n else s
    if bitOf w 2 && s.isOpen && s.portState n == psQuarantined then startRetrain s n else s
  else if b = 0x800018 then atLeast (plainWrite s p m w) Reg.CSK_QWIN_WIN_US [n] 1
  else if b = 0x800020 then (if bitOf w 31 then s.wr Reg.CSK_VIOL_CNT_COUNT [n] 0 else s)
  else if b = 0x900040 then levelOf (plainWrite s p m w) (321 + 8 * n) Reg.GRF_NAK_VALID [n]
  else if b = 0x900100 then showGraft (plainWrite s p m w) n
  else plainWrite s p m w

/-- The governor. -/
def pwrWrite (s : State) (src : Src) (p : Place) (m w : Nat) : State :=
  let b := p.row.base
  if b = 0xA00000 then
    if bitOf w 0 then (if s.role = 2 then s else acctEnOp s) else s.wr Reg.PWR_CTL_ACCT_EN [] 0
  else if b = 0xA00008 then directPair s src .vid false (w % 256)
  else if b = 0xA0000C then directPair s src .vid true (w % 256)
  else if b = 0xA00010 ∨ b = 0xA00014 ∨ b = 0xA00018 then updateLimits (plainWrite s p m w)
  else plainWrite s p m w

/-- The island, its engine, the flash controller and the Bench core's debug registers. -/
def islandWrite (s : State) (src : Src) (p : Place) (m w : Nat) : State :=
  let b := p.row.base
  let n := p.idx.headD 0
  if b = 0xB00004 then
    let s := plainWrite s p m w
    if bitOf w 0 then listenEnterOp s else s
  else if b = 0xB00018 then (if bitOf w 0 then swapGo s else s)
  else if b = 0xB00020 then
    let was := s.on Reg.CLO_WDT_EN []
    let s := plainWrite s p m w
    if bitOf w 31 || (!was && bitOf w 16) then kickOp s else s
  else if b = 0xB00040 then rtcSetOp s (w % 2 ^ 32)
  else if b = 0xB00100 then
    let s := (s.wr Reg.CLO_TMR_CTL_PERIODIC [n] (bitsOf w 1 1)).wr Reg.CLO_TMR_CTL_PRESCALE [n] (bitsOf w 2 4)
    let s := if bitOf w 0 then timerEnableOp s n else s.wr Reg.CLO_TMR_CTL_EN [n] 0
    if bitOf w 6 then s.wr Reg.CLO_TMR_CTL_EXPIRIES [n] 0 else s
  else if b = 0xB00108 then directPair s src (.timer (Fin.ofNat 8 n)) false (w % 2 ^ 32)
  else if b = 0xB0010C then directPair s src (.timer (Fin.ofNat 8 n)) true (w % 2 ^ 32)
  else if b = 0xB00204 then gpiLatchClear s (w % 16)
  else if b = 0xB00300 then
    let s := plainWrite s p m w
    if bitOf w 0 then spiStartOp s else s
  else if b = 0xB04000 then (if bitOf w 0 then cmeStartOp s src else s)
  else if b = 0xB04008 then levelOf (plainWrite s p m w) 400 Reg.CME_STAT_DONE []
  else if b = 0xC00000 then
    let s := if bitOf w 0 then benchHaltOp s else s
    let s := if bitOf w 1 && s.isOpen then s.wr Reg.BNC_CTL_HALTED [] 0 else s
    if bitOf w 2 then benchStepOp s else s
  else if b = 0xB80000 then
    let s := if bitOf w 0 then flcEraseOp s src else s
    if bitOf w 1 then flcProgramOp s src else s
  else if b = 0xB80008 then directPair s src .flashErase false (w % 2048)
  else if b = 0xB8000C then directPair s src .flashErase true (w % 2048)
  else plainWrite s p m w

/-- A write of the bits `m` of the register at a place. -/
def regWrite (s : State) (src : Src) (p : Place) (m w : Nat) : State :=
  let b := p.row.base
  match setAtCommit b p.idx with
  | some x => commitWrite (plainWrite s p m w) src x w
  | none =>
    if b < 0x100000 then topWrite s p m w
    else if b < 0x200000 then mbxWrite s p m w
    else if b < 0x400000 then hdgWrite s p m w
    else if b < 0x600000 then plotWrite s p m w
    else if b < 0x800000 then tableWrite s src p m w
    else if b < 0xA00000 then linkWrite s p m w
    else if b < 0xB00000 then pwrWrite s src p m w
    else islandWrite s src p m w

/-! ### Writes: judging -/

/-- A word of an MSI-X entry: clearing the mask bit unmasks the vector (R176). -/
def msixWrite (s : State) (f o v : Nat) : State :=
  let k := (o - 0x800) / 16
  let e := s.msixEntry f k
  let put (x : MsixEntry) : State := { s with mbx := { s.mbx with msix := FMap.set s.mbx.msix {} (f * 128 + k) x } }
  match o / 4 % 4 with
  | 0 => put { e with addr := e.addr / 2 ^ 32 * 2 ^ 32 + v }
  | 1 => put { e with addr := e.addr % 2 ^ 32 + 2 ^ 32 * v }
  | 2 => put { e with data := v }
  | _ => if bitOf v 0 then put { e with masked := true } else if e.masked then msixUnmaskOp s f k else s

/-- The parts that a 4- or 8-byte access acts on: the whole of a 64-bit register, otherwise word by word, lower first. -/
def partsOf (a len v : Nat) : List (Nat × Nat × Nat) :=
  let whole := len == 4 || (match placeOf a with
    | some p => p.row.bytes == 8 && p.off == 0 && !p.mirror
    | none => false)
  if whole then [(a, len, v)] else [(a, 4, v % 2 ^ 32), (a + 4, 4, v / 2 ^ 32)]

/-- Checks 2 to 4 of R644 on one part of a write, and R645: the code of the check that fails, or 0 where the write is
discarded without one. -/
def State.partBad (s : State) (run : Bool) (a n : Nat) : Option Nat :=
  match pageArea a with
  | some (_, o) => if 0x800 ≤ o ∧ o < 0x1000 then none else some 0
  | none =>
    match s.placeAt a with
    | none => some (if run then vReservedAddr else 0)
    | some p =>
      if p.mirror then some (if run then vRegRefused else 0)
      else if run && p.row.vis != .H then some vRegRefused
      else if p.row.oneA && n == 4 then some vAccessWidth
      else none

/-- The effect of one part of a write that passes. -/
def partWrite (s : State) (src : Src) (x : Nat × Nat × Nat) : State :=
  let (a, n, v) := x
  match pageArea a with
  | some (f, o) => msixWrite s f o v
  | none =>
    match s.placeAt a with
    | some p => regWrite s src p ((2 ^ (8 * n) - 1) * 2 ^ (8 * p.off)) (v * 2 ^ (8 * p.off))
    | none => s

/-- The parts of a write that pass take effect in order. -/
def writeParts (s : State) (src : Src) (run : Bool) (parts : List (Nat × Nat × Nat)) : State :=
  (parts.filter (fun x => (s.partBad run x.1 x.2.1).isNone)).foldl (fun s x => partWrite s src x) s

/-- A host write of function `f`'s BAR0, with its offset as the PF's BAR0 addresses it: the checks of R644 in order, at most
one log entry. -/
def hostWriteAt (s : State) (f : Fin 16) (a len v : Nat) : State :=
  let ring := 0x2000 ≤ a % 0x10000 ∧ a % 0x10000 < 0x4000 ∧ a / 0x10000 = 16 + f.val
  if ring then ringWriteOp s f (a % 0x10000 - 0x2000) (leBytes len v)
  else if (len ≠ 4 ∧ len ≠ 8) ∨ a % len ≠ 0 then hostViolation s f vAccessWidth 0 a false
  else if f.val = 0 ∧ 0x110000 ≤ a ∧ a < 0x200000 then hostViolation s 0 vReservedAddr 0 a false
  else
    let parts := partsOf a len v
    let codes := (parts.filterMap (fun x => s.partBad s.isRun x.1 x.2.1)).filter (· != 0)
    let t := match codes with
      | [] => s
      | c :: _ => hostViolation s f c 0 a false
    (parts.filter (fun x => (s.partBad s.isRun x.1 x.2.1).isNone)).foldl (fun s x => partWrite s (.host f) x) t

/-- REGISTER_WRITE: a VF's BAR0 holds its own page alone (R147, R151), so a write beyond it reaches nothing. -/
def registerWriteOp (s : State) (src : Src) (a len v : Nat) : State :=
  match src with
  | .bench =>
    if (len = 4 ∨ len = 8) ∧ a % len = 0 ∧ s.boot.porstN then writeParts s .bench false (partsOf a len v) else s
  | .host f =>
    if !s.hostReach f then s
    else if f.val = 0 then (if a + len ≤ 2 ^ 26 then hostWriteAt s f a len v else s)
    else if a + len ≤ 0x10000 then hostWriteAt s f (pageOffset f a) len v else s

/-- REGISTER_WRITE. -/
def execRegisterWrite (src : Src) (a len v : Nat) (s : State) : Outcome State Fault Refusal :=
  nextQ (registerWriteOp s src a len v)

end Sys2Proof.Machine
end

