-- ==== Sys2Proof/Machine/Dispatch.lean ====
section
/-! DEFINITION. One arm per command: the one call of its meaning. -/

namespace Sys2Proof.Machine

def exec (i : Instr) (s : State) : Host.Outcome State Fault Refusal :=
  match i with
  | .registerWrite src addr len value => Sys2Proof.Machine.execRegisterWrite src addr len value s
  | .islandRailsUp => Sys2Proof.Machine.execIslandRailsUp s
  | .porstNRise straps => Sys2Proof.Machine.execPorstNRise straps s
  | .porstNFall => Sys2Proof.Machine.execPorstNFall s
  | .porstNHoldoffExpiry => Sys2Proof.Machine.execPorstNHoldoffExpiry s
  | .refclkCheckTimeout => Sys2Proof.Machine.execRefclkCheckTimeout s
  | .bootImageVerified a b => Sys2Proof.Machine.execBootImageVerified a b s
  | .mainPgRise => Sys2Proof.Machine.execMainPgRise s
  | .mainPgTimeout => Sys2Proof.Machine.execMainPgTimeout s
  | .vcorePgRise fuses => Sys2Proof.Machine.execVcorePgRise fuses s
  | .vcorePgTimeout => Sys2Proof.Machine.execVcorePgTimeout s
  | .plotBistComplete fail => Sys2Proof.Machine.execPlotBistComplete fail s
  | .hbmTrainingComplete best => Sys2Proof.Machine.execHbmTrainingComplete best s
  | .hbmClearComplete => Sys2Proof.Machine.execHbmClearComplete s
  | .runModeEntry => Sys2Proof.Machine.execRunModeEntry s
  | .perstNRelease => Sys2Proof.Machine.execPerstNRelease s
  | .pcieConfigReady => Sys2Proof.Machine.execPcieConfigReady s
  | .hostReset kind => Sys2Proof.Machine.execHostReset kind s
  | .flr f => Sys2Proof.Machine.execFlr f s
  | .pwrfailNFall => Sys2Proof.Machine.execPwrfailNFall s
  | .powerCut => Sys2Proof.Machine.execPowerCut s
  | .mainLoss rail => Sys2Proof.Machine.execMainLoss rail s
  | .thermalTrip sensor temp => Sys2Proof.Machine.execThermalTrip sensor temp s
  | .vcoreBrownout => Sys2Proof.Machine.execVcoreBrownout s
  | .vidStep => Sys2Proof.Machine.execVidStep s
  | .tsensUpdate sensor temp => Sys2Proof.Machine.execTsensUpdate sensor temp s
  | .replicaUpdate plot rate => Sys2Proof.Machine.execReplicaUpdate plot rate s
  | .paceSnap src => Sys2Proof.Machine.execPaceSnap src s
  | .paceAutoSnap => Sys2Proof.Machine.execPaceAutoSnap s
  | .paceSnapComplete => Sys2Proof.Machine.execPaceSnapComplete s
  | .commit src set => Sys2Proof.Machine.execCommit src set s
  | .discard src set => Sys2Proof.Machine.execDiscard src set s
  | .stagedSetEffect set => Sys2Proof.Machine.execStagedSetEffect set s
  | .directPairWrite src pair second value => Sys2Proof.Machine.execDirectPairWrite src pair second value s
  | .doorbell f pi => Sys2Proof.Machine.execDoorbell f pi s
  | .ringEntryWrite f offset data => Sys2Proof.Machine.execRingEntryWrite f offset data s
  | .retire f slot tag => Sys2Proof.Machine.execRetire f slot tag s
  | .ringEnable f => Sys2Proof.Machine.execRingEnable f s
  | .ringDisable f => Sys2Proof.Machine.execRingDisable f s
  | .evqEnable f => Sys2Proof.Machine.execEvqEnable f s
  | .evqDisable f => Sys2Proof.Machine.execEvqDisable f s
  | .evqCiWrite f ci => Sys2Proof.Machine.execEvqCiWrite f ci s
  | .violCntClear f => Sys2Proof.Machine.execViolCntClear f s
  | .evqLostClear f => Sys2Proof.Machine.execEvqLostClear f s
  | .commandFetch => Sys2Proof.Machine.execCommandFetch s
  | .resultPost f slot => Sys2Proof.Machine.execResultPost f slot s
  | .msixUnmask f v => Sys2Proof.Machine.execMsixUnmask f v s
  | .bar2Read f offset len => Sys2Proof.Machine.execBar2Read f offset len s
  | .bar2Write f offset data enables => Sys2Proof.Machine.execBar2Write f offset data enables s
  | .bar2Resize log2Size => Sys2Proof.Machine.execBar2Resize log2Size s
  | .devInfo f slot => Sys2Proof.Machine.execDevInfo f slot s
  | .devReset f slot => Sys2Proof.Machine.execDevReset f slot s
  | .fabricResetComplete => Sys2Proof.Machine.execFabricResetComplete s
  | .fabricResetTimeout => Sys2Proof.Machine.execFabricResetTimeout s
  | .modeOpen f slot => Sys2Proof.Machine.execModeOpen f slot s
  | .modeRun f slot => Sys2Proof.Machine.execModeRun f slot s
  | .tenantAssign f slot => Sys2Proof.Machine.execTenantAssign f slot s
  | .winSet f slot => Sys2Proof.Machine.execWinSet f slot s
  | .jobLoad f slot buf => Sys2Proof.Machine.execJobLoad f slot buf s
  | .jobStart f slot buf => Sys2Proof.Machine.execJobStart f slot buf s
  | .jobStartHoldExpiry f slot => Sys2Proof.Machine.execJobStartHoldExpiry f slot s
  | .jobSubmit f slot => Sys2Proof.Machine.execJobSubmit f slot s
  | .batchInputStage job data => Sys2Proof.Machine.execBatchInputStage job data s
  | .batchInputCopied job => Sys2Proof.Machine.execBatchInputCopied job s
  | .batchDoneSignal job => Sys2Proof.Machine.execBatchDoneSignal job s
  | .batchOutputCopied job accepted => Sys2Proof.Machine.execBatchOutputCopied job accepted s
  | .jobWait f slot => Sys2Proof.Machine.execJobWait f slot s
  | .jobAbort f slot => Sys2Proof.Machine.execJobAbort f slot s
  | .jobAbortDrained job => Sys2Proof.Machine.execJobAbortDrained job s
  | .jobUnload f slot => Sys2Proof.Machine.execJobUnload f slot s
  | .jobStatus f slot => Sys2Proof.Machine.execJobStatus f slot s
  | .tblDefine f slot buf => Sys2Proof.Machine.execTblDefine f slot buf s
  | .tblDelete f slot => Sys2Proof.Machine.execTblDelete f slot s
  | .tblSync f slot => Sys2Proof.Machine.execTblSync f slot s
  | .tblSwitch f slot => Sys2Proof.Machine.execTblSwitch f slot s
  | .tableSwitchBoundary tkey => Sys2Proof.Machine.execTableSwitchBoundary tkey s
  | .tblStats f slot => Sys2Proof.Machine.execTblStats f slot s
  | .calScales f slot buf => Sys2Proof.Machine.execCalScales f slot buf s
  | .calStats f slot => Sys2Proof.Machine.execCalStats f slot s
  | .pwrStatus f slot => Sys2Proof.Machine.execPwrStatus f slot s
  | .pwrTariff f slot buf => Sys2Proof.Machine.execPwrTariff f slot buf s
  | .pwrLimits f slot => Sys2Proof.Machine.execPwrLimits f slot s
  | .pwrEnergy f slot => Sys2Proof.Machine.execPwrEnergy f slot s
  | .fwInfo f slot img => Sys2Proof.Machine.execFwInfo f slot img s
  | .fwWrite f slot buf => Sys2Proof.Machine.execFwWrite f slot buf s
  | .fwVerify f slot img => Sys2Proof.Machine.execFwVerify f slot img s
  | .fwActivate f slot img => Sys2Proof.Machine.execFwActivate f slot img s
  | .fwSwap f slot img => Sys2Proof.Machine.execFwSwap f slot img s
  | .seamImageLoaded img => Sys2Proof.Machine.execSeamImageLoaded img s
  | .flashRead f slot ecc => Sys2Proof.Machine.execFlashRead f slot ecc s
  | .flashProgram f slot buf => Sys2Proof.Machine.execFlashProgram f slot buf s
  | .flashErase f slot => Sys2Proof.Machine.execFlashErase f slot s
  | .logRead f slot ecc => Sys2Proof.Machine.execLogRead f slot ecc s
  | .evtRoute f slot => Sys2Proof.Machine.execEvtRoute f slot s
  | .evtCoalesce f slot => Sys2Proof.Machine.execEvtCoalesce f slot s
  | .diagEcho f slot => Sys2Proof.Machine.execDiagEcho f slot s
  | .diagRegRead f slot => Sys2Proof.Machine.execDiagRegRead f slot s
  | .diagSelftest f slot fail => Sys2Proof.Machine.execDiagSelftest f slot fail s
  | .linkStatus f slot => Sys2Proof.Machine.execLinkStatus f slot s
  | .linkSetId f slot => Sys2Proof.Machine.execLinkSetId f slot s
  | .linkRoute f slot buf => Sys2Proof.Machine.execLinkRoute f slot buf s
  | .linkEnable f slot => Sys2Proof.Machine.execLinkEnable f slot s
  | .install pkts => Sys2Proof.Machine.execInstall pkts s
  | .ready pkt => Sys2Proof.Machine.execReady pkt s
  | .go pkt => Sys2Proof.Machine.execGo pkt s
  | .startAbort pkt => Sys2Proof.Machine.execStartAbort pkt s
  | .startTimeout job => Sys2Proof.Machine.execStartTimeout job s
  | .release pkt => Sys2Proof.Machine.execRelease pkt s
  | .epochAdvMessage pkt => Sys2Proof.Machine.execEpochAdvMessage pkt s
  | .nop plot ctx => Sys2Proof.Machine.execNop plot ctx s
  | .halt plot ctx => Sys2Proof.Machine.execHalt plot ctx s
  | .haltRetire plot ctx => Sys2Proof.Machine.execHaltRetire plot ctx s
  | .setl plot ctx => Sys2Proof.Machine.execSetl plot ctx s
  | .loopDec plot ctx => Sys2Proof.Machine.execLoopDec plot ctx s
  | .jump plot ctx => Sys2Proof.Machine.execJump plot ctx s
  | .ldt plot ctx => Sys2Proof.Machine.execLdt plot ctx s
  | .matmul plot ctx => Sys2Proof.Machine.execMatmul plot ctx s
  | .arrayStep plot upset => Sys2Proof.Machine.execArrayStep plot upset s
  | .shadowLoadComplete plot => Sys2Proof.Machine.execShadowLoadComplete plot s
  | .blockComplete plot => Sys2Proof.Machine.execBlockComplete plot s
  | .rescaleAct plot => Sys2Proof.Machine.execRescaleAct plot s
  | .vop plot ctx => Sys2Proof.Machine.execVop plot ctx s
  | .dma plot ctx => Sys2Proof.Machine.execDma plot ctx s
  | .dmaDescriptorStart plot chan => Sys2Proof.Machine.execDmaDescriptorStart plot chan s
  | .dmaRow plot chan => Sys2Proof.Machine.execDmaRow plot chan s
  | .gather plot ctx => Sys2Proof.Machine.execGather plot ctx s
  | .collective plot ctx => Sys2Proof.Machine.execCollective plot ctx s
  | .wait plot ctx => Sys2Proof.Machine.execWait plot ctx s
  | .signal plot ctx => Sys2Proof.Machine.execSignal plot ctx s
  | .fence plot ctx => Sys2Proof.Machine.execFence plot ctx s
  | .fenceComplete plot ctx => Sys2Proof.Machine.execFenceComplete plot ctx s
  | .remoteWriteSend plot counter => Sys2Proof.Machine.execRemoteWriteSend plot counter s
  | .rwrite pkt => Sys2Proof.Machine.execRwrite pkt s
  | .credit pkt => Sys2Proof.Machine.execCredit pkt s
  | .creditReturn plot window => Sys2Proof.Machine.execCreditReturn plot window s
  | .storeAccess plot acc => Sys2Proof.Machine.execStoreAccess plot acc s
  | .coalescerIdleFlush plot entry => Sys2Proof.Machine.execCoalescerIdleFlush plot entry s
  | .storeScrub plot ecc => Sys2Proof.Machine.execStoreScrub plot ecc s
  | .storeClear src plot => Sys2Proof.Machine.execStoreClear src plot s
  | .storeClearComplete plot => Sys2Proof.Machine.execStoreClearComplete plot s
  | .debugRowRead src plot word => Sys2Proof.Machine.execDebugRowRead src plot word s
  | .debugRowWrite src plot word value => Sys2Proof.Machine.execDebugRowWrite src plot word value s
  | .numClear src plot mask => Sys2Proof.Machine.execNumClear src plot mask s
  | .srSeedWrite src plot die value => Sys2Proof.Machine.execSrSeedWrite src plot die value s
  | .signalDelivery pkt => Sys2Proof.Machine.execSignalDelivery pkt s
  | .ack pkt => Sys2Proof.Machine.execAck pkt s
  | .nak pkt => Sys2Proof.Machine.execNak pkt s
  | .qdArm src g value => Sys2Proof.Machine.execQdArm src g value s
  | .qdDisarm src g => Sys2Proof.Machine.execQdDisarm src g s
  | .qdWindowExpiry g => Sys2Proof.Machine.execQdWindowExpiry g s
  | .quiet pkt => Sys2Proof.Machine.execQuiet pkt s
  | .probe pkt => Sys2Proof.Machine.execProbe pkt s
  | .qdAnswer pkt => Sys2Proof.Machine.execQdAnswer pkt s
  | .verdict pkt => Sys2Proof.Machine.execVerdict pkt s
  | .sieveBufferGrant sieve => Sys2Proof.Machine.execSieveBufferGrant sieve s
  | .sieveSortComplete sieve buf => Sys2Proof.Machine.execSieveSortComplete sieve buf s
  | .waveStart sieve buf => Sys2Proof.Machine.execWaveStart sieve buf s
  | .greq pkts => Sys2Proof.Machine.execGreq pkts s
  | .furrowPartPooled unit => Sys2Proof.Machine.execFurrowPartPooled unit s
  | .scratch pkt => Sys2Proof.Machine.execScratch pkt s
  | .bagCombine sieve buf => Sys2Proof.Machine.execBagCombine sieve buf s
  | .prefetchBatch sieve => Sys2Proof.Machine.execPrefetchBatch sieve s
  | .pfetch pkts => Sys2Proof.Machine.execPfetch pkts s
  | .rowCacheFill fill => Sys2Proof.Machine.execRowCacheFill fill s
  | .cacheDecay => Sys2Proof.Machine.execCacheDecay s
  | .epochAdv src => Sys2Proof.Machine.execEpochAdv src s
  | .invalAll src => Sys2Proof.Machine.execInvalAll src s
  | .rwcInvKey src tkey => Sys2Proof.Machine.execRwcInvKey src tkey s
  | .invalidationComplete => Sys2Proof.Machine.execInvalidationComplete s
  | .update pkts => Sys2Proof.Machine.execUpdate pkts s
  | .updateEnd pkt => Sys2Proof.Machine.execUpdateEnd pkt s
  | .rowUpdate unit ue => Sys2Proof.Machine.execRowUpdate unit ue s
  | .lease pkt => Sys2Proof.Machine.execLease pkt s
  | .writerStepTimeout tkey => Sys2Proof.Machine.execWriterStepTimeout tkey s
  | .rowLockTimeout unit => Sys2Proof.Machine.execRowLockTimeout unit s
  | .blockTransmit port => Sys2Proof.Machine.execBlockTransmit port s
  | .dataBlock port blk => Sys2Proof.Machine.execDataBlock port blk s
  | .retryBlock port blk => Sys2Proof.Machine.execRetryBlock port blk s
  | .linkMessage port msg => Sys2Proof.Machine.execLinkMessage port msg s
  | .linkMessageSend port => Sys2Proof.Machine.execLinkMessageSend port s
  | .portTrainRetry port => Sys2Proof.Machine.execPortTrainRetry port s
  | .portTrained port degraded => Sys2Proof.Machine.execPortTrained port degraded s
  | .retrain port => Sys2Proof.Machine.execRetrain port s
  | .cskRetrainRequest src port => Sys2Proof.Machine.execCskRetrainRequest src port s
  | .retrainComplete port lastSeq => Sys2Proof.Machine.execRetrainComplete port lastSeq s
  | .retrainTimeout port => Sys2Proof.Machine.execRetrainTimeout port s
  | .unquar src port => Sys2Proof.Machine.execUnquar src port s
  | .packetRoute => Sys2Proof.Machine.execPacketRoute s
  | .packetLifetimeExpiry index => Sys2Proof.Machine.execPacketLifetimeExpiry index s
  | .graftEgressBlock unit => Sys2Proof.Machine.execGraftEgressBlock unit s
  | .coll pkt => Sys2Proof.Machine.execColl pkt s
  | .graftWindowEnd unit slot => Sys2Proof.Machine.execGraftWindowEnd unit slot s
  | .verdictRound plot ctx => Sys2Proof.Machine.execVerdictRound plot ctx s
  | .verdictRoundComplete plot ctx => Sys2Proof.Machine.execVerdictRoundComplete plot ctx s
  | .listenEnter src => Sys2Proof.Machine.execListenEnter src s
  | .listenWake source => Sys2Proof.Machine.execListenWake source s
  | .referenceStable => Sys2Proof.Machine.execReferenceStable s
  | .rtcTick => Sys2Proof.Machine.execRtcTick s
  | .rtcAlarm => Sys2Proof.Machine.execRtcAlarm s
  | .rtcSet src sec => Sys2Proof.Machine.execRtcSet src sec s
  | .timerExpiry n => Sys2Proof.Machine.execTimerExpiry n s
  | .timerEnable src n => Sys2Proof.Machine.execTimerEnable src n s
  | .timerDisable src n => Sys2Proof.Machine.execTimerDisable src n s
  | .expClr src n => Sys2Proof.Machine.execExpClr src n s
  | .kick src => Sys2Proof.Machine.execKick src s
  | .watchdogExpiry => Sys2Proof.Machine.execWatchdogExpiry s
  | .gpiEdge n level => Sys2Proof.Machine.execGpiEdge n level s
  | .spiStart src => Sys2Proof.Machine.execSpiStart src s
  | .spiComplete miso => Sys2Proof.Machine.execSpiComplete miso s
  | .pdmSample port sample => Sys2Proof.Machine.execPdmSample port sample s
  | .cmeStart src => Sys2Proof.Machine.execCmeStart src s
  | .cmeMatmul ecc => Sys2Proof.Machine.execCmeMatmul ecc s
  | .cmeAdd ecc => Sys2Proof.Machine.execCmeAdd ecc s
  | .cmeLut ecc => Sys2Proof.Machine.execCmeLut ecc s
  | .cmeCopy ecc => Sys2Proof.Machine.execCmeCopy ecc s
  | .cmeRaise ecc => Sys2Proof.Machine.execCmeRaise ecc s
  | .cmeEnd ecc => Sys2Proof.Machine.execCmeEnd ecc s
  | .forecastRun => Sys2Proof.Machine.execForecastRun s
  | .dormantJobTrigger trigger input => Sys2Proof.Machine.execDormantJobTrigger trigger input s
  | .benchHalt src => Sys2Proof.Machine.execBenchHalt src s
  | .benchResume src => Sys2Proof.Machine.execBenchResume src s
  | .benchStep src => Sys2Proof.Machine.execBenchStep src s
  | .sourceRequest n0 level data => Sys2Proof.Machine.execSourceRequest n0 level data s
  | .coalesceWindowExpiry f v => Sys2Proof.Machine.execCoalesceWindowExpiry f v s
  | .benchClaim src => Sys2Proof.Machine.execBenchClaim src s
  | .benchComplete src id => Sys2Proof.Machine.execBenchComplete src id s
  | .force src n0 => Sys2Proof.Machine.execForce src n0 s
  | .pendingClear src n0 => Sys2Proof.Machine.execPendingClear src n0 s
  | .flcCtlErase src => Sys2Proof.Machine.execFlcCtlErase src s
  | .flcCtlProgram src => Sys2Proof.Machine.execFlcCtlProgram src s
  | .sectorEraseComplete bank => Sys2Proof.Machine.execSectorEraseComplete bank s
  | .segmentProgramComplete bank verifyOk => Sys2Proof.Machine.execSegmentProgramComplete bank verifyOk s
  | .rcvStatus pecOk => Sys2Proof.Machine.execRcvStatus pecOk s
  | .rcvBegin data pecOk => Sys2Proof.Machine.execRcvBegin data pecOk s
  | .rcvData data pecOk => Sys2Proof.Machine.execRcvData data pecOk s
  | .rcvCommit data pecOk img => Sys2Proof.Machine.execRcvCommit data pecOk img s
  | .powerSample core board => Sys2Proof.Machine.execPowerSample core board s
  | .limiterStep => Sys2Proof.Machine.execLimiterStep s
  | .governorLoop => Sys2Proof.Machine.execGovernorLoop s
  | .demandIntervalClose => Sys2Proof.Machine.execDemandIntervalClose s
  | .intervalLog => Sys2Proof.Machine.execIntervalLog s
  | .acctEn => Sys2Proof.Machine.execAcctEn s
  | .smbusRegisterRead port offset count => Sys2Proof.Machine.execSmbusRegisterRead port offset count s
  | .setEndpointId port eid => Sys2Proof.Machine.execSetEndpointId port eid s
  | .getEndpointId port => Sys2Proof.Machine.execGetEndpointId port s
  | .getEndpointUuid port => Sys2Proof.Machine.execGetEndpointUuid port s
  | .getMctpVersionSupport port msgType => Sys2Proof.Machine.execGetMctpVersionSupport port msgType s
  | .getMessageTypeSupport port => Sys2Proof.Machine.execGetMessageTypeSupport port s
  | .getVendorDefinedMessageSupport port selector => Sys2Proof.Machine.execGetVendorDefinedMessageSupport port selector s
  | .mctpUnsupportedCmd port cmd => Sys2Proof.Machine.execMctpUnsupportedCmd port cmd s
  | .getPower port => Sys2Proof.Machine.execGetPower port s
  | .getEnergy port func back => Sys2Proof.Machine.execGetEnergy port func back s
  | .setTariff port persist data => Sys2Proof.Machine.execSetTariff port persist data s
  | .setCap port watts => Sys2Proof.Machine.execSetCap port watts s
  | .setTime port sec => Sys2Proof.Machine.execSetTime port sec s
  | .readLog port log first count ecc => Sys2Proof.Machine.execReadLog port log first count ecc s
  | .modelWrite port addr data => Sys2Proof.Machine.execModelWrite port addr data s
  | .modelErase port first count => Sys2Proof.Machine.execModelErase port first count s
  | .readResult port area => Sys2Proof.Machine.execReadResult port area s
  | .mctpFwWrite port offset data => Sys2Proof.Machine.execMctpFwWrite port offset data s
  | .mctpFwActivate port img => Sys2Proof.Machine.execMctpFwActivate port img s
  | .restart port => Sys2Proof.Machine.execRestart port s
  | .hbmScrub stack unit ecc => Sys2Proof.Machine.execHbmScrub stack unit ecc s
  | .hbmControllerFault stack => Sys2Proof.Machine.execHbmControllerFault stack s
  | .leaseFence lease trigger => Sys2Proof.Machine.execLeaseFence lease trigger s
  | .drainExpiry index => Sys2Proof.Machine.execDrainExpiry index s
  | .pwrfailNRise => Sys2Proof.Machine.execPwrfailNRise s
  | .islandRailsLoss => Sys2Proof.Machine.execIslandRailsLoss s
  | .rtcCrystalStop => Sys2Proof.Machine.execRtcCrystalStop s
  | .vfEnable n => Sys2Proof.Machine.execVfEnable n s
  | .vfDisable f => Sys2Proof.Machine.execVfDisable f s
  | .tckEdge tms tdi trstN rising pins => Sys2Proof.Machine.execTckEdge tms tdi trstN rising pins s

end Sys2Proof.Machine
end

