-- ==== Sys2Proof/Safety.lean ====
section
/-! DEFINITION. What counts as a safe state and a safe step, and the terms that the statements say frames in. -/

namespace Sys2Proof.Machine

/-- A step is safe when it answers a next state. -/
def safeStep (s : State) : Prop := ∃ t, step s = .next t

/-- The canonical forms of sparse memory: register keys rise strictly; HBM addresses rise strictly and a byte listed as
zero lies in a range that a self-test left undefined (an unlisted byte elsewhere reads zero); flash addresses rise
strictly and no byte listed is 0xFF, what an erased byte reads as. -/
def State.memWf (s : State) : Bool :=
  FMap.rising 0 s.regs && FMap.rising 0 s.hbm && s.hbm.all (fun e => e.2 != 0 || (s.undefAt e.1).isSome)
    && FMap.wf s.flash.bytes 0xFF

/-! ### Frames -/

/-- A state without its register file. -/
def State.rest (s : State) : State := { s with regs := [] }

/-- `t` differs from `s` in the register fields with the keys `ks` and in nothing else. -/
structure OnlyRegs (s t : State) (ks : List Nat) : Prop where
  rest : t.rest = s.rest
  regs : ∀ (f : Field) (i : List Nat), f.key i ∉ ks → t.rd f i = s.rd f i

/-- Keys of the register file outside the functions' pages and Hedge (addresses 0x100000 to 0x22FFFF). -/
def outside (k : Nat) : Prop := k < 0x100000 * 128 ∨ 0x230000 * 128 ≤ k

/-- A state without what requests and events may change: the register file, what is sent outside, Hedge's windows, pending
vectors, event queues and violation logs. -/
def State.still (s : State) : State :=
  { s with
    regs := [], outs := [], hedge := {}
    mbx := { s.mbx with msixPend := [], evq := [], lostSince := [], vlog := [] } }

/-- `t` differs from `s` only in what requests and events may change: registers of the functions' pages and Hedge, and what
`still` leaves out. -/
structure Quiet (s t : State) : Prop where
  still : t.still = s.still
  regs : ∀ (f : Field) (i : List Nat), outside (f.key i) → t.rd f i = s.rd f i

/-! ### Contexts and detector slots following a command -/

/-- Keys of what RKE_CTX shows of each context's wait and TOP_QD_GST shows of each slot's quiescence. -/
def settleKeys : List Nat :=
  (List.range 64).flatMap (fun e => [Reg.RKE_CTX_STATE.key [e / 4, e % 4], Reg.RKE_CTX_WAIT_KIND.key [e / 4, e % 4],
    Reg.RKE_CTX_WAIT_ARG.key [e / 4, e % 4]])
  ++ (List.range 16).flatMap (fun g => [Reg.TOP_QD_GST_QUIET.key [g], Reg.TOP_QD_GST_SUSPENDED.key [g],
    Reg.TOP_QD_GST_REPORTED.key [g], Reg.TOP_QD_GST_GEN.key [g]])

/-- `t` is `s` after contexts whose waits are over have resumed and detector slots have followed (R290, R392). -/
structure Settles (s t : State) : Prop where
  rest : { t with regs := [], plots := [], qd := [] } = { s with regs := [], plots := [], qd := [] }
  regs : ∀ (f : Field) (i : List Nat), f.key i ∉ settleKeys → t.rd f i = s.rd f i
  plot : ∀ p : Nat, { t.plot p with ctxs := [] } = { s.plot p with ctxs := [] }
  ctx : ∀ p c : Nat, { t.ctx p c with wait := none, bg := none } = { s.ctx p c with wait := none, bg := none }
  live : ∀ p c : Nat, p < 16 → c < 4 → t.ctxLive p c = s.ctxLive p c
  dead : ∀ p c : Nat, p < 16 → c < 4 → s.ctxLive p c = false → t.ctxState p c = s.ctxState p c

/-! ### Commands of the rings -/

/-- A fetched command that may run now: firmware serves commands, its opcode is `op`, it has not started, its order lets
it start (R188-R190), it passes checks 1 to 6 of R182, and VCORE is up if it needs it (R186). -/
structure Startable (s : State) (f i op : Nat) (c : Cmd) : Prop where
  fetched : s.cmd? f i = some c
  opcode : c.opcode = op
  fresh : c.started = false ∧ c.result = none
  firmware : s.fwRuns = true ∧ s.rd Reg.TOP_BOOTSTAT_STATE [] = 2
  order : s.mayStart c = true
  checks : s.acsRefusal c = none
  core : c.needsCore = true → s.coreUp = true

/-- The status and body that stand for a fetched command. -/
def State.resultOf (s : State) (f i : Nat) : Option (Nat × List Byte) := (s.cmd? f i).bind (·.result)

/-- A state without its fetched commands. -/
def State.noCmds (s : State) : State := { s with mbx := { s.mbx with cmds := [] } }

/-- `t` is `s` with a result staged for the command of a slot, and nothing else changed. -/
structure Answers (s t : State) (f i : Nat) (st : Status) (body : List Byte) : Prop where
  result : t.resultOf f i = some (st.code, body)
  others : ∀ g k : Nat, (g ≠ f ∨ k ≠ i) → t.cmd? g k = s.cmd? g k
  rest : t.noCmds = s.noCmds

/-- The state once a command's buffer at byte `o` has been read: a read from HBM counts traffic. -/
def State.afterBuffer (s : State) (c : Cmd) (o : Nat) : State :=
  if (c.ref o).space = 0 then bulk s c.func (c.ref o).addr (c.ref o).len else s

/-! ### Jobs -/

/-- A loaded job that this die leads with no other die, and whose bundle names a context on a plot of the job. -/
structure State.LeadsAlone (s : State) (j : Nat) : Prop where
  leads : s.leads (s.job j).bundle = true
  alone : ∀ d, d ∈ runDies (s.job j).bundle → d = s.self
  named : ∃ p, p ∈ (s.job j).plotList ∧ namedCtxs (s.job j).bundle p ≠ []

/-- The job in slot `j` runs since now: every context that its bundle names stands RUNNING at its entry point. -/
structure JobRuns (s u : State) (j : Nat) : Prop where
  state : (u.job j).state = 1 ∧ (u.job j).start = none ∧ (u.job j).changedAt = s.now
  bundle : (u.job j).bundle = (s.job j).bundle ∧ (u.job j).plots = (s.job j).plots
  ctxs : ∀ p c e, p ∈ (s.job j).plotList → c < 4 → entryPoint (s.job j).bundle p c = some e →
    u.ctxState p c = 1 ∧ u.rd Reg.RKE_CTX_PC [p, c] = e % 4096

/-! ### Instructions of a context -/

/-- A context that can issue the instruction at its PC, whose opcode is `op` and whose bytes are `l`. -/
structure Issues (s : State) (p c op : Nat) (l : List Byte) : Prop where
  core : s.coreUp = true
  free : s.canIssue p c = true
  bytes : s.instrAt p (s.pcOf p c) = l
  opcode : fieldAt l 0 1 = op

/-- No captured set of a context waits for its boundary. -/
def State.noSets (s : State) (p c : Nat) : Prop :=
  s.on (cPending (dtSet p c)) [] = false ∧ s.on (cPending (vecSet p c)) [] = false

/-- The current instruction of a context retired: PC moved, the instruction counts, the loop registers are `loops`, and
besides what shows the context and the keys `ks` nothing changed. -/
structure Retires (s u : State) (p c pc : Nat) (loops ks : List Nat) : Prop where
  pc : u.pcOf p c = pc
  live : u.ctxLive p c = true
  ctx : u.ctx p c = { s.ctx p c with wait := none, progress := 0, inBytes := [], held := [], outRows := [], loops := loops,
                                     issued := (s.ctx p c).issued + 1 }
  others : ∀ q d : Nat, q ≠ p ∨ d ≠ c → u.ctx q d = s.ctx q d
  plot : ∀ q : Nat, { u.plot q with ctxs := [] } = { s.plot q with ctxs := [] }
  rest : { u with regs := [], plots := [] } = { s with regs := [], plots := [] }
  regs : ∀ (f : Field) (i : List Nat), f.key i ≠ Reg.RKE_CTX_PC.key [p, c] → f.key i ∉ settleKeys → f.key i ∉ ks →
    u.rd f i = s.rd f i

/-- A context faulted (R325): it is FAULTED, the first record of its plot stands, its running job ended with `st`, and
HBM stands. -/
structure Faults (s u : State) (p c cause arg : Nat) (st : Status) : Prop where
  state : u.ctxState p c = 3
  valid : u.on Reg.RKE_ERR_VALID [p] = true
  first : s.on Reg.RKE_ERR_VALID [p] = false → u.rd Reg.RKE_ERR_CAUSE [p] = cause % 32 ∧
    u.rd Reg.RKE_ERR_CTX [p] = c % 4 ∧ u.rd Reg.RKE_ERR_PC [p] = s.pcOf p c ∧ u.rd Reg.RKE_ERR_ARG [p] = arg % 2 ^ 32
  stands : s.on Reg.RKE_ERR_VALID [p] = true → u.rd Reg.RKE_ERR_CAUSE [p] = s.rd Reg.RKE_ERR_CAUSE [p] ∧
    u.rd Reg.RKE_ERR_CTX [p] = s.rd Reg.RKE_ERR_CTX [p] ∧ u.rd Reg.RKE_ERR_PC [p] = s.rd Reg.RKE_ERR_PC [p] ∧
    u.rd Reg.RKE_ERR_ARG [p] = s.rd Reg.RKE_ERR_ARG [p]
  job : ∀ j, s.ctxState p c ≠ 3 → s.jobOf p = some j → (s.job j).state = 1 →
    (u.job j).state = 2 ∧ (u.job j).final = st.code ∧ (u.job j).changedAt = s.now
  hbm : u.hbm = s.hbm

/-- Bytes `a` to `b` of an instruction are zero. -/
def zeroBytes (l : List Byte) (a b : Nat) : Prop := ∀ i, a ≤ i → i ≤ b → fieldAt l i 1 = 0

/-- Packets handed to the routing stage since `s`, in order, by local agents. -/
def Sent (s u : State) (l : List Packet) : Prop := u.link.routeQ = s.link.routeQ ++ l.map (fun q => ⟨q, 8, s.now⟩)

/-- Port `n` logged a violation (R492): one entry in its log, its counters, and nothing on other ports, plots or HBM. -/
structure Violates (s u : State) (n code seq : Nat) : Prop where
  count : u.rd Reg.CSK_VIOL_CNT_COUNT [n] = satAdd 16 (s.rd Reg.CSK_VIOL_CNT_COUNT [n]) 1
  pi : u.rd Reg.CSK_VLOG_PI_PI [n] = (s.rd Reg.CSK_VLOG_PI_PI [n] + 1) % 65536
  code : u.rd Reg.CSK_VLOG_CODE [n, s.rd Reg.CSK_VLOG_PI_PI [n] % 256] = code % 256
  seq : u.rd Reg.CSK_VLOG_SEQ [n, s.rd Reg.CSK_VLOG_PI_PI [n] % 256] = seq % 65536
  time : u.rd Reg.CSK_VLOG_TIME [n, s.rd Reg.CSK_VLOG_PI_PI [n] % 256] = s.now
  ports : ∀ m : Nat, m ≠ n → u.port m = s.port m
  plots : u.plots = s.plots
  hbm : u.hbm = s.hbm

/-- Port `n` started a retrain (R476): RETRAINING under the next link epoch, counted. -/
structure Retrains (s u : State) (n : Nat) : Prop where
  state : u.portState n = psRetraining
  epoch : u.rd Reg.CSK_EPOCH_RX_EPOCH [n] = epochNext (s.rd Reg.CSK_EPOCH_RX_EPOCH [n])
  count : u.rd Reg.CSK_FEC_RETRAINS [n] = satAdd 16 (s.rd Reg.CSK_FEC_RETRAINS [n]) 1
  since : (u.port n).retrainAt = s.now ∧ (u.port n).wantRetrain = true
  held : (u.port n).held = (s.port n).held
  ports : ∀ m : Nat, m ≠ n → u.port m = s.port m
  hbm : u.hbm = s.hbm

/-- An event source `i` requested with DATA `d` (R552, R553), and nothing outside the pages and Hedge changed. -/
structure Raises (u t : State) (i d : Nat) : Prop where
  quiet : Quiet u t
  data : t.rd Reg.HDG_SRC_DATA [i] = d % 2 ^ 32
  pending : 2 ≤ u.rd Reg.HDG_SRC_SENSE [i] → t.on Reg.HDG_SRC_PENDING [i] = true
  others : ∀ k : Nat, k < 1023 → k ≠ i → t.rd Reg.HDG_SRC_DATA [k] = u.rd Reg.HDG_SRC_DATA [k] ∧
    t.on Reg.HDG_SRC_PENDING [k] = u.on Reg.HDG_SRC_PENDING [k]

/-- Commands that write firmware-owned registers and do nothing else: a write that is refused changes no such register. -/
def fwWrites (src : Src) (n : Fin 8) : List Instr :=
  [.listenEnter src, .timerEnable src n, .timerDisable src n, .expClr src n, .kick src, .spiStart src, .cmeStart src,
   .benchHalt src, .benchResume src, .benchStep src]

/-- An MCTP message has come on port `p`: the port's source requests when the island is out of reset. -/
def Arrives (s w : State) (p : Nat) : Prop := if s.boot.porstN then Raises s w (403 + p) 0 else w = s

/-- `t` is `w` with one MCTP answer sent on port `p`. -/
def Replies (w t : State) (p st : Nat) (body : List Byte) : Prop := t = w.emit (.mctp p st body)

/-- MCTP control messages to port `p`. -/
def mctpControl (p : Fin 2) (x : Nat) (c : Instr) : Prop :=
  c = .setEndpointId p x ∨ c = .getEndpointId p ∨ c = .getEndpointUuid p ∨ c = .getMctpVersionSupport p x ∨
    c = .getMessageTypeSupport p ∨ c = .getVendorDefinedMessageSupport p x ∨ c = .mctpUnsupportedCmd p x

/-- Vendor-defined messages that only a SHOOT or ROOT die serves, that only a DORMANT die serves, and that every die serves. -/
def mctpFabric (p : Fin 2) (x y : Nat) (l : List Byte) (c : Instr) : Prop :=
  c = .getPower p ∨ c = .getEnergy p x y ∨ c = .setTariff p x l ∨ c = .setCap p x
def mctpDormant (p : Fin 2) (x : Nat) (l : List Byte) (img : ImageCheck) (c : Instr) : Prop :=
  c = .readResult p x ∨ c = .mctpFwWrite p x l ∨ c = .mctpFwActivate p img ∨ c = .restart p
def mctpCommon (p : Fin 2) (x y z : Nat) (l : List Byte) (ecc : FlashEcc) (c : Instr) : Prop :=
  c = .setTime p x ∨ c = .readLog p x y z ecc ∨ c = .modelWrite p x l ∨ c = .modelErase p x y

/-- A flash operation failed (R570, R574): FLC_STAT and FLC_FAILADDR show it and source 406 is raised. -/
structure FlashFails (s t : State) (cause addr : Nat) : Prop where
  fail : t.on Reg.FLC_STAT_FAIL [] = true
  cause : t.rd Reg.FLC_STAT_CAUSE [] = cause
  addr : t.rd Reg.FLC_FAILADDR_ADDR [] = addr % 2 ^ 23
  data : t.rd Reg.HDG_SRC_DATA [406] = 0
  bytes : t.flash.bytes = s.flash.bytes
  wear : t.flash.wear = s.flash.wear
  hbm : t.hbm = s.hbm
  plots : t.plots = s.plots

end Sys2Proof.Machine
end

