-- ==== Sys2Proof/Certificates/Slice0/Obligations.lean ====
section
/-! DEFINITION. The statements for the provers. -/

open Sys2Proof Sys2Proof.Machine

/-- For every command c and state s: step of s with c at the front of its queue is exec of c on s with the queue's rest.
The queue is the model's form (assumption 1). (spec/00_scope.md, spec/04_handshake_ordering.md.) -/
def Obligations.StepRunsFrontCommand : Prop :=
  ∀ (c : Instr) (r : List Instr) (s : State), step { s with pending := c :: r } = exec c { s with pending := r }

/-- ISLAND_RAILS_UP of an unpowered island powers it and starts its oscillator. PWRFAIL_N_FALL starts the glitch filter at
the present time; PWRFAIL_N_RISE ends it and TOP_PINSTAT.PWRFAIL_N reads 1. PERST_N_RELEASE starts link training and
PCIE_CONFIG_READY, with PERST_N released, makes the configuration space ready. Nothing else of the state changes.
(R51, R55, R89, R91.) -/
def Obligations.RailsLinkAndCutPinsSetTheirLatches : Prop :=
  ∀ s : State,
    (s.boot.rails = false → ∃ t, exec .islandRailsUp s = .next t ∧
      t = { s with boot := { s.boot with rails := true, osc := true } }) ∧
    (s.boot.rails = true → s.boot.pwrfailLow = false → ∃ t, exec .pwrfailNFall s = .next t ∧
      t = { s with boot := { s.boot with pwrfailLow := true, pwrfailAt := s.now } }) ∧
    (s.boot.rails = true → ∃ t, exec .pwrfailNRise s = .next t ∧ t.rd Reg.TOP_PINSTAT_PWRFAIL_N [] = 1 ∧
      t.boot = { s.boot with pwrfailLow := false } ∧
      OnlyRegs { s with boot := t.boot } t [Reg.TOP_PINSTAT_PWRFAIL_N.key []]) ∧
    (∃ t, exec .perstNRelease s = .next t ∧
      t = { s with boot := { s.boot with perstN := true }, mbx := { s.mbx with linkUp := true, cfgReady := false } }) ∧
    (s.boot.perstN = true → ∃ t, exec .pcieConfigReady s = .next t ∧
      t = { s with mbx := { s.mbx with cfgReady := true } })

/-- PORST_N_RISE of a powered island captures ROLE (0b11 becomes DORMANT with STRAP_ERR), HARV_CAP, PKG_POS, SMB_ADDR and
TEST_EN, sets RSTCAUSE.POR, raises MAIN_EN unless the role is DORMANT, stops plots and commands and keeps flash, HBM,
CUT_SEEN, the real-time clock and retained SRAM. PORST_N_FALL outside a hold-up sequence, and PORST_N_HOLDOFF_EXPIRY
once the sequence has ended or 3 ms have passed, hold the island in reset; PORST_N_FALL in a sequence is only noted.
ISLAND_RAILS_LOSS also clears CUT_SEEN and the clock and keeps flash. (R51, R58, R59, R75, R88, R100, R526.) -/
def Obligations.PowerOnResetCapturesStrapsAndKeepsCauses : Prop :=
  ∀ (s : State) (x : Straps),
    (s.boot.rails = true → s.boot.porstN = false → ∃ t, exec (.porstNRise x) s = .next t ∧
      t.rd Reg.TOP_STRAP_ROLE_PIN [] = x.role.val ∧
      t.rd Reg.TOP_STRAP_ROLE [] = (if x.role.val = 3 then 2 else x.role.val) ∧
      t.on Reg.TOP_STRAP_STRAP_ERR [] = (x.role.val == 3) ∧ t.on Reg.TOP_STRAP_HARV_CAP [] = x.harvCap ∧
      t.on Reg.TOP_STRAP_PKG_POS [] = x.pkgPos ∧ t.rd Reg.TOP_STRAP_SMB_ADDR [] = x.smbAddr.val ∧
      t.on Reg.TOP_STRAP_TEST_EN [] = x.testEn ∧ t.rd Reg.TOP_RSTCAUSE_POR [] = 1 ∧
      t.on Reg.TOP_PINSTAT_MAIN_EN [] = decide (x.role.val < 2) ∧ t.rd Reg.TOP_BOOTSTAT_STATE [] = 0 ∧
      t.boot.porstN = true ∧ t.plots = [] ∧ t.jobs = [] ∧ t.mbx = {} ∧ t.pending = s.pending ∧
      t.rd Reg.TOP_PINSTAT_CUT_SEEN [] = s.rd Reg.TOP_PINSTAT_CUT_SEEN [] ∧
      t.rd Reg.CLO_RTC_SEC_SEC [] = s.rd Reg.CLO_RTC_SEC_SEC [] ∧
      t.flash.bytes = s.flash.bytes ∧ t.hbm = s.hbm ∧
      (∀ a, retainedBase ≤ a → a < sramSize → t.sramByte a = s.sramByte a)) ∧
    (s.boot.porstN = true → s.boot.holdup = true → ∃ t, exec .porstNFall s = .next t ∧
      t = { s with boot := { s.boot with porstHeld := true } }) ∧
    (s.boot.porstN = true → s.boot.holdup = false → ∃ t, exec .porstNFall s = .next t ∧
      t.boot.porstN = false ∧ t.rd Reg.TOP_PINSTAT_MAIN_EN [] = 0 ∧ t.rd Reg.TOP_PINSTAT_VCORE_EN [] = 0 ∧
      t.rd Reg.TOP_PINSTAT_CUT_SEEN [] = s.rd Reg.TOP_PINSTAT_CUT_SEEN [] ∧ t.plots = [] ∧
      t.flash.bytes = s.flash.bytes ∧ t.hbm = s.hbm) ∧
    (s.boot.porstHeld = true → (s.boot.holdup = false ∨ s.boot.cutAt + msCounts 3 ≤ s.now) →
      ∃ t, exec .porstNHoldoffExpiry s = .next t ∧
        t.boot.porstN = false ∧ t.rd Reg.TOP_PINSTAT_MAIN_EN [] = 0 ∧ t.rd Reg.TOP_PINSTAT_VCORE_EN [] = 0 ∧
        t.rd Reg.TOP_PINSTAT_CUT_SEEN [] = s.rd Reg.TOP_PINSTAT_CUT_SEEN [] ∧ t.plots = [] ∧
        t.flash.bytes = s.flash.bytes ∧ t.hbm = s.hbm) ∧
    (∃ t, exec .islandRailsLoss s = .next t ∧ t.boot.rails = false ∧ t.boot.porstN = false ∧
      t.rd Reg.TOP_RSTCAUSE_POR [] = 1 ∧ t.rd Reg.TOP_PINSTAT_CUT_SEEN [] = 0 ∧ t.rd Reg.CLO_RTC_SEC_SEC [] = 0 ∧
      t.plots = [] ∧ t.flash.bytes = s.flash.bytes ∧ t.hbm = s.hbm)

/-- REFCLK_CHECK_TIMEOUT while the boot ROM runs latches REFCLK_FAIL and lowers MAIN_EN and nothing else of the registers
but REF_OK and PHASE. MAIN_PG_RISE with MAIN_EN high shows MAIN_PG, and with a verified image on a die not DORMANT,
tripped, faulted or cut drives VID 0x64 and raises VCORE_EN. MAIN_PG or VCORE_PG missing past 100 ms or 5 ms lowers
both enables. VCORE_PG_RISE shows VCORE_PG and the fused map. None of these changes HBM. (R48, R51, R63, R75, R82,
R92, R633.) -/
def Obligations.PowerUpEventsMoveTheEnables : Prop :=
  ∀ (s : State) (x : Fuses),
    (s.boot.porstN = true → s.boot.restarting = false → s.rd Reg.TOP_BOOTSTAT_STATE [] = 0 →
      ∃ t, exec .refclkCheckTimeout s = .next t ∧ t.rd Reg.TOP_PINSTAT_REFCLK_FAIL [] = 1 ∧
        t.rd Reg.TOP_PINSTAT_MAIN_EN [] = 0 ∧ t.rd Reg.CLO_STATE_REF_OK [] = 0 ∧ t.boot = { s.boot with osc := false } ∧
        OnlyRegs { s with boot := t.boot } t [Reg.TOP_PINSTAT_REFCLK_FAIL.key [], Reg.TOP_PINSTAT_MAIN_EN.key [],
          Reg.CLO_STATE_REF_OK.key [], Reg.TOP_MODE_PHASE.key []]) ∧
    (s.on Reg.TOP_PINSTAT_MAIN_EN [] = true → s.rd Reg.TOP_BOOTSTAT_STATE [] = 1 →
      s.on Reg.TOP_PINSTAT_VCORE_EN [] = false → s.on Reg.TOP_PINSTAT_THERMTRIP [] = false → s.boot.powerFault = false →
      s.on Reg.PWR_STAT_CUT [] = false → s.role ≠ 2 →
      ∃ t, exec .mainPgRise s = .next t ∧ t.rd Reg.TOP_PINSTAT_MAIN_PG [] = 1 ∧ t.rd Reg.TOP_PINSTAT_VID [] = 0x64 ∧
        t.rd Reg.PWR_STAT_VID [] = 0x64 ∧ t.rd Reg.TOP_PINSTAT_VCORE_EN [] = 1 ∧
        t.boot = { s.boot with vcoreEnAt := s.now } ∧
        OnlyRegs { s with boot := t.boot } t [Reg.TOP_PINSTAT_MAIN_PG.key [], Reg.TOP_PINSTAT_VID.key [],
          Reg.PWR_STAT_VID.key [], Reg.TOP_PINSTAT_VCORE_EN.key [], Reg.TOP_MODE_PHASE.key []]) ∧
    (s.on Reg.TOP_PINSTAT_MAIN_EN [] = true → s.on Reg.TOP_PINSTAT_MAIN_PG [] = false →
      s.boot.mainEnAt + msCounts 100 ≤ s.now → ∃ t, exec .mainPgTimeout s = .next t ∧
        t.rd Reg.TOP_PINSTAT_MAIN_EN [] = 0 ∧ t.rd Reg.TOP_PINSTAT_VCORE_EN [] = 0 ∧ t.rd Reg.TOP_PINSTAT_VID [] = 0 ∧
        t.boot = { s.boot with powerFault := true } ∧ t.hbm = s.hbm ∧ t.plots = s.plots) ∧
    (s.on Reg.TOP_PINSTAT_VCORE_EN [] = true → s.on Reg.TOP_PINSTAT_VCORE_PG [] = false →
      s.boot.vcoreEnAt + msCounts 5 ≤ s.now → ∃ t, exec .vcorePgTimeout s = .next t ∧
        t.rd Reg.TOP_PINSTAT_MAIN_EN [] = 0 ∧ t.rd Reg.TOP_PINSTAT_VCORE_EN [] = 0 ∧ t.rd Reg.TOP_PINSTAT_VID [] = 0 ∧
        t.boot = { s.boot with powerFault := true } ∧ t.hbm = s.hbm ∧ t.plots = s.plots) ∧
    (s.on Reg.TOP_PINSTAT_VCORE_EN [] = true → s.on Reg.TOP_PINSTAT_VCORE_PG [] = false → x.good < 2 ^ 16 →
      ∃ t, exec (.vcorePgRise x) s = .next t ∧ t.rd Reg.TOP_PINSTAT_VCORE_PG [] = 1 ∧
        t.rd Reg.TOP_HARVEST_FUSE_GOOD [] = x.good ∧ t.boot.serial = x.serial ∧ t.boot.trained = false ∧
        t.boot.bistDone = (s.role == 1) ∧ (∀ n, n < 32 → t.rd Reg.TOP_TSENS_VALID [n] = 0) ∧
        t.hbm = s.hbm ∧ t.plots = s.plots ∧ t.flash = s.flash)

/-- PLOT_BIST_COMPLETE during bring-up shows the enable map (the fuse-good plots that pass, with HARV_CAP the 14 lowest of
them), the fuse-good plots that failed, and whether fewer than 14 are enabled. HBM_TRAINING_COMPLETE marks the stacks
that fail at the lowest rate failed and gives every working stack one rate, the least of their best.
HBM_CLEAR_COMPLETE makes every byte of HBM read zero with no unit poisoned. (R82, R84, R87, R88, R100.) -/
def Obligations.HarvestAndHbmBringUpFollowTheirMaps : Prop :=
  ∀ (s : State) (fail : Nat) (best : List Nat),
    (s.on Reg.TOP_PINSTAT_VCORE_PG [] = true → s.boot.bistDone = false → s.rd Reg.TOP_BOOTSTAT_STATE [] = 1 →
      ∃ t, exec (.plotBistComplete fail) s = .next t ∧
        (∀ p, p < 16 → t.plotEn p =
          (bitOf (s.rd Reg.TOP_HARVEST_FUSE_GOOD []) p && !bitOf fail p &&
            (!s.on Reg.TOP_STRAP_HARV_CAP [] || decide (((List.range p).filter (fun q =>
              bitOf (s.rd Reg.TOP_HARVEST_FUSE_GOOD []) q && !bitOf fail q)).length < 14)))) ∧
        (∀ p, p < 16 → bitOf (t.rd Reg.TOP_HARVEST_BIST_FAIL []) p =
          (bitOf (s.rd Reg.TOP_HARVEST_FUSE_GOOD []) p && bitOf fail p)) ∧
        t.boot = { s.boot with bistDone := true } ∧
        t.hbm = s.hbm ∧ t.plots = s.plots ∧ t.flash = s.flash ∧ t.mbx = s.mbx ∧ t.cloche = s.cloche) ∧
    (s.on Reg.TOP_PINSTAT_VCORE_PG [] = true → s.boot.trained = false → s.rd Reg.TOP_BOOTSTAT_STATE [] = 1 →
      best.length = 6 → ∃ t, exec (.hbmTrainingComplete best) s = .next t ∧
        (∀ n, n < 6 → t.stackOk n = decide (best.getD n 0 ≠ 0)) ∧
        (∀ n, n < 6 → best.getD n 0 ≠ 0 → ∀ m, m < 6 → best.getD m 0 ≠ 0 →
          t.rd (hbmRate n) [] ≤ best.getD m 0 ∧ t.rd (hbmRate n) [] = t.rd (hbmRate m) []) ∧
        t.boot = { s.boot with trained := true } ∧
        t.hbm = s.hbm ∧ t.plots = s.plots ∧ t.flash = s.flash ∧ t.mbx = s.mbx ∧ t.cloche = s.cloche) ∧
    (s.boot.trained = true → s.boot.cleared = false → s.rd Reg.TOP_BOOTSTAT_STATE [] = 1 →
      ∃ t, exec .hbmClearComplete s = .next t ∧ (∀ a, t.hbmByte a = 0) ∧ (∀ a n, t.hbmPoisoned a n = false) ∧
        (∀ n, n < 6 → t.on (hbmCleared n) [] = s.stackOk n) ∧ t.boot = { s.boot with cleared := true } ∧
        t.plots = s.plots ∧ t.flash = s.flash ∧ t.mbx = s.mbx ∧ t.cloche = s.cloche)

/-- At power-on (PORST_N high, STATE ROM, reference present, no cut, no restart in progress) BOOT_IMAGE_VERIFIED starts
the block that the swap record selects when it is valid, showing FALLBACK 0, and otherwise the other block with
FALLBACK 1 and the reason; STATE becomes FW_INIT, FWVER the image's version and every mailbox epoch the boot count (1
for 0). With both blocks invalid STATE is RECOVERY and both enables are low. HBM is unchanged. (R75, R78, R79, R81,
R621.) -/
def Obligations.BootBlockSelectionAndRecovery : Prop :=
  ∀ (s : State) (a b : ImageCheck),
    s.boot.porstN = true → s.rd Reg.TOP_BOOTSTAT_STATE [] = 0 → s.boot.osc = true → s.on Reg.PWR_STAT_CUT [] = false →
    s.boot.restarting = false → a.reason < 2 ^ 8 → b.reason < 2 ^ 8 → a.version < 2 ^ 32 → b.version < 2 ^ 32 →
    (a.reason ≠ 0 → b.reason ≠ 0 → ∃ t, exec (.bootImageVerified a b) s = .next t ∧
      t.rd Reg.TOP_BOOTSTAT_STATE [] = 3 ∧ t.rd Reg.TOP_PINSTAT_MAIN_EN [] = 0 ∧ t.rd Reg.TOP_PINSTAT_VCORE_EN [] = 0 ∧
      t.hbm = s.hbm ∧ t.plots = s.plots) ∧
    (∀ k, k < 2 → ((if k = 0 then a else b).reason = 0) → (s.bootPlan.blk = k ∨ (if k = 0 then b else a).reason ≠ 0) →
      s.bootPlan.blk < 2 → ∃ t, exec (.bootImageVerified a b) s = .next t ∧ t.rd Reg.TOP_BOOTSTAT_STATE [] = 1 ∧
        t.rd Reg.TOP_BOOTSTAT_BLOCK [] = k ∧ t.rd Reg.TOP_BOOTSTAT_FALLBACK [] = (if s.bootPlan.blk = k then 0 else 1) ∧
        (s.bootPlan.blk ≠ k → t.rd Reg.TOP_BOOTSTAT_FAIL_REASON [] = (if k = 0 then b else a).reason) ∧
        t.rd Reg.CLO_FWVER_VERSION [] = (if k = 0 then a else b).version ∧ t.rd Reg.CLO_WDT_EN [] = 1 ∧
        (∀ f, f < 16 → t.rd Reg.TOP_MBX_EPOCH_EPOCH [f] =
          (if s.bootPlan.new.bootCount % 65536 = 0 then 1 else s.bootPlan.new.bootCount % 65536)) ∧
        t.hbm = s.hbm ∧ t.plots = s.plots)

/-- RUN_MODE_ENTRY with bring-up complete shows STATE READY, phase 8, mode RUN (OPEN with TEST_EN), with every Hedge
source masked and none pending; HBM, plots and jobs are unchanged. WATCHDOG_EXPIRY of the enabled watchdog outside the
seam sets TOP_FAULT.WATCHDOG and RSTCAUSE.ISLAND, shows STATE ROM, stops the watchdog, and leaves HBM, plots, jobs,
tables and tenants as they are. (R75, R99, R100, R103, R530, R633.) -/
def Obligations.RunEntryAndIslandRestart : Prop :=
  ∀ s : State,
    (s.bringUpDone = true → ∃ t, exec .runModeEntry s = .next t ∧ t.rd Reg.TOP_BOOTSTAT_STATE [] = 2 ∧
      t.rd Reg.TOP_MODE_PHASE [] = 8 ∧ t.rd Reg.TOP_MODE_MODE [] = (if s.on Reg.TOP_STRAP_TEST_EN [] then 2 else 1) ∧
      (∀ i, i < 512 → t.rd Reg.HDG_SRC_BEN [i] = 0 ∧ t.rd Reg.HDG_SRC_HEN [i] = 0 ∧ t.rd Reg.HDG_SRC_PENDING [i] = 0) ∧
      t.hbm = s.hbm ∧ t.plots = s.plots ∧ t.jobs = s.jobs) ∧
    (s.on Reg.CLO_WDT_EN [] = true → s.on Reg.CLO_FWSTAT_SEAM [] = false → s.cloche.wdtAt ≤ s.now →
      ∃ t, exec .watchdogExpiry s = .next t ∧ t.rd Reg.TOP_FAULT_WATCHDOG [] = 1 ∧ t.rd Reg.TOP_RSTCAUSE_ISLAND [] = 1 ∧
        t.rd Reg.TOP_BOOTSTAT_STATE [] = 0 ∧ t.rd Reg.CLO_WDT_EN [] = 0 ∧ t.boot.restarting = true ∧ t.hbm = s.hbm ∧
        t.plots = s.plots ∧ t.jobs = s.jobs ∧ t.tbls = s.tbls ∧ t.tenants = s.tenants)

/-- POWER_CUT once PWRFAIL_N has been low for 1 us, and MAIN_LOSS of a power-good whose enable is held with PWRFAIL_N
high, register the cut: PWR_STAT.CUT and CUT_SEEN read 1, the cause is 1 or 2, PWR_CUT_TB holds the time, VCORE_EN,
MAIN_EN and VID read 0 and the hold-up sequence runs. HBM and plots are unchanged. (R55, R56, R57, R610, R611.) -/
def Obligations.PowerCutFreezesAndRemovesPower : Prop :=
  ∀ s : State, s.boot.porstN = true → s.on Reg.PWR_STAT_CUT [] = false →
    (s.boot.pwrfailLow = true → s.boot.pwrfailAt + usCounts 1 ≤ s.now → ∃ t, exec .powerCut s = .next t ∧
      t.rd Reg.PWR_STAT_CUT [] = 1 ∧ t.rd Reg.TOP_PINSTAT_CUT_SEEN [] = 1 ∧ t.rd Reg.TOP_PINSTAT_CUT_CAUSE [] = 1 ∧
      t.rd Reg.TOP_RSTCAUSE_CUT [] = 1 ∧ t.rd Reg.PWR_CUT_TB_TB [] = s.now ∧ t.rd Reg.TOP_PINSTAT_PWRFAIL_N [] = 0 ∧
      t.rd Reg.TOP_PINSTAT_VCORE_EN [] = 0 ∧ t.rd Reg.TOP_PINSTAT_MAIN_EN [] = 0 ∧ t.rd Reg.TOP_PINSTAT_VID [] = 0 ∧
      t.boot.holdup = true ∧ t.boot.cutAt = s.now ∧ t.hbm = s.hbm ∧ t.plots = s.plots) ∧
    (s.boot.pwrfailLow = false →
      (s.on Reg.TOP_PINSTAT_MAIN_PG [] = true → s.on Reg.TOP_PINSTAT_MAIN_EN [] = true → ∃ t, exec (.mainLoss .main) s = .next t ∧
        t.rd Reg.TOP_PINSTAT_MAIN_PG [] = 0 ∧ t.rd Reg.PWR_STAT_CUT [] = 1 ∧ t.rd Reg.TOP_PINSTAT_CUT_CAUSE [] = 2 ∧
        t.rd Reg.PWR_CUT_TB_TB [] = s.now ∧ t.rd Reg.TOP_PINSTAT_VCORE_EN [] = 0 ∧ t.rd Reg.TOP_PINSTAT_MAIN_EN [] = 0 ∧
        t.boot.holdup = true ∧ t.hbm = s.hbm ∧ t.plots = s.plots) ∧
      (s.on Reg.TOP_PINSTAT_VCORE_PG [] = true → s.on Reg.TOP_PINSTAT_VCORE_EN [] = true → ∃ t, exec (.mainLoss .vcore) s = .next t ∧
        t.rd Reg.TOP_PINSTAT_VCORE_PG [] = 0 ∧ t.rd Reg.PWR_STAT_CUT [] = 1 ∧ t.rd Reg.TOP_PINSTAT_CUT_CAUSE [] = 2 ∧
        t.rd Reg.PWR_CUT_TB_TB [] = s.now ∧ t.rd Reg.TOP_PINSTAT_VCORE_EN [] = 0 ∧ t.rd Reg.TOP_PINSTAT_MAIN_EN [] = 0 ∧
        t.boot.holdup = true ∧ t.hbm = s.hbm ∧ t.plots = s.plots))

/-- TSENS_UPDATE shows the reading, its validity and the maximum so far and changes no other register. REPLICA_UPDATE of
an enabled plot shows its rate. A snapshot request copies the time base and the live pace counters, sets BUSY and
changes only snapshot registers; while BUSY it only sets LOST. PACE_AUTO_SNAP does the same when its period has
passed. PACE_SNAP_COMPLETE clears BUSY and increments SEQ and, but for that, changes only what raising source 3 may
change. (R106, R107, R108, R110.) -/
def Obligations.SensorsAndPaceSnapshots : Prop :=
  ∀ s : State,
    (∀ (n : Fin 33) (temp : Nat), s.boot.rails = true →
      (32 ≤ n.val ∨ (s.on Reg.TOP_PINSTAT_VCORE_PG [] = true ∧ s.role ≠ 2)) → ∃ t, exec (.tsensUpdate n temp) s = .next t ∧
        t.rd Reg.TOP_TSENS_TEMP [n.val] = temp % 4096 ∧ t.rd Reg.TOP_TSENS_VALID [n.val] = 1 ∧
        t.rd Reg.TOP_TSENS_TEMP_MAX [n.val] = max (s.rd Reg.TOP_TSENS_TEMP_MAX [n.val]) (temp % 4096) ∧
        OnlyRegs s t [Reg.TOP_TSENS_TEMP.key [n.val], Reg.TOP_TSENS_VALID.key [n.val], Reg.TOP_TSENS_TEMP_MAX.key [n.val]]) ∧
    (∀ (p : Fin 16) (rate : Nat), s.coreUp = true → s.plotEn p = true → rate < 2 ^ 12 →
      ∃ t, exec (.replicaUpdate p rate) s = .next t ∧ t.rd Reg.PLT_REPLICA_RATE [p.val] = rate ∧
        t.rd Reg.PLT_REPLICA_VALID [p.val] = 1 ∧
        OnlyRegs s t [Reg.PLT_REPLICA_RATE.key [p.val], Reg.PLT_REPLICA_VALID.key [p.val]]) ∧
    (s.on Reg.TOP_PACE_STAT_BUSY [] = true → ∃ t, exec (.paceSnap .bench) s = .next t ∧
      t.rd Reg.TOP_PACE_STAT_LOST [] = 1 ∧ OnlyRegs s t [Reg.TOP_PACE_STAT_LOST.key []]) ∧
    (s.on Reg.TOP_PACE_STAT_BUSY [] = false → ∃ t, exec (.paceSnap .bench) s = .next t ∧
      t.rd Reg.TOP_PACE_STAT_BUSY [] = 1 ∧ t.rd Reg.TOP_PACE_SNAPTIME_COUNT [] = s.now ∧
      (∀ n, n < 32 → t.rd Reg.TOP_TRL_FLITS_SNAP_COUNT [n] = s.rd Reg.TOP_TRL_FLITS_COUNT [n]) ∧
      (∀ p, p < 16 → s.plotEn p = true → t.rd Reg.PLT_STEPS_SNAP_COUNT [p] = s.rd Reg.PLT_STEPS_COUNT [p]) ∧
      (∀ n, n < 8 → t.rd Reg.CSK_TXCELLS_SNAP_COUNT [n] = s.rd Reg.CSK_TXCELLS_COUNT [n]) ∧
      OnlyRegs s t (Reg.TOP_PACE_STAT_BUSY.key [] :: Reg.TOP_PACE_SNAPTIME_COUNT.key [] ::
        (paceCounters s).map (fun c => c.2.1.key c.2.2))) ∧
    (s.on Reg.TOP_PACE_STAT_BUSY [] = false → s.rd Reg.TOP_PACE_CTL_AUTO_MS [] ≠ 0 →
      s.cloche.paceAt + msCounts (s.rd Reg.TOP_PACE_CTL_AUTO_MS []) ≤ s.now → ∃ t, exec .paceAutoSnap s = .next t ∧
        t.rd Reg.TOP_PACE_STAT_BUSY [] = 1 ∧ t.rd Reg.TOP_PACE_SNAPTIME_COUNT [] = s.now ∧
        (∀ n, n < 32 → t.rd Reg.TOP_TRL_FLITS_SNAP_COUNT [n] = s.rd Reg.TOP_TRL_FLITS_COUNT [n])) ∧
    (s.on Reg.TOP_PACE_STAT_BUSY [] = true → ∃ t, exec .paceSnapComplete s = .next t ∧
      Quiet ((s.wr Reg.TOP_PACE_STAT_BUSY [] 0).wrapInc Reg.TOP_PACE_STAT_SEQ [] 1) t)

/-- TCK_EDGE of a powered island: TRST_N low resets the controller and selects IDCODE; a rising edge moves it under TMS,
and in Capture-DR with IDCODE selected it captures 0x19E4B36B. RTC_CRYSTAL_STOP sets TOP_PINSTAT.RTC_SRC. Nothing else
changes. (R64, R70.) -/
def Obligations.TestAccessPortAndCrystal : Prop :=
  ∀ s : State, s.boot.rails = true →
    (∀ tms tdi rising pins, ∃ t, exec (.tckEdge tms tdi false rising pins) s = .next t ∧
      t = { s with cloche := { s.cloche with tap := { s.cloche.tap with st := 0, ir := 3 } } }) ∧
    (∀ tms tdi pins, ∃ t, exec (.tckEdge tms tdi true true pins) s = .next t ∧
      t.cloche.tap.st = tapNext s.cloche.tap.st tms ∧ t.cloche.tap.ir = s.cloche.tap.ir ∧
      (s.cloche.tap.st = 3 → s.cloche.tap.ir = 3 → t.cloche.tap.shift = 0x19E4B36B) ∧
      t = { s with cloche := { s.cloche with tap := t.cloche.tap } }) ∧
    (∃ t, exec .rtcCrystalStop s = .next t ∧ t.rd Reg.TOP_PINSTAT_RTC_SRC [] = 1 ∧
      OnlyRegs s t [Reg.TOP_PINSTAT_RTC_SRC.key []])

/-- MODE_OPEN from Open mode answers OK and changes nothing; with a VF enabled it answers BUSY, SUBCODE 1; with a job
loaded BUSY, SUBCODE 2; otherwise TOP_MODE.MODE becomes 2 and it answers OK, and nothing else changes. MODE_RUN in Run
mode answers OK; from Open mode MODE reads 1, no Hedge source is enabled for the Bench core or the host, and HBM and
tenants' assignments are unchanged. (R94, R95, R103.) -/
def Obligations.ModeCommandsMoveBetweenRunAndOpen : Prop :=
  ∀ (s : State) (f : Fin 16) (i : Fin 128) (c : Cmd),
    (Startable s f i 0x103 c →
      (s.isOpen = true → ∃ t, exec (.modeOpen f i) s = .next t ∧ Answers s t f i .ok []) ∧
      (s.isOpen = false → s.mbx.vfs ≠ 0 →
        ∃ t, exec (.modeOpen f i) s = .next t ∧ Answers s t f i .busy (failBody 0xFFFF 1 0)) ∧
      (s.isOpen = false → s.mbx.vfs = 0 → (∃ j, j < 16 ∧ (s.job j).loaded = true) →
        ∃ t, exec (.modeOpen f i) s = .next t ∧ Answers s t f i .busy (failBody 0xFFFF 2 0)) ∧
      (s.isOpen = false → s.mbx.vfs = 0 → (∀ j, j < 16 → (s.job j).loaded = false) →
        ∃ t, exec (.modeOpen f i) s = .next t ∧ Answers (s.wr Reg.TOP_MODE_MODE [] 2) t f i .ok [])) ∧
    (Startable s f i 0x104 c →
      (s.isRun = true → ∃ t u, exec (.modeRun f i) s = .next t ∧ Answers s u f i .ok [] ∧ Settles u t) ∧
      (s.isOpen = true → ∃ t, exec (.modeRun f i) s = .next t ∧ t.rd Reg.TOP_MODE_MODE [] = 1 ∧
        (∀ k, k < 512 → t.rd Reg.HDG_SRC_BEN [k] = 0 ∧ t.rd Reg.HDG_SRC_HEN [k] = 0) ∧
        t.hbm = s.hbm ∧ t.tenants = s.tenants))

/-- DEV_RESET of kind 1 on a die that is not DORMANT sets RSTCAUSE.FABRIC, STATE FW_INIT, phase 2, no plot enabled,
VCORE_PG low, VCORE_EN high with VID 0x64, and remembers its command; kind 2 restarts the island (RSTCAUSE.ISLAND,
STATE ROM, watchdog off) and leaves jobs, tables, tenants and HBM; another kind answers BAD_PARAM with FIELD 8.
FABRIC_RESET_COMPLETE shows READY and phase 8, ends the reset and answers the waiting command with the time base.
After 250 ms FABRIC_RESET_TIMEOUT sets FAULT.RESET_FAIL, mode HALTED, VCORE_EN low and every port DOWN. HBM is
unchanged by all. (R96, R97, R99, R101, R195.) -/
def Obligations.FabricResetRunsFromCommandToCompletion : Prop :=
  ∀ s : State,
    (∀ (f : Fin 16) (i : Fin 128) (c : Cmd), Startable s f i 0x102 c →
      (c.fld 8 1 = 1 → s.role ≠ 2 → ∃ t, exec (.devReset f i) s = .next t ∧ t.rd Reg.TOP_RSTCAUSE_FABRIC [] = 1 ∧
        t.rd Reg.TOP_BOOTSTAT_STATE [] = 1 ∧ t.rd Reg.TOP_MODE_PHASE [] = 2 ∧ t.rd Reg.TOP_HARVEST_PLOT_EN [] = 0 ∧
        t.rd Reg.TOP_PINSTAT_VCORE_PG [] = 0 ∧ t.rd Reg.TOP_PINSTAT_VCORE_EN [] = 1 ∧ t.rd Reg.TOP_PINSTAT_VID [] = 0x64 ∧
        (s.boot.fabricReset = false → t.boot.fabricCmd = some (f.val, i.val) ∧ t.boot.fabricAt = s.now) ∧ t.hbm = s.hbm) ∧
      (c.fld 8 1 = 2 → ∃ t, exec (.devReset f i) s = .next t ∧ t.rd Reg.TOP_RSTCAUSE_ISLAND [] = 1 ∧
        t.rd Reg.TOP_BOOTSTAT_STATE [] = 0 ∧ t.rd Reg.CLO_WDT_EN [] = 0 ∧ t.boot.restarting = true ∧
        t.boot.islandCmd = some (f.val, i.val) ∧ t.cmd? f i = some { c with started := true, waiting := true } ∧
        t.hbm = s.hbm ∧ t.jobs = s.jobs ∧ t.tbls = s.tbls ∧ t.tenants = s.tenants) ∧
      (c.fld 8 1 ≠ 1 → c.fld 8 1 ≠ 2 → ∃ t u, exec (.devReset f i) s = .next t ∧
        Answers s u f i .badParam (failBody 8 0 (c.fld 8 1)) ∧ Settles u t)) ∧
    (s.boot.fabricReset = true → s.coreUp = true → s.boot.bistDone = true → s.boot.trained = true → s.boot.hostResetHeld = false →
      ∃ t, exec .fabricResetComplete s = .next t ∧ t.rd Reg.TOP_BOOTSTAT_STATE [] = 2 ∧ t.rd Reg.TOP_MODE_PHASE [] = 8 ∧
        t.boot.fabricReset = false ∧ t.hbm = s.hbm ∧
        (∀ f i c, s.boot.fabricCmd = some (f, i) → s.cmd? f i = some c → t.resultOf f i = some (0, leBytes 8 s.now))) ∧
    (s.boot.fabricReset = true → s.boot.fabricAt + msCounts 250 ≤ s.now →
      ∃ t, exec .fabricResetTimeout s = .next t ∧ t.rd Reg.TOP_FAULT_RESET_FAIL [] = 1 ∧ t.rd Reg.TOP_MODE_MODE [] = 3 ∧
        t.rd Reg.TOP_PINSTAT_VCORE_EN [] = 0 ∧ t.boot.fabricReset = false ∧ (∀ n, n < 8 → t.portState n = psDown) ∧
        t.hbm = s.hbm)

/-- VCORE_BROWNOUT sets FAULT.BROWNOUT, PINSTAT.BROWNOUT and RSTCAUSE.BROWNOUT; HBM_CONTROLLER_FAULT of a working stack
sets FAULT.HBM_CTRL and the stack's bit; both start a fabric reset (RSTCAUSE.FABRIC, STATE FW_INIT, VCORE_PG low,
VCORE_EN high). THERMAL_TRIP at 115.0 C or more sets THERMTRIP, FAULT.THERMAL and RSTCAUSE.THERMAL, mode HALTED,
VCORE_EN low and every port DOWN. HBM_SCRUB that finds a correctable error in a clean unit counts CE alone; one that
finds nothing changes nothing; one that finds an uncorrectable error marks the unit poisoned. HBM's bytes are
unchanged by all. (R65, R96, R619, R633.) -/
def Obligations.DieFaultsAreShownAndReset : Prop :=
  ∀ s : State, s.coreUp = true →
    (s.on Reg.TOP_PINSTAT_VCORE_EN [] = true → ∃ t, exec .vcoreBrownout s = .next t ∧ t.rd Reg.TOP_FAULT_BROWNOUT [] = 1 ∧
      t.rd Reg.TOP_PINSTAT_BROWNOUT [] = 1 ∧ t.rd Reg.TOP_RSTCAUSE_BROWNOUT [] = 1 ∧ t.rd Reg.TOP_RSTCAUSE_FABRIC [] = 1 ∧
      t.rd Reg.TOP_BOOTSTAT_STATE [] = 1 ∧ t.rd Reg.TOP_PINSTAT_VCORE_PG [] = 0 ∧ t.rd Reg.TOP_PINSTAT_VCORE_EN [] = 1 ∧
      t.hbm = s.hbm) ∧
    (∀ n : Fin 6, s.boot.trained = true → s.stackOk n = true → ∃ t, exec (.hbmControllerFault n) s = .next t ∧
      t.rd Reg.TOP_FAULT_HBM_CTRL [] = 1 ∧ bitOf (t.rd Reg.TOP_FAULT_STACK []) n = true ∧ t.rd Reg.TOP_RSTCAUSE_FABRIC [] = 1 ∧
      t.rd Reg.TOP_BOOTSTAT_STATE [] = 1 ∧ t.rd Reg.TOP_PINSTAT_VCORE_PG [] = 0 ∧ t.rd Reg.TOP_PINSTAT_VCORE_EN [] = 1 ∧
      t.hbm = s.hbm) ∧
    (∀ (n : Fin 32) (temp : Nat), (115 + 64) * 8 ≤ temp % 4096 → ∃ t, exec (.thermalTrip n temp) s = .next t ∧
      t.rd Reg.TOP_PINSTAT_THERMTRIP [] = 1 ∧ t.rd Reg.TOP_FAULT_THERMAL [] = 1 ∧ t.rd Reg.TOP_RSTCAUSE_THERMAL [] = 1 ∧
      t.rd Reg.TOP_MODE_MODE [] = 3 ∧ t.rd Reg.TOP_PINSTAT_VCORE_EN [] = 0 ∧ t.rd Reg.TOP_PINSTAT_VID [] = 0 ∧
      (∀ k, k < 8 → t.portState k = psDown) ∧ t.hbm = s.hbm) ∧
    (∀ (n : Fin 6) (unit : Nat), s.boot.trained = true → s.stackOk n = true → unit < stackBytes / 32 →
      (∃ t, exec (.hbmScrub n unit .clean) s = .next t ∧ t = s) ∧
      (s.hbmPoison.contains (n * (stackBytes / 32) + unit) = false →
        (∃ t, exec (.hbmScrub n unit .corrected) s = .next t ∧ t = s.satInc Reg.TOP_HBM_ECC_CE [n] 1) ∧
        (∀ w, ∃ t, exec (.hbmScrub n unit (.uncorrectable w)) s = .next t ∧
          t.hbmPoison = (n * (stackBytes / 32) + unit) :: s.hbmPoison ∧ t.hbm = s.hbm ∧ t.plots = s.plots)))

/-- BAR2_RESIZE to 1 to 256 GiB takes the size and changes only the PF's window registers besides. WIN_SET of a function
and aperture with a base on the aperture's size, inside HBM that the function holds, writes BASE, EN and WRITE_EN and
answers OK; a function above 15 answers BAD_PARAM with FIELD 8, an aperture above 15 FIELD 9, and nothing is written.
A BAR2 read of one aperture that maps working HBM free of poison completes with the bytes there; an aperture that maps
nothing completes with zeros and a violation WIN_UNMAPPED. A BAR2 write of one mapped aperture puts the enabled bytes
and no others. (R177, R178, R179.) -/
def Obligations.WindowsAndApertures : Prop :=
  ∀ (s : State) (f : Fin 16),
    (∀ n, 30 ≤ n → n ≤ 38 → s.hostReach 0 = true → ∃ t, exec (.bar2Resize n) s = .next t ∧ t.mbx.bar2Log2 = n ∧
      OnlyRegs { s with mbx := { s.mbx with bar2Log2 := n } } t ((List.range 16).flatMap (fun k =>
        [Reg.MBX_WIN_BASE.key [0, k], Reg.MBX_WIN_EN.key [0, k], Reg.MBX_WIN_WRITE_EN.key [0, k]]))) ∧
    (∀ (i : Fin 128) (c : Cmd), Startable s f i 0x106 c →
      (15 < c.fld 8 1 → ∃ t, exec (.winSet f i) s = .next t ∧ Answers s t f i .badParam (failBody 8 0 (c.fld 8 1))) ∧
      (c.fld 8 1 ≤ 15 → 15 < c.fld 9 1 → ∃ t, exec (.winSet f i) s = .next t ∧
        Answers s t f i .badParam (failBody 9 0 (c.fld 9 1))) ∧
      (c.fld 8 1 ≤ 15 → c.fld 9 1 ≤ 15 → c.fld 12 4 * 2 ^ 26 % s.apertureBytes (c.fld 8 1) = 0 → c.fld 12 4 * 2 ^ 26 ≤ hbmBytes →
        (bitOf (c.fld 10 1) 0 = true → s.holdsHbm (c.fld 8 1) (c.fld 12 4 * 2 ^ 26) (s.apertureBytes (c.fld 8 1)) = true) →
        ∃ t, exec (.winSet f i) s = .next t ∧ Answers (((s.wr Reg.MBX_WIN_BASE [c.fld 8 1, c.fld 9 1] (c.fld 12 4)).wrb
          Reg.MBX_WIN_EN [c.fld 8 1, c.fld 9 1] (bitOf (c.fld 10 1) 0)).wrb Reg.MBX_WIN_WRITE_EN [c.fld 8 1, c.fld 9 1]
          (bitOf (c.fld 10 1) 1)) t f i .ok [])) ∧
    (∀ k x n, s.hostReach f = true → k < 16 → 0 < n → x + n ≤ s.apertureBytes f →
      (∀ a, s.bar2Target f k x n false = some a → s.hbmPoisoned a n = false →
        ∃ t, exec (.bar2Read f (k * s.apertureBytes f + x) n) s = .next t ∧
          t.outs = .completion f (s.hbmRead a n) false :: s.outs ∧ t.hbm = s.hbm ∧ t.plots = s.plots ∧ t.mbx = s.mbx) ∧
      (s.bar2Target f k x n false = none → ∃ t, exec (.bar2Read f (k * s.apertureBytes f + x) n) s = .next t ∧
        t.outs.head? = some (.completion f (fill n 0) false) ∧ t.rd Reg.MBX_STATUS_LAST_CODE [f] = vWinUnmapped ∧ t.hbm = s.hbm) ∧
      (∀ (data : List Byte) (en : List Bool) (a : Nat), data.length = n → s.bar2Target f k x n true = some a →
        ∃ t, exec (.bar2Write f (k * s.apertureBytes f + x) data en) s = .next t ∧
          (∀ j, j < n → t.hbmByte (a + j) = (if en.getD j true then data.getD j 0 else s.hbmByte (a + j))) ∧
          (∀ b, b < a ∨ a + n ≤ b → t.hbmByte b = s.hbmByte b) ∧ t.plots = s.plots ∧ t.mbx = s.mbx))

/-- TENANT_ASSIGN whose checks pass writes the VF's plots, ports and ranges and takes the plots from the other VFs; one
that fails a check answers that failure. STORE_CLEAR_COMPLETE ends the clear: CLEAR_BUSY 0, CLEAR_GEN counted, every
row zero and EMPTY. FLR of a reachable function frees its result slots, forgets its commands and advances its mailbox
epoch. VF_ENABLE adds VFs 1 to n and changes nothing else. VF_DISABLE removes one VF and its assignment. HOST_RESET of
a serving die outside a fabric reset sets RSTCAUSE.HOST and leaves no VF and no assignment; during one it is held. HBM
is unchanged by all. (R98, R152, R171, R197, R284, R626.) -/
def Obligations.TenancyAndFunctionResets : Prop :=
  ∀ (s : State) (f : Fin 16),
    (∀ (i : Fin 128) (c : Cmd), Startable s f i 0x105 c →
      (∀ e, s.tenantBad c = some e → ∃ t u, exec (.tenantAssign f i) s = .next t ∧
        Answers s u f i e.1 (failBody e.2.1 e.2.2.1 e.2.2.2) ∧ Settles u t) ∧
      (s.tenantBad c = none → ∃ t, exec (.tenantAssign f i) s = .next t ∧ t.hbm = s.hbm ∧
        t.tenant (c.fld 8 1) = { plots := c.fld 10 2, ports := c.fld 12 1, ranges := c.tenantRanges.map (fun r => (r.2.1, r.2.2)) } ∧
        t.tenants = FMap.set (takePlots s.tenants (c.fld 8 1) (c.fld 10 2)) {} (c.fld 8 1) (t.tenant (c.fld 8 1)))) ∧
    (∀ p : Fin 16, s.coreUp = true → s.on Reg.STO_STAT_CLEAR_BUSY [p] = true → ∃ t, exec (.storeClearComplete p) s = .next t ∧
      t.rd Reg.STO_STAT_CLEAR_BUSY [p] = 0 ∧
      t.rd Reg.STO_STAT_CLEAR_GEN [p] = (s.rd Reg.STO_STAT_CLEAR_GEN [p] + 1) % 2 ^ Reg.STO_STAT_CLEAR_GEN.wid ∧
      (∀ st row, t.rowBytes p st row = zeroRow ∧ t.tagFull p st row = false) ∧ t.hbm = s.hbm) ∧
    (s.served = true → s.hostReach f = true → ∃ t, exec (.flr f) s = .next t ∧
      (∀ i, i < 128 → t.slot f i = {}) ∧ (∀ c, c ∈ t.mbx.cmds → c.func ≠ f) ∧
      t.rd Reg.TOP_MBX_EPOCH_EPOCH [f] = epochNext (s.rd Reg.TOP_MBX_EPOCH_EPOCH [f]) ∧ t.hbm = s.hbm) ∧
    (∀ n, s.hostReach 0 = true → ∃ t, exec (.vfEnable n) s = .next t ∧
      (∀ g, g < 16 → bitOf t.mbx.vfs g = (bitOf s.mbx.vfs g || (1 ≤ g && g ≤ n))) ∧
      t = { s with mbx := { s.mbx with vfs := t.mbx.vfs } }) ∧
    (f ≠ 0 → bitOf s.mbx.vfs f = true → ∃ t, exec (.vfDisable f) s = .next t ∧ bitOf t.mbx.vfs f = false ∧
      t.tenants = FMap.erase s.tenants f ∧ t.hbm = s.hbm) ∧
    (s.served = true → s.boot.fabricReset = false → ∃ t, exec (.hostReset .hotReset) s = .next t ∧
      t.rd Reg.TOP_RSTCAUSE_HOST [] = 1 ∧ t.mbx.vfs = 0 ∧ t.tenants = [] ∧ (∀ c, c ∈ t.mbx.cmds → 16 ≤ c.func) ∧ t.hbm = s.hbm) ∧
    (s.served = true → s.boot.fabricReset = true → ∃ t, exec (.hostReset .hotReset) s = .next t ∧
      Settles { s with boot := { s.boot with hostResetHeld := true } } t)

/-- POWER_SAMPLE shows both codes, judges the die over by the cap and T_LIMIT, and while accounting adds the sample's
energy to the die and to each VF its share by activity, all of it to the PF when no function was active. LIMITER_STEP
lowers the limit code by 1 while over, raises it by 1 when the die has been not over long enough at 0.97 of the cap,
and otherwise keeps it; LIMITED then says that it lies below the target. VID_STEP moves VID by one code toward its
goal and holds the next change for 1 us. GOVERNOR_LOOP writes the loop's target, which lies between the floor and the
ceiling in force. None changes HBM, plots, flash or jobs. (R48, R598, R599, R601, R606.) -/
def Obligations.LimiterVidAndGovernor : Prop :=
  ∀ s : State,
    (∀ core board, s.boot.rails = true → s.on Reg.PWR_STAT_CUT [] = false → ∃ t, exec (.powerSample core board) s = .next t ∧
      t.rd Reg.PWR_IMON_CORE [] = core % 4096 ∧ t.rd Reg.PWR_IMON_BOARD [] = board % 4096 ∧
      t.gov.isOver = (decide (s.rd Reg.PWR_FAST_CAP_W [] * 4096 < board % 4096 * 1200) || s.overTemp) ∧
      (s.on Reg.PWR_CTL_ACCT_EN [] = true →
        t.rd Reg.PWR_E_DIE_OPEN_NJ [] = (s.rd Reg.PWR_E_DIE_OPEN_NJ [] + sampleNJ (board % 4096)) % 2 ^ 64 ∧
        (∀ f, 0 < f → f < 16 → ((List.range 16).map s.activity).sum ≠ 0 → t.rd Reg.PWR_E_OPEN_NJ [f] =
          (s.rd Reg.PWR_E_OPEN_NJ [f] + sampleNJ (board % 4096) * s.activity f / ((List.range 16).map s.activity).sum) % 2 ^ 64) ∧
        (((List.range 16).map s.activity).sum = 0 → t.rd Reg.PWR_E_OPEN_NJ [0] =
          (s.rd Reg.PWR_E_OPEN_NJ [0] + sampleNJ (board % 4096)) % 2 ^ 64)) ∧
      (s.on Reg.PWR_CTL_ACCT_EN [] = false → t.rd Reg.PWR_E_DIE_OPEN_NJ [] = s.rd Reg.PWR_E_DIE_OPEN_NJ []) ∧
      t.hbm = s.hbm ∧ t.plots = s.plots ∧ t.flash = s.flash ∧ t.jobs = s.jobs) ∧
    (∃ t, exec .limiterStep s = .next t ∧
      t.rd Reg.PWR_LIMIT_CODE [] =
        (if s.gov.isOver = true then
          (if s.gov.lowerAt ≤ s.now ∧ 0x28 < s.rd Reg.PWR_LIMIT_CODE [] then s.rd Reg.PWR_LIMIT_CODE [] - 1
           else s.rd Reg.PWR_LIMIT_CODE [])
        else if s.rd Reg.PWR_LIMIT_CODE [] < 0xA0 ∧ s.gov.notOverSince + usCounts 100 ≤ s.now ∧ s.gov.raiseAt ≤ s.now ∧
            s.gov.power * 1200 * 100 ≤ s.rd Reg.PWR_FAST_CAP_W [] * 4096 * 97 then s.rd Reg.PWR_LIMIT_CODE [] + 1
        else s.rd Reg.PWR_LIMIT_CODE []) ∧
      (t.rd Reg.PWR_STAT_LIMITED [] = 1 ↔ t.rd Reg.PWR_LIMIT_CODE [] < s.rd Reg.PWR_TARGET_CODE []) ∧
      t.hbm = s.hbm ∧ t.plots = s.plots ∧ t.flash = s.flash ∧ t.jobs = s.jobs) ∧
    (s.on Reg.TOP_PINSTAT_VCORE_EN [] = true → s.boot.vidAt ≤ s.now → s.rd Reg.TOP_PINSTAT_VID [] ≠ s.vidGoal →
      ∃ t, exec .vidStep s = .next t ∧
        t.rd Reg.TOP_PINSTAT_VID [] = (if s.rd Reg.TOP_PINSTAT_VID [] < s.vidGoal then s.rd Reg.TOP_PINSTAT_VID [] + 1
          else s.rd Reg.TOP_PINSTAT_VID [] - 1) ∧
        t.rd Reg.PWR_STAT_VID [] = t.rd Reg.TOP_PINSTAT_VID [] ∧ t.boot.vidAt = s.now + usCounts 1 ∧
        t.hbm = s.hbm ∧ t.plots = s.plots ∧ t.flash = s.flash ∧ t.jobs = s.jobs) ∧
    (s.govRuns = true → ∃ t, exec .governorLoop s = .next t ∧ t.rd Reg.PWR_TARGET_CODE [] = s.loopTarget ∧
      s.floorNow ≤ s.loopTarget ∧ s.loopTarget ≤ s.ceilNow ∧
      t.hbm = s.hbm ∧ t.plots = s.plots ∧ t.flash = s.flash ∧ t.jobs = s.jobs)

/-- DEMAND_INTERVAL_CLOSE when a close is due and no cut is registered copies the open energies, start and length to the
closed registers, zeroes the open ones, starts the next interval now at the RTC second, and clears LOGGED.
INTERVAL_LOG of a closed, unlogged interval writes its records and sets LOGGED, or notes that records wait. ACCT_EN
starts a SHORT interval with zero energies; on a DORMANT die it changes nothing. RTC_SET writes the second; while
accounting it closes the interval with RTC_SET and the next is SHORT. None changes HBM, plots or jobs. (R531, R603,
R604, R607.) -/
def Obligations.DemandIntervalsAndTime : Prop :=
  ∀ s : State, s.on Reg.PWR_STAT_CUT [] = false →
    (s.gov.closeDue = true → ∃ t, exec .demandIntervalClose s = .next t ∧ t.gov.closeDue = false ∧ t.gov.haveClosed = true ∧
      (∀ f, f < 16 → t.rd Reg.PWR_E_CLOSED_NJ [f] = s.rd Reg.PWR_E_OPEN_NJ [f] ∧ t.rd Reg.PWR_E_OPEN_NJ [f] = 0) ∧
      t.rd Reg.PWR_E_DIE_CLOSED_NJ [] = s.rd Reg.PWR_E_DIE_OPEN_NJ [] ∧ t.rd Reg.PWR_E_DIE_OPEN_NJ [] = 0 ∧
      t.rd Reg.PWR_IV_CLOSED_TB_TB [] = s.rd Reg.PWR_IV_OPEN_TB_TB [] ∧ t.rd Reg.PWR_IV_OPEN_TB_TB [] = s.now ∧
      t.rd Reg.PWR_IV_OPEN_RTC_START [] = s.rd Reg.CLO_RTC_SEC_SEC [] ∧ t.rd Reg.PWR_IV_CLOSED_F_LOGGED [] = 0 ∧
      t.hbm = s.hbm ∧ t.plots = s.plots ∧ t.jobs = s.jobs) ∧
    (s.fwRuns = true → s.gov.haveClosed = true → s.on Reg.PWR_IV_CLOSED_F_LOGGED [] = false → s.gov.logWaiting = false →
      ∃ t, exec .intervalLog s = .next t ∧
        ((t.rd Reg.PWR_IV_CLOSED_F_LOGGED [] = 1 ∧ t.flash.logWait = []) ∨
          (t.gov.logWaiting = true ∧ t.flash.logWait ≠ [] ∧ t.rd Reg.PWR_IV_CLOSED_F_LOGGED [] = 0)) ∧
        t.hbm = s.hbm ∧ t.plots = s.plots ∧ t.jobs = s.jobs) ∧
    (s.role = 2 → ∃ t, exec .acctEn s = .next t ∧ t = s) ∧
    (s.role ≠ 2 → s.on Reg.PWR_CTL_ACCT_EN [] = false → ∃ t, exec .acctEn s = .next t ∧ t.rd Reg.PWR_CTL_ACCT_EN [] = 1 ∧
      t.rd Reg.PWR_IV_OPEN_TB_TB [] = s.now ∧ (∀ f, f < 16 → t.rd Reg.PWR_E_OPEN_NJ [f] = 0) ∧
      t.rd Reg.PWR_E_DIE_OPEN_NJ [] = 0 ∧ t.gov.openIv.short = true ∧ t.hbm = s.hbm ∧ t.plots = s.plots ∧ t.jobs = s.jobs) ∧
    (∀ (src : Src) (sec : Nat), s.mayWrite src = true →
      (s.on Reg.PWR_CTL_ACCT_EN [] = false → ∃ t, exec (.rtcSet src sec) s = .next t ∧
        t.rd Reg.CLO_RTC_SEC_SEC [] = sec % 2 ^ 32 ∧ OnlyRegs s t [Reg.CLO_RTC_SEC_SEC.key []]) ∧
      (s.on Reg.PWR_CTL_ACCT_EN [] = true → ∃ t, exec (.rtcSet src sec) s = .next t ∧
        t.rd Reg.CLO_RTC_SEC_SEC [] = sec % 2 ^ 32 ∧ t.rd Reg.PWR_IV_OPEN_RTC_START [] = sec % 2 ^ 32 ∧
        t.rd Reg.PWR_E_DIE_CLOSED_NJ [] = s.rd Reg.PWR_E_DIE_OPEN_NJ [] ∧ t.rd Reg.PWR_E_DIE_OPEN_NJ [] = 0 ∧
        t.gov.openIv.short = true ∧ t.hbm = s.hbm ∧ t.plots = s.plots ∧ t.jobs = s.jobs))

/-- By an agent that may write and in a powered domain: a COMMIT of a set that disagrees sets REFUSED, counts TOP_CFGERR,
records the commit register's offset and KIND 1 when none stands, and keeps the active and the captured set; one of a
coalescing set that agrees takes effect at once, the active copy equal to the staging copy and GEN counted; one of a
tariff set while accounting waits with PENDING and the staging copy captured. STAGED_SET_EFFECT of a pending directory
slot with idle Sieves writes the captured set, clears PENDING and counts GEN; of a set not pending it changes nothing.
DISCARD copies the active copy into the staging copy. A direct pair that would agree takes the value; one that would
not keeps it and is counted. (R125, R127, R128, R130, R131, R133, R134.) -/
def Obligations.StagedSetsAndDirectPairs : Prop :=
  ∀ (s : State) (src : Src), s.mayWrite src = true →
    (∀ x : StagedSet, s.setReach x = true → s.agrees x = false → ∃ t, exec (.commit src x) s = .next t ∧
      t.rd (cRefused x) [] = 1 ∧ t.captured = s.captured ∧
      t.rd Reg.TOP_CFGERR_CNT_COUNT [] = satAdd Reg.TOP_CFGERR_CNT_COUNT.wid (s.rd Reg.TOP_CFGERR_CNT_COUNT []) 1 ∧
      (s.on Reg.TOP_CFGERR_VALID [] = false → t.rd Reg.TOP_CFGERR_VALID [] = 1 ∧ t.rd Reg.TOP_CFGERR_KIND [] = 1 ∧
        t.rd Reg.TOP_CFGERR_OFFSET [] = commitAddr x ∧ t.rd Reg.TOP_CFGERR_AGENT [] = Src.agentCode src) ∧
      (∀ e, e ∈ setFields x → t.rdA e.1 e.2 = s.rdA e.1 e.2)) ∧
    (∀ f : Fin 16, s.agrees (.coal f) = true → ∃ t, exec (.commit src (.coal f)) s = .next t ∧
      (∀ e, e ∈ setFields (.coal f) → t.rdA e.1 e.2 = s.rd e.1 e.2 ∧ t.rd e.1 e.2 = s.rd e.1 e.2) ∧
      t.rd (cPending (.coal f)) [] = 0 ∧ t.rd (cGen (.coal f)) [] = (s.rd (cGen (.coal f)) [] + 1) % 256 ∧ t.hbm = s.hbm) ∧
    (s.agrees .tariff = true → s.on Reg.PWR_CTL_ACCT_EN [] = true → ∃ t, exec (.commit src .tariff) s = .next t ∧
      t.rd (cPending .tariff) [] = 1 ∧
      (∀ e, e ∈ setFields .tariff → t.cap e.1 e.2 = s.rd e.1 e.2 ∧ t.rdA e.1 e.2 = s.rdA e.1 e.2) ∧ t.hbm = s.hbm) ∧
    (∀ n : Fin 256, s.coreUp = true → s.sieves = [] → s.on (cPending (.sivDir n)) [] = true →
      ∃ t, exec (.stagedSetEffect (.sivDir n)) s = .next t ∧ t.rd (cPending (.sivDir n)) [] = 0 ∧
        (∀ e, e ∈ setFields (.sivDir n) → t.rdA e.1 e.2 = s.cap e.1 e.2 % 2 ^ 32) ∧
        t.rd (cGen (.sivDir n)) [] = (s.rd (cGen (.sivDir n)) [] + 1) % 256 ∧ t.hbm = s.hbm) ∧
    (∀ x : StagedSet, s.on (cPending x) [] = false → ∃ t, exec (.stagedSetEffect x) s = .next t ∧ Settles s t) ∧
    (∀ x : StagedSet, s.setReach x = true → ∃ t, exec (.discard src x) s = .next t ∧
      (∀ e, e ∈ setFields x → t.rd e.1 e.2 = s.rdA e.1 e.2) ∧
      OnlyRegs s t ((setFields x).map (fun e => e.1.key e.2))) ∧
    (∀ (p : DirectPair) (second : Bool) (v : Nat), s.pairReach p = true →
      (s.pairAccepts p second v = true → ∃ t, exec (.directPairWrite src p second v) s = .next t ∧
        t.rd (if second then (pairFields p).2 else (pairFields p).1).1 (if second then (pairFields p).2 else (pairFields p).1).2 =
          v % 2 ^ (if second then (pairFields p).2 else (pairFields p).1).1.wid ∧ t.hbm = s.hbm ∧ t.plots = s.plots) ∧
      (s.pairAccepts p second v = false → ∃ t, exec (.directPairWrite src p second v) s = .next t ∧
        t.rd (pairFields p).1.1 (pairFields p).1.2 = s.rd (pairFields p).1.1 (pairFields p).1.2 ∧
        t.rd (pairFields p).2.1 (pairFields p).2.2 = s.rd (pairFields p).2.1 (pairFields p).2.2 ∧
        t.rd Reg.TOP_CFGERR_VALID [] = 1 ∧ t.rd Reg.TOP_CFGERR_CNT_COUNT [] =
          satAdd Reg.TOP_CFGERR_CNT_COUNT.wid (s.rd Reg.TOP_CFGERR_CNT_COUNT []) 1 ∧ t.hbm = s.hbm ∧ t.plots = s.plots))

/-- A host write to a function that is not reachable changes nothing. A PF write of a wrong width or alignment is logged
as ACCESS_WIDTH; a 4-byte Run-mode write to a firmware-owned register outside the pages is logged as REG_REFUSED; both
leave every other register outside the pages and Hedge as it was. The Bench core's write of a vector's coalescing word
replaces COUNT and TIME of that vector alone. DIAG_REG_READ answers BAD_PARAM for a misaligned address (FIELD 8) or a
count outside 1 to 30 (FIELD 12), else the words. SMBUS_REGISTER_READ answers count words, or does not acknowledge a
count outside 1 to 8. (R9, R174, R613, R644, R645.) -/
def Obligations.RegisterAccesses : Prop :=
  ∀ s : State,
    (∀ (f : Fin 16) (a len v : Nat), s.hostReach f = false → ∃ t, exec (.registerWrite (.host f) a len v) s = .next t ∧ Settles s t) ∧
    (∀ (a len v : Nat), s.hostReach 0 = true → a + len ≤ 2 ^ 26 → a < 0x100000 ∨ 0x200000 ≤ a →
      (len ≠ 4 → len ≠ 8 → ∃ t u, exec (.registerWrite (.host 0) a len v) s = .next t ∧ Quiet s u ∧ Settles u t ∧
        t.rd Reg.MBX_STATUS_LAST_CODE [0] = vAccessWidth) ∧
      (∀ p, s.isRun = true → len = 4 → a % 4 = 0 → s.placeAt a = some p → p.mirror = false → p.row.vis ≠ .H →
        ∃ t u, exec (.registerWrite (.host 0) a len v) s = .next t ∧ Quiet s u ∧ Settles u t ∧
          t.rd Reg.MBX_STATUS_LAST_CODE [0] = vRegRefused)) ∧
    (∀ (f : Fin 16) (k : Fin 128) (v : Nat), s.boot.porstN = true → s.on Reg.TOP_PINSTAT_MAIN_PG [] = true →
      ∃ t u, exec (.registerWrite .bench (Reg.HDG_COAL_COUNT.addr [f, k]) 4 v) s = .next t ∧ Settles u t ∧
        u.rd Reg.HDG_COAL_COUNT [f, k] = bitsOf v 0 8 ∧ u.rd Reg.HDG_COAL_TIME_US [f, k] = bitsOf v 8 16 ∧
        OnlyRegs s u [Reg.HDG_COAL_COUNT.key [f, k], Reg.HDG_COAL_TIME_US.key [f, k]]) ∧
    (∀ (f : Fin 16) (i : Fin 128) (c : Cmd), Startable s f i 0x902 c →
      (c.fld 8 4 % 4 ≠ 0 → ∃ t u, exec (.diagRegRead f i) s = .next t ∧ Settles u t ∧
        Answers s u f i .badParam (failBody 8 0 (c.fld 8 4))) ∧
      (c.fld 8 4 % 4 = 0 → c.fld 12 1 = 0 ∨ 30 < c.fld 12 1 → ∃ t u, exec (.diagRegRead f i) s = .next t ∧ Settles u t ∧
        Answers s u f i .badParam (failBody 12 0 (c.fld 12 1))) ∧
      (c.fld 8 4 % 4 = 0 → 1 ≤ c.fld 12 1 → c.fld 12 1 ≤ 30 → (∀ k, k < c.fld 12 1 → (busRead s (c.fld 8 4 + 4 * k)).2 = s) →
        ∃ t u, exec (.diagRegRead f i) s = .next t ∧ Settles u t ∧ Answers s u f i .ok
          ((List.range (c.fld 12 1)).flatMap (fun k => leBytes 4 (busRead s (c.fld 8 4 + 4 * k)).1)))) ∧
    (∀ (p : Fin 2) (off count : Nat), s.boot.porstN = true →
      ((count = 0 ∨ 8 < count) → ∃ t, exec (.smbusRegisterRead p off count) s = .next t ∧ t = s.emit (.nack p)) ∧
      (1 ≤ count → count ≤ 8 → ∃ t, exec (.smbusRegisterRead p off count) s = .next t ∧
        t = s.emit (.smbus p ((List.range count).flatMap (fun k => leBytes 4 (s.smbusWord (off / 4 * 4 + 4 * k)))))))

/-- A doorbell of 1 to 128 commands whose slots are free takes PI and makes each slot BUSY with the entry's TAG and
NOTIFY, and no other slot; on a disabled ring or an overrun it is logged and no slot changes. An aligned ring write
puts the bytes of free entries and no others. RETIRE of a READY slot with its TAG frees that slot alone; otherwise it
is logged and the slot stays. RING_ENABLE zeroes both indices and frees every slot of the function; RING_DISABLE acts
only when every slot is free. HBM, plots and fetched commands are unchanged. (R156, R157, R158, R163, R164, R170,
R172.) -/
def Obligations.RingsAndSlots : Prop :=
  ∀ (s : State) (f : Fin 16), s.hostReach f = true →
    (∀ p, s.on Reg.MBX_RING_CTL_ENABLE [f] = true →
      let d := (p % 65536 + 65536 - s.rd Reg.MBX_RING_PTR_PI [f]) % 65536
      (1 ≤ d → d ≤ 128 → s.slotsFree f (s.rd Reg.MBX_RING_PTR_PI [f]) d = true → ∃ t, exec (.doorbell f p) s = .next t ∧
        t.rd Reg.MBX_RING_PTR_PI [f] = p % 65536 ∧
        (∀ k, k < d → t.slot f ((s.rd Reg.MBX_RING_PTR_PI [f] + k) % 128) = ⟨.busy,
            fieldAt (s.ringEntry f ((s.rd Reg.MBX_RING_PTR_PI [f] + k) % 128)) 2 2,
            bitOf (fieldAt (s.ringEntry f ((s.rd Reg.MBX_RING_PTR_PI [f] + k) % 128)) 4 1) 0, 0, []⟩) ∧
        (∀ i, i < 128 → (∀ k, k < d → i ≠ (s.rd Reg.MBX_RING_PTR_PI [f] + k) % 128) → t.slot f i = s.slot f i) ∧
        t.hbm = s.hbm ∧ t.plots = s.plots ∧ t.mbx.cmds = s.mbx.cmds) ∧
      ((128 < d ∨ s.slotsFree f (s.rd Reg.MBX_RING_PTR_PI [f]) d = false) → d ≠ 0 → ∃ t, exec (.doorbell f p) s = .next t ∧
        Quiet s t ∧ t.rd Reg.MBX_STATUS_LAST_CODE [f] = vRingOverrun)) ∧
    (∀ p, s.on Reg.MBX_RING_CTL_ENABLE [f] = false → ∃ t, exec (.doorbell f p) s = .next t ∧ Quiet s t ∧
      t.rd Reg.MBX_STATUS_LAST_CODE [f] = vRingDisabled) ∧
    (∀ (o : Nat) (data : List Byte), o % 4 = 0 → data.length % 4 = 0 → 4 ≤ data.length → data.length ≤ 512 → o + data.length ≤ 8192 →
      ∃ t, exec (.ringEntryWrite f o data) s = .next t ∧
        (∀ k, k < data.length → t.ringByte f (o + k) =
          (if (s.slot f ((o + k) / 64)).state = .free then data.getD k 0 else s.ringByte f (o + k))) ∧
        (∀ b, b < 8192 → (b < o ∨ o + data.length ≤ b) → t.ringByte f b = s.ringByte f b) ∧
        t.mbx.slots = s.mbx.slots ∧ t.hbm = s.hbm ∧ t.plots = s.plots ∧ t.mbx.cmds = s.mbx.cmds) ∧
    (∀ (o : Nat) (data : List Byte), o % 4 ≠ 0 → ∃ t, exec (.ringEntryWrite f o data) s = .next t ∧ Quiet s t ∧
      t.rd Reg.MBX_STATUS_LAST_CODE [f] = vAccessWidth) ∧
    (∀ (i : Fin 128) (tag : Nat),
      ((s.slot f i).state = .ready → (s.slot f i).tag = tag % 65536 → ∃ t, exec (.retire f i tag) s = .next t ∧ t = s.setSlot f i {}) ∧
      ((s.slot f i).state ≠ .ready → ∃ t, exec (.retire f i tag) s = .next t ∧ Quiet s t ∧
        t.rd Reg.MBX_STATUS_LAST_CODE [f] = vRetireNotReady) ∧
      ((s.slot f i).state = .ready → (s.slot f i).tag ≠ tag % 65536 → ∃ t, exec (.retire f i tag) s = .next t ∧ Quiet s t ∧
        t.rd Reg.MBX_STATUS_LAST_CODE [f] = vRetireTagMismatch)) ∧
    (s.on Reg.MBX_RING_CTL_ENABLE [f] = false → ∃ t, exec (.ringEnable f) s = .next t ∧ t.rd Reg.MBX_RING_CTL_ENABLE [f] = 1 ∧
      t.rd Reg.MBX_RING_PTR_PI [f] = 0 ∧ t.rd Reg.MBX_RING_PTR_CI [f] = 0 ∧ (∀ i, i < 128 → t.slot f i = {}) ∧
      (∀ g i, g ≠ f.val → i < 128 → t.slot g i = s.slot g i) ∧ t.hbm = s.hbm ∧ t.plots = s.plots ∧ t.mbx.cmds = s.mbx.cmds) ∧
    (s.on Reg.MBX_RING_CTL_ENABLE [f] = true →
      (s.slotsFree f 0 128 = true → ∃ t, exec (.ringDisable f) s = .next t ∧ t.rd Reg.MBX_RING_CTL_ENABLE [f] = 0 ∧
        OnlyRegs s t [Reg.MBX_RING_CTL_ENABLE.key [f]]) ∧
      (s.slotsFree f 0 128 = false → ∃ t, exec (.ringDisable f) s = .next t ∧ Quiet s t ∧
        t.rd Reg.MBX_RING_CTL_ENABLE [f] = 1 ∧ t.rd Reg.MBX_STATUS_LAST_CODE [f] = vRingBusy))

/-- EVQ_ENABLE of a disabled queue zeroes PI, CI and the lost count and enables it; EVQ_DISABLE clears ENABLE alone. A CI
within the unread entries is taken and, with no loss to report, nothing else changes; beyond them it is logged as
EVQ_CI_RANGE and CI stays. VIOL_CNT_CLEAR and EVQ_LOST_CLEAR zero their counter alone. MSIX_UNMASK of a vector whose
pending bit is set sends one message with the entry's address and data and clears the bit; otherwise it only unmasks.
(R167, R168, R169, R170, R172, R176.) -/
def Obligations.EventQueueAndVectors : Prop :=
  ∀ (s : State) (f : Fin 16), s.hostReach f = true →
    (s.on Reg.MBX_EVQ_CTL_ENABLE [f] = false → ∃ t, exec (.evqEnable f) s = .next t ∧ t.rd Reg.MBX_EVQ_CTL_ENABLE [f] = 1 ∧
      t.rd Reg.MBX_EVQ_PI_PI [f] = 0 ∧ t.rd Reg.MBX_EVQ_CI_CI [f] = 0 ∧ t.rd Reg.MBX_EVQ_LOST_COUNT [f] = 0 ∧
      FMap.get t.mbx.lostSince 0 f = 0 ∧
      OnlyRegs { s with mbx := { s.mbx with lostSince := t.mbx.lostSince } } t [Reg.MBX_EVQ_CTL_ENABLE.key [f],
        Reg.MBX_EVQ_PI_PI.key [f], Reg.MBX_EVQ_CI_CI.key [f], Reg.MBX_EVQ_LOST_COUNT.key [f]]) ∧
    (∃ t, exec (.evqDisable f) s = .next t ∧ t.rd Reg.MBX_EVQ_CTL_ENABLE [f] = 0 ∧ OnlyRegs s t [Reg.MBX_EVQ_CTL_ENABLE.key [f]]) ∧
    (∀ ci, (ci % 65536 + 65536 - s.rd Reg.MBX_EVQ_CI_CI [f]) % 65536 ≤ s.evqDepth f → FMap.get s.mbx.lostSince 0 f = 0 →
      ∃ t, exec (.evqCiWrite f ci) s = .next t ∧ t.rd Reg.MBX_EVQ_CI_CI [f] = ci % 65536 ∧ OnlyRegs s t [Reg.MBX_EVQ_CI_CI.key [f]]) ∧
    (∀ ci, s.evqDepth f < (ci % 65536 + 65536 - s.rd Reg.MBX_EVQ_CI_CI [f]) % 65536 →
      ∃ t, exec (.evqCiWrite f ci) s = .next t ∧ Quiet s t ∧ t.rd Reg.MBX_EVQ_CI_CI [f] = s.rd Reg.MBX_EVQ_CI_CI [f] ∧
        t.rd Reg.MBX_STATUS_LAST_CODE [f] = vEvqCiRange) ∧
    (∃ t, exec (.violCntClear f) s = .next t ∧ t.rd Reg.MBX_VIOL_CNT_COUNT [f] = 0 ∧ OnlyRegs s t [Reg.MBX_VIOL_CNT_COUNT.key [f]]) ∧
    (∃ t, exec (.evqLostClear f) s = .next t ∧ t.rd Reg.MBX_EVQ_LOST_COUNT [f] = 0 ∧ OnlyRegs s t [Reg.MBX_EVQ_LOST_COUNT.key [f]]) ∧
    (∀ v : Fin 128, ∃ t, exec (.msixUnmask f v) s = .next t ∧
      t.msixEntry f v = { s.msixEntry f v with masked := false } ∧
      (s.mbx.msixPend.contains (f * 128 + v) = false → t.outs = s.outs ∧ t.regs = s.regs) ∧
      (s.mbx.msixPend.contains (f * 128 + v) = true → t.mbx.msixPend.contains (f * 128 + v) = false ∧
        t.outs = .msix f v (s.msixEntry f v).addr (s.msixEntry f v).data :: s.outs) ∧
      t.hbm = s.hbm ∧ t.plots = s.plots ∧ t.mbx.cmds = s.mbx.cmds ∧ t.mbx.slots = s.mbx.slots)

/-- COMMAND_FETCH of running firmware with no barrier unposted and fewer than 64 commands takes the command at CI of the
first function with work after the one served last, advances CI and notes the function; with no work nothing changes.
RESULT_POST of a command with a result under the current mailbox epoch and a BUSY slot makes the slot READY with
status and body and forgets the command; under an older epoch it forgets the command and leaves every slot. HBM, plots
and jobs are unchanged. (R161, R162, R187, R190, R626.) -/
def Obligations.FetchAndPost : Prop :=
  ∀ s : State, s.fwRuns = true →
    (s.rd Reg.TOP_BOOTSTAT_STATE [] = 2 → s.mbx.cmds.any Cmd.barrier = false → (s.mbx.cmds.filter (fun c => !c.waiting)).length < 64 →
      (((List.range 16).map (fun k => (s.mbx.lastServed + 1 + k) % 16)).find? s.hasWork = none →
        ∃ t, exec .commandFetch s = .next t ∧ t = s) ∧
      (∀ f, ((List.range 16).map (fun k => (s.mbx.lastServed + 1 + k) % 16)).find? s.hasWork = some f →
        ∃ t, exec .commandFetch s = .next t ∧ t.rd Reg.MBX_RING_PTR_CI [f] = (s.rd Reg.MBX_RING_PTR_CI [f] + 1) % 65536 ∧
          t.mbx.lastServed = f ∧
          t.mbx.cmds = s.mbx.cmds ++ [⟨f, s.rd Reg.MBX_RING_PTR_CI [f] % 128, s.rd Reg.TOP_MBX_EPOCH_EPOCH [f],
            s.ringEntry f (s.rd Reg.MBX_RING_PTR_CI [f] % 128), false, false, none⟩] ∧
          OnlyRegs { s with mbx := { s.mbx with lastServed := f, cmds := t.mbx.cmds } } t [Reg.MBX_RING_PTR_CI.key [f]])) ∧
    (∀ (f : Fin 16) (i : Fin 128) (c : Cmd) (st : Nat) (body : List Byte), s.cmd? f i = some c → c.result = some (st, body) →
      (c.epoch = s.rd Reg.TOP_MBX_EPOCH_EPOCH [f] → (s.slot f i).state = .busy → ∃ t, exec (.resultPost f i) s = .next t ∧
        t.cmd? f i = none ∧
        t.slot f i = { s.slot f i with state := .ready, status := st, body := c.postedBody s.now st body } ∧
        (∀ k, k < 128 → k ≠ i.val → t.slot f k = s.slot f k) ∧ t.hbm = s.hbm ∧ t.plots = s.plots ∧ t.jobs = s.jobs) ∧
      (c.epoch ≠ s.rd Reg.TOP_MBX_EPOCH_EPOCH [f] → ∃ t, exec (.resultPost f i) s = .next t ∧ t.cmd? f i = none ∧
        t.mbx.slots = s.mbx.slots ∧ t.regs = s.regs ∧ t.hbm = s.hbm ∧ t.plots = s.plots ∧ t.jobs = s.jobs))

/-- A startable DEV_INFO, PWR_STATUS, LINK_STATUS, DIAG_ECHO, FW_INFO, CAL_STATS, PWR_ENERGY, JOB_STATUS or TBL_STATS
stages its result: the bytes of the body stand for the named values, every other fetched command and everything else
is unchanged, except that TBL_STATS with its flag set zeroes the table's counters. A handle, table, layer, function or
interval that the command cannot name answers the failure of its table, with FIELD and VALUE. (The time base of
DEV_INFO is replaced at posting, a choice of this model.) (R184, R194, R205, R215, R217, R218, R223, R418.) -/
def Obligations.InformationCommands : Prop :=
  ∀ (s : State) (f : Fin 16) (i : Fin 128) (c : Cmd),
    (Startable s f i 0x101 c → ∃ t b, exec (.devInfo f i) s = .next t ∧ Answers s t f i .ok b ∧ b.length = 40 ∧
      fieldAt b 0 8 = s.boot.serial % 2 ^ 64 ∧ fieldAt b 8 1 = s.role ∧ fieldAt b 9 1 = s.rd Reg.TOP_MODE_MODE [] ∧
      fieldAt b 12 2 = s.reportPlots f % 2 ^ 16 ∧ fieldAt b 14 1 = f ∧ fieldAt b 20 1 = s.link.dieId % 256 ∧
      fieldAt b 24 8 = s.hbmAssigned f % 2 ^ 64 ∧ fieldAt b 32 8 = s.now) ∧
    (Startable s f i 0x501 c → ∃ t b, exec (.pwrStatus f i) s = .next t ∧ Answers s t f i .ok b ∧ b.length = 32 ∧
      fieldAt b 0 1 = s.rd Reg.TOP_PINSTAT_VID [] ∧ fieldAt b 2 2 = s.capNow ∧
      fieldAt b 8 4 = s.rd Reg.PWR_IMON_BOARD [] * 1200000 / 4096 % 2 ^ 32 ∧ fieldAt b 16 8 = s.rd Reg.PWR_IV_OPEN_TB_TB []) ∧
    (Startable s f i 0xA01 c → ∃ t b, exec (.linkStatus f i) s = .next t ∧ Answers s t f i .ok b ∧ b.length = 96 ∧
      ∀ n, n < 8 → fieldAt b (12 * n) 1 = s.portState n % 256 ∧ fieldAt b (12 * n + 2) 1 = s.rd Reg.CSK_PARTNER_ID_DIE [n] % 256 ∧
        bitOf (fieldAt b (12 * n + 3) 1) 4 = s.on Reg.CSK_STAT_MISWIRED [n] ∧
        fieldAt b (12 * n + 4) 8 = s.rd Reg.CSK_PARTNER_SERIAL [n] % 2 ^ 64) ∧
    (Startable s f i 0x901 c → ∃ t, exec (.diagEcho f i) s = .next t ∧ Answers s t f i .ok ((c.desc.drop 8).take 56)) ∧
    (∀ img : ImageCheck, Startable s f i 0x601 c → ∃ t b, exec (.fwInfo f i img) s = .next t ∧ Answers s t f i .ok b ∧
      b.length = 16 ∧ fieldAt b 0 1 = s.rd Reg.TOP_BOOTSTAT_BLOCK [] ∧ fieldAt b 4 4 = s.boot.runVersion % 2 ^ 32 ∧
      fieldAt b 8 4 = (if img.reason = 0 then img.version else 0) % 2 ^ 32 ∧ fieldAt b 12 4 = s.boot.runSec % 2 ^ 32) ∧
    (Startable s f i 0x402 c → c.fld 10 1 ≤ 7 →
      (s.calEntry c = none → ∃ t, exec (.calStats f i) s = .next t ∧ Answers s t f i .noPlan (failBody 8 0 (c.fld 8 2))) ∧
      (∀ k e, s.calEntry c = some (k, e) → ∃ t b, exec (.calStats f i) s = .next t ∧ Answers s t f i .ok b ∧ b.length = 24 ∧
        fieldAt b 0 4 = e.maxAbs % 2 ^ 32 ∧ fieldAt b 8 8 = e.elems % 2 ^ 64 ∧ fieldAt b 16 4 = e.fallbacks % 2 ^ 32)) ∧
    (Startable s f i 0x504 c →
      (15 < c.fld 8 1 → ∃ t, exec (.pwrEnergy f i) s = .next t ∧ Answers s t f i .badParam (failBody 8 0 (c.fld 8 1))) ∧
      (c.fld 8 1 ≤ 15 → s.pwrEnergy (c.fld 8 1) (c.fld 12 4) = none → ∃ t, exec (.pwrEnergy f i) s = .next t ∧
        Answers s t f i .badParam (failBody 12 0 (c.fld 12 4))) ∧
      (c.fld 8 1 ≤ 15 → c.fld 12 4 = 0 → s.on Reg.PWR_CTL_ACCT_EN [] = true → ∃ t b, exec (.pwrEnergy f i) s = .next t ∧
        Answers s t f i .ok b ∧ b.length = 24 ∧ fieldAt b 0 8 = s.rd Reg.PWR_IV_OPEN_TB_TB [] ∧
        fieldAt b 12 8 = mJ (s.rd Reg.PWR_E_OPEN_NJ [c.fld 8 1])) ∧
      (c.fld 8 1 ≤ 15 → ∀ b, s.pwrEnergy (c.fld 8 1) (c.fld 12 4) = some b → ∃ t, exec (.pwrEnergy f i) s = .next t ∧
        Answers s t f i .ok b)) ∧
    (Startable s f i 0x207 c →
      (s.jobNamed f (c.fld 8 2) = none → ∃ t, exec (.jobStatus f i) s = .next t ∧
        Answers s t f i .noJob (failBody 8 0 (c.fld 8 2))) ∧
      (∀ j, s.jobNamed f (c.fld 8 2) = some j → ∃ t b, exec (.jobStatus f i) s = .next t ∧ Answers s t f i .ok b ∧ b.length = 24 ∧
        fieldAt b 0 1 = (s.job j).state % 256 ∧ fieldAt b 2 2 = (s.job j).final % 65536 ∧
        fieldAt b 4 4 = ((s.job j).batches.filter (fun x => x.phase < 2)).length % 2 ^ 32 ∧
        fieldAt b 8 8 = (s.job j).doneBatches % 2 ^ 64 ∧ fieldAt b 16 8 = (s.job j).changedAt % 2 ^ 64)) ∧
    (Startable s f i 0x305 c →
      (s.tableOf f (c.fld 8 2) = none → ∃ t, exec (.tblStats f i) s = .next t ∧
        Answers s t f i .noTable (failBody 8 0 (c.fld 8 2))) ∧
      (∀ x, s.tableOf f (c.fld 8 2) = some x → ∃ t b, exec (.tblStats f i) s = .next t ∧
        Answers (if bitOf (c.fld 10 1) 0 then s.setTbl x { s.tbl x with drops := 0, empties := 0, aborts := 0 } else s) t f i .ok b ∧
        b.length = 32 ∧ fieldAt b 0 8 = (s.tbl x).drops % 2 ^ 64 ∧ fieldAt b 8 8 = (s.tbl x).empties % 2 ^ 64 ∧
        fieldAt b 16 8 = (s.tbl x).aborts % 2 ^ 64 ∧ fieldAt b 24 4 = (s.tbl x).version % 2 ^ 32))

/-- PWR_LIMITS with codes that disagree answers CONFIG_MISMATCH and changes nothing else; with codes that agree, over a
pair in agreement, it sets the minimum and maximum code and the cap, 0 or more than the budget being the budget, and
answers the cap. PWR_TARIFF, once its buffer is read, answers TARIFF_INVALID with the first bad field or
CONFIG_MISMATCH with the first bad band, or stages the header words, commits and answers the time of the next
interval. FORECAST_RUN does nothing while the governor does not run or the engine is busy; without a usable model it
sets NO_FORECAST; otherwise it either shows four output bytes or sets NO_FORECAST. None changes HBM, plots or jobs
except by the buffer's traffic count. (R94, R216, R217, R542, R543, R597.) -/
def Obligations.PowerAndForecastCommands : Prop :=
  ∀ s : State,
    (∀ (f : Fin 16) (i : Fin 128) (c : Cmd), Startable s f i 0x503 c →
      (pairAgree .vid (c.fld 8 1) (c.fld 9 1) = false → ∃ t, exec (.pwrLimits f i) s = .next t ∧
        Answers s t f i .configMismatch (failBody 8 0 (c.fld 8 1 + 256 * c.fld 9 1))) ∧
      (pairAgree .vid (c.fld 8 1) (c.fld 9 1) = true →
        pairAgree .vid (s.rd Reg.PWR_VID_MIN_CODE []) (s.rd Reg.PWR_VID_MAX_CODE []) = true →
        ∃ t, exec (.pwrLimits f i) s = .next t ∧ t.rd Reg.PWR_VID_MIN_CODE [] = c.fld 8 1 ∧
          t.rd Reg.PWR_VID_MAX_CODE [] = c.fld 9 1 ∧
          t.rd Reg.PWR_CAP_CAP_W [] = (if c.fld 12 4 = 0 ∨ s.rd Reg.PWR_BUDGET_BUDGET_W [] < c.fld 12 4 then
            s.rd Reg.PWR_BUDGET_BUDGET_W [] else c.fld 12 4) ∧
          t.resultOf f i = some (0, leBytes 4 (t.rd Reg.PWR_CAP_CAP_W [])) ∧
          t.hbm = s.hbm ∧ t.plots = s.plots ∧ t.jobs = s.jobs)) ∧
    (∀ (f : Fin 16) (i : Fin 128) (c : Cmd) (buf : HostBuf) (b : List Byte), Startable s f i 0x502 c →
      s.buffer f (c.ref 8) 8 buf = .ok b →
      (∀ o, tariffBadField b = some o → ∃ t, exec (.pwrTariff f i buf) s = .next t ∧
        Answers (s.afterBuffer c 8) t f i .tariffInvalid (failBody 8 0 o)) ∧
      (∀ k, tariffBadField b = none → tariffBadBand b = some k → ∃ t, exec (.pwrTariff f i buf) s = .next t ∧
        Answers (s.afterBuffer c 8) t f i .configMismatch (failBody 8 0 k)) ∧
      (tariffBadField b = none → tariffBadBand b = none → ∃ t, exec (.pwrTariff f i buf) s = .next t ∧
        t.on (cPending .tariff) [] = true ∧ (∀ k, k < 4 → t.rd Reg.PWR_SCHED_HDR_WORD [k] = fieldAt b (4 * k) 4) ∧
        t.gov.pendingSource = 0 ∧ t.resultOf f i = some (0, leBytes 8 t.nextInterval) ∧
        (bitOf (c.fld 24 1) 0 = false → t.flash = s.flash) ∧ t.hbm = s.hbm ∧ t.plots = s.plots ∧ t.jobs = s.jobs)) ∧
    (s.govRuns = false ∨ s.on Reg.CME_STAT_BUSY [] = true → ∃ t, exec .forecastRun s = .next t ∧ t = s) ∧
    (s.govRuns = true → s.on Reg.CME_STAT_BUSY [] = false →
      ((s.model 0).filter (fun m => fieldAt m 0 1 == 0) = none → ∃ t, exec .forecastRun s = .next t ∧
        t.rd Reg.CLO_STATE_NO_FORECAST [] = 1 ∧
        OnlyRegs { s with cloche := t.cloche } t [Reg.CLO_STATE_NO_FORECAST.key []]) ∧
      ((s.model 0).filter (fun m => fieldAt m 0 1 == 0) ≠ none → ∃ t, exec .forecastRun s = .next t ∧
        ((t.rd Reg.CLO_STATE_NO_FORECAST [] = 1 ∧ t.rd Reg.PWR_FCST_Y0 [] = s.rd Reg.PWR_FCST_Y0 []) ∨
          (t.rd Reg.CLO_STATE_NO_FORECAST [] = 0 ∧ t.rd Reg.CME_STAT_DONE [] = 0 ∧
            ∃ y : List Byte, y.length = 4 ∧ t.rd Reg.PWR_FCST_Y0 [] = fieldAt y 0 1 ∧ t.rd Reg.PWR_FCST_Y1 [] = fieldAt y 1 1 ∧
              t.rd Reg.PWR_FCST_Y2 [] = fieldAt y 2 1 ∧ t.rd Reg.PWR_FCST_Y3 [] = fieldAt y 3 1)) ∧
        t.hbm = s.hbm ∧ t.plots = s.plots ∧ t.jobs = s.jobs ∧ t.mbx.cmds = s.mbx.cmds))

/-- EVT_ROUTE of a source that the function may route, not routed to another function, sets HEN, FUNC and VECTOR of that
source and keeps BEN; its refusals name the field. EVT_COALESCE makes COUNT and TIME of the vector active. CAL_SCALES
of a learned entry with room commits the new scales to that entry. DIAG_SELFTEST of a free plot leaves that plot's
stores undefined, of a held HBM range that range, and answers what the test found. (R215, R222, R224, R520, R550,
R561.) -/
def Obligations.EventCalibrationAndTestCommands : Prop :=
  ∀ (s : State) (f : Fin 16) (i : Fin 128) (c : Cmd),
    (Startable s f i 0x801 c →
      let src := c.fld 8 2
      let v := c.fld 10 1
      (src = 0 ∨ 1022 < src → ∃ t, exec (.evtRoute f i) s = .next t ∧ Answers s t f i .badParam (failBody 8 0 src)) ∧
      (1 ≤ src → src ≤ 1022 →
        (v < 8 ∨ 127 < v → ∃ t, exec (.evtRoute f i) s = .next t ∧ Answers s t f i .badParam (failBody 10 0 v)) ∧
        (8 ≤ v → v ≤ 127 →
          (s.routable f src = false → ∃ t, exec (.evtRoute f i) s = .next t ∧ Answers s t f i .notAssigned (failBody 8 0 src)) ∧
          (s.routable f src = true →
            (s.on Reg.HDG_SRC_HEN [src] = true → s.rd Reg.HDG_SRC_FUNC [src] ≠ f →
              ∃ t, exec (.evtRoute f i) s = .next t ∧ Answers s t f i .busy (failBody 8 0 src)) ∧
            (s.on Reg.HDG_SRC_HEN [src] = false ∨ s.rd Reg.HDG_SRC_FUNC [src] = f →
              ∃ t u, exec (.evtRoute f i) s = .next t ∧ Quiet s u ∧ Answers u t f i .ok [] ∧
                u.rd Reg.HDG_SRC_HEN [src] = c.fld 11 1 % 2 ∧ u.rd Reg.HDG_SRC_FUNC [src] = f ∧
                u.rd Reg.HDG_SRC_VECTOR [src] = v ∧ u.rd Reg.HDG_SRC_BEN [src] = s.rd Reg.HDG_SRC_BEN [src] ∧
                ∀ k, k < 1023 → k ≠ src → u.rd Reg.HDG_SRC_HEN [k] = s.rd Reg.HDG_SRC_HEN [k]))))) ∧
    (Startable s f i 0x802 c →
      (127 < c.fld 8 1 ∨ coalesced (c.fld 8 1) = false → ∃ t, exec (.evtCoalesce f i) s = .next t ∧
        Answers s t f i .badParam (failBody 8 0 (c.fld 8 1))) ∧
      (c.fld 8 1 ≤ 127 → coalesced (c.fld 8 1) = true → 1 ≤ c.fld 9 1 → 1 ≤ c.fld 12 4 → c.fld 12 4 ≤ 65535 →
        ∃ t, exec (.evtCoalesce f i) s = .next t ∧ t.rdA Reg.HDG_COAL_COUNT [f, c.fld 8 1] = c.fld 9 1 ∧
          t.rdA Reg.HDG_COAL_TIME_US [f, c.fld 8 1] = c.fld 12 4 ∧ t.on (cPending (.coal f)) [] = false ∧
          t.hedge = s.hedge ∧ t.resultOf f i = some (0, []) ∧ t.hbm = s.hbm ∧ t.plots = s.plots ∧ t.jobs = s.jobs)) ∧
    (∀ (buf : HostBuf) (b : List Byte) (k : Nat) (e : GEntry) (l : List (Nat × Int)), Startable s f i 0x401 c →
      c.fld 10 1 ≤ 7 → s.calEntry c = some (k, e) → s.buffer f (c.ref 16) 16 buf = .ok b →
      (geRung e.img 0).mode = 1 → tensorOk e.img b = true → effScales (geRung e.img 0).fmt b = .ok l →
      { e with cap := some (e.img, if e.role = 2 then [] else l, tensorZp (geRung e.img 0).fmt b) }.words
        ≤ s.graftFree (k / 256) + e.words →
      ∃ t, exec (.calScales f i buf) s = .next t ∧
        t.gent k = some { e with cap := some (e.img, if e.role = 2 then [] else l, tensorZp (geRung e.img 0).fmt b) } ∧
        t.resultOf f i = some (0, []) ∧ t.hbm = s.hbm ∧ t.plots = s.plots ∧ t.jobs = s.jobs) ∧
    (∀ bad : Option Nat, Startable s f i 0x903 c →
      (c.fld 8 1 = 0 →
        (15 < c.fld 9 1 → ∃ t, exec (.diagSelftest f i bad) s = .next t ∧ Answers s t f i .badParam (failBody 9 0 (c.fld 9 1))) ∧
        (c.fld 9 1 ≤ 15 → s.plotEn (c.fld 9 1) = false → ∃ t, exec (.diagSelftest f i bad) s = .next t ∧
          Answers s t f i .plotAbsent (failBody 9 0 (c.fld 9 1))) ∧
        (c.fld 9 1 ≤ 15 → s.plotEn (c.fld 9 1) = true → s.plotHolder (c.fld 9 1) = f → s.jobOf (c.fld 9 1) = none →
          s.coreUp = true → ∃ t, exec (.diagSelftest f i bad) s = .next t ∧
            Answers (undefStores s (c.fld 9 1)) t f i .ok (leBytes 4 (b2n bad.isSome) ++ leBytes 4 (bad.getD 0)))) ∧
      (c.fld 8 1 = 1 → c.fld 24 8 ≠ 0 → s.holdsHbm 0 (c.fld 16 8) (c.fld 24 8) = true → s.coreUp = true →
        ∃ t, exec (.diagSelftest f i bad) s = .next t ∧ Answers (undefHbm s (c.fld 16 8) (c.fld 24 8)) t f i .ok
          (leBytes 4 (b2n bad.isSome) ++ leBytes 4 (bad.getD 0))) ∧
      (2 ≤ c.fld 8 1 → ∃ t, exec (.diagSelftest f i bad) s = .next t ∧ Answers s t f i .badParam (failBody 8 0 (c.fld 8 1))))

/-- LINK_SET_ID answers DIE_ID_CONFLICT for an ID that a trained neighbour reports and BUSY while a port is ACTIVE, else
the die takes the ID and clears every port's conflict. LINK_ROUTE of a buffer of another length than 1,088 bytes
answers BAD_PARAM, of one that breaks a check ROUTE_INVALID; else the table is in effect on all eight ports.
LINK_ENABLE answers LINK_DOWN when a named port is untrained and PORT_QUARANTINED when one is quarantined, else ENABLE
of each named port is its bit and of the others as it was. (R223, R225, R484, R485, R487, R496.) -/
def Obligations.LinkCommands : Prop :=
  ∀ (s : State) (f : Fin 16) (i : Fin 128) (c : Cmd),
    (Startable s f i 0xA02 c →
      (s.idTaken (c.fld 8 1) = true → ∃ t, exec (.linkSetId f i) s = .next t ∧
        Answers s t f i .dieIdConflict (failBody 8 0 (c.fld 8 1))) ∧
      (s.idTaken (c.fld 8 1) = false →
        ((∃ n, n < 8 ∧ s.portState n = psActive) → ∃ t, exec (.linkSetId f i) s = .next t ∧
          Answers s t f i .busy (failBody 8 0 (c.fld 8 1))) ∧
        ((∀ n, n < 8 → s.portState n ≠ psActive) → ∃ t, exec (.linkSetId f i) s = .next t ∧ t.link.dieId = c.fld 8 1 ∧
          t.link.idValid = true ∧ (∀ n, n < 8 → t.on Reg.CSK_STAT_ID_CONFLICT [n] = false) ∧ t.resultOf f i = some (0, []) ∧
          t.hbm = s.hbm ∧ t.plots = s.plots ∧ t.jobs = s.jobs))) ∧
    (∀ (buf : HostBuf) (b : List Byte), Startable s f i 0xA03 c → s.buffer f (c.ref 8) 8 buf = .ok b →
      (b.length ≠ 1088 → ∃ t, exec (.linkRoute f i buf) s = .next t ∧
        Answers (s.afterBuffer c 8) t f i .badParam (failBody 16 0 b.length)) ∧
      (∀ v, b.length = 1088 → routeCheck b = some v → ∃ t, exec (.linkRoute f i buf) s = .next t ∧
        Answers (s.afterBuffer c 8) t f i .routeInvalid (failBody 8 0 v)) ∧
      (b.length = 1088 → routeCheck b = none → ∃ t, exec (.linkRoute f i buf) s = .next t ∧ t.link.routed = true ∧
        (∀ n j, n < 8 → j < 256 → t.rdA Reg.CSK_RT_WORD [n, j] = fieldAt b (64 + 4 * j) 4) ∧
        (∀ n j, n < 8 → j < 4 → t.rdA Reg.CSK_RTHDR_WORD [n, j] = fieldAt b (4 * j) 4) ∧
        t.resultOf f i = some (0, []) ∧ t.hbm = s.hbm ∧ t.plots = s.plots ∧ t.jobs = s.jobs)) ∧
    (Startable s f i 0xA04 c →
      ((∃ n, n < 8 ∧ bitOf (c.fld 8 1) n = true ∧ (s.port n).trained = false) → ∃ t, exec (.linkEnable f i) s = .next t ∧
        Answers s t f i .linkDown (failBody 8 0 (c.fld 8 1))) ∧
      ((∀ n, n < 8 → bitOf (c.fld 8 1) n = true → (s.port n).trained = true) →
        ((∃ n, n < 8 ∧ bitOf (c.fld 8 1) n = true ∧ s.portState n = psQuarantined) → ∃ t, exec (.linkEnable f i) s = .next t ∧
          Answers s t f i .portQuarantined (failBody 8 0 (c.fld 8 1))) ∧
        ((∀ n, n < 8 → bitOf (c.fld 8 1) n = true → s.portState n ≠ psQuarantined) →
          ∃ t, exec (.linkEnable f i) s = .next t ∧ t.resultOf f i = some (0, []) ∧
            (∀ n, n < 8 → t.on Reg.CSK_CTL_ENABLE [n] =
              (if bitOf (c.fld 8 1) n = true then bitOf (c.fld 9 1) n else s.on Reg.CSK_CTL_ENABLE [n])) ∧
            t.hbm = s.hbm ∧ t.plots = s.plots ∧ t.jobs = s.jobs)))

/-- TBL_DEFINE, once its buffer is read, answers the first failing check of R407, or fills the lowest free directory slot,
its entries of the shard-map memory and its base, and answers version 1. TBL_DELETE and TBL_SYNC of a table answer
BUSY or BAD_PARAM, or start a keyed invalidation and wait for it; TBL_DELETE empties the slot and its base. TBL_SWITCH
of an unversioned table or another version is refused; otherwise the switch takes effect at once when no batch of the
table is in progress, and waits for TABLE_SWITCH_BOUNDARY when one is. A name that the function does not hold answers
NO_TABLE. HBM, plots and jobs are unchanged. (R211, R212, R213, R214, R419, R420, R423, R447.) -/
def Obligations.TableCommands : Prop :=
  ∀ s : State,
    (∀ (f : Fin 16) (i : Fin 128) (c : Cmd) (buf : HostBuf) (b : List Byte), Startable s f i 0x301 c →
      s.buffer f (c.ref 24) 24 buf = .ok b →
      (∀ e, (s.afterBuffer c 24).defineBad c b = some e → ∃ t, exec (.tblDefine f i buf) s = .next t ∧
        Answers (s.afterBuffer c 24) t f i e.1 (failBody e.2.1 e.2.2.1 e.2.2.2)) ∧
      (∀ x a, (s.afterBuffer c 24).defineBad c b = none →
        (List.range 256).find? (fun k => !(s.dir k).valid) = some x → s.mapPlace (defDir c b).entries = some a →
        ∃ t p q, exec (.tblDefine f i buf) s = .next t ∧
          ((defDir c b).kind ≠ 2 → p = 0 ∧ q = 0) ∧
          ((defDir c b).kind = 2 → s.tableOf f (fieldAt b 34 2) = some p ∧ s.tableOf f (fieldAt b 36 2) = some q) ∧
          (∀ w, w < 16 → t.rdA Reg.SIV_DIR_WORD [x, w] =
            fieldAt (dirPack { defDir c b with mapBase := a, compP := p, compQ := q }) (4 * w) 4) ∧
          (∀ y w, y < 256 → y ≠ x → w < 16 → t.rdA Reg.SIV_DIR_WORD [y, w] = s.rdA Reg.SIV_DIR_WORD [y, w]) ∧
          (∀ k, k < (smMap b).length → t.mapEntry (a + k) = (smMap b).getD k []) ∧
          t.rd Reg.SIV_BASE_BASE [x] = fieldAt b 24 8 ∧ (t.tbl x).version = 1 ∧
          (∃ r, t.resultOf f i = some (0, r) ∧ r.length = 16 ∧ fieldAt r 0 4 = 1) ∧
          t.hbm = s.hbm ∧ t.plots = s.plots ∧ t.jobs = s.jobs)) ∧
    (∀ (f : Fin 16) (i : Fin 128) (c : Cmd),
      (Startable s f i 0x302 c →
        (s.tableOf f (c.fld 8 2) = none → ∃ t, exec (.tblDelete f i) s = .next t ∧
          Answers s t f i .noTable (failBody 8 0 (c.fld 8 2))) ∧
        (∀ x, s.tableOf f (c.fld 8 2) = some x →
          (s.tableNamed x = true ∨ s.componentOf x = true → ∃ t, exec (.tblDelete f i) s = .next t ∧
            Answers s t f i .busy (failBody 8 0 (c.fld 8 2))) ∧
          (s.tableNamed x = false → s.componentOf x = false → ∃ t, exec (.tblDelete f i) s = .next t ∧
            (∀ w, w < 16 → t.rdA Reg.SIV_DIR_WORD [x, w] = 0) ∧ t.rd Reg.SIV_BASE_BASE [x] = 0 ∧
            t.rd Reg.RWC_STAT_INV_BUSY [] = 1 ∧ t.rwc.inv = s.rwc.inv ++ [(s.dir x).tkey] ∧
            (∀ e, e ∈ t.rwc.lines → e.2.tkey ≠ (s.dir x).tkey) ∧
            t.rwc.waits = s.rwc.waits ++ [(f.val, i.val)] ∧ t.cmd? f i = some { c with started := true } ∧
            t.hbm = s.hbm ∧ t.plots = s.plots ∧ t.jobs = s.jobs))) ∧
      (Startable s f i 0x303 c → ∀ x, s.tableOf f (c.fld 8 2) = some x → (s.dir x).kind ≠ 2 →
        ((s.dir x).rows ≤ c.fld 16 8 → ∃ t, exec (.tblSync f i) s = .next t ∧
          Answers s t f i .badParam (failBody 16 0 (c.fld 16 8 % 2 ^ 32))) ∧
        (c.fld 16 8 < (s.dir x).rows → c.fld 24 8 ≠ 0 ∨ c.fld 16 8 = 0 → (s.dir x).rows < c.fld 16 8 + c.fld 24 8 →
          ∃ t, exec (.tblSync f i) s = .next t ∧ Answers s t f i .badParam (failBody 24 0 (c.fld 24 8 % 2 ^ 32))) ∧
        (c.fld 16 8 < (s.dir x).rows → c.fld 24 8 ≠ 0 ∨ c.fld 16 8 = 0 → c.fld 16 8 + c.fld 24 8 ≤ (s.dir x).rows →
          ∃ t, exec (.tblSync f i) s = .next t ∧ t.rd Reg.RWC_STAT_INV_BUSY [] = 1 ∧
            t.rwc.inv = s.rwc.inv ++ [(s.dir x).tkey] ∧ (∀ e, e ∈ t.rwc.lines → e.2.tkey ≠ (s.dir x).tkey) ∧
            t.rwc.waits = s.rwc.waits ++ [(f.val, i.val)] ∧ t.cmd? f i = some { c with started := true } ∧
            t.tbls = s.tbls ∧ t.hbm = s.hbm ∧ t.plots = s.plots ∧ t.jobs = s.jobs)) ∧
      (Startable s f i 0x304 c → ∀ x, s.tableOf f (c.fld 8 2) = some x →
        let n := ownedRows (s.dir x) (s.mapOf (s.dir x)) s.self
        ((s.tbl x).versioned = false → ∃ t, exec (.tblSwitch f i) s = .next t ∧
          Answers s t f i .badParam (failBody 8 0 (c.fld 8 2))) ∧
        ((s.tbl x).versioned = true → placementBad (if n = 0 then 0 else (s.dir x).mask) (c.fld 16 8) (s.dir x).pitch n = false →
          s.overlapped f (s.dir x).mask (c.fld 16 8) (s.dir x).pitch n = none →
          s.unheld f (s.dir x).mask (c.fld 16 8) (s.dir x).pitch n = none →
          (c.fld 12 4 ≠ (s.tbl x).version → ∃ t, exec (.tblSwitch f i) s = .next t ∧
            Answers s t f i .versionMismatch (failBody 12 0 (s.tbl x).version)) ∧
          (c.fld 12 4 = (s.tbl x).version →
            (s.tableBusy x = true → ∃ t, exec (.tblSwitch f i) s = .next t ∧ t.regs = s.regs ∧
              t.tbl x = { s.tbl x with switch := some (f.val, i.val, c.fld 16 8) } ∧ t.cmd? f i = some { c with started := true } ∧
              t.rwc = s.rwc ∧ t.hbm = s.hbm ∧ t.plots = s.plots ∧ t.jobs = s.jobs) ∧
            (s.tableBusy x = false → ∃ t, exec (.tblSwitch f i) s = .next t ∧
              t.rd Reg.SIV_BASE_BASE [x] = c.fld 16 8 ∧ OnlyRegs { s with rwc := t.rwc, tbls := t.tbls, mbx := t.mbx } t
                [Reg.SIV_BASE_BASE.key [x]] ∧
              t.tbl x = { s.tbl x with switch := none, version := ((s.tbl x).version + 1) % 2 ^ 32 } ∧
              (∀ e, e ∈ t.rwc.lines → e.2.tkey ≠ (s.dir x).tkey) ∧
              t.resultOf f i = some (0, leBytes 4 (((s.tbl x).version + 1) % 2 ^ 32) ++ fill 4 0 ++ leBytes 8 s.now)))))) ∧
    (∀ k : Nat, (s.coreUp = false ∨ s.slotOfKey k = none → ∃ t, exec (.tableSwitchBoundary k) s = .next t ∧ t = s) ∧
      (∀ x, s.coreUp = true → s.slotOfKey k = some x →
        ((s.tbl x).switch = none ∨ s.tableBusy x = true → ∃ t, exec (.tableSwitchBoundary k) s = .next t ∧ t = s) ∧
        (∀ g j base, (s.tbl x).switch = some (g, j, base) → s.tableBusy x = false →
          ∃ t, exec (.tableSwitchBoundary k) s = .next t ∧ t.rd Reg.SIV_BASE_BASE [x] = base % 2 ^ 64 ∧
            t.tbl x = { s.tbl x with switch := none, version := ((s.tbl x).version + 1) % 2 ^ 32 } ∧
            (∀ d, s.cmd? g j = some d → t.resultOf g j =
              some (0, leBytes 4 (((s.tbl x).version + 1) % 2 ^ 32) ++ fill 4 0 ++ leBytes 8 s.now)) ∧
            t.hbm = s.hbm ∧ t.plots = s.plots ∧ t.jobs = s.jobs)))

/-- A FLASH_READ within the flash whose buffer is long enough waits while a bank it touches is busy, answers MEDIA_ERROR
when a segment it reads is uncorrectable, and otherwise delivers exactly the bytes; LOG_READ delivers the records of a
log from the sequence named. FLASH_PROGRAM, FLASH_ERASE and FW_WRITE that pass their checks leave the command started,
leave every byte of the array and queue their operations behind those of the bank; a range outside the model sectors
answers FLASH_PROTECTED. HBM changes in the buffer alone; plots and jobs are unchanged. (R220, R221, R570, R571, R573,
R574, R579, R580.) -/
def Obligations.FlashCommands : Prop :=
  ∀ (s : State) (f : Fin 16) (i : Fin 128) (c : Cmd),
    (∀ ecc : FlashEcc, Startable s f i 0x701 c →
      (c.fld 12 4 = 0 ∨ 2 ^ 20 < c.fld 12 4 → ∃ t, exec (.flashRead f i ecc) s = .next t ∧
        Answers s t f i .badParam (failBody 12 0 (c.fld 12 4))) ∧
      (1 ≤ c.fld 12 4 → c.fld 12 4 ≤ 2 ^ 20 → c.fld 8 4 < 0x800000 → c.fld 8 4 + c.fld 12 4 ≤ 0x800000 →
        s.destBad f (c.ref 16) 16 = none → c.fld 12 4 ≤ (c.ref 16).len →
        (s.bankBusy (c.fld 8 4) (c.fld 12 4) = true → ∃ t, exec (.flashRead f i ecc) s = .next t ∧ t = s) ∧
        (s.bankBusy (c.fld 8 4) (c.fld 12 4) = false →
          (∀ g, ecc.bad = some g → 64 * g.val < c.fld 8 4 + c.fld 12 4 → c.fld 8 4 < 64 * g.val + 64 →
            ∃ t, exec (.flashRead f i ecc) s = .next t ∧ t.resultOf f i = some (0x12, failBody 0xFFFF 0 (64 * g.val)) ∧
              t.rd Reg.FLC_FAILADDR_ADDR [] = 64 * g.val ∧ t.hbm = s.hbm ∧ t.plots = s.plots ∧ t.jobs = s.jobs) ∧
          ((∀ g, ecc.bad = some g → c.fld 8 4 + c.fld 12 4 ≤ 64 * g.val ∨ 64 * g.val + 64 ≤ c.fld 8 4) →
            ∃ t, exec (.flashRead f i ecc) s = .next t ∧ t.resultOf f i = some (0, []) ∧ t.flash = s.flash ∧
              ((c.ref 16).space = 1 → t.outs = .hostWrite f (c.ref 16).addr (s.flashRead (c.fld 8 4) (c.fld 12 4)) :: s.outs ∧
                t.hbm = s.hbm) ∧
              ((c.ref 16).space = 0 → t.outs = s.outs ∧
                t.hbmRead (c.ref 16).addr (c.fld 12 4) = s.flashRead (c.fld 8 4) (c.fld 12 4) ∧
                (∀ a, a < (c.ref 16).addr ∨ (c.ref 16).addr + c.fld 12 4 ≤ a → t.hbmByte a = s.hbmByte a)) ∧
              t.plots = s.plots ∧ t.jobs = s.jobs)))) ∧
    (∀ ecc : FlashEcc, Startable s f i 0x704 c →
      (1 < c.fld 8 1 → ∃ t, exec (.logRead f i ecc) s = .next t ∧ Answers s t f i .badParam (failBody 8 0 (c.fld 8 1))) ∧
      (c.fld 8 1 ≤ 1 → s.destBad f (c.ref 20) 20 = none → 64 * c.fld 16 4 ≤ (c.ref 20).len → ecc.bad = none →
        (c.ref 20).space = 1 → ∃ t, exec (.logRead f i ecc) s = .next t ∧
          t.resultOf f i = some (0, leBytes 4 (s.logFrom (c.fld 8 1) (c.fld 12 4) (c.fld 16 4)).length
            ++ leBytes 4 (s.logOldest (c.fld 8 1))) ∧
          t.outs = .hostWrite f (c.ref 20).addr (s.logFrom (c.fld 8 1) (c.fld 12 4) (c.fld 16 4)).flatten :: s.outs ∧
          t.flash = s.flash ∧ t.hbm = s.hbm ∧ t.plots = s.plots ∧ t.jobs = s.jobs)) ∧
    (∀ (buf : HostBuf) (b : List Byte), Startable s f i 0x702 c → c.fld 8 4 % 256 = 0 → c.fld 24 4 % 256 = 0 →
      c.fld 8 4 < 0x800000 → c.fld 8 4 + c.fld 24 4 ≤ 0x800000 →
      (modelSectors (c.fld 8 4 / 4096) (cdiv (c.fld 8 4 % 4096 + c.fld 24 4) 4096) = false →
        ∃ t, exec (.flashProgram f i buf) s = .next t ∧ Answers s t f i .flashProtected (failBody 8 0 (c.fld 8 4))) ∧
      (modelSectors (c.fld 8 4 / 4096) (cdiv (c.fld 8 4 % 4096 + c.fld 24 4) 4096) = true →
        s.buffer f (c.ref 16) 16 buf = .ok b → ∃ t ops, exec (.flashProgram f i buf) s = .next t ∧
          t.flash = { s.flash with bank1 := s.flash.bank1 ++ ops } ∧
          ops.length = cdiv (c.fld 8 4 % 4096 + c.fld 24 4) 4096 ∧ t.rd Reg.FLC_STAT_BUSY1 [] = 1 ∧
          t.cmd? f i = some { c with started := true } ∧ t.hbm = s.hbm ∧ t.plots = s.plots ∧ t.jobs = s.jobs)) ∧
    (Startable s f i 0x703 c →
      (2047 < c.fld 8 4 → ∃ t, exec (.flashErase f i) s = .next t ∧ Answers s t f i .badParam (failBody 8 0 (c.fld 8 4))) ∧
      (1 ≤ c.fld 12 4 → c.fld 8 4 + c.fld 12 4 ≤ 2048 → c.fld 8 4 / 1024 = (c.fld 8 4 + c.fld 12 4 - 1) / 1024 →
        (modelSectors (c.fld 8 4) (c.fld 12 4) = false → ∃ t, exec (.flashErase f i) s = .next t ∧
          t.resultOf f i = some (0x701, failBody 8 0 (4096 * c.fld 8 4)) ∧ t.flash = s.flash ∧ t.hbm = s.hbm) ∧
        (modelSectors (c.fld 8 4) (c.fld 12 4) = true → ∃ t, exec (.flashErase f i) s = .next t ∧
          t.rd Reg.FLC_ERASE_ADDR_SECTOR [] = c.fld 8 4 ∧ t.rd Reg.FLC_ERASE_COUNT_SECTORS [] = c.fld 12 4 ∧
          t.flash = { s.flash with bank1 := s.flash.bank1 ++ [.erase (.cmd f i) (c.fld 8 4) (c.fld 12 4)] } ∧
          t.rd Reg.FLC_STAT_BUSY1 [] = 1 ∧ t.cmd? f i = some { c with started := true } ∧
          t.hbm = s.hbm ∧ t.plots = s.plots ∧ t.jobs = s.jobs))) ∧
    (∀ (buf : HostBuf) (b : List Byte), Startable s f i 0x602 c →
      (c.fld 8 4 % 4096 ≠ 0 ∨ 0x40000 ≤ c.fld 8 4 → ∃ t, exec (.fwWrite f i buf) s = .next t ∧
        Answers s t f i .badParam (failBody 8 0 (c.fld 8 4))) ∧
      (c.fld 8 4 % 4096 = 0 → c.fld 8 4 < 0x40000 → c.fld 24 4 % 4096 = 0 → c.fld 8 4 + c.fld 24 4 ≤ 0x40000 →
        s.buffer f (c.ref 16) 16 buf = .ok b → ∃ t, exec (.fwWrite f i buf) s = .next t ∧
          t.flash.bank0.length + t.flash.bank1.length =
            s.flash.bank0.length + s.flash.bank1.length + 2 * (c.fld 24 4 / 4096) ∧
          t.flash.bytes = s.flash.bytes ∧ t.cmd? f i = some { c with started := true } ∧
          t.hbm = s.hbm ∧ t.plots = s.plots ∧ t.jobs = s.jobs))

/-- FW_VERIFY answers OK or IMAGE_INVALID with the reason. FW_ACTIVATE answers TRIAL_PENDING, BUSY or IMAGE_INVALID, or
writes the trial record and answers OK. FW_SWAP that passes the same checks sets SEAM, halts the Bench core, stops the
watchdog and waits. SEAM_IMAGE_LOADED outside the seam changes nothing; with a block selected the Bench core runs
again outside the seam, the exchange's command answers OK from the new firmware or RESTARTED from the old one, and
every command not past its commit point answers RESTARTED. HBM, plots and jobs are unchanged. (R79, R193, R218, R219,
R220, R545, R546, R548.) -/
def Obligations.FirmwareExchange : Prop :=
  ∀ s : State,
    (∀ (f : Fin 16) (i : Fin 128) (c : Cmd) (img : ImageCheck),
      (Startable s f i 0x603 c →
        (img.reason = 0 → ∃ t, exec (.fwVerify f i img) s = .next t ∧ Answers s t f i .ok (leBytes 4 0)) ∧
        (img.reason ≠ 0 → ∃ t, exec (.fwVerify f i img) s = .next t ∧
          Answers s t f i .imageInvalid (failBody 0xFFFF img.reason 0))) ∧
      (Startable s f i 0x604 c →
        (s.on Reg.TOP_BOOTSTAT_TRIAL [] = true → ∃ t, exec (.fwActivate f i img) s = .next t ∧
          Answers s t f i .trialPending (failBody 0xFFFF 0 0)) ∧
        (s.on Reg.TOP_BOOTSTAT_TRIAL [] = false → s.fwBusy = true → ∃ t, exec (.fwActivate f i img) s = .next t ∧
          Answers s t f i .busy (failBody 0xFFFF 0 0)) ∧
        (s.on Reg.TOP_BOOTSTAT_TRIAL [] = false → s.fwBusy = false → img.reason ≠ 0 →
          ∃ t, exec (.fwActivate f i img) s = .next t ∧ Answers s t f i .imageInvalid (failBody 0xFFFF img.reason 0)) ∧
        (s.on Reg.TOP_BOOTSTAT_TRIAL [] = false → s.fwBusy = false → img.reason = 0 →
          ∃ t, exec (.fwActivate f i img) s = .next t ∧ Answers (trialRecord s img) t f i .ok [] ∧
            t.regs = s.regs ∧ t.hbm = s.hbm ∧ t.plots = s.plots ∧ t.jobs = s.jobs)) ∧
      (Startable s f i 0x605 c → s.activateBad img = none → ∃ t, exec (.fwSwap f i img) s = .next t ∧
        t.rd Reg.CLO_FWSTAT_SEAM [] = 1 ∧ t.rd Reg.BNC_CTL_HALTED [] = 1 ∧ t.rd Reg.TOP_RSTCAUSE_SWAP [] = 1 ∧
        t.rd Reg.CLO_WDT_EN [] = 0 ∧ t.rd Reg.CLO_PDM_CTL_EN [0] = 0 ∧ t.rd Reg.CLO_PDM_CTL_EN [1] = 0 ∧
        t.cloche.swapCmd = some (f.val, i.val) ∧ t.cmd? f i = some { c with started := true, waiting := true } ∧
        t.flash = (trialRecord s img).flash ∧ t.hbm = s.hbm ∧ t.plots = s.plots ∧ t.jobs = s.jobs)) ∧
    (∀ img : ImageCheck,
      (s.on Reg.CLO_FWSTAT_SEAM [] = false → ∃ t, exec (.seamImageLoaded img) s = .next t ∧ t = s) ∧
      (s.on Reg.CLO_FWSTAT_SEAM [] = true →
        let old : ImageCheck := ⟨0, s.boot.runVersion, s.boot.runSec⟩
        let was := s.rd Reg.TOP_BOOTSTAT_BLOCK []
        let sel := bootSelect s (if was = 0 then old else img) (if was = 0 then img else old)
        (∀ k, k < 2 → sel.2 = some k → ∃ t, exec (.seamImageLoaded img) s = .next t ∧ t.rd Reg.CLO_FWSTAT_SEAM [] = 0 ∧
          t.rd Reg.BNC_CTL_HALTED [] = 0 ∧ t.rd Reg.TOP_BOOTSTAT_BLOCK [] = k ∧ t.cloche.swapCmd = none ∧
          (∀ g j d, s.cloche.swapCmd = some (g, j) → s.cmd? g j = some d → t.resultOf g j =
            (if k ≠ was then some (0, leBytes 4 img.version ++ leBytes 4 0) else some (0xD, failBody 0xFFFF 0 0))) ∧
          (∀ g j d, s.cloche.swapCmd ≠ some (g, j) → s.cmd? g j = some d → d.result = none → d.waiting = false →
            t.resultOf g j = some (0xD, failBody 0xFFFF 0 0)) ∧
          t.hbm = s.hbm ∧ t.plots = s.plots ∧ t.jobs = s.jobs)))

/-- JOB_LOAD, once its buffer is read, answers the first failing check of R200, or takes the lowest free load slot for the
bundle, loads every program word, and answers the handle. JOB_UNLOAD of a running job answers JOB_STATE; of one that
is not running and has no batch left it frees the slot under the next generation and disables its windows. JOB_WAIT of
an ended job answers its final status; otherwise it waits. JOB_ABORT of a job that is not running answers OK at once;
of a running one every context of its plots stops, and the command answers OK when the job has ended ABORTED: at once,
or at JOB_ABORT_DRAINED once the traffic is acknowledged or the drain interval has passed. (R197, R199, R200, R201,
R202, R203, R204, R637.) -/
def Obligations.LoadingAndEndingJobs : Prop :=
  ∀ s : State,
    (∀ (f : Fin 16) (i : Fin 128) (c : Cmd) (buf : HostBuf) (b : List Byte), Startable s f i 0x201 c →
      s.buffer f (c.ref 8) 8 buf = .ok b →
      (∀ e, (s.afterBuffer c 8).loadBad f b = some e → ∃ t u, exec (.jobLoad f i buf) s = .next t ∧ Settles u t ∧
        Answers (s.afterBuffer c 8) u f i e.1 (failBody 8 e.2.1 e.2.2)) ∧
      (∀ j, (s.afterBuffer c 8).loadBad f b = none → (∀ p, p ∈ bundlePlots b → s.on Reg.STO_STAT_CLEAR_BUSY [p] = false) →
        (List.range 16).find? (fun k => !(s.job k).loaded) = some j → ∃ t u, exec (.jobLoad f i buf) s = .next t ∧ Settles u t ∧
          u.job j = { gen := (s.job j).gen, loaded := true, func := f, bundle := b, plots := bitMask (bundlePlots b),
                      changedAt := s.now } ∧
          (∀ k, k ≠ j → u.job k = s.job k) ∧
          (∀ r, r ∈ programs b → ∀ k, k < fieldAt r 4 2 → FMap.find (u.plot (fieldAt r 0 1)).prog (fieldAt r 2 2 + k) =
            some (fieldAt r (16 + 16 * k) 16)) ∧
          u.resultOf f i = some (0, leBytes 2 ((s.job j).handle j) ++ leBytes 2 (bitMask (bundlePlots b)) ++ leBytes 4 1
            ++ leBytes 8 (bytesUsed b)) ∧ u.hbm = s.hbm)) ∧
    (∀ (f : Fin 16) (i : Fin 128) (c : Cmd),
      (Startable s f i 0x206 c →
        (s.jobNamed f (c.fld 8 2) = none → ∃ t u, exec (.jobUnload f i) s = .next t ∧ Settles u t ∧
          Answers s u f i .noJob (failBody 8 0 (c.fld 8 2))) ∧
        (∀ j, s.jobNamed f (c.fld 8 2) = some j →
          ((s.job j).state = 1 → ∃ t u, exec (.jobUnload f i) s = .next t ∧ Settles u t ∧
            Answers s u f i .jobState (failBody 8 0 1)) ∧
          ((s.job j).state ≠ 1 → (s.job j).start = none → (s.job j).batches ≠ [] →
            ∃ t, exec (.jobUnload f i) s = .next t ∧ Settles s t) ∧
          ((s.job j).state ≠ 1 → (s.job j).start = none → (s.job j).batches = [] →
            ∃ t u, exec (.jobUnload f i) s = .next t ∧ Settles u t ∧
              u.job j = { gen := if (s.job j).gen = 255 then 1 else (s.job j).gen + 1 } ∧ (∀ k, k ≠ j → u.job k = s.job k) ∧
              (∀ p w, p ∈ (s.job j).plotList → w < 16 → u.rd Reg.STO_WIN_EN [p, w] = 0) ∧
              u.resultOf f i = some (0, []) ∧ u.hbm = s.hbm ∧ u.plots = s.plots))) ∧
      (Startable s f i 0x204 c → ∀ j, s.jobNamed f (c.fld 8 2) = some j →
        ((s.job j).state = 2 → ∃ t, exec (.jobWait f i) s = .next t ∧
          t.resultOf f i = some ((s.job j).final, (s.job j).waitBody) ∧ t.noCmds = s.noCmds) ∧
        ((s.job j).state ≠ 2 → ∃ t, exec (.jobWait f i) s = .next t ∧
          t.cmd? f i = some { c with started := true, waiting := true } ∧ t.noCmds = s.noCmds)) ∧
      (Startable s f i 0x205 c → ∀ j, s.jobNamed f (c.fld 8 2) = some j →
        ((s.job j).state ≠ 1 → ∃ t u, exec (.jobAbort f i) s = .next t ∧ Settles u t ∧ Answers s u f i .ok []) ∧
        ((s.job j).state = 1 → ∃ t u, exec (.jobAbort f i) s = .next t ∧ Settles u t ∧
          (∀ p k, p ∈ (s.job j).plotList → k < 4 → u.ctxLive p k = false) ∧
          (((u.job j).state = 2 ∧ (u.job j).final = 0xC ∧ u.resultOf f i = some (0, [])) ∨
            ((u.job j).state = 1 ∧ (u.job j).aborting = true ∧ (f.val, i.val) ∈ (u.job j).aborts ∧
              u.cmd? f i = some { c with started := true })) ∧ u.hbm = s.hbm))) ∧
    (∀ j : Fin 16,
      ((s.job j).aborting = false → ∃ t, exec (.jobAbortDrained j) s = .next t ∧ Settles s t) ∧
      (s.jobQuiet (s.job j) = false → s.now < (s.job j).abortAt + usCounts (s.rd Reg.TOP_DRAIN_DRAIN_US []) →
        ∃ t, exec (.jobAbortDrained j) s = .next t ∧ Settles s t) ∧
      ((s.job j).loaded = true → (s.job j).state = 1 → (s.job j).aborting = true →
        (s.jobQuiet (s.job j) = true ∨ (s.job j).abortAt + usCounts (s.rd Reg.TOP_DRAIN_DRAIN_US []) ≤ s.now) →
        ∃ t u, exec (.jobAbortDrained j) s = .next t ∧ Settles u t ∧ (u.job j).state = 2 ∧ (u.job j).final = 0xC ∧
          (u.job j).changedAt = s.now ∧ (u.job j).aborts = [] ∧
          (∀ p k, p ∈ (s.job j).plotList → k < 4 → u.ctxLive p k = false) ∧
          (∀ e d, e ∈ (s.job j).aborts → s.cmd? e.1 e.2 = some d → u.resultOf e.1 e.2 = some (0, [])) ∧ u.hbm = s.hbm))

/-- JOB_START with no argument answers NO_JOB or JOB_STATE, is held while a plot of the job is, and otherwise prepares the
job: a die that leads alone runs it at once, every context that the bundle names RUNNING at its entry point and the
command answered with the time; a die that does not lead waits for GO. JOB_START_HOLD_EXPIRY does the same for a held
start. READY from a die of RUN is noted; GO from the leader runs the prepared job. START_ABORT and START_TIMEOUT
abandon the start with DIE_SET and the die. INSTALL of one update plan for a table of this die installs it. (Stated
for bundles without GRAFT and UPDATE sections where a start runs to the end.) (R209, R210, R288, R637.) -/
def Obligations.StartingJobs : Prop :=
  ∀ s : State,
    (∀ (f : Fin 16) (i : Fin 128) (c : Cmd) (buf : HostBuf), Startable s f i 0x202 c → c.fld 32 4 = 0 → c.fld 36 1 ≤ 1 →
      (s.jobNamed f (c.fld 8 2) = none → ∃ t u, exec (.jobStart f i buf) s = .next t ∧ Settles u t ∧
        Answers s u f i .noJob (failBody 8 0 (c.fld 8 2))) ∧
      (∀ j, s.jobNamed f (c.fld 8 2) = some j →
        ((s.job j).state ≠ 0 → ∃ t u, exec (.jobStart f i buf) s = .next t ∧ Settles u t ∧
          Answers s u f i .jobState (failBody 8 0 (s.job j).state)) ∧
        ((s.job j).state = 0 → (s.job j).start = none →
          (s.startHeld j = true → ∃ t u, exec (.jobStart f i buf) s = .next t ∧ Settles u t ∧
            u.cmd? f i = some { c with started := true } ∧ u.noCmds = s.noCmds) ∧
          (s.startHeld j = false → graftRecords (s.job j).bundle = [] → updateRecords (s.job j).bundle = [] →
            (s.LeadsAlone j → ∃ t u, exec (.jobStart f i buf) s = .next t ∧ Settles u t ∧ JobRuns s u j ∧
              u.resultOf f i = some (0, leBytes 8 s.now) ∧ u.hbm = s.hbm) ∧
            (s.leads (s.job j).bundle = false → ∃ t u, exec (.jobStart f i buf) s = .next t ∧ Settles u t ∧
              (u.job j).start = some ⟨f, i, c.fld 10 2, msCounts (if c.fld 12 2 = 0 then 1000 else c.fld 12 2), s.now, [], [], []⟩ ∧
              (u.job j).state = 0 ∧ u.cmd? f i = some { c with started := true } ∧
              (∃ q, q ∈ u.link.routeQ ∧ q.pkt.typ = 14 ∧ q.pkt.tfb 8 2 = 5 ∧ q.pkt.dstDie = leader (s.job j).bundle) ∧
              u.hbm = s.hbm))))) ∧
    (∀ (f : Fin 16) (i : Fin 128) (c : Cmd), s.cmd? f i = some c → c.opcode = 0x202 → c.started = true → c.result = none →
      s.coreUp = true → s.fwRuns = true →
      (s.jobNamed f (c.fld 8 2) = none → ∃ t u, exec (.jobStartHoldExpiry f i) s = .next t ∧ Settles u t ∧
        Answers s u f i .noJob (failBody 8 0 (c.fld 8 2))) ∧
      (∀ j, s.jobNamed f (c.fld 8 2) = some j → (s.job j).start = none →
        ((s.job j).state ≠ 0 → ∃ t u, exec (.jobStartHoldExpiry f i) s = .next t ∧ Settles u t ∧
          Answers s u f i .jobState (failBody 8 0 (s.job j).state)) ∧
        ((s.job j).state = 0 → s.startHeld j = true → ∃ t, exec (.jobStartHoldExpiry f i) s = .next t ∧ Settles s t) ∧
        ((s.job j).state = 0 → s.startHeld j = false → graftRecords (s.job j).bundle = [] →
          updateRecords (s.job j).bundle = [] → s.LeadsAlone j →
          ∃ t u, exec (.jobStartHoldExpiry f i) s = .next t ∧ Settles u t ∧ JobRuns s u j ∧
            u.resultOf f i = some (0, leBytes 8 s.now) ∧ u.hbm = s.hbm))) ∧
    (∀ (q : Packet) (j : Nat) (x : Start), s.coreUp = true → q.typ = 14 → s.startNamed q = some (j, x) →
      (q.tfb 8 2 = 5 → s.leads (s.job j).bundle = true → q.srcDie ∈ runDies (s.job j).bundle →
        (∃ d, d ∈ runDies (s.job j).bundle ∧ d ≠ s.self ∧ d ≠ q.srcDie ∧ d ∉ x.ready) →
        ∃ t u, exec (.ready q) s = .next t ∧ Settles u t ∧
          (u.job j).start = some { x with ready := q.srcDie :: x.ready } ∧ (u.job j).state = (s.job j).state ∧
          u.regs = s.regs ∧ u.hbm = s.hbm ∧ u.plots = s.plots) ∧
      (q.tfb 8 2 = 6 → q.srcDie = leader (s.job j).bundle →
        (∀ p k, p ∈ (s.job j).plotList → k < 4 → s.ctxState p k = 0) →
        (∃ p, p ∈ (s.job j).plotList ∧ namedCtxs (s.job j).bundle p ≠ []) →
        ∃ t u, exec (.go q) s = .next t ∧ Settles u t ∧ (u.job j).state = 1 ∧ (u.job j).start = none ∧
          (∀ p k, p ∈ (s.job j).plotList → k ∈ namedCtxs (s.job j).bundle p → u.ctxState p k = 1) ∧
          (∀ d, s.cmd? x.func x.slot = some d → u.resultOf x.func x.slot = some (0, leBytes 8 s.now)) ∧ u.hbm = s.hbm) ∧
      (q.tfb 8 2 = 7 → ∃ t u, exec (.startAbort q) s = .next t ∧ Settles u t ∧ (u.job j).start = none ∧
        (u.job j).groups = [] ∧ (u.job j).state = (s.job j).state ∧
        (∀ p w, p ∈ (s.job j).plotList → w < 16 → u.rd Reg.STO_WIN_EN [p, w] = 0) ∧
        (∀ d, s.cmd? x.func x.slot = some d → u.resultOf x.func x.slot = some (0x209, failBody 0xFFFF 0 q.srcDie)) ∧
        u.hbm = s.hbm)) ∧
    (∀ q : Packet, s.coreUp = true → q.typ = 14 → q.tfb 8 2 = 7 → s.startNamed q = none → q.srcDie ≠ s.self →
      ∃ t u, exec (.startAbort q) s = .next t ∧ Settles u t ∧
        (∀ e, e ∈ u.graft.entries → ¬ (e.2.jobId = q.tfb 10 4 ∧ e.2.leader = q.srcDie)) ∧ u.jobs = s.jobs ∧ u.hbm = s.hbm) ∧
    (∀ j : Fin 16,
      ((s.job j).start = none → ∃ t, exec (.startTimeout j) s = .next t ∧ Settles s t) ∧
      (∀ x, (s.job j).start = some x →
        (s.now < x.at' + x.tmo → ∃ t, exec (.startTimeout j) s = .next t ∧ Settles s t) ∧
        (x.at' + x.tmo ≤ s.now → ∃ t u, exec (.startTimeout j) s = .next t ∧ Settles u t ∧ (u.job j).start = none ∧
          (u.job j).groups = [] ∧ (∀ d, s.cmd? x.func x.slot = some d →
            u.resultOf x.func x.slot = some (0x209, failBody 0xFFFF 0 (s.missingDie (s.job j).bundle x))) ∧ u.hbm = s.hbm))) ∧
    (∀ (q : Packet) (l : List Packet),
      (s.coreUp = true → q.typ ≠ 14 ∨ q.tfb 8 2 ≠ 3 → ∃ t, exec (.install (q :: l)) s = .next t ∧ Settles s t) ∧
      (∀ (r : List Byte) (k : Nat), s.coreUp = true → q.typ = 14 → q.tfb 8 2 = 3 → streamOk (q :: l) = true →
        installRecords ((streamBody (q :: l)).length / 16) (streamBody (q :: l)) = [(3, r)] →
        s.self ∈ upOwners r → s.slotOfKey (upTkey r) = some k →
        ∃ t u, exec (.install (q :: l)) s = .next t ∧ Settles u t ∧
          (∃ x, u.plan (upTkey r) = some x ∧ x.gtag = upGtag r ∧ x.jobId = q.tfb 10 4 ∧
            x.leader = q.srcDie ∧ x.slot = none ∧ x.writers.map (·.die) = upWriters r ∧ x.owners = upOwners r) ∧
          u.jobs = s.jobs ∧ u.hbm = s.hbm ∧ u.plots = s.plots))

/-- JOB_SUBMIT of a running job that takes batches queues the batch and waits; of one that does not run it answers
JOB_STATE. BATCH_INPUT_STAGE puts the input in its slot, zero-filled, or answers HOST_DMA_FAULT; BATCH_INPUT_COPIED
gives the staged batch the next number and signals each feed context; BATCH_DONE_SIGNAL takes the signal and marks the
oldest running batch complete with the drops and empty bags counted; BATCH_OUTPUT_COPIED delivers the output and
answers OK. EPOCH_ADV_MESSAGE advances the step epoch once for a boundary. (R205, R206, R388, R439.) -/
def Obligations.BatchesOfAJob : Prop :=
  ∀ s : State,
    (∀ (f : Fin 16) (i : Fin 128) (c : Cmd) (j : Nat), Startable s f i 0x203 c → s.jobNamed f (c.fld 8 2) = some j →
      (c.ref 16).len ≠ 0 → (c.ref 32).len ≠ 0 → (c.ref 16).space = 1 → (c.ref 32).space = 1 →
      (bitOf (fieldAt (s.job j).bundle 13 1) 0 = false ∨ ((c.ref 16).len ≤ bInBytes (s.job j).bundle ∧
        (c.ref 32).len ≤ bOutBytes (s.job j).bundle ∧ (s.job j).state ≠ 1) → ∃ t u, exec (.jobSubmit f i) s = .next t ∧
          Settles u t ∧ Answers s u f i .jobState (failBody 8 0 (s.job j).state)) ∧
      (bitOf (fieldAt (s.job j).bundle 13 1) 0 = true → (c.ref 16).len ≤ bInBytes (s.job j).bundle →
        (c.ref 32).len ≤ bOutBytes (s.job j).bundle → (s.job j).state = 1 →
        (32 ≤ (s.job j).batches.length → ∃ t, exec (.jobSubmit f i) s = .next t ∧ Settles s t) ∧
        ((s.job j).batches.length < 32 → ∃ t u, exec (.jobSubmit f i) s = .next t ∧ Settles u t ∧
          u.job j = { s.job j with batches := (s.job j).batches ++
            [{ func := f, slot := i, id := c.fld 12 4, inBuf := c.ref 16, outBuf := c.ref 32 }] } ∧
          (∀ k, k ≠ j → u.job k = s.job k) ∧ u.cmd? f i = some { c with started := true, waiting := true } ∧
          u.regs = s.regs ∧ u.hbm = s.hbm ∧ u.plots = s.plots))) ∧
    (∀ (j : Fin 16) (data : HostBuf) (b : Batch), s.coreUp = true → s.fwRuns = true → (s.job j).batchIn 0 = some b →
      ((s.job j).mayStage = false → ∃ t, exec (.batchInputStage j data) s = .next t ∧ Settles s t) ∧
      ((s.job j).mayStage = true → b.inBuf.space = 1 →
        (∀ l, data = some l → ∃ t u, exec (.batchInputStage j data) s = .next t ∧ Settles u t ∧
          u.hbmRead (inSlot (s.job j).bundle (s.job j).nextQ) (bInBytes (s.job j).bundle) =
            padTo (bInBytes (s.job j).bundle) (padTo b.inBuf.len (l.take b.inBuf.len)) ∧
          u.job j = { s.job j with batches := setFirst (s.job j).batches 0 { b with phase := 1 } } ∧
          u.mbx = s.mbx ∧ u.plots = s.plots) ∧
        (data = none → ∃ t u, exec (.batchInputStage j data) s = .next t ∧ Settles u t ∧
          u.job j = { s.job j with batches := dropFirst (s.job j).batches 0 } ∧
          (∀ d, s.cmd? b.func b.slot = some d → u.resultOf b.func b.slot = some (0xE, failBody 16 0 0)) ∧
          u.regs = s.regs ∧ u.hbm = s.hbm ∧ u.plots = s.plots))) ∧
    (∀ (j : Fin 16) (b : Batch), s.coreUp = true → s.fwRuns = true → (s.job j).batchIn 1 = some b → (s.job j).state = 1 →
      (s.job j).aborting = false → isTraining (s.job j).bundle = false → (s.job j).boundaryDue = false →
      ((s.job j).groups = [] → ∃ t u, exec (.batchInputCopied j) s = .next t ∧ Settles u t ∧
        u.job j = { s.job j with batches := setFirst (s.job j).batches 1 { b with phase := 2, q := (s.job j).nextQ },
                                 nextQ := (s.job j).nextQ + 1 } ∧ u.regs = s.regs ∧ u.hbm = s.hbm ∧ u.plots = s.plots) ∧
      (∀ g, (s.job j).groups = [g] → s.on Reg.TOP_QD_GRP_FEED_EN [g] = true →
        s.rd Reg.RKE_SIG_COUNT [s.rd Reg.TOP_QD_GRP_FEED_PLOT [g], s.rd Reg.TOP_QD_GRP_FEED_CTX [g], 7] < 65535 →
        ∃ t u, exec (.batchInputCopied j) s = .next t ∧ Settles u t ∧
          (u.job j).nextQ = (s.job j).nextQ + 1 ∧
          u.rd Reg.RKE_SIG_COUNT [s.rd Reg.TOP_QD_GRP_FEED_PLOT [g], s.rd Reg.TOP_QD_GRP_FEED_CTX [g], 7] =
            s.rd Reg.RKE_SIG_COUNT [s.rd Reg.TOP_QD_GRP_FEED_PLOT [g], s.rd Reg.TOP_QD_GRP_FEED_CTX [g], 7] + 1 ∧
          u.hbm = s.hbm ∧ u.plots = s.plots)) ∧
    (∀ j : Fin 16, s.coreUp = true → s.fwRuns = true → (s.job j).loaded = true →
      (s.cloche.sigQ.find? (fun q => bitOf (s.job j).plots (agentPlot q.srcAgent)) = none →
        ∃ t, exec (.batchDoneSignal j) s = .next t ∧ Settles s t) ∧
      (∀ q b, s.cloche.sigQ.find? (fun q => bitOf (s.job j).plots (agentPlot q.srcAgent)) = some q → q.tfb 10 2 = 1 →
        (s.job j).batchIn 2 = some b → isTraining (s.job j).bundle = false →
        ∃ t u, exec (.batchDoneSignal j) s = .next t ∧ Settles u t ∧ u.cloche.sigQ = s.cloche.sigQ.erase q ∧
          u.job j = { s.job j with
            batches := setFirst (s.job j).batches 2 { b with phase := 3, dropped := (s.job j).dropped, empty := (s.job j).empty },
            dropped := 0, empty := 0, boundaryDue := false } ∧ u.regs = s.regs ∧ u.hbm = s.hbm ∧ u.plots = s.plots)) ∧
    (∀ (j : Fin 16) (b : Batch), s.coreUp = true → s.fwRuns = true → (s.job j).batchIn 3 = some b → b.outBuf.space = 1 →
      s.hbmPoisoned (outSlot (s.job j).bundle b.q) b.outBuf.len = false →
      (∃ t u, exec (.batchOutputCopied j true) s = .next t ∧ Settles u t ∧
        u.job j = { s.job j with batches := dropFirst (s.job j).batches 3, doneBatches := (s.job j).doneBatches + 1 } ∧
        u.outs = .hostWrite b.func b.outBuf.addr (s.hbmRead (outSlot (s.job j).bundle b.q) b.outBuf.len) :: s.outs ∧
        (∀ d, s.cmd? b.func b.slot = some d → u.resultOf b.func b.slot = some (0, leBytes 4 b.id ++ leBytes 4 0
          ++ leBytes 8 s.now ++ leBytes 4 b.dropped ++ leBytes 4 b.empty)) ∧ u.hbm = s.hbm ∧ u.plots = s.plots) ∧
      (∃ t u, exec (.batchOutputCopied j false) s = .next t ∧ Settles u t ∧ u.outs = s.outs ∧
        (∀ d, s.cmd? b.func b.slot = some d → u.resultOf b.func b.slot = some (0xE, failBody 32 0 0)) ∧
        u.hbm = s.hbm ∧ u.plots = s.plots)) ∧
    (∀ q : Packet, s.coreUp = true → q.typ = 14 → q.tfb 8 2 = 1 →
      (q.tfb 10 4 ≤ FMap.get s.rwc.epochs 0 (q.tfb 14 2) → ∃ t, exec (.epochAdvMessage q) s = .next t ∧
        Settles (takeInbox s q) t) ∧
      (FMap.get s.rwc.epochs 0 (q.tfb 14 2) < q.tfb 10 4 → ∃ t u, exec (.epochAdvMessage q) s = .next t ∧ Settles u t ∧
        u.rd Reg.RWC_STAT_EPOCH [] = (s.rd Reg.RWC_STAT_EPOCH [] + 1) % 65536 ∧ u.rwc.lines = [] ∧
        FMap.get u.rwc.epochs 0 (q.tfb 14 2) = q.tfb 10 4 ∧ u.hbm = s.hbm ∧ u.plots = s.plots ∧ u.jobs = s.jobs))

/-- LEASE_FENCE of an enabled window, a writer in a plan or a unit's row locks, not already fenced, advances the epoch of
the lease, shows class and trigger in TOP_FENCE_LAST, counts the fence and begins the drain interval; otherwise
nothing happens. ROW_LOCK_TIMEOUT and an elapsed WRITER_STEP_TIMEOUT fence with triggers 5 and 3. RELEASE fences the
windows of its group that the sender produces into. DRAIN_EXPIRY reclaims once the interval has passed and no port is
RETRAINING. LEASE with GRANT stores the epoch of this die's lease. UPDATE_END moves its writer past the step, or is
refused and counted. (R457, R460, R461, R621, R624, R627, R628, R629.) -/
def Obligations.LeasesAndFences : Prop :=
  ∀ s : State, s.coreUp = true →
    (∀ (p w : Fin 16) (k : Nat),
      (s.on Reg.STO_WIN_EN [p, w] = false ∨ s.fencing 1 p w = true → ∃ t, exec (.leaseFence (.window p w) k) s = .next t ∧
        Settles s t) ∧
      (s.on Reg.STO_WIN_EN [p, w] = true → s.fencing 1 p w = false → ∃ t u, exec (.leaseFence (.window p w) k) s = .next t ∧
        Settles u t ∧ u.rd Reg.STO_WIN_EPOCH [p, w] = epochNext (s.rd Reg.STO_WIN_EPOCH [p, w]) ∧
        u.rd Reg.TOP_FENCE_LAST_CLASS [] = 1 ∧ u.rd Reg.TOP_FENCE_LAST_TRIGGER [] = k % 8 ∧
        u.rd Reg.TOP_FENCE_LAST_HOLDER_DIE [] = s.rd Reg.STO_WIN_PROD_DIE [p, w] ∧
        u.rd Reg.TOP_FENCE_LAST_NEW_EPOCH [] = u.rd Reg.STO_WIN_EPOCH [p, w] ∧
        u.rd Reg.TOP_FENCE_CNT_FENCES [] = satAdd 16 (s.rd Reg.TOP_FENCE_CNT_FENCES []) 1 ∧
        u.fences = s.fences ++ [⟨1, p, w, s.now, s.rd Reg.TOP_DRAIN_DRAIN_US []⟩] ∧
        u.on Reg.STO_WIN_EN [p, w] = true ∧ u.hbm = s.hbm ∧ u.plots = s.plots ∧ u.jobs = s.jobs)) ∧
    (∀ (k d trig : Nat) (x : Plan) (w : Writer), s.plan k = some x → x.writers.find? (fun w => w.die == d && !w.gone) = some w →
      s.fencing 3 k d = false → ∃ t u, exec (.leaseFence (.writer k d) trig) s = .next t ∧ Settles u t ∧
        u.plan k = some { x with writers := x.writers.map (fun y => if y.die == d then { y with epoch := epochNext w.epoch } else y) } ∧
        u.writerEpoch k d = epochNext w.epoch ∧ u.rd Reg.TOP_FENCE_LAST_CLASS [] = 3 ∧
        u.fences = s.fences ++ [⟨3, k, d, s.now, s.rd Reg.TOP_DRAIN_DRAIN_US []⟩] ∧
        u.hbm = s.hbm ∧ u.plots = s.plots ∧ u.jobs = s.jobs) ∧
    (∀ n : Fin 6,
      (s.fencing 4 n 0 = true → (∃ t, exec (.rowLockTimeout n) s = .next t ∧ Settles s t)) ∧
      (s.fencing 4 n 0 = false → ∃ t u, exec (.rowLockTimeout n) s = .next t ∧ Settles u t ∧
        u.rd Reg.FUR_LOCK_EPOCH [n] = epochNext (s.rd Reg.FUR_LOCK_EPOCH [n]) ∧ u.rd Reg.TOP_FENCE_LAST_CLASS [] = 4 ∧
        u.rd Reg.TOP_FENCE_LAST_TRIGGER [] = 5 ∧ u.fences = s.fences ++ [⟨4, n, 0, s.now, s.rd Reg.TOP_DRAIN_DRAIN_US []⟩] ∧
        u.hbm = s.hbm ∧ u.plots = s.plots ∧ u.jobs = s.jobs)) ∧
    (∀ k : Nat,
      (s.plan k = none ∨ s.rd Reg.TOP_LEASE_TMO_TMO_MS [] = 0 → ∃ t, exec (.writerStepTimeout k) s = .next t ∧ Settles s t) ∧
      (∀ x w, s.plan k = some x → x.awaited = some w → s.rd Reg.TOP_LEASE_TMO_TMO_MS [] ≠ 0 →
        (s.now < x.turnAt + msCounts (s.rd Reg.TOP_LEASE_TMO_TMO_MS []) → ∃ t, exec (.writerStepTimeout k) s = .next t ∧
          Settles s t) ∧
        (x.turnAt + msCounts (s.rd Reg.TOP_LEASE_TMO_TMO_MS []) ≤ s.now → s.fencing 3 k w.die = false →
          ∃ t u, exec (.writerStepTimeout k) s = .next t ∧ Settles u t ∧ u.rd Reg.TOP_FENCE_LAST_CLASS [] = 3 ∧
            u.rd Reg.TOP_FENCE_LAST_TRIGGER [] = 3 ∧ u.rd Reg.TOP_FENCE_LAST_HOLDER_DIE [] = w.die % 256 ∧
            u.fences = s.fences ++ [⟨3, k, w.die, s.now, s.rd Reg.TOP_DRAIN_DRAIN_US []⟩] ∧
            u.hbm = s.hbm ∧ u.plots = s.plots ∧ u.jobs = s.jobs))) ∧
    (∀ (q : Packet) (g : Nat) (p w : Fin 16), q.typ = 14 → q.tfb 8 2 = 2 → g < 16 → s.armed g = true →
      s.rd Reg.TOP_QD_GRP_GTAG [g] = q.tfb 10 2 → s.rd Reg.TOP_QD_GRP_EPOCH [g] = q.epoch → p.val ∈ s.members g →
      s.rd Reg.STO_WIN_PROD_DIE [p, w] = q.srcDie → s.on Reg.STO_WIN_EN [p, w] = true → s.fencing 1 p w = false →
      ∃ t u, exec (.release q) s = .next t ∧ Settles u t ∧
        u.rd Reg.STO_WIN_EPOCH [p, w] = epochNext (s.rd Reg.STO_WIN_EPOCH [p, w]) ∧ u.fencing 1 p w = true ∧
        u.hbm = s.hbm ∧ u.plots = s.plots ∧ u.jobs = s.jobs) ∧
    (∀ i : Nat,
      (s.fences[i]? = none → ∃ t, exec (.drainExpiry i) s = .next t ∧ Settles s t) ∧
      (∀ f, s.fences[i]? = some f →
        (s.now < f.at' + usCounts f.drain ∨ (∃ n, n < 8 ∧ s.portState n = psRetraining) →
          ∃ t, exec (.drainExpiry i) s = .next t ∧ Settles s t) ∧
        (f.at' + usCounts f.drain ≤ s.now → (∀ n, n < 8 → s.portState n ≠ psRetraining) →
          ∃ t u, exec (.drainExpiry i) s = .next t ∧ Settles u t ∧ u.fences = s.fences.eraseIdx i ∧
            u.rd Reg.TOP_FENCE_CNT_RECLAIMS [] = satAdd 16 (s.rd Reg.TOP_FENCE_CNT_RECLAIMS []) 1 ∧
            (f.cls = 1 → u.rd Reg.STO_WIN_EN [f.a, f.b] = 0) ∧
            (f.cls = 3 → ∀ y v, u.plan f.a = some y → v ∈ y.writers → v.die = f.b → v.gone = true) ∧
            (f.cls = 4 → u.rd Reg.FUR_LOCK_HELD [f.a] = 0) ∧ u.hbm = s.hbm ∧ u.plots = s.plots ∧ u.jobs = s.jobs))) ∧
    (∀ q : Packet,
      (q.typ = 12 → q.tfb 8 1 = 1 → q.tfb 9 1 = 0 → ∃ t u, exec (.lease q) s = .next t ∧ Settles u t ∧
        FMap.find u.upd.grants (q.tfb 12 4 * 256 + q.srcDie) = some q.epoch ∧ u.regs = s.regs ∧ u.hbm = s.hbm ∧
        u.plots = s.plots ∧ u.jobs = s.jobs) ∧
      (q.typ = 12 → q.tfb 8 1 = 1 → q.tfb 9 1 = 1 → ∃ t, exec (.lease q) s = .next t ∧ Settles (takeInbox s q) t)) ∧
    (∀ (q : Packet) (n : Nat) (x : Plan), q.typ = 9 → s.slotOfKey (q.tfb 8 4) = some n → s.plan (q.tfb 8 4) = some x →
      (writerRefusal (some x) q = none → ∃ t u y, exec (.updateEnd q) s = .next t ∧ Settles u t ∧ u.plan (q.tfb 8 4) = some y ∧
        y.writers = x.writers.map (fun w => if w.die == q.srcDie then { w with ended := max w.ended (q.tfb 12 4 + 1) } else w) ∧
        u.regs = s.regs ∧ u.hbm = s.hbm ∧ u.plots = s.plots ∧ u.jobs = s.jobs) ∧
      (writerRefusal (some x) q ≠ none → ∃ t u, exec (.updateEnd q) s = .next t ∧ Settles u t ∧ u.upd = s.upd ∧
        u.rd Reg.FUR_UPD_SKIP_STALE [stackIn (s.dir n).mask 0] =
          satAdd 16 (s.rd Reg.FUR_UPD_SKIP_STALE [stackIn (s.dir n).mask 0]) 1 ∧
        u.hbm = s.hbm ∧ u.plots = s.plots ∧ u.jobs = s.jobs))

/-- An UPDATE group whose table, writer and optimiser pass their checks appends each of its rows to the queue of the unit
of the row's stack, in order; one whose writer is refused is counted and queues nothing. ROW_UPDATE with no update
whose turn has come changes nothing. Otherwise the update leaves its queue, and a clean row whose new image is finite
is written in place, counted and dropped from the Row Cache; a non-finite image and a poisoned row leave HBM unchanged
and are counted. (R458, R459, R462, R465, R466, R467.) -/
def Obligations.RowUpdatesAtTheOwner : Prop :=
  ∀ s : State, s.coreUp = true →
    (∀ (q : Packet) (l : List Packet) (n : Nat) (rows : List (Nat × List Byte)), q.typ = 8 →
      s.slotOfKey (q.tfb 8 4) = some n → (s.tbl n).switch = none → streamOk (q :: l) = true →
      groupRows (s.dir n).elems (streamBody (q :: l)) = some rows →
      (writerRefusal (s.plan (q.tfb 8 4)) q = none →
        optRefusal (fieldAt (streamBody (q :: l)) 0 1) (s.dir n).fmt (s.dir n).elems (s.dir n).pitch = none →
        ∃ t u, exec (.update (q :: l)) s = .next t ∧ Settles u t ∧
          (∀ m, (u.fur m).upds = (s.fur m).upds ++ (rows.filter (fun e => stackIn (s.dir n).mask e.1 == m)).map (fun e =>
            ⟨q.tfb 8 4, q.srcDie, q.srcAgent, q.tfb 12 4, q.epoch, e.1, (streamBody (q :: l)).take 32, e.2⟩) ∧
            (u.fur m).parts = (s.fur m).parts) ∧
          u.hbm = s.hbm ∧ u.plots = s.plots ∧ u.jobs = s.jobs) ∧
      (writerRefusal (s.plan (q.tfb 8 4)) q ≠ none → ∃ t u, exec (.update (q :: l)) s = .next t ∧ Settles u t ∧
        u.furrow = s.furrow ∧ u.rd Reg.FUR_UPD_SKIP_STALE [stackIn (s.dir n).mask ((rows.map (·.1)).headD 0)] =
          satAdd 16 (s.rd Reg.FUR_UPD_SKIP_STALE [stackIn (s.dir n).mask ((rows.map (·.1)).headD 0)]) 1 ∧
        u.hbm = s.hbm ∧ u.plots = s.plots ∧ u.jobs = s.jobs)) ∧
    (∀ n : Fin 6,
      (s.nextUpd n = none → ∃ t, exec (.rowUpdate n false) s = .next t ∧ Settles s t) ∧
      (∀ (x : FUpd) (k : Nat), s.nextUpd n = some x → s.slotOfKey x.tkey = some k →
        (s.hbmPoisoned (s.rowAddr k x.row) (s.dir k).pitch = true → ∃ t u, exec (.rowUpdate n false) s = .next t ∧ Settles u t ∧
          (u.fur n).upds = (s.fur n).upds.erase x ∧
          u.rd Reg.FUR_UPD_SKIP_UE [n] = satAdd 16 (s.rd Reg.FUR_UPD_SKIP_UE [n]) 1 ∧ u.hbm = s.hbm ∧ u.plots = s.plots ∧
          u.jobs = s.jobs) ∧
        (s.hbmPoisoned (s.rowAddr k x.row) (s.dir k).pitch = false →
          (newRow x.hdr (s.dir k).fmt (s.dir k).elems (s.hbmRead (s.rowAddr k x.row) (s.dir k).pitch) x.grad = none →
            ∃ t u, exec (.rowUpdate n false) s = .next t ∧ Settles u t ∧ (u.fur n).upds = (s.fur n).upds.erase x ∧
              u.rd Reg.FUR_UPD_SKIP_NONFINITE [n] = satAdd 16 (s.rd Reg.FUR_UPD_SKIP_NONFINITE [n]) 1 ∧ u.hbm = s.hbm ∧
              u.plots = s.plots ∧ u.jobs = s.jobs) ∧
          (∀ b ev, newRow x.hdr (s.dir k).fmt (s.dir k).elems (s.hbmRead (s.rowAddr k x.row) (s.dir k).pitch) x.grad = some (b, ev) →
            ∃ t u, exec (.rowUpdate n false) s = .next t ∧ Settles u t ∧ (u.fur n).upds = (s.fur n).upds.erase x ∧
              u.hbmRead (s.rowAddr k x.row) b.length = b ∧
              (∀ a, a < s.rowAddr k x.row ∨ s.rowAddr k x.row + b.length ≤ a → u.hbmByte a = s.hbmByte a) ∧
              u.rd Reg.FUR_UPD_CNT_COUNT [n] = (s.rd Reg.FUR_UPD_CNT_COUNT [n] + 1) % 2 ^ 64 ∧
              (∀ e, e ∈ u.rwc.lines → ¬ (e.2.tkey = (s.dir k).tkey ∧ e.2.row = x.row)) ∧ u.plots = s.plots ∧ u.jobs = s.jobs))))

/-- ROW_CACHE_FILL takes the fill out and puts its line in the victim's way, or counts a discard or a bypass. CACHE_DECAY
halves every counter once enough batches have passed. EPOCH_ADV counts the step epoch and, like INVAL_ALL, empties the
cache; a write of RWC_INV_KEY queues a keyed invalidation, and INVALIDATION_COMPLETE drops that table's lines, and
with the last one answers the waiting commands. FURROW_PART_POOLED sends the pooled part at the head of the unit's
queue as scratch writes. GREQ gives each of its parts to the unit of its first row's stack; PFETCH starts the fill of
an absent row. (R432, R433, R434, R437, R438, R439, R441, R448.) -/
def Obligations.RowCacheAndFurrow : Prop :=
  ∀ s : State, s.coreUp = true →
    (∀ i : Nat, (s.rwc.fills[i]? = none → ∃ t, exec (.rowCacheFill i) s = .next t ∧ t = s) ∧
      (∀ f, s.rwc.fills[i]? = some f →
        (f.dead = true → ∃ t, exec (.rowCacheFill i) s = .next t ∧ t.rwc = { s.rwc with fills := s.rwc.fills.eraseIdx i } ∧
          t.rd Reg.RWC_DISCARD_COUNT [] = (s.rd Reg.RWC_DISCARD_COUNT [] + 1) % 2 ^ 64 ∧
          OnlyRegs { s with rwc := t.rwc } t [Reg.RWC_DISCARD_COUNT.key []]) ∧
        (f.dead = false → s.cached f.tkey f.row = false →
          (s.victim f = none → ∃ t, exec (.rowCacheFill i) s = .next t ∧ t.rwc = { s.rwc with fills := s.rwc.fills.eraseIdx i } ∧
            t.rd Reg.RWC_BYPASS_COUNT [] = (s.rd Reg.RWC_BYPASS_COUNT [] + 1) % 2 ^ 64 ∧
            OnlyRegs { s with rwc := t.rwc } t [Reg.RWC_BYPASS_COUNT.key []]) ∧
          (∀ k, s.victim f = some k → ∃ t, exec (.rowCacheFill i) s = .next t ∧
            t.rwc = { s.rwc with fills := s.rwc.fills.eraseIdx i, lines := FMap.put s.rwc.lines k ⟨f.tkey, f.row,
              if f.prefetch = true then s.rdA Reg.RWC_PARAM_PF_INSERT [] else s.rdA Reg.RWC_PARAM_INSERT [], f.data⟩ } ∧
            t.rd Reg.RWC_FILL_COUNT [] = (s.rd Reg.RWC_FILL_COUNT [] + 1) % 2 ^ 64 ∧
            OnlyRegs { s with rwc := t.rwc } t [Reg.RWC_FILL_COUNT.key []])))) ∧
    ((s.rdA Reg.RWC_PARAM_DECAY_BATCHES [] = 0 ∨ s.rwc.batches < s.rdA Reg.RWC_PARAM_DECAY_BATCHES [] →
        ∃ t, exec .cacheDecay s = .next t ∧ t = s) ∧
      (s.rdA Reg.RWC_PARAM_DECAY_BATCHES [] ≠ 0 → s.rdA Reg.RWC_PARAM_DECAY_BATCHES [] ≤ s.rwc.batches →
        ∃ t, exec .cacheDecay s = .next t ∧ t = { s with rwc := { s.rwc with
          batches := 0, lines := s.rwc.lines.map (fun e => (e.1, { e.2 with use := e.2.use / 2 })) } })) ∧
    (∀ src : Src, s.mayWrite src = true →
      (∃ t, exec (.epochAdv src) s = .next t ∧ t.rd Reg.RWC_STAT_EPOCH [] = (s.rd Reg.RWC_STAT_EPOCH [] + 1) % 65536 ∧
        t.rwc.lines = [] ∧ (∀ f, f ∈ t.rwc.fills → f.dead = true) ∧ t.on (cPending .rwcParam) [] = false ∧
        t.hbm = s.hbm ∧ t.plots = s.plots ∧ t.jobs = s.jobs) ∧
      (∃ t, exec (.invalAll src) s = .next t ∧ t = { s with rwc := { s.rwc with
        lines := [], fills := s.rwc.fills.map (fun f => { f with dead := true }) } }) ∧
      (∀ k, ∃ t, exec (.rwcInvKey src k) s = .next t ∧ t.rwc = { s.rwc with inv := s.rwc.inv ++ [k % 2 ^ 32] } ∧
        t.rd Reg.RWC_STAT_INV_BUSY [] = 1 ∧ OnlyRegs { s with rwc := t.rwc } t [Reg.RWC_STAT_INV_BUSY.key []])) ∧
    ((s.rwc.inv = [] → ∃ t, exec .invalidationComplete s = .next t ∧ t = s) ∧
      (∀ k r, s.rwc.inv = k :: r → ∃ t, exec .invalidationComplete s = .next t ∧ t.rwc.inv = r ∧
        (∀ e, e ∈ t.rwc.lines ↔ e ∈ s.rwc.lines ∧ e.2.tkey ≠ k) ∧ t.on Reg.RWC_STAT_INV_BUSY [] = !r.isEmpty ∧
        (r ≠ [] → t.rwc.waits = s.rwc.waits ∧ t.mbx.cmds = s.mbx.cmds) ∧
        (r = [] → t.rwc.waits = [] ∧ ∀ e d, e ∈ s.rwc.waits → s.cmd? e.1 e.2 = some d → t.resultOf e.1 e.2 = some (0, [])) ∧
        t.hbm = s.hbm ∧ t.plots = s.plots ∧ t.jobs = s.jobs)) ∧
    (∀ n : Fin 6,
      ((s.fur n).parts = [] → ∃ t, exec (.furrowPartPooled n) s = .next t ∧ Settles s t) ∧
      (∀ x rest, (s.fur n).parts = x :: rest →
        (∀ y, y ∈ x.reads → s.hbmPoisoned y.addr (64 * cdiv (readPart x.fmt x.elems) 64) = false) →
        ∃ t u, exec (.furrowPartPooled n) s = .next t ∧ Settles u t ∧ (u.fur n).parts = rest ∧
          u.rd Reg.FUR_PARTIALS_COUNT [n] = (s.rd Reg.FUR_PARTIALS_COUNT [n] + 1) % 2 ^ 64 ∧
          u.rd Reg.FUR_ROWS_COUNT [n] = (s.rd Reg.FUR_ROWS_COUNT [n] + x.reads.length) % 2 ^ 64 ∧
          u.link.routeQ = s.link.routeQ ++ (scratchPkts s.self n x false
            ((poolRows x.fmt x.elems (x.terms.map (fun y => (y.weight, s.termBytes (readPart x.fmt x.elems) y)))).flatMap
              (leBytes 4))).map (fun q => ⟨q, 8, s.now⟩) ∧
          u.hbm = s.hbm ∧ u.plots = s.plots ∧ u.jobs = s.jobs)) ∧
    (∀ (q : Packet) (l : List Packet) (n : Nat) (parts : List GPart), q.typ = 6 → s.slotOfKey (q.tfb 8 4) = some n →
      ((s.tbl n).switch ≠ none → ∃ t, exec (.greq (q :: l)) s = .next t ∧ Settles s t) ∧
      ((s.tbl n).switch = none → streamOk (q :: l) = true →
        groupParts ((streamBody (q :: l)).length + 1) (streamBody (q :: l)) = some parts →
        ∃ t u, exec (.greq (q :: l)) s = .next t ∧ Settles u t ∧
          (∀ m, (u.fur m).parts.length = (s.fur m).parts.length +
            (parts.filter (fun g => stackIn (s.dir n).mask ((g.rows.headD (0, 0)).1) == m)).length) ∧
          u.rd Reg.SIV_PLACES_COUNT [s.arrivalPort q % 2] = (s.rd Reg.SIV_PLACES_COUNT [s.arrivalPort q % 2] +
            (parts.map (fun g => g.weights.length)).sum) % 2 ^ 64 ∧
          u.rwc.batches = s.rwc.batches + 1 ∧ u.hbm = s.hbm ∧ u.plots = s.plots ∧ u.jobs = s.jobs)) ∧
    (∀ (q : Packet) (l : List Packet), q.typ = 13 →
      (s.slotOfKey (q.tfb 8 4) = none → ∃ t, exec (.pfetch (q :: l)) s = .next t ∧ Settles (takeStream s (q :: l)) t) ∧
      (∀ n r, s.slotOfKey (q.tfb 8 4) = some n → streamOk (q :: l) = true → streamBody (q :: l) = rowEntry r 1 ++ fill 8 0 →
        r < 2 ^ 40 →
        (s.cached (s.dir n).tkey r = true → ∃ t, exec (.pfetch (q :: l)) s = .next t ∧ Settles (takeStream s (q :: l)) t) ∧
        (s.cached (s.dir n).tkey r = false → readPart (s.dir n).fmt (s.dir n).elems ≤ 256 →
          s.hbmPoisoned (s.rowAddr n r) (64 * cdiv (readPart (s.dir n).fmt (s.dir n).elems) 64) = false →
          ∃ t u, exec (.pfetch (q :: l)) s = .next t ∧ Settles u t ∧
            u.rwc.fills = s.rwc.fills ++ [⟨(s.dir n).tkey, r, s.hbmRead (s.rowAddr n r)
              (readPart (s.dir n).fmt (s.dir n).elems), true, false⟩] ∧
            u.regs = s.regs ∧ u.hbm = s.hbm ∧ u.plots = s.plots ∧ u.jobs = s.jobs)))

/-- A context that can issue runs the instruction at its PC. NOP moves PC on. SETL sets a loop register. LOOP decrements
it and jumps while it is not zero. JUMP moves PC to its target. WAIT subtracts COUNT from its counter when it has
reached it, and otherwise blocks the context with kind SIGNAL. SIGNAL leaves at once with no earlier write
outstanding, and otherwise is queued. FENCE flushes the plot's coalescer entries and retires when the operations of
its scope are complete, and otherwise blocks the context until FENCE_COMPLETE. HALT holds the context as a FENCE
SYSTEM does; at HALT_RETIRE it is HALTED, and the job ends OK once every context that the bundle names has halted. LDT
makes the row's words the context's active set, or records the failing check and faults with cause 4. A bad field
faults with cause 2, a jump target or PC past 4,095 with cause 3, an opcode outside the set with cause 1. (Stated for
instructions with no captured set waiting for its boundary; LDT without codebooks and activation.) (R287, R291, R292,
R318, R319, R325, R637.) -/
def Obligations.RakeControlInstructions : Prop :=
  ∀ (s : State) (p : Fin 16) (c : Fin 4) (l : List Byte),
    (s.coreUp = true → s.canIssue p c = true → s.instrAt p (s.pcOf p c) = l → fieldAt l 0 1 ∉ rakeOpcodes →
      ∃ t u, exec (.nop p c) s = .next t ∧ Settles u t ∧ Faults s u p c 1 (fieldAt l 0 1) .jobFault) ∧
    (Issues s p c 0 l →
      (∀ i, firstNonzero l [1, 2, 3, 4, 5, 6, 7, 8, 9, 10, 11, 12, 13, 14, 15] = some i →
        ∃ t u, exec (.nop p c) s = .next t ∧ Settles u t ∧ Faults s u p c 2 i .jobFault) ∧
      (zeroBytes l 1 15 → s.pcOf p c = 4095 →
        ∃ t u, exec (.nop p c) s = .next t ∧ Settles u t ∧ Faults s u p c 3 4096 .jobFault) ∧
      (zeroBytes l 1 15 → s.noSets p c → s.pcOf p c < 4095 →
        ∃ t u, exec (.nop p c) s = .next t ∧ Settles u t ∧ Retires s u p c (s.pcOf p c + 1) (s.ctx p c).loops [])) ∧
    (Issues s p c 2 l →
      (3 < fieldAt l 1 1 → ∃ t u, exec (.setl p c) s = .next t ∧ Settles u t ∧ Faults s u p c 2 1 .jobFault) ∧
      (fieldAt l 1 1 ≤ 3 → zeroBytes l 2 3 → zeroBytes l 8 15 → s.noSets p c → s.pcOf p c < 4095 →
        ∃ t u, exec (.setl p c) s = .next t ∧ Settles u t ∧
          Retires s u p c (s.pcOf p c + 1) ((s.ctx p c).loops.set (fieldAt l 1 1) (fieldAt l 4 4)) [])) ∧
    (Issues s p c 3 l → zeroBytes l 4 15 →
      (3 < fieldAt l 1 1 → ∃ t u, exec (.loopDec p c) s = .next t ∧ Settles u t ∧ Faults s u p c 2 1 .jobFault) ∧
      (fieldAt l 1 1 ≤ 3 → 4095 < fieldAt l 2 2 →
        ∃ t u, exec (.loopDec p c) s = .next t ∧ Settles u t ∧ Faults s u p c 3 (fieldAt l 2 2) .jobFault) ∧
      (∀ v, fieldAt l 1 1 ≤ 3 → fieldAt l 2 2 ≤ 4095 → s.noSets p c → s.pcOf p c < 4095 →
        v = (s.ctx p c).loops.getD (fieldAt l 1 1) 0 - 1 →
        ∃ t u, exec (.loopDec p c) s = .next t ∧ Settles u t ∧
          Retires s u p c (if v = 0 then s.pcOf p c + 1 else fieldAt l 2 2) ((s.ctx p c).loops.set (fieldAt l 1 1) v) [])) ∧
    (Issues s p c 4 l → fieldAt l 1 1 = 0 → zeroBytes l 4 15 →
      (4095 < fieldAt l 2 2 → ∃ t u, exec (.jump p c) s = .next t ∧ Settles u t ∧ Faults s u p c 3 (fieldAt l 2 2) .jobFault) ∧
      (fieldAt l 2 2 ≤ 4095 → s.noSets p c → ∃ t u, exec (.jump p c) s = .next t ∧ Settles u t ∧
        Retires s u p c (fieldAt l 2 2) (s.ctx p c).loops [])) ∧
    (Issues s p c 0x28 l → fieldAt l 1 1 < 8 → fieldAt l 2 2 ≠ 0 → zeroBytes l 4 15 →
      (fieldAt l 2 2 ≤ s.rd Reg.RKE_SIG_COUNT [p, c, fieldAt l 1 1] → s.noSets p c → s.pcOf p c < 4095 →
        ∃ t u, exec (.wait p c) s = .next t ∧ Settles u t ∧
          Retires s u p c (s.pcOf p c + 1) (s.ctx p c).loops [Reg.RKE_SIG_COUNT.key [p, c, fieldAt l 1 1]] ∧
          u.rd Reg.RKE_SIG_COUNT [p, c, fieldAt l 1 1] = s.rd Reg.RKE_SIG_COUNT [p, c, fieldAt l 1 1] - fieldAt l 2 2) ∧
      (s.rd Reg.RKE_SIG_COUNT [p, c, fieldAt l 1 1] < fieldAt l 2 2 → ∃ t u, exec (.wait p c) s = .next t ∧ Settles u t ∧
        u.ctxState p c = 2 ∧ u.rd Reg.RKE_CTX_WAIT_KIND [p, c] = 3 ∧
        u.rd Reg.RKE_CTX_WAIT_ARG [p, c] = fieldAt l 1 1 + 2 ^ 16 * fieldAt l 2 2 ∧ Settles s u)) ∧
    (Issues s p c 0x29 l → fieldAt l 1 1 < 8 → fieldAt l 2 2 ≠ 0 → fieldAt l 6 1 ≤ 1 → zeroBytes l 7 15 → s.noSets p c →
      s.pcOf p c < 4095 → (s.ctx p c).sigs = [] → ∃ t u, exec (.signal p c) s = .next t ∧ Settles u t ∧
        u.pcOf p c = s.pcOf p c + 1 ∧ u.ctxLive p c = true ∧ u.hbm = s.hbm ∧
        (s.writesBefore p c (s.ctx p c).issued = true → (u.ctx p c).sigs = [((s.ctx p c).issued, s.signalPacket p c l)] ∧
          Sent s u [] ∧ u.flights = s.flights) ∧
        (s.writesBefore p c (s.ctx p c).issued = false → (u.ctx p c).sigs = [] ∧ Sent s u [s.signalPacket p c l] ∧
          ∃ f, u.flights = s.flights ++ [f] ∧ f.typ = 2 ∧ f.ctx = 4 * p.val + c.val ∧ f.die = (s.signalPacket p c l).dstDie ∧
            f.agent = fieldAt l 5 1)) ∧
    (Issues s p c 0x2A l → fieldAt l 1 1 ≤ 2 → zeroBytes l 2 15 →
      ((flushAll s p).fenceClear p c (fieldAt l 1 1) = true → s.noSets p c → s.pcOf p c < 4095 →
        ∃ t u, exec (.fence p c) s = .next t ∧ Settles u t ∧
          Retires (flushAll s p) u p c (s.pcOf p c + 1) (s.ctx p c).loops []) ∧
      ((flushAll s p).fenceClear p c (fieldAt l 1 1) = false → ∃ t u, exec (.fence p c) s = .next t ∧ Settles u t ∧
        u.ctxState p c = 2 ∧ u.rd Reg.RKE_CTX_WAIT_KIND [p, c] = 6 ∧ u.rd Reg.RKE_CTX_WAIT_ARG [p, c] = fieldAt l 1 1 ∧
        (u.ctx p c).fence = some (fieldAt l 1 1) ∧ u.pcOf p c = s.pcOf p c ∧ u.hbm = s.hbm)) ∧
    ((s.ctx p c).fence = none → ∃ t, exec (.fenceComplete p c) s = .next t ∧ Settles s t) ∧
    (∀ k, (s.ctx p c).fence = some k → s.fenceClear p c k = false → ∃ t, exec (.fenceComplete p c) s = .next t ∧ Settles s t) ∧
    (∀ k, (s.ctx p c).fence = some k → (s.ctx p c).halting = false → s.ctxLive p c = true → s.fenceClear p c k = true →
      s.noSets p c → s.pcOf p c < 4095 → ∃ t u, exec (.fenceComplete p c) s = .next t ∧ Settles u t ∧
        u.pcOf p c = s.pcOf p c + 1 ∧ u.ctxLive p c = true ∧ (u.ctx p c).fence = none ∧
        (u.ctx p c).issued = (s.ctx p c).issued + 1 ∧ (∀ q d : Nat, q ≠ p ∨ d ≠ c → u.ctx q d = s.ctx q d) ∧
        u.hbm = s.hbm) ∧
    (Issues s p c 1 l → zeroBytes l 1 15 → ∃ t u, exec (.halt p c) s = .next t ∧ Settles u t ∧
      (u.ctx p c).halting = true ∧ (u.ctx p c).fence = some 2 ∧ u.ctxState p c = 2 ∧ u.pcOf p c = s.pcOf p c ∧
      u.jobs = s.jobs ∧ u.hbm = s.hbm) ∧
    ((s.ctx p c).halting = false → ∃ t, exec (.haltRetire p c) s = .next t ∧ Settles s t) ∧
    (s.fenceClear p c 2 = false → ∃ t, exec (.haltRetire p c) s = .next t ∧ Settles s t) ∧
    ((s.ctx p c).halting = true → s.ctxLive p c = true → s.fenceClear p c 2 = true →
      ∃ t u, exec (.haltRetire p c) s = .next t ∧ Settles u t ∧ u.ctxState p c = 0 ∧ u.hbm = s.hbm ∧
        (s.jobOf p = none → u.jobs = s.jobs) ∧
        (∀ j, s.jobOf p = some j → (s.job j).state = 1 →
          ((∃ q d : Nat, q ∈ (s.job j).plotList ∧ d < 4 ∧ (q ≠ p ∨ d ≠ c) ∧ entryPoint (s.job j).bundle q d ≠ none ∧
              s.ctxState q d ≠ 0) → (u.job j).state = 1) ∧
          ((∀ q d : Nat, q ∈ (s.job j).plotList → d < 4 → (q ≠ p ∨ d ≠ c) → entryPoint (s.job j).bundle q d ≠ none →
              s.ctxState q d = 0) → (u.job j).state = 2 ∧ (u.job j).final = 0 ∧ (u.job j).changedAt = s.now))) ∧
    (∀ (w : State) (d : List Byte), Issues s p c 8 l → fieldAt l 1 1 = 0 → zeroBytes l 4 15 →
      (s.storeRows p 0 ≤ fieldAt l 2 2 → ∃ t u, exec (.ldt p c) s = .next t ∧ Settles u t ∧
        Faults s u p c 6 (fieldAt l 2 2) .jobFault) ∧
      (readRow s p 0 (fieldAt l 2 2) tagNone = (w, .ok d) →
        (∀ k, w.dtFails p d = some k → ∃ t u, exec (.ldt p c) s = .next t ∧ Settles u t ∧ Faults s u p c 4 0 .jobFault ∧
          u.rd Reg.RKE_DTERR_CHECK [p] = k ∧ u.rd Reg.RKE_DTERR_CTX [p] = c ∧ u.on Reg.RKE_DTERR_VALID [p] = true) ∧
        (w.dtFails p d = none → s.pcOf p c < 4095 → actEn (dtAct d) = false → isCb (opFmt d 0) = false →
          isCb (opFmt d 1) = false → ∃ t u, exec (.ldt p c) s = .next t ∧ Settles u t ∧
            u.pcOf p c = s.pcOf p c + 1 ∧ u.ctxLive p c = true ∧
            (∀ i, i < 64 → u.rdA Reg.RKE_DT_WORD [p, c, i] = fieldAt d (4 * i) 4) ∧
            u.on (cPending (dtSet p c)) [] = false ∧ (∀ r, u.rowBytes p 0 r = w.rowBytes p 0 r) ∧ u.hbm = s.hbm)))

/-- An accepted signal to a context adds INC to its counter and is acknowledged to its sender, and changes no other
counter; one to agent 192 of its own die waits for firmware and is acknowledged. An increment past 65,535 leaves
65,535 and faults the context with cause 9. A refused signal changes no counter: the first refusal is recorded in
TOP_SIG_ERR with its reason, and a NAK goes back. An ACK takes the operation it answers out of the sender's flights. A
NAK does so too and faults the context that sent it, with cause 13 for a refused signal, 15 for a refused update and
16 otherwise; its job ends STALE_EPOCH or JOB_FAULT. (The ACK and NAK clauses are stated for a plot with no queued
signal.) (R315, R316, R385, R386, R387, R388, R482, R493.) -/
def Obligations.SignalsAndTheirAnswers : Prop :=
  ∀ (s : State) (q : Packet),
    (s.coreUp = false → ∃ t, exec (.signalDelivery q) s = .next t ∧ Settles (takeInbox s q) t) ∧
    (s.coreUp = true → q.typ = 2 → s.signalReason q = 0 → q.dstAgent < 64 →
      (s.rd Reg.RKE_SIG_COUNT [q.dstAgent / 4, q.dstAgent % 4, q.tfb 12 1 % 8] + q.tfb 10 2 < 65536 →
        ∃ t u, exec (.signalDelivery q) s = .next t ∧ Settles u t ∧ Sent s u [ackOf s.self q false false 0] ∧
          u.rd Reg.RKE_SIG_COUNT [q.dstAgent / 4, q.dstAgent % 4, q.tfb 12 1 % 8] =
            s.rd Reg.RKE_SIG_COUNT [q.dstAgent / 4, q.dstAgent % 4, q.tfb 12 1 % 8] + q.tfb 10 2 ∧
          (∀ f i, f.key i ≠ Reg.RKE_SIG_COUNT.key [q.dstAgent / 4, q.dstAgent % 4, q.tfb 12 1 % 8] →
            f.key i ≠ Reg.TOP_TRL_FLITS_COUNT.key [q.dstAgent / 4] → u.rd f i = s.rd f i) ∧
          u.plots = s.plots ∧ u.jobs = s.jobs ∧ u.flights = s.flights ∧ u.hbm = s.hbm) ∧
      (65536 ≤ s.rd Reg.RKE_SIG_COUNT [q.dstAgent / 4, q.dstAgent % 4, q.tfb 12 1 % 8] + q.tfb 10 2 →
        ∃ t u, exec (.signalDelivery q) s = .next t ∧ Settles u t ∧
          u.rd Reg.RKE_SIG_COUNT [q.dstAgent / 4, q.dstAgent % 4, q.tfb 12 1 % 8] = 65535 ∧
          Faults s u (q.dstAgent / 4) (q.dstAgent % 4) 9 (q.tfb 12 1 % 8) .jobFault)) ∧
    (s.coreUp = true → q.typ = 2 → q.dstAgent = 192 → q.srcDie = s.self →
      ∃ t u, exec (.signalDelivery q) s = .next t ∧ Settles u t ∧ u.cloche.sigQ = s.cloche.sigQ ++ [q] ∧
        Sent s u [ackOf s.self q false false 0] ∧
        (∀ f i, f.key i ≠ Reg.TOP_TRL_FLITS_COUNT.key [23] → u.rd f i = s.rd f i) ∧ u.hbm = s.hbm) ∧
    (s.coreUp = true → q.typ = 2 → s.signalReason q ≠ 0 → ∃ t u, exec (.signalDelivery q) s = .next t ∧ Settles u t ∧
      Sent s u [nakOf s.self q (0x17 + s.signalReason q) 0] ∧
      (∀ p c n : Nat, p < 16 → c < 4 → n < 8 → u.rd Reg.RKE_SIG_COUNT [p, c, n] = s.rd Reg.RKE_SIG_COUNT [p, c, n]) ∧
      (s.on Reg.TOP_SIG_ERR_VALID [] = false → u.on Reg.TOP_SIG_ERR_VALID [] = true ∧
        u.rd Reg.TOP_SIG_ERR_DIE [] = q.srcDie % 256 ∧ u.rd Reg.TOP_SIG_ERR_AGENT [] = q.srcAgent % 256 ∧
        u.rd Reg.TOP_SIG_ERR_DEST [] = q.dstAgent % 256 ∧ u.rd Reg.TOP_SIG_ERR_REASON [] = s.signalReason q) ∧
      (s.on Reg.TOP_SIG_ERR_VALID [] = true → u.on Reg.TOP_SIG_ERR_VALID [] = true ∧
        u.rd Reg.TOP_SIG_ERR_DIE [] = s.rd Reg.TOP_SIG_ERR_DIE [] ∧
        u.rd Reg.TOP_SIG_ERR_AGENT [] = s.rd Reg.TOP_SIG_ERR_AGENT [] ∧
        u.rd Reg.TOP_SIG_ERR_DEST [] = s.rd Reg.TOP_SIG_ERR_DEST [] ∧
        u.rd Reg.TOP_SIG_ERR_REASON [] = s.rd Reg.TOP_SIG_ERR_REASON []) ∧ u.plots = s.plots ∧ u.jobs = s.jobs ∧ u.hbm = s.hbm) ∧
    (∀ f : Flight, s.coreUp = true → s.flights.find? (fun f => f.answers q) = some f → f.ctx < 64 →
      (∀ c, c < 4 → (s.ctx (f.ctx / 4) c).sigs = []) →
      (q.typ = 3 → ∃ t u, exec (.ack q) s = .next t ∧ Settles u t ∧ u.flights = s.flights.erase f ∧
        u.regs = s.regs ∧ u.plots = s.plots ∧ u.jobs = s.jobs ∧ u.hbm = s.hbm) ∧
      (q.typ = 4 → ∃ t u, exec (.nak q) s = .next t ∧ Settles u t ∧ u.flights = s.flights.erase f ∧
        Faults s u (f.ctx / 4) (f.ctx % 4) (nakCause (q.tfb 8 1) (q.tfb 9 1)).1 (q.tfb 9 1) (nakStatus (q.tfb 9 1)))) ∧
    (s.coreUp = false → (∃ t, exec (.ack q) s = .next t ∧ Settles (takeInbox s q) t) ∧
      ∃ t, exec (.nak q) s = .next t ∧ Settles (takeInbox s q) t)

/-- QD_ARM of a slot that is not armed takes every field of the write and clears GEN; of an armed slot it changes nothing.
QD_DISARM clears EN and keeps every other field. QD_WINDOW_EXPIRY of a slot that has been quiescent for its window
sends one QUIET report to the coordinator. QUIET is kept, and when every die of the set has reported the coordinator
sends its PROBEs. PROBE is answered NOT_ARMED, ACTIVE, or QUIET with a snapshot latched once for each GEN. The last
answer of a round gives a verdict when every answer is QUIET with its report's GEN, and otherwise a cancellation that
discards the reports that differ. VERDICT sets the slot's VERDICT and ends the die's part of the job with DEADLOCK.
(R383, R393, R394, R396, R397, R398.) -/
def Obligations.QuiescenceProtocol : Prop :=
  ∀ s : State,
    (∀ (src : Src) (g : Fin 16) (v : Nat), s.mayWrite src = true →
      (s.armed g = true → ∃ t, exec (.qdArm src g v) s = .next t ∧ Settles s t) ∧
      (s.armed g = false → ∃ t u, exec (.qdArm src g v) s = .next t ∧ Settles u t ∧
        u.rd Reg.TOP_QD_GRP_PLOTS [g] = bitsOf v 0 16 ∧ u.rd Reg.TOP_QD_GRP_EN [g] = 1 ∧
        u.rd Reg.TOP_QD_GRP_FEED_EN [g] = bitsOf v 17 1 ∧ u.rd Reg.TOP_QD_GRP_FEED_PLOT [g] = bitsOf v 18 4 ∧
        u.rd Reg.TOP_QD_GRP_FEED_CTX [g] = bitsOf v 22 2 ∧ u.rd Reg.TOP_QD_GRP_COORD [g] = bitsOf v 24 8 ∧
        u.rd Reg.TOP_QD_GRP_GTAG [g] = bitsOf v 32 16 ∧ u.rd Reg.TOP_QD_GRP_EPOCH [g] = bitsOf v 48 16 ∧
        u.rd Reg.TOP_QD_GST_ARMED [g] = 1 ∧ u.rd Reg.TOP_QD_GST_GEN [g] = 0 ∧ u.plots = s.plots ∧ u.jobs = s.jobs ∧
        (∀ h : Fin 16, h ≠ g → u.rd Reg.TOP_QD_GRP_EN [h] = s.rd Reg.TOP_QD_GRP_EN [h] ∧
          u.rd Reg.TOP_QD_GRP_GTAG [h] = s.rd Reg.TOP_QD_GRP_GTAG [h])) ∧
      (∃ t u, exec (.qdDisarm src g) s = .next t ∧ Settles u t ∧ u.rd Reg.TOP_QD_GRP_EN [g] = 0 ∧
        u.rd Reg.TOP_QD_GST_ARMED [g] = 0 ∧ u.rd Reg.TOP_QD_GST_QUIET [g] = 0 ∧ u.rd Reg.TOP_QD_GST_REPORTED [g] = 0 ∧
        (∀ f i, f.key i ∉ Reg.TOP_QD_GRP_EN.key [g] :: Reg.TOP_QD_GST_ARMED.key [g] :: settleKeys → u.rd f i = s.rd f i) ∧
        u.plots = s.plots ∧ u.jobs = s.jobs)) ∧
    (∀ (w : State) (g : Fin 16), w = qdRefresh s →
      ((w.armed g = false ∨ w.on Reg.TOP_QD_GST_QUIET [g] = false ∨ w.on Reg.TOP_QD_GST_REPORTED [g] = true ∨
          w.on Reg.TOP_QD_WIN_OFF [g] = true ∨ w.now < (w.qslot g).since + (w.qslot g).window) →
        ∃ t, exec (.qdWindowExpiry g) s = .next t ∧ Settles w t) ∧
      (w.armed g = true → w.on Reg.TOP_QD_GST_QUIET [g] = true → w.on Reg.TOP_QD_GST_REPORTED [g] = false →
        w.on Reg.TOP_QD_WIN_OFF [g] = false → (w.qslot g).since + (w.qslot g).window ≤ w.now →
        ∃ t u, exec (.qdWindowExpiry g) s = .next t ∧ Settles u t ∧ u.rd Reg.TOP_QD_GST_REPORTED [g] = 1 ∧
          Sent s u [w.qdPacket g 0 (w.rd Reg.TOP_QD_GRP_COORD [g])] ∧ u.plots = w.plots)) ∧
    (∀ (q : Packet), s.slotOf q = none → (∃ t, exec (.quiet q) s = .next t ∧ Settles (takeInbox s q) t) ∧
      (∃ t, exec (.qdAnswer q) s = .next t ∧ Settles (takeInbox s q) t) ∧
      (∃ t, exec (.verdict q) s = .next t ∧ Settles (takeInbox s q) t) ∧
      (∃ t u, exec (.probe q) s = .next t ∧ Settles u t ∧
        Sent s u [ctlPacket 11 q.srcDie s.self 192 192 q.epoch (q.tfb 8 2 + 2 ^ 16 * 4)])) ∧
    (∀ (q : Packet) (g : Nat) (x : QSlot), s.slotOf q = some g →
      (x = { s.qslot g with reports := FMap.put (s.qslot g).reports q.srcDie (q.tfb 12 2) } →
        q.srcDie ∈ s.dieSet g → q.tfb 10 1 = 0 →
        (((s.qslot g).round = true ∨ ∃ d, d ∈ s.dieSet g ∧ FMap.has x.reports d = false) →
          ∃ t u, exec (.quiet q) s = .next t ∧ Settles u t ∧ u.qslot g = x ∧ u.regs = s.regs ∧ Sent s u [] ∧ u.plots = s.plots) ∧
        ((s.qslot g).round = false → (∀ d, d ∈ s.dieSet g → FMap.has x.reports d = true) →
          ∃ t u, exec (.quiet q) s = .next t ∧ Settles u t ∧ Sent s u ((s.dieSet g).map (s.qdPacket g 1)) ∧
            u.qslot g = { x with round := true, answers := [], lostProbes := 0 } ∧ u.plots = s.plots)) ∧
      (∀ a, (a = if q.tfb 10 1 = 2 then some (q.tfb 12 2) else none) →
        x = { s.qslot g with answers := FMap.put (s.qslot g).answers q.srcDie a } →
        q.srcDie ∈ s.dieSet g → (s.qslot g).round = true →
        (x.answers.length + x.lostProbes < (s.dieSet g).length →
          ∃ t u, exec (.qdAnswer q) s = .next t ∧ Settles u t ∧ u.qslot g = x ∧ u.regs = s.regs ∧ Sent s u [] ∧ u.plots = s.plots) ∧
        ((s.dieSet g).length ≤ x.answers.length + x.lostProbes →
          ((∀ d, d ∈ s.dieSet g → ∃ r, FMap.find x.answers d = some (some r) ∧ FMap.find x.reports d = some r) →
            ∃ t u, exec (.qdAnswer q) s = .next t ∧ Settles u t ∧ Sent s u ((s.dieSet g).map (s.qdPacket g 5)) ∧
              u.rd Reg.TOP_QD_STAT_VERDICTS [] = satAdd 16 (s.rd Reg.TOP_QD_STAT_VERDICTS []) 1 ∧
              u.rd Reg.TOP_QD_STAT_CANCELLED [] = s.rd Reg.TOP_QD_STAT_CANCELLED [] ∧ (u.qslot g).round = false ∧
              u.plots = s.plots) ∧
          ((∃ d, d ∈ s.dieSet g ∧ ¬ ∃ r, FMap.find x.answers d = some (some r) ∧ FMap.find x.reports d = some r) →
            ∃ t u, exec (.qdAnswer q) s = .next t ∧ Settles u t ∧ Sent s u [] ∧
              u.rd Reg.TOP_QD_STAT_CANCELLED [] = satAdd 16 (s.rd Reg.TOP_QD_STAT_CANCELLED []) 1 ∧
              u.rd Reg.TOP_QD_STAT_VERDICTS [] = s.rd Reg.TOP_QD_STAT_VERDICTS [] ∧ (u.qslot g).round = false ∧
              (∀ d, FMap.has (u.qslot g).reports d = true →
                ∃ r, FMap.find x.answers d = some (some r) ∧ FMap.find x.reports d = some r) ∧ u.plots = s.plots))) ∧
      (∃ t u, exec (.verdict q) s = .next t ∧ Settles u t ∧ u.rd Reg.TOP_QD_GST_VERDICT [g] = 1 ∧ u.hbm = s.hbm ∧
        ∀ j, (List.range 16).find? (fun j => (s.job j).loaded && (s.job j).groups.contains g) = some j → (s.job j).state = 1 →
          (u.job j).state = 2 ∧ (u.job j).final = 0x206 ∧ (u.job j).changedAt = s.now)) ∧
    (∀ (q : Packet) (g : Nat) (v : State), v = qdRefresh (takeInbox s q) → s.slotOf q = some g →
      (v.on Reg.TOP_QD_GST_QUIET [g] = false → ∃ t u, exec (.probe q) s = .next t ∧ Settles u t ∧
        Sent s u [v.qdPacket g 3 q.srcDie] ∧ u.plots = s.plots) ∧
      (v.on Reg.TOP_QD_GST_QUIET [g] = true → ∃ t u, exec (.probe q) s = .next t ∧ Settles u t ∧
        Sent s u [v.qdPacket g 2 q.srcDie] ∧ u.plots = s.plots ∧
        (v.on Reg.TOP_QD_GST_REPORTED [g] = true → (v.qslot g).latched ≠ some (v.rd Reg.TOP_QD_GST_GEN [g]) →
          u.rd Reg.TOP_QD_GST_SNAP_VALID [g] = 1 ∧ (u.qslot g).latched = some (v.rd Reg.TOP_QD_GST_GEN [g]) ∧
          (∀ p c : Nat, p ∈ v.members g → c < 4 → u.rd Reg.TOP_QD_SNAP_ENTRY [4 * p + c] = v.snapEntry p c % 2 ^ 64)) ∧
        ((v.qslot g).latched = some (v.rd Reg.TOP_QD_GST_GEN [g]) →
          ∀ k, k < 64 → u.rd Reg.TOP_QD_SNAP_ENTRY [k] = s.rd Reg.TOP_QD_SNAP_ENTRY [k])))

/-- REMOTE_WRITE_SEND sends the row first in line for a counter: one credit, one row with the counter's NEXT_SEQ and
EPOCH, NEXT_SEQ one further; with no credit it waits; a sender that the counter does not name faults with cause 8. An
RWRITE is checked in the order of R278. An accepted row is stored as a FILL at the window's next offset, NEXT_SEQ,
NEXT_OFF and OUTSTANDING advance, an ACK goes back, and no other row changes. A refused one changes no row, tag or
window position: it is counted and recorded with its reason and answered by a NAK with 0x0F + reason. A CREDIT adds to
the counter that names its window, up to 4,096; an unbound counter takes its epoch, a bound one discards another
epoch. CREDIT_RETURN returns the credits of emptied rows in ring order. (Rows that no Graft unit converts.) (R278,
R279, R281, R313, R314, R482.) -/
def Obligations.RemoteWritesAndCredits : Prop :=
  ∀ s : State, s.coreUp = true →
    (∀ p k : Fin 16,
      ((s.plot p).rq.find? (fun r => r.counter == k.val) = none → ∃ t, exec (.remoteWriteSend p k) s = .next t ∧ Settles s t) ∧
      (∀ r, (s.plot p).rq.find? (fun r => r.counter == k.val) = some r →
        (s.mayUse p k r.agent = false → r.ctx < 4 → ∃ t u, exec (.remoteWriteSend p k) s = .next t ∧ Settles u t ∧
          Faults s u p r.ctx 8 k .jobFault) ∧
        (s.mayUse p k r.agent = true → s.rd Reg.RKE_CRD_CREDITS [p, k] = 0 →
          ∃ t, exec (.remoteWriteSend p k) s = .next t ∧ Settles s t) ∧
        (s.mayUse p k r.agent = true → s.rd Reg.RKE_CRD_CREDITS [p, k] ≠ 0 → r.agent < 64 → r.ctx < 4 →
          s.rowEntryOf (s.rwritePacket p k r) = none → ∃ t u, exec (.remoteWriteSend p k) s = .next t ∧ Settles u t ∧
            Sent s u [s.rwritePacket p k r] ∧
            u.rd Reg.RKE_CRD_CREDITS [p, k] = s.rd Reg.RKE_CRD_CREDITS [p, k] - 1 ∧
            u.rd Reg.RKE_CRDSEQ_NEXT_SEQ [p, k] = (s.rd Reg.RKE_CRDSEQ_NEXT_SEQ [p, k] + 1) % 65536 ∧
            (u.plot p).rq = (s.plot p).rq.erase r ∧ (u.plot p).sto = (s.plot p).sto ∧
            (∃ f, u.flights = s.flights ++ [f] ∧ f.typ = 1 ∧ f.ctx = 4 * p.val + r.ctx ∧
              f.die = s.rd Reg.RKE_CRD_DEST_DIE [p, k] ∧ f.tag = s.rd Reg.RKE_CRDSEQ_NEXT_SEQ [p, k]) ∧ u.hbm = s.hbm))) ∧
    (∀ (q : Packet) (p w : Nat), q.typ = 1 → converted q = false → p = q.dstAgent / 4 → w = q.tfb 10 1 % 16 →
      ((16 ≤ p ∨ s.plotEn p = false) → ∃ t u, exec (.rwrite q) s = .next t ∧ Settles u t ∧ Sent s u [nakOf s.self q 0x10 0] ∧
        (∀ f i, f.key i ≠ Reg.TOP_TRL_FLITS_COUNT.key [agentStop q.dstAgent] → u.rd f i = s.rd f i) ∧
        u.plots = s.plots ∧ u.hbm = s.hbm) ∧
      (p < 16 → s.plotEn p = true → s.inboundReason p w q = 0 →
        s.rd Reg.STO_WINSTAT_NEXT_OFF [p, w] < s.rd Reg.STO_WIN_ROWS [p, w] →
        ∃ t u, exec (.rwrite q) s = .next t ∧ Settles u t ∧ Sent s u [ackOf s.self q false false 0] ∧
          u.rowBytes p (s.windowTarget p w).1 (s.windowTarget p w).2 = padTo 256 q.body ∧
          u.tagFull p (s.windowTarget p w).1 (s.windowTarget p w).2 = true ∧
          u.rowPoisoned p (s.windowTarget p w).1 (s.windowTarget p w).2 = false ∧
          (∀ st row, rowKey st row ≠ rowKey (s.windowTarget p w).1 (s.windowTarget p w).2 →
            u.rowBytes p st row = s.rowBytes p st row ∧ u.tagFull p st row = s.tagFull p st row) ∧
          u.rd Reg.STO_WINSTAT_NEXT_SEQ [p, w] = (s.rd Reg.STO_WINSTAT_NEXT_SEQ [p, w] + 1) % 65536 ∧
          u.rd Reg.STO_WINSTAT_NEXT_OFF [p, w] =
            (s.rd Reg.STO_WINSTAT_NEXT_OFF [p, w] + 1) % s.rd Reg.STO_WIN_ROWS [p, w] ∧
          u.rd Reg.STO_WINSTAT_OUTSTANDING [p, w] = (s.rd Reg.STO_WINSTAT_OUTSTANDING [p, w] + 1) % 8192 ∧
          (∀ o : Nat, o ≠ p → u.plot o = s.plot o) ∧ u.hbm = s.hbm) ∧
      (p < 16 → s.plotEn p = true → s.inboundReason p w q ≠ 0 → ∃ t u, exec (.rwrite q) s = .next t ∧ Settles u t ∧
        Sent s u [nakOf s.self q (0x0F + s.inboundReason p w q) 0] ∧
        u.rd Reg.STO_INB_ERR_COUNT [p] = satAdd 16 (s.rd Reg.STO_INB_ERR_COUNT [p]) 1 ∧
        u.rd Reg.STO_WINSTAT_REFUSED [p, w] = satAdd 16 (s.rd Reg.STO_WINSTAT_REFUSED [p, w]) 1 ∧
        u.rd Reg.STO_INB_ERR_REASON [p] = s.inboundReason p w q ∧ u.rd Reg.STO_INB_ERR_WINDOW [p] = w ∧
        u.rd Reg.STO_INB_ERR_DIE [p] = q.srcDie % 256 ∧
        u.rd Reg.STO_WINSTAT_NEXT_SEQ [p, w] = s.rd Reg.STO_WINSTAT_NEXT_SEQ [p, w] ∧
        u.rd Reg.STO_WINSTAT_NEXT_OFF [p, w] = s.rd Reg.STO_WINSTAT_NEXT_OFF [p, w] ∧
        u.rd Reg.STO_WINSTAT_OUTSTANDING [p, w] = s.rd Reg.STO_WINSTAT_OUTSTANDING [p, w] ∧
        u.plots = s.plots ∧ u.hbm = s.hbm)) ∧
    (∀ (q : Packet) (p k : Nat), q.typ = 5 → p = agentStop q.dstAgent → q.epoch < 65536 →
      (s.creditCounter p q = none → ∃ t, exec (.credit q) s = .next t ∧ Settles (takeInbox s q) t) ∧
      (p < 16 → s.creditCounter p q = some k →
        (s.on Reg.RKE_CRD_BOUND [p, k] = true → s.rd Reg.RKE_CRD_EPOCH [p, k] ≠ q.epoch →
          ∃ t, exec (.credit q) s = .next t ∧ Settles (takeInbox s q) t) ∧
        ((s.on Reg.RKE_CRD_BOUND [p, k] = false ∨ s.rd Reg.RKE_CRD_EPOCH [p, k] = q.epoch) →
          ∃ t u, exec (.credit q) s = .next t ∧ Settles u t ∧
            u.rd Reg.RKE_CRD_CREDITS [p, k] = min 4096 (s.rd Reg.RKE_CRD_CREDITS [p, k] + q.tfb 10 2) ∧
            u.rd Reg.RKE_CRD_EPOCH [p, k] = q.epoch ∧ u.on Reg.RKE_CRD_BOUND [p, k] = true ∧
            OnlyRegs (takeInbox s q) u [Reg.RKE_CRD_CREDITS.key [p, k], Reg.RKE_CRD_EPOCH.key [p, k],
              Reg.RKE_CRD_BOUND.key [p, k]]))) ∧
    (∀ p w : Fin 16,
      ((s.on Reg.STO_WIN_EN [p, w] = false ∨ s.returnable p w 16 0 = 0) →
        ∃ t, exec (.creditReturn p w) s = .next t ∧ Settles s t) ∧
      (∀ n, s.on Reg.STO_WIN_EN [p, w] = true → n = s.returnable p w 16 0 → n ≠ 0 →
        n ≤ 16 ∧ n ≤ s.rd Reg.STO_WINSTAT_OUTSTANDING [p, w] ∧
        ∃ t u, exec (.creditReturn p w) s = .next t ∧ Settles u t ∧ Sent s u [s.creditPacket p w n] ∧
          u.rd Reg.STO_WINSTAT_OUTSTANDING [p, w] = s.rd Reg.STO_WINSTAT_OUTSTANDING [p, w] - n ∧
          (∀ f i, f.key i ≠ Reg.STO_WINSTAT_OUTSTANDING.key [p, w] → f.key i ≠ Reg.TOP_TRL_FLITS_COUNT.key [p] →
            u.rd f i = s.rd f i) ∧ u.plots = s.plots ∧ u.hbm = s.hbm))

/-- An access to a row past the store's rows is not performed: a context's or channel's faults it with cause 6, another
agent's has no effect. A write of a whole row puts its bytes there and, as a FILL, sets the tag FULL; a FILL of a FULL
row waits and changes no row. A write of some words of a row merges them into the row's open coalescer entry and
leaves the row. A read changes no row; a WAIT or TAKE of an EMPTY row waits; a TAKE of a FULL row leaves it EMPTY. A
corrected error is counted; an uncorrectable one poisons its code word, is counted, and faults the context or channel
that reads it with cause 18. Of every other row, bytes and tag stand. (R259, R262, R263, R264, R269, R270, R274,
R275.) -/
def Obligations.StoreAccesses : Prop :=
  ∀ (s : State) (p : Fin 16) (a : StoreAccess) (st : Nat), st = storeNum a.store →
    ((s.coreUp = false ∨ s.plotEn p = false) → ∃ t, exec (.storeAccess p a) s = .next t ∧ Settles s t) ∧
    (s.coreUp = true → s.plotEn p = true → a.ctx < 4 → s.storeRows p st ≤ a.row →
      (2 < a.agent → ∃ t, exec (.storeAccess p a) s = .next t ∧ Settles s t) ∧
      (a.agent ≤ 2 → ∃ t u, exec (.storeAccess p a) s = .next t ∧ Settles u t ∧
        Faults s u p a.ctx 6 (tagArg st a.row) .jobFault ∧
        (s.on Reg.STO_ERR_VALID [p] = false → u.on Reg.STO_ERR_VALID [p] = true ∧ u.rd Reg.STO_ERR_KIND [p] = 1 ∧
          u.rd Reg.STO_ERR_STORE [p] = st ∧ u.rd Reg.STO_ERR_ROW [p] = a.row % 2 ^ 15 ∧
          u.rd Reg.STO_ERR_AGENT [p] = a.agent ∧ u.rd Reg.STO_ERR_CTX [p] = a.ctx))) ∧
    (s.coreUp = true → s.plotEn p = true → a.ctx < 4 → a.row < s.storeRows p st → a.write = true →
      (a.waitTag = true → s.tagFull p st a.row = true → ∃ t u, exec (.storeAccess p a) s = .next t ∧ Settles u t ∧
        (u.plot p).sto = (s.plot p).sto ∧ u.hbm = s.hbm ∧
        (a.agent ≤ 1 → (u.ctx p a.ctx).bg = some (1, fillArg st a.row))) ∧
      ((a.waitTag = false ∨ s.tagFull p st a.row = false) → accWhole a = true →
        ∃ t u, exec (.storeAccess p a) s = .next t ∧ Settles u t ∧ u.rowBytes p st a.row = padTo 256 a.data ∧
          u.tagFull p st a.row = (a.waitTag || s.tagFull p st a.row) ∧ u.rowPoisoned p st a.row = false ∧
          u.entryOf p st a.row = none ∧
          (∀ x row, rowKey x row ≠ rowKey st a.row →
            u.rowBytes p x row = s.rowBytes p x row ∧ u.tagFull p x row = s.tagFull p x row) ∧
          (∀ o : Nat, o ≠ p → u.plot o = s.plot o) ∧ u.hbm = s.hbm) ∧
      (a.waitTag = false → accWhole a = false → s.entryOf p st a.row = none → (s.plot p).sto.coal.length < 16 →
        (accWords a).length < 64 → ∃ t u, exec (.storeAccess p a) s = .next t ∧ Settles u t ∧
          (∃ e, u.entryOf p st a.row = some e ∧ e.time = s.now ∧ a.ctx ∈ e.ctxs ∧
            ∀ w, (a.mask[w]? = some true → FMap.find e.words w = some (fieldAt a.data (4 * w) 4)) ∧
              (a.mask[w]? ≠ some true → FMap.find e.words w = none)) ∧
          (∀ x row, u.rowBytes p x row = s.rowBytes p x row ∧ u.tagFull p x row = s.tagFull p x row) ∧
          (∀ o : Nat, o ≠ p → u.plot o = s.plot o) ∧ u.hbm = s.hbm)) ∧
    (s.coreUp = true → s.plotEn p = true → a.ctx < 4 → a.row < s.storeRows p st → a.write = false →
      s.entryOf p st a.row = none →
      (a.ecc = .clean → (a.waitTag = true ∨ a.clearTag = true) → s.tagFull p st a.row = false →
        ∃ t u, exec (.storeAccess p a) s = .next t ∧ Settles u t ∧ (u.plot p).sto = (s.plot p).sto ∧ u.hbm = s.hbm ∧
          (a.agent ≤ 1 → (u.ctx p a.ctx).bg = some (1, tagArg st a.row))) ∧
      ((a.ecc = .clean ∨ a.ecc = .corrected) → s.rowPoisoned p st a.row = false →
        ((a.waitTag = false ∧ a.clearTag = false) ∨ s.tagFull p st a.row = true) →
        ∃ t u, exec (.storeAccess p a) s = .next t ∧ Settles u t ∧
          u.tagFull p st a.row = (!a.clearTag && s.tagFull p st a.row) ∧
          u.rd Reg.STO_ECC_CNT_CE [p] = (if a.ecc = .corrected then satAdd 16 (s.rd Reg.STO_ECC_CNT_CE [p]) 1
            else s.rd Reg.STO_ECC_CNT_CE [p]) ∧
          (∀ x row, u.rowBytes p x row = s.rowBytes p x row) ∧
          (∀ x row, rowKey x row ≠ rowKey st a.row → u.tagFull p x row = s.tagFull p x row) ∧
          (∀ o : Nat, o ≠ p → u.plot o = s.plot o) ∧ u.hbm = s.hbm) ∧
      (∀ w, a.ecc = .uncorrectable w → s.rowPoisoned p st a.row = false → a.waitTag = false → a.clearTag = false →
        ∃ t u, exec (.storeAccess p a) s = .next t ∧ Settles u t ∧ u.rowPoisoned p st a.row = true ∧
          u.rd Reg.STO_ECC_CNT_UE [p] = satAdd 16 (s.rd Reg.STO_ECC_CNT_UE [p]) 1 ∧
          (∀ x row, u.rowBytes p x row = s.rowBytes p x row ∧ u.tagFull p x row = s.tagFull p x row) ∧ u.hbm = s.hbm ∧
          (a.agent ≤ 2 → Faults s u p a.ctx 18 0 .jobFault)))

/-- An entry that no write merged into for 1 us flushes into its row. A scrub read takes the next row of the Weight Store
and counts what it finds; with SCRUB_MS 0 nothing happens. A write of STO_CTL.CLEAR stops the channels, discards open
entries and sets CLEAR_BUSY, and has no effect while it is set. A debug read returns the word of the row that
STO_DBG_ROW names and changes no row; one that names no row returns zero. A debug write merges one word into the
coalescer, or is discarded. NUM_CLEAR clears the counters of the contexts of its mask and of no other. The seed and
die registers take a write while no context of the plot is live, and discard it otherwise. (R270, R274, R276, R284,
R286, R365, R380.) -/
def Obligations.StoreMaintenance : Prop :=
  ∀ (s : State) (p : Fin 16), s.coreUp = true → s.plotEn p = true →
    (∀ (e : Fin 16) (x : CoalEntry), (s.plot p).sto.coal[e.val]? = some x →
      (s.now < x.time + 25 → ∃ t, exec (.coalescerIdleFlush p e) s = .next t ∧ Settles s t) ∧
      (x.time + 25 ≤ s.now → ∃ t u, exec (.coalescerIdleFlush p e) s = .next t ∧ Settles u t ∧
        u.rowBytes p x.store x.row = padTo 256 (mergeWords (s.rowBytes p x.store x.row) x.words) ∧ u.entryOf p x.store x.row = none ∧
        (∀ st row, rowKey st row ≠ rowKey x.store x.row → u.rowBytes p st row = s.rowBytes p st row) ∧
        (∀ st row, u.tagFull p st row = s.tagFull p st row) ∧ (∀ o : Nat, o ≠ p → u.plot o = s.plot o) ∧ u.hbm = s.hbm)) ∧
    (∀ (ecc : EccEvent) (row : Nat),
      (s.rd Reg.STO_CTL_SCRUB_MS [p] = 0 → ∃ t, exec (.storeScrub p ecc) s = .next t ∧ Settles s t) ∧
      (s.rd Reg.STO_CTL_SCRUB_MS [p] ≠ 0 → s.storeRows p 0 ≠ 0 → row = (s.plot p).sto.scrubRow % s.storeRows p 0 →
        s.entryOf p 0 row = none → ∃ t u, exec (.storeScrub p ecc) s = .next t ∧ Settles u t ∧
          (u.plot p).sto.scrubRow = (row + 1) % s.storeRows p 0 ∧
          (ecc = .clean → u.regs = s.regs) ∧
          (ecc = .corrected → u.rd Reg.STO_ECC_CNT_CE [p] = satAdd 16 (s.rd Reg.STO_ECC_CNT_CE [p]) 1) ∧
          (∀ w, ecc = .uncorrectable w → s.rowPoisoned p 0 row = false → u.rowPoisoned p 0 row = true ∧
            u.rd Reg.STO_ECC_CNT_UE [p] = satAdd 16 (s.rd Reg.STO_ECC_CNT_UE [p]) 1) ∧
          (∀ st r, u.rowBytes p st r = s.rowBytes p st r ∧ u.tagFull p st r = s.tagFull p st r) ∧ u.jobs = s.jobs ∧
          u.hbm = s.hbm)) ∧
    (∀ src : Src, s.mayWrite src = true →
      (s.on Reg.STO_STAT_CLEAR_BUSY [p] = true → ∃ t, exec (.storeClear src p) s = .next t ∧ Settles s t) ∧
      (s.on Reg.STO_STAT_CLEAR_BUSY [p] = false → ∃ t u, exec (.storeClear src p) s = .next t ∧ Settles u t ∧
        u.rd Reg.STO_STAT_CLEAR_BUSY [p] = 1 ∧ (u.plot p).sto.coal = [] ∧ (u.plot p).chans = [] ∧
        u.rd Reg.STO_STAT_SB_WS [p] = 0 ∧ (∀ st row, u.rowBytes p st row = s.rowBytes p st row) ∧
        (∀ o : Nat, o ≠ p → u.plot o = s.plot o) ∧
        (∀ f i, f.key i ∉ [Reg.STO_STAT_CLEAR_BUSY.key [p], Reg.STO_STAT_SB_WS.key [p]] → u.rd f i = s.rd f i) ∧
        u.hbm = s.hbm) ∧
      (∀ (w : Fin 64) (v : Nat),
        (s.debugRow p = none → (∃ t, exec (.debugRowWrite src p w v) s = .next t ∧ Settles s t) ∧
          ∃ t u, exec (.debugRowRead src p w) s = .next t ∧ Settles u t ∧
            u = s.emit (match src with | .bench => .benchRead 0 | .host f => .completion f (leBytes 4 0) false)) ∧
        (∀ st row, s.debugRow p = some (st, row) → s.entryOf p st row = none →
          (∃ t u, exec (.debugRowRead src p w) s = .next t ∧ Settles u t ∧
            u = s.emit (match src with
              | .bench => .benchRead (fieldAt (s.rowBytes p st row) (4 * w) 4)
              | .host f => .completion f (leBytes 4 (fieldAt (s.rowBytes p st row) (4 * w) 4)) false)) ∧
          ((s.plot p).sto.coal.length < 16 → ∃ t u, exec (.debugRowWrite src p w v) s = .next t ∧ Settles u t ∧
            (∃ e, u.entryOf p st row = some e ∧ e.words = [(w.val, v % 2 ^ 32)]) ∧
            (∀ x r, u.rowBytes p x r = s.rowBytes p x r ∧ u.tagFull p x r = s.tagFull p x r) ∧ u.hbm = s.hbm))) ∧
      (∀ mask : Nat, ∃ t, exec (.numClear src p mask) s = .next t ∧
        (∀ c : Nat, c < 4 →
          (bitOf mask c = true → t.rd Reg.PLT_NUM_SAT [p, c] = 0 ∧ t.rd Reg.PLT_NUM_OVF [p, c] = 0 ∧
            t.rd Reg.PLT_NUM_NAN_LOSS [p, c] = 0 ∧ t.rd Reg.PLT_FLUSH_FLUSH_IN [p, c] = 0 ∧
            t.rd Reg.PLT_FLUSH_FLUSH_OUT [p, c] = 0 ∧ bitsOf (t.rd Reg.PLT_NUMFLAG_FLAGS [p]) (4 * c) 4 = 0) ∧
          (bitOf mask c = false → t.rd Reg.PLT_NUM_SAT [p, c] = s.rd Reg.PLT_NUM_SAT [p, c] ∧
            t.rd Reg.PLT_NUM_OVF [p, c] = s.rd Reg.PLT_NUM_OVF [p, c] ∧
            t.rd Reg.PLT_NUM_NAN_LOSS [p, c] = s.rd Reg.PLT_NUM_NAN_LOSS [p, c] ∧
            t.rd Reg.PLT_FLUSH_FLUSH_IN [p, c] = s.rd Reg.PLT_FLUSH_FLUSH_IN [p, c] ∧
            t.rd Reg.PLT_FLUSH_FLUSH_OUT [p, c] = s.rd Reg.PLT_FLUSH_FLUSH_OUT [p, c] ∧
            bitsOf (t.rd Reg.PLT_NUMFLAG_FLAGS [p]) (4 * c) 4 = bitsOf (s.rd Reg.PLT_NUMFLAG_FLAGS [p]) (4 * c) 4)) ∧
        t.rest = s.rest) ∧
      (∀ (die : Bool) (v : Nat),
        (s.plotIdle p = false → exec (.srSeedWrite src p die v) s = .next s) ∧
        (s.plotIdle p = true → ∃ t, exec (.srSeedWrite src p die v) s = .next t ∧
          (die = true → t.rd Reg.PLT_SR_DIE_DIE [p] = v % 256 ∧ OnlyRegs s t [Reg.PLT_SR_DIE_DIE.key [p]]) ∧
          (die = false → t.rd Reg.PLT_SR_SEED_SEED [p] = v % 2 ^ 64 ∧ OnlyRegs s t [Reg.PLT_SR_SEED_SEED.key [p]]))))

/-- A GATHER whose descriptor breaks R426 faults with cause 14; otherwise its context waits with kind GATHER. A free
buffer of the Sieve goes to the next waiting context in cyclic order, takes its index area, and the GATHER retires.
Sorting a batch counts its places and unique rows and cuts it into waves; a bad index of a FAULT-mode table frees the
buffer and ends the job with INDEX_FAULT; a bag past a wave's limits faults with cause 10. A wave sends every part
that misses to the Furrow unit of its stack. A SCRATCH write for a slot of the current wave is stored there, any other
is discarded, and each is acknowledged; a poisoned one faults the context with cause 18. The next bag whose slots are
all filled is written to its output rows. A prefetch batch runs only while no demand batch waits, and then frees its
buffer. What is not due changes nothing. (R320, R426, R427, R428, R431, R440, R441, R445, R448.) -/
def Obligations.GathersThroughASieve : Prop :=
  ∀ s : State, s.coreUp = true →
    (∀ (p : Fin 16) (c : Fin 4) (l d : List Byte) (w : State), Issues s p c 0x20 l →
      (∀ k, badByte l (gaBad l) [10, 11, 12, 13, 14, 15] = some k →
        ∃ t u, exec (.gather p c) s = .next t ∧ Settles u t ∧ Faults s u p c 2 k .jobFault) ∧
      (badByte l (gaBad l) [10, 11, 12, 13, 14, 15] = none → readRow s p 0 (gaDescRow l) tagNone = (w, .ok d) →
        (w.gdescOk p (w.plotFunc p) d (gaIdxRows l) (gaOutRow l) (gaOutTag l == 3) = false →
          ∃ t u, exec (.gather p c) s = .next t ∧ Settles u t ∧ Faults s u p c 14 0 .jobFault) ∧
        (w.gdescOk p (w.plotFunc p) d (gaIdxRows l) (gaOutRow l) (gaOutTag l == 3) = true →
          ∃ t u, exec (.gather p c) s = .next t ∧ Settles u t ∧ Settles w u ∧ (u.ctx p c).wait = some (5, gaSieve l) ∧
            u.ctxState p c = 2 ∧ u.rd Reg.RKE_CTX_WAIT_KIND [p, c] = 5 ∧ u.rd Reg.RKE_CTX_WAIT_ARG [p, c] = gaSieve l ∧
            u.sieves = s.sieves))) ∧
    (∀ i : Fin 2,
      ((s.freeBufOf i = none ∨ ((List.range 64).map (fun k => (FMap.get s.sieveLast 63 i + 1 + k) % 64)).find?
        (s.mayEnter i) = none) → ∃ t, exec (.sieveBufferGrant i) s = .next t ∧ Settles s t) ∧
      (∀ (b e : Nat) (l d data : List Byte) (w x : State), s.freeBufOf i = some b →
        ((List.range 64).map (fun k => (FMap.get s.sieveLast 63 i + 1 + k) % 64)).find? (s.mayEnter i) = some e →
        Issues s (e / 4) (e % 4) 0x20 l → badByte l (gaBad l) [10, 11, 12, 13, 14, 15] = none →
        readRow s (e / 4) 0 (gaDescRow l) tagNone = (w, .ok d) →
        w.gdescOk (e / 4) (w.plotFunc (e / 4)) d (gaIdxRows l) (gaOutRow l) (gaOutTag l == 3) = true → gdPrefetch d = false →
        gaIdxRow l + gaIdxRows l ≤ w.storeRows (e / 4) 1 →
        w.rowsReady (e / 4) 1 (gaIdxRow l) (gaInTag l) (gaIdxRows l) = true →
        readRows w (e / 4) 1 (gaIdxRow l) (gaInTag l) (gaIdxRows l) = (x, .ok data) → lensOk d data = true →
        x.placesOf (x.plotFunc (e / 4)) d ≤ 65536 → (∀ g, g ∈ s.sieves → g.2.gslot ≠ none) →
        s.noSets (e / 4) (e % 4) → s.pcOf (e / 4) (e % 4) < 4095 →
        ∃ t u, exec (.sieveBufferGrant i) s = .next t ∧ Settles u t ∧
          (∃ g, u.gbuf i b = some g ∧ g.plot = e / 4 ∧ g.ctx = e % 4 ∧ g.gslot = some (s.freeSlotOf (e / 4) (e % 4)) ∧
            g.desc = d ∧ g.data = data ∧ g.phase = 0 ∧ g.outRow = gaOutRow l ∧
            (u.ctx (e / 4) (e % 4)).gslots = (s.ctx (e / 4) (e % 4)).gslots ++ [s.freeSlotOf (e / 4) (e % 4)]) ∧
          u.pcOf (e / 4) (e % 4) = s.pcOf (e / 4) (e % 4) + 1 ∧ (u.ctx (e / 4) (e % 4)).wait = none ∧
          (∀ k, k ≠ 4 * i + b → FMap.find u.sieves k = FMap.find s.sieves k) ∧ u.hbm = s.hbm)) ∧
    (∀ (i : Fin 2) (b : Fin 4),
      (s.gbuf i b = none → (∃ t, exec (.sieveSortComplete i b) s = .next t ∧ Settles s t) ∧
        (∃ t, exec (.waveStart i b) s = .next t ∧ Settles s t) ∧ ∃ t, exec (.bagCombine i b) s = .next t ∧ Settles s t) ∧
      (∀ g, s.gbuf i b = some g → g.plot < 16 → g.ctx < 4 →
        ((g.phase ≠ 0 ∨ g.gslot = none ∨ s.batchHeld g = true) →
          ∃ t, exec (.sieveSortComplete i b) s = .next t ∧ Settles s t) ∧
        (g.phase = 0 → g.gslot ≠ none → s.batchHeld g = false →
          (∀ t0 idx, (s.findAll (s.plotFunc g.plot) g.desc g.data).bad = some (t0, idx) →
            ∃ t u, exec (.sieveSortComplete i b) s = .next t ∧ Settles u t ∧ u.gbuf i b = none ∧
              (u.tbl t0).aborts = (s.tbl t0).aborts + 1 ∧ u.hbm = s.hbm ∧
              ∀ j, s.jobOf g.plot = some j → (s.job j).state = 1 → (u.job j).state = 2 ∧ (u.job j).final = 0x208 ∧
                (u.job j).faultIdx = idx % 2 ^ 32) ∧
          ((s.findAll (s.plotFunc g.plot) g.desc g.data).bad = none → gdUpdate g.desc = false →
            (∀ ws ps, s.cutParts g.desc (s.findAll (s.plotFunc g.plot) g.desc g.data).bags
                (s.partsOf (s.findAll (s.plotFunc g.plot) g.desc g.data).refs) = some (ws, ps) →
              ∃ t u, exec (.sieveSortComplete i b) s = .next t ∧ Settles u t ∧
                u.rd Reg.SIV_PLACES_COUNT [i] = (s.rd Reg.SIV_PLACES_COUNT [i]
                  + (s.findAll (s.plotFunc g.plot) g.desc g.data).refs.length) % 2 ^ 64 ∧
                u.rd Reg.SIV_UNIQUE_COUNT [i] = (s.rd Reg.SIV_UNIQUE_COUNT [i]
                  + (firsts Ref.rowKey (s.findAll (s.plotFunc g.plot) g.desc g.data).refs).length) % 2 ^ 64 ∧
                (∃ h, u.gbuf i b = some h ∧ h.phase = 1 ∧ h.parts = ps ∧ h.wave = 0 ∧ h.waves = ws.foldl max 0 + 1 ∧
                  h.nextBag = 0 ∧ h.plot = g.plot ∧ h.ctx = g.ctx ∧ h.desc = g.desc) ∧
                u.plots = s.plots ∧ u.jobs = s.jobs ∧ u.hbm = s.hbm) ∧
            (s.cutParts g.desc (s.findAll (s.plotFunc g.plot) g.desc g.data).bags
                (s.partsOf (s.findAll (s.plotFunc g.plot) g.desc g.data).refs) = none →
              ∃ t u, exec (.sieveSortComplete i b) s = .next t ∧ Settles u t ∧
                Faults s u g.plot g.ctx 10 0 .jobFault))) ∧
        (g.phase ≠ 1 → ∃ t, exec (.waveStart i b) s = .next t ∧ Settles s t) ∧
        (g.phase = 1 → gdUpdate g.desc = false → s.rwc.lines = [] → (∀ x, x ∈ g.parts → x.terms ≠ []) →
          ∃ t u, exec (.waveStart i b) s = .next t ∧ Settles u t ∧
            (∃ h, u.gbuf i b = some h ∧ h.phase = 2 ∧ h.wave = g.wave ∧ h.bags = g.bags ∧
              ∀ x, x ∈ h.parts → x.wave = g.wave → x.hit = true → ∃ y, y ∈ g.parts ∧ y.hit = true) ∧
            (∀ k, (u.fur k).parts.length = (s.fur k).parts.length +
              (g.parts.filter (fun x => x.wave == g.wave && x.die == s.self && !x.hit && x.stack == k)).length) ∧
            u.jobs = s.jobs ∧ u.hbm = s.hbm) ∧
        (∀ w rows, g.phase = 1 → gdUpdate g.desc = true → g.wave + 1 < g.waves →
          formGrads g (g.grads.filter (fun x => x.wave == g.wave)) s = (w, some rows) →
          ∃ t u, exec (.waveStart i b) s = .next t ∧ Settles u t ∧
            u.gbuf i b = some { g with left := g.left + rows.length, wave := g.wave + 1 } ∧
            u.flights.length = s.flights.length + rows.length ∧ u.hbm = s.hbm) ∧
        (g.phase ≠ 2 → ∃ t, exec (.bagCombine i b) s = .next t ∧ Settles s t) ∧
        (∀ y, g.phase = 2 → g.bags[g.nextBag]? = some y → y.wave = g.wave →
          (g.bagReady g.nextBag = false → ∃ t, exec (.bagCombine i b) s = .next t ∧ Settles s t) ∧
          (∀ w v n at', g.bagReady g.nextBag = true → bagVec g s g.nextBag y = (w, some v) → g.fill = false →
            w.vecAt g y = (at', n) → at' + n ≤ w.storeRows g.plot 1 →
            (∃ z, g.bags[g.nextBag + 1]? = some z ∧ z.wave = g.wave) →
            ∃ t u, exec (.bagCombine i b) s = .next t ∧ Settles u t ∧ u.gbuf i b = some { g with nextBag := g.nextBag + 1 } ∧
              (∀ k, k < n → u.rowBytes g.plot 1 (at' + k) =
                (vecBytes (gdFmt g.desc) n (v.map (fun a => (encodeNum (gdFmt g.desc) .rne false (f32 a)).1))).getD k []) ∧
              (∀ st row, (st ≠ 1 ∨ row < at' ∨ at' + n ≤ row) → row < 65536 → st < 3 →
                u.rowBytes g.plot st row = w.rowBytes g.plot st row) ∧ u.hbm = s.hbm) ∧
          (∀ w, g.bagReady g.nextBag = true → bagVec g s g.nextBag y = (w, none) →
            ∃ t u, exec (.bagCombine i b) s = .next t ∧ Settles u t ∧ Faults s u g.plot g.ctx 18 0 .jobFault)))) ∧
    (∀ q : Packet, q.typ = 7 →
      (s.scratchBuf q = none → ∃ t u, exec (.scratch q) s = .next t ∧ Settles u t ∧ Sent s u [ackOf s.self q false false 0] ∧
        u.plots = s.plots ∧ u.sieves = s.sieves ∧ u.hbm = s.hbm) ∧
      (∀ k g x, s.scratchBuf q = some (k, g) → g.plot < 16 → g.ctx < 4 →
        g.parts.find? (fun p => p.wave == g.wave && p.slot == q.tfb 10 2) = some x →
        (bitOf (q.tfb 14 1) 0 = true → ∃ t u, exec (.scratch q) s = .next t ∧ Settles u t ∧
          Faults s u g.plot g.ctx 18 (if q.srcDie = s.self then 1 else 2) .jobFault) ∧
        (bitOf (q.tfb 14 1) 0 = false → gdScratch g.desc + x.at' + q.tfb 12 1 < s.storeRows g.plot 2 →
          ∃ t u, exec (.scratch q) s = .next t ∧ Settles u t ∧ Sent s u [ackOf s.self q false false 0] ∧
            u.rowBytes g.plot 2 (gdScratch g.desc + x.at' + q.tfb 12 1) = padTo 256 q.body ∧
            (∀ st row, rowKey st row ≠ rowKey 2 (gdScratch g.desc + x.at' + q.tfb 12 1) →
              u.rowBytes g.plot st row = s.rowBytes g.plot st row) ∧
            (∃ h, FMap.find u.sieves k = some h ∧ ∃ y, y ∈ h.parts ∧ y.slot = x.slot ∧ y.wave = x.wave ∧ q.tfb 12 1 ∈ y.got) ∧
            u.hbm = s.hbm))) ∧
    (∀ i : Fin 2,
      ((∃ e, e ∈ s.sieves ∧ e.1 / 4 = i ∧ e.2.gslot ≠ none ∧ e.2.phase = 0) →
        ∃ t, exec (.prefetchBatch i) s = .next t ∧ Settles s t) ∧
      ((∀ e, e ∈ s.sieves → e.1 / 4 = i → e.2.gslot ≠ none) → ∃ t, exec (.prefetchBatch i) s = .next t ∧ Settles s t) ∧
      (∀ k g, (∀ e, e ∈ s.sieves → e.1 / 4 = i → e.2.gslot ≠ none → e.2.phase ≠ 0) →
        (s.sieves.filter (fun e => e.1 / 4 == i.val)).find? (fun e => e.2.gslot.isNone) = some (k, g) → s.batchHeld g = false →
        ∃ t u, exec (.prefetchBatch i) s = .next t ∧ Settles u t ∧ FMap.find u.sieves k = none ∧
          u.rd Reg.SIV_PLACES_COUNT [i] = (s.rd Reg.SIV_PLACES_COUNT [i]
            + (s.findAll (s.plotFunc g.plot) g.desc g.data).refs.length) % 2 ^ 64 ∧
          u.plots = s.plots ∧ u.jobs = s.jobs ∧ u.hbm = s.hbm))

/-- MATMUL faults on an empty set, an extent past the stores, a codebook output or a mode error; otherwise its walk
starts, on the idle array at once with an accumulator plane and the tile ordinal advanced, else waiting with kind
ARRAY. A shadow load puts the block's weight rows, B's tag operation applied, in the shadow plane, or in the current
one for the block that runs; it waits for EMPTY rows. A step adds one A row's column results to the plane, counts, and
moves to the next; a parity upset stops the tile and ends the job. After step 256 the plane stays with its output
block, or after the last block drains while the MATMUL retires. A RESCALE_ACT step writes one output row of the plane
that drains; after row 255 the plane is released. (R239, R240, R245, R249, R300, R302, R303, R325.) -/
def Obligations.MatrixArrayCommands : Prop :=
  ∀ (s : State) (p : Fin 16), s.coreUp = true →
    (∀ (c : Fin 4) (l b : List Byte), Issues s p c 0x10 l → fieldAt l 1 1 = 0 → zeroBytes l 10 15 → b = s.dtActive p c →
      (∀ k, s.matmulFault p c b (i16 l 2, i16 l 4, i16 l 6, i16 l 8) = some k → ∃ t u, exec (.matmul p c) s = .next t ∧
        Settles u t ∧ Faults s u p c k (if k = 2 then opAt 2 + 3 else 0) .jobFault ∧
        (k = 7 → u.rd Reg.PLT_ARR_ERR_MODE_FAULT [p] = 1)) ∧
      (s.matmulFault p c b (i16 l 2, i16 l 4, i16 l 6, i16 l 8) = none →
        (∀ o, (s.plot p).arr.owner = some o → ∃ t u, exec (.matmul p c) s = .next t ∧ Settles u t ∧
          (u.ctx p c).walk = some ⟨i16 l 2, i16 l 4, i16 l 6, i16 l 8, [0, 0, 0, 0, 0, 0], 0⟩ ∧
          (u.ctx p c).wait = some (4, 0) ∧ u.ctxState p c = 2 ∧ u.rd Reg.RKE_CTX_WAIT_KIND [p, c] = 4 ∧
          (u.plot p).arr = (s.plot p).arr ∧ (u.plot p).sto = (s.plot p).sto ∧ u.hbm = s.hbm) ∧
        ((s.plot p).arr.owner = none → (∀ d : Nat, d < 4 → d ≠ c → (s.ctx p d).walk = none) → s.noSets p c →
          (∀ n, n < 6 → 0 < lvIter b n) → ¬((s.plot p).arr.p0.held = true ∧ (s.plot p).arr.p1.held = true) →
          ∃ t u, exec (.matmul p c) s = .next t ∧ Settles u t ∧ (u.plot p).arr.owner = some c.val ∧
            (u.plot p).arr.plane = some (if (s.plot p).arr.p0.held then 1 else 0) ∧ (u.plot p).arr.step = 0 ∧
            (u.ctx p c).walk = some ⟨i16 l 2, i16 l 4, i16 l 6, i16 l 8, [0, 0, 0, 0, 0, 0], 0⟩ ∧
            u.rd Reg.RKE_TILES_ORDINAL [p, c] = (s.rd Reg.RKE_TILES_ORDINAL [p, c] + 1) % 2 ^ Reg.RKE_TILES_ORDINAL.wid ∧
            u.rd Reg.PLT_ARR_STAT_BUSY [p] = 1 ∧ u.rd Reg.PLT_ARR_STAT_CTX [p] = c ∧
            (u.plot p).sto = (s.plot p).sto ∧ u.hbm = s.hbm))) ∧
    ((s.plot p).arr.owner = none → (∃ t, exec (.shadowLoadComplete p) s = .next t ∧ Settles s t) ∧
      (∀ x, ∃ t, exec (.arrayStep p x) s = .next t ∧ Settles s t) ∧ ∃ t, exec (.blockComplete p) s = .next t ∧ Settles s t) ∧
    (∀ (c k : Nat) (w v : Walk) (b d sc : List Byte) (x y : State), (s.plot p).arr.owner = some c → c < 4 →
      s.ctxLive p c = true → (s.ctx p c).walk = some w → b = s.dtActive p c → s.loadTarget p c w b = some v →
      (s.plot p).arr.shadow.key ≠ some (v.wkey b c) → (s.plot p).arr.cur.key ≠ some (v.wkey b c) →
      k = min (kStep (s.stepClass p b)) (dtK b - kStep (s.stepClass p b) * v.kIdx b) → 0 ≤ v.row b 1 →
      (s.rowsReady p (opStore b 1) (v.row b 1).toNat (opTag b 1) (bRows b (s.stepClass p b) k) = false →
        ∃ t u, exec (.shadowLoadComplete p) s = .next t ∧ Settles u t ∧ Settles s u ∧ u.ctxState p c = 2 ∧
          u.rd Reg.RKE_CTX_WAIT_KIND [p, c] = 1) ∧
      (s.rowsReady p (opStore b 1) (v.row b 1).toNat (opTag b 1) (bRows b (s.stepClass p b) k) = true →
        readRows s p (opStore b 1) (v.row b 1).toNat (opTag b 1) (bRows b (s.stepClass p b) k) = (x, .ok d) →
        readScales x p b (s.stepClass p b) (bVecs b (s.stepClass p b) * (v.row b 1 - opBase b 1).toNat) k = (y, .ok sc) →
        ∃ t u, exec (.shadowLoadComplete p) s = .next t ∧ Settles u t ∧
          (if v = w then (u.plot p).arr.cur else (u.plot p).arr.shadow) =
            ⟨some (v.wkey b c), (List.range (bRows b (s.stepClass p b) k)).map (fun i => (d.drop (256 * i)).take 256), sc⟩ ∧
          (u.plot p).sto = (y.plot p).sto ∧ (u.plot p).arr.owner = some c ∧ u.hbm = s.hbm)) ∧
    (∀ (c i : Nat) (w : Walk) (b : List Byte), (s.plot p).arr.owner = some c → c < 4 → s.ctxLive p c = true → i < 2 →
      (s.plot p).arr.plane = some i → (s.ctx p c).walk = some w → b = s.dtActive p c →
      ((s.plot p).arr.cur.key ≠ some (w.wkey b c) → ∀ x, ∃ t, exec (.arrayStep p x) s = .next t ∧ Settles s t) ∧
      ((s.plot p).arr.cur.key = some (w.wkey b c) → (s.plot p).arr.step < 256 →
        (∃ t u, exec (.arrayStep p .weight) s = .next t ∧ Settles u t ∧ u.rd Reg.PLT_ARR_ERR_WPLANE_PAR [p] = 1 ∧
          u.rd Reg.PLT_ARR_ERR_CTX [p] = c ∧ u.hbm = s.hbm ∧
          ∀ j, s.jobOf p = some j → (s.job j).state = 1 → (u.job j).state = 2 ∧ (u.job j).final = 0x207) ∧
        (∀ (d sc : List Byte) (x y : State) (row : Int), row = w.row b 0 + (s.plot p).arr.step * opStride b 0 → 0 ≤ row →
          s.rowsReady p (opStore b 0) row.toNat (opTag b 0) (aRows b) = true →
          readRows s p (opStore b 0) row.toNat (opTag b 0) (aRows b) = (x, .ok d) →
          readAScales x p b (s.stepClass p b) (row - opBase b 0).toNat = (y, .ok sc) →
          ∃ t u, exec (.arrayStep p .none) s = .next t ∧ Settles u t ∧ (u.plot p).arr.step = (s.plot p).arr.step + 1 ∧
            (u.plot p).arr.getPlane i = (stepPlane b (s.stepClass p b) (s.ctx p c) w (s.plot p).arr.cur
              ((s.plot p).arr.getPlane i) (s.plot p).arr.step d sc).1 ∧
            (u.plot p).arr.getPlane (1 - i) = (s.plot p).arr.getPlane (1 - i) ∧
            u.rd Reg.PLT_STEPS_COUNT [p] = (s.rd Reg.PLT_STEPS_COUNT [p] + 1) % 2 ^ 64 ∧
            (u.plot p).sto = (y.plot p).sto ∧ u.hbm = s.hbm)) ∧
      ((s.plot p).arr.step ≠ 256 → ∃ t, exec (.blockComplete p) s = .next t ∧ Settles s t) ∧
      (∀ v, (s.plot p).arr.step = 256 → w.isLast b = false → w.nextBlock b = some v → sameOutput b v w = true →
        ∃ t u, exec (.blockComplete p) s = .next t ∧ Settles u t ∧ (u.ctx p c).walk = some v ∧ (u.plot p).arr.step = 0 ∧
          (u.plot p).arr.plane = some i ∧ (u.plot p).arr.getPlane i = (s.plot p).arr.getPlane i ∧
          (u.plot p).sto = (s.plot p).sto ∧ u.hbm = s.hbm) ∧
      ((s.plot p).arr.step = 256 → w.isLast b = true → w.nextBlock b = none → w.nextTile b = none → s.noSets p c →
        s.pcOf p c < 4095 → (∀ d : Nat, d < 4 → d ≠ c → (s.ctx p d).walk = none) →
        ∃ t u, exec (.blockComplete p) s = .next t ∧ Settles u t ∧ (u.ctx p c).walk = none ∧
          u.pcOf p c = s.pcOf p c + 1 ∧ (u.plot p).arr.owner = none ∧ (u.plot p).arr.plane = none ∧
          ((u.plot p).arr.getPlane i).drain = some (s.drainOf p c w b (s.stepClass p b)) ∧
          ((u.plot p).arr.getPlane i).entries = ((s.plot p).arr.getPlane i).entries ∧
          (u.plot p).sto = (s.plot p).sto ∧ u.hbm = s.hbm)) ∧
    (s.draining p = none → ∃ t, exec (.rescaleAct p) s = .next t ∧ Settles s t) ∧
    (∀ (i c : Nat) (d : Drain) (b rs zb cs z bytes : List Byte) (cls st n : Nat) (row : Int) (w : State),
      s.draining p = some (i, d) → c = ((s.plot p).arr.getPlane i).ctx → c < 4 → b = d.set.flatMap (leBytes 4) →
      cls = s.stepClass p b → st = opStore b 2 → st < 3 → row = d.cRow + d.row * opStride b 2 → 0 ≤ row →
      n = cRows b cls → row.toNat + n ≤ s.storeRows p st → opScale b 2 = 0 →
      (∀ x, x ∈ (s.plot p).rq → x.agent ≠ ctxAgent p c) →
      ((∃ j, j < n ∧ s.fillWaits p st (row.toNat + j) (opTag b 2) = true) →
        ∃ t u, exec (.rescaleAct p) s = .next t ∧ Settles u t ∧ Settles s u ∧
          (u.ctx p c).bg = some (1, fillArg st (s.firstFull p st row.toNat n))) ∧
      ((∀ j, j < n → s.fillWaits p st (row.toNat + j) (opTag b 2) = false) →
        drainTables s p b cls d = (w, .ok z, rs, zb, cs) →
        (bytes = if dtPair b then (encodePairs b cls d ((s.plot p).arr.getPlane i)).1
          else (encodeRow b cls (outRow w p c b cls d ((s.plot p).arr.getPlane i) rs zb cs).1).1) →
        ∃ t u, exec (.rescaleAct p) s = .next t ∧ Settles u t ∧
          (∀ k x, (pieces 256 n bytes)[k]? = some x → u.rowBytes p st (row.toNat + k) = padTo 256 x) ∧
          (∀ x r, x < 3 → r < 65536 → (x ≠ st ∨ r < row.toNat ∨ row.toNat + n ≤ r) → u.rowBytes p x r = w.rowBytes p x r) ∧
          (d.row < 255 → ((u.plot p).arr.getPlane i).drain = some { d with row := d.row + 1 }) ∧
          (255 ≤ d.row → (s.plot p).arr.owner = none →
            ((u.plot p).arr.getPlane i).drain = none ∧ ((u.plot p).arr.getPlane i).held = false) ∧ u.hbm = s.hbm))

/-- VOP faults with cause 2 on its lowest bad byte; an ADD, SUB, MUL, MAX or MIN of one vector reads SRC1 and SRC2 whole,
then writes the four rows of the result at DST, and retires. DMA checks its descriptor, captures it for the channel,
starts it on an idle one, and retires; with a pending descriptor it waits with kind DMA; an HBM range outside the
job's faults with cause 12. A channel starts its pending descriptor when it runs none. DMA_ROW moves one row of 256
bytes between HBM and a store, or into the line for a credit, and the descriptor ends after its last row; a poisoned
row moves nowhere and faults the context with cause 18. (R247, R248, R259, R275, R310, R311, R325, R618.) -/
def Obligations.VectorAndDmaCommands : Prop :=
  ∀ (s : State) (p : Fin 16), s.coreUp = true →
    (∀ (c : Fin 4) (l : List Byte), Issues s p c 0x11 l →
      (∀ k, badByte l (vopBad l) [15] = some k → ∃ t u, exec (.vop p c) s = .next t ∧ Settles u t ∧ Faults s u p c 2 k .jobFault) ∧
      (badByte l (vopBad l) [15] = none → vopKind l ≤ 5 → vopKind l ≠ 3 → vopVecs l = 1 → fieldAt l 11 1 = 0 →
        (s.plot p).sto.coal = [] → (s.ctx p c).progress = 0 → (s.ctx p c).inBytes = [] → (s.ctx p c).outRows = [] →
        s.noSets p c → s.pcOf p c < 4095 →
        (∀ x k, x < 2 → k < 4 → vopRow l x + k < s.storeRows p (vopStore l x) ∧
          s.rowPoisoned p (vopStore l x) (vopRow l x + k) = false) →
        vopRow l 2 + 4 ≤ s.storeRows p (vopStore l 2) →
        ∃ t u, exec (.vop p c) s = .next t ∧ Settles u t ∧ u.pcOf p c = s.pcOf p c + 1 ∧ u.ctxLive p c = true ∧
          (u.ctx p c).vops = (s.ctx p c).vops + 1 ∧
          (∀ i k, i < 64 → k < 4 → fieldAt (u.rowBytes p (vopStore l 2) (vopRow l 2 + k)) (4 * i) 4 =
            ((s.vopLanes p c l 0 ((List.range 2).flatMap (fun x => (List.range 4).flatMap (fun k =>
                s.rowBytes p (vopStore l x) (vopRow l x + k)))) (!emptySet (s.dtActive p c) && dtFlush (s.dtActive p c))).getD
              (64 * k + i) (0, {})).1 % 2 ^ 32) ∧
          (∀ st row, st < 3 → row < 65536 → (st ≠ vopStore l 2 ∨ row < vopRow l 2 ∨ vopRow l 2 + 4 ≤ row) →
            u.rowBytes p st row = s.rowBytes p st row) ∧
          (∀ st row, u.tagFull p st row = s.tagFull p st row) ∧ u.hbm = s.hbm)) ∧
    (∀ (c : Fin 4) (l b d : List Byte) (w : State) (h : Nat), Issues s p c 0x18 l → h = fieldAt l 1 1 → h < 8 →
      fieldAt l 4 1 < 8 → zeroBytes l 5 15 →
      ((s.chan p h).pend ≠ none → ∃ t u, exec (.dma p c) s = .next t ∧ Settles u t ∧ Settles s u ∧
        u.ctxState p c = 2 ∧ u.rd Reg.RKE_CTX_WAIT_KIND [p, c] = 7 ∧ u.rd Reg.RKE_CTX_WAIT_ARG [p, c] = h) ∧
      ((s.chan p h).pend = none → s.storeRows p 0 ≤ fieldAt l 2 2 → ∃ t u, exec (.dma p c) s = .next t ∧ Settles u t ∧
        Faults s u p c 6 (fieldAt l 2 2) .jobFault) ∧
      ((s.chan p h).pend = none → readRow s p 0 (fieldAt l 2 2) tagNone = (w, .ok d) →
        b = (d.drop (32 * fieldAt l 4 1)).take 32 →
        (∀ k, badByte b (dmaBad b) [20, 21, 22, 23, 24, 25, 26, 27, 28, 29, 30, 31] = some k →
          ∃ t u, exec (.dma p c) s = .next t ∧ Settles u t ∧ Faults s u p c 2 k .jobFault) ∧
        (badByte b (dmaBad b) [20, 21, 22, 23, 24, 25, 26, 27, 28, 29, 30, 31] = none →
          (w.dmaInRange p b = false → ∃ t u, exec (.dma p c) s = .next t ∧ Settles u t ∧ Faults s u p c 12 0 .jobFault) ∧
          (w.dmaInRange p b = true → s.noSets p c → s.pcOf p c < 4095 →
            ∃ t u, exec (.dma p c) s = .next t ∧ Settles u t ∧ u.pcOf p c = s.pcOf p c + 1 ∧ u.ctxLive p c = true ∧
              (∀ k, k ≠ h → u.chan p k = s.chan p k) ∧ (u.plot p).sto = (w.plot p).sto ∧ u.hbm = s.hbm ∧
              ((s.chan p h).cur = none → u.chan p h = { cur := some ⟨b, c, (s.ctx p c).issued⟩, pend := none, row := 0 }) ∧
              (∀ x, (s.chan p h).cur = some x → u.chan p h =
                { cur := some x, pend := some ⟨b, c, (s.ctx p c).issued⟩, row := (s.chan p h).row }))))) ∧
    (∀ h : Fin 8,
      ((s.chan p h).cur ≠ none ∨ (s.chan p h).pend = none → ∃ t, exec (.dmaDescriptorStart p h) s = .next t ∧ Settles s t) ∧
      (∀ x, (s.chan p h).cur = none → (s.chan p h).pend = some x →
        ∃ t u, exec (.dmaDescriptorStart p h) s = .next t ∧ Settles u t ∧
          u.chan p h = { cur := some x, pend := none, row := 0 } ∧ (∀ k : Nat, k ≠ h → u.chan p k = s.chan p k) ∧
          u.regs = s.regs ∧ (u.plot p).sto = (s.plot p).sto ∧ u.hbm = s.hbm) ∧
      ((s.chan p h).cur = none → ∃ t, exec (.dmaRow p h) s = .next t ∧ Settles s t) ∧
      (∀ (d : DmaDesc) (st row a : Nat), (s.chan p h).cur = some d → d.ctx < 4 → st = dmaStore d.bytes →
        row = dmaStoreRow d.bytes (s.chan p h).row → a = dmaAddrOf d.bytes (s.chan p h).row →
        (dmaDir d.bytes = 0 →
          (s.hbmPoisoned a 256 = true → ∃ t u, exec (.dmaRow p h) s = .next t ∧ Settles u t ∧
            Faults s u p d.ctx 18 1 .jobFault ∧ (∀ x r, u.rowBytes p x r = s.rowBytes p x r)) ∧
          (s.hbmPoisoned a 256 = false → st < 3 → row < s.storeRows p st → s.fillWaits p st row (dmaTag d.bytes) = true →
            ∃ t, exec (.dmaRow p h) s = .next t ∧ Settles s t) ∧
          (s.hbmPoisoned a 256 = false → s.storeRows p st ≤ row → ∃ t u, exec (.dmaRow p h) s = .next t ∧ Settles u t ∧
            Faults s u p d.ctx 6 (tagArg st row) .jobFault) ∧
          (s.hbmPoisoned a 256 = false → row < s.storeRows p st → s.fillWaits p st row (dmaTag d.bytes) = false →
            ∃ t u, exec (.dmaRow p h) s = .next t ∧ Settles u t ∧ u.rowBytes p st row = s.hbmRead a 256 ∧
              u.tagFull p st row = (dmaTag d.bytes == tagFill || s.tagFull p st row) ∧
              (∀ x r, rowKey x r ≠ rowKey st row → u.rowBytes p x r = s.rowBytes p x r ∧ u.tagFull p x r = s.tagFull p x r) ∧
              u.chan p h = (if (s.chan p h).row + 1 < dmaRows d.bytes then { s.chan p h with row := (s.chan p h).row + 1 }
                else { s.chan p h with cur := none, row := 0 }) ∧ u.hbm = s.hbm)) ∧
        (∀ w x, dmaDir d.bytes = 1 → readRow s p st row (dmaTag d.bytes) = (w, .ok x) →
          ∃ t u, exec (.dmaRow p h) s = .next t ∧ Settles u t ∧ u.hbmRead a 256 = padTo 256 x ∧
            (∀ o, o < a ∨ a + 256 ≤ o → u.hbmByte o = s.hbmByte o) ∧ (u.plot p).sto = (w.plot p).sto ∧
            u.chan p h = (if (s.chan p h).row + 1 < dmaRows d.bytes then { s.chan p h with row := (s.chan p h).row + 1 }
              else { s.chan p h with cur := none, row := 0 })) ∧
        (∀ w x, dmaDir d.bytes = 2 → s.mayUse p (dmaCrd d.bytes) (chanAgent p h) = true →
          (∀ r, r ∈ (s.plot p).rq → r.agent ≠ chanAgent p h) → readRow s p st row (dmaTag d.bytes) = (w, .ok x) →
          ∃ t u, exec (.dmaRow p h) s = .next t ∧ Settles u t ∧
            (u.plot p).rq = (s.plot p).rq ++ [⟨dmaCrd d.bytes, chanAgent p h, d.ctx, d.stamp, padTo 256 x⟩] ∧
            (u.plot p).sto = (w.plot p).sto ∧ u.chan p h = s.chan p h ∧ u.hbm = s.hbm) ∧
        (dmaDir d.bytes = 2 → s.mayUse p (dmaCrd d.bytes) (chanAgent p h) = false →
          ∃ t u, exec (.dmaRow p h) s = .next t ∧ Settles u t ∧ Faults s u p d.ctx 8 (dmaCrd d.bytes) .jobFault)))

/-- An ACTIVE port sends the oldest block to be replayed, else a RETRY while it waits for one, else a DATA block with the
next sequence number, which it holds until acknowledged, else an IDLE block; a port that is not ACTIVE sends nothing.
Of received blocks: a port that is untrained, retraining or quarantined discards every one; an uncorrectable one is
counted and answered by RETRY; a DATA block on a port not ACTIVE, a wrong link epoch, an ACK or a SEQ outside the
window are logged as violations 6, 3 and 4; the expected SEQ is accepted and its packets go to the routing stage; a
gap asks for a RETRY; a replayed duplicate changes nothing more. A RETRY has every held block sent again, and the
fifth for one SEQ starts a retrain. (Received blocks: for a die on which no other die's job installed records.) (R470,
R474, R475, R478, R481, R491, R492.) -/
def Obligations.LinkBlocks : Prop :=
  ∀ (s : State) (n : Fin 8),
    (s.portState n ≠ psActive → exec (.blockTransmit n) s = .next s) ∧
    (s.portState n = psActive →
      (∀ k r b, (s.port n).resend = k :: r → (s.port n).replay.find? (fun b => b.seq == k) = some b →
        ∃ t, exec (.blockTransmit n) s = .next t ∧
          t.outs = .block n (blockBytes 0 b.seq (((s.port n).rxNext + 65535) % 65536) (s.rd Reg.CSK_EPOCH_PEER_EPOCH [n])
            (s.port n).returns b.firstHdr b.frame) :: s.outs ∧
          (t.port n).resend = r ∧ (t.port n).replay = (s.port n).replay ∧ t.regs = s.regs ∧ t.hbm = s.hbm) ∧
      ((s.port n).resend = [] → (s.port n).retrying = true → ∃ t, exec (.blockTransmit n) s = .next t ∧
        t.outs = .block n (blockBytes 3 0 (((s.port n).rxNext + 65535) % 65536) (s.rd Reg.CSK_EPOCH_PEER_EPOCH [n])
          (s.port n).returns 31 []) :: s.outs ∧
        (t.port n).replay = (s.port n).replay ∧ (t.port n).queue = (s.port n).queue ∧ t.regs = s.regs) ∧
      (∀ p2 begun, (s.port n).resend = [] → (s.port n).retrying = false →
        pullPackets s n 26 ((s.port n).payReturns (s.port n).returns) [] = (p2, begun) →
        ((256 ≤ (s.port n).replay.length ∨ p2.txCells = []) → ∃ t, exec (.blockTransmit n) s = .next t ∧
          t.outs = .block n (blockBytes 1 0 (((s.port n).rxNext + 65535) % 65536) (s.rd Reg.CSK_EPOCH_PEER_EPOCH [n])
            (s.port n).returns 31 []) :: s.outs ∧
          (t.port n).replay = (s.port n).replay ∧ (t.port n).queue = (s.port n).queue ∧ t.regs = s.regs) ∧
        ((s.port n).replay.length < 256 → (s.port n).sinceIdle < 4095 → p2.txCells ≠ [] →
          ∃ t b, exec (.blockTransmit n) s = .next t ∧ (t.port n).replay = p2.replay ++ [b] ∧ b.seq = p2.txSeq ∧
            b.frame = padTo 400 (p2.txCells.take 25).flatten ∧
            t.outs = .block n (blockBytes 0 b.seq (((s.port n).rxNext + 65535) % 65536)
              (s.rd Reg.CSK_EPOCH_PEER_EPOCH [n]) (s.port n).returns b.firstHdr b.frame) :: s.outs ∧
            (t.port n).txSeq = (p2.txSeq + 1) % 65536 ∧ (t.port n).txCells = p2.txCells.drop 25 ∧
            t.rd Reg.CSK_TXCELLS_COUNT [n] =
              (s.rd Reg.CSK_TXCELLS_COUNT [n] + (p2.txCells.take 25).length) % 2 ^ 64 ∧ t.hbm = s.hbm))) ∧
    (s.installers = [] → ∀ b : Block,
      (((s.port n).trained = false ∨ s.portState n = psQuarantined ∨ s.portState n = psRetraining) →
        (∃ t, exec (.dataBlock n b) s = .next t ∧ Settles s t) ∧ ∃ t, exec (.retryBlock n b) s = .next t ∧ Settles s t) ∧
      ((s.port n).trained = true → s.portState n ≠ psQuarantined → s.portState n ≠ psRetraining →
        (b.uncorrectable = true → (∃ t u, exec (.dataBlock n b) s = .next t ∧ Settles u t ∧
          u.rd Reg.CSK_FEC_UNCORR [n] = satAdd 16 (s.rd Reg.CSK_FEC_UNCORR [n]) 1 ∧
          (u.port n).rxNext = (s.port n).rxNext ∧ u.link.routeQ = s.link.routeQ ∧ u.hbm = s.hbm ∧
          (((s.port n).uncorr.filter (fun x => s.now < x + 25000)).length < 63 → (u.port n).retrying = true ∧
            u.portState n = s.portState n) ∧
          (63 ≤ ((s.port n).uncorr.filter (fun x => s.now < x + 25000)).length → s.portState n ≠ psOff →
            u.portState n = psRetraining))) ∧
        (b.uncorrectable = false → b.kind = 0 → s.portState n ≠ psActive → ∃ t u, exec (.dataBlock n b) s = .next t ∧
          Settles u t ∧ Violates s u n 6 b.seq) ∧
        (b.uncorrectable = false → s.portState n = psActive →
          (b.epoch ≠ s.rd Reg.CSK_EPOCH_RX_EPOCH [n] → (∃ t u, exec (.dataBlock n b) s = .next t ∧ Settles u t ∧
              Violates s u n 3 b.seq) ∧ ∃ t u, exec (.retryBlock n b) s = .next t ∧ Settles u t ∧ Violates s u n 3 b.seq) ∧
          (b.epoch = s.rd Reg.CSK_EPOCH_RX_EPOCH [n] → (s.port n).ackOk b.ack = false →
            (∃ t u, exec (.dataBlock n b) s = .next t ∧ Settles u t ∧ Violates s u n 4 b.seq) ∧
            ∃ t u, exec (.retryBlock n b) s = .next t ∧ Settles u t ∧ Violates s u n 4 b.seq) ∧
          (∀ (d : Nat) (x : Port), b.epoch = s.rd Reg.CSK_EPOCH_RX_EPOCH [n] → (s.port n).ackOk b.ack = true →
            d = (b.seq + 65536 - (s.port n).rxNext) % 65536 → x = ((s.port n).release b.ack).addCredits b →
            (b.kind = 0 →
              (∀ h : List Byte, d = 0 → h.length = 16 → b.frame = h ++ fill 384 0 → b.firstHdr = 0 →
                fieldAt h 0 1 % 16 ≠ 0 → (cellPacket h []).len = 0 → malformed (cellPacket h []) = false →
                s.misrouted n (cellPacket h []) = false → (s.port n).rxCells = [] → (s.port n).skipping = false →
                (s.port n).used.getD (pktPool (cellPacket h [])) 0 + 1 ≤ (s.poolSizes n).getD (pktPool (cellPacket h [])) 0 →
                ∃ t u, exec (.dataBlock n b) s = .next t ∧ Settles u t ∧
                  u.link.routeQ = s.link.routeQ ++ [⟨cellPacket h [], n, s.now⟩] ∧
                  (u.port n).rxNext = ((s.port n).rxNext + 1) % 65536 ∧ (u.port n).retrying = false ∧
                  (u.port n).replay = x.replay ∧ (u.port n).credits = x.credits ∧
                  u.rd Reg.CSK_RXCELLS_COUNT [n] = (s.rd Reg.CSK_RXCELLS_COUNT [n] + 1) % 2 ^ 64 ∧
                  u.rd Reg.CSK_VIOL_CNT_COUNT [n] = s.rd Reg.CSK_VIOL_CNT_COUNT [n] ∧ u.hbm = s.hbm) ∧
              (1 ≤ d → d ≤ 255 → ∃ t u, exec (.dataBlock n b) s = .next t ∧ Settles u t ∧
                u.port n = { x with retrying := true } ∧ u.link.routeQ = s.link.routeQ ∧ u.hbm = s.hbm) ∧
              (65280 ≤ d → ∃ t u, exec (.dataBlock n b) s = .next t ∧ Settles u t ∧ u.port n = x ∧
                u.link.routeQ = s.link.routeQ ∧ u.rd Reg.CSK_VIOL_CNT_COUNT [n] = s.rd Reg.CSK_VIOL_CNT_COUNT [n] ∧
                u.hbm = s.hbm) ∧
              (256 ≤ d → d < 65280 → ∃ t u, exec (.dataBlock n b) s = .next t ∧ Settles u t ∧
                Violates s u n 4 b.seq)) ∧
            (x.replay = [] → ∃ t u, exec (.retryBlock n b) s = .next t ∧ Settles u t ∧ u.port n = x ∧
              u.link.routeQ = s.link.routeQ ∧ u.hbm = s.hbm) ∧
            (∀ f r k, x.replay = f :: r → (k = if x.replaySeq = f.seq then x.replayCount + 1 else 1) →
              (k ≤ 4 → ∃ t u, exec (.retryBlock n b) s = .next t ∧ Settles u t ∧
                u.port n = { x with resend := x.replay.map (·.seq), replaySeq := f.seq, replayCount := k } ∧
                u.rd Reg.CSK_REPLAY_COUNT [n] = satAdd 32 (s.rd Reg.CSK_REPLAY_COUNT [n]) x.replay.length ∧
                u.hbm = s.hbm) ∧
              (4 < k → ∃ t u, exec (.retryBlock n b) s = .next t ∧ Settles u t ∧ u.portState n = psRetraining ∧
                u.rd Reg.CSK_FEC_RETRAINS [n] = satAdd 16 (s.rd Reg.CSK_FEC_RETRAINS [n]) 1 ∧ u.hbm = s.hbm))))))

/-- A port that is DOWN starts training again while the core is up. Training complete leaves it NO_ID while this die has
no ID. A retrain advances the link epoch and shows RETRAINING; in quarantine there is none, and only UNQUAR in Open
mode leaves it. At the end of a retrain the blocks that the partner did not deliver are renumbered from 0 and sent
again. A retrain that has not ended after 10 ms leaves the port DOWN with its packets dropped. A LINK message records
the partner's identity, flags and epoch; one that announces quarantine quarantines the port with PEER_QUAR. A trained
port sends its own message with up to four answers. (RETRAIN_TIMEOUT and LINK_MESSAGE: for a die on which no other
die's job installed records.) (R471, R476, R484, R494, R495, R496, R497, R646.) -/
def Obligations.LinkPorts : Prop :=
  ∀ (s : State) (n : Fin 8),
    ((s.portState n ≠ psDown ∨ s.coreUp = false) → exec (.portTrainRetry n) s = .next s) ∧
    (s.portState n = psDown → s.coreUp = true → ∃ t, exec (.portTrainRetry n) s = .next t ∧ t.portState n = psTraining ∧
      (∀ m : Fin 8, m ≠ n → t.portState m = s.portState m) ∧ t.link = s.link ∧ t.hbm = s.hbm) ∧
    (∀ d : Bool, (s.portState n ≠ psTraining → exec (.portTrained n d) s = .next s) ∧
      (s.portState n = psTraining → s.link.idValid = false → ∃ t, exec (.portTrained n d) s = .next t ∧
        t.portState n = psNoId ∧ (t.port n).trained = true ∧
        t.on Reg.CSK_STAT_DEGRADED [n] = (d && !s.on Reg.CSK_STAT_D2D [n]) ∧
        (∀ m : Nat, m ≠ n → t.port m = s.port m) ∧ t.hbm = s.hbm)) ∧
    (s.portState n = psQuarantined → exec (.retrain n) s = .next s ∧
      ∀ src, s.mayWrite src = true → exec (.cskRetrainRequest src n) s = .next s ∧
        (s.isOpen = false → exec (.unquar src n) s = .next s) ∧
        (s.isOpen = true → (s.port n).trained = true → ∃ t, exec (.unquar src n) s = .next t ∧ Retrains s t n)) ∧
    ((s.port n).trained = true → s.portState n ≠ psQuarantined → s.portState n ≠ psRetraining → s.portState n ≠ psOff →
      (∃ t, exec (.retrain n) s = .next t ∧ Retrains s t n) ∧
      ∀ src, s.mayWrite src = true → (∃ t, exec (.cskRetrainRequest src n) s = .next t ∧ Retrains s t n) ∧
        exec (.unquar src n) s = .next s) ∧
    (∀ k : Nat,
      (s.portState n ≠ psRetraining → exec (.retrainComplete n k) s = .next s) ∧
      (s.portState n = psRetraining → (s.port n).trained = true → ∃ t l, exec (.retrainComplete n k) s = .next t ∧
        l = (match (s.port n).replay.findIdx? (fun b => b.seq == k) with
          | some i => (s.port n).replay.drop (i + 1) | none => (s.port n).replay) ∧
        (t.port n).replay = renumber 0 l ∧ (t.port n).resend = List.range l.length ∧ (t.port n).txSeq = l.length ∧
        (t.port n).rxNext = 0 ∧ (t.port n).queue = (s.port n).queue ∧ (t.port n).wantRetrain = false ∧
        (∀ m : Nat, m ≠ n → t.port m = s.port m) ∧ t.hbm = s.hbm)) ∧
    (s.installers = [] →
      ((s.portState n ≠ psRetraining ∨ s.now < (s.port n).retrainAt + 250000) →
        ∃ t, exec (.retrainTimeout n) s = .next t ∧ Settles s t) ∧
      (s.portState n = psRetraining → (s.port n).retrainAt + 250000 ≤ s.now → ∃ t u, exec (.retrainTimeout n) s = .next t ∧
        Settles u t ∧ u.portState n = psDown ∧ (u.port n).trained = false ∧ (u.port n).held = [] ∧
        u.rd Reg.CSK_UNREACH_COUNT [n] = satAdd 32 (s.rd Reg.CSK_UNREACH_COUNT [n]) (s.port n).held.length ∧
        (∀ m : Nat, m ≠ n → u.port m = s.port m) ∧ u.hbm = s.hbm) ∧
      (∀ m : LinkMsg,
        ((s.port n).trained = false → ∃ t, exec (.linkMessage n m) s = .next t ∧ Settles s t) ∧
        ((s.port n).trained = true → ∃ t u, exec (.linkMessage n m) s = .next t ∧ Settles u t ∧
          u.rd Reg.CSK_PARTNER_SERIAL [n] = m.serial % 2 ^ 64 ∧ u.rd Reg.CSK_PARTNER_ID_DIE [n] = m.dieId % 256 ∧
          u.rd Reg.CSK_PARTNER_ID_PORT [n] = m.port % 8 ∧ u.rd Reg.CSK_PARTNER_ID_ROLE [n] = m.role % 4 ∧
          u.on Reg.CSK_PARTNER_ID_ID_VALID [n] = m.idValid ∧ u.rd Reg.CSK_EPOCH_PEER_EPOCH [n] = m.epoch % 65536 ∧
          u.on Reg.CSK_STAT_PARTNER_EN [n] = m.enabled ∧
          (m.idValid = true → s.link.idValid = true → m.dieId = s.link.dieId → u.on Reg.CSK_STAT_ID_CONFLICT [n] = true) ∧
          (m.quarantine = true → u.portState n = psQuarantined ∧ u.on Reg.CSK_STAT_PEER_QUAR [n] = true ∧
            (u.port n).held = []) ∧
          (m.quarantine = false → m.retrainReq = true → s.portState n ≠ psQuarantined → s.portState n ≠ psRetraining →
            s.portState n ≠ psOff → u.portState n = psRetraining) ∧ u.hbm = s.hbm))) ∧
    ((s.port n).trained = false → exec (.linkMessageSend n) s = .next s) ∧
    ((s.port n).trained = true → ∃ t, exec (.linkMessageSend n) s = .next t ∧
      t.outs = .linkMsg n (s.ownLinkMsg n s.boot.serial) :: s.outs ∧
      t.port n = { s.port n with owedNaks := (s.port n).owedNaks.drop 4 } ∧ t.regs = s.regs ∧ t.hbm = s.hbm)

/-- The oldest packet of the routing stage leaves it, and the cells it held at its arrival port are owed back. One for
this die reaches its local agents. One with an ACTIVE output port joins that port's queue: a CTL packet on ESC,
another one on VC1 when it stays in its dimension on VC1 or the output is a dateline port, and else on VC0. One
without such a port is answered UNREACHABLE to its source and counted. A packet that has waited 1 ms is discarded with
UNREACHABLE; a younger one stays. (For packets that no Graft unit converted on the way.) (R478, R488, R491, R622.) -/
def Obligations.PacketRoutingAndLifetime : Prop :=
  ∀ s : State,
    (s.link.routeQ = [] → exec .packetRoute s = .next s) ∧
    (∀ (q : QPkt) (r : List QPkt) (n : Nat), s.link.routeQ = q :: r → converted q.pkt = false →
      (n = if q.inPort < 8 then q.inPort else 0) →
      (q.pkt.dstDie = s.self → ∃ t, exec .packetRoute s = .next t ∧ t.link.routeQ = r ∧ t.link.inbox = s.link.inbox ++ [q] ∧
        (∀ m, m ≠ q.inPort → t.port m = s.port m) ∧
        (q.inPort < 8 → t.port q.inPort = { s.port q.inPort with
          used := subPool (s.port q.inPort).used (pktPool q.pkt) (1 + q.pkt.len),
          owed := addPool (s.port q.inPort).owed (pktPool q.pkt) (1 + q.pkt.len) }) ∧
        t.plots = s.plots ∧ t.hbm = s.hbm) ∧
      (∀ o v, q.pkt.dstDie ≠ s.self → s.outPort n q.pkt = some o → o ≠ q.inPort →
        (v = if pktClass q.pkt.typ = 3 then 2 else if (q.inPort < 8 ∧ q.pkt.vc = 1 ∧ s.portDim n q.inPort = s.portDim n o) ∨
          s.dateline n o = true then 1 else 0) → ∃ t, exec .packetRoute s = .next t ∧ t.link.routeQ = r ∧
          t.link.inbox = s.link.inbox ∧
          (t.port o).queue = (s.port o).queue ++ [{ q with pkt := { q.pkt with vc := v } }] ∧
          (∀ m, m ≠ o → m ≠ q.inPort → t.port m = s.port m) ∧ t.plots = s.plots ∧ t.hbm = s.hbm) ∧
      (q.pkt.dstDie ≠ s.self → s.outPort n q.pkt = none → q.pkt.typ ≠ 3 → q.pkt.typ ≠ 4 → ∃ t, exec .packetRoute s = .next t ∧
        t.link.routeQ = r ++ [⟨nakOf s.self q.pkt 0x23 0, 8, s.now⟩] ∧ t.link.inbox = s.link.inbox ∧
        (∀ k, k < 8 → (k = if rtValid (s.rtEntry n q.pkt.dstDie) then rtPort (s.rtEntry n q.pkt.dstDie) else q.inPort) →
          t.rd Reg.CSK_UNREACH_COUNT [k] = satAdd 32 (s.rd Reg.CSK_UNREACH_COUNT [k]) 1) ∧
        t.plots = s.plots ∧ t.hbm = s.hbm)) ∧
    (∀ (i : Nat) (q : QPkt), s.link.routeQ[i]? = some q →
      (s.now < q.time + 25000 → exec (.packetLifetimeExpiry i) s = .next s) ∧
      (q.time + 25000 ≤ s.now → q.pkt.typ ≠ 3 → q.pkt.typ ≠ 4 → ∃ t, exec (.packetLifetimeExpiry i) s = .next t ∧
        t.link.routeQ = s.link.routeQ.eraseIdx i ++ [⟨nakOf s.self q.pkt 0x23 0, 8, s.now⟩] ∧
        (q.inPort < 8 → t.rd Reg.CSK_UNREACH_COUNT [q.inPort] = satAdd 32 (s.rd Reg.CSK_UNREACH_COUNT [q.inPort]) 1) ∧
        t.plots = s.plots ∧ t.hbm = s.hbm)) ∧
    (∀ q : QPkt, s.link.routeQ = [] → (s.port 0).queue[0]? = some q →
      (s.now < q.time + 25000 → exec (.packetLifetimeExpiry 0) s = .next s) ∧
      (q.time + 25000 ≤ s.now → q.pkt.typ ≠ 3 → q.pkt.typ ≠ 4 → ∃ t, exec (.packetLifetimeExpiry 0) s = .next t ∧
        (t.port 0).queue = (s.port 0).queue.eraseIdx 0 ∧ t.link.routeQ = [⟨nakOf s.self q.pkt 0x23 0, 8, s.now⟩] ∧
        t.rd Reg.CSK_UNREACH_COUNT [0] = satAdd 32 (s.rd Reg.CSK_UNREACH_COUNT [0]) 1 ∧ t.hbm = s.hbm))

/-- A unit with nothing to send, or whose entry has an ended window to judge, sends nothing. Otherwise the next block of
its oldest send is quantised: the elements are counted in the unit and the entry, packets go to the send's destination
only, and other units' sends stand. An ended window above EVT_LIMIT raises the event; one that is misfit and not wide
marks its entry, and an escalating stream not on its last rung moves up, counted. A COLL packet for no context here is
dropped; an unconverted one or a verdict is kept for its context with its elements; a converted one without an entry
is answered NO_PLAN, one that fails its checks GRAFT_FORMAT with its detail, both counted; one that passes is counted
and its elements kept. (Arrivals: for a context with no COLLECTIVE in progress.) (R508, R509, R511, R512, R513, R514,
R515, R516.) -/
def Obligations.GraftStreamsAndWindows : Prop :=
  ∀ s : State, s.coreUp = true →
    (∀ n : Fin 8,
      (FMap.get s.graft.egress [] n = [] → ∃ t, exec (.graftEgressBlock n) s = .next t ∧ Settles s t) ∧
      (∀ (d : GSend) (r : List GSend) (e : GEntry), FMap.get s.graft.egress [] n = d :: r → s.gent d.entry = some e →
        (e.ended ≠ [] → ∃ t, exec (.graftEgressBlock n) s = .next t ∧ Settles s t) ∧
        (∀ g k, e.ended = [] → e.cap = none → d.entry / 256 = n → d.packed ≤ d.done →
          g = geRung e.img (if d.rwrite = true ∧ d.done = 0 then e.rung else d.rung) →
          k = (if g.mode = 0 then d.elems.length - d.done else min (2 ^ g.blk) (d.elems.length - d.done)) →
          (d.rwrite = true ∨ d.done + k < d.elems.length) →
          ∃ t u l, exec (.graftEgressBlock n) s = .next t ∧ Settles u t ∧ Sent s u l ∧
            (∀ q, q ∈ l → q.dstDie = d.pkt.dstDie ∧ q.typ = d.pkt.typ ∧ q.dstAgent = d.pkt.dstAgent) ∧
            u.rd Reg.GRF_ELEMS_COUNT [n] = (s.rd Reg.GRF_ELEMS_COUNT [n] + k) % 2 ^ 64 ∧
            (∃ f, u.gent d.entry = some f ∧ f.elems = satAdd 64 e.elems k ∧ f.img = e.img ∧ f.rung = e.rung ∧
              f.row = (if d.rwrite = true ∧ d.done = 0 then e.row + 1 else e.row)) ∧
            (FMap.get u.graft.egress [] n = r ∨ ∃ f, FMap.get u.graft.egress [] n = f :: r ∧ f.done = d.done + k ∧
              f.elems = d.elems ∧ f.entry = d.entry) ∧
            (∀ m, m ≠ n.val → FMap.get u.graft.egress [] m = FMap.get s.graft.egress [] m) ∧
            u.plots = s.plots ∧ u.hbm = s.hbm))) ∧
    (∀ (n : Fin 8) (slot k : Nat), k = 256 * n + slot % 256 →
      ((s.gent k = none ∨ ∃ e, s.gent k = some e ∧ e.ended = []) →
        ∃ t, exec (.graftWindowEnd n slot) s = .next t ∧ Settles s t) ∧
      (∀ (e f : GEntry) (clip bad rung : Nat) (rest : List (Nat × Nat × Nat)) (ev mis up : Prop), s.gent k = some e →
        e.ended = (clip, bad, rung) :: rest → f = { e with ended := rest } →
        (ev ↔ geEvent e.img = true ∧ geEvtLimit e.img < clip) →
        (mis ↔ (geRung e.img rung).mode ≠ 0 ∧ (geFbLimit e.img < clip ∨ bad ≠ 0)) →
        (up ↔ mis ∧ geEscalate e.img = true ∧ e.rung < geLast e.img) →
        ∃ t u, exec (.graftWindowEnd n slot) s = .next t ∧ Settles u t ∧
          (¬mis → u.gent k = some f) ∧ (mis → ¬up → u.gent k = some { f with misfit := true }) ∧
          (up → u.gent k = some { f with misfit := true, rung := e.rung + 1, fallbacks := satAdd 32 e.fallbacks 1 } ∧
            u.rd Reg.GRF_RUNGUP_COUNT [n] = satAdd 32 (s.rd Reg.GRF_RUNGUP_COUNT [n]) 1) ∧
          (¬up → u.rd Reg.GRF_RUNGUP_COUNT [n] = s.rd Reg.GRF_RUNGUP_COUNT [n]) ∧
          (ev → u.rd Reg.GRF_EVTCNT_COUNT [n] = satAdd 32 (s.rd Reg.GRF_EVTCNT_COUNT [n]) 1 ∧
            u.rd Reg.HDG_SRC_DATA [320 + 8 * n] =
              (geEidx e.img + 2 ^ 8 * n + 2 ^ 11 * rung + 2 ^ 13 * min clip (2 ^ 19 - 1)) % 2 ^ 32) ∧
          (¬ev → u.rd Reg.GRF_EVTCNT_COUNT [n] = s.rd Reg.GRF_EVTCNT_COUNT [n]) ∧
          (∀ m, m ≠ k → u.gent m = s.gent m) ∧ u.graft.egress = s.graft.egress ∧ u.plots = s.plots ∧ u.hbm = s.hbm)) ∧
    (∀ (q : Packet) (p c : Nat), q.typ = 10 → p = q.dstAgent / 4 → c = q.dstAgent % 4 →
      ((64 ≤ q.dstAgent ∨ s.plotEn p = false) → ∃ t, exec (.coll q) s = .next t ∧ Settles (takeInbox s q) t) ∧
      (q.dstAgent < 64 → s.plotEn p = true → s.collsOf p c = [] →
        (converted q = false → ∃ t u x, exec (.coll q) s = .next t ∧ Settles u t ∧
          u.rxOf p c = s.rxOf p c ++ [x] ∧ x.die = q.srcDie ∧ x.phase = q.tfb 11 1 % 2 ∧ x.chunk = q.tfb 10 1 ∧
          x.verdict = pkVerdict q ∧ (pkVerdict q = true → x.elems = [fieldAt q.body 0 1, fieldAt q.body 1 1]) ∧
          (pkVerdict q = false → x.off = q.tfb 12 3 ∧ x.elems.length = 128 * q.len / max 1 (fmtBits (pkFmt q)) ∧
            ∀ i, i < x.elems.length → x.elems[i]? =
              some (toF32 (decodeFmt (pkFmt q) (element q.body (fmtBits (pkFmt q)) i)))) ∧
          u.link.routeQ = s.link.routeQ ∧ u.plots = s.plots ∧ u.hbm = s.hbm) ∧
        (∀ m n, converted q = true → m = s.graft.entries.find? (fun e => e.2.role == 1 && geKind e.2.img == 0 &&
            geEidx e.2.img == pkEidx q && geAgent e.2.img == q.dstAgent) → n = s.arrivalPort q % 8 →
          (m = none → ∃ t u, exec (.coll q) s = .next t ∧ Settles u t ∧ Sent s u [nakOf s.self q 0x28 0] ∧
            u.rd Reg.GRF_NAK_CNT_COUNT [n] = satAdd 32 (s.rd Reg.GRF_NAK_CNT_COUNT [n]) 1 ∧
            (s.on Reg.GRF_NAK_VALID [n] = false → u.rd Reg.GRF_NAK_CODE [n] = 0x28 ∧ u.on Reg.GRF_NAK_VALID [n] = true) ∧
            u.graft = s.graft ∧ u.plots = s.plots ∧ u.hbm = s.hbm) ∧
          (∀ k e d, m = some (k, e) → graftFails e q = some d → k / 256 < 8 →
            ∃ t u, exec (.coll q) s = .next t ∧ Settles u t ∧ Sent s u [nakOf s.self q 0x29 d] ∧
              u.rd Reg.GRF_NAK_CNT_COUNT [k / 256] = satAdd 32 (s.rd Reg.GRF_NAK_CNT_COUNT [k / 256]) 1 ∧
              (s.on Reg.GRF_NAK_VALID [k / 256] = false → u.rd Reg.GRF_NAK_CODE [k / 256] = 0x29 ∧
                u.rd Reg.GRF_NAK_DETAIL [k / 256] = d ∧ u.on Reg.GRF_NAK_VALID [k / 256] = true) ∧
              u.graft = s.graft ∧ u.plots = s.plots ∧ u.hbm = s.hbm) ∧
          (∀ k e w, m = some (k, e) → graftFails e q = none → k / 256 < 8 →
            w = pkElems e.img (geRung e.img (pkRung q)) q →
            ∃ t u x, exec (.coll q) s = .next t ∧ Settles u t ∧ u.rxOf p c = s.rxOf p c ++ [x] ∧ x.die = q.srcDie ∧
              x.off = q.tfb 12 3 ∧ x.verdict = false ∧ x.elems.length = w ∧
              u.rd Reg.GRF_ELEMS_COUNT [k / 256] = (s.rd Reg.GRF_ELEMS_COUNT [k / 256] + w) % 2 ^ 64 ∧
              (∃ f, u.gent k = some f ∧ f.elems = satAdd 64 e.elems w ∧ f.rung = pkRung q) ∧
              u.link.routeQ = s.link.routeQ ∧ u.plots = s.plots ∧ u.hbm = s.hbm))))

/-- A COLLECTIVE or descriptor with a bad byte faults BAD_FIELD with the byte; a group that the job does not allow faults
with cause 11; a source that is not ready leaves the context waiting with kind 1; otherwise the context goes on, and
the exchange is queued behind the ones in progress. A verdict round begins when the run has ended and every window is
judged: the die's record tells whether one of its entries was misfit and on which rung, in verdict packets only. At
its end a misfit run below the last rung starts again on the next rung from the source, each egress entry counting a
fallback; otherwise the destination rows are written, unless a FILL has to wait for one, and the COLLECTIVE is done.
(R322, R324, R325, R517, R518.) -/
def Obligations.CollectivesAndVerdicts : Prop :=
  ∀ (s : State) (p : Fin 16) (c : Fin 4), s.coreUp = true →
    (∀ (l b g data : List Byte) (w v x : State) (dies : List Nat), Issues s p c 0x21 l →
      (∀ k, badByte l (coBad l) [12, 13, 14, 15] = some k → ∃ t u, exec (.collective p c) s = .next t ∧ Settles u t ∧
        Faults s u p c 2 k .jobFault) ∧
      (badByte l (coBad l) [12, 13, 14, 15] = none → readRow s p 0 (coDesc l) tagNone = (w, .ok b) →
        (∀ k, badByte b (cdBad b) cdReserved = some k → ∃ t u, exec (.collective p c) s = .next t ∧ Settles u t ∧
          Faults s u p c 2 k .jobFault) ∧
        (badByte b (cdBad b) cdReserved = none → readRow w p 0 (cdGroup b) tagNone = (v, .ok g) →
          dies = (List.range (cdSize b)).map (fun i => fieldAt g i 1) →
          (v.collOk p b dies = false → ∃ t u, exec (.collective p c) s = .next t ∧ Settles u t ∧
            Faults s u p c 11 0 .jobFault) ∧
          (v.collOk p b dies = true → coSrc l + coSrcRows l (cdSize b) ≤ v.storeRows p (cdSrcStore b) →
            coDst l + coDstRows l (cdSize b) ≤ v.storeRows p (cdDstStore b) →
            (v.rowsReady p (cdSrcStore b) (coSrc l) (coInTag l) (coSrcRows l (cdSize b)) = false →
              ∃ t u, exec (.collective p c) s = .next t ∧ Settles u t ∧ Settles v u ∧
                u.rd Reg.RKE_CTX_STATE [p, c] = 2 ∧ u.rd Reg.RKE_CTX_WAIT_KIND [p, c] = 1 ∧ u.graft = s.graft) ∧
            (v.rowsReady p (cdSrcStore b) (coSrc l) (coInTag l) (coSrcRows l (cdSize b)) = true →
              readRows v p (cdSrcStore b) (coSrc l) (coInTag l) (coSrcRows l (cdSize b)) = (x, .ok data) →
              s.noSets p c → s.pcOf p c < 4095 → ∃ t u, exec (.collective p c) s = .next t ∧ Settles u t ∧
                u.pcOf p c = s.pcOf p c + 1 ∧ (u.ctx p c).wait = none ∧ (u.ctx p c).colls ≤ (s.ctx p c).colls + 1 ∧
                u.hbm = s.hbm ∧
                (∀ h r, s.collsOf p c = h :: r → h.phase = 1 → (u.ctx p c).colls = (s.ctx p c).colls + 1 ∧
                  ∃ y, u.collsOf p c = h :: r ++ [y] ∧ y.instr = l ∧ y.desc = b ∧ y.group = dies ∧ y.phase = 0 ∧
                    y.step = 0 ∧ y.src.length = wideElems (cdFmt b) (coRows l))))))) ∧
    (s.collsOf p c = [] → (∃ t, exec (.verdictRound p c) s = .next t ∧ Settles s t) ∧
      ∃ t, exec (.verdictRoundComplete p c) s = .next t ∧ Settles s t) ∧
    (∀ (x : Coll) (r : List Coll), s.collsOf p c = x :: r →
      ((x.phase ≠ 1 ∨ ∃ k e, k ∈ s.layerKeys p c x ∧ s.gent k = some e ∧ e.ended ≠ []) →
        ∃ t, exec (.verdictRound p c) s = .next t ∧ Settles s t) ∧
      (x.phase = 1 → (∀ k e, k ∈ s.layerKeys p c x → s.gent k = some e → e.ended = []) →
        ∃ t u y l, exec (.verdictRound p c) s = .next t ∧ Settles u t ∧ u.collsOf p c = y :: r ∧ y.phase = 2 ∧
          y.rung = x.rung ∧ y.acc = x.acc ∧
          ((∃ k e, k ∈ s.layerKeys p c x ∧ s.gent k = some e ∧ e.misfit = true) → y.misfit = true) ∧ Sent s u l ∧
          (∀ q, q ∈ l → pkVerdict q = true ∧ q.len = 1 ∧ fieldAt q.body 1 1 = x.rung % 256) ∧
          u.plots = s.plots ∧ u.hbm = s.hbm) ∧
      (((x.phase ≠ 2 ∧ x.phase ≠ 3) ∨ (x.phase = 2 ∧ x.step < (s.verdictSteps x).length)) →
        ∃ t, exec (.verdictRoundComplete p c) s = .next t ∧ Settles s t) ∧
      (∀ (i : List Byte) (y : Coll), x.phase = 2 → (s.verdictSteps x).length ≤ x.step → x.misfit = true →
        s.layerImg p x = some i → x.rung < geLast i →
        y = { x with phase := 0, step := 0, acc := x.src, rung := x.rung + 1, misfit := false } → s.rxOf p c = [] →
        (∃ d ph ch lo hi m, (s.collSteps y).head? = some (.recv d ph ch lo hi m)) →
        ∃ t u, exec (.verdictRoundComplete p c) s = .next t ∧ Settles u t ∧ u.collsOf p c = y :: r ∧
          (∀ k e, (s.layerKeys p c x).Nodup → k ∈ s.layerKeys p c x → s.gent k = some e → e.cap = none →
            ∃ f, u.gent k = some f ∧ f.fallbacks = satAdd 32 e.fallbacks 1 ∧ f.rung = x.rung + 1 ∧ f.misfit = false) ∧
          u.plots = s.plots ∧ u.hbm = s.hbm) ∧
      (∀ rows, (x.phase = 3 ∨ (x.phase = 2 ∧ (s.verdictSteps x).length ≤ x.step ∧ x.misfit = false)) →
        rows = s.collRowsOut x →
        (coOutTag x.instr = tagFill → (∃ e, e ∈ rows ∧ s.tagFull p (cdDstStore x.desc) e.1 = true) →
          ∃ t u, exec (.verdictRoundComplete p c) s = .next t ∧ Settles u t ∧
            u.collsOf p c = { x with phase := 3 } :: r ∧ u.plots = s.plots ∧ u.hbm = s.hbm) ∧
        (coOutTag x.instr = tagNone → r = [] → cdDstStore x.desc < 3 →
          (∀ e, e ∈ rows → e.1 < s.storeRows p (cdDstStore x.desc)) →
          ∃ t u, exec (.verdictRoundComplete p c) s = .next t ∧ Settles u t ∧ u.collsOf p c = [] ∧
            (u.ctx p c).colls = (s.ctx p c).colls - 1 ∧
            (∀ e, e ∈ rows → u.rowBytes p (cdDstStore x.desc) e.1 = padTo 256 e.2) ∧ u.hbm = s.hbm)))

/-- A write that the agent may not make changes no island register. ENTER has no effect while MAIN_EN is high or an
enabled wake source is pending, and otherwise shows LISTEN; only an enabled wake source ends LISTEN, and WAKE records
its cause. The reference is stable only outside LISTEN. A write of EN = 1 to a stopped timer counts from 0; EN = 0
stops it and keeps its count; EXP_CLR clears EXPIRIES; an expiry that is due counts, saturating, and raises the
timer's source. An RTC second steps SEC and clears SUB; the alarm is due when SEC reaches ALARM_SEC with ALARM_EN set,
and raises its source once. KICK restarts the watchdog. Nothing else changes. (R15, R524, R525, R527, R530, R531,
R532, R533.) -/
def Obligations.ListenTimersAndRtc : Prop :=
  ∀ s : State,
    (∀ src n c, s.mayWrite src = false → c ∈ fwWrites src n → ∃ t, exec c s = .next t ∧ Quiet s t) ∧
    (∀ src, s.mayWrite src = true →
      ((s.on Reg.TOP_PINSTAT_MAIN_EN [] = true ∨ s.wakePending = true) → exec (.listenEnter src) s = .next s) ∧
      (s.on Reg.TOP_PINSTAT_MAIN_EN [] = false → s.wakePending = false → ∃ t, exec (.listenEnter src) s = .next t ∧
        t.rd Reg.CLO_STATE_STATE [] = 2 ∧ t.rd Reg.CLO_STATE_REF_OK [] = 0 ∧
        OnlyRegs s t [Reg.CLO_STATE_STATE.key [], Reg.CLO_STATE_REF_OK.key []]) ∧
      (∃ t, exec (.kick src) s = .next t ∧ t.cloche.wdtAt = s.now + 25000 * s.rd Reg.CLO_WDT_TIMEOUT_MS [] ∧
        { t with cloche := { t.cloche with wdtAt := 0 } } = { s with cloche := { s.cloche with wdtAt := 0 } }) ∧
      ∀ n : Fin 8,
        (s.on Reg.CLO_TMR_CTL_EN [n] = true → exec (.timerEnable src n) s = .next s) ∧
        (s.on Reg.CLO_TMR_CTL_EN [n] = false → ∃ t, exec (.timerEnable src n) s = .next t ∧
          t.on Reg.CLO_TMR_CTL_EN [n] = true ∧ t.rd Reg.CLO_TMR_CNT_COUNT [n] = 0 ∧
          t.cloche.tmrDue = s.cloche.tmrDue ++ (if s.rd Reg.CLO_TMR_CMP_VALUE [n] = 0 then [n.val] else []) ∧
          OnlyRegs { s with cloche := t.cloche } t [Reg.CLO_TMR_CTL_EN.key [n], Reg.CLO_TMR_CNT_COUNT.key [n]]) ∧
        (∃ t, exec (.timerDisable src n) s = .next t ∧ t.on Reg.CLO_TMR_CTL_EN [n] = false ∧
          t.rd Reg.CLO_TMR_CNT_COUNT [n] = s.rd Reg.CLO_TMR_CNT_COUNT [n] ∧ OnlyRegs s t [Reg.CLO_TMR_CTL_EN.key [n]]) ∧
        ∃ t, exec (.expClr src n) s = .next t ∧ t.rd Reg.CLO_TMR_CTL_EXPIRIES [n] = 0 ∧
          OnlyRegs s t [Reg.CLO_TMR_CTL_EXPIRIES.key [n]]) ∧
    (∀ w : WakeSource, (s.rd Reg.CLO_STATE_STATE [] ≠ 2 ∨ s.wakeEnabled w = false → exec (.listenWake w) s = .next s) ∧
      (s.rd Reg.CLO_STATE_STATE [] = 2 → s.wakeEnabled w = true → ∃ t, exec (.listenWake w) s = .next t ∧
        t.rd Reg.CLO_STATE_STATE [] = 0 ∧
        t.rd Reg.CLO_STATE_WAKE [] = (match w with | .gpi _ => 1 | .rtc => 2 | .timer _ => 3 | .smbus => 4 | .powerCut => 5) ∧
        OnlyRegs s t [Reg.CLO_STATE_STATE.key [], Reg.CLO_STATE_WAKE.key []])) ∧
    ((s.rd Reg.CLO_STATE_STATE [] = 2 ∨ s.boot.rails = false ∨ s.boot.osc = false → exec .referenceStable s = .next s) ∧
      (s.rd Reg.CLO_STATE_STATE [] ≠ 2 → s.boot.rails = true → s.boot.osc = true → ∃ t, exec .referenceStable s = .next t ∧
        t.rd Reg.CLO_STATE_REF_OK [] = 1 ∧ OnlyRegs s t [Reg.CLO_STATE_REF_OK.key []])) ∧
    (∀ n : Fin 8, ((n.val) ∉ s.cloche.tmrDue → exec (.timerExpiry n) s = .next s) ∧
      ((n.val) ∈ s.cloche.tmrDue → ∃ t u, exec (.timerExpiry n) s = .next t ∧
        Raises u t (384 + n) (satAdd 8 (s.rd Reg.CLO_TMR_CTL_EXPIRIES [n]) 1) ∧
        u.rd Reg.CLO_TMR_CTL_EXPIRIES [n] = satAdd 8 (s.rd Reg.CLO_TMR_CTL_EXPIRIES [n]) 1 ∧
        u.cloche = { s.cloche with tmrDue := s.cloche.tmrDue.erase n } ∧
        OnlyRegs { s with cloche := u.cloche } u [Reg.CLO_TMR_CTL_EXPIRIES.key [n]])) ∧
    ((s.boot.rails = false → exec .rtcTick s = .next s) ∧
      (s.boot.rails = true → ∃ t, exec .rtcTick s = .next t ∧
        t.rd Reg.CLO_RTC_SEC_SEC [] = (s.rd Reg.CLO_RTC_SEC_SEC [] + 1) % 2 ^ 32 ∧ t.rd Reg.CLO_RTC_SUB_SUB [] = 0 ∧
        (t.cloche.alarmDue = true ↔ s.cloche.alarmDue = true ∨ (s.on Reg.CLO_RTC_CTL_ALARM_EN [] = true ∧
          t.rd Reg.CLO_RTC_SEC_SEC [] = s.rd Reg.CLO_RTC_ALARM_SEC [])) ∧
        OnlyRegs { s with cloche := t.cloche, gov := t.gov } t
          [Reg.CLO_RTC_SEC_SEC.key [], Reg.CLO_RTC_SUB_SUB.key []])) ∧
    ((s.cloche.alarmDue = false → exec .rtcAlarm s = .next s) ∧
      (s.cloche.alarmDue = true → ∃ t, exec .rtcAlarm s = .next t ∧ t.cloche.alarmDue = false ∧
        Raises { s with cloche := { s.cloche with alarmDue := false } } t 396 (s.rd Reg.CLO_RTC_SEC_SEC [])))

/-- A GPIO edge moves the input's level; an enabled edge sets its latch and counts, saturating; a rising latch level
raises the source, and further edges while it stands only count. SPI_START sends the buffer and shows BUSY, without
effect while a transfer runs; its completion puts the received bytes into the buffer's part of working SRAM, clears
BUSY and raises its source. A PDM sample goes to the ring at its write index, which advances and wraps, or is dropped
and counted when the ring is full or the seam runs; a full 1 KiB block raises the source. HALT, RESUME and STEP reach
the core in Open mode only. Nothing else changes. (The program counter shown is a free value.) (R15, R529, R534, R536,
R537, R545, R646.) -/
def Obligations.InputsTransfersAndBenchDebug : Prop :=
  ∀ s : State,
    (∀ (n : Fin 4) (level : Bool),
      ((s.boot.rails = false ∨ bitOf (s.rd Reg.CLO_GPI_LVL_LVL []) n = level) → exec (.gpiEdge n level) s = .next s) ∧
      (s.boot.rails = true → bitOf (s.rd Reg.CLO_GPI_LVL_LVL []) n = !level → ∃ t u, exec (.gpiEdge n level) s = .next t ∧
        Quiet u t ∧ (∀ k : Fin 4, bitOf (u.rd Reg.CLO_GPI_LVL_LVL []) k =
          if k = n then level else bitOf (s.rd Reg.CLO_GPI_LVL_LVL []) k) ∧
        ((s.on (gpiEn n) [] = false ∨ bitOf (s.rd (gpiSense n) []) (if level then 0 else 1) = false) → t = u ∧
          OnlyRegs s u [Reg.CLO_GPI_LVL_LVL.key []]) ∧
        (s.on (gpiEn n) [] = true → bitOf (s.rd (gpiSense n) []) (if level then 0 else 1) = true →
          (∀ k : Fin 4, bitOf (u.rd Reg.CLO_GPI_LATCH_LATCH []) k =
            if k = n then true else bitOf (s.rd Reg.CLO_GPI_LATCH_LATCH []) k) ∧
          u.rd (gpiCnt n) [] = satAdd 8 (s.rd (gpiCnt n) []) 1 ∧
          OnlyRegs s u [Reg.CLO_GPI_LVL_LVL.key [], Reg.CLO_GPI_LATCH_LATCH.key [], (gpiCnt n).key []] ∧
          (s.on Reg.HDG_SRC_LEVEL [392 + n] = true → t = u) ∧
          (s.on Reg.HDG_SRC_LEVEL [392 + n] = false → t.on Reg.HDG_SRC_LEVEL [392 + n] = true ∧
            t.rd Reg.HDG_SRC_DATA [392 + n] = satAdd 8 (s.rd (gpiCnt n) []) 1 ∧
            (s.rd Reg.HDG_SRC_SENSE [392 + n] = 0 → s.on Reg.HDG_SRC_ACTIVE [392 + n] = false →
              t.on Reg.HDG_SRC_PENDING [392 + n] = true))))) ∧
    (∀ src, s.mayWrite src = true →
      (s.on Reg.CLO_SPI_CTL_BUSY [] = true → exec (.spiStart src) s = .next s) ∧
      (s.on Reg.CLO_SPI_CTL_BUSY [] = false → ∃ t, exec (.spiStart src) s = .next t ∧
        t.on Reg.CLO_SPI_CTL_BUSY [] = true ∧
        t.outs = .spi (s.sramRead (s.rd Reg.CLO_SPI_ADDR_ADDR []) (min (s.rd Reg.CLO_SPI_CTL_LEN1 [] + 1) 4096)) :: s.outs ∧
        OnlyRegs { s with outs := t.outs } t [Reg.CLO_SPI_CTL_BUSY.key []]) ∧
      ((s.isOpen = false ∨ s.on Reg.BNC_CTL_HALTED [] = true) → exec (.benchHalt src) s = .next s) ∧
      (s.isOpen = true → s.on Reg.BNC_CTL_HALTED [] = false → ∃ t, exec (.benchHalt src) s = .next t ∧
        t.on Reg.BNC_CTL_HALTED [] = true ∧
        OnlyRegs { s with freeCtr := t.freeCtr } t [Reg.BNC_CTL_HALTED.key [], Reg.BNC_PC_PC.key []]) ∧
      (s.isOpen = false → exec (.benchResume src) s = .next s) ∧
      (s.isOpen = true → ∃ t, exec (.benchResume src) s = .next t ∧ t.on Reg.BNC_CTL_HALTED [] = false ∧
        OnlyRegs s t [Reg.BNC_CTL_HALTED.key []]) ∧
      ((s.isOpen = false ∨ s.on Reg.BNC_CTL_HALTED [] = false) → exec (.benchStep src) s = .next s) ∧
      (s.isOpen = true → s.on Reg.BNC_CTL_HALTED [] = true → ∃ t, exec (.benchStep src) s = .next t ∧
        t.on Reg.BNC_CTL_HALTED [] = true ∧ OnlyRegs { s with freeCtr := t.freeCtr } t [Reg.BNC_PC_PC.key []])) ∧
    (∀ l : List Byte,
      (s.on Reg.CLO_SPI_CTL_BUSY [] = false → exec (.spiComplete l) s = .next s) ∧
      (s.on Reg.CLO_SPI_CTL_BUSY [] = true → ∃ t u, exec (.spiComplete l) s = .next t ∧ Raises u t 397 0 ∧
        u.on Reg.CLO_SPI_CTL_BUSY [] = false ∧
        (∀ a n, 0x40000 ≤ a → a < 0xC0000 → n = min (s.rd Reg.CLO_SPI_CTL_LEN1 [] + 1) 4096 →
          s.rd Reg.CLO_SPI_ADDR_ADDR [] ≤ a → a < s.rd Reg.CLO_SPI_ADDR_ADDR [] + n →
          u.sramByte a = l.getD (a - s.rd Reg.CLO_SPI_ADDR_ADDR []) 0) ∧
        (∀ a n, n = min (s.rd Reg.CLO_SPI_CTL_LEN1 [] + 1) 4096 →
          (a < 0x40000 ∨ 0xC0000 ≤ a ∨ a < s.rd Reg.CLO_SPI_ADDR_ADDR [] ∨ s.rd Reg.CLO_SPI_ADDR_ADDR [] + n ≤ a) →
          u.sramByte a = s.sramByte a) ∧
        OnlyRegs { s with cloche := u.cloche } u [Reg.CLO_SPI_CTL_BUSY.key []])) ∧
    (∀ (n : Fin 2) (v size wr nxt : Nat),
      (s.on Reg.CLO_PDM_CTL_EN [n] = false → exec (.pdmSample n v) s = .next s) ∧
      (s.on Reg.CLO_PDM_CTL_EN [n] = true → size = s.rd Reg.CLO_PDM_CTL_SIZE [n] * 64 → wr = s.rd Reg.CLO_PDM_RD_WR [n] →
        nxt = (if wr + 2 < size then wr + 2 else 0) →
        ((s.on Reg.CLO_FWSTAT_SEAM [] = true ∨ size = 0 ∨ nxt = s.rd Reg.CLO_PDM_RD_RD [n]) →
          ∃ t, exec (.pdmSample n v) s = .next t ∧
            t.rd (if n = 0 then Reg.CLO_PDM_STAT_DROP0 else Reg.CLO_PDM_STAT_DROP1) [] =
              satAdd 16 (s.rd (if n = 0 then Reg.CLO_PDM_STAT_DROP0 else Reg.CLO_PDM_STAT_DROP1) []) 1 ∧
            OnlyRegs s t [(if n = 0 then Reg.CLO_PDM_STAT_DROP0 else Reg.CLO_PDM_STAT_DROP1).key []]) ∧
        (s.on Reg.CLO_FWSTAT_SEAM [] = false → size ≠ 0 → nxt ≠ s.rd Reg.CLO_PDM_RD_RD [n] →
          ∃ t u, exec (.pdmSample n v) s = .next t ∧ u.rd Reg.CLO_PDM_RD_WR [n] = nxt % 65536 ∧
            (∀ k, k < 2 → 0x40000 ≤ s.rd Reg.CLO_PDM_CTL_BASE [n] * 1024 + wr + k →
              s.rd Reg.CLO_PDM_CTL_BASE [n] * 1024 + wr + k < 0xC0000 →
              u.sramByte (s.rd Reg.CLO_PDM_CTL_BASE [n] * 1024 + wr + k) = BitVec.ofNat 8 (v / 256 ^ k)) ∧
            (∀ a, (a < s.rd Reg.CLO_PDM_CTL_BASE [n] * 1024 + wr ∨ s.rd Reg.CLO_PDM_CTL_BASE [n] * 1024 + wr + 2 ≤ a) →
              u.sramByte a = s.sramByte a) ∧
            OnlyRegs { s with cloche := u.cloche } u [Reg.CLO_PDM_RD_WR.key [n]] ∧
            (nxt % 1024 ≠ 0 → t = u) ∧ (nxt % 1024 = 0 → Raises u t (398 + n) nxt))))

/-- START while BUSY sets OVERRUN only; otherwise the list at LIST begins at index 0. A command runs only while the engine
is busy, when its OP is the one at the index, and when no flash bank it reads is busy. A command that breaks R541, or
reads outside memory, stops the list with its cause and index and raises the fault source. MATMUL writes, for each
column and channel, the clamped product sum of R540 and counts M × K × N; ADD, LUT and COPY write their element-by-
element results; RAISE raises its source with CODE; END sets DONE and raises the completion source. Other SRAM stands.
A DORMANT job that is triggered and completes increments its area's sequence byte and pulls SMB_ALERT_N low; without a
matching entry nothing changes. (R539, R540, R541, R544, R571, R585.) -/
def Obligations.CmeLists : Prop :=
  ∀ s : State,
    (∀ src, s.mayWrite src = true →
      (s.on Reg.CME_STAT_BUSY [] = true → ∃ t, exec (.cmeStart src) s = .next t ∧ t.on Reg.CME_STAT_OVERRUN [] = true ∧
        OnlyRegs s t [Reg.CME_STAT_OVERRUN.key []]) ∧
      (s.on Reg.CME_STAT_BUSY [] = false → s.flash.bank0 = [] → s.flash.bank1 = [] →
        ∃ t, exec (.cmeStart src) s = .next t ∧ t.on Reg.CME_STAT_BUSY [] = true ∧ t.rd Reg.CME_STAT_ERR [] = 0 ∧
          t.rd Reg.CME_STAT_PC [] = 0 ∧ t.cloche.cmeAddr = s.rd Reg.CME_LIST_ADDR [] ∧ t.cloche.cmePc = 0 ∧
          t.cloche.sram = s.cloche.sram ∧ OnlyRegs { s with cloche := t.cloche } t
            [Reg.CME_STAT_BUSY.key [], Reg.CME_STAT_ERR.key [], Reg.CME_STAT_PC.key []])) ∧
    (∀ (ecc : FlashEcc) (op : Nat) (i : Instr) (c : List Byte),
      (op, i) ∈ [(0, .cmeEnd ecc), (1, .cmeMatmul ecc), (2, .cmeAdd ecc), (3, .cmeLut ecc), (4, .cmeCopy ecc),
        (5, .cmeRaise ecc)] → c = s.cmeCmd s.cloche.cmeAddr s.cloche.cmePc →
      (s.on Reg.CME_STAT_BUSY [] = false → exec i s = .next s) ∧
      (s.on Reg.CME_STAT_BUSY [] = true → memOk (s.cloche.cmeAddr + 32 * s.cloche.cmePc) 32 = false →
        ∃ t, exec i s = .next t ∧ t.on Reg.CME_STAT_BUSY [] = false ∧ t.rd Reg.CME_STAT_ERR [] = 5 ∧
          t.rd Reg.CME_STAT_PC [] = s.cloche.cmePc % 65536 ∧ t.cloche = s.cloche) ∧
      (s.on Reg.CME_STAT_BUSY [] = true → memOk (s.cloche.cmeAddr + 32 * s.cloche.cmePc) 32 = true →
        (fieldAt c 0 1 ≤ 5 → fieldAt c 0 1 ≠ op → exec i s = .next s) ∧
        (fieldAt c 0 1 = op → s.cmeWaits c = true → exec i s = .next s) ∧
        ((fieldAt c 0 1 = op ∨ 5 < fieldAt c 0 1) → s.cmeWaits c = false → ecc.bad = none → ecc.corrected = 0 →
          (s.cmeErr c ≠ 0 → ∃ t u, exec i s = .next t ∧
            Raises u t 401 (s.cmeErr c + 65536 * s.cloche.cmePc) ∧ u.on Reg.CME_STAT_BUSY [] = false ∧
            u.rd Reg.CME_STAT_ERR [] = s.cmeErr c ∧ u.rd Reg.CME_STAT_PC [] = s.cloche.cmePc % 65536 ∧
            u.cloche = s.cloche) ∧
          (5 < fieldAt c 0 1 → s.cmeErr c = 1) ∧
          (s.cmeErr c = 0 → op = 0 → ∃ t, exec i s = .next t ∧ t.on Reg.CME_STAT_BUSY [] = false ∧
            t.on Reg.CME_STAT_DONE [] = true ∧ t.on Reg.HDG_SRC_LEVEL [400] = true ∧ t.cloche = s.cloche) ∧
          (s.cmeErr c = 0 → op ≠ 0 → ∃ t u, exec i s = .next t ∧ u.cloche.cmePc = s.cloche.cmePc + 1 ∧
            u.on Reg.CME_STAT_BUSY [] = true ∧ (op ≠ 5 → t = u) ∧ (op = 5 → Raises u t 402 (fieldAt c 29 2) ∧
              u.cloche.sram = s.cloche.sram) ∧
            u.rd Reg.CME_MACS_COUNT [] = (s.rd Reg.CME_MACS_COUNT [] +
              (if op = 1 then fieldAt c 2 2 * fieldAt c 4 2 * fieldAt c 6 2 else 0)) % 2 ^ 64 ∧
            (∀ k, op = 2 → k < fieldAt c 4 2 * fieldAt c 6 2 → (u.sramByte (fieldAt c 16 4 + k)).toInt =
              max (-128) (min 127 ((s.sramByte (fieldAt c 12 4 + k)).toInt
                + ((s.memRead (fieldAt c 8 4 + k) 1).headD 0).toInt - ((BitVec.ofNat 8 (fieldAt c 28 1)).toInt)))) ∧
            (∀ k, op = 3 → k < fieldAt c 4 2 * fieldAt c 6 2 → u.sramByte (fieldAt c 16 4 + k) =
              (s.memRead (fieldAt c 8 4 + ((s.sramByte (fieldAt c 12 4 + k)).toInt + 128).toNat) 1).headD 0) ∧
            (∀ k, op = 4 → k < fieldAt c 4 2 * fieldAt c 6 2 →
              u.sramByte (fieldAt c 16 4 + k) = s.sramByte (fieldAt c 12 4 + k)) ∧
            (∀ (a g b : Int) (sh : Nat) (row e : List Byte) (m j : Nat), op = 1 → fieldAt c 1 1 = 0 →
              m < fieldAt c 2 2 → j < fieldAt c 6 2 →
              row = s.memRead (fieldAt c 8 4 + m * fieldAt c 4 2) (fieldAt c 4 2) →
              e = s.memRead (fieldAt c 20 4 + 12 * m) 12 → b = i32At e 0 → g = i32At e 4 → sh = fieldAt e 8 1 →
              a = ((List.range (fieldAt c 4 2)).map (fun k => (row.getD k 0).toInt *
                (s.sramByte (fieldAt c 12 4 + j * fieldAt c 4 2 + k)).toInt)).sum →
              (u.sramByte (fieldAt c 16 4 + j * fieldAt c 2 2 + m)).toInt = max (-128) (min 127
                (((a + b) * g + (if sh = 0 then 0 else 2 ^ (sh - 1))) / 2 ^ sh + (BitVec.ofNat 8 (fieldAt c 28 1)).toInt))) ∧
            (∀ x, (x < fieldAt c 16 4 ∨ fieldAt c 16 4 + (s.cmeOut c).length ≤ x) → u.sramByte x = s.sramByte x))))) ∧
    (∀ trigger input : Nat,
      ((s.role ≠ 2 ∨ s.fwRuns = false ∨ s.rd Reg.CLO_STATE_STATE [] = 2 ∨ s.on Reg.CME_STAT_BUSY [] = true ∨
        s.dormantEntry trigger input = none) → exec (.dormantJobTrigger trigger input) s = .next s) ∧
      (∀ e m w q l, s.role = 2 → s.fwRuns = true → s.rd Reg.CLO_STATE_STATE [] ≠ 2 → s.on Reg.CME_STAT_BUSY [] = false →
        s.dormantEntry trigger input = some e → s.model (fieldAt e 4 4) = some m →
        w = cmeRunAll 65536 (cmeBegin s (fieldAt m 16 4)) → FMap.get w.cloche.areas (0, []) (fieldAt e 3 1) = (q, l) →
        (w.on Reg.CME_STAT_DONE [] = false → exec (.dormantJobTrigger trigger input) s = .next w) ∧
        (w.on Reg.CME_STAT_DONE [] = true → ∃ t, exec (.dormantJobTrigger trigger input) s = .next t ∧
          t.cloche.alert = true ∧ t.on Reg.CME_STAT_DONE [] = false ∧
          FMap.get t.cloche.areas (0, []) (fieldAt e 3 1) = ((q + 1) % 256, w.sramRead w.cloche.lastOut (fieldAt e 2 1)) ∧
          t.flash = w.flash ∧ t.cloche.sram = w.cloche.sram)))

/-- A request of an event source writes its DATA and, under an edge SENSE, leaves the pending bit 1 whether it was 0 or 1
and whether the source is active or not; a level source's DATA is written when its level rises and kept otherwise; a
later request replaces the DATA. A source that is active is not eligible; when it is completed with its pending bit 1
the bit stays 1, and a level-high source still asserted becomes pending. FORCE raises one request with DATA 0;
PENDING_CLEAR withdraws one. Nothing outside Hedge and the functions' pages changes, and no other source. (R552,
R554.) -/
def Obligations.RequestsBecomePending : Prop :=
  ∀ (s : State) (i : Fin 1023) (d : Nat),
    (∀ level, srcKind i = .reserved → exec (.sourceRequest i level d) s = .next s) ∧
    (∀ level, srcKind i = .event → ∃ t, exec (.sourceRequest i level d) s = .next t ∧ Quiet s t ∧
      t.rd Reg.HDG_SRC_DATA [i] = d % 2 ^ 32 ∧ t.on Reg.HDG_SRC_ACTIVE [i] = s.on Reg.HDG_SRC_ACTIVE [i] ∧
      (2 ≤ s.rd Reg.HDG_SRC_SENSE [i] → t.on Reg.HDG_SRC_PENDING [i] = true) ∧
      ∀ k : Nat, k < 1023 → k ≠ i → t.rd Reg.HDG_SRC_DATA [k] = s.rd Reg.HDG_SRC_DATA [k] ∧
        t.on Reg.HDG_SRC_PENDING [k] = s.on Reg.HDG_SRC_PENDING [k] ∧
        t.on Reg.HDG_SRC_ACTIVE [k] = s.on Reg.HDG_SRC_ACTIVE [k]) ∧
    (∀ level, srcKind i = .level → s.on Reg.HDG_SRC_LEVEL [i] = level → exec (.sourceRequest i level d) s = .next s) ∧
    (∀ level, srcKind i = .level → s.on Reg.HDG_SRC_LEVEL [i] = !level →
      ∃ t, exec (.sourceRequest i level d) s = .next t ∧ Quiet s t ∧ t.on Reg.HDG_SRC_LEVEL [i] = level ∧
        t.rd Reg.HDG_SRC_DATA [i] = (if level then d % 2 ^ 32 else s.rd Reg.HDG_SRC_DATA [i]) ∧
        t.on Reg.HDG_SRC_ACTIVE [i] = s.on Reg.HDG_SRC_ACTIVE [i] ∧
        (s.rd Reg.HDG_SRC_SENSE [i] = 0 → s.on Reg.HDG_SRC_ACTIVE [i] = false → t.on Reg.HDG_SRC_PENDING [i] = level) ∧
        (s.rd Reg.HDG_SRC_SENSE [i] = 1 → s.on Reg.HDG_SRC_ACTIVE [i] = false → t.on Reg.HDG_SRC_PENDING [i] = !level) ∧
        (s.rd Reg.HDG_SRC_SENSE [i] < 2 → s.on Reg.HDG_SRC_ACTIVE [i] = true →
          t.on Reg.HDG_SRC_PENDING [i] = s.on Reg.HDG_SRC_PENDING [i]) ∧
        (s.rd Reg.HDG_SRC_SENSE [i] = 2 → t.on Reg.HDG_SRC_PENDING [i] = (level || s.on Reg.HDG_SRC_PENDING [i])) ∧
        (s.rd Reg.HDG_SRC_SENSE [i] = 3 → t.on Reg.HDG_SRC_PENDING [i] = (!level || s.on Reg.HDG_SRC_PENDING [i])) ∧
        (4 ≤ s.rd Reg.HDG_SRC_SENSE [i] → t.on Reg.HDG_SRC_PENDING [i] = true) ∧
        ∀ k : Nat, k < 1023 → k ≠ i → t.rd Reg.HDG_SRC_DATA [k] = s.rd Reg.HDG_SRC_DATA [k] ∧
          t.on Reg.HDG_SRC_PENDING [k] = s.on Reg.HDG_SRC_PENDING [k] ∧
          t.on Reg.HDG_SRC_ACTIVE [k] = s.on Reg.HDG_SRC_ACTIVE [k]) ∧
    (s.on Reg.HDG_SRC_ACTIVE [i] = true → s.eligible i = false) ∧
    (srcKind i ≠ .reserved → s.on Reg.HDG_SRC_ACTIVE [i] = true → ∃ t, exec (.benchComplete .bench i) s = .next t ∧
      t.on Reg.HDG_SRC_ACTIVE [i] = false ∧
      (s.on Reg.HDG_SRC_PENDING [i] = true → t.on Reg.HDG_SRC_PENDING [i] = true) ∧
      (s.rd Reg.HDG_SRC_SENSE [i] = 0 → s.on Reg.HDG_SRC_LEVEL [i] = true → t.on Reg.HDG_SRC_PENDING [i] = true) ∧
      (s.rd Reg.HDG_SRC_SENSE [i] = 1 → s.on Reg.HDG_SRC_LEVEL [i] = false → t.on Reg.HDG_SRC_PENDING [i] = true)) ∧
    (∀ src, s.mayWrite src = true → srcKind i = .reserved →
      exec (.force src i) s = .next s ∧ exec (.pendingClear src i) s = .next s) ∧
    (∀ src, s.mayWrite src = true → srcKind i ≠ .reserved →
      (∃ t, exec (.force src i) s = .next t ∧ Quiet s t ∧ t.rd Reg.HDG_SRC_DATA [i] = 0 ∧
        t.on Reg.HDG_SRC_PENDING [i] = true ∧ t.on Reg.HDG_SRC_ACTIVE [i] = s.on Reg.HDG_SRC_ACTIVE [i] ∧
        ∀ k : Nat, k < 1023 → k ≠ i → t.on Reg.HDG_SRC_PENDING [k] = s.on Reg.HDG_SRC_PENDING [k]) ∧
      ∃ t, exec (.pendingClear src i) s = .next t ∧ Quiet s t ∧ t.on Reg.HDG_SRC_PENDING [i] = false ∧
        t.on Reg.HDG_SRC_ACTIVE [i] = s.on Reg.HDG_SRC_ACTIVE [i] ∧ t.outs = s.outs ∧
        ∀ k : Nat, k < 1023 → k ≠ i → t.on Reg.HDG_SRC_PENDING [k] = s.on Reg.HDG_SRC_PENDING [k])

/-- A claim with an eligible source returns the offered one, which has the lowest PRIO and among those the lowest ID,
clears its pending bit and sets its active bit; pending of a level-high source then stays 0 until completion. With
none eligible it returns 1023, counted, when the interrupt input was asserted after the last claim, and else 0, and
nothing else changes. A request whose pending bit falls before the claim (its level falls, PENDING is cleared) or
whose BEN is 0 is not eligible, so a claim that finds only such requests returns 1023. A completion of an active
source clears its bit and a new decision is made; one of a source that is not active, of 0, 1023 or a reserved ID is
ignored and counted. Two completions commute. Eligibility needs a group below that of every active source. (R557,
R558.) -/
def Obligations.ClaimsAndCompletions : Prop :=
  ∀ (s : State) (src : Src) (b : Nat → Out), s.memWf = true → s.on Reg.HDG_SRC_PENDING [0] = false → s.mayWrite src = true →
    (∀ o, b o = (match src with | .bench => .benchRead o | .host f => .completion f (leBytes 4 o) false)) →
    (∀ k : Nat, s.eligible k = true ↔ s.on Reg.HDG_SRC_BEN [k] = true ∧ s.on Reg.HDG_SRC_PENDING [k] = true ∧
      s.on Reg.HDG_SRC_ACTIVE [k] = false ∧
      ∀ a, a ∈ s.srcsWith Reg.HDG_SRC_ACTIVE → s.srcGroup k < s.srcGroup a) ∧
    ((∃ k : Nat, 1 ≤ k ∧ k < 1023 ∧ s.eligible k = true) → ∃ t o, exec (.benchClaim src) s = .next t ∧
      1 ≤ o ∧ o < 1023 ∧ s.eligible o = true ∧
      (∀ k : Nat, k < 1023 → s.eligible k = true → s.rd Reg.HDG_SRC_PRIO [o] < s.rd Reg.HDG_SRC_PRIO [k] ∨
        (s.rd Reg.HDG_SRC_PRIO [o] = s.rd Reg.HDG_SRC_PRIO [k] ∧ o ≤ k)) ∧
      t.outs = b o :: s.outs ∧ t.on Reg.HDG_SRC_PENDING [o] = false ∧ t.on Reg.HDG_SRC_ACTIVE [o] = true ∧ Quiet s t ∧
      (∀ k : Nat, k < 1023 → k ≠ o → t.on Reg.HDG_SRC_PENDING [k] = s.on Reg.HDG_SRC_PENDING [k] ∧
        t.on Reg.HDG_SRC_ACTIVE [k] = s.on Reg.HDG_SRC_ACTIVE [k]) ∧
      (∀ (j : Fin 1023) (level : Bool) (d : Nat) (u : State), j = o → srcKind o = .level → s.rd Reg.HDG_SRC_SENSE [o] < 2 →
        exec (.sourceRequest j level d) t = .next u → u.on Reg.HDG_SRC_PENDING [o] = false)) ∧
    ((∀ k : Nat, k < 1023 → s.eligible k = false) →
      (s.hedge.irqSeen = true → ∃ t, exec (.benchClaim src) s = .next t ∧ t.outs = b 1023 :: s.outs ∧
        t.rd Reg.HDG_SPURIOUS_COUNT [] = satAdd 16 (s.rd Reg.HDG_SPURIOUS_COUNT []) 1 ∧ t.hedge.irqSeen = false ∧
        t.hedge.wins = s.hedge.wins ∧
        OnlyRegs { s with outs := t.outs, hedge := t.hedge } t [Reg.HDG_SPURIOUS_COUNT.key []]) ∧
      (s.hedge.irqSeen = false → exec (.benchClaim src) s = .next (s.emit (b 0)))) ∧
    (∀ (i : Fin 1023) (d : Nat), (∀ k : Nat, k < 1023 → k ≠ i → s.eligible k = false) → s.hedge.irqSeen = true →
      (srcKind i ≠ .reserved → ∃ u t, exec (.pendingClear .bench i) s = .next u ∧
        exec (.benchClaim .bench) u = .next t ∧ t.outs = .benchRead 1023 :: u.outs) ∧
      (srcKind i = .level → s.rd Reg.HDG_SRC_SENSE [i] = 0 → s.on Reg.HDG_SRC_ACTIVE [i] = false →
        s.on Reg.HDG_SRC_LEVEL [i] = true → ∃ u t, exec (.sourceRequest i false d) s = .next u ∧
          exec (.benchClaim .bench) u = .next t ∧ t.outs = .benchRead 1023 :: u.outs) ∧
      (s.on Reg.HDG_SRC_BEN [i] = false → ∃ t, exec (.benchClaim .bench) s = .next t ∧
        t.outs = .benchRead 1023 :: s.outs)) ∧
    (∀ x : Nat,
      ((x % 1024 = 0 ∨ x % 1024 = 1023 ∨ srcKind (x % 1024) = .reserved ∨ s.on Reg.HDG_SRC_ACTIVE [x % 1024] = false) →
        ∃ t, exec (.benchComplete src x) s = .next t ∧
          t.rd Reg.HDG_SPURIOUS_BAD_COMPLETE [] = satAdd 16 (s.rd Reg.HDG_SPURIOUS_BAD_COMPLETE []) 1 ∧
          OnlyRegs s t [Reg.HDG_SPURIOUS_BAD_COMPLETE.key []]) ∧
      (1 ≤ x → x < 1023 → srcKind x ≠ .reserved → s.on Reg.HDG_SRC_ACTIVE [x] = true →
        ∃ t, exec (.benchComplete src x) s = .next t ∧ t.on Reg.HDG_SRC_ACTIVE [x] = false ∧ Quiet s t ∧
          t.rd Reg.HDG_STAT_OFFER [] = t.offer % 1024 ∧ t.on Reg.HDG_STAT_IRQ [] = (t.offer != 0) ∧
          (∀ k : Nat, k < 1023 → k ≠ x → t.on Reg.HDG_SRC_ACTIVE [k] = s.on Reg.HDG_SRC_ACTIVE [k] ∧
            t.on Reg.HDG_SRC_PENDING [k] = s.on Reg.HDG_SRC_PENDING [k]) ∧
          ∀ y : Nat, y < 1023 → y ≠ x → srcKind y ≠ .reserved → s.on Reg.HDG_SRC_ACTIVE [y] = true →
            ∃ u v w, exec (.benchComplete src y) t = .next u ∧ exec (.benchComplete src y) s = .next v ∧
              exec (.benchComplete src x) v = .next w ∧ ∀ k : Nat, k < 1023 →
                u.on Reg.HDG_SRC_ACTIVE [k] = w.on Reg.HDG_SRC_ACTIVE [k] ∧
                u.on Reg.HDG_SRC_PENDING [k] = w.on Reg.HDG_SRC_PENDING [k]))

/-- When a window is not open or its time has not passed, its expiry changes nothing. Otherwise the window closes; an
unmasked vector's message is sent and counted, a masked one's pending bit is set and no pending bit is lost; the event
queues and their entries stand. A request of an event source with a host copy posts its entry in a queue that is
enabled and not full, with the source, DATA and time, whatever the masks, windows and pending bits are. A request on a
masked vector whose window's count it fills closes the window as well. (R564.) -/
def Obligations.MessagesAndEntries : Prop :=
  ∀ s : State,
    (∀ (f : Fin 16) (v : Fin 128),
      (FMap.find s.hedge.wins (f * 128 + v) = none → exec (.coalesceWindowExpiry f v) s = .next s) ∧
      (∀ w, FMap.find s.hedge.wins (f * 128 + v) = some w →
        (s.now < w.opened + 25 * w.timeUs → exec (.coalesceWindowExpiry f v) s = .next s) ∧
        (w.opened + 25 * w.timeUs ≤ s.now → ∃ t, exec (.coalesceWindowExpiry f v) s = .next t ∧
          FMap.find t.hedge.wins (f * 128 + v) = none ∧ t.rd Reg.HDG_VSTAT_COUNT [f, v] = 0 ∧
          t.on Reg.HDG_VSTAT_OPEN [f, v] = false ∧
          (∀ k, k ≠ f * 128 + v.val → FMap.find t.hedge.wins k = FMap.find s.hedge.wins k) ∧
          ((s.msixEntry f v).masked = true → (f * 128 + v.val) ∈ t.mbx.msixPend ∧
            (∀ k, k ∈ s.mbx.msixPend → k ∈ t.mbx.msixPend) ∧ t.outs = s.outs) ∧
          ((s.msixEntry f v).masked = false → t.mbx = s.mbx ∧
            t.outs = .msix f v (s.msixEntry f v).addr (s.msixEntry f v).data :: s.outs ∧
            t.rd Reg.HDG_VSTAT_MSGS [f, v] = (s.rd Reg.HDG_VSTAT_MSGS [f, v] + 1) % 65536) ∧
          t.mbx.evq = s.mbx.evq ∧ t.mbx.lostSince = s.mbx.lostSince ∧ t.hedge.irqSeen = s.hedge.irqSeen ∧
          OnlyRegs { s with outs := t.outs, hedge := t.hedge, mbx := t.mbx } t
            [Reg.HDG_VSTAT_COUNT.key [f, v], Reg.HDG_VSTAT_OPEN.key [f, v], Reg.HDG_VSTAT_MSGS.key [f, v]]))) ∧
    (∀ (i : Fin 1023) (level : Bool) (d f : Nat), srcKind i = .event → s.on Reg.HDG_SRC_HEN [i] = true →
      s.rd Reg.HDG_SRC_FUNC [i] = f → s.on Reg.MBX_EVQ_CTL_ENABLE [f] = true → s.evqDepth f < 256 →
      FMap.get s.mbx.lostSince 0 f = 0 → ∃ t e, exec (.sourceRequest i level d) s = .next t ∧
        t.rd Reg.MBX_EVQ_PI_PI [f] = (s.rd Reg.MBX_EVQ_PI_PI [f] + 1) % 65536 ∧
        t.rd Reg.MBX_EVQ_LOST_COUNT [f] = s.rd Reg.MBX_EVQ_LOST_COUNT [f] ∧
        FMap.find t.mbx.evq (f * 256 + s.rd Reg.MBX_EVQ_PI_PI [f] % 256) = some e ∧
        e % 2 ^ 16 = (s.rd Reg.MBX_EVQ_PI_PI [f] + 1) % 65536 ∧ e / 2 ^ 16 % 2 ^ 10 = i ∧ e / 2 ^ 32 % 2 ^ 32 = d % 2 ^ 32 ∧
        e / 2 ^ 64 = s.now ∧
        (∀ k, k ≠ f * 256 + s.rd Reg.MBX_EVQ_PI_PI [f] % 256 → FMap.find t.mbx.evq k = FMap.find s.mbx.evq k) ∧
        (∀ v w, s.rd Reg.HDG_SRC_VECTOR [i] = v → 8 ≤ v → (s.msixEntry f v).masked = true →
          FMap.find s.hedge.wins (f * 128 + v) = some w → s.rd Reg.HDG_VSTAT_COUNT [f, v] + 1 = w.count →
          FMap.find t.hedge.wins (f * 128 + v) = none ∧ (f * 128 + v) ∈ t.mbx.msixPend))

/-- ERASE and PROGRAM queue an operation behind those of its bank and change no byte; from the host a range outside the
model region fails with PROTECTED. A completed sector erase leaves that sector's bytes 0xFF and counts its wear; of
several sectors the next follows, and after the last DONE is set; a sector at its limit fails with WORN and stands. A
segment is programmed only when it reads all 0xFF: it then reads the data and no other byte changes; one not blank
fails with NOT_BLANK and stands, one that does not verify fails with VERIFY. A range that a running list reads waits.
Out of recovery the RCV commands change nothing; in it a wrong PEC is not acknowledged, RCV_BEGIN queues the block's
erase, RCV_DATA programs 128 blank bytes or shows invalid, RCV_COMMIT of a valid image writes the trial record. (R78,
R567, R570, R571, R572, R574, R585, R588.) -/
def Obligations.FlashControllerAndRecovery : Prop :=
  ∀ s : State,
    (∀ (src : Src) (a n : Nat), s.mayWrite src = true → a = s.rd Reg.FLC_ERASE_ADDR_SECTOR [] →
      n = s.rd Reg.FLC_ERASE_COUNT_SECTORS [] →
      (s.on Reg.PWR_STAT_CUT [] = true → exec (.flcCtlErase src) s = .next s) ∧
      (s.on Reg.PWR_STAT_CUT [] = false → src ≠ .bench → modelSectors a n = false →
        ∃ t, exec (.flcCtlErase src) s = .next t ∧ FlashFails s t 4 (4096 * a) ∧ t.flash = s.flash) ∧
      (s.on Reg.PWR_STAT_CUT [] = false → (src = .bench ∨ modelSectors a n = true) →
        (a < 1024 → ∃ t, exec (.flcCtlErase src) s = .next t ∧
          t.flash = { s.flash with bank0 := s.flash.bank0 ++ [.erase .register a n] } ∧
          t.on Reg.FLC_STAT_BUSY0 [] = true ∧ OnlyRegs { s with flash := t.flash } t [Reg.FLC_STAT_BUSY0.key []]) ∧
        (1024 ≤ a → ∃ t, exec (.flcCtlErase src) s = .next t ∧
          t.flash = { s.flash with bank1 := s.flash.bank1 ++ [.erase .register a n] } ∧
          t.on Reg.FLC_STAT_BUSY1 [] = true ∧ OnlyRegs { s with flash := t.flash } t [Reg.FLC_STAT_BUSY1.key []]))) ∧
    (∀ (src : Src) (a n : Nat), s.mayWrite src = true → a = s.rd Reg.FLC_PROG_ADDR_SEG [] →
      n = min (s.rd Reg.FLC_PROG_LEN_LEN1 [] + 1) (64 - a % 64) →
      (s.on Reg.PWR_STAT_CUT [] = true → exec (.flcCtlProgram src) s = .next s) ∧
      (s.on Reg.PWR_STAT_CUT [] = false → src ≠ .bench → modelSectors (a / 64) 1 = false →
        ∃ t, exec (.flcCtlProgram src) s = .next t ∧ FlashFails s t 4 (64 * a) ∧ t.flash = s.flash) ∧
      (s.on Reg.PWR_STAT_CUT [] = false → (src = .bench ∨ modelSectors (a / 64) 1 = true) →
        ∃ t l, exec (.flcCtlProgram src) s = .next t ∧ l.length = n ∧
          (∀ k, k < n → l[k]? = some (s.sramRead (s.rd Reg.FLC_PROG_SRC_SRC [] + 64 * k) 64)) ∧
          t.flash = (if a < 65536 then { s.flash with bank0 := s.flash.bank0 ++ [.program .register (64 * a) l] }
            else { s.flash with bank1 := s.flash.bank1 ++ [.program .register (64 * a) l] }) ∧
          OnlyRegs { s with flash := t.flash } t [Reg.FLC_STAT_BUSY0.key [], Reg.FLC_STAT_BUSY1.key []])) ∧
    (∀ b : Fin 2,
      ((∀ o a n r, s.bank b ≠ .erase o a n :: r) → exec (.sectorEraseComplete b) s = .next s) ∧
      (∀ o a n r, s.bank b = .erase o a n :: r →
        (s.cmeHolds (4096 * a) 4096 = true → exec (.sectorEraseComplete b) s = .next s) ∧
        (s.cmeHolds (4096 * a) 4096 = false → 100000 ≤ s.wear a → o = .register → ∃ t,
          exec (.sectorEraseComplete b) s = .next t ∧ FlashFails s t 3 (4096 * a) ∧ ∀ x, x ∈ t.bank b → x ∈ r) ∧
        (s.cmeHolds (4096 * a) 4096 = false → s.wear a < 100000 → (1 < n ∨ o = .register ∨ o = .rcv) → ∃ t,
          exec (.sectorEraseComplete b) s = .next t ∧ t.wear a = s.wear a + 1 ∧
          (∀ k, k ≠ a → t.wear k = s.wear k) ∧ (∀ x, x / 4096 = a → t.flashByte x = 0xFF) ∧
          (∀ x, x / 4096 ≠ a → t.flashByte x = s.flashByte x) ∧
          (1 < n → t.bank b = .erase o (a + 1) (n - 1) :: r ∧ t.regs = s.regs) ∧
          (n ≤ 1 → t.bank b = r ∧ t.on Reg.FLC_STAT_DONE [] = true ∧ (r = [] →
            t.on (if b = 0 then Reg.FLC_STAT_BUSY0 else Reg.FLC_STAT_BUSY1) [] = false) ∧
            (o = .rcv →
              s.flash.bank0.length + s.flash.bank1.length = 1 → t.flash.rcvPhase = 2)) ∧ t.hbm = s.hbm))) ∧
    (∀ (b : Fin 2) (v : Bool),
      ((∀ o a d l r, s.bank b ≠ .program o a (d :: l) :: r) → exec (.segmentProgramComplete b v) s = .next s) ∧
      (∀ o a d l r, s.bank b = .program o a (d :: l) :: r → a % 64 = 0 →
        (s.cmeHolds a 64 = true → exec (.segmentProgramComplete b v) s = .next s) ∧
        (s.cmeHolds a 64 = false → o = .register →
          (s.blank a = false → ∃ t, exec (.segmentProgramComplete b v) s = .next t ∧ FlashFails s t 1 a ∧
            ∀ x, x ∈ t.bank b → x ∈ r) ∧
          (s.blank a = true → v = false → ∃ t, exec (.segmentProgramComplete b v) s = .next t ∧
            t.on Reg.FLC_STAT_FAIL [] = true ∧ t.rd Reg.FLC_STAT_CAUSE [] = 2 ∧
            t.rd Reg.FLC_FAILADDR_ADDR [] = a % 2 ^ 23 ∧ (∀ x, x ∈ t.bank b → x ∈ r) ∧
            ∀ x, x / 64 ≠ a / 64 → t.flashByte x = s.flashByte x) ∧
          (s.blank a = true → v = true → ∃ t, exec (.segmentProgramComplete b v) s = .next t ∧
            (∀ k, k < 64 → t.flashByte (a + k) = d.getD k 0) ∧ (∀ x, x / 64 ≠ a / 64 → t.flashByte x = s.flashByte x) ∧
            (l ≠ [] → t.bank b = .program o (a + 64) l :: r ∧ t.regs = s.regs) ∧
            (l = [] → t.bank b = r ∧ t.on Reg.FLC_STAT_DONE [] = true))))) ∧
    (∀ (l : List Byte) (img : ImageCheck),
      (s.rd Reg.TOP_BOOTSTAT_STATE [] ≠ 3 → ∀ p, exec (.rcvStatus p) s = .next s ∧ exec (.rcvBegin l p) s = .next s ∧
        exec (.rcvData l p) s = .next s ∧ exec (.rcvCommit l p img) s = .next s) ∧
      (s.rd Reg.TOP_BOOTSTAT_STATE [] = 3 →
        (exec (.rcvStatus false) s = .next (s.emit (.nack 0)) ∧ exec (.rcvBegin l false) s = .next (s.emit (.nack 0)) ∧
          exec (.rcvData l false) s = .next (s.emit (.nack 0)) ∧
          exec (.rcvCommit l false img) s = .next (s.emit (.nack 0))) ∧
        (∃ b, exec (.rcvStatus true) s = .next (s.emit (.smbus 0 b)) ∧ b.length = 8 ∧
          fieldAt b 0 1 = s.flash.rcvPhase % 256 ∧ fieldAt b 1 1 = s.flash.rcvBlock % 256 ∧
          fieldAt b 2 1 = s.flash.rcvReason % 256 ∧ fieldAt b 4 4 = 128 * s.flash.rcvSeen.length % 2 ^ 32) ∧
        (∀ x : Byte, l = [x] → x.toNat ≤ 1 → ∃ t, exec (.rcvBegin l true) s = .next t ∧ t.flash.rcvPhase = 1 ∧
          t.flash.rcvBlock = x.toNat ∧ t.flash.rcvSeen = [] ∧ t.flash.bytes = s.flash.bytes ∧
          t.bank x.toNat = s.bank x.toNat ++ [.erase .rcv (1024 * x.toNat) 64]) ∧
        (∀ o a, l.length = 132 → s.flash.rcvPhase = 2 → o = fieldAt l 0 4 → a = blockAddr s.flash.rcvBlock + o →
          ((o % 128 ≠ 0 ∨ 0x40000 ≤ o ∨ o ∈ s.flash.rcvSeen) →
            exec (.rcvData l true) s = .next { s with flash := { s.flash with rcvPhase := 4 } }) ∧
          (o % 128 = 0 → o < 0x40000 → o ∉ s.flash.rcvSeen → s.blank a = true → s.blank (a + 64) = true →
            ∃ t, exec (.rcvData l true) s = .next t ∧ (∀ k, k < 128 → t.flashByte (a + k) = l.getD (4 + k) 0) ∧
              (∀ x, (x < a ∨ a + 128 ≤ x) → t.flashByte x = s.flashByte x) ∧
              t.flash.rcvSeen = o :: s.flash.rcvSeen ∧ t.flash.rcvPhase = 2 ∧ t.regs = s.regs)) ∧
        (l = [0] → s.flash.rcvPhase = 2 →
          (img.reason ≠ 0 → exec (.rcvCommit l true img) s =
            .next { s with flash := { s.flash with rcvPhase := 4, rcvReason := img.reason } }) ∧
          (img.reason = 0 → s.swapSlot = none →
            exec (.rcvCommit l true img) s = .next { s with flash := { s.flash with rcvPhase := 4 } }) ∧
          (∀ i, img.reason = 0 → s.swapSlot = some i → ∃ t q, exec (.rcvCommit l true img) s = .next t ∧
            t.flash.rcvPhase = 3 ∧ t.regs = s.regs ∧ t.flashRead (0x40000 + 64 * i) 64 =
              swapBytes ⟨q, s.flash.rcvBlock, true, 0, 2, img.version, s.boot.bootCount⟩))))

/-- A control message requests its port's source. While firmware does not run nothing else happens. While it runs, Set
Endpoint ID stores a valid ID of its port and no other, and answers it; Get Endpoint ID answers the port's ID, 0 until
one is set; Get MCTP Version Support answers base version 1.3 for the base protocol and types 0x00 and 0x7F; Get
Message Type Support answers 0x00 and 0x7F; Get Vendor Defined Message Support answers the enterprise number; any
other control command is answered ERROR_UNSUPPORTED_CMD. (The codes of DSP0236 are presumed, as the model's log says.)
(R614.) -/
def Obligations.MctpControlMessages : Prop :=
  ∀ (s : State) (p : Fin 2) (x : Nat),
    (s.fwRuns = false → ∀ c, mctpControl p x c → ∃ w, exec c s = .next w ∧ Arrives s w p) ∧
    (s.fwRuns = true →
      (∀ e, e = x % 256 → (e = 0 ∨ e = 255) → ∃ w t, exec (.setEndpointId p x) s = .next t ∧ Arrives s w p ∧
        Replies w t p 2 []) ∧
      (∀ e, e = x % 256 → e ≠ 0 → e ≠ 255 → ∃ w t b, exec (.setEndpointId p x) s = .next t ∧ Arrives s w p ∧
        Replies { w with cloche := t.cloche } t p 0 b ∧ fieldAt b 0 1 = 0 ∧ fieldAt b 1 1 = e ∧ t.eid p = e ∧
        (∀ q : Fin 2, q ≠ p → t.eid q = s.eid q) ∧
        { t.cloche with eids := [] } = { s.cloche with eids := [] }) ∧
      (∃ w t b, exec (.getEndpointId p) s = .next t ∧ Arrives s w p ∧ Replies w t p 0 b ∧
        fieldAt b 0 1 = s.eid p % 256) ∧
      (∃ w t b, exec (.getEndpointUuid p) s = .next t ∧ Arrives s w p ∧ Replies w t p 0 b ∧ b.length = 16) ∧
      ((x = 0xFF ∨ x = 0 ∨ x = 0x7F) → ∃ w t, exec (.getMctpVersionSupport p x) s = .next t ∧ Arrives s w p ∧
        Replies w t p 0 [1, 0xF1, 0xF3, 0xF0, 0]) ∧
      (x ≠ 0xFF → x ≠ 0 → x ≠ 0x7F → ∃ w t, exec (.getMctpVersionSupport p x) s = .next t ∧ Arrives s w p ∧
        Replies w t p 0x80 []) ∧
      (∃ w t, exec (.getMessageTypeSupport p) s = .next t ∧ Arrives s w p ∧ Replies w t p 0 [2, 0, 0x7F]) ∧
      (x = 0 → ∃ w t b, exec (.getVendorDefinedMessageSupport p x) s = .next t ∧ Arrives s w p ∧ Replies w t p 0 b ∧
        fieldAt b 0 1 = 0xFF ∧ fieldAt b.reverse 2 4 = Config.enterpriseNumber.toNat) ∧
      (x ≠ 0 → ∃ w t, exec (.getVendorDefinedMessageSupport p x) s = .next t ∧ Arrives s w p ∧ Replies w t p 2 []) ∧
      ∃ w t, exec (.mctpUnsupportedCmd p x) s = .next t ∧ Arrives s w p ∧ Replies w t p 5 [])

/-- A vendor-defined message requests its port's source; while firmware does not run nothing else happens, and one that
the die's role does not serve is answered WRONG_ROLE. GET_POWER and GET_ENERGY answer the bodies of their commands.
SET_TARIFF checks and stages the schedule; SET_CAP sets PWR_BMC_CAP, 0 or more than the budget being the budget;
SET_TIME sets the RTC. READ_LOG answers the records of a log. MODEL_WRITE and MODEL_ERASE within the model region
queue their operations and answer later; outside it they are answered FLASH_PROTECTED. READ_RESULT answers the area
and releases SMB_ALERT_N. FW_WRITE queues a piece of the inactive block; FW_ACTIVATE answers its check or writes the
trial record; RESTART answers and restarts the island. None changes HBM, plots or jobs. (R544, R585, R586, R587, R604,
R615.) -/
def Obligations.MctpVendorMessages : Prop :=
  ∀ (s : State) (p : Fin 2) (x y z : Nat) (l : List Byte) (img : ImageCheck) (ecc : FlashEcc),
    (s.fwRuns = false → ∀ c, mctpFabric p x y l c ∨ mctpDormant p x l img c ∨ mctpCommon p x y z l ecc c → ∃ w, exec c s = .next w ∧ Arrives s w p) ∧
    (s.fwRuns = true → s.role = 2 → ∀ c, mctpFabric p x y l c → ∃ w t, exec c s = .next t ∧ Arrives s w p ∧
      Replies w t p Status.wrongRole.code (failBody 0 0 0)) ∧
    (s.fwRuns = true → s.role ≠ 2 → ∀ c, mctpDormant p x l img c → ∃ w t, exec c s = .next t ∧ Arrives s w p ∧
      Replies w t p Status.wrongRole.code (failBody 0 0 0)) ∧
    (s.fwRuns = true → s.role ≠ 2 →
      (∃ w t b, exec (.getPower p) s = .next t ∧ Arrives s w p ∧ Replies w t p 0 b ∧ b.length = 32 ∧
        fieldAt b 0 1 = s.rd Reg.TOP_PINSTAT_VID [] ∧ fieldAt b 2 2 = s.capNow ∧
        fieldAt b 16 8 = s.rd Reg.PWR_IV_OPEN_TB_TB []) ∧
      (15 < x → ∃ w t, exec (.getEnergy p x y) s = .next t ∧ Arrives s w p ∧
        Replies w t p Status.badParam.code (failBody 8 0 x)) ∧
      (x ≤ 15 → s.pwrEnergy x y = none → ∃ w t, exec (.getEnergy p x y) s = .next t ∧ Arrives s w p ∧
        Replies w t p Status.badParam.code (failBody 12 0 y)) ∧
      (∀ b, x ≤ 15 → s.pwrEnergy x y = some b → ∃ w t, exec (.getEnergy p x y) s = .next t ∧ Arrives s w p ∧
        Replies w t p 0 b) ∧
      (∀ o, tariffBadField l = some o → ∃ w t, exec (.setTariff p x l) s = .next t ∧ Arrives s w p ∧
        Replies w t p Status.tariffInvalid.code (failBody 8 0 o)) ∧
      (∀ k, tariffBadField l = none → tariffBadBand l = some k → ∃ w t, exec (.setTariff p x l) s = .next t ∧
        Arrives s w p ∧ Replies w t p Status.configMismatch.code (failBody 8 0 k)) ∧
      (tariffBadField l = none → tariffBadBand l = none → ∃ t o, exec (.setTariff p x l) s = .next t ∧
        t.on (cPending .tariff) [] = true ∧ (∀ k, k < 4 → t.rd Reg.PWR_SCHED_HDR_WORD [k] = fieldAt l (4 * k) 4) ∧
        t.gov.pendingSource = 1 ∧ t.outs = .mctp p 0 (leBytes 8 t.nextInterval) :: o ∧
        (bitOf x 0 = false → t.flash = s.flash) ∧ t.hbm = s.hbm ∧ t.plots = s.plots ∧ t.jobs = s.jobs) ∧
      (∀ c, c = (if x % 65536 = 0 ∨ s.rd Reg.PWR_BUDGET_BUDGET_W [] < x % 65536 then s.rd Reg.PWR_BUDGET_BUDGET_W []
          else x % 65536) → ∃ t o, exec (.setCap p x) s = .next t ∧ t.rd Reg.PWR_BMC_CAP_CAP_W [] = c ∧
        t.outs = .mctp p 0 (leBytes 4 c) :: o ∧ t.flash = s.flash ∧ t.hbm = s.hbm ∧ t.plots = s.plots ∧ t.jobs = s.jobs)) ∧
    (s.fwRuns = true → s.role = 2 →
      (15 < x → ∃ w t, exec (.readResult p x) s = .next t ∧ Arrives s w p ∧
        Replies w t p Status.badParam.code (failBody 8 0 x)) ∧
      (∀ q d, x ≤ 15 → FMap.get s.cloche.areas (0, []) x = (q, d) → ∃ w t, exec (.readResult p x) s = .next t ∧
        Arrives s w p ∧ Replies { w with cloche := t.cloche } t p 0 (leBytes 1 q ++ d) ∧
        t.cloche = { s.cloche with alert := false }) ∧
      ((x % 512 ≠ 0 ∨ 0x40000 ≤ x) → ∃ w t, exec (.mctpFwWrite p x l) s = .next t ∧ Arrives s w p ∧
        Replies w t p Status.badParam.code (failBody 8 0 x)) ∧
      (x % 512 = 0 → x < 0x40000 → l.length = 512 → s.fwBusy = false → ∃ t, exec (.mctpFwWrite p x l) s = .next t ∧
        t.flash.bytes = s.flash.bytes ∧ (∀ q, q ∈ t.outs → q ∈ s.outs ∨ ∃ f v a d, q = .msix f v a d) ∧
        t.flash.bank0.length + t.flash.bank1.length =
          s.flash.bank0.length + s.flash.bank1.length + (if x % 4096 = 0 then 2 else 1) ∧
        t.hbm = s.hbm ∧ t.plots = s.plots ∧ t.jobs = s.jobs) ∧
      (∀ e, s.activateBad img = some e → ∃ w t, exec (.mctpFwActivate p img) s = .next t ∧ Arrives s w p ∧
        Replies w t p e.1.code (failBody 0xFFFF e.2 0)) ∧
      (∀ i, s.activateBad img = none → s.swapSlot = some i → ∃ t o q, exec (.mctpFwActivate p img) s = .next t ∧
        t.outs = .mctp p 0 [] :: o ∧ t.flashRead (0x40000 + 64 * i) 64 =
          swapBytes ⟨q, s.inactive, true, 0, 1, img.version, s.boot.bootCount⟩ ∧
        t.hbm = s.hbm ∧ t.plots = s.plots ∧ t.jobs = s.jobs) ∧
      (∃ t o, exec (.restart p) s = .next t ∧ t.outs = .mctp p 0 [] :: o ∧ t.rd Reg.TOP_RSTCAUSE_ISLAND [] = 1 ∧
        t.rd Reg.TOP_BOOTSTAT_STATE [] = 0 ∧ t.rd Reg.CLO_WDT_EN [] = 0 ∧ t.boot.restarting = true ∧ t.hbm = s.hbm ∧
        t.plots = s.plots ∧ t.jobs = s.jobs)) ∧
    (s.fwRuns = true →
      (∃ t o, exec (.setTime p x) s = .next t ∧ t.rd Reg.CLO_RTC_SEC_SEC [] = x % 2 ^ 32 ∧
        t.outs = .mctp p 0 [] :: o ∧ t.flash = s.flash ∧ t.hbm = s.hbm ∧ t.plots = s.plots ∧ t.jobs = s.jobs) ∧
      (1 < x → ∃ w t, exec (.readLog p x y z ecc) s = .next t ∧ Arrives s w p ∧
        Replies w t p Status.badParam.code (failBody 8 0 x)) ∧
      (x ≤ 1 → (z = 0 ∨ 15 < z) → ∃ w t, exec (.readLog p x y z ecc) s = .next t ∧ Arrives s w p ∧
        Replies w t p Status.badParam.code (failBody 16 0 z)) ∧
      (x ≤ 1 → 1 ≤ z → z ≤ 15 → ecc.bad = none → ∃ t o b, exec (.readLog p x y z ecc) s = .next t ∧
        t.outs = .mctp p 0 b :: o ∧ b = leBytes 4 (s.logFrom x y z).length ++ leBytes 4 (s.logOldest x)
          ++ (s.logFrom x y z).flatten ∧ t.flash = s.flash ∧ t.hbm = s.hbm ∧ t.plots = s.plots ∧ t.jobs = s.jobs) ∧
      ((x % 256 ≠ 0 ∨ 0x800000 ≤ x) → ∃ w t, exec (.modelWrite p x l) s = .next t ∧ Arrives s w p ∧
        Replies w t p Status.badParam.code (failBody 8 0 x)) ∧
      (x % 256 = 0 → (l.length = 256 ∨ l.length = 512) → x + l.length ≤ 0x800000 →
        (x < 0x440000 → ∃ w t, exec (.modelWrite p x l) s = .next t ∧ Arrives s w p ∧
          Replies w t p Status.flashProtected.code (failBody 8 0 x)) ∧
        (0x440000 ≤ x → s.ownsOp (.mctp p) = true → ∃ w t, exec (.modelWrite p x l) s = .next t ∧ Arrives s w p ∧
          Replies w t p Status.busy.code (failBody 0xFFFF 0 0)) ∧
        (0x440000 ≤ x → s.ownsOp (.mctp p) = false → ∃ t ops, exec (.modelWrite p x l) s = .next t ∧
          t.flash = { s.flash with bank1 := s.flash.bank1 ++ ops } ∧ ops ≠ [] ∧
          t.on Reg.FLC_STAT_BUSY1 [] = true ∧ t.hbm = s.hbm ∧ t.plots = s.plots ∧ t.jobs = s.jobs)) ∧
      (2047 < x → ∃ w t, exec (.modelErase p x y) s = .next t ∧ Arrives s w p ∧
        Replies w t p Status.badParam.code (failBody 8 0 x)) ∧
      (1 ≤ y → x + y ≤ 2048 → x / 1024 = (x + y - 1) / 1024 →
        (modelSectors x y = false → ∃ w t, exec (.modelErase p x y) s = .next t ∧ Arrives s w p ∧
          Replies w t p Status.flashProtected.code (failBody 8 0 (4096 * x))) ∧
        (modelSectors x y = true → s.ownsOp (.mctp p) = false → ∃ t, exec (.modelErase p x y) s = .next t ∧
          t.flash = { s.flash with bank1 := s.flash.bank1 ++ [.erase (.mctp p) x y] } ∧
          t.on Reg.FLC_STAT_BUSY1 [] = true ∧ t.hbm = s.hbm ∧ t.plots = s.plots ∧ t.jobs = s.jobs)))

/-- From every state whose register file, HBM and flash are in canonical form (keys rising strictly; no HBM byte listed as
zero outside what a self-test left undefined; no flash byte listed as 0xFF), every step, of whatever command or of the
clock, answers a state in the same form. So equal memories are equal data. (R88, R224, R567.) -/
def Obligations.EveryStepKeepsMemoryCanonical : Prop :=
  ∀ s t : State, s.memWf = true → step s = .next t → t.memWf = true

/-- The state right after reset lists nothing in its register file, HBM and flash, so the invariant of the steps holds
there, and its queue is empty. (R51, R88, R100.) -/
def Obligations.ResetMemoryIsCanonical : Prop :=
  State.reset.memWf = true ∧ State.reset.pending = []
end

