-- ==== Sys2Proof/Laws/Map.lean ====
section
/-! SUPPORT. Laws of the sparse maps: reading after writing, and the canonical form that every write keeps. -/

namespace Sys2Proof.Machine

variable {α : Type}

theorem FMap.get_nil (d : α) (k : Nat) : FMap.get [] d k = d := rfl

theorem FMap.get_erase_self (m : FMap α) (d : α) (k : Nat) : FMap.get (FMap.erase m k) d k = d := by
  induction m with
  | nil => rfl
  | cons e r ih =>
    obtain ⟨k', v⟩ := e
    by_cases h : k' = k
    · simp only [FMap.erase, List.filter, h, bne_self_eq_false] at ih ⊢
      exact ih
    · have h2 : (k' != k) = true := by simpa using h
      simp only [FMap.erase, List.filter, h2, FMap.get, if_neg h] at ih ⊢
      exact ih

theorem FMap.get_erase_ne (m : FMap α) (d : α) {k j : Nat} (h : j ≠ k) :
    FMap.get (FMap.erase m k) d j = FMap.get m d j := by
  induction m with
  | nil => rfl
  | cons e r ih =>
    obtain ⟨k', v⟩ := e
    by_cases hk : k' = k
    · have hj : ¬ k' = j := fun c => h (by rw [← c, hk])
      simp only [FMap.erase, List.filter, hk, bne_self_eq_false] at ih ⊢
      rw [ih]
      simp only [FMap.get, if_neg (hk ▸ hj)]
    · have h2 : (k' != k) = true := by simpa using hk
      simp only [FMap.erase, List.filter, h2, FMap.get] at ih ⊢
      rw [ih]

theorem FMap.get_insertSorted_self (m : FMap α) (d : α) (k : Nat) (v : α) (h : ∀ e ∈ m, e.1 ≠ k) :
    FMap.get (FMap.insertSorted m k v) d k = v := by
  induction m with
  | nil => simp [FMap.insertSorted, FMap.get]
  | cons e r ih =>
    obtain ⟨k', v'⟩ := e
    have hk : ¬ k' = k := h (k', v') (by simp)
    by_cases hl : k < k'
    · simp [FMap.insertSorted, hl, FMap.get]
    · simp only [FMap.insertSorted, if_neg hl, FMap.get, if_neg hk]
      exact ih (fun e he => h e (by simp [he]))

theorem FMap.get_insertSorted_ne (m : FMap α) (d : α) (v : α) {k j : Nat} (h : j ≠ k) :
    FMap.get (FMap.insertSorted m k v) d j = FMap.get m d j := by
  have hkj : ¬ k = j := fun c => h c.symm
  induction m with
  | nil => simp [FMap.insertSorted, FMap.get, hkj]
  | cons e r ih =>
    obtain ⟨k', v'⟩ := e
    by_cases hl : k < k'
    · simp [FMap.insertSorted, hl, FMap.get, hkj]
    · simp only [FMap.insertSorted, if_neg hl, FMap.get, ih]

theorem FMap.mem_erase_ne (m : FMap α) (k : Nat) : ∀ e ∈ FMap.erase m k, e.1 ≠ k := by
  intro e he
  simpa using (List.mem_filter.mp he).2

theorem FMap.get_put_self (m : FMap α) (d : α) (k : Nat) (v : α) : FMap.get (FMap.put m k v) d k = v :=
  FMap.get_insertSorted_self _ _ _ _ (FMap.mem_erase_ne m k)

theorem FMap.get_put_ne (m : FMap α) (d : α) (v : α) {k j : Nat} (h : j ≠ k) :
    FMap.get (FMap.put m k v) d j = FMap.get m d j := by
  rw [FMap.put, FMap.get_insertSorted_ne _ _ _ h, FMap.get_erase_ne _ _ h]

/-- Read after write. -/
theorem FMap.get_set_self [DecidableEq α] (m : FMap α) (d : α) (k : Nat) (v : α) :
    FMap.get (FMap.set m d k v) d k = v := by
  unfold FMap.set
  split
  · rename_i h; rw [FMap.get_erase_self, h]
  · exact FMap.get_put_self _ _ _ _

/-- A write leaves every other key alone, whatever the default is read with. -/
theorem FMap.get_set_ne [DecidableEq α] (m : FMap α) (d d' : α) (v : α) {k j : Nat} (h : j ≠ k) :
    FMap.get (FMap.set m d' k v) d j = FMap.get m d j := by
  unfold FMap.set
  split
  · exact FMap.get_erase_ne _ _ h
  · exact FMap.get_put_ne _ _ _ h

theorem FMap.find_put_self (m : FMap α) (k : Nat) (v : α) : FMap.find (FMap.put m k v) k = some v := by
  have key : ∀ r : FMap α, (∀ e ∈ r, e.1 ≠ k) → FMap.find (FMap.insertSorted r k v) k = some v := by
    intro r
    induction r with
    | nil => simp [FMap.insertSorted, FMap.find]
    | cons e r ih =>
      intro h
      obtain ⟨k', v'⟩ := e
      have hk : ¬ k' = k := h (k', v') (by simp)
      by_cases hl : k < k'
      · simp [FMap.insertSorted, hl, FMap.find]
      · simp only [FMap.insertSorted, if_neg hl, FMap.find, if_neg hk]
        exact ih (fun e he => h e (by simp [he]))
  exact key _ (FMap.mem_erase_ne m k)

theorem FMap.find_erase_self (m : FMap α) (k : Nat) : FMap.find (FMap.erase m k) k = none := by
  induction m with
  | nil => rfl
  | cons e r ih =>
    obtain ⟨k', v⟩ := e
    by_cases h : k' = k
    · simp only [FMap.erase, List.filter, h, bne_self_eq_false] at ih ⊢
      exact ih
    · have h2 : (k' != k) = true := by simpa using h
      simp only [FMap.erase, List.filter, h2, FMap.find, if_neg h] at ih ⊢
      exact ih

theorem FMap.find_erase_ne (m : FMap α) {k j : Nat} (h : j ≠ k) : FMap.find (FMap.erase m k) j = FMap.find m j := by
  have hkj : ¬ k = j := fun c => h c.symm
  induction m with
  | nil => rfl
  | cons e r ih =>
    obtain ⟨k', v⟩ := e
    by_cases hk : k' = k
    · simp only [FMap.erase, List.filter, hk, bne_self_eq_false] at ih ⊢
      rw [ih]; simp only [FMap.find, if_neg hkj]
    · have h2 : (k' != k) = true := by simpa using hk
      simp only [FMap.erase, List.filter, h2, FMap.find] at ih ⊢
      rw [ih]

theorem FMap.find_put_ne (m : FMap α) (v : α) {k j : Nat} (h : j ≠ k) : FMap.find (FMap.put m k v) j = FMap.find m j := by
  have hkj : ¬ k = j := fun c => h c.symm
  have e2 : ∀ r : FMap α, FMap.find (FMap.insertSorted r k v) j = FMap.find r j := by
    intro r
    induction r with
    | nil => simp [FMap.insertSorted, FMap.find, hkj]
    | cons e r ih =>
      obtain ⟨k', v'⟩ := e
      by_cases hl : k < k'
      · simp [FMap.insertSorted, hl, FMap.find, hkj]
      · simp only [FMap.insertSorted, if_neg hl, FMap.find, ih]
  rw [FMap.put, e2, FMap.find_erase_ne m h]

theorem FMap.find_set_ne [DecidableEq α] (m : FMap α) (d v : α) {k j : Nat} (h : j ≠ k) :
    FMap.find (FMap.set m d k v) j = FMap.find m j := by
  unfold FMap.set
  split
  · exact FMap.find_erase_ne m h
  · exact FMap.find_put_ne m v h

/-! ### The canonical form -/

theorem FMap.rising_mono {m : FMap α} {a b : Nat} (hab : a ≤ b) (h : FMap.rising b m = true) :
    FMap.rising a m = true := by
  cases m with
  | nil => rfl
  | cons e r =>
    obtain ⟨k, v⟩ := e
    simp only [FMap.rising, Bool.and_eq_true, decide_eq_true_eq] at h ⊢
    exact ⟨by omega, h.2⟩

theorem FMap.rising_filter {m : FMap α} {a : Nat} (p : Nat × α → Bool) (h : FMap.rising a m = true) :
    FMap.rising a (m.filter p) = true := by
  induction m generalizing a with
  | nil => rfl
  | cons e r ih =>
    obtain ⟨k, v⟩ := e
    simp only [FMap.rising, Bool.and_eq_true, decide_eq_true_eq] at h
    by_cases hp : p (k, v) = true
    · simp only [List.filter, hp, FMap.rising, Bool.and_eq_true, decide_eq_true_eq]
      exact ⟨h.1, ih h.2⟩
    · simp only [List.filter, hp]
      exact FMap.rising_mono (by omega) (ih h.2)

theorem FMap.rising_erase {m : FMap α} {a : Nat} (k : Nat) (h : FMap.rising a m = true) :
    FMap.rising a (FMap.erase m k) = true := FMap.rising_filter _ h

theorem FMap.rising_dropWhere {m : FMap α} {a : Nat} (p : Nat → Bool) (h : FMap.rising a m = true) :
    FMap.rising a (FMap.dropWhere m p) = true := FMap.rising_filter _ h

theorem FMap.rising_insertSorted {m : FMap α} {a k : Nat} (v : α) (hak : a ≤ k) (hne : ∀ e ∈ m, e.1 ≠ k)
    (h : FMap.rising a m = true) : FMap.rising a (FMap.insertSorted m k v) = true := by
  induction m generalizing a with
  | nil => simp [FMap.insertSorted, FMap.rising, hak]
  | cons e r ih =>
    obtain ⟨k', v'⟩ := e
    have hk : k' ≠ k := hne (k', v') (by simp)
    simp only [FMap.rising, Bool.and_eq_true, decide_eq_true_eq] at h
    by_cases hl : k < k'
    · simp only [FMap.insertSorted, if_pos hl, FMap.rising, Bool.and_eq_true, decide_eq_true_eq]
      exact ⟨hak, by omega, h.2⟩
    · simp only [FMap.insertSorted, if_neg hl, FMap.rising, Bool.and_eq_true, decide_eq_true_eq]
      exact ⟨h.1, ih (by omega) (fun e he => hne e (by simp [he])) h.2⟩

theorem FMap.rising_put {m : FMap α} (k : Nat) (v : α) (h : FMap.rising 0 m = true) :
    FMap.rising 0 (FMap.put m k v) = true :=
  FMap.rising_insertSorted v (Nat.zero_le k) (FMap.mem_erase_ne m k) (FMap.rising_erase k h)

theorem FMap.rising_set [DecidableEq α] {m : FMap α} (d : α) (k : Nat) (v : α) (h : FMap.rising 0 m = true) :
    FMap.rising 0 (FMap.set m d k v) = true := by
  unfold FMap.set
  split
  · exact FMap.rising_erase k h
  · exact FMap.rising_put k v h

theorem FMap.mem_insertSorted {m : FMap α} {k : Nat} {v : α} {e : Nat × α} (h : e ∈ FMap.insertSorted m k v) :
    e = (k, v) ∨ e ∈ m := by
  induction m with
  | nil => simpa [FMap.insertSorted] using h
  | cons x r ih =>
    obtain ⟨k', v'⟩ := x
    by_cases hl : k < k'
    · simpa [FMap.insertSorted, hl] using h
    · simp only [FMap.insertSorted, if_neg hl, List.mem_cons] at h ⊢
      rcases h with h | h
      · exact Or.inr (Or.inl h)
      · rcases ih h with h | h
        · exact Or.inl h
        · exact Or.inr (Or.inr h)

theorem FMap.mem_put {m : FMap α} {k : Nat} {v : α} {e : Nat × α} (h : e ∈ FMap.put m k v) : e = (k, v) ∨ e ∈ m := by
  rcases FMap.mem_insertSorted h with h | h
  · exact Or.inl h
  · exact Or.inr (List.mem_of_mem_filter h)

/-- Every write keeps the canonical form. -/
theorem FMap.wf_set [DecidableEq α] {m : FMap α} (d : α) (k : Nat) (v : α) (h : FMap.wf m d = true) :
    FMap.wf (FMap.set m d k v) d = true := by
  simp only [FMap.wf, Bool.and_eq_true, List.all_eq_true, decide_eq_true_eq] at h ⊢
  refine ⟨FMap.rising_set d k v h.1, ?_⟩
  intro e he
  unfold FMap.set at he
  split at he
  · exact h.2 e (List.mem_of_mem_filter he)
  · rename_i hv
    rcases FMap.mem_put he with rfl | he
    · exact hv
    · exact h.2 e he

theorem FMap.wf_dropWhere [DecidableEq α] {m : FMap α} (d : α) (p : Nat → Bool) (h : FMap.wf m d = true) :
    FMap.wf (FMap.dropWhere m p) d = true := by
  simp only [FMap.wf, Bool.and_eq_true, List.all_eq_true, decide_eq_true_eq] at h ⊢
  exact ⟨FMap.rising_dropWhere p h.1, fun e he => h.2 e (List.mem_of_mem_filter he)⟩

end Sys2Proof.Machine
end

