-- ==== Sys2Proof/Laws/State.lean ====
section
/-! SUPPORT. What each basic update leaves alone: one lemma per field per update, true by rfl. -/

namespace Sys2Proof.Machine

variable (s : State)

/-! ### State.wr -/

@[simp] theorem wr_pending (f : Field) (i : List Nat) (v : Nat) : (s.wr f i v).pending = s.pending := rfl
@[simp] theorem wr_captured (f : Field) (i : List Nat) (v : Nat) : (s.wr f i v).captured = s.captured := rfl
@[simp] theorem wr_freeCtr (f : Field) (i : List Nat) (v : Nat) : (s.wr f i v).freeCtr = s.freeCtr := rfl
@[simp] theorem wr_outs (f : Field) (i : List Nat) (v : Nat) : (s.wr f i v).outs = s.outs := rfl
@[simp] theorem wr_mbx (f : Field) (i : List Nat) (v : Nat) : (s.wr f i v).mbx = s.mbx := rfl
@[simp] theorem wr_hedge (f : Field) (i : List Nat) (v : Nat) : (s.wr f i v).hedge = s.hedge := rfl
@[simp] theorem wr_link (f : Field) (i : List Nat) (v : Nat) : (s.wr f i v).link = s.link := rfl
@[simp] theorem wr_flash (f : Field) (i : List Nat) (v : Nat) : (s.wr f i v).flash = s.flash := rfl
@[simp] theorem wr_gov (f : Field) (i : List Nat) (v : Nat) : (s.wr f i v).gov = s.gov := rfl
@[simp] theorem wr_boot (f : Field) (i : List Nat) (v : Nat) : (s.wr f i v).boot = s.boot := rfl
@[simp] theorem wr_tenants (f : Field) (i : List Nat) (v : Nat) : (s.wr f i v).tenants = s.tenants := rfl
@[simp] theorem wr_cloche (f : Field) (i : List Nat) (v : Nat) : (s.wr f i v).cloche = s.cloche := rfl
@[simp] theorem wr_hbm (f : Field) (i : List Nat) (v : Nat) : (s.wr f i v).hbm = s.hbm := rfl
@[simp] theorem wr_hbmPoison (f : Field) (i : List Nat) (v : Nat) : (s.wr f i v).hbmPoison = s.hbmPoison := rfl
@[simp] theorem wr_hbmUndef (f : Field) (i : List Nat) (v : Nat) : (s.wr f i v).hbmUndef = s.hbmUndef := rfl
@[simp] theorem wr_storeGen (f : Field) (i : List Nat) (v : Nat) : (s.wr f i v).storeGen = s.storeGen := rfl
@[simp] theorem wr_plots (f : Field) (i : List Nat) (v : Nat) : (s.wr f i v).plots = s.plots := rfl
@[simp] theorem wr_flights (f : Field) (i : List Nat) (v : Nat) : (s.wr f i v).flights = s.flights := rfl
@[simp] theorem wr_qd (f : Field) (i : List Nat) (v : Nat) : (s.wr f i v).qd = s.qd := rfl
@[simp] theorem wr_jobs (f : Field) (i : List Nat) (v : Nat) : (s.wr f i v).jobs = s.jobs := rfl
@[simp] theorem wr_plotHold (f : Field) (i : List Nat) (v : Nat) : (s.wr f i v).plotHold = s.plotHold := rfl
@[simp] theorem wr_tbls (f : Field) (i : List Nat) (v : Nat) : (s.wr f i v).tbls = s.tbls := rfl
@[simp] theorem wr_shard (f : Field) (i : List Nat) (v : Nat) : (s.wr f i v).shard = s.shard := rfl
@[simp] theorem wr_sieves (f : Field) (i : List Nat) (v : Nat) : (s.wr f i v).sieves = s.sieves := rfl
@[simp] theorem wr_sieveLast (f : Field) (i : List Nat) (v : Nat) : (s.wr f i v).sieveLast = s.sieveLast := rfl
@[simp] theorem wr_rwc (f : Field) (i : List Nat) (v : Nat) : (s.wr f i v).rwc = s.rwc := rfl
@[simp] theorem wr_furrow (f : Field) (i : List Nat) (v : Nat) : (s.wr f i v).furrow = s.furrow := rfl
@[simp] theorem wr_upd (f : Field) (i : List Nat) (v : Nat) : (s.wr f i v).upd = s.upd := rfl
@[simp] theorem wr_fences (f : Field) (i : List Nat) (v : Nat) : (s.wr f i v).fences = s.fences := rfl
@[simp] theorem wr_memLogged (f : Field) (i : List Nat) (v : Nat) : (s.wr f i v).memLogged = s.memLogged := rfl
@[simp] theorem wr_graft (f : Field) (i : List Nat) (v : Nat) : (s.wr f i v).graft = s.graft := rfl

/-! ### State.wrb -/

@[simp] theorem wrb_pending (f : Field) (i : List Nat) (b : Bool) : (s.wrb f i b).pending = s.pending := rfl
@[simp] theorem wrb_captured (f : Field) (i : List Nat) (b : Bool) : (s.wrb f i b).captured = s.captured := rfl
@[simp] theorem wrb_freeCtr (f : Field) (i : List Nat) (b : Bool) : (s.wrb f i b).freeCtr = s.freeCtr := rfl
@[simp] theorem wrb_outs (f : Field) (i : List Nat) (b : Bool) : (s.wrb f i b).outs = s.outs := rfl
@[simp] theorem wrb_mbx (f : Field) (i : List Nat) (b : Bool) : (s.wrb f i b).mbx = s.mbx := rfl
@[simp] theorem wrb_hedge (f : Field) (i : List Nat) (b : Bool) : (s.wrb f i b).hedge = s.hedge := rfl
@[simp] theorem wrb_link (f : Field) (i : List Nat) (b : Bool) : (s.wrb f i b).link = s.link := rfl
@[simp] theorem wrb_flash (f : Field) (i : List Nat) (b : Bool) : (s.wrb f i b).flash = s.flash := rfl
@[simp] theorem wrb_gov (f : Field) (i : List Nat) (b : Bool) : (s.wrb f i b).gov = s.gov := rfl
@[simp] theorem wrb_boot (f : Field) (i : List Nat) (b : Bool) : (s.wrb f i b).boot = s.boot := rfl
@[simp] theorem wrb_tenants (f : Field) (i : List Nat) (b : Bool) : (s.wrb f i b).tenants = s.tenants := rfl
@[simp] theorem wrb_cloche (f : Field) (i : List Nat) (b : Bool) : (s.wrb f i b).cloche = s.cloche := rfl
@[simp] theorem wrb_hbm (f : Field) (i : List Nat) (b : Bool) : (s.wrb f i b).hbm = s.hbm := rfl
@[simp] theorem wrb_hbmPoison (f : Field) (i : List Nat) (b : Bool) : (s.wrb f i b).hbmPoison = s.hbmPoison := rfl
@[simp] theorem wrb_hbmUndef (f : Field) (i : List Nat) (b : Bool) : (s.wrb f i b).hbmUndef = s.hbmUndef := rfl
@[simp] theorem wrb_storeGen (f : Field) (i : List Nat) (b : Bool) : (s.wrb f i b).storeGen = s.storeGen := rfl
@[simp] theorem wrb_plots (f : Field) (i : List Nat) (b : Bool) : (s.wrb f i b).plots = s.plots := rfl
@[simp] theorem wrb_flights (f : Field) (i : List Nat) (b : Bool) : (s.wrb f i b).flights = s.flights := rfl
@[simp] theorem wrb_qd (f : Field) (i : List Nat) (b : Bool) : (s.wrb f i b).qd = s.qd := rfl
@[simp] theorem wrb_jobs (f : Field) (i : List Nat) (b : Bool) : (s.wrb f i b).jobs = s.jobs := rfl
@[simp] theorem wrb_plotHold (f : Field) (i : List Nat) (b : Bool) : (s.wrb f i b).plotHold = s.plotHold := rfl
@[simp] theorem wrb_tbls (f : Field) (i : List Nat) (b : Bool) : (s.wrb f i b).tbls = s.tbls := rfl
@[simp] theorem wrb_shard (f : Field) (i : List Nat) (b : Bool) : (s.wrb f i b).shard = s.shard := rfl
@[simp] theorem wrb_sieves (f : Field) (i : List Nat) (b : Bool) : (s.wrb f i b).sieves = s.sieves := rfl
@[simp] theorem wrb_sieveLast (f : Field) (i : List Nat) (b : Bool) : (s.wrb f i b).sieveLast = s.sieveLast := rfl
@[simp] theorem wrb_rwc (f : Field) (i : List Nat) (b : Bool) : (s.wrb f i b).rwc = s.rwc := rfl
@[simp] theorem wrb_furrow (f : Field) (i : List Nat) (b : Bool) : (s.wrb f i b).furrow = s.furrow := rfl
@[simp] theorem wrb_upd (f : Field) (i : List Nat) (b : Bool) : (s.wrb f i b).upd = s.upd := rfl
@[simp] theorem wrb_fences (f : Field) (i : List Nat) (b : Bool) : (s.wrb f i b).fences = s.fences := rfl
@[simp] theorem wrb_memLogged (f : Field) (i : List Nat) (b : Bool) : (s.wrb f i b).memLogged = s.memLogged := rfl
@[simp] theorem wrb_graft (f : Field) (i : List Nat) (b : Bool) : (s.wrb f i b).graft = s.graft := rfl

/-! ### State.satInc -/

@[simp] theorem satInc_pending (f : Field) (i : List Nat) (n : Nat) : (s.satInc f i n).pending = s.pending := rfl
@[simp] theorem satInc_captured (f : Field) (i : List Nat) (n : Nat) : (s.satInc f i n).captured = s.captured := rfl
@[simp] theorem satInc_freeCtr (f : Field) (i : List Nat) (n : Nat) : (s.satInc f i n).freeCtr = s.freeCtr := rfl
@[simp] theorem satInc_outs (f : Field) (i : List Nat) (n : Nat) : (s.satInc f i n).outs = s.outs := rfl
@[simp] theorem satInc_mbx (f : Field) (i : List Nat) (n : Nat) : (s.satInc f i n).mbx = s.mbx := rfl
@[simp] theorem satInc_hedge (f : Field) (i : List Nat) (n : Nat) : (s.satInc f i n).hedge = s.hedge := rfl
@[simp] theorem satInc_link (f : Field) (i : List Nat) (n : Nat) : (s.satInc f i n).link = s.link := rfl
@[simp] theorem satInc_flash (f : Field) (i : List Nat) (n : Nat) : (s.satInc f i n).flash = s.flash := rfl
@[simp] theorem satInc_gov (f : Field) (i : List Nat) (n : Nat) : (s.satInc f i n).gov = s.gov := rfl
@[simp] theorem satInc_boot (f : Field) (i : List Nat) (n : Nat) : (s.satInc f i n).boot = s.boot := rfl
@[simp] theorem satInc_tenants (f : Field) (i : List Nat) (n : Nat) : (s.satInc f i n).tenants = s.tenants := rfl
@[simp] theorem satInc_cloche (f : Field) (i : List Nat) (n : Nat) : (s.satInc f i n).cloche = s.cloche := rfl
@[simp] theorem satInc_hbm (f : Field) (i : List Nat) (n : Nat) : (s.satInc f i n).hbm = s.hbm := rfl
@[simp] theorem satInc_hbmPoison (f : Field) (i : List Nat) (n : Nat) : (s.satInc f i n).hbmPoison = s.hbmPoison := rfl
@[simp] theorem satInc_hbmUndef (f : Field) (i : List Nat) (n : Nat) : (s.satInc f i n).hbmUndef = s.hbmUndef := rfl
@[simp] theorem satInc_storeGen (f : Field) (i : List Nat) (n : Nat) : (s.satInc f i n).storeGen = s.storeGen := rfl
@[simp] theorem satInc_plots (f : Field) (i : List Nat) (n : Nat) : (s.satInc f i n).plots = s.plots := rfl
@[simp] theorem satInc_flights (f : Field) (i : List Nat) (n : Nat) : (s.satInc f i n).flights = s.flights := rfl
@[simp] theorem satInc_qd (f : Field) (i : List Nat) (n : Nat) : (s.satInc f i n).qd = s.qd := rfl
@[simp] theorem satInc_jobs (f : Field) (i : List Nat) (n : Nat) : (s.satInc f i n).jobs = s.jobs := rfl
@[simp] theorem satInc_plotHold (f : Field) (i : List Nat) (n : Nat) : (s.satInc f i n).plotHold = s.plotHold := rfl
@[simp] theorem satInc_tbls (f : Field) (i : List Nat) (n : Nat) : (s.satInc f i n).tbls = s.tbls := rfl
@[simp] theorem satInc_shard (f : Field) (i : List Nat) (n : Nat) : (s.satInc f i n).shard = s.shard := rfl
@[simp] theorem satInc_sieves (f : Field) (i : List Nat) (n : Nat) : (s.satInc f i n).sieves = s.sieves := rfl
@[simp] theorem satInc_sieveLast (f : Field) (i : List Nat) (n : Nat) : (s.satInc f i n).sieveLast = s.sieveLast := rfl
@[simp] theorem satInc_rwc (f : Field) (i : List Nat) (n : Nat) : (s.satInc f i n).rwc = s.rwc := rfl
@[simp] theorem satInc_furrow (f : Field) (i : List Nat) (n : Nat) : (s.satInc f i n).furrow = s.furrow := rfl
@[simp] theorem satInc_upd (f : Field) (i : List Nat) (n : Nat) : (s.satInc f i n).upd = s.upd := rfl
@[simp] theorem satInc_fences (f : Field) (i : List Nat) (n : Nat) : (s.satInc f i n).fences = s.fences := rfl
@[simp] theorem satInc_memLogged (f : Field) (i : List Nat) (n : Nat) : (s.satInc f i n).memLogged = s.memLogged := rfl
@[simp] theorem satInc_graft (f : Field) (i : List Nat) (n : Nat) : (s.satInc f i n).graft = s.graft := rfl

/-! ### State.wrapInc -/

@[simp] theorem wrapInc_pending (f : Field) (i : List Nat) (n : Nat) : (s.wrapInc f i n).pending = s.pending := rfl
@[simp] theorem wrapInc_captured (f : Field) (i : List Nat) (n : Nat) : (s.wrapInc f i n).captured = s.captured := rfl
@[simp] theorem wrapInc_freeCtr (f : Field) (i : List Nat) (n : Nat) : (s.wrapInc f i n).freeCtr = s.freeCtr := rfl
@[simp] theorem wrapInc_outs (f : Field) (i : List Nat) (n : Nat) : (s.wrapInc f i n).outs = s.outs := rfl
@[simp] theorem wrapInc_mbx (f : Field) (i : List Nat) (n : Nat) : (s.wrapInc f i n).mbx = s.mbx := rfl
@[simp] theorem wrapInc_hedge (f : Field) (i : List Nat) (n : Nat) : (s.wrapInc f i n).hedge = s.hedge := rfl
@[simp] theorem wrapInc_link (f : Field) (i : List Nat) (n : Nat) : (s.wrapInc f i n).link = s.link := rfl
@[simp] theorem wrapInc_flash (f : Field) (i : List Nat) (n : Nat) : (s.wrapInc f i n).flash = s.flash := rfl
@[simp] theorem wrapInc_gov (f : Field) (i : List Nat) (n : Nat) : (s.wrapInc f i n).gov = s.gov := rfl
@[simp] theorem wrapInc_boot (f : Field) (i : List Nat) (n : Nat) : (s.wrapInc f i n).boot = s.boot := rfl
@[simp] theorem wrapInc_tenants (f : Field) (i : List Nat) (n : Nat) : (s.wrapInc f i n).tenants = s.tenants := rfl
@[simp] theorem wrapInc_cloche (f : Field) (i : List Nat) (n : Nat) : (s.wrapInc f i n).cloche = s.cloche := rfl
@[simp] theorem wrapInc_hbm (f : Field) (i : List Nat) (n : Nat) : (s.wrapInc f i n).hbm = s.hbm := rfl
@[simp] theorem wrapInc_hbmPoison (f : Field) (i : List Nat) (n : Nat) : (s.wrapInc f i n).hbmPoison = s.hbmPoison := rfl
@[simp] theorem wrapInc_hbmUndef (f : Field) (i : List Nat) (n : Nat) : (s.wrapInc f i n).hbmUndef = s.hbmUndef := rfl
@[simp] theorem wrapInc_storeGen (f : Field) (i : List Nat) (n : Nat) : (s.wrapInc f i n).storeGen = s.storeGen := rfl
@[simp] theorem wrapInc_plots (f : Field) (i : List Nat) (n : Nat) : (s.wrapInc f i n).plots = s.plots := rfl
@[simp] theorem wrapInc_flights (f : Field) (i : List Nat) (n : Nat) : (s.wrapInc f i n).flights = s.flights := rfl
@[simp] theorem wrapInc_qd (f : Field) (i : List Nat) (n : Nat) : (s.wrapInc f i n).qd = s.qd := rfl
@[simp] theorem wrapInc_jobs (f : Field) (i : List Nat) (n : Nat) : (s.wrapInc f i n).jobs = s.jobs := rfl
@[simp] theorem wrapInc_plotHold (f : Field) (i : List Nat) (n : Nat) : (s.wrapInc f i n).plotHold = s.plotHold := rfl
@[simp] theorem wrapInc_tbls (f : Field) (i : List Nat) (n : Nat) : (s.wrapInc f i n).tbls = s.tbls := rfl
@[simp] theorem wrapInc_shard (f : Field) (i : List Nat) (n : Nat) : (s.wrapInc f i n).shard = s.shard := rfl
@[simp] theorem wrapInc_sieves (f : Field) (i : List Nat) (n : Nat) : (s.wrapInc f i n).sieves = s.sieves := rfl
@[simp] theorem wrapInc_sieveLast (f : Field) (i : List Nat) (n : Nat) : (s.wrapInc f i n).sieveLast = s.sieveLast := rfl
@[simp] theorem wrapInc_rwc (f : Field) (i : List Nat) (n : Nat) : (s.wrapInc f i n).rwc = s.rwc := rfl
@[simp] theorem wrapInc_furrow (f : Field) (i : List Nat) (n : Nat) : (s.wrapInc f i n).furrow = s.furrow := rfl
@[simp] theorem wrapInc_upd (f : Field) (i : List Nat) (n : Nat) : (s.wrapInc f i n).upd = s.upd := rfl
@[simp] theorem wrapInc_fences (f : Field) (i : List Nat) (n : Nat) : (s.wrapInc f i n).fences = s.fences := rfl
@[simp] theorem wrapInc_memLogged (f : Field) (i : List Nat) (n : Nat) : (s.wrapInc f i n).memLogged = s.memLogged := rfl
@[simp] theorem wrapInc_graft (f : Field) (i : List Nat) (n : Nat) : (s.wrapInc f i n).graft = s.graft := rfl

/-! ### State.resetRegs -/

@[simp] theorem resetRegs_pending (p : Nat → Bool) : (s.resetRegs p).pending = s.pending := rfl
@[simp] theorem resetRegs_captured (p : Nat → Bool) : (s.resetRegs p).captured = s.captured := rfl
@[simp] theorem resetRegs_freeCtr (p : Nat → Bool) : (s.resetRegs p).freeCtr = s.freeCtr := rfl
@[simp] theorem resetRegs_outs (p : Nat → Bool) : (s.resetRegs p).outs = s.outs := rfl
@[simp] theorem resetRegs_mbx (p : Nat → Bool) : (s.resetRegs p).mbx = s.mbx := rfl
@[simp] theorem resetRegs_hedge (p : Nat → Bool) : (s.resetRegs p).hedge = s.hedge := rfl
@[simp] theorem resetRegs_link (p : Nat → Bool) : (s.resetRegs p).link = s.link := rfl
@[simp] theorem resetRegs_flash (p : Nat → Bool) : (s.resetRegs p).flash = s.flash := rfl
@[simp] theorem resetRegs_gov (p : Nat → Bool) : (s.resetRegs p).gov = s.gov := rfl
@[simp] theorem resetRegs_boot (p : Nat → Bool) : (s.resetRegs p).boot = s.boot := rfl
@[simp] theorem resetRegs_tenants (p : Nat → Bool) : (s.resetRegs p).tenants = s.tenants := rfl
@[simp] theorem resetRegs_cloche (p : Nat → Bool) : (s.resetRegs p).cloche = s.cloche := rfl
@[simp] theorem resetRegs_hbm (p : Nat → Bool) : (s.resetRegs p).hbm = s.hbm := rfl
@[simp] theorem resetRegs_hbmPoison (p : Nat → Bool) : (s.resetRegs p).hbmPoison = s.hbmPoison := rfl
@[simp] theorem resetRegs_hbmUndef (p : Nat → Bool) : (s.resetRegs p).hbmUndef = s.hbmUndef := rfl
@[simp] theorem resetRegs_storeGen (p : Nat → Bool) : (s.resetRegs p).storeGen = s.storeGen := rfl
@[simp] theorem resetRegs_plots (p : Nat → Bool) : (s.resetRegs p).plots = s.plots := rfl
@[simp] theorem resetRegs_flights (p : Nat → Bool) : (s.resetRegs p).flights = s.flights := rfl
@[simp] theorem resetRegs_qd (p : Nat → Bool) : (s.resetRegs p).qd = s.qd := rfl
@[simp] theorem resetRegs_jobs (p : Nat → Bool) : (s.resetRegs p).jobs = s.jobs := rfl
@[simp] theorem resetRegs_plotHold (p : Nat → Bool) : (s.resetRegs p).plotHold = s.plotHold := rfl
@[simp] theorem resetRegs_tbls (p : Nat → Bool) : (s.resetRegs p).tbls = s.tbls := rfl
@[simp] theorem resetRegs_shard (p : Nat → Bool) : (s.resetRegs p).shard = s.shard := rfl
@[simp] theorem resetRegs_sieves (p : Nat → Bool) : (s.resetRegs p).sieves = s.sieves := rfl
@[simp] theorem resetRegs_sieveLast (p : Nat → Bool) : (s.resetRegs p).sieveLast = s.sieveLast := rfl
@[simp] theorem resetRegs_rwc (p : Nat → Bool) : (s.resetRegs p).rwc = s.rwc := rfl
@[simp] theorem resetRegs_furrow (p : Nat → Bool) : (s.resetRegs p).furrow = s.furrow := rfl
@[simp] theorem resetRegs_upd (p : Nat → Bool) : (s.resetRegs p).upd = s.upd := rfl
@[simp] theorem resetRegs_fences (p : Nat → Bool) : (s.resetRegs p).fences = s.fences := rfl
@[simp] theorem resetRegs_memLogged (p : Nat → Bool) : (s.resetRegs p).memLogged = s.memLogged := rfl
@[simp] theorem resetRegs_graft (p : Nat → Bool) : (s.resetRegs p).graft = s.graft := rfl

/-! ### State.freeNext -/

@[simp] theorem freeNext_pending : (s.freeNext).pending = s.pending := rfl
@[simp] theorem freeNext_regs : (s.freeNext).regs = s.regs := rfl
@[simp] theorem freeNext_captured : (s.freeNext).captured = s.captured := rfl
@[simp] theorem freeNext_outs : (s.freeNext).outs = s.outs := rfl
@[simp] theorem freeNext_mbx : (s.freeNext).mbx = s.mbx := rfl
@[simp] theorem freeNext_hedge : (s.freeNext).hedge = s.hedge := rfl
@[simp] theorem freeNext_link : (s.freeNext).link = s.link := rfl
@[simp] theorem freeNext_flash : (s.freeNext).flash = s.flash := rfl
@[simp] theorem freeNext_gov : (s.freeNext).gov = s.gov := rfl
@[simp] theorem freeNext_boot : (s.freeNext).boot = s.boot := rfl
@[simp] theorem freeNext_tenants : (s.freeNext).tenants = s.tenants := rfl
@[simp] theorem freeNext_cloche : (s.freeNext).cloche = s.cloche := rfl
@[simp] theorem freeNext_hbm : (s.freeNext).hbm = s.hbm := rfl
@[simp] theorem freeNext_hbmPoison : (s.freeNext).hbmPoison = s.hbmPoison := rfl
@[simp] theorem freeNext_hbmUndef : (s.freeNext).hbmUndef = s.hbmUndef := rfl
@[simp] theorem freeNext_storeGen : (s.freeNext).storeGen = s.storeGen := rfl
@[simp] theorem freeNext_plots : (s.freeNext).plots = s.plots := rfl
@[simp] theorem freeNext_flights : (s.freeNext).flights = s.flights := rfl
@[simp] theorem freeNext_qd : (s.freeNext).qd = s.qd := rfl
@[simp] theorem freeNext_jobs : (s.freeNext).jobs = s.jobs := rfl
@[simp] theorem freeNext_plotHold : (s.freeNext).plotHold = s.plotHold := rfl
@[simp] theorem freeNext_tbls : (s.freeNext).tbls = s.tbls := rfl
@[simp] theorem freeNext_shard : (s.freeNext).shard = s.shard := rfl
@[simp] theorem freeNext_sieves : (s.freeNext).sieves = s.sieves := rfl
@[simp] theorem freeNext_sieveLast : (s.freeNext).sieveLast = s.sieveLast := rfl
@[simp] theorem freeNext_rwc : (s.freeNext).rwc = s.rwc := rfl
@[simp] theorem freeNext_furrow : (s.freeNext).furrow = s.furrow := rfl
@[simp] theorem freeNext_upd : (s.freeNext).upd = s.upd := rfl
@[simp] theorem freeNext_fences : (s.freeNext).fences = s.fences := rfl
@[simp] theorem freeNext_memLogged : (s.freeNext).memLogged = s.memLogged := rfl
@[simp] theorem freeNext_graft : (s.freeNext).graft = s.graft := rfl

/-! ### State.emit -/

@[simp] theorem emit_pending (o : Out) : (s.emit o).pending = s.pending := rfl
@[simp] theorem emit_regs (o : Out) : (s.emit o).regs = s.regs := rfl
@[simp] theorem emit_captured (o : Out) : (s.emit o).captured = s.captured := rfl
@[simp] theorem emit_freeCtr (o : Out) : (s.emit o).freeCtr = s.freeCtr := rfl
@[simp] theorem emit_mbx (o : Out) : (s.emit o).mbx = s.mbx := rfl
@[simp] theorem emit_hedge (o : Out) : (s.emit o).hedge = s.hedge := rfl
@[simp] theorem emit_link (o : Out) : (s.emit o).link = s.link := rfl
@[simp] theorem emit_flash (o : Out) : (s.emit o).flash = s.flash := rfl
@[simp] theorem emit_gov (o : Out) : (s.emit o).gov = s.gov := rfl
@[simp] theorem emit_boot (o : Out) : (s.emit o).boot = s.boot := rfl
@[simp] theorem emit_tenants (o : Out) : (s.emit o).tenants = s.tenants := rfl
@[simp] theorem emit_cloche (o : Out) : (s.emit o).cloche = s.cloche := rfl
@[simp] theorem emit_hbm (o : Out) : (s.emit o).hbm = s.hbm := rfl
@[simp] theorem emit_hbmPoison (o : Out) : (s.emit o).hbmPoison = s.hbmPoison := rfl
@[simp] theorem emit_hbmUndef (o : Out) : (s.emit o).hbmUndef = s.hbmUndef := rfl
@[simp] theorem emit_storeGen (o : Out) : (s.emit o).storeGen = s.storeGen := rfl
@[simp] theorem emit_plots (o : Out) : (s.emit o).plots = s.plots := rfl
@[simp] theorem emit_flights (o : Out) : (s.emit o).flights = s.flights := rfl
@[simp] theorem emit_qd (o : Out) : (s.emit o).qd = s.qd := rfl
@[simp] theorem emit_jobs (o : Out) : (s.emit o).jobs = s.jobs := rfl
@[simp] theorem emit_plotHold (o : Out) : (s.emit o).plotHold = s.plotHold := rfl
@[simp] theorem emit_tbls (o : Out) : (s.emit o).tbls = s.tbls := rfl
@[simp] theorem emit_shard (o : Out) : (s.emit o).shard = s.shard := rfl
@[simp] theorem emit_sieves (o : Out) : (s.emit o).sieves = s.sieves := rfl
@[simp] theorem emit_sieveLast (o : Out) : (s.emit o).sieveLast = s.sieveLast := rfl
@[simp] theorem emit_rwc (o : Out) : (s.emit o).rwc = s.rwc := rfl
@[simp] theorem emit_furrow (o : Out) : (s.emit o).furrow = s.furrow := rfl
@[simp] theorem emit_upd (o : Out) : (s.emit o).upd = s.upd := rfl
@[simp] theorem emit_fences (o : Out) : (s.emit o).fences = s.fences := rfl
@[simp] theorem emit_memLogged (o : Out) : (s.emit o).memLogged = s.memLogged := rfl
@[simp] theorem emit_graft (o : Out) : (s.emit o).graft = s.graft := rfl

/-! ### flit -/

@[simp] theorem flit_pending (n : Nat) : (flit s n).pending = s.pending := rfl
@[simp] theorem flit_captured (n : Nat) : (flit s n).captured = s.captured := rfl
@[simp] theorem flit_freeCtr (n : Nat) : (flit s n).freeCtr = s.freeCtr := rfl
@[simp] theorem flit_outs (n : Nat) : (flit s n).outs = s.outs := rfl
@[simp] theorem flit_mbx (n : Nat) : (flit s n).mbx = s.mbx := rfl
@[simp] theorem flit_hedge (n : Nat) : (flit s n).hedge = s.hedge := rfl
@[simp] theorem flit_link (n : Nat) : (flit s n).link = s.link := rfl
@[simp] theorem flit_flash (n : Nat) : (flit s n).flash = s.flash := rfl
@[simp] theorem flit_gov (n : Nat) : (flit s n).gov = s.gov := rfl
@[simp] theorem flit_boot (n : Nat) : (flit s n).boot = s.boot := rfl
@[simp] theorem flit_tenants (n : Nat) : (flit s n).tenants = s.tenants := rfl
@[simp] theorem flit_cloche (n : Nat) : (flit s n).cloche = s.cloche := rfl
@[simp] theorem flit_hbm (n : Nat) : (flit s n).hbm = s.hbm := rfl
@[simp] theorem flit_hbmPoison (n : Nat) : (flit s n).hbmPoison = s.hbmPoison := rfl
@[simp] theorem flit_hbmUndef (n : Nat) : (flit s n).hbmUndef = s.hbmUndef := rfl
@[simp] theorem flit_storeGen (n : Nat) : (flit s n).storeGen = s.storeGen := rfl
@[simp] theorem flit_plots (n : Nat) : (flit s n).plots = s.plots := rfl
@[simp] theorem flit_flights (n : Nat) : (flit s n).flights = s.flights := rfl
@[simp] theorem flit_qd (n : Nat) : (flit s n).qd = s.qd := rfl
@[simp] theorem flit_jobs (n : Nat) : (flit s n).jobs = s.jobs := rfl
@[simp] theorem flit_plotHold (n : Nat) : (flit s n).plotHold = s.plotHold := rfl
@[simp] theorem flit_tbls (n : Nat) : (flit s n).tbls = s.tbls := rfl
@[simp] theorem flit_shard (n : Nat) : (flit s n).shard = s.shard := rfl
@[simp] theorem flit_sieves (n : Nat) : (flit s n).sieves = s.sieves := rfl
@[simp] theorem flit_sieveLast (n : Nat) : (flit s n).sieveLast = s.sieveLast := rfl
@[simp] theorem flit_rwc (n : Nat) : (flit s n).rwc = s.rwc := rfl
@[simp] theorem flit_furrow (n : Nat) : (flit s n).furrow = s.furrow := rfl
@[simp] theorem flit_upd (n : Nat) : (flit s n).upd = s.upd := rfl
@[simp] theorem flit_fences (n : Nat) : (flit s n).fences = s.fences := rfl
@[simp] theorem flit_memLogged (n : Nat) : (flit s n).memLogged = s.memLogged := rfl
@[simp] theorem flit_graft (n : Nat) : (flit s n).graft = s.graft := rfl

/-! ### State.setSlot -/

@[simp] theorem setSlot_pending (f i : Nat) (x : Slot) : (s.setSlot f i x).pending = s.pending := rfl
@[simp] theorem setSlot_regs (f i : Nat) (x : Slot) : (s.setSlot f i x).regs = s.regs := rfl
@[simp] theorem setSlot_captured (f i : Nat) (x : Slot) : (s.setSlot f i x).captured = s.captured := rfl
@[simp] theorem setSlot_freeCtr (f i : Nat) (x : Slot) : (s.setSlot f i x).freeCtr = s.freeCtr := rfl
@[simp] theorem setSlot_outs (f i : Nat) (x : Slot) : (s.setSlot f i x).outs = s.outs := rfl
@[simp] theorem setSlot_hedge (f i : Nat) (x : Slot) : (s.setSlot f i x).hedge = s.hedge := rfl
@[simp] theorem setSlot_link (f i : Nat) (x : Slot) : (s.setSlot f i x).link = s.link := rfl
@[simp] theorem setSlot_flash (f i : Nat) (x : Slot) : (s.setSlot f i x).flash = s.flash := rfl
@[simp] theorem setSlot_gov (f i : Nat) (x : Slot) : (s.setSlot f i x).gov = s.gov := rfl
@[simp] theorem setSlot_boot (f i : Nat) (x : Slot) : (s.setSlot f i x).boot = s.boot := rfl
@[simp] theorem setSlot_tenants (f i : Nat) (x : Slot) : (s.setSlot f i x).tenants = s.tenants := rfl
@[simp] theorem setSlot_cloche (f i : Nat) (x : Slot) : (s.setSlot f i x).cloche = s.cloche := rfl
@[simp] theorem setSlot_hbm (f i : Nat) (x : Slot) : (s.setSlot f i x).hbm = s.hbm := rfl
@[simp] theorem setSlot_hbmPoison (f i : Nat) (x : Slot) : (s.setSlot f i x).hbmPoison = s.hbmPoison := rfl
@[simp] theorem setSlot_hbmUndef (f i : Nat) (x : Slot) : (s.setSlot f i x).hbmUndef = s.hbmUndef := rfl
@[simp] theorem setSlot_storeGen (f i : Nat) (x : Slot) : (s.setSlot f i x).storeGen = s.storeGen := rfl
@[simp] theorem setSlot_plots (f i : Nat) (x : Slot) : (s.setSlot f i x).plots = s.plots := rfl
@[simp] theorem setSlot_flights (f i : Nat) (x : Slot) : (s.setSlot f i x).flights = s.flights := rfl
@[simp] theorem setSlot_qd (f i : Nat) (x : Slot) : (s.setSlot f i x).qd = s.qd := rfl
@[simp] theorem setSlot_jobs (f i : Nat) (x : Slot) : (s.setSlot f i x).jobs = s.jobs := rfl
@[simp] theorem setSlot_plotHold (f i : Nat) (x : Slot) : (s.setSlot f i x).plotHold = s.plotHold := rfl
@[simp] theorem setSlot_tbls (f i : Nat) (x : Slot) : (s.setSlot f i x).tbls = s.tbls := rfl
@[simp] theorem setSlot_shard (f i : Nat) (x : Slot) : (s.setSlot f i x).shard = s.shard := rfl
@[simp] theorem setSlot_sieves (f i : Nat) (x : Slot) : (s.setSlot f i x).sieves = s.sieves := rfl
@[simp] theorem setSlot_sieveLast (f i : Nat) (x : Slot) : (s.setSlot f i x).sieveLast = s.sieveLast := rfl
@[simp] theorem setSlot_rwc (f i : Nat) (x : Slot) : (s.setSlot f i x).rwc = s.rwc := rfl
@[simp] theorem setSlot_furrow (f i : Nat) (x : Slot) : (s.setSlot f i x).furrow = s.furrow := rfl
@[simp] theorem setSlot_upd (f i : Nat) (x : Slot) : (s.setSlot f i x).upd = s.upd := rfl
@[simp] theorem setSlot_fences (f i : Nat) (x : Slot) : (s.setSlot f i x).fences = s.fences := rfl
@[simp] theorem setSlot_memLogged (f i : Nat) (x : Slot) : (s.setSlot f i x).memLogged = s.memLogged := rfl
@[simp] theorem setSlot_graft (f i : Nat) (x : Slot) : (s.setSlot f i x).graft = s.graft := rfl

/-! ### State.setCmd -/

@[simp] theorem setCmd_pending (c : Cmd) : (s.setCmd c).pending = s.pending := rfl
@[simp] theorem setCmd_regs (c : Cmd) : (s.setCmd c).regs = s.regs := rfl
@[simp] theorem setCmd_captured (c : Cmd) : (s.setCmd c).captured = s.captured := rfl
@[simp] theorem setCmd_freeCtr (c : Cmd) : (s.setCmd c).freeCtr = s.freeCtr := rfl
@[simp] theorem setCmd_outs (c : Cmd) : (s.setCmd c).outs = s.outs := rfl
@[simp] theorem setCmd_hedge (c : Cmd) : (s.setCmd c).hedge = s.hedge := rfl
@[simp] theorem setCmd_link (c : Cmd) : (s.setCmd c).link = s.link := rfl
@[simp] theorem setCmd_flash (c : Cmd) : (s.setCmd c).flash = s.flash := rfl
@[simp] theorem setCmd_gov (c : Cmd) : (s.setCmd c).gov = s.gov := rfl
@[simp] theorem setCmd_boot (c : Cmd) : (s.setCmd c).boot = s.boot := rfl
@[simp] theorem setCmd_tenants (c : Cmd) : (s.setCmd c).tenants = s.tenants := rfl
@[simp] theorem setCmd_cloche (c : Cmd) : (s.setCmd c).cloche = s.cloche := rfl
@[simp] theorem setCmd_hbm (c : Cmd) : (s.setCmd c).hbm = s.hbm := rfl
@[simp] theorem setCmd_hbmPoison (c : Cmd) : (s.setCmd c).hbmPoison = s.hbmPoison := rfl
@[simp] theorem setCmd_hbmUndef (c : Cmd) : (s.setCmd c).hbmUndef = s.hbmUndef := rfl
@[simp] theorem setCmd_storeGen (c : Cmd) : (s.setCmd c).storeGen = s.storeGen := rfl
@[simp] theorem setCmd_plots (c : Cmd) : (s.setCmd c).plots = s.plots := rfl
@[simp] theorem setCmd_flights (c : Cmd) : (s.setCmd c).flights = s.flights := rfl
@[simp] theorem setCmd_qd (c : Cmd) : (s.setCmd c).qd = s.qd := rfl
@[simp] theorem setCmd_jobs (c : Cmd) : (s.setCmd c).jobs = s.jobs := rfl
@[simp] theorem setCmd_plotHold (c : Cmd) : (s.setCmd c).plotHold = s.plotHold := rfl
@[simp] theorem setCmd_tbls (c : Cmd) : (s.setCmd c).tbls = s.tbls := rfl
@[simp] theorem setCmd_shard (c : Cmd) : (s.setCmd c).shard = s.shard := rfl
@[simp] theorem setCmd_sieves (c : Cmd) : (s.setCmd c).sieves = s.sieves := rfl
@[simp] theorem setCmd_sieveLast (c : Cmd) : (s.setCmd c).sieveLast = s.sieveLast := rfl
@[simp] theorem setCmd_rwc (c : Cmd) : (s.setCmd c).rwc = s.rwc := rfl
@[simp] theorem setCmd_furrow (c : Cmd) : (s.setCmd c).furrow = s.furrow := rfl
@[simp] theorem setCmd_upd (c : Cmd) : (s.setCmd c).upd = s.upd := rfl
@[simp] theorem setCmd_fences (c : Cmd) : (s.setCmd c).fences = s.fences := rfl
@[simp] theorem setCmd_memLogged (c : Cmd) : (s.setCmd c).memLogged = s.memLogged := rfl
@[simp] theorem setCmd_graft (c : Cmd) : (s.setCmd c).graft = s.graft := rfl

/-! ### State.setPort -/

@[simp] theorem setPort_pending (n : Nat) (p : Port) : (s.setPort n p).pending = s.pending := rfl
@[simp] theorem setPort_regs (n : Nat) (p : Port) : (s.setPort n p).regs = s.regs := rfl
@[simp] theorem setPort_captured (n : Nat) (p : Port) : (s.setPort n p).captured = s.captured := rfl
@[simp] theorem setPort_freeCtr (n : Nat) (p : Port) : (s.setPort n p).freeCtr = s.freeCtr := rfl
@[simp] theorem setPort_outs (n : Nat) (p : Port) : (s.setPort n p).outs = s.outs := rfl
@[simp] theorem setPort_mbx (n : Nat) (p : Port) : (s.setPort n p).mbx = s.mbx := rfl
@[simp] theorem setPort_hedge (n : Nat) (p : Port) : (s.setPort n p).hedge = s.hedge := rfl
@[simp] theorem setPort_flash (n : Nat) (p : Port) : (s.setPort n p).flash = s.flash := rfl
@[simp] theorem setPort_gov (n : Nat) (p : Port) : (s.setPort n p).gov = s.gov := rfl
@[simp] theorem setPort_boot (n : Nat) (p : Port) : (s.setPort n p).boot = s.boot := rfl
@[simp] theorem setPort_tenants (n : Nat) (p : Port) : (s.setPort n p).tenants = s.tenants := rfl
@[simp] theorem setPort_cloche (n : Nat) (p : Port) : (s.setPort n p).cloche = s.cloche := rfl
@[simp] theorem setPort_hbm (n : Nat) (p : Port) : (s.setPort n p).hbm = s.hbm := rfl
@[simp] theorem setPort_hbmPoison (n : Nat) (p : Port) : (s.setPort n p).hbmPoison = s.hbmPoison := rfl
@[simp] theorem setPort_hbmUndef (n : Nat) (p : Port) : (s.setPort n p).hbmUndef = s.hbmUndef := rfl
@[simp] theorem setPort_storeGen (n : Nat) (p : Port) : (s.setPort n p).storeGen = s.storeGen := rfl
@[simp] theorem setPort_plots (n : Nat) (p : Port) : (s.setPort n p).plots = s.plots := rfl
@[simp] theorem setPort_flights (n : Nat) (p : Port) : (s.setPort n p).flights = s.flights := rfl
@[simp] theorem setPort_qd (n : Nat) (p : Port) : (s.setPort n p).qd = s.qd := rfl
@[simp] theorem setPort_jobs (n : Nat) (p : Port) : (s.setPort n p).jobs = s.jobs := rfl
@[simp] theorem setPort_plotHold (n : Nat) (p : Port) : (s.setPort n p).plotHold = s.plotHold := rfl
@[simp] theorem setPort_tbls (n : Nat) (p : Port) : (s.setPort n p).tbls = s.tbls := rfl
@[simp] theorem setPort_shard (n : Nat) (p : Port) : (s.setPort n p).shard = s.shard := rfl
@[simp] theorem setPort_sieves (n : Nat) (p : Port) : (s.setPort n p).sieves = s.sieves := rfl
@[simp] theorem setPort_sieveLast (n : Nat) (p : Port) : (s.setPort n p).sieveLast = s.sieveLast := rfl
@[simp] theorem setPort_rwc (n : Nat) (p : Port) : (s.setPort n p).rwc = s.rwc := rfl
@[simp] theorem setPort_furrow (n : Nat) (p : Port) : (s.setPort n p).furrow = s.furrow := rfl
@[simp] theorem setPort_upd (n : Nat) (p : Port) : (s.setPort n p).upd = s.upd := rfl
@[simp] theorem setPort_fences (n : Nat) (p : Port) : (s.setPort n p).fences = s.fences := rfl
@[simp] theorem setPort_memLogged (n : Nat) (p : Port) : (s.setPort n p).memLogged = s.memLogged := rfl
@[simp] theorem setPort_graft (n : Nat) (p : Port) : (s.setPort n p).graft = s.graft := rfl

/-! ### injectPkt -/

@[simp] theorem injectPkt_pending (p : Packet) : (injectPkt s p).pending = s.pending := rfl
@[simp] theorem injectPkt_captured (p : Packet) : (injectPkt s p).captured = s.captured := rfl
@[simp] theorem injectPkt_freeCtr (p : Packet) : (injectPkt s p).freeCtr = s.freeCtr := rfl
@[simp] theorem injectPkt_outs (p : Packet) : (injectPkt s p).outs = s.outs := rfl
@[simp] theorem injectPkt_mbx (p : Packet) : (injectPkt s p).mbx = s.mbx := rfl
@[simp] theorem injectPkt_hedge (p : Packet) : (injectPkt s p).hedge = s.hedge := rfl
@[simp] theorem injectPkt_flash (p : Packet) : (injectPkt s p).flash = s.flash := rfl
@[simp] theorem injectPkt_gov (p : Packet) : (injectPkt s p).gov = s.gov := rfl
@[simp] theorem injectPkt_boot (p : Packet) : (injectPkt s p).boot = s.boot := rfl
@[simp] theorem injectPkt_tenants (p : Packet) : (injectPkt s p).tenants = s.tenants := rfl
@[simp] theorem injectPkt_cloche (p : Packet) : (injectPkt s p).cloche = s.cloche := rfl
@[simp] theorem injectPkt_hbm (p : Packet) : (injectPkt s p).hbm = s.hbm := rfl
@[simp] theorem injectPkt_hbmPoison (p : Packet) : (injectPkt s p).hbmPoison = s.hbmPoison := rfl
@[simp] theorem injectPkt_hbmUndef (p : Packet) : (injectPkt s p).hbmUndef = s.hbmUndef := rfl
@[simp] theorem injectPkt_storeGen (p : Packet) : (injectPkt s p).storeGen = s.storeGen := rfl
@[simp] theorem injectPkt_plots (p : Packet) : (injectPkt s p).plots = s.plots := rfl
@[simp] theorem injectPkt_flights (p : Packet) : (injectPkt s p).flights = s.flights := rfl
@[simp] theorem injectPkt_qd (p : Packet) : (injectPkt s p).qd = s.qd := rfl
@[simp] theorem injectPkt_jobs (p : Packet) : (injectPkt s p).jobs = s.jobs := rfl
@[simp] theorem injectPkt_plotHold (p : Packet) : (injectPkt s p).plotHold = s.plotHold := rfl
@[simp] theorem injectPkt_tbls (p : Packet) : (injectPkt s p).tbls = s.tbls := rfl
@[simp] theorem injectPkt_shard (p : Packet) : (injectPkt s p).shard = s.shard := rfl
@[simp] theorem injectPkt_sieves (p : Packet) : (injectPkt s p).sieves = s.sieves := rfl
@[simp] theorem injectPkt_sieveLast (p : Packet) : (injectPkt s p).sieveLast = s.sieveLast := rfl
@[simp] theorem injectPkt_rwc (p : Packet) : (injectPkt s p).rwc = s.rwc := rfl
@[simp] theorem injectPkt_furrow (p : Packet) : (injectPkt s p).furrow = s.furrow := rfl
@[simp] theorem injectPkt_upd (p : Packet) : (injectPkt s p).upd = s.upd := rfl
@[simp] theorem injectPkt_fences (p : Packet) : (injectPkt s p).fences = s.fences := rfl
@[simp] theorem injectPkt_memLogged (p : Packet) : (injectPkt s p).memLogged = s.memLogged := rfl
@[simp] theorem injectPkt_graft (p : Packet) : (injectPkt s p).graft = s.graft := rfl

/-! ### State.setPlot -/

@[simp] theorem setPlot_pending (p : Nat) (x : Plot) : (s.setPlot p x).pending = s.pending := rfl
@[simp] theorem setPlot_regs (p : Nat) (x : Plot) : (s.setPlot p x).regs = s.regs := rfl
@[simp] theorem setPlot_captured (p : Nat) (x : Plot) : (s.setPlot p x).captured = s.captured := rfl
@[simp] theorem setPlot_freeCtr (p : Nat) (x : Plot) : (s.setPlot p x).freeCtr = s.freeCtr := rfl
@[simp] theorem setPlot_outs (p : Nat) (x : Plot) : (s.setPlot p x).outs = s.outs := rfl
@[simp] theorem setPlot_mbx (p : Nat) (x : Plot) : (s.setPlot p x).mbx = s.mbx := rfl
@[simp] theorem setPlot_hedge (p : Nat) (x : Plot) : (s.setPlot p x).hedge = s.hedge := rfl
@[simp] theorem setPlot_link (p : Nat) (x : Plot) : (s.setPlot p x).link = s.link := rfl
@[simp] theorem setPlot_flash (p : Nat) (x : Plot) : (s.setPlot p x).flash = s.flash := rfl
@[simp] theorem setPlot_gov (p : Nat) (x : Plot) : (s.setPlot p x).gov = s.gov := rfl
@[simp] theorem setPlot_boot (p : Nat) (x : Plot) : (s.setPlot p x).boot = s.boot := rfl
@[simp] theorem setPlot_tenants (p : Nat) (x : Plot) : (s.setPlot p x).tenants = s.tenants := rfl
@[simp] theorem setPlot_cloche (p : Nat) (x : Plot) : (s.setPlot p x).cloche = s.cloche := rfl
@[simp] theorem setPlot_hbm (p : Nat) (x : Plot) : (s.setPlot p x).hbm = s.hbm := rfl
@[simp] theorem setPlot_hbmPoison (p : Nat) (x : Plot) : (s.setPlot p x).hbmPoison = s.hbmPoison := rfl
@[simp] theorem setPlot_hbmUndef (p : Nat) (x : Plot) : (s.setPlot p x).hbmUndef = s.hbmUndef := rfl
@[simp] theorem setPlot_storeGen (p : Nat) (x : Plot) : (s.setPlot p x).storeGen = s.storeGen := rfl
@[simp] theorem setPlot_flights (p : Nat) (x : Plot) : (s.setPlot p x).flights = s.flights := rfl
@[simp] theorem setPlot_qd (p : Nat) (x : Plot) : (s.setPlot p x).qd = s.qd := rfl
@[simp] theorem setPlot_jobs (p : Nat) (x : Plot) : (s.setPlot p x).jobs = s.jobs := rfl
@[simp] theorem setPlot_plotHold (p : Nat) (x : Plot) : (s.setPlot p x).plotHold = s.plotHold := rfl
@[simp] theorem setPlot_tbls (p : Nat) (x : Plot) : (s.setPlot p x).tbls = s.tbls := rfl
@[simp] theorem setPlot_shard (p : Nat) (x : Plot) : (s.setPlot p x).shard = s.shard := rfl
@[simp] theorem setPlot_sieves (p : Nat) (x : Plot) : (s.setPlot p x).sieves = s.sieves := rfl
@[simp] theorem setPlot_sieveLast (p : Nat) (x : Plot) : (s.setPlot p x).sieveLast = s.sieveLast := rfl
@[simp] theorem setPlot_rwc (p : Nat) (x : Plot) : (s.setPlot p x).rwc = s.rwc := rfl
@[simp] theorem setPlot_furrow (p : Nat) (x : Plot) : (s.setPlot p x).furrow = s.furrow := rfl
@[simp] theorem setPlot_upd (p : Nat) (x : Plot) : (s.setPlot p x).upd = s.upd := rfl
@[simp] theorem setPlot_fences (p : Nat) (x : Plot) : (s.setPlot p x).fences = s.fences := rfl
@[simp] theorem setPlot_memLogged (p : Nat) (x : Plot) : (s.setPlot p x).memLogged = s.memLogged := rfl
@[simp] theorem setPlot_graft (p : Nat) (x : Plot) : (s.setPlot p x).graft = s.graft := rfl

/-! ### State.setSto -/

@[simp] theorem setSto_pending (p : Nat) (x : Stores) : (s.setSto p x).pending = s.pending := rfl
@[simp] theorem setSto_regs (p : Nat) (x : Stores) : (s.setSto p x).regs = s.regs := rfl
@[simp] theorem setSto_captured (p : Nat) (x : Stores) : (s.setSto p x).captured = s.captured := rfl
@[simp] theorem setSto_freeCtr (p : Nat) (x : Stores) : (s.setSto p x).freeCtr = s.freeCtr := rfl
@[simp] theorem setSto_outs (p : Nat) (x : Stores) : (s.setSto p x).outs = s.outs := rfl
@[simp] theorem setSto_mbx (p : Nat) (x : Stores) : (s.setSto p x).mbx = s.mbx := rfl
@[simp] theorem setSto_hedge (p : Nat) (x : Stores) : (s.setSto p x).hedge = s.hedge := rfl
@[simp] theorem setSto_link (p : Nat) (x : Stores) : (s.setSto p x).link = s.link := rfl
@[simp] theorem setSto_flash (p : Nat) (x : Stores) : (s.setSto p x).flash = s.flash := rfl
@[simp] theorem setSto_gov (p : Nat) (x : Stores) : (s.setSto p x).gov = s.gov := rfl
@[simp] theorem setSto_boot (p : Nat) (x : Stores) : (s.setSto p x).boot = s.boot := rfl
@[simp] theorem setSto_tenants (p : Nat) (x : Stores) : (s.setSto p x).tenants = s.tenants := rfl
@[simp] theorem setSto_cloche (p : Nat) (x : Stores) : (s.setSto p x).cloche = s.cloche := rfl
@[simp] theorem setSto_hbm (p : Nat) (x : Stores) : (s.setSto p x).hbm = s.hbm := rfl
@[simp] theorem setSto_hbmPoison (p : Nat) (x : Stores) : (s.setSto p x).hbmPoison = s.hbmPoison := rfl
@[simp] theorem setSto_hbmUndef (p : Nat) (x : Stores) : (s.setSto p x).hbmUndef = s.hbmUndef := rfl
@[simp] theorem setSto_storeGen (p : Nat) (x : Stores) : (s.setSto p x).storeGen = s.storeGen := rfl
@[simp] theorem setSto_flights (p : Nat) (x : Stores) : (s.setSto p x).flights = s.flights := rfl
@[simp] theorem setSto_qd (p : Nat) (x : Stores) : (s.setSto p x).qd = s.qd := rfl
@[simp] theorem setSto_jobs (p : Nat) (x : Stores) : (s.setSto p x).jobs = s.jobs := rfl
@[simp] theorem setSto_plotHold (p : Nat) (x : Stores) : (s.setSto p x).plotHold = s.plotHold := rfl
@[simp] theorem setSto_tbls (p : Nat) (x : Stores) : (s.setSto p x).tbls = s.tbls := rfl
@[simp] theorem setSto_shard (p : Nat) (x : Stores) : (s.setSto p x).shard = s.shard := rfl
@[simp] theorem setSto_sieves (p : Nat) (x : Stores) : (s.setSto p x).sieves = s.sieves := rfl
@[simp] theorem setSto_sieveLast (p : Nat) (x : Stores) : (s.setSto p x).sieveLast = s.sieveLast := rfl
@[simp] theorem setSto_rwc (p : Nat) (x : Stores) : (s.setSto p x).rwc = s.rwc := rfl
@[simp] theorem setSto_furrow (p : Nat) (x : Stores) : (s.setSto p x).furrow = s.furrow := rfl
@[simp] theorem setSto_upd (p : Nat) (x : Stores) : (s.setSto p x).upd = s.upd := rfl
@[simp] theorem setSto_fences (p : Nat) (x : Stores) : (s.setSto p x).fences = s.fences := rfl
@[simp] theorem setSto_memLogged (p : Nat) (x : Stores) : (s.setSto p x).memLogged = s.memLogged := rfl
@[simp] theorem setSto_graft (p : Nat) (x : Stores) : (s.setSto p x).graft = s.graft := rfl

/-! ### State.setCtx -/

@[simp] theorem setCtx_pending (p c : Nat) (x : Ctx) : (s.setCtx p c x).pending = s.pending := rfl
@[simp] theorem setCtx_regs (p c : Nat) (x : Ctx) : (s.setCtx p c x).regs = s.regs := rfl
@[simp] theorem setCtx_captured (p c : Nat) (x : Ctx) : (s.setCtx p c x).captured = s.captured := rfl
@[simp] theorem setCtx_freeCtr (p c : Nat) (x : Ctx) : (s.setCtx p c x).freeCtr = s.freeCtr := rfl
@[simp] theorem setCtx_outs (p c : Nat) (x : Ctx) : (s.setCtx p c x).outs = s.outs := rfl
@[simp] theorem setCtx_mbx (p c : Nat) (x : Ctx) : (s.setCtx p c x).mbx = s.mbx := rfl
@[simp] theorem setCtx_hedge (p c : Nat) (x : Ctx) : (s.setCtx p c x).hedge = s.hedge := rfl
@[simp] theorem setCtx_link (p c : Nat) (x : Ctx) : (s.setCtx p c x).link = s.link := rfl
@[simp] theorem setCtx_flash (p c : Nat) (x : Ctx) : (s.setCtx p c x).flash = s.flash := rfl
@[simp] theorem setCtx_gov (p c : Nat) (x : Ctx) : (s.setCtx p c x).gov = s.gov := rfl
@[simp] theorem setCtx_boot (p c : Nat) (x : Ctx) : (s.setCtx p c x).boot = s.boot := rfl
@[simp] theorem setCtx_tenants (p c : Nat) (x : Ctx) : (s.setCtx p c x).tenants = s.tenants := rfl
@[simp] theorem setCtx_cloche (p c : Nat) (x : Ctx) : (s.setCtx p c x).cloche = s.cloche := rfl
@[simp] theorem setCtx_hbm (p c : Nat) (x : Ctx) : (s.setCtx p c x).hbm = s.hbm := rfl
@[simp] theorem setCtx_hbmPoison (p c : Nat) (x : Ctx) : (s.setCtx p c x).hbmPoison = s.hbmPoison := rfl
@[simp] theorem setCtx_hbmUndef (p c : Nat) (x : Ctx) : (s.setCtx p c x).hbmUndef = s.hbmUndef := rfl
@[simp] theorem setCtx_storeGen (p c : Nat) (x : Ctx) : (s.setCtx p c x).storeGen = s.storeGen := rfl
@[simp] theorem setCtx_flights (p c : Nat) (x : Ctx) : (s.setCtx p c x).flights = s.flights := rfl
@[simp] theorem setCtx_qd (p c : Nat) (x : Ctx) : (s.setCtx p c x).qd = s.qd := rfl
@[simp] theorem setCtx_jobs (p c : Nat) (x : Ctx) : (s.setCtx p c x).jobs = s.jobs := rfl
@[simp] theorem setCtx_plotHold (p c : Nat) (x : Ctx) : (s.setCtx p c x).plotHold = s.plotHold := rfl
@[simp] theorem setCtx_tbls (p c : Nat) (x : Ctx) : (s.setCtx p c x).tbls = s.tbls := rfl
@[simp] theorem setCtx_shard (p c : Nat) (x : Ctx) : (s.setCtx p c x).shard = s.shard := rfl
@[simp] theorem setCtx_sieves (p c : Nat) (x : Ctx) : (s.setCtx p c x).sieves = s.sieves := rfl
@[simp] theorem setCtx_sieveLast (p c : Nat) (x : Ctx) : (s.setCtx p c x).sieveLast = s.sieveLast := rfl
@[simp] theorem setCtx_rwc (p c : Nat) (x : Ctx) : (s.setCtx p c x).rwc = s.rwc := rfl
@[simp] theorem setCtx_furrow (p c : Nat) (x : Ctx) : (s.setCtx p c x).furrow = s.furrow := rfl
@[simp] theorem setCtx_upd (p c : Nat) (x : Ctx) : (s.setCtx p c x).upd = s.upd := rfl
@[simp] theorem setCtx_fences (p c : Nat) (x : Ctx) : (s.setCtx p c x).fences = s.fences := rfl
@[simp] theorem setCtx_memLogged (p c : Nat) (x : Ctx) : (s.setCtx p c x).memLogged = s.memLogged := rfl
@[simp] theorem setCtx_graft (p c : Nat) (x : Ctx) : (s.setCtx p c x).graft = s.graft := rfl

/-! ### State.setJob -/

@[simp] theorem setJob_pending (j : Nat) (x : Job) : (s.setJob j x).pending = s.pending := rfl
@[simp] theorem setJob_regs (j : Nat) (x : Job) : (s.setJob j x).regs = s.regs := rfl
@[simp] theorem setJob_captured (j : Nat) (x : Job) : (s.setJob j x).captured = s.captured := rfl
@[simp] theorem setJob_freeCtr (j : Nat) (x : Job) : (s.setJob j x).freeCtr = s.freeCtr := rfl
@[simp] theorem setJob_outs (j : Nat) (x : Job) : (s.setJob j x).outs = s.outs := rfl
@[simp] theorem setJob_mbx (j : Nat) (x : Job) : (s.setJob j x).mbx = s.mbx := rfl
@[simp] theorem setJob_hedge (j : Nat) (x : Job) : (s.setJob j x).hedge = s.hedge := rfl
@[simp] theorem setJob_link (j : Nat) (x : Job) : (s.setJob j x).link = s.link := rfl
@[simp] theorem setJob_flash (j : Nat) (x : Job) : (s.setJob j x).flash = s.flash := rfl
@[simp] theorem setJob_gov (j : Nat) (x : Job) : (s.setJob j x).gov = s.gov := rfl
@[simp] theorem setJob_boot (j : Nat) (x : Job) : (s.setJob j x).boot = s.boot := rfl
@[simp] theorem setJob_tenants (j : Nat) (x : Job) : (s.setJob j x).tenants = s.tenants := rfl
@[simp] theorem setJob_cloche (j : Nat) (x : Job) : (s.setJob j x).cloche = s.cloche := rfl
@[simp] theorem setJob_hbm (j : Nat) (x : Job) : (s.setJob j x).hbm = s.hbm := rfl
@[simp] theorem setJob_hbmPoison (j : Nat) (x : Job) : (s.setJob j x).hbmPoison = s.hbmPoison := rfl
@[simp] theorem setJob_hbmUndef (j : Nat) (x : Job) : (s.setJob j x).hbmUndef = s.hbmUndef := rfl
@[simp] theorem setJob_storeGen (j : Nat) (x : Job) : (s.setJob j x).storeGen = s.storeGen := rfl
@[simp] theorem setJob_plots (j : Nat) (x : Job) : (s.setJob j x).plots = s.plots := rfl
@[simp] theorem setJob_flights (j : Nat) (x : Job) : (s.setJob j x).flights = s.flights := rfl
@[simp] theorem setJob_qd (j : Nat) (x : Job) : (s.setJob j x).qd = s.qd := rfl
@[simp] theorem setJob_plotHold (j : Nat) (x : Job) : (s.setJob j x).plotHold = s.plotHold := rfl
@[simp] theorem setJob_tbls (j : Nat) (x : Job) : (s.setJob j x).tbls = s.tbls := rfl
@[simp] theorem setJob_shard (j : Nat) (x : Job) : (s.setJob j x).shard = s.shard := rfl
@[simp] theorem setJob_sieves (j : Nat) (x : Job) : (s.setJob j x).sieves = s.sieves := rfl
@[simp] theorem setJob_sieveLast (j : Nat) (x : Job) : (s.setJob j x).sieveLast = s.sieveLast := rfl
@[simp] theorem setJob_rwc (j : Nat) (x : Job) : (s.setJob j x).rwc = s.rwc := rfl
@[simp] theorem setJob_furrow (j : Nat) (x : Job) : (s.setJob j x).furrow = s.furrow := rfl
@[simp] theorem setJob_upd (j : Nat) (x : Job) : (s.setJob j x).upd = s.upd := rfl
@[simp] theorem setJob_fences (j : Nat) (x : Job) : (s.setJob j x).fences = s.fences := rfl
@[simp] theorem setJob_memLogged (j : Nat) (x : Job) : (s.setJob j x).memLogged = s.memLogged := rfl
@[simp] theorem setJob_graft (j : Nat) (x : Job) : (s.setJob j x).graft = s.graft := rfl

/-! ### State.setTbl -/

@[simp] theorem setTbl_pending (t : Nat) (x : Tbl) : (s.setTbl t x).pending = s.pending := rfl
@[simp] theorem setTbl_regs (t : Nat) (x : Tbl) : (s.setTbl t x).regs = s.regs := rfl
@[simp] theorem setTbl_captured (t : Nat) (x : Tbl) : (s.setTbl t x).captured = s.captured := rfl
@[simp] theorem setTbl_freeCtr (t : Nat) (x : Tbl) : (s.setTbl t x).freeCtr = s.freeCtr := rfl
@[simp] theorem setTbl_outs (t : Nat) (x : Tbl) : (s.setTbl t x).outs = s.outs := rfl
@[simp] theorem setTbl_mbx (t : Nat) (x : Tbl) : (s.setTbl t x).mbx = s.mbx := rfl
@[simp] theorem setTbl_hedge (t : Nat) (x : Tbl) : (s.setTbl t x).hedge = s.hedge := rfl
@[simp] theorem setTbl_link (t : Nat) (x : Tbl) : (s.setTbl t x).link = s.link := rfl
@[simp] theorem setTbl_flash (t : Nat) (x : Tbl) : (s.setTbl t x).flash = s.flash := rfl
@[simp] theorem setTbl_gov (t : Nat) (x : Tbl) : (s.setTbl t x).gov = s.gov := rfl
@[simp] theorem setTbl_boot (t : Nat) (x : Tbl) : (s.setTbl t x).boot = s.boot := rfl
@[simp] theorem setTbl_tenants (t : Nat) (x : Tbl) : (s.setTbl t x).tenants = s.tenants := rfl
@[simp] theorem setTbl_cloche (t : Nat) (x : Tbl) : (s.setTbl t x).cloche = s.cloche := rfl
@[simp] theorem setTbl_hbm (t : Nat) (x : Tbl) : (s.setTbl t x).hbm = s.hbm := rfl
@[simp] theorem setTbl_hbmPoison (t : Nat) (x : Tbl) : (s.setTbl t x).hbmPoison = s.hbmPoison := rfl
@[simp] theorem setTbl_hbmUndef (t : Nat) (x : Tbl) : (s.setTbl t x).hbmUndef = s.hbmUndef := rfl
@[simp] theorem setTbl_storeGen (t : Nat) (x : Tbl) : (s.setTbl t x).storeGen = s.storeGen := rfl
@[simp] theorem setTbl_plots (t : Nat) (x : Tbl) : (s.setTbl t x).plots = s.plots := rfl
@[simp] theorem setTbl_flights (t : Nat) (x : Tbl) : (s.setTbl t x).flights = s.flights := rfl
@[simp] theorem setTbl_qd (t : Nat) (x : Tbl) : (s.setTbl t x).qd = s.qd := rfl
@[simp] theorem setTbl_jobs (t : Nat) (x : Tbl) : (s.setTbl t x).jobs = s.jobs := rfl
@[simp] theorem setTbl_plotHold (t : Nat) (x : Tbl) : (s.setTbl t x).plotHold = s.plotHold := rfl
@[simp] theorem setTbl_shard (t : Nat) (x : Tbl) : (s.setTbl t x).shard = s.shard := rfl
@[simp] theorem setTbl_sieves (t : Nat) (x : Tbl) : (s.setTbl t x).sieves = s.sieves := rfl
@[simp] theorem setTbl_sieveLast (t : Nat) (x : Tbl) : (s.setTbl t x).sieveLast = s.sieveLast := rfl
@[simp] theorem setTbl_rwc (t : Nat) (x : Tbl) : (s.setTbl t x).rwc = s.rwc := rfl
@[simp] theorem setTbl_furrow (t : Nat) (x : Tbl) : (s.setTbl t x).furrow = s.furrow := rfl
@[simp] theorem setTbl_upd (t : Nat) (x : Tbl) : (s.setTbl t x).upd = s.upd := rfl
@[simp] theorem setTbl_fences (t : Nat) (x : Tbl) : (s.setTbl t x).fences = s.fences := rfl
@[simp] theorem setTbl_memLogged (t : Nat) (x : Tbl) : (s.setTbl t x).memLogged = s.memLogged := rfl
@[simp] theorem setTbl_graft (t : Nat) (x : Tbl) : (s.setTbl t x).graft = s.graft := rfl

/-! ### State.setGbuf -/

@[simp] theorem setGbuf_pending (k : Nat) (g : Gather) : (s.setGbuf k g).pending = s.pending := rfl
@[simp] theorem setGbuf_regs (k : Nat) (g : Gather) : (s.setGbuf k g).regs = s.regs := rfl
@[simp] theorem setGbuf_captured (k : Nat) (g : Gather) : (s.setGbuf k g).captured = s.captured := rfl
@[simp] theorem setGbuf_freeCtr (k : Nat) (g : Gather) : (s.setGbuf k g).freeCtr = s.freeCtr := rfl
@[simp] theorem setGbuf_outs (k : Nat) (g : Gather) : (s.setGbuf k g).outs = s.outs := rfl
@[simp] theorem setGbuf_mbx (k : Nat) (g : Gather) : (s.setGbuf k g).mbx = s.mbx := rfl
@[simp] theorem setGbuf_hedge (k : Nat) (g : Gather) : (s.setGbuf k g).hedge = s.hedge := rfl
@[simp] theorem setGbuf_link (k : Nat) (g : Gather) : (s.setGbuf k g).link = s.link := rfl
@[simp] theorem setGbuf_flash (k : Nat) (g : Gather) : (s.setGbuf k g).flash = s.flash := rfl
@[simp] theorem setGbuf_gov (k : Nat) (g : Gather) : (s.setGbuf k g).gov = s.gov := rfl
@[simp] theorem setGbuf_boot (k : Nat) (g : Gather) : (s.setGbuf k g).boot = s.boot := rfl
@[simp] theorem setGbuf_tenants (k : Nat) (g : Gather) : (s.setGbuf k g).tenants = s.tenants := rfl
@[simp] theorem setGbuf_cloche (k : Nat) (g : Gather) : (s.setGbuf k g).cloche = s.cloche := rfl
@[simp] theorem setGbuf_hbm (k : Nat) (g : Gather) : (s.setGbuf k g).hbm = s.hbm := rfl
@[simp] theorem setGbuf_hbmPoison (k : Nat) (g : Gather) : (s.setGbuf k g).hbmPoison = s.hbmPoison := rfl
@[simp] theorem setGbuf_hbmUndef (k : Nat) (g : Gather) : (s.setGbuf k g).hbmUndef = s.hbmUndef := rfl
@[simp] theorem setGbuf_storeGen (k : Nat) (g : Gather) : (s.setGbuf k g).storeGen = s.storeGen := rfl
@[simp] theorem setGbuf_plots (k : Nat) (g : Gather) : (s.setGbuf k g).plots = s.plots := rfl
@[simp] theorem setGbuf_flights (k : Nat) (g : Gather) : (s.setGbuf k g).flights = s.flights := rfl
@[simp] theorem setGbuf_qd (k : Nat) (g : Gather) : (s.setGbuf k g).qd = s.qd := rfl
@[simp] theorem setGbuf_jobs (k : Nat) (g : Gather) : (s.setGbuf k g).jobs = s.jobs := rfl
@[simp] theorem setGbuf_plotHold (k : Nat) (g : Gather) : (s.setGbuf k g).plotHold = s.plotHold := rfl
@[simp] theorem setGbuf_tbls (k : Nat) (g : Gather) : (s.setGbuf k g).tbls = s.tbls := rfl
@[simp] theorem setGbuf_shard (k : Nat) (g : Gather) : (s.setGbuf k g).shard = s.shard := rfl
@[simp] theorem setGbuf_sieveLast (k : Nat) (g : Gather) : (s.setGbuf k g).sieveLast = s.sieveLast := rfl
@[simp] theorem setGbuf_rwc (k : Nat) (g : Gather) : (s.setGbuf k g).rwc = s.rwc := rfl
@[simp] theorem setGbuf_furrow (k : Nat) (g : Gather) : (s.setGbuf k g).furrow = s.furrow := rfl
@[simp] theorem setGbuf_upd (k : Nat) (g : Gather) : (s.setGbuf k g).upd = s.upd := rfl
@[simp] theorem setGbuf_fences (k : Nat) (g : Gather) : (s.setGbuf k g).fences = s.fences := rfl
@[simp] theorem setGbuf_memLogged (k : Nat) (g : Gather) : (s.setGbuf k g).memLogged = s.memLogged := rfl
@[simp] theorem setGbuf_graft (k : Nat) (g : Gather) : (s.setGbuf k g).graft = s.graft := rfl

/-! ### hbmPutByte -/

@[simp] theorem hbmPutByte_pending (a : Nat) (b : Byte) : (hbmPutByte s a b).pending = s.pending := rfl
@[simp] theorem hbmPutByte_regs (a : Nat) (b : Byte) : (hbmPutByte s a b).regs = s.regs := rfl
@[simp] theorem hbmPutByte_captured (a : Nat) (b : Byte) : (hbmPutByte s a b).captured = s.captured := rfl
@[simp] theorem hbmPutByte_freeCtr (a : Nat) (b : Byte) : (hbmPutByte s a b).freeCtr = s.freeCtr := rfl
@[simp] theorem hbmPutByte_outs (a : Nat) (b : Byte) : (hbmPutByte s a b).outs = s.outs := rfl
@[simp] theorem hbmPutByte_mbx (a : Nat) (b : Byte) : (hbmPutByte s a b).mbx = s.mbx := rfl
@[simp] theorem hbmPutByte_hedge (a : Nat) (b : Byte) : (hbmPutByte s a b).hedge = s.hedge := rfl
@[simp] theorem hbmPutByte_link (a : Nat) (b : Byte) : (hbmPutByte s a b).link = s.link := rfl
@[simp] theorem hbmPutByte_flash (a : Nat) (b : Byte) : (hbmPutByte s a b).flash = s.flash := rfl
@[simp] theorem hbmPutByte_gov (a : Nat) (b : Byte) : (hbmPutByte s a b).gov = s.gov := rfl
@[simp] theorem hbmPutByte_boot (a : Nat) (b : Byte) : (hbmPutByte s a b).boot = s.boot := rfl
@[simp] theorem hbmPutByte_tenants (a : Nat) (b : Byte) : (hbmPutByte s a b).tenants = s.tenants := rfl
@[simp] theorem hbmPutByte_cloche (a : Nat) (b : Byte) : (hbmPutByte s a b).cloche = s.cloche := rfl
@[simp] theorem hbmPutByte_hbmPoison (a : Nat) (b : Byte) : (hbmPutByte s a b).hbmPoison = s.hbmPoison := rfl
@[simp] theorem hbmPutByte_hbmUndef (a : Nat) (b : Byte) : (hbmPutByte s a b).hbmUndef = s.hbmUndef := rfl
@[simp] theorem hbmPutByte_storeGen (a : Nat) (b : Byte) : (hbmPutByte s a b).storeGen = s.storeGen := rfl
@[simp] theorem hbmPutByte_plots (a : Nat) (b : Byte) : (hbmPutByte s a b).plots = s.plots := rfl
@[simp] theorem hbmPutByte_flights (a : Nat) (b : Byte) : (hbmPutByte s a b).flights = s.flights := rfl
@[simp] theorem hbmPutByte_qd (a : Nat) (b : Byte) : (hbmPutByte s a b).qd = s.qd := rfl
@[simp] theorem hbmPutByte_jobs (a : Nat) (b : Byte) : (hbmPutByte s a b).jobs = s.jobs := rfl
@[simp] theorem hbmPutByte_plotHold (a : Nat) (b : Byte) : (hbmPutByte s a b).plotHold = s.plotHold := rfl
@[simp] theorem hbmPutByte_tbls (a : Nat) (b : Byte) : (hbmPutByte s a b).tbls = s.tbls := rfl
@[simp] theorem hbmPutByte_shard (a : Nat) (b : Byte) : (hbmPutByte s a b).shard = s.shard := rfl
@[simp] theorem hbmPutByte_sieves (a : Nat) (b : Byte) : (hbmPutByte s a b).sieves = s.sieves := rfl
@[simp] theorem hbmPutByte_sieveLast (a : Nat) (b : Byte) : (hbmPutByte s a b).sieveLast = s.sieveLast := rfl
@[simp] theorem hbmPutByte_rwc (a : Nat) (b : Byte) : (hbmPutByte s a b).rwc = s.rwc := rfl
@[simp] theorem hbmPutByte_furrow (a : Nat) (b : Byte) : (hbmPutByte s a b).furrow = s.furrow := rfl
@[simp] theorem hbmPutByte_upd (a : Nat) (b : Byte) : (hbmPutByte s a b).upd = s.upd := rfl
@[simp] theorem hbmPutByte_fences (a : Nat) (b : Byte) : (hbmPutByte s a b).fences = s.fences := rfl
@[simp] theorem hbmPutByte_memLogged (a : Nat) (b : Byte) : (hbmPutByte s a b).memLogged = s.memLogged := rfl
@[simp] theorem hbmPutByte_graft (a : Nat) (b : Byte) : (hbmPutByte s a b).graft = s.graft := rfl

end Sys2Proof.Machine
end

