-- ==== Sys2Proof/Laws/Regs.lean ====
section
/-! SUPPORT. Laws of the register file: a field reads back what was written, cut to its width, and a write leaves every
field with another key alone. -/

namespace Sys2Proof.Machine

theorem rd_lt (s : State) (f : Field) (i : List Nat) : s.rd f i < 2 ^ f.wid := Nat.mod_lt _ (Nat.two_pow_pos _)

/-- Two states with the same register file read the same. -/
theorem rd_congr {s t : State} (h : t.regs = s.regs) (f : Field) (i : List Nat) : t.rd f i = s.rd f i := by
  unfold State.rd; rw [h]

theorem on_congr {s t : State} (h : t.regs = s.regs) (f : Field) (i : List Nat) : t.on f i = s.on f i := by
  unfold State.on; rw [rd_congr h]

/-- Read after write. -/
@[simp] theorem rd_wr_self (s : State) (f : Field) (i : List Nat) (v : Nat) : (s.wr f i v).rd f i = v % 2 ^ f.wid := by
  simp only [State.rd, State.wr, FMap.get_set_self, Nat.mod_mod]

/-- A write leaves every other key alone. -/
theorem rd_wr_ne (s : State) {f g : Field} {i j : List Nat} (v : Nat) (h : g.key j ≠ f.key i) :
    (s.wr f i v).rd g j = s.rd g j := by
  simp only [State.rd, State.wr, FMap.get_set_ne _ _ _ _ h]

theorem on_wr_ne (s : State) {f g : Field} {i j : List Nat} (v : Nat) (h : g.key j ≠ f.key i) :
    (s.wr f i v).on g j = s.on g j := by
  simp only [State.on, rd_wr_ne s v h]

@[simp] theorem rd_wrb_self (s : State) (f : Field) (i : List Nat) (b : Bool) :
    (s.wrb f i b).rd f i = b2n b % 2 ^ f.wid := rd_wr_self _ _ _ _

theorem rd_wrb_ne (s : State) {f g : Field} {i j : List Nat} (b : Bool) (h : g.key j ≠ f.key i) :
    (s.wrb f i b).rd g j = s.rd g j := rd_wr_ne _ _ h

@[simp] theorem rd_wrapInc_self (s : State) (f : Field) (i : List Nat) (n : Nat) :
    (s.wrapInc f i n).rd f i = (s.rd f i + n) % 2 ^ f.wid := rd_wr_self _ _ _ _

theorem rd_wrapInc_ne (s : State) {f g : Field} {i j : List Nat} (n : Nat) (h : g.key j ≠ f.key i) :
    (s.wrapInc f i n).rd g j = s.rd g j := rd_wr_ne _ _ h

@[simp] theorem rd_satInc_self (s : State) (f : Field) (i : List Nat) (n : Nat) :
    (s.satInc f i n).rd f i = satAdd f.wid (s.rd f i) n % 2 ^ f.wid := rd_wr_self _ _ _ _

theorem rd_satInc_ne (s : State) {f g : Field} {i j : List Nat} (n : Nat) (h : g.key j ≠ f.key i) :
    (s.satInc f i n).rd g j = s.rd g j := rd_wr_ne _ _ h

/-- Updates of other parts of the state leave every field alone. -/
@[simp] theorem rd_emit (s : State) (o : Out) (f : Field) (i : List Nat) : (s.emit o).rd f i = s.rd f i := rfl
@[simp] theorem rd_freeNext (s : State) (f : Field) (i : List Nat) : s.freeNext.rd f i = s.rd f i := rfl
@[simp] theorem rd_setSlot (s : State) (g k : Nat) (x : Slot) (f : Field) (i : List Nat) :
    (s.setSlot g k x).rd f i = s.rd f i := rfl
@[simp] theorem rd_setCmd (s : State) (c : Cmd) (f : Field) (i : List Nat) : (s.setCmd c).rd f i = s.rd f i := rfl
@[simp] theorem rd_setPort (s : State) (n : Nat) (p : Port) (f : Field) (i : List Nat) :
    (s.setPort n p).rd f i = s.rd f i := rfl
@[simp] theorem rd_setPlot (s : State) (p : Nat) (x : Plot) (f : Field) (i : List Nat) :
    (s.setPlot p x).rd f i = s.rd f i := rfl
@[simp] theorem rd_setSto (s : State) (p : Nat) (x : Stores) (f : Field) (i : List Nat) :
    (s.setSto p x).rd f i = s.rd f i := rfl
@[simp] theorem rd_setCtx (s : State) (p c : Nat) (x : Ctx) (f : Field) (i : List Nat) :
    (s.setCtx p c x).rd f i = s.rd f i := rfl
@[simp] theorem rd_setJob (s : State) (j : Nat) (x : Job) (f : Field) (i : List Nat) :
    (s.setJob j x).rd f i = s.rd f i := rfl
@[simp] theorem rd_hbmPutByte (s : State) (a : Nat) (b : Byte) (f : Field) (i : List Nat) :
    (hbmPutByte s a b).rd f i = s.rd f i := rfl

/-- What was put is what is held. -/
@[simp] theorem port_setPort_self (s : State) (n : Nat) (p : Port) : (s.setPort n p).port n = p :=
  FMap.get_put_self _ _ _ _
@[simp] theorem plot_setPlot_self (s : State) (p : Nat) (x : Plot) : (s.setPlot p x).plot p = x :=
  FMap.get_set_self _ _ _ _
@[simp] theorem slot_setSlot_self (s : State) (f i : Nat) (x : Slot) : (s.setSlot f i x).slot f i = x :=
  FMap.get_set_self _ _ _ _

theorem port_setPort_ne (s : State) {n m : Nat} (p : Port) (h : m ≠ n) : (s.setPort n p).port m = s.port m :=
  FMap.get_put_ne _ _ _ h
theorem plot_setPlot_ne (s : State) {p q : Nat} (x : Plot) (h : q ≠ p) : (s.setPlot p x).plot q = s.plot q :=
  FMap.get_set_ne _ _ _ _ h

/-- Every other byte of HBM is unchanged. -/
theorem hbmByte_put_ne (s : State) {a c : Nat} (b : Byte) (h : c ≠ a) : (hbmPutByte s a b).hbmByte c = s.hbmByte c := by
  have hu : (hbmPutByte s a b).undefAt c = s.undefAt c := rfl
  have hf : FMap.find (hbmPutByte s a b).hbm c = FMap.find s.hbm c := by
    unfold hbmPutByte
    dsimp only
    split
    · exact FMap.find_put_ne _ _ h
    · exact FMap.find_set_ne _ _ _ h
  unfold State.hbmByte
  rw [hf, hu]

/-- A byte of HBM reads back what was put. -/
theorem hbmByte_put_self (s : State) (a : Nat) (b : Byte) : (hbmPutByte s a b).hbmByte a = b := by
  have hu : (hbmPutByte s a b).undefAt a = s.undefAt a := rfl
  unfold State.hbmByte
  rw [hu]
  cases h : s.undefAt a with
  | some u => simp only [hbmPutByte, h, Option.isSome_some, if_true, FMap.find_put_self]
  | none =>
    by_cases hb : b = 0
    · simp [hbmPutByte, h, FMap.set, hb, FMap.find_erase_self]
    · have e : (hbmPutByte s a b).hbm = FMap.put s.hbm a b := by
        unfold hbmPutByte
        simp only [h, Option.isSome_none, Bool.false_eq_true, if_false]
        unfold FMap.set
        rw [if_neg hb]
      rw [e, FMap.find_put_self]

end Sys2Proof.Machine
end

