-- ==== Sys2Proof/Laws/Acs.lean ====
section
/-! SUPPORT. What starting an ACS command and staging its result do. -/

namespace Sys2Proof.Machine

theorem cmd?_place {s : State} {f i : Nat} {c : Cmd} (h : s.cmd? f i = some c) : c.func = f ∧ c.slot = i := by
  have := List.find?_some h
  simpa using this

/-- A command that may run now runs its action. -/
theorem acs_starts {s : State} {f i op : Nat} {c : Cmd} (h : Startable s f i op c) (act : State → Cmd → State) :
    acs s f i op act = act s c := by
  obtain ⟨h1, h2, ⟨h3, h3'⟩, ⟨h4, h4'⟩, h5, h6, h7⟩ := h
  have h8 : (c.needsCore && !s.coreUp) = false := by
    cases hn : c.needsCore with
    | false => rfl
    | true => simp [h7 hn]
  simp [acs, h1, h2, h3, h3', h4, h4', h5, h6, h8]

/-- A command that is turned away answers its status and changes nothing else. -/
theorem acs_refuses {s : State} {f i op : Nat} {c : Cmd} {x : Status × Nat × Nat} (h1 : s.cmd? f i = some c)
    (h2 : c.opcode = op) (h3 : c.started = false ∧ c.result = none) (h4 : s.fwRuns = true ∧ s.rd Reg.TOP_BOOTSTAT_STATE [] = 2)
    (h5 : s.mayStart c = true) (h6 : s.acsRefusal c = some x) (act : State → Cmd → State) :
    acs s f i op act = fail s c x.1 x.2.1 0 x.2.2 := by
  obtain ⟨a, b, d⟩ := x
  simp [acs, h1, h2, h3.1, h3.2, h4.1, h4.2, h5, h6]

theorem find?_setCmd_self (l : List Cmd) {f i : Nat} {c d : Cmd} (h : l.find? (fun x => x.func == f && x.slot == i) = some c)
    (hd : d.func = f ∧ d.slot = i) :
    (l.map (fun x => if x.func = d.func ∧ x.slot = d.slot then d else x)).find? (fun x => x.func == f && x.slot == i) = some d := by
  induction l with
  | nil => simp at h
  | cons x l ih =>
    by_cases hx : x.func = f ∧ x.slot = i
    · simp [List.find?, hd.1, hd.2, hx.1, hx.2]
    · have h0 : (x.func == f && x.slot == i) = false := by simpa using hx
      rw [List.find?_cons, h0] at h
      have h1 : ¬ (x.func = d.func ∧ x.slot = d.slot) := by rw [hd.1, hd.2]; exact hx
      rw [List.map_cons, if_neg h1, List.find?_cons, h0]
      exact ih h

theorem find?_setCmd_ne (l : List Cmd) {f i g k : Nat} {d : Cmd} (hd : d.func = f ∧ d.slot = i) (hne : g ≠ f ∨ k ≠ i) :
    (l.map (fun x => if x.func = d.func ∧ x.slot = d.slot then d else x)).find? (fun x => x.func == g && x.slot == k)
      = l.find? (fun x => x.func == g && x.slot == k) := by
  induction l with
  | nil => rfl
  | cons x l ih =>
    by_cases hx : x.func = d.func ∧ x.slot = d.slot
    · have h1 : (d.func == g && d.slot == k) = false := by
        simp only [Bool.and_eq_false_iff, beq_eq_false_iff_ne]
        rcases hne with h | h
        · left; omega
        · right; omega
      have h2 : (x.func == g && x.slot == k) = false := by rw [hx.1, hx.2]; exact h1
      rw [List.map_cons, if_pos hx, List.find?_cons, List.find?_cons, h1, h2]
      exact ih
    · rw [List.map_cons, if_neg hx, List.find?_cons, List.find?_cons, ih]

/-- Staging a result for a fetched command changes that command alone. -/
theorem finish_answers {s : State} {f i : Nat} {c : Cmd} (h : s.cmd? f i = some c) (st : Status) (body : List Byte) :
    Answers s (s.finish f i st body) f i st body := by
  have hp := cmd?_place h
  have e : s.finish f i st body = s.setCmd { c with started := true, waiting := false, result := some (st.code, body) } := by
    simp only [State.finish, h]
  rw [e]
  refine ⟨?_, ?_, rfl⟩
  · refine congrArg (fun o => Option.bind o (·.result)) (find?_setCmd_self s.mbx.cmds (d := { c with
      started := true, waiting := false, result := some (st.code, body) }) h hp)
  · intro g k hne
    exact find?_setCmd_ne s.mbx.cmds hp hne

theorem done_answers {s : State} {f i : Nat} {c : Cmd} (h : s.cmd? f i = some c) (body : List Byte) :
    Answers s (done s c body) f i .ok body := by
  have hp := cmd?_place h
  show Answers s (s.finish c.func c.slot .ok body) f i .ok body
  rw [hp.1, hp.2]
  exact finish_answers h .ok body

theorem fail_answers {s : State} {f i : Nat} {c : Cmd} (h : s.cmd? f i = some c) (st : Status) (field sub value : Nat) :
    Answers s (fail s c st field sub value) f i st (failBody field sub value) := by
  have hp := cmd?_place h
  show Answers s (s.finish c.func c.slot st (failBody field sub value)) f i st _
  rw [hp.1, hp.2]
  exact finish_answers h st _

/-- Writing a register leaves the fetched commands. -/
@[simp] theorem cmd?_wr (s : State) (x : Field) (j : List Nat) (v f i : Nat) : (s.wr x j v).cmd? f i = s.cmd? f i := rfl
@[simp] theorem cmd?_wrb (s : State) (x : Field) (j : List Nat) (v : Bool) (f i : Nat) : (s.wrb x j v).cmd? f i = s.cmd? f i := rfl

end Sys2Proof.Machine
end

