-- ==== Sys2Proof/Laws/Hedge.lean ====
section
/-! SUPPORT. What raising a request, posting an event and sending a vector can do: they write the pages of the functions
and Hedge's own registers (addresses 0x100000 to 0x22FFFF), the event queues, the pending vectors and what is sent
outside, and nothing else. -/

namespace Sys2Proof.Machine

theorem Quiet.refl (s : State) : Quiet s s := ⟨rfl, fun _ _ _ => rfl⟩

theorem Quiet.trans {a b c : State} (h : Quiet a b) (g : Quiet b c) : Quiet a c :=
  ⟨g.still.trans h.still, fun f i o => (g.regs f i o).trans (h.regs f i o)⟩

/-- Writing a field inside the pages or Hedge. -/
theorem Quiet.wr {a s : State} (h : Quiet a s) (f : Field) (i : List Nat) (v : Nat)
    (hi : 0x100000 * 128 ≤ f.key i ∧ f.key i < 0x230000 * 128) : Quiet a (s.wr f i v) := by
  refine ⟨h.still, fun g j o => ?_⟩
  rw [rd_wr_ne, h.regs g j o]
  unfold outside at o
  omega

/-- Changing only what requests and events may change, registers apart. -/
theorem Quiet.set {a s t : State} (h : Quiet a s) (hr : t.regs = s.regs) (hs : t.still = s.still) : Quiet a t :=
  ⟨hs.trans h.still, fun f i o => (rd_congr hr f i).trans (h.regs f i o)⟩

theorem Quiet.foldl {α : Type} {a : State} (g : State → α → State) (hg : ∀ s x, Quiet a s → Quiet a (g s x)) (l : List α)
    {s : State} (h : Quiet a s) : Quiet a (l.foldl g s) := by
  induction l generalizing s with
  | nil => exact h
  | cons x r ih => exact ih (hg s x h)

/-- The register and the rest of the state, read off. -/
theorem Quiet.link {s t : State} (h : Quiet s t) : t.link = s.link :=
  (congrArg State.link h.still : t.still.link = s.still.link)
theorem Quiet.flash {s t : State} (h : Quiet s t) : t.flash = s.flash :=
  (congrArg State.flash h.still : t.still.flash = s.still.flash)
theorem Quiet.gov {s t : State} (h : Quiet s t) : t.gov = s.gov :=
  (congrArg State.gov h.still : t.still.gov = s.still.gov)
theorem Quiet.boot {s t : State} (h : Quiet s t) : t.boot = s.boot :=
  (congrArg State.boot h.still : t.still.boot = s.still.boot)
theorem Quiet.cloche {s t : State} (h : Quiet s t) : t.cloche = s.cloche :=
  (congrArg State.cloche h.still : t.still.cloche = s.still.cloche)
theorem Quiet.hbm {s t : State} (h : Quiet s t) : t.hbm = s.hbm :=
  (congrArg State.hbm h.still : t.still.hbm = s.still.hbm)
theorem Quiet.hbmUndef {s t : State} (h : Quiet s t) : t.hbmUndef = s.hbmUndef :=
  (congrArg State.hbmUndef h.still : t.still.hbmUndef = s.still.hbmUndef)
theorem Quiet.plots {s t : State} (h : Quiet s t) : t.plots = s.plots :=
  (congrArg State.plots h.still : t.still.plots = s.still.plots)
theorem Quiet.jobs {s t : State} (h : Quiet s t) : t.jobs = s.jobs :=
  (congrArg State.jobs h.still : t.still.jobs = s.still.jobs)
theorem Quiet.pending {s t : State} (h : Quiet s t) : t.pending = s.pending :=
  (congrArg State.pending h.still : t.still.pending = s.still.pending)
theorem Quiet.captured {s t : State} (h : Quiet s t) : t.captured = s.captured :=
  (congrArg State.captured h.still : t.still.captured = s.still.captured)
theorem Quiet.slots {s t : State} (h : Quiet s t) : t.mbx.slots = s.mbx.slots :=
  (congrArg (fun x => x.mbx.slots) h.still : t.still.mbx.slots = s.still.mbx.slots)
theorem Quiet.cmds {s t : State} (h : Quiet s t) : t.mbx.cmds = s.mbx.cmds :=
  (congrArg (fun x => x.mbx.cmds) h.still : t.still.mbx.cmds = s.still.mbx.cmds)
theorem Quiet.on {s t : State} (h : Quiet s t) (f : Field) (i : List Nat) (o : outside (f.key i)) : t.on f i = s.on f i := by
  unfold State.on; rw [h.regs f i o]

/-! ### The operations -/

theorem sendVector_quiet {a s : State} (h : Quiet a s) {f v : Nat} (hf : f < 16) (hv : v < 128) :
    Quiet a (sendVector s f v) := by
  unfold sendVector
  dsimp only
  split
  · exact h.set rfl rfl
  · refine (h.wr _ _ _ ?_).set rfl rfl
    simp only [Reg.HDG_VSTAT_MSGS, Field.key, Field.addr, dotIdx]
    omega

theorem closeWindow_quiet {a s : State} (h : Quiet a s) {f v : Nat} (hf : f < 16) (hv : v < 128) :
    Quiet a (closeWindow s f v) := by
  unfold closeWindow
  dsimp only
  have hc : 0x100000 * 128 ≤ Reg.HDG_VSTAT_COUNT.key [f, v] ∧ Reg.HDG_VSTAT_COUNT.key [f, v] < 0x230000 * 128 := by
    simp only [Reg.HDG_VSTAT_COUNT, Field.key, Field.addr, dotIdx]; omega
  have ho : 0x100000 * 128 ≤ Reg.HDG_VSTAT_OPEN.key [f, v] ∧ Reg.HDG_VSTAT_OPEN.key [f, v] < 0x230000 * 128 := by
    simp only [Reg.HDG_VSTAT_OPEN, Field.key, Field.addr, dotIdx]; omega
  have h1 : Quiet a { s with hedge := { s.hedge with wins := FMap.erase s.hedge.wins (f * 128 + v) } } := h.set rfl rfl
  exact sendVector_quiet ((h1.wr _ _ _ hc).wr _ _ _ ho) hf hv

theorem vectorRequest_quiet {a s : State} (h : Quiet a s) {f v : Nat} (idle : Bool) (hf : f < 16) (hv : v < 128) :
    Quiet a (vectorRequest s f v idle) := by
  have hc : 0x100000 * 128 ≤ Reg.HDG_VSTAT_COUNT.key [f, v] ∧ Reg.HDG_VSTAT_COUNT.key [f, v] < 0x230000 * 128 := by
    simp only [Reg.HDG_VSTAT_COUNT, Field.key, Field.addr, dotIdx]; omega
  have ho : 0x100000 * 128 ≤ Reg.HDG_VSTAT_OPEN.key [f, v] ∧ Reg.HDG_VSTAT_OPEN.key [f, v] < 0x230000 * 128 := by
    simp only [Reg.HDG_VSTAT_OPEN, Field.key, Field.addr, dotIdx]; omega
  unfold vectorRequest
  split
  · exact sendVector_quiet h hf hv
  · split
    · exact h
    · split
      · dsimp only
        split
        · exact closeWindow_quiet (h.wr _ _ _ hc) hf hv
        · exact h.wr _ _ _ hc
      · split
        · exact sendVector_quiet h hf hv
        · have h1 : ∀ w, Quiet a { s with hedge := { s.hedge with wins := w } } := fun w => h.set rfl rfl
          dsimp only
          split
          · exact closeWindow_quiet (((h1 _).wr _ _ _ hc).wr _ _ _ ho) hf hv
          · exact ((h1 _).wr _ _ _ hc).wr _ _ _ ho

theorem evqWrite_quiet {a s : State} (h : Quiet a s) {f : Nat} (src data : Nat) (hf : f < 16) :
    Quiet a (evqWrite s f src data) := by
  unfold evqWrite
  dsimp only
  refine (h.wr Reg.MBX_EVQ_PI_PI [f] _ ?_).set rfl rfl
  simp only [Reg.MBX_EVQ_PI_PI, Field.key, Field.addr, dotIdx]; omega

theorem evqLose_quiet {a s : State} (h : Quiet a s) {f : Nat} (hf : f < 16) : Quiet a (evqLose s f) := by
  unfold evqLose State.satInc
  dsimp only
  refine (h.wr Reg.MBX_EVQ_LOST_COUNT [f] _ ?_).set rfl rfl
  simp only [Reg.MBX_EVQ_LOST_COUNT, Field.key, Field.addr, dotIdx]; omega

theorem evqPostLost_quiet {a s : State} (h : Quiet a s) {f : Nat} (hf : f < 16) : Quiet a (evqPostLost s f) := by
  unfold evqPostLost
  dsimp only
  split
  · exact h
  · have h1 : ∀ n m, Quiet a { evqWrite s f 0 n with mbx := { (evqWrite s f 0 n).mbx with lostSince := m } } :=
      fun n m => (evqWrite_quiet h 0 n hf).set rfl rfl
    exact vectorRequest_quiet (h1 _ _) _ hf (by decide)

theorem evqPost_quiet {a s : State} (h : Quiet a s) {f : Nat} (src data : Nat) (hf : f < 16) :
    Quiet a (evqPost s f src data) := by
  unfold evqPost
  dsimp only
  split
  · exact evqWrite_quiet (evqPostLost_quiet h hf) _ _ hf
  · exact evqLose_quiet (evqPostLost_quiet h hf) hf

theorem hedgeDecide_quiet {a s : State} (h : Quiet a s) : Quiet a (hedgeDecide s) := by
  unfold hedgeDecide
  dsimp only
  exact ((((h.wr _ _ _ (by decide)).wr _ _ _ (by decide)).wr _ _ _ (by decide)).wr _ _ _ (by decide)).set rfl rfl

theorem hostCopy_quiet {a s : State} (h : Quiet a s) (i : Nat) : Quiet a (hostCopy s i) := by
  unfold hostCopy
  dsimp only
  split
  · exact vectorRequest_quiet (evqPost_quiet h _ _ (rd_lt s Reg.HDG_SRC_FUNC [i])) _ (rd_lt s Reg.HDG_SRC_FUNC [i])
      (rd_lt s Reg.HDG_SRC_VECTOR [i])
  · exact h

/-- The fields of a source's register lie inside Hedge. -/
theorem srcKey {f : Field} {i : Nat} (hb : f.base = 0x210000) (hs : f.strides = [8]) (hl : f.lo < 128) (hi : i < 1023) :
    0x100000 * 128 ≤ f.key [i] ∧ f.key [i] < 0x230000 * 128 := by
  simp only [Field.key, Field.addr, hb, hs, dotIdx]
  omega

theorem hedgeLevel_quiet {a s : State} (h : Quiet a s) {i : Nat} (level : Bool) (data : Nat) (hi : i < 1023) :
    Quiet a (hedgeLevel s i level data) := by
  have w : ∀ {t : State} (f : Field) (v : Nat), f.base = 0x210000 → f.strides = [8] → f.lo < 128 → Quiet a t →
      Quiet a (t.wr f [i] v) := fun f v b c d q => q.wr f [i] v (srcKey b c d hi)
  unfold hedgeLevel
  dsimp only
  split
  · exact h
  · refine hedgeDecide_quiet ?_
    have h1 : Quiet a (s.wrb Reg.HDG_SRC_LEVEL [i] level) := w _ _ rfl rfl (by decide) h
    have h2 : Quiet a (if level = true then (s.wrb Reg.HDG_SRC_LEVEL [i] level).wr Reg.HDG_SRC_DATA [i] data
        else s.wrb Reg.HDG_SRC_LEVEL [i] level) := by
      split
      · exact w _ _ rfl rfl (by decide) h1
      · exact h1
    revert h2
    generalize (if level = true then (s.wrb Reg.HDG_SRC_LEVEL [i] level).wr Reg.HDG_SRC_DATA [i] data
        else s.wrb Reg.HDG_SRC_LEVEL [i] level) = u
    intro h2
    have h3 : ∀ t : State, Quiet a t → ∀ b : Bool, Quiet a (if b = true then hostCopy t i else t) := by
      intro t ht b
      split
      · exact hostCopy_quiet ht i
      · exact ht
    apply h3
    split
    · split
      · exact h2
      · exact w _ _ rfl rfl (by decide) h2
    · split
      · exact h2
      · exact w _ _ rfl rfl (by decide) h2
    · split
      · exact w _ _ rfl rfl (by decide) h2
      · exact h2
    · split
      · exact h2
      · exact w _ _ rfl rfl (by decide) h2
    · exact w _ _ rfl rfl (by decide) h2

theorem hedgeEvent_quiet {a s : State} (h : Quiet a s) {i : Nat} (data : Nat) (hi : i < 1023) :
    Quiet a (hedgeEvent s i data) := by
  have w : ∀ {t : State} (f : Field) (v : Nat), f.base = 0x210000 → f.strides = [8] → f.lo < 128 → Quiet a t →
      Quiet a (t.wr f [i] v) := fun f v b c d q => q.wr f [i] v (srcKey b c d hi)
  have hh : ∀ t : State, Quiet a t → Quiet a (pulseHigh t i) := by
    intro t ht
    unfold pulseHigh
    split
    · refine hedgeDecide_quiet ?_
      split
      · exact ht
      · exact w _ _ rfl rfl (by decide) ht
    · exact ht
  have hl : ∀ t : State, Quiet a t → Quiet a (pulseLow t i) := by
    intro t ht
    unfold pulseLow
    dsimp only
    split
    · exact ht
    · exact w _ _ rfl rfl (by decide) ht
  exact hedgeDecide_quiet (hostCopy_quiet (hl _ (hh _ (w _ _ rfl rfl (by decide) h))) i)

theorem hostViolation_quiet {a s : State} (h : Quiet a s) {f : Nat} (code detail off : Nat) (read : Bool) (hf : f < 16) :
    Quiet a (hostViolation s f code detail off read) := by
  have h0 : ∀ l, Quiet a { s with mbx := { s.mbx with vlog := l } } := fun l => h.set rfl rfl
  have k1 : 0x100000 * 128 ≤ Reg.MBX_VLOG_PI_PI.key [f] ∧ Reg.MBX_VLOG_PI_PI.key [f] < 0x230000 * 128 := by
    simp only [Reg.MBX_VLOG_PI_PI, Field.key, Field.addr, dotIdx]; omega
  have k2 : 0x100000 * 128 ≤ Reg.MBX_VIOL_CNT_COUNT.key [f] ∧ Reg.MBX_VIOL_CNT_COUNT.key [f] < 0x230000 * 128 := by
    simp only [Reg.MBX_VIOL_CNT_COUNT, Field.key, Field.addr, dotIdx]; omega
  have k3 : 0x100000 * 128 ≤ Reg.MBX_STATUS_LAST_CODE.key [f] ∧ Reg.MBX_STATUS_LAST_CODE.key [f] < 0x230000 * 128 := by
    simp only [Reg.MBX_STATUS_LAST_CODE, Field.key, Field.addr, dotIdx]; omega
  have k4 : 0x100000 * 128 ≤ Reg.MBX_STATUS_VIOL_SEQ.key [f] ∧ Reg.MBX_STATUS_VIOL_SEQ.key [f] < 0x230000 * 128 := by
    simp only [Reg.MBX_STATUS_VIOL_SEQ, Field.key, Field.addr, dotIdx]; omega
  exact sendVector_quiet (((((h0 _).wr _ _ _ k1).wr _ _ _ k2).wr _ _ _ k3).wr _ _ _ k4) hf (by decide)

theorem faultVector_quiet {a s : State} (h : Quiet a s) {f : Nat} (hf : f < 16) : Quiet a (faultVector s f) :=
  vectorRequest_quiet h true hf (by decide)

end Sys2Proof.Machine
end

