-- ==== Sys2Proof/Laws/Frames.lean ====
section
/-! SUPPORT. Frames over single registers, over ranges of registers written in a loop, and what writing log and fault
records can do. -/

namespace Sys2Proof.Machine

/-- A part of the state that is not the register file, read off two states that agree but for the register file. -/
theorem State.rest_part {s t : State} (h : t.rest = s.rest) {α : Type} (p : State → α) (hp : ∀ u : State, p u.rest = p u) :
    p t = p s := by rw [← hp t, h, hp s]

@[simp] theorem rest_wr (s : State) (f : Field) (i : List Nat) (v : Nat) : (s.wr f i v).rest = s.rest := rfl
@[simp] theorem rest_wrb (s : State) (f : Field) (i : List Nat) (b : Bool) : (s.wrb f i b).rest = s.rest := rfl
@[simp] theorem rest_wrapInc (s : State) (f : Field) (i : List Nat) (n : Nat) : (s.wrapInc f i n).rest = s.rest := rfl
@[simp] theorem rest_satInc (s : State) (f : Field) (i : List Nat) (n : Nat) : (s.satInc f i n).rest = s.rest := rfl

/-! ### OnlyRegs -/

theorem OnlyRegs.refl (s : State) (ks : List Nat) : OnlyRegs s s ks := ⟨rfl, fun _ _ _ => rfl⟩

/-- Writing a field whose key is listed. -/
theorem OnlyRegs.wr {a s : State} {ks : List Nat} (h : OnlyRegs a s ks) (f : Field) (i : List Nat) (v : Nat)
    (hk : f.key i ∈ ks) : OnlyRegs a (s.wr f i v) ks := by
  refine ⟨h.rest, fun g j o => ?_⟩
  rw [rd_wr_ne, h.regs g j o]
  intro e
  exact o (e ▸ hk)

theorem OnlyRegs.wrb {a s : State} {ks : List Nat} (h : OnlyRegs a s ks) (f : Field) (i : List Nat) (b : Bool)
    (hk : f.key i ∈ ks) : OnlyRegs a (s.wrb f i b) ks := h.wr f i _ hk

theorem OnlyRegs.foldl {α : Type} {a : State} {ks : List Nat} (g : State → α → State) (l : List α)
    (hg : ∀ s x, x ∈ l → OnlyRegs a s ks → OnlyRegs a (g s x) ks) {s : State} (h : OnlyRegs a s ks) :
    OnlyRegs a (l.foldl g s) ks := by
  induction l generalizing s with
  | nil => exact h
  | cons x r ih => exact ih (fun s y hy => hg s y (.tail _ hy)) (hg s x (.head _) h)

/-- What a frame over registers says of the other parts. -/
theorem OnlyRegs.part {α : Type} {s t : State} {ks : List Nat} (h : OnlyRegs s t ks) (p : State → α)
    (hp : ∀ u, p u.rest = p u) : p t = p s := by
  rw [← hp t, h.rest, hp s]

/-! ### Registers out of reach -/

/-- `t` reads as `s` on every field whose key satisfies `P`. -/
def SameOn (P : Nat → Prop) (s t : State) : Prop := ∀ f i, P (f.key i) → t.rd f i = s.rd f i

theorem SameOn.refl (P : Nat → Prop) (s : State) : SameOn P s s := fun _ _ _ => rfl

theorem SameOn.trans {P : Nat → Prop} {a b c : State} (h : SameOn P a b) (g : SameOn P b c) : SameOn P a c :=
  fun f i o => (g f i o).trans (h f i o)

theorem SameOn.wr {P : Nat → Prop} {a s : State} (h : SameOn P a s) (f : Field) (i : List Nat) (v : Nat)
    (hk : ¬ P (f.key i)) : SameOn P a (s.wr f i v) := by
  intro g j o
  rw [rd_wr_ne, h g j o]
  intro e
  exact hk (e ▸ o)

theorem SameOn.set {P : Nat → Prop} {a s t : State} (h : SameOn P a s) (hr : t.regs = s.regs) : SameOn P a t :=
  fun f i o => (rd_congr hr f i).trans (h f i o)

theorem SameOn.foldl {α : Type} {P : Nat → Prop} {a : State} (g : State → α → State) (l : List α)
    (hg : ∀ s x, x ∈ l → SameOn P a s → SameOn P a (g s x)) {s : State} (h : SameOn P a s) :
    SameOn P a (l.foldl g s) := by
  induction l generalizing s with
  | nil => exact h
  | cons x r ih => exact ih (fun s y hy => hg s y (.tail _ hy)) (hg s x (.head _) h)

theorem SameOn.on {P : Nat → Prop} {s t : State} (h : SameOn P s t) (f : Field) (i : List Nat) (o : P (f.key i)) :
    t.on f i = s.on f i := by
  unfold State.on; rw [h f i o]

theorem Quiet.sameOn {s t : State} (h : Quiet s t) : SameOn outside s t := h.regs

/-! ### Flash and the log -/

/-- A state without its register file, flash and log bookkeeping. -/
def State.offFlash (s : State) : State := { s with regs := [], flash := {}, memLogged := [], freeCtr := 0 }

/-- The registers that writing records may change. -/
def logKeys : List Nat :=
  [Reg.FLC_RSV_PAGE.key [], Reg.FLC_RSV_VALID.key [], Reg.FLC_LOG_HEAD.key [], Reg.FLC_LOG_BASE.key [],
   Reg.FLC_LOG_SLOT.key [], Reg.FLC_STAT_BUSY0.key [], Reg.FLC_STAT_BUSY1.key [], Reg.TOP_FAULTLOG_WRITTEN.key [],
   Reg.TOP_FAULTLOG_DROPPED.key [], Reg.FLC_LOGSTAT_TORN.key [], Reg.FLC_LOGSTAT_RETIRED.key []]

/-- `t` differs from `s` only in flash, its log bookkeeping and the registers that show them. -/
structure Logged (s t : State) : Prop where
  rest : t.offFlash = s.offFlash
  regs : SameOn (· ∉ logKeys) s t

theorem Logged.refl (s : State) : Logged s s := ⟨rfl, SameOn.refl _ s⟩

theorem Logged.trans {a b c : State} (h : Logged a b) (g : Logged b c) : Logged a c :=
  ⟨g.rest.trans h.rest, h.regs.trans g.regs⟩

theorem Logged.wr {a s : State} (h : Logged a s) (f : Field) (i : List Nat) (v : Nat) (hk : f.key i ∈ logKeys) :
    Logged a (s.wr f i v) := ⟨h.rest, h.regs.wr f i v (fun o => o hk)⟩

theorem Logged.set {a s t : State} (h : Logged a s) (hr : t.regs = s.regs) (hs : t.offFlash = s.offFlash) : Logged a t :=
  ⟨hs.trans h.rest, h.regs.set hr⟩

theorem Logged.foldl {α : Type} {a : State} (g : State → α → State) (hg : ∀ s x, Logged a s → Logged a (g s x))
    (l : List α) {s : State} (h : Logged a s) : Logged a (l.foldl g s) := by
  induction l generalizing s with
  | nil => exact h
  | cons x r ih => exact ih (hg s x h)

theorem Logged.part {α : Type} {s t : State} (h : Logged s t) (p : State → α) (hp : ∀ u, p u.offFlash = p u) : p t = p s := by
  rw [← hp t, h.rest, hp s]

theorem flashPut_logged {a s : State} (h : Logged a s) (x : Nat) (l : List Byte) : Logged a (flashPut s x l) := by
  induction l generalizing s x with
  | nil => exact h
  | cons b r ih =>
    have h1 : ∀ y, Logged a { s with flash := y } := fun y => h.set rfl rfl
    exact ih (h1 _) _

theorem eraseSector_logged {a s : State} (h : Logged a s) (k : Nat) : Logged a (eraseSector s k) := h.set rfl rfl

theorem programSegment_logged {a s : State} (h : Logged a s) (x : Nat) (d : List Byte) : Logged a (programSegment s x d) :=
  flashPut_logged (s := { s with flash := { s.flash with undef := FMap.erase s.flash.undef (x / 64) } }) (h.set rfl rfl) _ _

theorem undefSegment_logged {a s : State} (h : Logged a s) (k : Nat) : Logged a (undefSegment s k) := h.set rfl rfl

theorem undefSector_logged {a s : State} (h : Logged a s) (k : Nat) : Logged a (undefSector s k) :=
  Logged.foldl _ (fun _ _ h => undefSegment_logged h _) _ h

theorem writeSwap_logged {a s : State} (h : Logged a s) (r : SwapRec) : Logged a (writeSwap s r).1 := by
  unfold writeSwap
  split
  · exact h
  · dsimp only
    split
    · exact eraseSector_logged (programSegment_logged h _ _) _
    · exact programSegment_logged h _ _

theorem writePersist_logged {a s : State} (h : Logged a s) (c : List Byte) : Logged a (writePersist s c) := by
  unfold writePersist
  exact flashPut_logged (eraseSector_logged h _) _ _

theorem setReserved_logged {a s : State} (h : Logged a s) : Logged a (setReserved s) := by
  unfold setReserved
  split
  · exact (h.wr _ _ _ (by decide)).wr _ _ _ (by decide)
  · exact h

theorem queueFlash_logged {a s : State} (h : Logged a s) (k : Nat) (op : FlashOp) : Logged a (queueFlash s k op) := by
  unfold queueFlash
  have h1 : ∀ x, Logged a { s with flash := x } := fun x => h.set rfl rfl
  split
  · exact (h1 _).wr _ _ _ (by decide)
  · exact (h1 _).wr _ _ _ (by decide)

theorem slideLog_logged {a s : State} (h : Logged a s) : Logged a (slideLog s) := by
  unfold slideLog
  dsimp only
  refine queueFlash_logged ?_ _ _
  have h1 : Logged a ((s.wr Reg.FLC_LOG_HEAD [] (s.logNext (s.rd Reg.FLC_LOG_HEAD []))).wr Reg.FLC_LOG_SLOT [] 0) :=
    (h.wr _ _ _ (by decide)).wr _ _ _ (by decide)
  split
  · exact h1
  · exact h1.wr _ _ _ (by decide)

theorem putRecord_logged {a s : State} (h : Logged a s) (x log kind : Nat) (body : List Byte) :
    Logged a (putRecord s x log kind body) := by
  have h1 := programSegment_logged h x (s.logBytes log kind body)
  unfold putRecord
  generalize programSegment s x (s.logBytes log kind body) = u at h1
  exact h1.set rfl rfl

theorem appendRecord_logged {a s : State} (h : Logged a s) (log kind : Nat) (body : List Byte) :
    Logged a (appendRecord s log kind body) := by
  unfold appendRecord
  have h1 : ∀ y, Logged a { s with flash := y } := fun y => h.set rfl rfl
  dsimp only
  split
  · exact h1 _
  · refine setReserved_logged ?_
    split
    · exact slideLog_logged (putRecord_logged h _ _ _ _)
    · exact (putRecord_logged h _ _ _ _).wr _ _ _ (by decide)

theorem flushLogWait_logged {a s : State} (h : Logged a s) : Logged a (flushLogWait s) := by
  have h1 : Logged a { s with flash := { s.flash with logWait := [] } } := h.set rfl rfl
  exact Logged.foldl _ (fun _ _ h => appendRecord_logged h _ _ _) _ h1

theorem countTorn_logged {a s : State} (h : Logged a s) : Logged a (countTorn s) := h.wr _ _ _ (by decide)

theorem faultRecord_logged {a s : State} (h : Logged a s) (kind : Nat) (body : List Byte) :
    Logged a (faultRecord s kind body) := by
  have h1 : ∀ x, Logged a { s with flash := x } := fun x => h.set rfl rfl
  have h2 : ∀ x n, Logged a (({ s with flash := x } : State).satInc Reg.TOP_FAULTLOG_DROPPED [] n) :=
    fun x n => (h1 x).wr _ _ _ (by decide)
  have h3 : ∀ x n, Logged a (({ s with flash := x } : State).satInc Reg.TOP_FAULTLOG_WRITTEN [] n) :=
    fun x n => (h1 x).wr _ _ _ (by decide)
  have h4 : ∀ (p : Prop) [Decidable p] (t u : State), Logged a t → Logged a u → Logged a (if p then t else u) := by
    intro p _ t u ht hu
    split
    · exact ht
    · exact hu
  exact h4 _ _ _ (h2 _ _) (appendRecord_logged (h3 _ _) _ _ _)

theorem memRecord_logged {a s : State} (h : Logged a s) (key wh unit agent func addr status : Nat) :
    Logged a (memRecord s key wh unit agent func addr status) := by
  unfold memRecord
  split
  · exact h
  · have h1 : ∀ x, Logged a { s with memLogged := x } := fun x => h.set rfl rfl
    exact faultRecord_logged (h1 _) _ _

theorem mountLog_logged {a s : State} (h : Logged a s) : Logged a (mountLog s) := by
  have h0 : ∀ t : State, Logged a t → ∀ x, Logged a { t with flash := x } := fun t g x => g.set rfl rfl
  have he : ∀ t : State, Logged a t → ∀ (c : Bool) (k : Nat), Logged a (if c = true then eraseSector t k else t) := by
    intro t g c k
    split
    · exact eraseSector_logged g k
    · exact g
  have hs : ∀ t : State, Logged a t → ∀ (n : Nat), Logged a (if n < 64 then t.wr Reg.FLC_LOG_SLOT [] n else slideLog t) := by
    intro t g n
    split
    · exact g.wr _ _ _ (by decide)
    · exact slideLog_logged g
  have hb : ∀ t : State, Logged a t → ∀ x y, Logged a ((t.wr Reg.FLC_LOG_BASE [] x).wr Reg.FLC_LOG_HEAD [] y) :=
    fun t g x y => (g.wr Reg.FLC_LOG_BASE [] x (by decide)).wr Reg.FLC_LOG_HEAD [] y (by decide)
  have hr : ∀ t : State, Logged a t → ∀ x, Logged a (t.wr Reg.FLC_LOGSTAT_RETIRED [] x) :=
    fun t g x => g.wr Reg.FLC_LOGSTAT_RETIRED [] x (by decide)
  exact flushLogWait_logged (setReserved_logged (hs _ (he _ (countTorn_logged (hb _ (h0 _ (hr _ (h0 _ h _) _) _) _ _)) _ _) _))

/-! ### Loops that write registers -/

/-- A loop of writes leaves every other field alone. -/
theorem rd_foldl_wr {α : Type} (f : Field) (i : α → List Nat) (v : State → α → Nat) (l : List α) (s : State)
    {g : Field} {j : List Nat} (h : ∀ x ∈ l, g.key j ≠ f.key (i x)) :
    (l.foldl (fun s x => s.wr f (i x) (v s x)) s).rd g j = s.rd g j := by
  induction l generalizing s with
  | nil => rfl
  | cons x r ih => rw [List.foldl_cons, ih _ (fun y hy => h y (.tail _ hy)), rd_wr_ne _ _ (h x (.head _))]

/-- A loop of writes changes registers only. -/
theorem rest_foldl_wr {α : Type} (f : α → Field) (i : α → List Nat) (v : State → α → Nat) (l : List α) (s : State) :
    (l.foldl (fun s x => s.wr (f x) (i x) (v s x)) s).rest = s.rest := by
  induction l generalizing s with
  | nil => rfl
  | cons x r ih => rw [List.foldl_cons, ih]; rfl

end Sys2Proof.Machine
end

