-- ==== Sys2Proof/Laws/Boot.lean ====
section
/-! SUPPORT. What a power-on reset keeps, and what strap capture writes. -/

namespace Sys2Proof.Machine

@[simp] theorem rd_boot (s : State) (b : Boot) (f : Field) (i : List Nat) :
    ({ s with boot := b } : State).rd f i = s.rd f i := rfl
@[simp] theorem rd_sramLost (s : State) (f : Field) (i : List Nat) : (sramLost s).rd f i = s.rd f i := rfl
@[simp] theorem rd_sramLostAll (s : State) (f : Field) (i : List Nat) : (sramLostAll s).rd f i = s.rd f i := rfl

/-- A field that is not copied keeps its value. -/
theorem keepFields_ne (s t : State) (l : List Field) (g : Field) (h : ∀ f ∈ l, g.key [] ≠ f.key []) :
    (keepFields s t l).rd g [] = t.rd g [] := by
  unfold keepFields
  induction l generalizing t with
  | nil => rfl
  | cons x r ih => rw [List.foldl_cons, ih _ (fun f hf => h f (.tail _ hf)), rd_wr_ne _ _ (h x (.head _))]

/-- A copied field reads as in the state it is copied from. -/
theorem keepFields_rd (s t : State) (l : List Field) (g : Field) (hm : g.key [] ∈ l.map (fun f => f.key []))
    (h : ∀ f ∈ l, f.key [] = g.key [] → f.wid = g.wid ∧ f.rst [] = g.rst []) :
    (keepFields s t l).rd g [] = s.rd g [] := by
  unfold keepFields
  induction l generalizing t with
  | nil => simp at hm
  | cons x r ih =>
    rw [List.foldl_cons]
    by_cases hr : g.key [] ∈ r.map (fun f => f.key [])
    · exact ih _ hr (fun f hf => h f (.tail _ hf))
    · have hx : x.key [] = g.key [] := by
        rcases List.mem_map.mp hm with ⟨y, hy, e⟩
        rcases List.mem_cons.mp hy with rfl | hy
        · exact e
        · exact absurd (List.mem_map.mpr ⟨y, hy, e⟩) hr
      have hn := keepFields_ne s (t.wr x [] (s.rd x [])) r g
        (fun f hf e => hr (List.mem_map.mpr ⟨f, hf, e.symm⟩))
      unfold keepFields at hn
      rw [hn]
      obtain ⟨hw, hd⟩ := h x (.head _) hx
      have e1 : ∀ u : State, u.rd x [] = u.rd g [] := by
        intro u; unfold State.rd; rw [hx, hw, hd]
      rw [← e1, ← e1, rd_wr_self, Nat.mod_eq_of_lt (rd_lt _ _ _)]

theorem keepFields_rest (s t : State) (l : List Field) : (keepFields s t l).rest = t.rest := by
  unfold keepFields
  induction l generalizing t with
  | nil => rfl
  | cons x r ih => rw [List.foldl_cons, ih]; rfl

theorem clearFields_rest (s : State) (l : List Field) : (clearFields s l).rest = s.rest := by
  unfold clearFields
  induction l generalizing s with
  | nil => rfl
  | cons x r ih => rw [List.foldl_cons, ih]; rfl

/-- A cleared field holds its reset value. -/
theorem clearFields_rd (s : State) (l : List Field) (g : Field) (hm : g.key [] ∈ l.map (fun f => f.key []))
    (h : ∀ f ∈ l, f.key [] = g.key [] → f.wid = g.wid ∧ f.rst [] = g.rst []) :
    (clearFields s l).rd g [] = g.rst [] % 2 ^ g.wid := by
  unfold clearFields
  induction l generalizing s with
  | nil => simp at hm
  | cons x r ih =>
    rw [List.foldl_cons]
    by_cases hr : g.key [] ∈ r.map (fun f => f.key [])
    · exact ih _ hr (fun f hf => h f (.tail _ hf))
    · have hx : x.key [] = g.key [] := by
        rcases List.mem_map.mp hm with ⟨y, hy, e⟩
        rcases List.mem_cons.mp hy with rfl | hy
        · exact e
        · exact absurd (List.mem_map.mpr ⟨y, hy, e⟩) hr
      have hn : ∀ t : State, (r.foldl (fun t f => t.wr f [] (f.rst [])) t).rd g [] = t.rd g [] := by
        clear ih hm h
        induction r with
        | nil => intro t; rfl
        | cons y q ih2 =>
          intro t
          have hy : g.key [] ≠ y.key [] := fun e => hr (List.mem_map.mpr ⟨y, .head _, e.symm⟩)
          have hq : ¬ g.key [] ∈ q.map (fun f => f.key []) := fun e => by
            rcases List.mem_map.mp e with ⟨z, hz, e⟩
            exact hr (List.mem_map.mpr ⟨z, .tail _ hz, e⟩)
          rw [List.foldl_cons, ih2 hq, rd_wr_ne _ _ hy]
      rw [hn]
      obtain ⟨hw, hd⟩ := h x (.head _) hx
      have e1 : ∀ u : State, u.rd x [] = u.rd g [] := by
        intro u; unfold State.rd; rw [hx, hw, hd]
      rw [← e1, rd_wr_self, hw, hd]

/-- Outside the kept fields a power-on reset leaves reset values. -/
theorem powerOnReset_rd (s : State) (g : Field) (h : ∀ f ∈ porKept, g.key [] ≠ f.key []) :
    (powerOnReset s).rd g [] = g.rst [] % 2 ^ g.wid := by
  unfold powerOnReset
  rw [rd_sramLost, keepFields_ne _ _ _ _ h]
  rfl

/-- A kept field keeps its value. -/
theorem powerOnReset_kept (s : State) (g : Field) (hm : g.key [] ∈ porKept.map (fun f => f.key []))
    (h : ∀ f ∈ porKept, f.key [] = g.key [] → f.wid = g.wid ∧ f.rst [] = g.rst []) :
    (powerOnReset s).rd g [] = s.rd g [] := by
  unfold powerOnReset
  rw [rd_sramLost, keepFields_rd _ _ _ _ hm h]

theorem powerOnReset_rest (s : State) : (powerOnReset s).rest = (sramLost (porBase s)).rest := by
  have e := keepFields_rest s (porBase s) porKept
  have h : ∀ u v : State, u.rest = v.rest → (sramLost u).rest = (sramLost v).rest := by
    intro u v h
    have : (sramLost u).rest = (sramLost u.rest).rest := rfl
    rw [this, h]; rfl
  unfold powerOnReset
  exact h _ _ e

theorem powerOnReset_parts (s : State) :
    (powerOnReset s).plots = [] ∧ (powerOnReset s).flash.bytes = s.flash.bytes ∧ (powerOnReset s).hbm = s.hbm := by
  have e := powerOnReset_rest s
  exact ⟨State.rest_part e State.plots (fun _ => rfl), State.rest_part e (fun s => s.flash.bytes) (fun _ => rfl),
    State.rest_part e State.hbm (fun _ => rfl)⟩

theorem FMap.find_dropWhere {α : Type} (m : FMap α) (a : Nat) (p : Nat → Bool) (h : p a = false) :
    FMap.find (FMap.dropWhere m p) a = FMap.find m a := by
  unfold FMap.dropWhere
  induction m with
  | nil => rfl
  | cons e r ih =>
    by_cases he : e.1 = a
    · simp [List.filter_cons, he, h, FMap.find]
    · by_cases hp : p e.1 = true
      · simp [List.filter_cons, hp, he, ih, FMap.find]
      · simp [List.filter_cons, hp, he, ih, FMap.find]

/-- The retained region of SRAM survives a power-on reset. -/
theorem powerOnReset_sram (s u : State) (hu : u.cloche = (powerOnReset s).cloche) (a : Nat) (h : retainedBase ≤ a) :
    u.sramByte a = s.sramByte a := by
  have h2 : ¬ a < retainedBase := Nat.not_lt.mpr h
  have h1 : ¬ a < 0x40000 := fun g => h2 (Nat.lt_trans g (by decide))
  have hc : u.cloche = (sramLost (porBase s)).cloche :=
    hu.trans (State.rest_part (powerOnReset_rest s) State.cloche (fun _ => rfl))
  have e1 : u.cloche.sram = FMap.dropWhere s.cloche.sram (fun a => decide (a < retainedBase)) :=
    (congrArg Cloche.sram hc).trans rfl
  have e2 : u.cloche.retGen = s.cloche.retGen := (congrArg Cloche.retGen hc).trans rfl
  have e3 := FMap.find_dropWhere s.cloche.sram a (fun a => decide (a < retainedBase)) (decide_eq_false h2)
  simp only [State.sramByte, if_neg h1, if_neg h2, e1, e2, e3]

/-- Holding the island in reset is a power-on reset but for the pin. -/
theorem holdInReset_rd (s : State) (f : Field) (i : List Nat) : (holdInReset s).rd f i = (powerOnReset s).rd f i := by
  unfold holdInReset
  generalize powerOnReset s = u
  rfl

theorem holdInReset_parts (s : State) :
    (holdInReset s).boot.porstN = false ∧ (holdInReset s).plots = [] ∧ (holdInReset s).flash.bytes = s.flash.bytes ∧
      (holdInReset s).hbm = s.hbm := by
  obtain ⟨h1, h2, h3⟩ := powerOnReset_parts s
  unfold holdInReset
  generalize powerOnReset s = u at h1 h2 h3 ⊢
  exact ⟨rfl, h1, h2, h3⟩

/-- What strap capture leaves in a scalar field. -/
theorem strapCapture_rd (s : State) (x : Straps) (g : Field)
    (h : ∀ n ∈ List.range 4, g.key [] ≠ Reg.CSK_STAT_D2D.key [n]) :
    (strapCapture s x).rd g [] =
      (((((((((s.wr Reg.TOP_STRAP_ROLE_PIN [] x.role.val).wr Reg.TOP_STRAP_ROLE [] (if x.role.val = 3 then 2 else x.role.val)).wrb
        Reg.TOP_STRAP_STRAP_ERR [] (x.role.val == 3)).wrb Reg.TOP_STRAP_HARV_CAP [] x.harvCap).wrb
        Reg.TOP_STRAP_D2D_SEL [] x.d2dSel).wrb Reg.TOP_STRAP_PKG_POS [] x.pkgPos).wr Reg.TOP_STRAP_SMB_ADDR [] x.smbAddr.val).wrb
        Reg.TOP_STRAP_TEST_EN [] x.testEn).wrb Reg.TOP_MODE_TEST_LOCK [] x.testEn).rd g [] :=
  rd_foldl_wr Reg.CSK_STAT_D2D (fun n => [n]) (fun _ _ => b2n x.d2dSel) (List.range 4) _ h

theorem strapCapture_rest (s : State) (x : Straps) : (strapCapture s x).rest = s.rest := by
  have h := fun u => rest_foldl_wr (fun _ => Reg.CSK_STAT_D2D) (fun n => [n]) (fun _ _ => b2n x.d2dSel) (List.range 4) u
  unfold strapCapture
  simp only [State.wrb] at h ⊢
  simp only [h, rest_wr]

end Sys2Proof.Machine
end

