-- ==== Sys2Proof/Laws/Memory.lean ====
section
/-! SUPPORT. Every operation on memory keeps its canonical form: writes of register fields, of HBM and of flash. -/

namespace Sys2Proof.Machine

/-- What the canonical form says, taken apart. -/
theorem State.memWf_iff (s : State) : s.memWf = true ↔ FMap.rising 0 s.regs = true ∧ FMap.rising 0 s.hbm = true ∧
    (∀ e, e ∈ s.hbm → e.2 ≠ 0 ∨ (s.undefAt e.1).isSome = true) ∧ FMap.wf s.flash.bytes 0xFF = true := by
  simp only [State.memWf, Bool.and_eq_true, List.all_eq_true, Bool.or_eq_true, bne_iff_ne, ne_eq]
  tauto

/-- The form rests on four parts of the state. -/
theorem State.memWf_congr {s t : State} (hr : t.regs = s.regs) (hh : t.hbm = s.hbm) (hu : t.hbmUndef = s.hbmUndef)
    (hf : t.flash.bytes = s.flash.bytes) : t.memWf = s.memWf := by
  simp only [State.memWf, State.undefAt, hr, hh, hu, hf]

/-! ### Registers -/

theorem State.memWf_regs {s : State} (h : s.memWf = true) {r : FMap Nat} (hr : FMap.rising 0 r = true) :
    ({ s with regs := r } : State).memWf = true := by
  rw [State.memWf_iff] at h ⊢
  exact ⟨hr, h.2⟩

theorem wr_memWf {s : State} (h : s.memWf = true) (f : Field) (i : List Nat) (v : Nat) : (s.wr f i v).memWf = true :=
  State.memWf_regs h (FMap.rising_set _ _ _ ((State.memWf_iff s).1 h).1)

theorem wrb_memWf {s : State} (h : s.memWf = true) (f : Field) (i : List Nat) (b : Bool) : (s.wrb f i b).memWf = true :=
  wr_memWf h f i _

theorem satInc_memWf {s : State} (h : s.memWf = true) (f : Field) (i : List Nat) (n : Nat) : (s.satInc f i n).memWf = true :=
  wr_memWf h f i _

theorem wrapInc_memWf {s : State} (h : s.memWf = true) (f : Field) (i : List Nat) (n : Nat) :
    (s.wrapInc f i n).memWf = true := wr_memWf h f i _

theorem resetRegs_memWf {s : State} (h : s.memWf = true) (p : Nat → Bool) : (s.resetRegs p).memWf = true :=
  State.memWf_regs h (FMap.rising_dropWhere _ ((State.memWf_iff s).1 h).1)

theorem foldl_memWf {α : Type} (g : State → α → State) (hg : ∀ s x, s.memWf = true → (g s x).memWf = true) (l : List α)
    {s : State} (h : s.memWf = true) : (l.foldl g s).memWf = true := by
  induction l generalizing s with
  | nil => exact h
  | cons x r ih => exact ih (hg s x h)

/-! ### HBM -/

theorem hbmPutByte_memWf {s : State} (h : s.memWf = true) (a : Nat) (b : Byte) : (hbmPutByte s a b).memWf = true := by
  rw [State.memWf_iff] at h ⊢
  obtain ⟨h1, h2, h3, h4⟩ := h
  have hu : ∀ k, (hbmPutByte s a b).undefAt k = s.undefAt k := fun _ => rfl
  refine ⟨h1, ?_, ?_, h4⟩
  · show FMap.rising 0 (if (s.undefAt a).isSome then FMap.put s.hbm a b else FMap.set s.hbm 0 a b) = true
    split
    · exact FMap.rising_put a b h2
    · exact FMap.rising_set 0 a b h2
  · intro e he
    rw [hu]
    have he' : e ∈ (if (s.undefAt a).isSome then FMap.put s.hbm a b else FMap.set s.hbm 0 a b) := he
    split at he'
    · rename_i ha
      rcases FMap.mem_put he' with rfl | he'
      · exact Or.inr ha
      · exact h3 e he'
    · unfold FMap.set at he'
      split at he'
      · exact h3 e (List.mem_of_mem_filter he')
      · rename_i hb
        rcases FMap.mem_put he' with rfl | he'
        · exact Or.inl hb
        · exact h3 e he'

theorem hbmPut_memWf {s : State} (h : s.memWf = true) (a : Nat) (d : List Byte) : (hbmPut s a d).memWf = true := by
  induction d generalizing s a with
  | nil => exact h
  | cons b r ih => exact ih (hbmPutByte_memWf h a b) (a + 1)

theorem hbmWrite_memWf {s : State} (h : s.memWf = true) (a : Nat) (d : List Byte) : (hbmWrite s a d).memWf = true := by
  have := hbmPut_memWf h a d
  rw [← this]
  exact State.memWf_congr rfl rfl rfl rfl

theorem undefHbm_memWf {s : State} (h : s.memWf = true) (a n : Nat) : (undefHbm s a n).memWf = true := by
  rw [State.memWf_iff] at h ⊢
  obtain ⟨h1, h2, h3, h4⟩ := h
  refine ⟨h1, FMap.rising_dropWhere (fun k => decide (a ≤ k ∧ k < a + n)) h2, ?_, h4⟩
  intro e he
  rcases h3 e (List.mem_of_mem_filter he) with h | h
  · exact Or.inl h
  · refine Or.inr ?_
    show (((a, n, s.freeCtr) :: s.hbmUndef).find? (fun u => decide (u.1 ≤ e.1 ∧ e.1 < u.1 + u.2.1))).isSome = true
    rw [List.find?_cons]
    split
    · rfl
    · exact h

/-! ### Flash -/

theorem State.memWf_flash {s : State} (h : s.memWf = true) {y : Flash} (hy : FMap.wf y.bytes 0xFF = true) :
    ({ s with flash := y } : State).memWf = true := by
  rw [State.memWf_iff] at h ⊢
  exact ⟨h.1, h.2.1, h.2.2.1, hy⟩

theorem flashPut_memWf {s : State} (h : s.memWf = true) (a : Nat) (d : List Byte) : (flashPut s a d).memWf = true := by
  induction d generalizing s a with
  | nil => exact h
  | cons b r ih => exact ih (State.memWf_flash h (FMap.wf_set _ _ _ ((State.memWf_iff s).1 h).2.2.2)) (a + 1)

theorem programSegment_memWf {s : State} (h : s.memWf = true) (a : Nat) (d : List Byte) :
    (programSegment s a d).memWf = true :=
  flashPut_memWf (s := { s with flash := { s.flash with undef := FMap.erase s.flash.undef (a / 64) } })
    (State.memWf_flash h ((State.memWf_iff s).1 h).2.2.2) a _

theorem eraseSector_memWf {s : State} (h : s.memWf = true) (k : Nat) : (eraseSector s k).memWf = true :=
  State.memWf_flash h (FMap.wf_dropWhere _ (fun a => a / 4096 == k) ((State.memWf_iff s).1 h).2.2.2)

theorem undefSegment_memWf {s : State} (h : s.memWf = true) (k : Nat) : (undefSegment s k).memWf = true := by
  rw [State.memWf_iff] at h ⊢
  exact ⟨h.1, h.2.1, h.2.2.1, FMap.wf_dropWhere _ (fun a => a / 64 == k) h.2.2.2⟩

theorem undefSector_memWf {s : State} (h : s.memWf = true) (k : Nat) : (undefSector s k).memWf = true :=
  foldl_memWf _ (fun _ _ h => undefSegment_memWf h _) _ h

/-! ### Shared operations that use no memory but the register file -/

theorem emit_memWf {s : State} (h : s.memWf = true) (o : Out) : (s.emit o).memWf = true := by
  rw [← h]; exact State.memWf_congr rfl rfl rfl rfl

theorem freeNext_memWf {s : State} (h : s.memWf = true) : s.freeNext.memWf = true := by
  rw [← h]; exact State.memWf_congr rfl rfl rfl rfl

theorem setCtx_memWf {s : State} (h : s.memWf = true) (p c : Nat) (x : Ctx) : (s.setCtx p c x).memWf = true := by
  rw [← h]; exact State.memWf_congr rfl rfl rfl rfl

theorem setPlot_memWf {s : State} (h : s.memWf = true) (p : Nat) (x : Plot) : (s.setPlot p x).memWf = true := by
  rw [← h]; exact State.memWf_congr rfl rfl rfl rfl

theorem setJob_memWf {s : State} (h : s.memWf = true) (j : Nat) (x : Job) : (s.setJob j x).memWf = true := by
  rw [← h]; exact State.memWf_congr rfl rfl rfl rfl

end Sys2Proof.Machine
end

