-- ==== Sys2Proof/WellFormed.lean ====
section
/-! DEFINITION. Which commands are well formed: operands within the widths that the tables of the spec give them. -/

namespace Sys2Proof

/-- A packet whose fields fit the header cell of R481 and whose body has LEN cells of 16 bytes. -/
def Packet.wf (p : Packet) : Bool :=
  decide (p.typ < 16 ∧ p.vc < 4 ∧ p.len < 32 ∧ p.dstDie < 256 ∧ p.srcDie < 256 ∧ p.dstAgent < 256 ∧ p.srcAgent < 256
    ∧ p.epoch < 2 ^ 16 ∧ p.tf < 2 ^ 64 ∧ p.body.length = 16 * p.len)

/-- A block whose header fields fit R474 and whose frame area has 400 bytes. -/
def Block.wf (b : Block) : Bool :=
  decide (b.kind < 256 ∧ b.seq < 2 ^ 16 ∧ b.ack < 2 ^ 16 ∧ b.epoch < 2 ^ 16 ∧ b.poolA < 16 ∧ b.poolB < 16
    ∧ b.cellsA < 2 ^ 12 ∧ b.cellsB < 2 ^ 12 ∧ b.firstHdr < 256 ∧ b.frame.length = 400)

/-- A LINK message whose fields fit the bytes of R497. -/
def LinkMsg.wf (m : LinkMsg) : Bool :=
  decide (m.serial < 2 ^ 64 ∧ m.pkgPos < 2 ∧ m.port < 8 ∧ m.role < 4 ∧ m.dieId < 256 ∧ m.epoch < 2 ^ 16
    ∧ m.lastSeq < 2 ^ 16) && m.naks.all (fun e => decide (e.1 < 256 ∧ e.2 < 2 ^ 16))

/-- A store access of whole rows: 256 bytes and a mask bit for each 4-byte word or fewer. -/
def StoreAccess.wf (a : StoreAccess) : Bool :=
  decide (a.agent < 16 ∧ a.ctx < 4 ∧ a.row < 2 ^ 15 ∧ a.data.length ≤ 256 ∧ a.mask.length ≤ 64)

/-- Fuses for 16 plots. -/
def Fuses.wf (x : Fuses) : Bool :=
  decide (x.good < 2 ^ 16 ∧ x.wsRows.length = 16 ∧ x.asRows.length = 16 ∧ x.psRows.length = 16)

/-- Well-formed commands. -/
def Instr.wf : Instr → Bool
  | .registerWrite _ addr len value => decide (addr < 2 ^ 26) && (len == 1 || len == 2 || len == 4 || len == 8) && decide (value < 2 ^ (8 * len))
  | .islandRailsUp => true
  | .porstNRise _ => true
  | .porstNFall => true
  | .porstNHoldoffExpiry => true
  | .refclkCheckTimeout => true
  | .bootImageVerified a b => decide (a.reason < 2 ^ 8 ∧ a.version < 2 ^ 32 ∧ a.secVersion < 2 ^ 32) && decide (b.reason < 2 ^ 8 ∧ b.version < 2 ^ 32 ∧ b.secVersion < 2 ^ 32)
  | .mainPgRise => true
  | .mainPgTimeout => true
  | .vcorePgRise fuses => Fuses.wf fuses
  | .vcorePgTimeout => true
  | .plotBistComplete fail => decide (fail < 2 ^ 16)
  | .hbmTrainingComplete best => decide (best.length = 6)
  | .hbmClearComplete => true
  | .runModeEntry => true
  | .perstNRelease => true
  | .pcieConfigReady => true
  | .hostReset _ => true
  | .flr _ => true
  | .pwrfailNFall => true
  | .powerCut => true
  | .mainLoss _ => true
  | .thermalTrip _ temp => decide (temp < 2 ^ 16)
  | .vcoreBrownout => true
  | .vidStep => true
  | .tsensUpdate _ temp => decide (temp < 2 ^ 16)
  | .replicaUpdate _ rate => decide (rate < 2 ^ 16)
  | .paceSnap _ => true
  | .paceAutoSnap => true
  | .paceSnapComplete => true
  | .commit _ _ => true
  | .discard _ _ => true
  | .stagedSetEffect _ => true
  | .directPairWrite _ _ _ value => decide (value < 2 ^ 32)
  | .doorbell _ pi => decide (pi < 2 ^ 16)
  | .ringEntryWrite _ offset data => decide (offset < 8192) && decide (data.length ≤ 2 ^ 32)
  | .retire _ _ tag => decide (tag < 2 ^ 16)
  | .ringEnable _ => true
  | .ringDisable _ => true
  | .evqEnable _ => true
  | .evqDisable _ => true
  | .evqCiWrite _ ci => decide (ci < 2 ^ 16)
  | .violCntClear _ => true
  | .evqLostClear _ => true
  | .commandFetch => true
  | .resultPost _ _ => true
  | .msixUnmask _ _ => true
  | .bar2Read _ offset len => decide (offset < 2 ^ 34) && decide (len < 2 ^ 32)
  | .bar2Write _ offset data enables => decide (offset < 2 ^ 34) && decide (data.length ≤ 2 ^ 32) && decide (enables.length = data.length)
  | .bar2Resize log2Size => decide (log2Size < 2 ^ 6)
  | .devInfo _ _ => true
  | .devReset _ _ => true
  | .fabricResetComplete => true
  | .fabricResetTimeout => true
  | .modeOpen _ _ => true
  | .modeRun _ _ => true
  | .tenantAssign _ _ => true
  | .winSet _ _ => true
  | .jobLoad _ _ buf => (match buf with | some l => decide (l.length < 2 ^ 32) | none => true)
  | .jobStart _ _ buf => (match buf with | some l => decide (l.length < 2 ^ 32) | none => true)
  | .jobStartHoldExpiry _ _ => true
  | .jobSubmit _ _ => true
  | .batchInputStage _ data => (match data with | some l => decide (l.length < 2 ^ 32) | none => true)
  | .batchInputCopied _ => true
  | .batchDoneSignal _ => true
  | .batchOutputCopied _ _ => true
  | .jobWait _ _ => true
  | .jobAbort _ _ => true
  | .jobAbortDrained _ => true
  | .jobUnload _ _ => true
  | .jobStatus _ _ => true
  | .tblDefine _ _ buf => (match buf with | some l => decide (l.length < 2 ^ 32) | none => true)
  | .tblDelete _ _ => true
  | .tblSync _ _ => true
  | .tblSwitch _ _ => true
  | .tableSwitchBoundary tkey => decide (tkey < 2 ^ 32)
  | .tblStats _ _ => true
  | .calScales _ _ buf => (match buf with | some l => decide (l.length < 2 ^ 32) | none => true)
  | .calStats _ _ => true
  | .pwrStatus _ _ => true
  | .pwrTariff _ _ buf => (match buf with | some l => decide (l.length < 2 ^ 32) | none => true)
  | .pwrLimits _ _ => true
  | .pwrEnergy _ _ => true
  | .fwInfo _ _ img => decide (img.reason < 2 ^ 8 ∧ img.version < 2 ^ 32 ∧ img.secVersion < 2 ^ 32)
  | .fwWrite _ _ buf => (match buf with | some l => decide (l.length < 2 ^ 32) | none => true)
  | .fwVerify _ _ img => decide (img.reason < 2 ^ 8 ∧ img.version < 2 ^ 32 ∧ img.secVersion < 2 ^ 32)
  | .fwActivate _ _ img => decide (img.reason < 2 ^ 8 ∧ img.version < 2 ^ 32 ∧ img.secVersion < 2 ^ 32)
  | .fwSwap _ _ img => decide (img.reason < 2 ^ 8 ∧ img.version < 2 ^ 32 ∧ img.secVersion < 2 ^ 32)
  | .seamImageLoaded img => decide (img.reason < 2 ^ 8 ∧ img.version < 2 ^ 32 ∧ img.secVersion < 2 ^ 32)
  | .flashRead _ _ _ => true
  | .flashProgram _ _ buf => (match buf with | some l => decide (l.length < 2 ^ 32) | none => true)
  | .flashErase _ _ => true
  | .logRead _ _ _ => true
  | .evtRoute _ _ => true
  | .evtCoalesce _ _ => true
  | .diagEcho _ _ => true
  | .diagRegRead _ _ => true
  | .diagSelftest _ _ _ => true
  | .linkStatus _ _ => true
  | .linkSetId _ _ => true
  | .linkRoute _ _ buf => (match buf with | some l => decide (l.length < 2 ^ 32) | none => true)
  | .linkEnable _ _ => true
  | .install pkts => pkts.all Packet.wf && !pkts.isEmpty
  | .ready pkt => Packet.wf pkt
  | .go pkt => Packet.wf pkt
  | .startAbort pkt => Packet.wf pkt
  | .startTimeout _ => true
  | .release pkt => Packet.wf pkt
  | .epochAdvMessage pkt => Packet.wf pkt
  | .nop _ _ => true
  | .halt _ _ => true
  | .haltRetire _ _ => true
  | .setl _ _ => true
  | .loopDec _ _ => true
  | .jump _ _ => true
  | .ldt _ _ => true
  | .matmul _ _ => true
  | .arrayStep _ _ => true
  | .shadowLoadComplete _ => true
  | .blockComplete _ => true
  | .rescaleAct _ => true
  | .vop _ _ => true
  | .dma _ _ => true
  | .dmaDescriptorStart _ _ => true
  | .dmaRow _ _ => true
  | .gather _ _ => true
  | .collective _ _ => true
  | .wait _ _ => true
  | .signal _ _ => true
  | .fence _ _ => true
  | .fenceComplete _ _ => true
  | .remoteWriteSend _ _ => true
  | .rwrite pkt => Packet.wf pkt
  | .credit pkt => Packet.wf pkt
  | .creditReturn _ _ => true
  | .storeAccess _ acc => StoreAccess.wf acc
  | .coalescerIdleFlush _ _ => true
  | .storeScrub _ _ => true
  | .storeClear _ _ => true
  | .storeClearComplete _ => true
  | .debugRowRead _ _ _ => true
  | .debugRowWrite _ _ _ value => decide (value < 2 ^ 32)
  | .numClear _ _ mask => decide (mask < 2 ^ 8)
  | .srSeedWrite _ _ _ value => decide (value < 2 ^ 32)
  | .signalDelivery pkt => Packet.wf pkt
  | .ack pkt => Packet.wf pkt
  | .nak pkt => Packet.wf pkt
  | .qdArm _ _ value => decide (value < 2 ^ 32)
  | .qdDisarm _ _ => true
  | .qdWindowExpiry _ => true
  | .quiet pkt => Packet.wf pkt
  | .probe pkt => Packet.wf pkt
  | .qdAnswer pkt => Packet.wf pkt
  | .verdict pkt => Packet.wf pkt
  | .sieveBufferGrant _ => true
  | .sieveSortComplete _ _ => true
  | .waveStart _ _ => true
  | .greq pkts => pkts.all Packet.wf && !pkts.isEmpty
  | .furrowPartPooled _ => true
  | .scratch pkt => Packet.wf pkt
  | .bagCombine _ _ => true
  | .prefetchBatch _ => true
  | .pfetch pkts => pkts.all Packet.wf && !pkts.isEmpty
  | .rowCacheFill fill => decide (fill < 2 ^ 32)
  | .cacheDecay => true
  | .epochAdv _ => true
  | .invalAll _ => true
  | .rwcInvKey _ tkey => decide (tkey < 2 ^ 32)
  | .invalidationComplete => true
  | .update pkts => pkts.all Packet.wf && !pkts.isEmpty
  | .updateEnd pkt => Packet.wf pkt
  | .rowUpdate _ _ => true
  | .lease pkt => Packet.wf pkt
  | .writerStepTimeout tkey => decide (tkey < 2 ^ 32)
  | .rowLockTimeout _ => true
  | .blockTransmit _ => true
  | .dataBlock _ blk => Block.wf blk
  | .retryBlock _ blk => Block.wf blk
  | .linkMessage _ msg => LinkMsg.wf msg
  | .linkMessageSend _ => true
  | .portTrainRetry _ => true
  | .portTrained _ _ => true
  | .retrain _ => true
  | .cskRetrainRequest _ _ => true
  | .retrainComplete _ lastSeq => decide (lastSeq < 2 ^ 16)
  | .retrainTimeout _ => true
  | .unquar _ _ => true
  | .packetRoute => true
  | .packetLifetimeExpiry index => decide (index < 2 ^ 32)
  | .graftEgressBlock _ => true
  | .coll pkt => Packet.wf pkt
  | .graftWindowEnd _ slot => decide (slot < 2 ^ 16)
  | .verdictRound _ _ => true
  | .verdictRoundComplete _ _ => true
  | .listenEnter _ => true
  | .listenWake _ => true
  | .referenceStable => true
  | .rtcTick => true
  | .rtcAlarm => true
  | .rtcSet _ sec => decide (sec < 2 ^ 32)
  | .timerExpiry _ => true
  | .timerEnable _ _ => true
  | .timerDisable _ _ => true
  | .expClr _ _ => true
  | .kick _ => true
  | .watchdogExpiry => true
  | .gpiEdge _ _ => true
  | .spiStart _ => true
  | .spiComplete miso => decide (miso.length ≤ 4096)
  | .pdmSample _ sample => decide (sample < 2 ^ 16)
  | .cmeStart _ => true
  | .cmeMatmul _ => true
  | .cmeAdd _ => true
  | .cmeLut _ => true
  | .cmeCopy _ => true
  | .cmeRaise _ => true
  | .cmeEnd _ => true
  | .forecastRun => true
  | .dormantJobTrigger trigger input => decide (trigger < 2 ^ 8) && decide (input < 2 ^ 32)
  | .benchHalt _ => true
  | .benchResume _ => true
  | .benchStep _ => true
  | .sourceRequest _ _ data => decide (data < 2 ^ 32)
  | .coalesceWindowExpiry _ _ => true
  | .benchClaim _ => true
  | .benchComplete _ id => decide (id < 2 ^ 16)
  | .force _ _ => true
  | .pendingClear _ _ => true
  | .flcCtlErase _ => true
  | .flcCtlProgram _ => true
  | .sectorEraseComplete _ => true
  | .segmentProgramComplete _ _ => true
  | .rcvStatus _ => true
  | .rcvBegin data _ => decide (data.length ≤ 2 ^ 32)
  | .rcvData data _ => decide (data.length ≤ 2 ^ 32)
  | .rcvCommit data _ img => decide (data.length ≤ 2 ^ 32) && decide (img.reason < 2 ^ 8 ∧ img.version < 2 ^ 32 ∧ img.secVersion < 2 ^ 32)
  | .powerSample core board => decide (core < 2 ^ 12) && decide (board < 2 ^ 12)
  | .limiterStep => true
  | .governorLoop => true
  | .demandIntervalClose => true
  | .intervalLog => true
  | .acctEn => true
  | .smbusRegisterRead _ offset count => decide (offset < 2 ^ 34) && decide (count < 2 ^ 16)
  | .setEndpointId _ eid => decide (eid < 2 ^ 8)
  | .getEndpointId _ => true
  | .getEndpointUuid _ => true
  | .getMctpVersionSupport _ msgType => decide (msgType < 2 ^ 8)
  | .getMessageTypeSupport _ => true
  | .getVendorDefinedMessageSupport _ selector => decide (selector < 2 ^ 8)
  | .mctpUnsupportedCmd _ cmd => decide (cmd < 2 ^ 8)
  | .getPower _ => true
  | .getEnergy _ func back => decide (func < 2 ^ 8) && decide (back < 2 ^ 8)
  | .setTariff _ persist data => decide (persist < 2 ^ 8) && decide (data.length ≤ 2 ^ 32)
  | .setCap _ watts => decide (watts < 2 ^ 16)
  | .setTime _ sec => decide (sec < 2 ^ 32)
  | .readLog _ log first count _ => decide (log < 2 ^ 8) && decide (first < 2 ^ 32) && decide (count < 2 ^ 16)
  | .modelWrite _ addr data => decide (addr < 2 ^ 32) && decide (data.length ≤ 2 ^ 32)
  | .modelErase _ first count => decide (first < 2 ^ 32) && decide (count < 2 ^ 16)
  | .readResult _ area => decide (area < 2 ^ 8)
  | .mctpFwWrite _ offset data => decide (offset < 2 ^ 34) && decide (data.length ≤ 2 ^ 32)
  | .mctpFwActivate _ img => decide (img.reason < 2 ^ 8 ∧ img.version < 2 ^ 32 ∧ img.secVersion < 2 ^ 32)
  | .restart _ => true
  | .hbmScrub _ unit _ => decide (unit < 2 ^ 33)
  | .hbmControllerFault _ => true
  | .leaseFence _ trigger => decide (trigger < 2 ^ 8)
  | .drainExpiry index => decide (index < 2 ^ 32)
  | .pwrfailNRise => true
  | .islandRailsLoss => true
  | .rtcCrystalStop => true
  | .vfEnable n => decide (n < 2 ^ 5)
  | .vfDisable _ => true
  | .tckEdge _ _ _ _ pins => decide (pins < 2 ^ 64)

end Sys2Proof
end

