-- ==== Sys2Proof/Laws/PerInstr.lean ====
section
/-! SUPPORT. Statements made per command: a family is about the command as syntax. -/

namespace Sys2Proof.Laws.Shape

/-- Of the row of a command there is a well-formed command: no row is shut out by its own checks. -/
def Statement (i : Instr) : Prop := ∃ j : Instr, j.ctorIdx = i.ctorIdx ∧ j.wf = true

/-- Well-formed operands. -/
def aPacket : Packet := ⟨3, 2, 0, false, false, 1, 2, 192, 192, 0, 0, false, []⟩
def aBlock : Block := ⟨1, 0, 0, 0, 0, 0, 0, 0, 31, List.replicate 400 0, 0, false⟩
def someFuses : Fuses := ⟨0xFFFF, List.replicate 16 4096, List.replicate 16 4096, List.replicate 16 4096, 1, 0⟩
def aLinkMsg : LinkMsg := ⟨1, 0, 0, 0, 0, false, 0, false, false, 0, false, false, []⟩

theorem aBlock_wf : aBlock.wf = true := by
  unfold Block.wf
  simp only [aBlock, List.length_replicate]
  decide

theorem registerWrite (src : Src) (addr len value : Nat) : Statement (.registerWrite src addr len value) :=
  ⟨(.registerWrite .bench 0 4 0), rfl, by decide⟩
theorem islandRailsUp : Statement .islandRailsUp :=
  ⟨.islandRailsUp, rfl, by decide⟩
theorem porstNRise (straps : Straps) : Statement (.porstNRise straps) :=
  ⟨(.porstNRise ⟨0, false, false, false, 0, false⟩), rfl, by decide⟩
theorem porstNFall : Statement .porstNFall :=
  ⟨.porstNFall, rfl, by decide⟩
theorem porstNHoldoffExpiry : Statement .porstNHoldoffExpiry :=
  ⟨.porstNHoldoffExpiry, rfl, by decide⟩
theorem refclkCheckTimeout : Statement .refclkCheckTimeout :=
  ⟨.refclkCheckTimeout, rfl, by decide⟩
theorem bootImageVerified (a b : ImageCheck) : Statement (.bootImageVerified a b) :=
  ⟨(.bootImageVerified ⟨0, 0, 0⟩ ⟨0, 0, 0⟩), rfl, by decide⟩
theorem mainPgRise : Statement .mainPgRise :=
  ⟨.mainPgRise, rfl, by decide⟩
theorem mainPgTimeout : Statement .mainPgTimeout :=
  ⟨.mainPgTimeout, rfl, by decide⟩
theorem vcorePgRise (fuses : Fuses) : Statement (.vcorePgRise fuses) :=
  ⟨(.vcorePgRise someFuses), rfl, by decide⟩
theorem vcorePgTimeout : Statement .vcorePgTimeout :=
  ⟨.vcorePgTimeout, rfl, by decide⟩
theorem plotBistComplete (fail : Nat) : Statement (.plotBistComplete fail) :=
  ⟨(.plotBistComplete 0), rfl, by decide⟩
theorem hbmTrainingComplete (best : List Nat) : Statement (.hbmTrainingComplete best) :=
  ⟨(.hbmTrainingComplete (List.replicate 6 0)), rfl, by decide⟩
theorem hbmClearComplete : Statement .hbmClearComplete :=
  ⟨.hbmClearComplete, rfl, by decide⟩
theorem runModeEntry : Statement .runModeEntry :=
  ⟨.runModeEntry, rfl, by decide⟩
theorem perstNRelease : Statement .perstNRelease :=
  ⟨.perstNRelease, rfl, by decide⟩
theorem pcieConfigReady : Statement .pcieConfigReady :=
  ⟨.pcieConfigReady, rfl, by decide⟩
theorem hostReset (kind : HostResetKind) : Statement (.hostReset kind) :=
  ⟨(.hostReset .perst), rfl, by decide⟩
theorem flr (f : Fin 16) : Statement (.flr f) :=
  ⟨(.flr 0), rfl, by decide⟩
theorem pwrfailNFall : Statement .pwrfailNFall :=
  ⟨.pwrfailNFall, rfl, by decide⟩
theorem powerCut : Statement .powerCut :=
  ⟨.powerCut, rfl, by decide⟩
theorem mainLoss (rail : Rail) : Statement (.mainLoss rail) :=
  ⟨(.mainLoss .main), rfl, by decide⟩
theorem thermalTrip (sensor : Fin 32) (temp : Nat) : Statement (.thermalTrip sensor temp) :=
  ⟨(.thermalTrip 0 0), rfl, by decide⟩
theorem vcoreBrownout : Statement .vcoreBrownout :=
  ⟨.vcoreBrownout, rfl, by decide⟩
theorem vidStep : Statement .vidStep :=
  ⟨.vidStep, rfl, by decide⟩
theorem tsensUpdate (sensor : Fin 33) (temp : Nat) : Statement (.tsensUpdate sensor temp) :=
  ⟨(.tsensUpdate 0 0), rfl, by decide⟩
theorem replicaUpdate (plot : Fin 16) (rate : Nat) : Statement (.replicaUpdate plot rate) :=
  ⟨(.replicaUpdate 0 0), rfl, by decide⟩
theorem paceSnap (src : Src) : Statement (.paceSnap src) :=
  ⟨(.paceSnap .bench), rfl, by decide⟩
theorem paceAutoSnap : Statement .paceAutoSnap :=
  ⟨.paceAutoSnap, rfl, by decide⟩
theorem paceSnapComplete : Statement .paceSnapComplete :=
  ⟨.paceSnapComplete, rfl, by decide⟩
theorem commit (src : Src) (set : StagedSet) : Statement (.commit src set) :=
  ⟨(.commit .bench .prioSplit), rfl, by decide⟩
theorem discard (src : Src) (set : StagedSet) : Statement (.discard src set) :=
  ⟨(.discard .bench .prioSplit), rfl, by decide⟩
theorem stagedSetEffect (set : StagedSet) : Statement (.stagedSetEffect set) :=
  ⟨(.stagedSetEffect .prioSplit), rfl, by decide⟩
theorem directPairWrite (src : Src) (pair : DirectPair) (second : Bool) (value : Nat) : Statement (.directPairWrite src pair second value) :=
  ⟨(.directPairWrite .bench .vid false 0), rfl, by decide⟩
theorem doorbell (f : Fin 16) (pi : Nat) : Statement (.doorbell f pi) :=
  ⟨(.doorbell 0 0), rfl, by decide⟩
theorem ringEntryWrite (f : Fin 16) (offset : Nat) (data : List Byte) : Statement (.ringEntryWrite f offset data) :=
  ⟨(.ringEntryWrite 0 0 []), rfl, by decide⟩
theorem retire (f : Fin 16) (slot : Fin 128) (tag : Nat) : Statement (.retire f slot tag) :=
  ⟨(.retire 0 0 0), rfl, by decide⟩
theorem ringEnable (f : Fin 16) : Statement (.ringEnable f) :=
  ⟨(.ringEnable 0), rfl, by decide⟩
theorem ringDisable (f : Fin 16) : Statement (.ringDisable f) :=
  ⟨(.ringDisable 0), rfl, by decide⟩
theorem evqEnable (f : Fin 16) : Statement (.evqEnable f) :=
  ⟨(.evqEnable 0), rfl, by decide⟩
theorem evqDisable (f : Fin 16) : Statement (.evqDisable f) :=
  ⟨(.evqDisable 0), rfl, by decide⟩
theorem evqCiWrite (f : Fin 16) (ci : Nat) : Statement (.evqCiWrite f ci) :=
  ⟨(.evqCiWrite 0 0), rfl, by decide⟩
theorem violCntClear (f : Fin 16) : Statement (.violCntClear f) :=
  ⟨(.violCntClear 0), rfl, by decide⟩
theorem evqLostClear (f : Fin 16) : Statement (.evqLostClear f) :=
  ⟨(.evqLostClear 0), rfl, by decide⟩
theorem commandFetch : Statement .commandFetch :=
  ⟨.commandFetch, rfl, by decide⟩
theorem resultPost (f : Fin 16) (slot : Fin 128) : Statement (.resultPost f slot) :=
  ⟨(.resultPost 0 0), rfl, by decide⟩
theorem msixUnmask (f : Fin 16) (v : Fin 128) : Statement (.msixUnmask f v) :=
  ⟨(.msixUnmask 0 0), rfl, by decide⟩
theorem bar2Read (f : Fin 16) (offset len : Nat) : Statement (.bar2Read f offset len) :=
  ⟨(.bar2Read 0 0 0), rfl, by decide⟩
theorem bar2Write (f : Fin 16) (offset : Nat) (data : List Byte) (enables : List Bool) : Statement (.bar2Write f offset data enables) :=
  ⟨(.bar2Write 0 0 [] []), rfl, by decide⟩
theorem bar2Resize (log2Size : Nat) : Statement (.bar2Resize log2Size) :=
  ⟨(.bar2Resize 0), rfl, by decide⟩
theorem devInfo (f : Fin 16) (slot : Fin 128) : Statement (.devInfo f slot) :=
  ⟨(.devInfo 0 0), rfl, by decide⟩
theorem devReset (f : Fin 16) (slot : Fin 128) : Statement (.devReset f slot) :=
  ⟨(.devReset 0 0), rfl, by decide⟩
theorem fabricResetComplete : Statement .fabricResetComplete :=
  ⟨.fabricResetComplete, rfl, by decide⟩
theorem fabricResetTimeout : Statement .fabricResetTimeout :=
  ⟨.fabricResetTimeout, rfl, by decide⟩
theorem modeOpen (f : Fin 16) (slot : Fin 128) : Statement (.modeOpen f slot) :=
  ⟨(.modeOpen 0 0), rfl, by decide⟩
theorem modeRun (f : Fin 16) (slot : Fin 128) : Statement (.modeRun f slot) :=
  ⟨(.modeRun 0 0), rfl, by decide⟩
theorem tenantAssign (f : Fin 16) (slot : Fin 128) : Statement (.tenantAssign f slot) :=
  ⟨(.tenantAssign 0 0), rfl, by decide⟩
theorem winSet (f : Fin 16) (slot : Fin 128) : Statement (.winSet f slot) :=
  ⟨(.winSet 0 0), rfl, by decide⟩
theorem jobLoad (f : Fin 16) (slot : Fin 128) (buf : HostBuf) : Statement (.jobLoad f slot buf) :=
  ⟨(.jobLoad 0 0 none), rfl, by decide⟩
theorem jobStart (f : Fin 16) (slot : Fin 128) (buf : HostBuf) : Statement (.jobStart f slot buf) :=
  ⟨(.jobStart 0 0 none), rfl, by decide⟩
theorem jobStartHoldExpiry (f : Fin 16) (slot : Fin 128) : Statement (.jobStartHoldExpiry f slot) :=
  ⟨(.jobStartHoldExpiry 0 0), rfl, by decide⟩
theorem jobSubmit (f : Fin 16) (slot : Fin 128) : Statement (.jobSubmit f slot) :=
  ⟨(.jobSubmit 0 0), rfl, by decide⟩
theorem batchInputStage (job : Fin 16) (data : HostBuf) : Statement (.batchInputStage job data) :=
  ⟨(.batchInputStage 0 none), rfl, by decide⟩
theorem batchInputCopied (job : Fin 16) : Statement (.batchInputCopied job) :=
  ⟨(.batchInputCopied 0), rfl, by decide⟩
theorem batchDoneSignal (job : Fin 16) : Statement (.batchDoneSignal job) :=
  ⟨(.batchDoneSignal 0), rfl, by decide⟩
theorem batchOutputCopied (job : Fin 16) (accepted : Bool) : Statement (.batchOutputCopied job accepted) :=
  ⟨(.batchOutputCopied 0 false), rfl, by decide⟩
theorem jobWait (f : Fin 16) (slot : Fin 128) : Statement (.jobWait f slot) :=
  ⟨(.jobWait 0 0), rfl, by decide⟩
theorem jobAbort (f : Fin 16) (slot : Fin 128) : Statement (.jobAbort f slot) :=
  ⟨(.jobAbort 0 0), rfl, by decide⟩
theorem jobAbortDrained (job : Fin 16) : Statement (.jobAbortDrained job) :=
  ⟨(.jobAbortDrained 0), rfl, by decide⟩
theorem jobUnload (f : Fin 16) (slot : Fin 128) : Statement (.jobUnload f slot) :=
  ⟨(.jobUnload 0 0), rfl, by decide⟩
theorem jobStatus (f : Fin 16) (slot : Fin 128) : Statement (.jobStatus f slot) :=
  ⟨(.jobStatus 0 0), rfl, by decide⟩
theorem tblDefine (f : Fin 16) (slot : Fin 128) (buf : HostBuf) : Statement (.tblDefine f slot buf) :=
  ⟨(.tblDefine 0 0 none), rfl, by decide⟩
theorem tblDelete (f : Fin 16) (slot : Fin 128) : Statement (.tblDelete f slot) :=
  ⟨(.tblDelete 0 0), rfl, by decide⟩
theorem tblSync (f : Fin 16) (slot : Fin 128) : Statement (.tblSync f slot) :=
  ⟨(.tblSync 0 0), rfl, by decide⟩
theorem tblSwitch (f : Fin 16) (slot : Fin 128) : Statement (.tblSwitch f slot) :=
  ⟨(.tblSwitch 0 0), rfl, by decide⟩
theorem tableSwitchBoundary (tkey : Nat) : Statement (.tableSwitchBoundary tkey) :=
  ⟨(.tableSwitchBoundary 0), rfl, by decide⟩
theorem tblStats (f : Fin 16) (slot : Fin 128) : Statement (.tblStats f slot) :=
  ⟨(.tblStats 0 0), rfl, by decide⟩
theorem calScales (f : Fin 16) (slot : Fin 128) (buf : HostBuf) : Statement (.calScales f slot buf) :=
  ⟨(.calScales 0 0 none), rfl, by decide⟩
theorem calStats (f : Fin 16) (slot : Fin 128) : Statement (.calStats f slot) :=
  ⟨(.calStats 0 0), rfl, by decide⟩
theorem pwrStatus (f : Fin 16) (slot : Fin 128) : Statement (.pwrStatus f slot) :=
  ⟨(.pwrStatus 0 0), rfl, by decide⟩
theorem pwrTariff (f : Fin 16) (slot : Fin 128) (buf : HostBuf) : Statement (.pwrTariff f slot buf) :=
  ⟨(.pwrTariff 0 0 none), rfl, by decide⟩
theorem pwrLimits (f : Fin 16) (slot : Fin 128) : Statement (.pwrLimits f slot) :=
  ⟨(.pwrLimits 0 0), rfl, by decide⟩
theorem pwrEnergy (f : Fin 16) (slot : Fin 128) : Statement (.pwrEnergy f slot) :=
  ⟨(.pwrEnergy 0 0), rfl, by decide⟩
theorem fwInfo (f : Fin 16) (slot : Fin 128) (img : ImageCheck) : Statement (.fwInfo f slot img) :=
  ⟨(.fwInfo 0 0 ⟨0, 0, 0⟩), rfl, by decide⟩
theorem fwWrite (f : Fin 16) (slot : Fin 128) (buf : HostBuf) : Statement (.fwWrite f slot buf) :=
  ⟨(.fwWrite 0 0 none), rfl, by decide⟩
theorem fwVerify (f : Fin 16) (slot : Fin 128) (img : ImageCheck) : Statement (.fwVerify f slot img) :=
  ⟨(.fwVerify 0 0 ⟨0, 0, 0⟩), rfl, by decide⟩
theorem fwActivate (f : Fin 16) (slot : Fin 128) (img : ImageCheck) : Statement (.fwActivate f slot img) :=
  ⟨(.fwActivate 0 0 ⟨0, 0, 0⟩), rfl, by decide⟩
theorem fwSwap (f : Fin 16) (slot : Fin 128) (img : ImageCheck) : Statement (.fwSwap f slot img) :=
  ⟨(.fwSwap 0 0 ⟨0, 0, 0⟩), rfl, by decide⟩
theorem seamImageLoaded (img : ImageCheck) : Statement (.seamImageLoaded img) :=
  ⟨(.seamImageLoaded ⟨0, 0, 0⟩), rfl, by decide⟩
theorem flashRead (f : Fin 16) (slot : Fin 128) (ecc : FlashEcc) : Statement (.flashRead f slot ecc) :=
  ⟨(.flashRead 0 0 ⟨0, none⟩), rfl, by decide⟩
theorem flashProgram (f : Fin 16) (slot : Fin 128) (buf : HostBuf) : Statement (.flashProgram f slot buf) :=
  ⟨(.flashProgram 0 0 none), rfl, by decide⟩
theorem flashErase (f : Fin 16) (slot : Fin 128) : Statement (.flashErase f slot) :=
  ⟨(.flashErase 0 0), rfl, by decide⟩
theorem logRead (f : Fin 16) (slot : Fin 128) (ecc : FlashEcc) : Statement (.logRead f slot ecc) :=
  ⟨(.logRead 0 0 ⟨0, none⟩), rfl, by decide⟩
theorem evtRoute (f : Fin 16) (slot : Fin 128) : Statement (.evtRoute f slot) :=
  ⟨(.evtRoute 0 0), rfl, by decide⟩
theorem evtCoalesce (f : Fin 16) (slot : Fin 128) : Statement (.evtCoalesce f slot) :=
  ⟨(.evtCoalesce 0 0), rfl, by decide⟩
theorem diagEcho (f : Fin 16) (slot : Fin 128) : Statement (.diagEcho f slot) :=
  ⟨(.diagEcho 0 0), rfl, by decide⟩
theorem diagRegRead (f : Fin 16) (slot : Fin 128) : Statement (.diagRegRead f slot) :=
  ⟨(.diagRegRead 0 0), rfl, by decide⟩
theorem diagSelftest (f : Fin 16) (slot : Fin 128) (fail : Option Nat) : Statement (.diagSelftest f slot fail) :=
  ⟨(.diagSelftest 0 0 none), rfl, by decide⟩
theorem linkStatus (f : Fin 16) (slot : Fin 128) : Statement (.linkStatus f slot) :=
  ⟨(.linkStatus 0 0), rfl, by decide⟩
theorem linkSetId (f : Fin 16) (slot : Fin 128) : Statement (.linkSetId f slot) :=
  ⟨(.linkSetId 0 0), rfl, by decide⟩
theorem linkRoute (f : Fin 16) (slot : Fin 128) (buf : HostBuf) : Statement (.linkRoute f slot buf) :=
  ⟨(.linkRoute 0 0 none), rfl, by decide⟩
theorem linkEnable (f : Fin 16) (slot : Fin 128) : Statement (.linkEnable f slot) :=
  ⟨(.linkEnable 0 0), rfl, by decide⟩
theorem install (pkts : List Packet) : Statement (.install pkts) :=
  ⟨(.install [aPacket]), rfl, by decide⟩
theorem ready (pkt : Packet) : Statement (.ready pkt) :=
  ⟨(.ready aPacket), rfl, by decide⟩
theorem go (pkt : Packet) : Statement (.go pkt) :=
  ⟨(.go aPacket), rfl, by decide⟩
theorem startAbort (pkt : Packet) : Statement (.startAbort pkt) :=
  ⟨(.startAbort aPacket), rfl, by decide⟩
theorem startTimeout (job : Fin 16) : Statement (.startTimeout job) :=
  ⟨(.startTimeout 0), rfl, by decide⟩
theorem release (pkt : Packet) : Statement (.release pkt) :=
  ⟨(.release aPacket), rfl, by decide⟩
theorem epochAdvMessage (pkt : Packet) : Statement (.epochAdvMessage pkt) :=
  ⟨(.epochAdvMessage aPacket), rfl, by decide⟩
theorem nop (plot : Fin 16) (ctx : Fin 4) : Statement (.nop plot ctx) :=
  ⟨(.nop 0 0), rfl, by decide⟩
theorem halt (plot : Fin 16) (ctx : Fin 4) : Statement (.halt plot ctx) :=
  ⟨(.halt 0 0), rfl, by decide⟩
theorem haltRetire (plot : Fin 16) (ctx : Fin 4) : Statement (.haltRetire plot ctx) :=
  ⟨(.haltRetire 0 0), rfl, by decide⟩
theorem setl (plot : Fin 16) (ctx : Fin 4) : Statement (.setl plot ctx) :=
  ⟨(.setl 0 0), rfl, by decide⟩
theorem loopDec (plot : Fin 16) (ctx : Fin 4) : Statement (.loopDec plot ctx) :=
  ⟨(.loopDec 0 0), rfl, by decide⟩
theorem jump (plot : Fin 16) (ctx : Fin 4) : Statement (.jump plot ctx) :=
  ⟨(.jump 0 0), rfl, by decide⟩
theorem ldt (plot : Fin 16) (ctx : Fin 4) : Statement (.ldt plot ctx) :=
  ⟨(.ldt 0 0), rfl, by decide⟩
theorem matmul (plot : Fin 16) (ctx : Fin 4) : Statement (.matmul plot ctx) :=
  ⟨(.matmul 0 0), rfl, by decide⟩
theorem arrayStep (plot : Fin 16) (upset : Upset) : Statement (.arrayStep plot upset) :=
  ⟨(.arrayStep 0 .none), rfl, by decide⟩
theorem shadowLoadComplete (plot : Fin 16) : Statement (.shadowLoadComplete plot) :=
  ⟨(.shadowLoadComplete 0), rfl, by decide⟩
theorem blockComplete (plot : Fin 16) : Statement (.blockComplete plot) :=
  ⟨(.blockComplete 0), rfl, by decide⟩
theorem rescaleAct (plot : Fin 16) : Statement (.rescaleAct plot) :=
  ⟨(.rescaleAct 0), rfl, by decide⟩
theorem vop (plot : Fin 16) (ctx : Fin 4) : Statement (.vop plot ctx) :=
  ⟨(.vop 0 0), rfl, by decide⟩
theorem dma (plot : Fin 16) (ctx : Fin 4) : Statement (.dma plot ctx) :=
  ⟨(.dma 0 0), rfl, by decide⟩
theorem dmaDescriptorStart (plot : Fin 16) (chan : Fin 8) : Statement (.dmaDescriptorStart plot chan) :=
  ⟨(.dmaDescriptorStart 0 0), rfl, by decide⟩
theorem dmaRow (plot : Fin 16) (chan : Fin 8) : Statement (.dmaRow plot chan) :=
  ⟨(.dmaRow 0 0), rfl, by decide⟩
theorem gather (plot : Fin 16) (ctx : Fin 4) : Statement (.gather plot ctx) :=
  ⟨(.gather 0 0), rfl, by decide⟩
theorem collective (plot : Fin 16) (ctx : Fin 4) : Statement (.collective plot ctx) :=
  ⟨(.collective 0 0), rfl, by decide⟩
theorem wait (plot : Fin 16) (ctx : Fin 4) : Statement (.wait plot ctx) :=
  ⟨(.wait 0 0), rfl, by decide⟩
theorem signal (plot : Fin 16) (ctx : Fin 4) : Statement (.signal plot ctx) :=
  ⟨(.signal 0 0), rfl, by decide⟩
theorem fence (plot : Fin 16) (ctx : Fin 4) : Statement (.fence plot ctx) :=
  ⟨(.fence 0 0), rfl, by decide⟩
theorem fenceComplete (plot : Fin 16) (ctx : Fin 4) : Statement (.fenceComplete plot ctx) :=
  ⟨(.fenceComplete 0 0), rfl, by decide⟩
theorem remoteWriteSend (plot : Fin 16) (counter : Fin 16) : Statement (.remoteWriteSend plot counter) :=
  ⟨(.remoteWriteSend 0 0), rfl, by decide⟩
theorem rwrite (pkt : Packet) : Statement (.rwrite pkt) :=
  ⟨(.rwrite aPacket), rfl, by decide⟩
theorem credit (pkt : Packet) : Statement (.credit pkt) :=
  ⟨(.credit aPacket), rfl, by decide⟩
theorem creditReturn (plot : Fin 16) (window : Fin 16) : Statement (.creditReturn plot window) :=
  ⟨(.creditReturn 0 0), rfl, by decide⟩
theorem storeAccess (plot : Fin 16) (acc : StoreAccess) : Statement (.storeAccess plot acc) :=
  ⟨(.storeAccess 0 ⟨0, 0, .ws, 0, false, false, false, [], [], .clean⟩), rfl, by decide⟩
theorem coalescerIdleFlush (plot : Fin 16) (entry : Fin 16) : Statement (.coalescerIdleFlush plot entry) :=
  ⟨(.coalescerIdleFlush 0 0), rfl, by decide⟩
theorem storeScrub (plot : Fin 16) (ecc : EccEvent) : Statement (.storeScrub plot ecc) :=
  ⟨(.storeScrub 0 .clean), rfl, by decide⟩
theorem storeClear (src : Src) (plot : Fin 16) : Statement (.storeClear src plot) :=
  ⟨(.storeClear .bench 0), rfl, by decide⟩
theorem storeClearComplete (plot : Fin 16) : Statement (.storeClearComplete plot) :=
  ⟨(.storeClearComplete 0), rfl, by decide⟩
theorem debugRowRead (src : Src) (plot : Fin 16) (word : Fin 64) : Statement (.debugRowRead src plot word) :=
  ⟨(.debugRowRead .bench 0 0), rfl, by decide⟩
theorem debugRowWrite (src : Src) (plot : Fin 16) (word : Fin 64) (value : Nat) : Statement (.debugRowWrite src plot word value) :=
  ⟨(.debugRowWrite .bench 0 0 0), rfl, by decide⟩
theorem numClear (src : Src) (plot : Fin 16) (mask : Nat) : Statement (.numClear src plot mask) :=
  ⟨(.numClear .bench 0 0), rfl, by decide⟩
theorem srSeedWrite (src : Src) (plot : Fin 16) (die : Bool) (value : Nat) : Statement (.srSeedWrite src plot die value) :=
  ⟨(.srSeedWrite .bench 0 false 0), rfl, by decide⟩
theorem signalDelivery (pkt : Packet) : Statement (.signalDelivery pkt) :=
  ⟨(.signalDelivery aPacket), rfl, by decide⟩
theorem ack (pkt : Packet) : Statement (.ack pkt) :=
  ⟨(.ack aPacket), rfl, by decide⟩
theorem nak (pkt : Packet) : Statement (.nak pkt) :=
  ⟨(.nak aPacket), rfl, by decide⟩
theorem qdArm (src : Src) (g : Fin 16) (value : Nat) : Statement (.qdArm src g value) :=
  ⟨(.qdArm .bench 0 0), rfl, by decide⟩
theorem qdDisarm (src : Src) (g : Fin 16) : Statement (.qdDisarm src g) :=
  ⟨(.qdDisarm .bench 0), rfl, by decide⟩
theorem qdWindowExpiry (g : Fin 16) : Statement (.qdWindowExpiry g) :=
  ⟨(.qdWindowExpiry 0), rfl, by decide⟩
theorem quiet (pkt : Packet) : Statement (.quiet pkt) :=
  ⟨(.quiet aPacket), rfl, by decide⟩
theorem probe (pkt : Packet) : Statement (.probe pkt) :=
  ⟨(.probe aPacket), rfl, by decide⟩
theorem qdAnswer (pkt : Packet) : Statement (.qdAnswer pkt) :=
  ⟨(.qdAnswer aPacket), rfl, by decide⟩
theorem verdict (pkt : Packet) : Statement (.verdict pkt) :=
  ⟨(.verdict aPacket), rfl, by decide⟩
theorem sieveBufferGrant (sieve : Fin 2) : Statement (.sieveBufferGrant sieve) :=
  ⟨(.sieveBufferGrant 0), rfl, by decide⟩
theorem sieveSortComplete (sieve : Fin 2) (buf : Fin 4) : Statement (.sieveSortComplete sieve buf) :=
  ⟨(.sieveSortComplete 0 0), rfl, by decide⟩
theorem waveStart (sieve : Fin 2) (buf : Fin 4) : Statement (.waveStart sieve buf) :=
  ⟨(.waveStart 0 0), rfl, by decide⟩
theorem greq (pkts : List Packet) : Statement (.greq pkts) :=
  ⟨(.greq [aPacket]), rfl, by decide⟩
theorem furrowPartPooled (unit : Fin 6) : Statement (.furrowPartPooled unit) :=
  ⟨(.furrowPartPooled 0), rfl, by decide⟩
theorem scratch (pkt : Packet) : Statement (.scratch pkt) :=
  ⟨(.scratch aPacket), rfl, by decide⟩
theorem bagCombine (sieve : Fin 2) (buf : Fin 4) : Statement (.bagCombine sieve buf) :=
  ⟨(.bagCombine 0 0), rfl, by decide⟩
theorem prefetchBatch (sieve : Fin 2) : Statement (.prefetchBatch sieve) :=
  ⟨(.prefetchBatch 0), rfl, by decide⟩
theorem pfetch (pkts : List Packet) : Statement (.pfetch pkts) :=
  ⟨(.pfetch [aPacket]), rfl, by decide⟩
theorem rowCacheFill (fill : Nat) : Statement (.rowCacheFill fill) :=
  ⟨(.rowCacheFill 0), rfl, by decide⟩
theorem cacheDecay : Statement .cacheDecay :=
  ⟨.cacheDecay, rfl, by decide⟩
theorem epochAdv (src : Src) : Statement (.epochAdv src) :=
  ⟨(.epochAdv .bench), rfl, by decide⟩
theorem invalAll (src : Src) : Statement (.invalAll src) :=
  ⟨(.invalAll .bench), rfl, by decide⟩
theorem rwcInvKey (src : Src) (tkey : Nat) : Statement (.rwcInvKey src tkey) :=
  ⟨(.rwcInvKey .bench 0), rfl, by decide⟩
theorem invalidationComplete : Statement .invalidationComplete :=
  ⟨.invalidationComplete, rfl, by decide⟩
theorem update (pkts : List Packet) : Statement (.update pkts) :=
  ⟨(.update [aPacket]), rfl, by decide⟩
theorem updateEnd (pkt : Packet) : Statement (.updateEnd pkt) :=
  ⟨(.updateEnd aPacket), rfl, by decide⟩
theorem rowUpdate (unit : Fin 6) (ue : Bool) : Statement (.rowUpdate unit ue) :=
  ⟨(.rowUpdate 0 false), rfl, by decide⟩
theorem lease (pkt : Packet) : Statement (.lease pkt) :=
  ⟨(.lease aPacket), rfl, by decide⟩
theorem writerStepTimeout (tkey : Nat) : Statement (.writerStepTimeout tkey) :=
  ⟨(.writerStepTimeout 0), rfl, by decide⟩
theorem rowLockTimeout (unit : Fin 6) : Statement (.rowLockTimeout unit) :=
  ⟨(.rowLockTimeout 0), rfl, by decide⟩
theorem blockTransmit (port : Fin 8) : Statement (.blockTransmit port) :=
  ⟨(.blockTransmit 0), rfl, by decide⟩
theorem dataBlock (port : Fin 8) (blk : Block) : Statement (.dataBlock port blk) :=
  ⟨(.dataBlock 0 aBlock), rfl, aBlock_wf⟩
theorem retryBlock (port : Fin 8) (blk : Block) : Statement (.retryBlock port blk) :=
  ⟨(.retryBlock 0 aBlock), rfl, aBlock_wf⟩
theorem linkMessage (port : Fin 8) (msg : LinkMsg) : Statement (.linkMessage port msg) :=
  ⟨(.linkMessage 0 aLinkMsg), rfl, by decide⟩
theorem linkMessageSend (port : Fin 8) : Statement (.linkMessageSend port) :=
  ⟨(.linkMessageSend 0), rfl, by decide⟩
theorem portTrainRetry (port : Fin 8) : Statement (.portTrainRetry port) :=
  ⟨(.portTrainRetry 0), rfl, by decide⟩
theorem portTrained (port : Fin 8) (degraded : Bool) : Statement (.portTrained port degraded) :=
  ⟨(.portTrained 0 false), rfl, by decide⟩
theorem retrain (port : Fin 8) : Statement (.retrain port) :=
  ⟨(.retrain 0), rfl, by decide⟩
theorem cskRetrainRequest (src : Src) (port : Fin 8) : Statement (.cskRetrainRequest src port) :=
  ⟨(.cskRetrainRequest .bench 0), rfl, by decide⟩
theorem retrainComplete (port : Fin 8) (lastSeq : Nat) : Statement (.retrainComplete port lastSeq) :=
  ⟨(.retrainComplete 0 0), rfl, by decide⟩
theorem retrainTimeout (port : Fin 8) : Statement (.retrainTimeout port) :=
  ⟨(.retrainTimeout 0), rfl, by decide⟩
theorem unquar (src : Src) (port : Fin 8) : Statement (.unquar src port) :=
  ⟨(.unquar .bench 0), rfl, by decide⟩
theorem packetRoute : Statement .packetRoute :=
  ⟨.packetRoute, rfl, by decide⟩
theorem packetLifetimeExpiry (index : Nat) : Statement (.packetLifetimeExpiry index) :=
  ⟨(.packetLifetimeExpiry 0), rfl, by decide⟩
theorem graftEgressBlock (unit : Fin 8) : Statement (.graftEgressBlock unit) :=
  ⟨(.graftEgressBlock 0), rfl, by decide⟩
theorem coll (pkt : Packet) : Statement (.coll pkt) :=
  ⟨(.coll aPacket), rfl, by decide⟩
theorem graftWindowEnd (unit : Fin 8) (slot : Nat) : Statement (.graftWindowEnd unit slot) :=
  ⟨(.graftWindowEnd 0 0), rfl, by decide⟩
theorem verdictRound (plot : Fin 16) (ctx : Fin 4) : Statement (.verdictRound plot ctx) :=
  ⟨(.verdictRound 0 0), rfl, by decide⟩
theorem verdictRoundComplete (plot : Fin 16) (ctx : Fin 4) : Statement (.verdictRoundComplete plot ctx) :=
  ⟨(.verdictRoundComplete 0 0), rfl, by decide⟩
theorem listenEnter (src : Src) : Statement (.listenEnter src) :=
  ⟨(.listenEnter .bench), rfl, by decide⟩
theorem listenWake (source : WakeSource) : Statement (.listenWake source) :=
  ⟨(.listenWake .rtc), rfl, by decide⟩
theorem referenceStable : Statement .referenceStable :=
  ⟨.referenceStable, rfl, by decide⟩
theorem rtcTick : Statement .rtcTick :=
  ⟨.rtcTick, rfl, by decide⟩
theorem rtcAlarm : Statement .rtcAlarm :=
  ⟨.rtcAlarm, rfl, by decide⟩
theorem rtcSet (src : Src) (sec : Nat) : Statement (.rtcSet src sec) :=
  ⟨(.rtcSet .bench 0), rfl, by decide⟩
theorem timerExpiry (n : Fin 8) : Statement (.timerExpiry n) :=
  ⟨(.timerExpiry 0), rfl, by decide⟩
theorem timerEnable (src : Src) (n : Fin 8) : Statement (.timerEnable src n) :=
  ⟨(.timerEnable .bench 0), rfl, by decide⟩
theorem timerDisable (src : Src) (n : Fin 8) : Statement (.timerDisable src n) :=
  ⟨(.timerDisable .bench 0), rfl, by decide⟩
theorem expClr (src : Src) (n : Fin 8) : Statement (.expClr src n) :=
  ⟨(.expClr .bench 0), rfl, by decide⟩
theorem kick (src : Src) : Statement (.kick src) :=
  ⟨(.kick .bench), rfl, by decide⟩
theorem watchdogExpiry : Statement .watchdogExpiry :=
  ⟨.watchdogExpiry, rfl, by decide⟩
theorem gpiEdge (n : Fin 4) (level : Bool) : Statement (.gpiEdge n level) :=
  ⟨(.gpiEdge 0 false), rfl, by decide⟩
theorem spiStart (src : Src) : Statement (.spiStart src) :=
  ⟨(.spiStart .bench), rfl, by decide⟩
theorem spiComplete (miso : List Byte) : Statement (.spiComplete miso) :=
  ⟨(.spiComplete []), rfl, by decide⟩
theorem pdmSample (port : Fin 2) (sample : Nat) : Statement (.pdmSample port sample) :=
  ⟨(.pdmSample 0 0), rfl, by decide⟩
theorem cmeStart (src : Src) : Statement (.cmeStart src) :=
  ⟨(.cmeStart .bench), rfl, by decide⟩
theorem cmeMatmul (ecc : FlashEcc) : Statement (.cmeMatmul ecc) :=
  ⟨(.cmeMatmul ⟨0, none⟩), rfl, by decide⟩
theorem cmeAdd (ecc : FlashEcc) : Statement (.cmeAdd ecc) :=
  ⟨(.cmeAdd ⟨0, none⟩), rfl, by decide⟩
theorem cmeLut (ecc : FlashEcc) : Statement (.cmeLut ecc) :=
  ⟨(.cmeLut ⟨0, none⟩), rfl, by decide⟩
theorem cmeCopy (ecc : FlashEcc) : Statement (.cmeCopy ecc) :=
  ⟨(.cmeCopy ⟨0, none⟩), rfl, by decide⟩
theorem cmeRaise (ecc : FlashEcc) : Statement (.cmeRaise ecc) :=
  ⟨(.cmeRaise ⟨0, none⟩), rfl, by decide⟩
theorem cmeEnd (ecc : FlashEcc) : Statement (.cmeEnd ecc) :=
  ⟨(.cmeEnd ⟨0, none⟩), rfl, by decide⟩
theorem forecastRun : Statement .forecastRun :=
  ⟨.forecastRun, rfl, by decide⟩
theorem dormantJobTrigger (trigger input : Nat) : Statement (.dormantJobTrigger trigger input) :=
  ⟨(.dormantJobTrigger 0 0), rfl, by decide⟩
theorem benchHalt (src : Src) : Statement (.benchHalt src) :=
  ⟨(.benchHalt .bench), rfl, by decide⟩
theorem benchResume (src : Src) : Statement (.benchResume src) :=
  ⟨(.benchResume .bench), rfl, by decide⟩
theorem benchStep (src : Src) : Statement (.benchStep src) :=
  ⟨(.benchStep .bench), rfl, by decide⟩
theorem sourceRequest (i : Fin 1023) (level : Bool) (data : Nat) : Statement (.sourceRequest i level data) :=
  ⟨(.sourceRequest 0 false 0), rfl, by decide⟩
theorem coalesceWindowExpiry (f : Fin 16) (v : Fin 128) : Statement (.coalesceWindowExpiry f v) :=
  ⟨(.coalesceWindowExpiry 0 0), rfl, by decide⟩
theorem benchClaim (src : Src) : Statement (.benchClaim src) :=
  ⟨(.benchClaim .bench), rfl, by decide⟩
theorem benchComplete (src : Src) (id : Nat) : Statement (.benchComplete src id) :=
  ⟨(.benchComplete .bench 0), rfl, by decide⟩
theorem force (src : Src) (i : Fin 1023) : Statement (.force src i) :=
  ⟨(.force .bench 0), rfl, by decide⟩
theorem pendingClear (src : Src) (i : Fin 1023) : Statement (.pendingClear src i) :=
  ⟨(.pendingClear .bench 0), rfl, by decide⟩
theorem flcCtlErase (src : Src) : Statement (.flcCtlErase src) :=
  ⟨(.flcCtlErase .bench), rfl, by decide⟩
theorem flcCtlProgram (src : Src) : Statement (.flcCtlProgram src) :=
  ⟨(.flcCtlProgram .bench), rfl, by decide⟩
theorem sectorEraseComplete (bank : Fin 2) : Statement (.sectorEraseComplete bank) :=
  ⟨(.sectorEraseComplete 0), rfl, by decide⟩
theorem segmentProgramComplete (bank : Fin 2) (verifyOk : Bool) : Statement (.segmentProgramComplete bank verifyOk) :=
  ⟨(.segmentProgramComplete 0 false), rfl, by decide⟩
theorem rcvStatus (pecOk : Bool) : Statement (.rcvStatus pecOk) :=
  ⟨(.rcvStatus false), rfl, by decide⟩
theorem rcvBegin (data : List Byte) (pecOk : Bool) : Statement (.rcvBegin data pecOk) :=
  ⟨(.rcvBegin [] false), rfl, by decide⟩
theorem rcvData (data : List Byte) (pecOk : Bool) : Statement (.rcvData data pecOk) :=
  ⟨(.rcvData [] false), rfl, by decide⟩
theorem rcvCommit (data : List Byte) (pecOk : Bool) (img : ImageCheck) : Statement (.rcvCommit data pecOk img) :=
  ⟨(.rcvCommit [] false ⟨0, 0, 0⟩), rfl, by decide⟩
theorem powerSample (core board : Nat) : Statement (.powerSample core board) :=
  ⟨(.powerSample 0 0), rfl, by decide⟩
theorem limiterStep : Statement .limiterStep :=
  ⟨.limiterStep, rfl, by decide⟩
theorem governorLoop : Statement .governorLoop :=
  ⟨.governorLoop, rfl, by decide⟩
theorem demandIntervalClose : Statement .demandIntervalClose :=
  ⟨.demandIntervalClose, rfl, by decide⟩
theorem intervalLog : Statement .intervalLog :=
  ⟨.intervalLog, rfl, by decide⟩
theorem acctEn : Statement .acctEn :=
  ⟨.acctEn, rfl, by decide⟩
theorem smbusRegisterRead (port : Fin 2) (offset count : Nat) : Statement (.smbusRegisterRead port offset count) :=
  ⟨(.smbusRegisterRead 0 0 0), rfl, by decide⟩
theorem setEndpointId (port : Fin 2) (eid : Nat) : Statement (.setEndpointId port eid) :=
  ⟨(.setEndpointId 0 0), rfl, by decide⟩
theorem getEndpointId (port : Fin 2) : Statement (.getEndpointId port) :=
  ⟨(.getEndpointId 0), rfl, by decide⟩
theorem getEndpointUuid (port : Fin 2) : Statement (.getEndpointUuid port) :=
  ⟨(.getEndpointUuid 0), rfl, by decide⟩
theorem getMctpVersionSupport (port : Fin 2) (msgType : Nat) : Statement (.getMctpVersionSupport port msgType) :=
  ⟨(.getMctpVersionSupport 0 0), rfl, by decide⟩
theorem getMessageTypeSupport (port : Fin 2) : Statement (.getMessageTypeSupport port) :=
  ⟨(.getMessageTypeSupport 0), rfl, by decide⟩
theorem getVendorDefinedMessageSupport (port : Fin 2) (selector : Nat) : Statement (.getVendorDefinedMessageSupport port selector) :=
  ⟨(.getVendorDefinedMessageSupport 0 0), rfl, by decide⟩
theorem mctpUnsupportedCmd (port : Fin 2) (cmd : Nat) : Statement (.mctpUnsupportedCmd port cmd) :=
  ⟨(.mctpUnsupportedCmd 0 0), rfl, by decide⟩
theorem getPower (port : Fin 2) : Statement (.getPower port) :=
  ⟨(.getPower 0), rfl, by decide⟩
theorem getEnergy (port : Fin 2) (func back : Nat) : Statement (.getEnergy port func back) :=
  ⟨(.getEnergy 0 0 0), rfl, by decide⟩
theorem setTariff (port : Fin 2) (persist : Nat) (data : List Byte) : Statement (.setTariff port persist data) :=
  ⟨(.setTariff 0 0 []), rfl, by decide⟩
theorem setCap (port : Fin 2) (watts : Nat) : Statement (.setCap port watts) :=
  ⟨(.setCap 0 0), rfl, by decide⟩
theorem setTime (port : Fin 2) (sec : Nat) : Statement (.setTime port sec) :=
  ⟨(.setTime 0 0), rfl, by decide⟩
theorem readLog (port : Fin 2) (log first count : Nat) (ecc : FlashEcc) : Statement (.readLog port log first count ecc) :=
  ⟨(.readLog 0 0 0 0 ⟨0, none⟩), rfl, by decide⟩
theorem modelWrite (port : Fin 2) (addr : Nat) (data : List Byte) : Statement (.modelWrite port addr data) :=
  ⟨(.modelWrite 0 0 []), rfl, by decide⟩
theorem modelErase (port : Fin 2) (first count : Nat) : Statement (.modelErase port first count) :=
  ⟨(.modelErase 0 0 0), rfl, by decide⟩
theorem readResult (port : Fin 2) (area : Nat) : Statement (.readResult port area) :=
  ⟨(.readResult 0 0), rfl, by decide⟩
theorem mctpFwWrite (port : Fin 2) (offset : Nat) (data : List Byte) : Statement (.mctpFwWrite port offset data) :=
  ⟨(.mctpFwWrite 0 0 []), rfl, by decide⟩
theorem mctpFwActivate (port : Fin 2) (img : ImageCheck) : Statement (.mctpFwActivate port img) :=
  ⟨(.mctpFwActivate 0 ⟨0, 0, 0⟩), rfl, by decide⟩
theorem restart (port : Fin 2) : Statement (.restart port) :=
  ⟨(.restart 0), rfl, by decide⟩
theorem hbmScrub (stack : Fin 6) (unit : Nat) (ecc : EccEvent) : Statement (.hbmScrub stack unit ecc) :=
  ⟨(.hbmScrub 0 0 .clean), rfl, by decide⟩
theorem hbmControllerFault (stack : Fin 6) : Statement (.hbmControllerFault stack) :=
  ⟨(.hbmControllerFault 0), rfl, by decide⟩
theorem leaseFence (lease : LeaseRef) (trigger : Nat) : Statement (.leaseFence lease trigger) :=
  ⟨(.leaseFence (.rowLocks 0) 0), rfl, by decide⟩
theorem drainExpiry (index : Nat) : Statement (.drainExpiry index) :=
  ⟨(.drainExpiry 0), rfl, by decide⟩
theorem pwrfailNRise : Statement .pwrfailNRise :=
  ⟨.pwrfailNRise, rfl, by decide⟩
theorem islandRailsLoss : Statement .islandRailsLoss :=
  ⟨.islandRailsLoss, rfl, by decide⟩
theorem rtcCrystalStop : Statement .rtcCrystalStop :=
  ⟨.rtcCrystalStop, rfl, by decide⟩
theorem vfEnable (n : Nat) : Statement (.vfEnable n) :=
  ⟨(.vfEnable 0), rfl, by decide⟩
theorem vfDisable (f : Fin 16) : Statement (.vfDisable f) :=
  ⟨(.vfDisable 0), rfl, by decide⟩
theorem tckEdge (tms tdi trstN : Bool) (rising : Bool) (pins : Nat) : Statement (.tckEdge tms tdi trstN rising pins) :=
  ⟨(.tckEdge false false false false 0), rfl, by decide⟩

end Sys2Proof.Laws.Shape
end

