-- ==== Sys2Proof/Laws/Settle.lean ====
section
/-! SUPPORT. What the end of a command of the compute core may change: what a context shows of its waits, and the
detector slots. -/

namespace Sys2Proof.Machine

theorem Settles.refl (s : State) : Settles s s :=
  ⟨rfl, fun _ _ _ => rfl, fun _ => rfl, fun _ _ => rfl, fun _ _ _ _ => rfl, fun _ _ _ _ _ => rfl⟩

theorem Settles.wr {a s : State} (h : Settles a s) (f : Field) (i : List Nat) (v : Nat) (hk : f.key i ∈ settleKeys)
    (hs : ∀ p c : Nat, p < 16 → c < 4 → Reg.RKE_CTX_STATE.key [p, c] ≠ f.key i) : Settles a (s.wr f i v) := by
  have hst : ∀ p c : Nat, p < 16 → c < 4 → (s.wr f i v).ctxState p c = s.ctxState p c :=
    fun p c hp hc => rd_wr_ne s v (hs p c hp hc)
  refine ⟨h.rest, ?_, h.plot, h.ctx, ?_, ?_⟩
  · intro g j hg
    have hne : g.key j ≠ f.key i := fun e => hg (e ▸ hk)
    rw [rd_wr_ne s v hne]
    exact h.regs g j hg
  · intro p c hp hc
    rw [← h.live p c hp hc]
    simp only [State.ctxLive, hst p c hp hc]
  · intro p c hp hc hd
    rw [hst p c hp hc]
    exact h.dead p c hp hc hd

/-- A live context moves between RUNNING and BLOCKED. -/
theorem Settles.wrLive {a s : State} (h : Settles a s) {p c v : Nat} (hp : p < 16) (hc : c < 4) (hv : v = 1 ∨ v = 2)
    (hl : s.ctxLive p c = true) (hk : Reg.RKE_CTX_STATE.key [p, c] ∈ settleKeys) :
    Settles a (s.wr Reg.RKE_CTX_STATE [p, c] v) := by
  have hself : (s.wr Reg.RKE_CTX_STATE [p, c] v).ctxState p c = v := by
    simp only [State.ctxState, rd_wr_self]
    rcases hv with rfl | rfl <;> rfl
  have hne : ∀ q d : Nat, q < 16 → d < 4 → ¬(q = p ∧ d = c) →
      (s.wr Reg.RKE_CTX_STATE [p, c] v).ctxState q d = s.ctxState q d := by
    intro q d hq hd hn
    refine rd_wr_ne s v ?_
    simp only [Reg.RKE_CTX_STATE, Field.key, Field.addr, dotIdx]
    omega
  refine ⟨h.rest, ?_, h.plot, h.ctx, ?_, ?_⟩
  · intro g j hg
    have hne : g.key j ≠ Reg.RKE_CTX_STATE.key [p, c] := fun e => hg (e ▸ hk)
    rw [rd_wr_ne s v hne]
    exact h.regs g j hg
  · intro q d hq hd
    rw [← h.live q d hq hd]
    by_cases e : q = p ∧ d = c
    · obtain ⟨rfl, rfl⟩ := e
      rw [hl]
      simp only [State.ctxLive, hself]
      rcases hv with rfl | rfl <;> rfl
    · simp only [State.ctxLive, hne q d hq hd e]
  · intro q d hq hd hdead
    have e : ¬(q = p ∧ d = c) := by
      rintro ⟨rfl, rfl⟩
      rw [← h.live q d hq hd, hl] at hdead
      cases hdead
    rw [hne q d hq hd e]
    exact h.dead q d hq hd hdead

theorem Settles.wrb {a s : State} (h : Settles a s) (f : Field) (i : List Nat) (b : Bool) (hk : f.key i ∈ settleKeys)
    (hs : ∀ p c : Nat, p < 16 → c < 4 → Reg.RKE_CTX_STATE.key [p, c] ≠ f.key i) :
    Settles a (s.wrb f i b) := h.wr f i _ hk hs

theorem Settles.foldl {α : Type} {a : State} (g : State → α → State) (l : List α)
    (hg : ∀ s, ∀ x ∈ l, Settles a s → Settles a (g s x)) : ∀ s, Settles a s → Settles a (l.foldl g s) := by
  induction l with
  | nil => exact fun s h => h
  | cons x l ih => exact fun s h => ih (fun s y hy => hg s y (List.mem_cons_of_mem _ hy)) _ (hg s x List.mem_cons_self h)

theorem ctx_setCtx_self (s : State) (p c : Nat) (x : Ctx) : (s.setCtx p c x).ctx p c = x := by
  simp only [State.ctx, State.setCtx, plot_setPlot_self, FMap.get_set_self]

theorem ctx_setCtx_ne (s : State) {p c q d : Nat} (x : Ctx) (h : q ≠ p ∨ d ≠ c) : (s.setCtx p c x).ctx q d = s.ctx q d := by
  by_cases hq : q = p
  · have hd : d ≠ c := by omega
    subst hq
    simp only [State.ctx, State.setCtx, plot_setPlot_self]
    exact FMap.get_set_ne _ _ _ _ hd
  · simp only [State.ctx, State.setCtx]
    rw [plot_setPlot_ne s _ hq]

theorem Settles.setCtx {a s : State} (h : Settles a s) (p c : Nat) (w b : Option (Nat × Nat)) :
    Settles a (s.setCtx p c { s.ctx p c with wait := w, bg := b }) := by
  refine ⟨h.rest, h.regs, ?_, ?_, h.live, h.dead⟩
  · intro q
    rw [← h.plot q]
    by_cases hq : q = p
    · subst hq
      simp only [State.setCtx, plot_setPlot_self]
    · simp only [State.setCtx]
      rw [plot_setPlot_ne s _ hq]
  · intro q d
    rw [← h.ctx q d]
    by_cases hq : q = p ∧ d = c
    · obtain ⟨rfl, rfl⟩ := hq
      rw [ctx_setCtx_self]
    · rw [ctx_setCtx_ne s _ (by omega)]

theorem Settles.setQslot {a s : State} (h : Settles a s) (g : Nat) (x : QSlot) : Settles a (s.setQslot g x) :=
  ⟨h.rest, h.regs, h.plot, h.ctx, h.live, h.dead⟩

theorem settle_state {p c : Nat} (hp : p < 16) (hc : c < 4) : Reg.RKE_CTX_STATE.key [p, c] ∈ settleKeys := by
  refine List.mem_append_left _ (List.mem_flatMap.mpr ⟨4 * p + c, List.mem_range.mpr (by omega), ?_⟩)
  rw [show (4 * p + c) / 4 = p by omega, show (4 * p + c) % 4 = c by omega]
  simp

theorem settle_kind {p c : Nat} (hp : p < 16) (hc : c < 4) : Reg.RKE_CTX_WAIT_KIND.key [p, c] ∈ settleKeys := by
  refine List.mem_append_left _ (List.mem_flatMap.mpr ⟨4 * p + c, List.mem_range.mpr (by omega), ?_⟩)
  rw [show (4 * p + c) / 4 = p by omega, show (4 * p + c) % 4 = c by omega]
  simp

theorem settle_arg {p c : Nat} (hp : p < 16) (hc : c < 4) : Reg.RKE_CTX_WAIT_ARG.key [p, c] ∈ settleKeys := by
  refine List.mem_append_left _ (List.mem_flatMap.mpr ⟨4 * p + c, List.mem_range.mpr (by omega), ?_⟩)
  rw [show (4 * p + c) / 4 = p by omega, show (4 * p + c) % 4 = c by omega]
  simp

theorem settle_slot {g : Nat} (hg : g < 16) : Reg.TOP_QD_GST_QUIET.key [g] ∈ settleKeys ∧
    Reg.TOP_QD_GST_SUSPENDED.key [g] ∈ settleKeys ∧ Reg.TOP_QD_GST_REPORTED.key [g] ∈ settleKeys ∧
    Reg.TOP_QD_GST_GEN.key [g] ∈ settleKeys := by
  refine ⟨?_, ?_, ?_, ?_⟩ <;>
    exact List.mem_append_right _ (List.mem_flatMap.mpr ⟨g, List.mem_range.mpr hg, by simp⟩)

theorem state_ne_kind (p c q d : Nat) : Reg.RKE_CTX_STATE.key [q, d] ≠ Reg.RKE_CTX_WAIT_KIND.key [p, c] := by
  simp only [Reg.RKE_CTX_STATE, Reg.RKE_CTX_WAIT_KIND, Field.key, Field.addr, dotIdx]
  omega

theorem state_ne_arg (p c q d : Nat) : Reg.RKE_CTX_STATE.key [q, d] ≠ Reg.RKE_CTX_WAIT_ARG.key [p, c] := by
  simp only [Reg.RKE_CTX_STATE, Reg.RKE_CTX_WAIT_ARG, Field.key, Field.addr, dotIdx]
  omega

theorem showCtx_settles {a s : State} (h : Settles a s) {p c : Nat} (hp : p < 16) (hc : c < 4) : Settles a (showCtx s p c) := by
  have h1 := settle_state hp hc
  have h2 := settle_kind hp hc
  have h3 := settle_arg hp hc
  have k2 := fun q d (_ : q < 16) (_ : d < 4) => state_ne_kind p c q d
  have k3 := fun q d (_ : q < 16) (_ : d < 4) => state_ne_arg p c q d
  unfold showCtx
  dsimp only
  split
  · rename_i hl
    split
    · exact ((h.wrLive hp hc (.inr rfl) hl h1).wr _ _ _ h2 k2).wr _ _ _ h3 k3
    · exact ((h.wrLive hp hc (.inl rfl) hl h1).wr _ _ _ h2 k2).wr _ _ _ h3 k3
  · exact (h.wr _ _ _ h2 k2).wr _ _ _ h3 k3

theorem wakeCtx_settles {a s : State} (h : Settles a s) {p c : Nat} (hp : p < 16) (hc : c < 4) : Settles a (wakeCtx s p c) := by
  unfold wakeCtx
  dsimp only
  split
  · exact showCtx_settles (h.setCtx p c _ _) hp hc
  · exact h

theorem wakeAll_settles {a s : State} (h : Settles a s) : Settles a (wakeAll s) := by
  refine Settles.foldl _ _ ?_ s h
  intro s e he h
  have := List.mem_range.mp he
  exact wakeCtx_settles h (by omega) (by omega)

theorem state_ne_slot (q d : Nat) {g : Nat} (hg : g < 16) :
    Reg.RKE_CTX_STATE.key [q, d] ≠ Reg.TOP_QD_GST_QUIET.key [g] ∧
    Reg.RKE_CTX_STATE.key [q, d] ≠ Reg.TOP_QD_GST_SUSPENDED.key [g] ∧
    Reg.RKE_CTX_STATE.key [q, d] ≠ Reg.TOP_QD_GST_REPORTED.key [g] ∧
    Reg.RKE_CTX_STATE.key [q, d] ≠ Reg.TOP_QD_GST_GEN.key [g] := by
  simp only [Reg.RKE_CTX_STATE, Reg.TOP_QD_GST_QUIET, Reg.TOP_QD_GST_SUSPENDED, Reg.TOP_QD_GST_REPORTED,
    Reg.TOP_QD_GST_GEN, Field.key, Field.addr, dotIdx]
  omega

theorem qdFollow_settles {a s : State} (h : Settles a s) {g : Nat} (hg : g < 16) : Settles a (qdFollow s g) := by
  obtain ⟨h1, h2, h3, h4⟩ := settle_slot hg
  have n1 := fun q d (_ : q < 16) (_ : d < 4) => (state_ne_slot q d hg).1
  have n2 := fun q d (_ : q < 16) (_ : d < 4) => (state_ne_slot q d hg).2.1
  have n3 := fun q d (_ : q < 16) (_ : d < 4) => (state_ne_slot q d hg).2.2.1
  have n4 := fun q d (_ : q < 16) (_ : d < 4) => (state_ne_slot q d hg).2.2.2
  unfold qdFollow
  dsimp only
  have k := h.wrb _ _ (s.armed g && s.suspended g) h2 n2
  generalize s.wrb Reg.TOP_QD_GST_SUSPENDED [g] (s.armed g && s.suspended g) = u at k
  generalize s.quiescent g = n
  generalize s.on Reg.TOP_QD_GST_QUIET [g] = o
  split
  · exact k
  · have k := (k.wrb Reg.TOP_QD_GST_QUIET [g] n h1 n1).wr Reg.TOP_QD_GST_REPORTED [g] 0 h3 n3
    split
    · exact k.setQslot _ _
    · exact k.wr _ _ _ h4 n4

theorem qdRefresh_settles {a s : State} (h : Settles a s) : Settles a (qdRefresh s) := by
  refine Settles.foldl _ _ ?_ s h
  intro s g hg h
  exact qdFollow_settles h (List.mem_range.mp hg)

/-- A command that ends with `nextQ` completes, and its end changes no more than `Settles` says. -/
theorem nextQ_settles (s : State) : ∃ t, nextQ s = .next t ∧ Settles s t :=
  ⟨_, rfl, qdRefresh_settles (wakeAll_settles (Settles.refl s))⟩

theorem Settles.trans {a b c : State} (h : Settles a b) (g : Settles b c) : Settles a c :=
  ⟨g.rest.trans h.rest, fun f i o => (g.regs f i o).trans (h.regs f i o), fun p => (g.plot p).trans (h.plot p),
   fun p d => (g.ctx p d).trans (h.ctx p d), fun p d hp hd => (g.live p d hp hd).trans (h.live p d hp hd),
   fun p d hp hd o => (g.dead p d hp hd ((h.live p d hp hd).trans o)).trans (h.dead p d hp hd o)⟩

end Sys2Proof.Machine
end

/-! ## What a Hedge request leaves in the sources' registers

Posting an event and announcing it on a vector write the functions' pages and the vector status only, and the arbitration
decision writes HDG_STAT only: neither reaches a source's register. So what a request leaves in DATA, LEVEL and PENDING is
what its own writes put there (R552, R553). -/

section
namespace Sys2Proof.Machine

/-- Keys that no posted event and no vector message may write: all but the functions' pages and the vector status. -/
def offPost (k : Nat) : Prop := k < 0x100000 * 128 ∨ (0x200000 * 128 ≤ k ∧ k < 0x220000 * 128) ∨ 0x230000 * 128 ≤ k

/-- Keys of the sources' registers. -/
def inSources (k : Nat) : Prop := 0x210000 * 128 ≤ k ∧ k < 0x220000 * 128

theorem inSources_offPost {k : Nat} (h : inSources k) : offPost k := .inr (.inl ⟨by unfold inSources at h; omega, h.2⟩)

theorem SameOn.mono {P Q : Nat → Prop} {s t : State} (h : SameOn P s t) (hq : ∀ k, Q k → P k) : SameOn Q s t :=
  fun f i o => h f i (hq _ o)

/-- Choosing between two states that both keep the registers in `P`. -/
theorem SameOn.ite {P : Nat → Prop} {a s t : State} {p : Prop} [Decidable p] (hs : SameOn P a s) (ht : SameOn P a t) :
    SameOn P a (if p then s else t) := by
  split
  · exact hs
  · exact ht

theorem evqKey_onPost {g : Field} {f : Nat} (hb : 0x100000 ≤ g.base ∧ g.base < 0x110000) (hs : g.strides = [65536])
    (hl : g.lo < 128) (hf : f < 16) : ¬ offPost (g.key [f]) := by
  simp only [offPost, Field.key, Field.addr, hs, dotIdx]
  omega

theorem vstatKey_onPost {g : Field} {f v : Nat} (hb : g.base = 0x220000) (hs : g.strides = [512, 4]) (hl : g.lo < 128)
    (hf : f < 16) (hv : v < 128) : ¬ offPost (g.key [f, v]) := by
  simp only [offPost, Field.key, Field.addr, hb, hs, dotIdx]
  omega

theorem sendVector_sameOn {a s : State} (h : SameOn offPost a s) {f v : Nat} (hf : f < 16) (hv : v < 128) :
    SameOn offPost a (sendVector s f v) :=
  .ite (h.set rfl) ((h.wr Reg.HDG_VSTAT_MSGS [f, v] _ (vstatKey_onPost rfl rfl (by decide) hf hv)).set rfl)

theorem closeWindow_sameOn {a s : State} (h : SameOn offPost a s) {f v : Nat} (hf : f < 16) (hv : v < 128) :
    SameOn offPost a (closeWindow s f v) := by
  have h0 : SameOn offPost a { s with hedge := { s.hedge with wins := FMap.erase s.hedge.wins (f * 128 + v) } } := h.set rfl
  exact sendVector_sameOn ((h0.wr Reg.HDG_VSTAT_COUNT [f, v] 0 (vstatKey_onPost rfl rfl (by decide) hf hv)).wr
    Reg.HDG_VSTAT_OPEN [f, v] 0 (vstatKey_onPost rfl rfl (by decide) hf hv)) hf hv

theorem vectorRequest_sameOn {a s : State} (h : SameOn offPost a s) {f v : Nat} (idle : Bool) (hf : f < 16) (hv : v < 128) :
    SameOn offPost a (vectorRequest s f v idle) := by
  have count : ∀ {t : State}, SameOn offPost a t → ∀ n, SameOn offPost a (t.wr Reg.HDG_VSTAT_COUNT [f, v] n) :=
    fun ht n => ht.wr _ _ n (vstatKey_onPost rfl rfl (by decide) hf hv)
  unfold vectorRequest
  refine .ite (sendVector_sameOn h hf hv) (.ite h ?_)
  cases FMap.find s.hedge.wins (f * 128 + v) with
  | some w => exact .ite (closeWindow_sameOn (count h _) hf hv) (count h _)
  | none =>
    refine .ite (sendVector_sameOn h hf hv) ?_
    have h0 : ∀ ws, SameOn offPost a { s with hedge := { s.hedge with wins := ws } } := fun ws => h.set rfl
    have opened : ∀ ws, SameOn offPost a ((({ s with hedge := { s.hedge with wins := ws } } : State).wr
        Reg.HDG_VSTAT_COUNT [f, v] 1).wr Reg.HDG_VSTAT_OPEN [f, v] 1) :=
      fun ws => (count (h0 ws) 1).wr _ _ 1 (vstatKey_onPost rfl rfl (by decide) hf hv)
    exact .ite (closeWindow_sameOn (opened _) hf hv) (opened _)

theorem evqWrite_sameOn {a s : State} (h : SameOn offPost a s) {f : Nat} (src data : Nat) (hf : f < 16) :
    SameOn offPost a (evqWrite s f src data) :=
  (h.wr Reg.MBX_EVQ_PI_PI [f] _ (evqKey_onPost (by decide) rfl (by decide) hf)).set rfl

theorem evqLose_sameOn {a s : State} (h : SameOn offPost a s) {f : Nat} (hf : f < 16) : SameOn offPost a (evqLose s f) :=
  (h.wr Reg.MBX_EVQ_LOST_COUNT [f] _ (evqKey_onPost (by decide) rfl (by decide) hf)).set rfl

theorem evqPostLost_sameOn {a s : State} (h : SameOn offPost a s) {f : Nat} (hf : f < 16) :
    SameOn offPost a (evqPostLost s f) := by
  have posted : ∀ n m, SameOn offPost a { evqWrite s f 0 n with mbx := { (evqWrite s f 0 n).mbx with lostSince := m } } :=
    fun n m => (evqWrite_sameOn h 0 n hf).set rfl
  exact .ite h (vectorRequest_sameOn (posted _ _) _ hf (by decide))

theorem evqPost_sameOn {a s : State} (h : SameOn offPost a s) {f : Nat} (src data : Nat) (hf : f < 16) :
    SameOn offPost a (evqPost s f src data) :=
  .ite (evqWrite_sameOn (evqPostLost_sameOn h hf) _ _ hf) (evqLose_sameOn (evqPostLost_sameOn h hf) hf)

theorem hostCopy_sameOn (s : State) (i : Nat) : SameOn offPost s (hostCopy s i) :=
  .ite (vectorRequest_sameOn (evqPost_sameOn (.refl _ s) _ _ (rd_lt s Reg.HDG_SRC_FUNC [i])) _
    (rd_lt s Reg.HDG_SRC_FUNC [i]) (rd_lt s Reg.HDG_SRC_VECTOR [i])) (.refl _ s)

theorem hedgeDecide_sameOn (s : State) : SameOn inSources s (hedgeDecide s) := by
  have stat : ∀ {f : Field}, f.base = 0x200000 → f.strides = [] → f.lo < 128 → ¬ inSources (f.key []) := by
    intro f hb hs hl
    simp only [inSources, Field.key, Field.addr, hb, hs, dotIdx]
    omega
  exact (((((SameOn.refl inSources s).wr Reg.HDG_STAT_OFFER [] _ (stat rfl rfl (by decide))).wr
    Reg.HDG_STAT_IRQ [] _ (stat rfl rfl (by decide))).wr Reg.HDG_STAT_ACTIVE_ANY [] _ (stat rfl rfl (by decide))).wr
    Reg.HDG_STAT_RUNPRIO [] _ (stat rfl rfl (by decide))).set rfl

/-- What follows a request, a copy to the host where one is due and the arbitration decision, reaches no source. -/
theorem decideCopy_sameOn (s : State) (i : Nat) (b : Bool) :
    SameOn inSources s (hedgeDecide (if b then hostCopy s i else s)) :=
  SameOn.trans (.ite ((hostCopy_sameOn s i).mono fun _ => inSources_offPost) (.refl _ s)) (hedgeDecide_sameOn _)

/-- The fields of a source's register. -/
structure IsSource (f : Field) : Prop where
  base : f.base = 0x210000
  strides : f.strides = [8]
  low : f.lo < 128

theorem IsSource.inSources {f : Field} (h : IsSource f) {i : Nat} (hi : i < 1023) : inSources (f.key [i]) := by
  have := h.low
  simp only [Machine.inSources, Field.key, Field.addr, h.base, h.strides, dotIdx]
  omega

theorem IsSource.key_ne {f g : Field} (hf : IsSource f) (hg : IsSource g) {i j : Nat} (h : i ≠ j ∨ f.lo ≠ g.lo) :
    f.key [i] ≠ g.key [j] := by
  have := hf.low
  have := hg.low
  simp only [Field.key, Field.addr, hf.base, hf.strides, hg.base, hg.strides, dotIdx]
  omega

theorem isSource_sense : IsSource Reg.HDG_SRC_SENSE := ⟨rfl, rfl, by decide⟩
theorem isSource_pending : IsSource Reg.HDG_SRC_PENDING := ⟨rfl, rfl, by decide⟩
theorem isSource_active : IsSource Reg.HDG_SRC_ACTIVE := ⟨rfl, rfl, by decide⟩
theorem isSource_level : IsSource Reg.HDG_SRC_LEVEL := ⟨rfl, rfl, by decide⟩
theorem isSource_data : IsSource Reg.HDG_SRC_DATA := ⟨rfl, rfl, by decide⟩

/-- The rising half of a pulse moves no source field but the source's own pending bit. -/
theorem pulseHigh_rd (s : State) {i k : Nat} {f : Field} (hf : IsSource f) (hk : k < 1023)
    (h : k ≠ i ∨ f.lo ≠ Reg.HDG_SRC_PENDING.lo) : (pulseHigh s i).rd f [k] = s.rd f [k] := by
  unfold pulseHigh
  split
  · rw [hedgeDecide_sameOn _ f [k] (hf.inSources hk)]
    split
    · rfl
    · exact rd_wr_ne _ _ (hf.key_ne isSource_pending h)
  · rfl

theorem pulseLow_rd (s : State) {i k : Nat} {f : Field} (hf : IsSource f) (h : k ≠ i ∨ f.lo ≠ Reg.HDG_SRC_PENDING.lo) :
    (pulseLow s i).rd f [k] = s.rd f [k] := by
  unfold pulseLow
  dsimp only
  split
  · rfl
  · exact rd_wr_ne _ _ (hf.key_ne isSource_pending h)

/-- Under an edge SENSE the pulse leaves the pending bit set. -/
theorem pulseLow_pending (s : State) {i : Nat} (h : 2 ≤ s.rd Reg.HDG_SRC_SENSE [i]) :
    (pulseLow s i).on Reg.HDG_SRC_PENDING [i] = true := by
  unfold pulseLow
  rw [if_neg (fun c => absurd c.1 (by omega)), if_neg (by omega)]
  simp only [State.on, rd_wr_self]
  rfl

/-- What an event source's request does (R552, R553). -/
theorem hedgeEvent_raises (s : State) {i : Nat} (d : Nat) (hi : i < 1023) : Raises s (hedgeEvent s i d) i d := by
  have kept : ∀ {f : Field} {k : Nat}, IsSource f → k < 1023 → (k ≠ i ∨ f.lo ≠ Reg.HDG_SRC_PENDING.lo) →
      (hedgeEvent s i d).rd f [k] = (s.wr Reg.HDG_SRC_DATA [i] d).rd f [k] := by
    intro f k hf hk h
    have hin := hf.inSources hk
    unfold hedgeEvent
    rw [hedgeDecide_sameOn _ f [k] hin, hostCopy_sameOn _ _ f [k] (inSources_offPost hin), pulseLow_rd _ hf h,
      pulseHigh_rd _ hf hk h]
  refine ⟨hedgeEvent_quiet (.refl s) d hi, ?_, fun hs => ?_, fun k hk hne => ⟨?_, ?_⟩⟩
  · rw [kept isSource_data hi (.inr (by decide)), rd_wr_self]
    rfl
  · have hin := isSource_pending.inSources hi
    unfold hedgeEvent
    rw [(hedgeDecide_sameOn _).on _ _ hin, (hostCopy_sameOn _ _).on _ _ (inSources_offPost hin)]
    refine pulseLow_pending _ ?_
    rw [pulseHigh_rd _ isSource_sense hi (.inr (by decide)),
      rd_wr_ne _ _ (isSource_sense.key_ne isSource_data (.inr (by decide)))]
    exact hs
  · rw [kept isSource_data hk (.inl hne), rd_wr_ne _ _ (isSource_data.key_ne isSource_data (.inl hne))]
  · unfold State.on
    rw [kept isSource_pending hk (.inl hne), rd_wr_ne _ _ (isSource_pending.key_ne isSource_data (.inl hne))]

/-- A level source whose request stands already: nothing happens. -/
theorem hedgeLevel_same {s : State} {i : Nat} {level : Bool} (h : s.on Reg.HDG_SRC_LEVEL [i] = level) (d : Nat) :
    hedgeLevel s i level d = s := if_pos h

/-- The state in which a level source's request rises, its pending bit apart. -/
def State.risen (s : State) (i d : Nat) : State := (s.wrb Reg.HDG_SRC_LEVEL [i] true).wr Reg.HDG_SRC_DATA [i] d

theorem risen_rd (s : State) (i d : Nat) {f : Field} (hf : IsSource f) (hl : f.lo ≠ Reg.HDG_SRC_LEVEL.lo)
    (hd : f.lo ≠ Reg.HDG_SRC_DATA.lo) : (s.risen i d).rd f [i] = s.rd f [i] := by
  unfold State.risen
  rw [rd_wr_ne _ _ (hf.key_ne isSource_data (.inr hd)), rd_wrb_ne _ _ (hf.key_ne isSource_level (.inr hl))]

/-- A rising level is shown with DATA; the pending bit then moves as SENSE says, and set under an inactive level-high
source (R552, R553). -/
theorem hedgeLevel_rising {s : State} {i : Nat} (d : Nat) (h : s.on Reg.HDG_SRC_LEVEL [i] = false) :
    ∃ (u : State) (b : Bool), hedgeLevel s i true d = hedgeDecide (if b then hostCopy u i else u) ∧
      (u = s.risen i d ∨ ∃ v, u = (s.risen i d).wr Reg.HDG_SRC_PENDING [i] v) ∧
      (s.rd Reg.HDG_SRC_SENSE [i] = 0 → s.on Reg.HDG_SRC_ACTIVE [i] = false →
        u = (s.risen i d).wr Reg.HDG_SRC_PENDING [i] 1) := by
  have hs := risen_rd s i d isSource_sense (by decide) (by decide)
  have ha : (s.risen i d).on Reg.HDG_SRC_ACTIVE [i] = s.on Reg.HDG_SRC_ACTIVE [i] := by
    unfold State.on
    rw [risen_rd s i d isSource_active (by decide) (by decide)]
  have hr : (s.wrb Reg.HDG_SRC_LEVEL [i] true).wr Reg.HDG_SRC_DATA [i] d = s.risen i d := rfl
  unfold hedgeLevel
  simp only [h, Bool.false_eq_true, if_false, if_true, hr, hs, ha]
  refine ⟨_, _, rfl, ?_, fun h0 h1 => ?_⟩
  · split
    · split
      · exact .inl rfl
      · exact .inr ⟨_, rfl⟩
    · split
      · exact .inl rfl
      · exact .inr ⟨_, rfl⟩
    · exact .inr ⟨_, rfl⟩
    · exact .inl rfl
    · exact .inr ⟨_, rfl⟩
  · simp only [h0, h1, Bool.false_eq_true, if_false]
    rfl

/-- A source's level rises: it shows, DATA is written, and under a level-high SENSE an inactive source becomes pending. -/
theorem hedgeLevel_rises {s : State} {i : Nat} (d : Nat) (hi : i < 1023) (h : s.on Reg.HDG_SRC_LEVEL [i] = false) :
    (hedgeLevel s i true d).on Reg.HDG_SRC_LEVEL [i] = true ∧
    (hedgeLevel s i true d).rd Reg.HDG_SRC_DATA [i] = d % 2 ^ 32 ∧
    (s.rd Reg.HDG_SRC_SENSE [i] = 0 → s.on Reg.HDG_SRC_ACTIVE [i] = false →
      (hedgeLevel s i true d).on Reg.HDG_SRC_PENDING [i] = true) := by
  obtain ⟨u, b, e, hu, hp⟩ := hedgeLevel_rising d h
  have kept : ∀ {f : Field}, IsSource f → (hedgeLevel s i true d).rd f [i] = u.rd f [i] :=
    fun hf => by rw [e, decideCopy_sameOn u i b _ _ (hf.inSources hi)]
  have shown : ∀ {f : Field}, IsSource f → f.lo ≠ Reg.HDG_SRC_PENDING.lo → u.rd f [i] = (s.risen i d).rd f [i] := by
    intro f hf hl
    rcases hu with rfl | ⟨v, rfl⟩
    · rfl
    · exact rd_wr_ne _ _ (hf.key_ne isSource_pending (.inr hl))
  refine ⟨?_, ?_, fun h0 h1 => ?_⟩
  · unfold State.on State.risen at *
    rw [kept isSource_level, shown isSource_level (by decide), rd_wr_ne _ _ (isSource_level.key_ne isSource_data (.inr (by decide))),
      rd_wrb_self]
    rfl
  · rw [kept isSource_data, shown isSource_data (by decide)]
    exact rd_wr_self _ _ _ _
  · unfold State.on
    rw [kept isSource_pending, hp h0 h1, rd_wr_self]
    rfl

end Sys2Proof.Machine
end

/-! ## Reading register fields beside the one written, and writes by the agents of R15 -/

section
namespace Sys2Proof.Machine

open Host (Outcome)

/-- Two fields replicated alike lie apart at every index when they lie apart at index 0. -/
theorem Field.key_ne {f g : Field} (i : List Nat) (hs : f.strides = g.strides)
    (h : f.base * 128 + f.lo ≠ g.base * 128 + g.lo) : f.key i ≠ g.key i := by
  simp only [Field.key, Field.addr, hs]
  omega

/-- A write leaves the fields of the same replicated block alone. -/
theorem rd_wr_beside (s : State) {f g : Field} (i : List Nat) (v : Nat) (hs : g.strides = f.strides)
    (h : g.base * 128 + g.lo ≠ f.base * 128 + f.lo) : (s.wr f i v).rd g i = s.rd g i :=
  rd_wr_ne s v (Field.key_ne i hs h)

theorem on_wr_beside (s : State) {f g : Field} (i : List Nat) (v : Nat) (hs : g.strides = f.strides)
    (h : g.base * 128 + g.lo ≠ f.base * 128 + f.lo) : (s.wr f i v).on g i = s.on g i :=
  on_wr_ne s v (Field.key_ne i hs h)

/-- A field set to a value reads as a condition by what its width keeps of the value. -/
theorem on_wr_self (s : State) (f : Field) (i : List Nat) (v : Nat) : (s.wr f i v).on f i = (v % 2 ^ f.wid != 0) := by
  unfold State.on
  rw [rd_wr_self]

/-- A saturating sum fits its counter. -/
theorem satAdd_lt (w v n : Nat) : satAdd w v n < 2 ^ w := by
  have := Nat.two_pow_pos w
  unfold satAdd
  omega

/-- A saturating counter reads back its sum. -/
theorem rd_satInc_eq (s : State) (f : Field) (i : List Nat) (n : Nat) :
    (s.satInc f i n).rd f i = satAdd f.wid (s.rd f i) n := by
  rw [rd_satInc_self, Nat.mod_eq_of_lt (satAdd_lt _ _ _)]

/-- Setting the same island data on both sides keeps a frame over registers. -/
theorem OnlyRegs.setCloche {s t : State} {ks : List Nat} (h : OnlyRegs s t ks) (c : Cloche) :
    OnlyRegs { s with cloche := c } { t with cloche := c } ks :=
  ⟨congrArg (fun u : State => { u with cloche := c }) h.rest, h.regs⟩

/-- A write that reaches a firmware-owned register acts (R15). -/
theorem next_fwWrite {s : State} {src : Src} (h : s.mayWrite src = true) (off : Nat) (act : State → State) :
    (.next (fwWrite s src off act) : Outcome State Fault Refusal) = .next (act s) := by
  unfold fwWrite
  rw [if_pos h]

/-- A write that R15 does not allow is at most logged as a violation. -/
theorem fwWrite_quiet {s : State} {src : Src} (h : s.mayWrite src = false) (off : Nat) (act : State → State) :
    Quiet s (fwWrite s src off act) := by
  unfold fwWrite
  rw [if_neg (by simp [h])]
  unfold denied
  split
  · split
    · exact hostViolation_quiet (.refl s) _ _ _ _ (by decide)
    · exact .refl s
  · exact .refl s

/-- Every command of `fwWrites` is one write to a firmware-owned register. -/
theorem exec_fwWrites {src : Src} {n : Fin 8} {c : Instr} (h : c ∈ fwWrites src n) (s : State) :
    ∃ off act, exec c s = .next (fwWrite s src off act) := by
  simp only [fwWrites, List.mem_cons, List.not_mem_nil, or_false] at h
  rcases h with rfl | rfl | rfl | rfl | rfl | rfl | rfl | rfl | rfl | rfl
  all_goals exact ⟨_, _, rfl⟩

section
variable {s : State} {src : Src}

theorem exec_listenEnter (h : s.mayWrite src = true) : exec (.listenEnter src) s = .next (listenEnterOp s) :=
  next_fwWrite h _ _
theorem exec_timerEnable (h : s.mayWrite src = true) (n : Fin 8) :
    exec (.timerEnable src n) s = .next (timerEnableOp s n) := next_fwWrite h _ _
theorem exec_timerDisable (h : s.mayWrite src = true) (n : Fin 8) :
    exec (.timerDisable src n) s = .next (s.wr Reg.CLO_TMR_CTL_EN [n] 0) := next_fwWrite h _ _
theorem exec_expClr (h : s.mayWrite src = true) (n : Fin 8) :
    exec (.expClr src n) s = .next (s.wr Reg.CLO_TMR_CTL_EXPIRIES [n] 0) := next_fwWrite h _ _
theorem exec_kick (h : s.mayWrite src = true) : exec (.kick src) s = .next (kickOp s) := next_fwWrite h _ _
theorem exec_spiStart (h : s.mayWrite src = true) : exec (.spiStart src) s = .next (spiStartOp s) := next_fwWrite h _ _
theorem exec_benchHalt (h : s.mayWrite src = true) : exec (.benchHalt src) s = .next (benchHaltOp s) := next_fwWrite h _ _
theorem exec_benchResume (h : s.mayWrite src = true) :
    exec (.benchResume src) s = .next (if s.isOpen then s.wr Reg.BNC_CTL_HALTED [] 0 else s) := next_fwWrite h _ _
theorem exec_benchStep (h : s.mayWrite src = true) : exec (.benchStep src) s = .next (benchStepOp s) := next_fwWrite h _ _

end

end Sys2Proof.Machine
end

/-! ## LISTEN, the timers, the RTC and the watchdog (R524-R533) -/

section
namespace Sys2Proof.Machine

section
variable {s : State}

theorem listenEnterOp_stays (h : s.on Reg.TOP_PINSTAT_MAIN_EN [] = true ∨ s.wakePending = true) : listenEnterOp s = s :=
  if_pos h

theorem listenEnterOp_enters (h0 : s.on Reg.TOP_PINSTAT_MAIN_EN [] = false) (h1 : s.wakePending = false) :
    listenEnterOp s = (s.wr Reg.CLO_STATE_STATE [] 2).wr Reg.CLO_STATE_REF_OK [] 0 := by
  unfold listenEnterOp
  rw [if_neg (by simp [h0, h1])]

theorem listening_iff : s.listening = true ↔ s.rd Reg.CLO_STATE_STATE [] = 2 := by
  unfold State.listening
  exact beq_iff_eq

theorem listenWakeOp_stays {w : WakeSource} (h : s.rd Reg.CLO_STATE_STATE [] ≠ 2 ∨ s.wakeEnabled w = false) :
    listenWakeOp s w = s := by
  rw [ne_eq, ← listening_iff] at h
  unfold listenWakeOp
  rw [if_neg]
  rcases h with h | h <;> simp [h]

theorem listenWakeOp_wakes {w : WakeSource} (h0 : s.rd Reg.CLO_STATE_STATE [] = 2) (h1 : s.wakeEnabled w = true) :
    listenWakeOp s w = (s.wr Reg.CLO_STATE_STATE [] 0).wr Reg.CLO_STATE_WAKE [] (WakeSource.code w) := by
  rw [← listening_iff] at h0
  unfold listenWakeOp
  rw [h0, h1]
  rfl

/-- The causes of R525 fit WAKE. -/
theorem WakeSource.code_lt (w : WakeSource) : WakeSource.code w < 2 ^ Reg.CLO_STATE_WAKE.wid := by
  have h : WakeSource.code w ≤ 5 := by cases w <;> exact Nat.le_of_ble_eq_true rfl
  exact Nat.lt_of_le_of_lt h (by decide)

theorem referenceStableOp_stays
    (h : s.rd Reg.CLO_STATE_STATE [] = 2 ∨ s.boot.rails = false ∨ s.boot.osc = false) : referenceStableOp s = s := by
  rw [← listening_iff] at h
  unfold referenceStableOp
  rw [if_neg]
  rcases h with h | h | h <;> simp [h]

theorem referenceStableOp_counts (h0 : s.rd Reg.CLO_STATE_STATE [] ≠ 2) (h1 : s.boot.rails = true)
    (h2 : s.boot.osc = true) : referenceStableOp s = s.wr Reg.CLO_STATE_REF_OK [] 1 := by
  have h : s.listening = false := by rwa [← Bool.not_eq_true, listening_iff]
  unfold referenceStableOp
  rw [h, h1, h2]
  rfl

/-! ### Timers -/

theorem timerCompare_eq (s : State) (n : Nat) : timerCompare s n =
    { s with cloche := { s.cloche with tmrDue := s.cloche.tmrDue ++
      (if s.rd Reg.CLO_TMR_CNT_COUNT [n] = s.rd Reg.CLO_TMR_CMP_VALUE [n] then [n] else []) } } := by
  unfold timerCompare
  split
  · rfl
  · rw [List.append_nil]

theorem timerEnableOp_running {n : Nat} (h : s.on Reg.CLO_TMR_CTL_EN [n] = true) : timerEnableOp s n = s := if_pos h

/-- The state in which a stopped timer counts from 0, before its count is compared with CMP. -/
def State.restarted (s : State) (n : Nat) : State :=
  (({ s with cloche := { s.cloche with tmrSub := FMap.set s.cloche.tmrSub 0 n 0 } } : State).wr
    Reg.CLO_TMR_CNT_COUNT [n] 0).wr Reg.CLO_TMR_CTL_EN [n] 1

theorem timerEnableOp_starts {n : Nat} (h : s.on Reg.CLO_TMR_CTL_EN [n] = false) :
    timerEnableOp s n = timerCompare (s.restarted n) n := if_neg (by simp [h])

theorem restarted_en (n : Nat) : (s.restarted n).on Reg.CLO_TMR_CTL_EN [n] = true := on_wr_self _ _ _ _

theorem restarted_count (n : Nat) : (s.restarted n).rd Reg.CLO_TMR_CNT_COUNT [n] = 0 := by
  unfold State.restarted
  rw [rd_wr_beside _ _ _ (by rfl) (by decide), rd_wr_self, Nat.zero_mod]

theorem restarted_cmp (n : Nat) : (s.restarted n).rd Reg.CLO_TMR_CMP_VALUE [n] = s.rd Reg.CLO_TMR_CMP_VALUE [n] := by
  unfold State.restarted
  rw [rd_wr_beside _ _ _ (by rfl) (by decide), rd_wr_beside _ _ _ (by rfl) (by decide)]
  rfl

theorem restarted_regs (n : Nat) (c : Cloche) : OnlyRegs { s with cloche := c } { s.restarted n with cloche := c }
    [Reg.CLO_TMR_CTL_EN.key [n], Reg.CLO_TMR_CNT_COUNT.key [n]] :=
  (((OnlyRegs.refl s _).wr Reg.CLO_TMR_CNT_COUNT [n] 0 (by simp)).wr Reg.CLO_TMR_CTL_EN [n] 1 (by simp)).setCloche c

theorem timerExpiryOp_idle {n : Nat} (h : n ∉ s.cloche.tmrDue) : timerExpiryOp s n = s := by
  unfold timerExpiryOp
  rw [if_neg (by simpa using h)]

/-- The state in which a due timer's source is raised: the expiry is taken and counted. -/
def State.expired (s : State) (n : Nat) : State :=
  ({ s with cloche := { s.cloche with tmrDue := s.cloche.tmrDue.erase n } } : State).satInc Reg.CLO_TMR_CTL_EXPIRIES [n] 1

theorem timerExpiryOp_due {n : Nat} (h : n ∈ s.cloche.tmrDue) :
    timerExpiryOp s n = hedgeEvent (s.expired n) (384 + n) ((s.expired n).rd Reg.CLO_TMR_CTL_EXPIRIES [n]) := by
  unfold timerExpiryOp
  rw [if_pos (by simpa using h)]
  rfl

theorem expired_expiries (n : Nat) :
    (s.expired n).rd Reg.CLO_TMR_CTL_EXPIRIES [n] = satAdd 8 (s.rd Reg.CLO_TMR_CTL_EXPIRIES [n]) 1 :=
  rd_satInc_eq _ _ _ _

/-! ### RTC -/

theorem alarmCompare_eq (s : State) : alarmCompare s =
    { s with cloche := { s.cloche with alarmDue := s.cloche.alarmDue ||
      (s.on Reg.CLO_RTC_CTL_ALARM_EN [] && s.rd Reg.CLO_RTC_SEC_SEC [] == s.rd Reg.CLO_RTC_ALARM_SEC []) } } := by
  unfold alarmCompare
  split
  · rename_i h
    rw [h.1, h.2, beq_self_eq_true, Bool.and_self, Bool.or_true]
  · rename_i h
    have h' : (s.on Reg.CLO_RTC_CTL_ALARM_EN [] && s.rd Reg.CLO_RTC_SEC_SEC [] == s.rd Reg.CLO_RTC_ALARM_SEC []) = false := by
      simpa using h
    rw [h', Bool.or_false]

/-- The registers once an RTC second has passed. -/
def State.nextSecond (s : State) : State := (s.wrapInc Reg.CLO_RTC_SEC_SEC [] 1).wr Reg.CLO_RTC_SUB_SUB [] 0

theorem nextSecond_sec : s.nextSecond.rd Reg.CLO_RTC_SEC_SEC [] = (s.rd Reg.CLO_RTC_SEC_SEC [] + 1) % 2 ^ 32 := by
  unfold State.nextSecond
  rw [rd_wr_beside _ _ _ (by rfl) (by decide), rd_wrapInc_self]
  rfl

theorem nextSecond_regs : OnlyRegs s s.nextSecond [Reg.CLO_RTC_SEC_SEC.key [], Reg.CLO_RTC_SUB_SUB.key []] :=
  ((OnlyRegs.refl s _).wr Reg.CLO_RTC_SEC_SEC [] _ (by decide)).wr Reg.CLO_RTC_SUB_SUB [] _ (by decide)

theorem nextSecond_sub : s.nextSecond.rd Reg.CLO_RTC_SUB_SUB [] = 0 := rd_wr_self _ _ _ _

/-- Beside the registers of the second, an RTC tick may note the alarm and the end of the demand interval. -/
theorem rtcTickOp_second (h : s.boot.rails = true) : ∃ g c, rtcTickOp s = { s.nextSecond with gov := g, cloche := c } ∧
    c.alarmDue = (s.cloche.alarmDue || (s.nextSecond.on Reg.CLO_RTC_CTL_ALARM_EN [] &&
      s.nextSecond.rd Reg.CLO_RTC_SEC_SEC [] == s.nextSecond.rd Reg.CLO_RTC_ALARM_SEC [])) := by
  unfold rtcTickOp
  rw [if_neg (by simp [h])]
  dsimp only
  rw [alarmCompare_eq]
  split
  · exact ⟨_, _, rfl, rfl⟩
  · exact ⟨s.gov, _, rfl, rfl⟩

theorem rtcAlarmOp_due (h : s.cloche.alarmDue = true) : rtcAlarmOp s =
    hedgeEvent { s with cloche := { s.cloche with alarmDue := false } } 396 (s.rd Reg.CLO_RTC_SEC_SEC []) := if_pos h

end

end Sys2Proof.Machine
end

/-! ## What the commands of LISTEN, the timers, the RTC and the watchdog do (R524-R533) -/

section
namespace Sys2Proof.Machine

open Host (Outcome)

section
variable {s : State}

/-- ENTER acts outside MAIN_EN and without a pending wake source (R524). -/
theorem listenEnter_shows {src : Src} (hw : s.mayWrite src = true) (h0 : s.on Reg.TOP_PINSTAT_MAIN_EN [] = false)
    (h1 : s.wakePending = false) : ∃ t, exec (.listenEnter src) s = .next t ∧
      t.rd Reg.CLO_STATE_STATE [] = 2 ∧ t.rd Reg.CLO_STATE_REF_OK [] = 0 ∧
      OnlyRegs s t [Reg.CLO_STATE_STATE.key [], Reg.CLO_STATE_REF_OK.key []] := by
  refine ⟨_, (exec_listenEnter hw).trans (congrArg _ (listenEnterOp_enters h0 h1)), ?_, ?_, ?_⟩
  · rw [rd_wr_beside _ _ _ (by rfl) (by decide), rd_wr_self]
    rfl
  · exact rd_wr_self _ _ _ _
  · exact ((OnlyRegs.refl s _).wr _ _ _ (by decide)).wr _ _ _ (by decide)

/-- The first enabled wake source ends LISTEN and is recorded (R525). -/
theorem listenWake_ends {w : WakeSource} (h0 : s.rd Reg.CLO_STATE_STATE [] = 2) (h1 : s.wakeEnabled w = true) :
    ∃ t, exec (.listenWake w) s = .next t ∧ t.rd Reg.CLO_STATE_STATE [] = 0 ∧
      t.rd Reg.CLO_STATE_WAKE [] = WakeSource.code w ∧
      OnlyRegs s t [Reg.CLO_STATE_STATE.key [], Reg.CLO_STATE_WAKE.key []] := by
  refine ⟨_, congrArg Outcome.next (listenWakeOp_wakes h0 h1), ?_, ?_, ?_⟩
  · rw [rd_wr_beside _ _ _ (by rfl) (by decide), rd_wr_self]
    rfl
  · rw [rd_wr_self, Nat.mod_eq_of_lt (WakeSource.code_lt w)]
  · exact ((OnlyRegs.refl s _).wr _ _ _ (by decide)).wr _ _ _ (by decide)

theorem referenceStable_counts (h0 : s.rd Reg.CLO_STATE_STATE [] ≠ 2) (h1 : s.boot.rails = true) (h2 : s.boot.osc = true) :
    ∃ t, exec .referenceStable s = .next t ∧ t.rd Reg.CLO_STATE_REF_OK [] = 1 ∧
      OnlyRegs s t [Reg.CLO_STATE_REF_OK.key []] :=
  ⟨_, congrArg Outcome.next (referenceStableOp_counts h0 h1 h2), rd_wr_self _ _ _ _,
    (OnlyRegs.refl s _).wr _ _ _ (by decide)⟩

/-- A stopped timer that is enabled counts from 0, and its expiry is due at once when CMP is 0 (R532). -/
theorem timerEnable_starts {src : Src} (hw : s.mayWrite src = true) {n : Fin 8} (h : s.on Reg.CLO_TMR_CTL_EN [n] = false) :
    ∃ t, exec (.timerEnable src n) s = .next t ∧ t.on Reg.CLO_TMR_CTL_EN [n] = true ∧ t.rd Reg.CLO_TMR_CNT_COUNT [n] = 0 ∧
      t.cloche.tmrDue = s.cloche.tmrDue ++ (if s.rd Reg.CLO_TMR_CMP_VALUE [n] = 0 then [n.val] else []) ∧
      OnlyRegs { s with cloche := t.cloche } t [Reg.CLO_TMR_CTL_EN.key [n], Reg.CLO_TMR_CNT_COUNT.key [n]] := by
  refine ⟨_, (exec_timerEnable hw n).trans (congrArg _ ((timerEnableOp_starts h).trans (timerCompare_eq _ _))),
    restarted_en _, restarted_count _, ?_, restarted_regs _ _⟩
  simp only [restarted_count, restarted_cmp, eq_comm (a := 0)]
  rfl

theorem timerDisable_stops {src : Src} (hw : s.mayWrite src = true) (n : Fin 8) :
    ∃ t, exec (.timerDisable src n) s = .next t ∧ t.on Reg.CLO_TMR_CTL_EN [n] = false ∧
      t.rd Reg.CLO_TMR_CNT_COUNT [n] = s.rd Reg.CLO_TMR_CNT_COUNT [n] ∧ OnlyRegs s t [Reg.CLO_TMR_CTL_EN.key [n]] :=
  ⟨_, exec_timerDisable hw n, on_wr_self _ _ _ _, rd_wr_beside _ _ _ rfl (by decide),
    (OnlyRegs.refl s _).wr _ _ _ (List.mem_singleton.mpr rfl)⟩

theorem expClr_clears {src : Src} (hw : s.mayWrite src = true) (n : Fin 8) :
    ∃ t, exec (.expClr src n) s = .next t ∧ t.rd Reg.CLO_TMR_CTL_EXPIRIES [n] = 0 ∧
      OnlyRegs s t [Reg.CLO_TMR_CTL_EXPIRIES.key [n]] :=
  ⟨_, exec_expClr hw n, rd_wr_self _ _ _ _, (OnlyRegs.refl s _).wr _ _ _ (List.mem_singleton.mpr rfl)⟩

/-- A due expiry counts and raises the timer's source (R532, R533). -/
theorem timerExpiry_raises {n : Fin 8} (h : n.val ∈ s.cloche.tmrDue) :
    ∃ t u, exec (.timerExpiry n) s = .next t ∧
      Raises u t (384 + n) (satAdd 8 (s.rd Reg.CLO_TMR_CTL_EXPIRIES [n]) 1) ∧
      u.rd Reg.CLO_TMR_CTL_EXPIRIES [n] = satAdd 8 (s.rd Reg.CLO_TMR_CTL_EXPIRIES [n]) 1 ∧
      u.cloche = { s.cloche with tmrDue := s.cloche.tmrDue.erase n } ∧
      OnlyRegs { s with cloche := u.cloche } u [Reg.CLO_TMR_CTL_EXPIRIES.key [n]] := by
  have hx := expired_expiries (s := s) n
  refine ⟨_, s.expired n, congrArg Outcome.next (timerExpiryOp_due h), ?_, hx, rfl,
    (OnlyRegs.refl _ _).wr _ _ _ (List.mem_singleton.mpr rfl)⟩
  rw [hx]
  exact hedgeEvent_raises _ _ (by omega)

/-- An RTC second (R531). -/
theorem rtcTick_second (h : s.boot.rails = true) :
    ∃ t, exec .rtcTick s = .next t ∧
      t.rd Reg.CLO_RTC_SEC_SEC [] = (s.rd Reg.CLO_RTC_SEC_SEC [] + 1) % 2 ^ 32 ∧ t.rd Reg.CLO_RTC_SUB_SUB [] = 0 ∧
      (t.cloche.alarmDue = true ↔ s.cloche.alarmDue = true ∨ (s.on Reg.CLO_RTC_CTL_ALARM_EN [] = true ∧
        t.rd Reg.CLO_RTC_SEC_SEC [] = s.rd Reg.CLO_RTC_ALARM_SEC [])) ∧
      OnlyRegs { s with cloche := t.cloche, gov := t.gov } t
        [Reg.CLO_RTC_SEC_SEC.key [], Reg.CLO_RTC_SUB_SUB.key []] := by
  obtain ⟨g, c, e, hc⟩ := rtcTickOp_second h
  have hr := nextSecond_regs (s := s)
  have hen : s.nextSecond.on Reg.CLO_RTC_CTL_ALARM_EN [] = s.on Reg.CLO_RTC_CTL_ALARM_EN [] := by
    unfold State.on
    rw [hr.regs _ _ (by decide)]
  have hal := hr.regs Reg.CLO_RTC_ALARM_SEC [] (by decide)
  refine ⟨_, congrArg Outcome.next e, nextSecond_sec, nextSecond_sub, ?_, ⟨rfl, hr.regs⟩⟩
  rw [hen, hal] at hc
  simp only [hc, Bool.or_eq_true, Bool.and_eq_true, beq_iff_eq]
  rfl

/-- A due alarm raises its source and is due no longer (R531). -/
theorem rtcAlarm_raises (h : s.cloche.alarmDue = true) :
    ∃ t, exec .rtcAlarm s = .next t ∧ t.cloche.alarmDue = false ∧
      Raises { s with cloche := { s.cloche with alarmDue := false } } t 396 (s.rd Reg.CLO_RTC_SEC_SEC []) := by
  have hr := hedgeEvent_raises { s with cloche := { s.cloche with alarmDue := false } } (i := 396)
    (s.rd Reg.CLO_RTC_SEC_SEC []) (by decide)
  refine ⟨_, congrArg Outcome.next (rtcAlarmOp_due h), ?_, hr⟩
  rw [hr.quiet.cloche]

end

/-- Settles O50: each command is one write of R15 or one event, and its registers are read back after that. -/
theorem listenTimersAndRtc : Obligations.ListenTimersAndRtc := by
  intro s
  refine ⟨fun src n c hw hc => ?_, fun src hw => ⟨fun h => ?_, listenEnter_shows hw, ?_, fun n => ⟨fun h => ?_,
    timerEnable_starts hw, timerDisable_stops hw n, expClr_clears hw n⟩⟩, fun w => ⟨fun h => ?_, fun h0 h1 => ?_⟩,
    ⟨fun h => ?_, referenceStable_counts⟩, fun n => ⟨fun h => ?_, timerExpiry_raises⟩, ⟨fun h => ?_, rtcTick_second⟩,
    ⟨fun h => ?_, rtcAlarm_raises⟩⟩
  · obtain ⟨off, act, e⟩ := exec_fwWrites hc s
    exact ⟨_, e, fwWrite_quiet hw off act⟩
  · rw [exec_listenEnter hw, listenEnterOp_stays h]
  · exact ⟨_, exec_kick hw, rfl, rfl⟩
  · rw [exec_timerEnable hw, timerEnableOp_running h]
  · exact congrArg Outcome.next (listenWakeOp_stays h)
  · obtain ⟨t, e, h2, h3, h4⟩ := listenWake_ends h0 h1
    refine ⟨t, e, h2, h3.trans ?_, h4⟩
    cases w <;> rfl
  · exact congrArg Outcome.next (referenceStableOp_stays h)
  · exact congrArg Outcome.next (timerExpiryOp_idle h)
  · exact congrArg Outcome.next (if_pos (by simp [h]))
  · exact congrArg Outcome.next (if_neg (by simp [h]))

end Sys2Proof.Machine
end

/-! ## Writes of working SRAM (R526, R528) -/

section
namespace Sys2Proof.Machine

/-! ### Byte strings -/

theorem padTo_length (n : Nat) (l : List Byte) : (padTo n l).length = n := by
  simp only [padTo, fill, List.length_take, List.length_append, List.length_replicate]
  omega

/-- A byte of a padded string: beyond the string's end it is the zero that `getD` answers there. -/
theorem padTo_getD {n i : Nat} (l : List Byte) (h : i < n) : (padTo n l).getD i 0 = l.getD i 0 := by
  simp only [padTo, fill, List.getD_eq_getElem?_getD, List.getElem?_take_of_lt h, List.getElem?_append,
    List.getElem?_replicate]
  split
  · rfl
  · rw [List.getElem?_eq_none (by omega)]
    split <;> rfl

theorem leBytes_length (n v : Nat) : (leBytes n v).length = n := by
  induction n generalizing v with
  | zero => rfl
  | succ n ih => exact congrArg (· + 1) (ih _)

theorem leBytes_getD {n k : Nat} (v : Nat) (h : k < n) : (leBytes n v).getD k 0 = BitVec.ofNat 8 (v / 256 ^ k) := by
  induction n generalizing v k with
  | zero => omega
  | succ n ih =>
    cases k with
    | zero => simp [leBytes]
    | succ k =>
      rw [leBytes, List.getD_cons_succ, ih _ (by omega), Nat.div_div_eq_div_mul, Nat.pow_succ']

/-- The two bytes of a sample do not see what is cut from it. -/
theorem sampleByte_mod (v : Nat) {k : Nat} (h : k < 2) :
    BitVec.ofNat 8 (v % 65536 / 256 ^ k) = BitVec.ofNat 8 (v / 256 ^ k) := by
  refine BitVec.eq_of_toNat_eq ?_
  simp only [BitVec.toNat_ofNat]
  obtain rfl | rfl : k = 0 ∨ k = 1 := by omega
  · omega
  · omega

/-! ### Writes of working SRAM -/

/-- The state with other SRAM contents. -/
def State.withSram (s : State) (m : FMap Byte) : State := { s with cloche := { s.cloche with sram := m } }

theorem sramByte_withSram (s : State) {m : FMap Byte} {x : Nat} (h : FMap.find m x = FMap.find s.cloche.sram x) :
    (s.withSram m).sramByte x = s.sramByte x := by
  simp only [State.sramByte, State.withSram, h]

theorem workPut_cons (s : State) (a : Nat) (b : Byte) (r : List Byte) :
    workPut s a (b :: r) = workPut (workPut s a [b]) (a + 1) r := rfl

/-- One byte inside the working region is put; one outside is not. -/
theorem workPut_inside (s : State) {a : Nat} (b : Byte) (h : 0x40000 ≤ a ∧ a < retainedBase) :
    workPut s a [b] = s.withSram (FMap.put s.cloche.sram a b) := by
  have hs : 0x40000 ≤ a ∧ a < sramSize := ⟨h.1, Nat.lt_trans h.2 (by decide)⟩
  simp only [workPut, sramPut, if_pos h, if_pos hs]
  rfl

theorem workPut_outside (s : State) {a : Nat} (b : Byte) (h : ¬ (0x40000 ≤ a ∧ a < retainedBase)) :
    workPut s a [b] = s := if_neg h

/-- A write of working SRAM changes what SRAM holds and nothing else. -/
theorem workPut_withSram (s : State) (a : Nat) (l : List Byte) : ∃ m, workPut s a l = s.withSram m := by
  induction l generalizing s a with
  | nil => exact ⟨s.cloche.sram, rfl⟩
  | cons b r ih =>
    rw [workPut_cons]
    by_cases h : 0x40000 ≤ a ∧ a < retainedBase
    · rw [workPut_inside s b h]
      exact ih _ _
    · rw [workPut_outside s b h]
      exact ih _ _

theorem workPut_regs (s : State) (a : Nat) (l : List Byte) (ks : List Nat) :
    OnlyRegs { s with cloche := (workPut s a l).cloche } (workPut s a l) ks := by
  obtain ⟨m, e⟩ := workPut_withSram s a l
  rw [e]
  exact .refl _ _

theorem workPut_single_self (s : State) {a : Nat} (b : Byte) (h : 0x40000 ≤ a ∧ a < retainedBase) :
    (workPut s a [b]).sramByte a = b := by
  have hc : ¬ a < 0x40000 := Nat.not_lt.mpr h.1
  rw [workPut_inside s b h]
  simp only [State.sramByte, State.withSram, if_neg hc, FMap.find_put_self]

theorem workPut_single_ne (s : State) {a x : Nat} (b : Byte) (h : x ≠ a ∨ ¬ (0x40000 ≤ x ∧ x < retainedBase)) :
    (workPut s a [b]).sramByte x = s.sramByte x := by
  by_cases ha : 0x40000 ≤ a ∧ a < retainedBase
  · have hx : x ≠ a := h.elim id fun hn e => hn (e ▸ ha)
    rw [workPut_inside s b ha, sramByte_withSram _ (FMap.find_put_ne _ _ hx)]
  · rw [workPut_outside s b ha]

/-- Bytes beside the string or outside the working region stand. -/
theorem workPut_byte_ne (s : State) {a x : Nat} (l : List Byte)
    (h : x < a ∨ a + l.length ≤ x ∨ ¬ (0x40000 ≤ x ∧ x < retainedBase)) :
    (workPut s a l).sramByte x = s.sramByte x := by
  induction l generalizing s a with
  | nil => rfl
  | cons b r ih =>
    rw [List.length_cons] at h
    rw [workPut_cons, ih _ (by omega), workPut_single_ne _ _ (by omega)]

/-- Bytes of the string that fall in the working region stand there. -/
theorem workPut_byte (s : State) {a x : Nat} (l : List Byte) (hx : 0x40000 ≤ x ∧ x < retainedBase) (ha : a ≤ x)
    (hl : x < a + l.length) : (workPut s a l).sramByte x = l.getD (x - a) 0 := by
  induction l generalizing s a with
  | nil => simp only [List.length_nil] at hl; omega
  | cons b r ih =>
    rw [List.length_cons] at hl
    rw [workPut_cons]
    obtain rfl | hlt : x = a ∨ a < x := by omega
    · rw [workPut_byte_ne _ _ (by omega), workPut_single_self s b hx, Nat.sub_self, List.getD_cons_zero]
    · rw [ih _ (by omega) (by omega), show x - a = x - (a + 1) + 1 by omega, List.getD_cons_succ]

end Sys2Proof.Machine
end

/-! ## What edges, transfers, samples and debug writes do (R529, R534-R537, R545) -/

section
namespace Sys2Proof.Machine

open Host (Outcome)

section
variable {s : State}

/-! ### GPIO edges -/

/-- Putting a bit of a 4-bit register moves that bit alone and stays in the register. -/
theorem bitOf_putBit : ∀ (v : Fin 16) (n k : Fin 4) (b : Bool),
    bitOf (putBit v n b % 16) k = if k = n then b else bitOf v k := by decide

theorem bitOf_wr_putBit (f : Field) (i : List Nat) (hw : f.wid = 4) (n k : Fin 4) (b : Bool) :
    bitOf ((s.wr f i (putBit (s.rd f i) n b)).rd f i) k = if k = n then b else bitOf (s.rd f i) k := by
  have h := rd_lt s f i
  rw [rd_wr_self]
  rw [hw] at h ⊢
  exact bitOf_putBit ⟨s.rd f i, h⟩ n k b

theorem gpi_keys_apart : ∀ n : Fin 4, (gpiEn n).key [] ≠ Reg.CLO_GPI_LVL_LVL.key [] ∧
    (gpiSense n).key [] ≠ Reg.CLO_GPI_LVL_LVL.key [] ∧ (gpiCnt n).key [] ≠ Reg.CLO_GPI_LVL_LVL.key [] ∧
    (gpiCnt n).key [] ≠ Reg.CLO_GPI_LATCH_LATCH.key [] := by decide

/-- The registers of GPIO lie apart from Hedge's sources. -/
theorem IsSource.not_gpi {f : Field} (hf : IsSource f) {i : Nat} (hi : i < 1023) (n : Nat) :
    f.key [i] ∉ [Reg.CLO_GPI_LVL_LVL.key [], Reg.CLO_GPI_LATCH_LATCH.key [], (gpiCnt n).key []] := by
  have h := hf.inSources hi
  have hb : ∀ k, k ∈ [Reg.CLO_GPI_LVL_LVL.key [], Reg.CLO_GPI_LATCH_LATCH.key [], (gpiCnt n).key []] → 0x220000 * 128 ≤ k := by
    simp only [List.mem_cons, List.not_mem_nil, or_false]
    rintro k (rfl | rfl | rfl)
    · decide
    · decide
    · simp only [Field.key, Field.addr, dotIdx, gpiCnt, Reg.CLO_GPI_CNT_CNT0]
      omega
  exact fun hm => absurd (hb _ hm) (Nat.not_le.mpr h.2)

/-- Whether an edge to `level` sets input `n`'s latch: the input is enabled and SENSE selects the edge (R534). -/
def State.gpiSenses (s : State) (n : Nat) (level : Bool) : Bool :=
  s.on (gpiEn n) [] && bitOf (s.rd (gpiSense n) []) (if level then 0 else 1)

/-- The state with the input's new level. -/
def State.gpiMoved (s : State) (n : Nat) (level : Bool) : State :=
  s.wr Reg.CLO_GPI_LVL_LVL [] (putBit (s.rd Reg.CLO_GPI_LVL_LVL []) n level)

/-- The state with the edge latched and counted too. -/
def State.gpiLatched (s : State) (n : Nat) (level : Bool) : State :=
  ((s.gpiMoved n level).wr Reg.CLO_GPI_LATCH_LATCH []
    (putBit ((s.gpiMoved n level).rd Reg.CLO_GPI_LATCH_LATCH []) n true)).satInc (gpiCnt n) [] 1

theorem gpiEdgeOp_stays {n : Nat} {level : Bool}
    (h : s.boot.rails = false ∨ bitOf (s.rd Reg.CLO_GPI_LVL_LVL []) n = level) : gpiEdgeOp s n level = s :=
  if_pos (h.imp_left (by simp [·]))

/-- An edge moves the level; a sensed one is also latched and counted, and raises the source's level. -/
theorem gpiEdgeOp_moves {n : Fin 4} {level : Bool} (h0 : s.boot.rails = true)
    (h1 : bitOf (s.rd Reg.CLO_GPI_LVL_LVL []) n = !level) : gpiEdgeOp s n level =
      if s.gpiSenses n level then
        hedgeLevel (s.gpiLatched n level) (392 + n) true ((s.gpiLatched n level).rd (gpiCnt n) [])
      else s.gpiMoved n level := by
  obtain ⟨hen, hse, -, -⟩ := gpi_keys_apart n
  have e : s.gpiSenses n level = ((s.gpiMoved n level).on (gpiEn n) [] &&
      (if level then bitOf ((s.gpiMoved n level).rd (gpiSense n) []) 0 else bitOf ((s.gpiMoved n level).rd (gpiSense n) []) 1)) := by
    unfold State.gpiMoved State.gpiSenses
    rw [on_wr_ne _ _ hen, rd_wr_ne _ _ hse]
    cases level <;> rfl
  unfold gpiEdgeOp
  rw [if_neg (by simp [h0, h1]), e]
  rfl

theorem gpiMoved_regs (n : Nat) (level : Bool) : OnlyRegs s (s.gpiMoved n level) [Reg.CLO_GPI_LVL_LVL.key []] :=
  (OnlyRegs.refl s _).wr _ _ _ (by decide)

theorem gpiMoved_level (n k : Fin 4) (level : Bool) : bitOf ((s.gpiMoved n level).rd Reg.CLO_GPI_LVL_LVL []) k =
    if k = n then level else bitOf (s.rd Reg.CLO_GPI_LVL_LVL []) k := bitOf_wr_putBit _ _ rfl n k level

theorem gpiLatched_regs (n : Nat) (level : Bool) : OnlyRegs s (s.gpiLatched n level)
    [Reg.CLO_GPI_LVL_LVL.key [], Reg.CLO_GPI_LATCH_LATCH.key [], (gpiCnt n).key []] :=
  (((OnlyRegs.refl s _).wr Reg.CLO_GPI_LVL_LVL [] _ (by simp)).wr Reg.CLO_GPI_LATCH_LATCH [] _ (by simp)).wr
    (gpiCnt n) [] _ (by simp)

theorem gpiLatched_level (n k : Fin 4) (level : Bool) : bitOf ((s.gpiLatched n level).rd Reg.CLO_GPI_LVL_LVL []) k =
    if k = n then level else bitOf (s.rd Reg.CLO_GPI_LVL_LVL []) k := by
  obtain ⟨-, -, hcnt, -⟩ := gpi_keys_apart n
  unfold State.gpiLatched
  rw [rd_satInc_ne _ _ hcnt.symm, rd_wr_ne _ _ (by decide)]
  exact gpiMoved_level n k level

theorem gpiLatched_latch (n k : Fin 4) (level : Bool) : bitOf ((s.gpiLatched n level).rd Reg.CLO_GPI_LATCH_LATCH []) k =
    if k = n then true else bitOf (s.rd Reg.CLO_GPI_LATCH_LATCH []) k := by
  obtain ⟨-, -, -, hcnt⟩ := gpi_keys_apart n
  unfold State.gpiLatched
  rw [rd_satInc_ne _ _ hcnt.symm, bitOf_wr_putBit _ _ rfl, (gpiMoved_regs n level).regs _ _ (by decide)]

theorem gpiLatched_count (n : Fin 4) (level : Bool) :
    (s.gpiLatched n level).rd (gpiCnt n) [] = satAdd 8 (s.rd (gpiCnt n) []) 1 := by
  obtain ⟨-, -, hlvl, hlatch⟩ := gpi_keys_apart n
  unfold State.gpiLatched
  rw [rd_satInc_eq, rd_wr_ne _ _ hlatch, (gpiMoved_regs n level).regs _ _ (by simpa using hlvl)]
  rfl

theorem gpiLatched_source (n : Fin 4) (level : Bool) {f : Field} (hf : IsSource f) :
    (s.gpiLatched n level).rd f [392 + n.val] = s.rd f [392 + n.val] :=
  (gpiLatched_regs n level).regs f _ (hf.not_gpi (by omega) n)

/-- An edge that is not sensed only moves the level. -/
theorem gpiEdge_unsensed {n : Fin 4} {level : Bool} (h0 : s.boot.rails = true)
    (h1 : bitOf (s.rd Reg.CLO_GPI_LVL_LVL []) n = !level) (hs : s.gpiSenses n level = false) :
    exec (.gpiEdge n level) s = .next (s.gpiMoved n level) := by
  refine congrArg Outcome.next ((gpiEdgeOp_moves h0 h1).trans ?_)
  rw [hs]
  rfl

/-- A sensed edge raises the level of the input's source with the count as DATA. -/
theorem gpiEdge_sensed {n : Fin 4} {level : Bool} (h0 : s.boot.rails = true)
    (h1 : bitOf (s.rd Reg.CLO_GPI_LVL_LVL []) n = !level) (hs : s.gpiSenses n level = true) :
    exec (.gpiEdge n level) s =
      .next (hedgeLevel (s.gpiLatched n level) (392 + n) true (satAdd 8 (s.rd (gpiCnt n) []) 1)) := by
  refine congrArg Outcome.next ((gpiEdgeOp_moves h0 h1).trans ?_)
  rw [hs, gpiLatched_count]
  rfl

/-- What a sensed edge shows of the source: a standing level stays, and a rising one is raised with DATA. -/
theorem gpiEdge_source (n : Fin 4) (level : Bool) {d : Nat} (hd : d < 2 ^ 32) :
    (s.on Reg.HDG_SRC_LEVEL [392 + n] = true → hedgeLevel (s.gpiLatched n level) (392 + n) true d = s.gpiLatched n level) ∧
    (s.on Reg.HDG_SRC_LEVEL [392 + n] = false →
      (hedgeLevel (s.gpiLatched n level) (392 + n) true d).on Reg.HDG_SRC_LEVEL [392 + n] = true ∧
      (hedgeLevel (s.gpiLatched n level) (392 + n) true d).rd Reg.HDG_SRC_DATA [392 + n] = d ∧
      (s.rd Reg.HDG_SRC_SENSE [392 + n] = 0 → s.on Reg.HDG_SRC_ACTIVE [392 + n] = false →
        (hedgeLevel (s.gpiLatched n level) (392 + n) true d).on Reg.HDG_SRC_PENDING [392 + n] = true)) := by
  have same : ∀ {f : Field}, IsSource f → (s.gpiLatched n level).on f [392 + n.val] = s.on f [392 + n.val] :=
    fun hf => by unfold State.on; rw [gpiLatched_source n level hf]
  refine ⟨fun h => hedgeLevel_same ((same isSource_level).trans h) d, fun h => ?_⟩
  obtain ⟨hl, hdata, hp⟩ := hedgeLevel_rises d (i := 392 + n) (by omega) ((same isSource_level).trans h)
  refine ⟨hl, hdata.trans (Nat.mod_eq_of_lt hd), fun h0 h1 => hp ?_ ((same isSource_active).trans h1)⟩
  rw [gpiLatched_source n level isSource_sense, h0]

/-! ### SPI -/

theorem spiStart_sends {src : Src} (hw : s.mayWrite src = true) (h : s.on Reg.CLO_SPI_CTL_BUSY [] = false) :
    ∃ t, exec (.spiStart src) s = .next t ∧ t.on Reg.CLO_SPI_CTL_BUSY [] = true ∧
      t.outs = .spi (s.sramRead (s.rd Reg.CLO_SPI_ADDR_ADDR []) (min (s.rd Reg.CLO_SPI_CTL_LEN1 [] + 1) 4096)) :: s.outs ∧
      OnlyRegs { s with outs := t.outs } t [Reg.CLO_SPI_CTL_BUSY.key []] :=
  ⟨_, (exec_spiStart hw).trans (congrArg _ (if_neg (by simp [h]))), on_wr_self s Reg.CLO_SPI_CTL_BUSY [] 1, rfl,
    (OnlyRegs.refl _ _).wr Reg.CLO_SPI_CTL_BUSY [] 1 (by decide)⟩

/-- The state in which a transfer's completion source is raised: the buffer holds what was received and BUSY is clear. -/
def State.spiReceived (s : State) (l : List Byte) : State :=
  (workPut s (s.rd Reg.CLO_SPI_ADDR_ADDR []) (padTo (min (s.rd Reg.CLO_SPI_CTL_LEN1 [] + 1) 4096) l)).wr
    Reg.CLO_SPI_CTL_BUSY [] 0

/-- The completion of a transfer (R536). -/
theorem spiComplete_receives (l : List Byte) (h : s.on Reg.CLO_SPI_CTL_BUSY [] = true) :
    ∃ t u, exec (.spiComplete l) s = .next t ∧ Raises u t 397 0 ∧ u.on Reg.CLO_SPI_CTL_BUSY [] = false ∧
      (∀ a n, 0x40000 ≤ a → a < 0xC0000 → n = min (s.rd Reg.CLO_SPI_CTL_LEN1 [] + 1) 4096 →
        s.rd Reg.CLO_SPI_ADDR_ADDR [] ≤ a → a < s.rd Reg.CLO_SPI_ADDR_ADDR [] + n →
        u.sramByte a = l.getD (a - s.rd Reg.CLO_SPI_ADDR_ADDR []) 0) ∧
      (∀ a n, n = min (s.rd Reg.CLO_SPI_CTL_LEN1 [] + 1) 4096 →
        (a < 0x40000 ∨ 0xC0000 ≤ a ∨ a < s.rd Reg.CLO_SPI_ADDR_ADDR [] ∨ s.rd Reg.CLO_SPI_ADDR_ADDR [] + n ≤ a) →
        u.sramByte a = s.sramByte a) ∧
      OnlyRegs { s with cloche := u.cloche } u [Reg.CLO_SPI_CTL_BUSY.key []] := by
  refine ⟨_, s.spiReceived l, congrArg Outcome.next (if_pos h), hedgeEvent_raises _ 0 (by decide),
    on_wr_self _ _ _ 0, ?_, ?_, (workPut_regs s _ _ _).wr _ _ 0 (by decide)⟩
  · rintro a n h1 h2 rfl h3 h4
    refine (workPut_byte s _ ⟨h1, h2⟩ h3 ?_).trans (padTo_getD l ?_)
    · rwa [padTo_length]
    · omega
  · rintro a n rfl h1
    refine workPut_byte_ne s _ ?_
    rw [padTo_length]
    unfold retainedBase
    omega

/-! ### PDM -/

/-- The counter of samples dropped on a port. -/
def pdmDrop (n : Nat) : Field := if n = 0 then Reg.CLO_PDM_STAT_DROP0 else Reg.CLO_PDM_STAT_DROP1

theorem pdmDrop_fin (n : Fin 2) : (if n = 0 then Reg.CLO_PDM_STAT_DROP0 else Reg.CLO_PDM_STAT_DROP1) = pdmDrop n := by
  simp only [pdmDrop, Fin.ext_iff]
  rfl

theorem pdmDrop_wid (n : Nat) : (pdmDrop n).wid = 16 := by
  unfold pdmDrop
  split <;> rfl

/-- The index after WR in the ring of a port. -/
def State.pdmNext (s : State) (n : Nat) : Nat :=
  if s.rd Reg.CLO_PDM_RD_WR [n] + 2 < s.rd Reg.CLO_PDM_CTL_SIZE [n] * 64 then s.rd Reg.CLO_PDM_RD_WR [n] + 2 else 0

/-- Whether a port has no room for a sample: the seam runs, it has no ring, or its ring is full (R537, R545). -/
def State.pdmFull (s : State) (n : Nat) : Prop :=
  s.on Reg.CLO_FWSTAT_SEAM [] = true ∨ s.rd Reg.CLO_PDM_CTL_SIZE [n] * 64 = 0 ∨ s.pdmNext n = s.rd Reg.CLO_PDM_RD_RD [n]

/-- The state with a sample in the ring. -/
def State.pdmStored (s : State) (n v : Nat) : State :=
  (workPut s (s.rd Reg.CLO_PDM_CTL_BASE [n] * 1024 + s.rd Reg.CLO_PDM_RD_WR [n]) (leBytes 2 (v % 65536))).wr
    Reg.CLO_PDM_RD_WR [n] (s.pdmNext n)

theorem pdmSample_off {n : Fin 2} (v : Nat) (h : s.on Reg.CLO_PDM_CTL_EN [n] = false) :
    exec (.pdmSample n v) s = .next s := congrArg Outcome.next (if_pos (by simp [h]))

theorem pdmSampleOp_full {n : Nat} (v : Nat) (h : s.on Reg.CLO_PDM_CTL_EN [n] = true) (hf : s.pdmFull n) :
    pdmSampleOp s n v = s.satInc (pdmDrop n) [] 1 := (if_neg (by simp [h])).trans (if_pos hf)

theorem pdmSampleOp_room {n : Nat} (v : Nat) (h : s.on Reg.CLO_PDM_CTL_EN [n] = true) (hf : ¬ s.pdmFull n) :
    pdmSampleOp s n (v % 65536) =
      if s.pdmNext n % 1024 = 0 then hedgeEvent (s.pdmStored n v) (398 + n) (s.pdmNext n) else s.pdmStored n v :=
  (if_neg (by simp [h])).trans (if_neg hf)

theorem pdmSample_drops {n : Fin 2} (v : Nat) (h : s.on Reg.CLO_PDM_CTL_EN [n] = true) (hf : s.pdmFull n) :
    ∃ t, exec (.pdmSample n v) s = .next t ∧ t.rd (pdmDrop n) [] = satAdd 16 (s.rd (pdmDrop n) []) 1 ∧
      OnlyRegs s t [(pdmDrop n).key []] := by
  refine ⟨_, congrArg Outcome.next (pdmSampleOp_full _ h hf), ?_, (OnlyRegs.refl s _).wr _ _ _ (List.mem_singleton.mpr rfl)⟩
  rw [rd_satInc_eq, pdmDrop_wid]

/-- A sample that finds room (R537). -/
theorem pdmSample_stores {n : Fin 2} (v : Nat) (h : s.on Reg.CLO_PDM_CTL_EN [n] = true) (hf : ¬ s.pdmFull n) :
    ∃ t, exec (.pdmSample n v) s = .next t ∧ (s.pdmNext n % 1024 ≠ 0 → t = s.pdmStored n v) ∧
      (s.pdmNext n % 1024 = 0 → Raises (s.pdmStored n v) t (398 + n) (s.pdmNext n)) := by
  refine ⟨_, congrArg Outcome.next (pdmSampleOp_room v h hf), fun hb => if_neg hb, fun hb => ?_⟩
  rw [if_pos hb]
  exact hedgeEvent_raises _ _ (by omega)

theorem pdmStored_wr (n v : Nat) : (s.pdmStored n v).rd Reg.CLO_PDM_RD_WR [n] = s.pdmNext n % 65536 := rd_wr_self _ _ _ _

theorem pdmStored_byte (n v : Nat) {k : Nat} (hk : k < 2)
    (h0 : 0x40000 ≤ s.rd Reg.CLO_PDM_CTL_BASE [n] * 1024 + s.rd Reg.CLO_PDM_RD_WR [n] + k)
    (h1 : s.rd Reg.CLO_PDM_CTL_BASE [n] * 1024 + s.rd Reg.CLO_PDM_RD_WR [n] + k < 0xC0000) :
    (s.pdmStored n v).sramByte (s.rd Reg.CLO_PDM_CTL_BASE [n] * 1024 + s.rd Reg.CLO_PDM_RD_WR [n] + k) =
      BitVec.ofNat 8 (v / 256 ^ k) := by
  refine (workPut_byte s _ ⟨h0, h1⟩ (Nat.le_add_right _ _) ?_).trans ?_
  · rw [leBytes_length]
    omega
  · rw [Nat.add_sub_cancel_left, leBytes_getD _ hk, sampleByte_mod v hk]

theorem pdmStored_byte_ne (n v : Nat) {a : Nat}
    (h : a < s.rd Reg.CLO_PDM_CTL_BASE [n] * 1024 + s.rd Reg.CLO_PDM_RD_WR [n] ∨
      s.rd Reg.CLO_PDM_CTL_BASE [n] * 1024 + s.rd Reg.CLO_PDM_RD_WR [n] + 2 ≤ a) :
    (s.pdmStored n v).sramByte a = s.sramByte a := by
  refine workPut_byte_ne s _ ?_
  rw [leBytes_length]
  omega

theorem pdmStored_regs (n v : Nat) : OnlyRegs { s with cloche := (s.pdmStored n v).cloche } (s.pdmStored n v)
    [Reg.CLO_PDM_RD_WR.key [n]] := (workPut_regs s _ _ _).wr _ _ _ (List.mem_singleton.mpr rfl)

/-! ### The Bench core's debug registers -/

theorem benchHaltOp_stays (h : s.isOpen = false ∨ s.on Reg.BNC_CTL_HALTED [] = true) : benchHaltOp s = s :=
  if_neg (by rcases h with h | h <;> simp [h])

theorem benchHalt_halts {src : Src} (hw : s.mayWrite src = true) (h0 : s.isOpen = true)
    (h1 : s.on Reg.BNC_CTL_HALTED [] = false) : ∃ t, exec (.benchHalt src) s = .next t ∧
      t.on Reg.BNC_CTL_HALTED [] = true ∧
      OnlyRegs { s with freeCtr := t.freeCtr } t [Reg.BNC_CTL_HALTED.key [], Reg.BNC_PC_PC.key []] := by
  refine ⟨_, (exec_benchHalt hw).trans (congrArg _ (if_pos (by simp [h0, h1]))), ?_,
    ((OnlyRegs.refl _ _).wr Reg.BNC_CTL_HALTED [] 1 (by decide)).wr Reg.BNC_PC_PC [] (s.freeVal 32) (by decide)⟩
  refine (on_wr_beside (s.wr Reg.BNC_CTL_HALTED [] 1) (f := Reg.BNC_PC_PC) (g := Reg.BNC_CTL_HALTED) [] (s.freeVal 32) rfl (by decide)).trans ?_
  exact on_wr_self _ _ _ _

theorem benchResume_runs {src : Src} (hw : s.mayWrite src = true) (h0 : s.isOpen = true) :
    ∃ t, exec (.benchResume src) s = .next t ∧ t.on Reg.BNC_CTL_HALTED [] = false ∧
      OnlyRegs s t [Reg.BNC_CTL_HALTED.key []] :=
  ⟨_, (exec_benchResume hw).trans (congrArg _ (if_pos h0)), on_wr_self _ _ _ _, (OnlyRegs.refl s _).wr _ _ _ (by decide)⟩

theorem benchStepOp_stays (h : s.isOpen = false ∨ s.on Reg.BNC_CTL_HALTED [] = false) : benchStepOp s = s :=
  if_neg (by rcases h with h | h <;> simp [h])

theorem benchStep_steps {src : Src} (hw : s.mayWrite src = true) (h0 : s.isOpen = true)
    (h1 : s.on Reg.BNC_CTL_HALTED [] = true) : ∃ t, exec (.benchStep src) s = .next t ∧
      t.on Reg.BNC_CTL_HALTED [] = true ∧ OnlyRegs { s with freeCtr := t.freeCtr } t [Reg.BNC_PC_PC.key []] :=
  ⟨_, (exec_benchStep hw).trans (congrArg _ (if_pos (by simp [h0, h1]))),
    (on_wr_beside s (f := Reg.BNC_PC_PC) (g := Reg.BNC_CTL_HALTED) [] (s.freeVal 32) rfl (by decide)).trans h1,
    (OnlyRegs.refl _ _).wr Reg.BNC_PC_PC [] (s.freeVal 32) (by decide)⟩

end

/-- Settles O51: each event moves its own registers and SRAM bytes, which are read back, and Hedge's part is the request of
its source. -/
theorem inputsTransfersAndBenchDebug : Obligations.InputsTransfersAndBenchDebug := by
  intro s
  refine ⟨fun n level => ⟨fun h => ?_, fun h0 h1 => ?_⟩, fun src hw => ⟨fun h => ?_, spiStart_sends hw, fun h => ?_,
    benchHalt_halts hw, fun h => ?_, benchResume_runs hw, fun h => ?_, benchStep_steps hw⟩,
    fun l => ⟨fun h => ?_, spiComplete_receives l⟩, ?_⟩
  · exact congrArg Outcome.next (gpiEdgeOp_stays h)
  · cases hs : s.gpiSenses n level with
    | false =>
      refine ⟨_, s.gpiMoved n level, gpiEdge_unsensed h0 h1 hs, .refl _, fun k => gpiMoved_level n k level,
        fun _ => ⟨rfl, gpiMoved_regs n level⟩, fun hen hse => ?_⟩
      simp [State.gpiSenses, hen, hse] at hs
    | true =>
      obtain ⟨hsame, hrise⟩ := gpiEdge_source (s := s) n level (d := satAdd 8 (s.rd (gpiCnt n) []) 1)
        (Nat.lt_trans (satAdd_lt _ _ _) (by decide))
      refine ⟨_, s.gpiLatched n level, gpiEdge_sensed h0 h1 hs, hedgeLevel_quiet (.refl _) _ _ (by omega),
        fun k => gpiLatched_level n k level, fun hoff => ?_, fun _ _ => ⟨fun k => gpiLatched_latch n k level,
          gpiLatched_count n level, gpiLatched_regs n level, hsame, hrise⟩⟩
      rcases hoff with hoff | hoff <;> simp [State.gpiSenses, hoff] at hs
  · exact (exec_spiStart hw).trans (congrArg _ (if_pos h))
  · rw [exec_benchHalt hw, benchHaltOp_stays h]
  · rw [exec_benchResume hw, if_neg (by simp [h])]
  · rw [exec_benchStep hw, benchStepOp_stays h]
  · exact congrArg Outcome.next (if_neg (by simp [h]))
  · intro n v size wr nxt
    refine ⟨pdmSample_off v, ?_⟩
    rintro hen rfl rfl rfl
    rw [pdmDrop_fin]
    refine ⟨pdmSample_drops v hen, fun hseam hsize hroom => ?_⟩
    have hf : ¬ s.pdmFull n := by
      rintro (h | h | h)
      · simp [hseam] at h
      · exact hsize h
      · exact hroom h
    obtain ⟨t, e, hstay, hraise⟩ := pdmSample_stores v hen hf
    exact ⟨t, _, e, pdmStored_wr n v, fun k hk => pdmStored_byte n v hk, fun a => pdmStored_byte_ne n v,
      pdmStored_regs n v, hstay, hraise⟩

end Sys2Proof.Machine
end

/-! ## Rails, pins and the test access port (R51, R55, R64, R70, R89, R91) -/

section
namespace Sys2Proof.Machine

open Host (Outcome)

section
variable {s : State}

/-- Setting the same boot data on both sides keeps a frame over registers. -/
theorem OnlyRegs.setBoot {t : State} {ks : List Nat} (h : OnlyRegs s t ks) (b : Boot) :
    OnlyRegs { s with boot := b } { t with boot := b } ks :=
  ⟨congrArg (fun u : State => { u with boot := b }) h.rest, h.regs⟩

theorem islandRailsUpOp_powers (h : s.boot.rails = false) :
    islandRailsUpOp s = { s with boot := { s.boot with rails := true, osc := true } } :=
  if_neg (by simp [h])

theorem pwrfailFallOp_filters (h0 : s.boot.rails = true) (h1 : s.boot.pwrfailLow = false) :
    pwrfailFallOp s = { s with boot := { s.boot with pwrfailLow := true, pwrfailAt := s.now } } :=
  if_neg (by simp [h0, h1])

theorem pwrfailRiseOp_ends (h : s.boot.rails = true) :
    pwrfailRiseOp s = { s.wr Reg.TOP_PINSTAT_PWRFAIL_N [] 1 with boot := { s.boot with pwrfailLow := false } } :=
  if_neg (by simp [h])

theorem pcieReadyOp_readies (h : s.boot.perstN = true) :
    pcieReadyOp s = { s with mbx := { s.mbx with cfgReady := true } } := if_pos h

/-- The state with another test access port. -/
def State.withTap (s : State) (x : Tap) : State := { s with cloche := { s.cloche with tap := x } }

/-- What a rising TCK edge does to the shift register in the controller's state (R70). -/
def Tap.act (t : Tap) (tdi : Bool) (pins : Nat) : Tap :=
  match t.st with
  | 3 => { t with shift := tapCapture t.ir pins }
  | 4 => { t with shift := tapShift t.shift (tapDrLen t.ir) tdi }
  | 10 => { t with shift := 1 }
  | 11 => { t with shift := tapShift t.shift Config.tapIrLen tdi }
  | _ => t

theorem Tap.act_st_ir (t : Tap) (tdi : Bool) (pins : Nat) :
    (t.act tdi pins).st = t.st ∧ (t.act tdi pins).ir = t.ir := by
  unfold Tap.act
  split <;> exact ⟨rfl, rfl⟩

/-- Capture-DR under IDCODE loads the identification code. -/
theorem Tap.act_captures_idcode {t : Tap} (tdi : Bool) (pins : Nat) (hst : t.st = 3) (hir : t.ir = 3) :
    (t.act tdi pins).shift = 0x19E4B36B := by
  unfold Tap.act
  rw [hst]
  show tapCapture t.ir pins = _
  rw [hir]
  rfl

theorem tckOp_resets (h : s.boot.rails = true) (tms tdi rising : Bool) (pins : Nat) :
    tckOp s tms tdi false rising pins = s.withTap { s.cloche.tap with st := 0, ir := 3 } := by
  unfold tckOp
  rw [if_neg (by simp [h])]
  rfl

theorem tckOp_rises (h : s.boot.rails = true) (tms tdi : Bool) (pins : Nat) :
    tckOp s tms tdi true true pins =
      s.withTap { s.cloche.tap.act tdi pins with st := tapNext (s.cloche.tap.act tdi pins).st tms } := by
  unfold tckOp
  rw [if_neg (by simp [h])]
  rfl

theorem exec_rtcCrystalStop (h : s.boot.rails = true) :
    exec .rtcCrystalStop s = .next (s.wr Reg.TOP_PINSTAT_RTC_SRC [] 1) := congrArg Outcome.next (if_pos h)

end

/-- Settles O2: each event takes its one enabled branch. -/
theorem railsLinkAndCutPinsSetTheirLatches : Obligations.RailsLinkAndCutPinsSetTheirLatches := by
  intro s
  refine ⟨fun h => ⟨_, congrArg Outcome.next (islandRailsUpOp_powers h), rfl⟩,
    fun h0 h1 => ⟨_, congrArg Outcome.next (pwrfailFallOp_filters h0 h1), rfl⟩,
    fun h => ⟨_, congrArg Outcome.next (pwrfailRiseOp_ends h), ?_, rfl, ?_⟩, ⟨_, rfl, rfl⟩,
    fun h => ⟨_, congrArg Outcome.next (pcieReadyOp_readies h), rfl⟩⟩
  · exact rd_wr_self s Reg.TOP_PINSTAT_PWRFAIL_N [] 1
  · exact ((OnlyRegs.refl s _).wr _ _ _ (List.mem_singleton.mpr rfl)).setBoot _

/-- Settles O10: TRST_N low resets the controller, a rising edge acts in its state and moves it. -/
theorem testAccessPortAndCrystal : Obligations.TestAccessPortAndCrystal := by
  intro s h
  refine ⟨fun tms tdi rising pins => ⟨_, congrArg Outcome.next (tckOp_resets h tms tdi rising pins), rfl⟩,
    fun tms tdi pins => ⟨_, congrArg Outcome.next (tckOp_rises h tms tdi pins), ?_, ?_, ?_, rfl⟩,
    ⟨_, exec_rtcCrystalStop h, rd_wr_self s Reg.TOP_PINSTAT_RTC_SRC [] 1,
      (OnlyRegs.refl s _).wr _ _ _ (List.mem_singleton.mpr rfl)⟩⟩
  · obtain ⟨hst, -⟩ := s.cloche.tap.act_st_ir tdi pins
    exact congrArg (tapNext · tms) hst
  · exact (s.cloche.tap.act_st_ir tdi pins).2
  · exact Tap.act_captures_idcode tdi pins

/-- The reset state lists no register, no byte of HBM and no byte of flash. -/
theorem reset_memWf : State.reset.memWf = true := by
  rw [State.memWf_iff]
  exact ⟨rfl, rfl, fun _ h => absurd h List.not_mem_nil, rfl⟩

/-- Settles O60. -/
theorem resetMemoryIsCanonical : Obligations.ResetMemoryIsCanonical := ⟨reset_memWf, rfl⟩

end Sys2Proof.Machine
end

/-! ## Power-on reset, strap capture and the loss of the island rails (R51, R58, R59, R75, R100) -/

section
namespace Sys2Proof.Machine

open Host (Outcome)

/-- A one-bit field set from a condition reads as the condition. -/
theorem on_wrb_self (s : State) {f : Field} (i : List Nat) (b : Bool) (hw : f.wid = 1) : (s.wrb f i b).on f i = b := by
  unfold State.on
  rw [rd_wrb_self, hw]
  cases b <;> rfl

theorem on_wrb_ne (s : State) {f g : Field} {i j : List Nat} (b : Bool) (h : g.key j ≠ f.key i) :
    (s.wrb f i b).on g j = s.on g j := on_wr_ne s _ h

/-- Strap capture without the ports' physical layer. -/
def State.strapped (s : State) (x : Straps) : State :=
  ((((((((s.wr Reg.TOP_STRAP_ROLE_PIN [] x.role.val).wr Reg.TOP_STRAP_ROLE []
    (if x.role.val = 3 then 2 else x.role.val)).wrb Reg.TOP_STRAP_STRAP_ERR [] (x.role.val == 3)).wrb
    Reg.TOP_STRAP_HARV_CAP [] x.harvCap).wrb Reg.TOP_STRAP_D2D_SEL [] x.d2dSel).wrb Reg.TOP_STRAP_PKG_POS [] x.pkgPos).wr
    Reg.TOP_STRAP_SMB_ADDR [] x.smbAddr.val).wrb Reg.TOP_STRAP_TEST_EN [] x.testEn).wrb Reg.TOP_MODE_TEST_LOCK [] x.testEn

/-- Keys outside the registers of the ports (addresses 0x800000 to 0x87FFFF). -/
def offPorts (k : Nat) : Prop := k < 0x800000 * 128 ∨ 0x880000 * 128 ≤ k

theorem strapCapture_sameOn (s : State) (x : Straps) : SameOn offPorts (s.strapped x) (strapCapture s x) := by
  refine SameOn.foldl _ _ (fun t n hn h => h.wr _ _ _ ?_) (.refl _ _)
  have := List.mem_range.mp hn
  simp only [offPorts, Reg.CSK_STAT_D2D, Field.key, Field.addr, dotIdx]
  omega

/-- The fields of TOP_STRAP show what the pins gave (R59). -/
structure ShowsStraps (t : State) (x : Straps) : Prop where
  rolePin : t.rd Reg.TOP_STRAP_ROLE_PIN [] = x.role.val
  role : t.rd Reg.TOP_STRAP_ROLE [] = (if x.role.val = 3 then 2 else x.role.val)
  err : t.on Reg.TOP_STRAP_STRAP_ERR [] = (x.role.val == 3)
  harvCap : t.on Reg.TOP_STRAP_HARV_CAP [] = x.harvCap
  pkgPos : t.on Reg.TOP_STRAP_PKG_POS [] = x.pkgPos
  smbAddr : t.rd Reg.TOP_STRAP_SMB_ADDR [] = x.smbAddr.val
  testEn : t.on Reg.TOP_STRAP_TEST_EN [] = x.testEn

theorem strapped_shows (s : State) (x : Straps) : ShowsStraps (s.strapped x) x := by
  have fits (v : Fin 4) : v.val % 2 ^ 2 = v.val := Nat.mod_eq_of_lt v.isLt
  have role : (if x.role.val = 3 then 2 else x.role.val) % 2 ^ 2 = (if x.role.val = 3 then 2 else x.role.val) :=
    Nat.mod_eq_of_lt (by have := x.role.isLt; split <;> omega)
  constructor
  all_goals
    simp (disch := decide) only [State.strapped, rd_wrb_ne, rd_wr_ne, rd_wr_self, on_wrb_ne, on_wr_ne, on_wrb_self]
  · exact fits x.role
  · exact role
  · exact fits x.smbAddr

/-- Fields below the ports that show the same are read the same. -/
theorem ShowsStraps.keep {s t : State} {x : Straps} (h : ShowsStraps s x) {P : Nat → Prop} (k : SameOn P s t)
    (hp : ∀ l, l < 128 → P (0x40 * 128 + l)) : ShowsStraps t x := by
  have at_ (f : Field) (hb : f.base = 0x40) (hs : f.strides = []) (hl : f.lo < 128) : P (f.key []) := by
    simpa [Field.key, Field.addr, hb, hs, dotIdx] using hp f.lo hl
  refine ⟨?_, ?_, ?_, ?_, ?_, ?_, ?_⟩
  · exact (k _ _ (at_ _ rfl rfl (by decide))).trans h.rolePin
  · exact (k _ _ (at_ _ rfl rfl (by decide))).trans h.role
  · exact (k.on _ _ (at_ _ rfl rfl (by decide))).trans h.err
  · exact (k.on _ _ (at_ _ rfl rfl (by decide))).trans h.harvCap
  · exact (k.on _ _ (at_ _ rfl rfl (by decide))).trans h.pkgPos
  · exact (k _ _ (at_ _ rfl rfl (by decide))).trans h.smbAddr
  · exact (k.on _ _ (at_ _ rfl rfl (by decide))).trans h.testEn

/-- Two states that agree but for the register file differ in its contents alone. -/
theorem State.eq_of_rest {s t : State} (h : t.rest = s.rest) : t = { s with regs := t.regs } := by
  have e : t = { t.rest with regs := t.regs } := rfl
  rw [e, h]
  rfl

/-- The fields that the end of PORST_N_RISE writes. -/
def riseKeys : List Nat :=
  [Reg.TOP_RSTCAUSE_POR.key [], Reg.CLO_STATE_REF_OK.key [], Reg.TOP_MODE_PHASE.key [], Reg.TOP_PINSTAT_MAIN_EN.key []]

theorem riseEnd_sameOn (s : State) : SameOn (· ∉ riseKeys) s (riseEnd s) := by
  have h : SameOn (· ∉ riseKeys) s
      (((s.wr Reg.TOP_RSTCAUSE_POR [] 1).wr Reg.CLO_STATE_REF_OK [] 1).wr Reg.TOP_MODE_PHASE [] 1) :=
    (((SameOn.refl _ s).wr _ _ _ (by decide)).wr _ _ _ (by decide)).wr _ _ _ (by decide)
  exact .ite (h.set rfl) ((h.set rfl).wr _ _ _ (by decide))

theorem riseEnd_eq (s : State) :
    riseEnd s = { s with regs := (riseEnd s).regs, boot := (riseEnd s).boot } ∧ (riseEnd s).boot.porstN = true := by
  unfold riseEnd
  dsimp only
  split <;> exact ⟨rfl, rfl⟩

theorem riseEnd_por (s : State) : (riseEnd s).rd Reg.TOP_RSTCAUSE_POR [] = 1 := by
  unfold riseEnd
  dsimp only
  split <;> simp (disch := decide) only [rd_boot, rd_wr_ne, rd_wr_self] <;> rfl

/-- A SHOOT or ROOT die raises MAIN_EN (R51). -/
theorem riseEnd_mainEn {s : State} (h : s.rd Reg.TOP_PINSTAT_MAIN_EN [] = 0) :
    (riseEnd s).on Reg.TOP_PINSTAT_MAIN_EN [] = decide (s.role ≠ 2) := by
  unfold riseEnd State.role
  simp (disch := decide) only [rd_boot, rd_wr_ne]
  split
  · rename_i hr
    simp (disch := decide) only [State.on, rd_boot, rd_wr_ne, h, hr]
    rfl
  · rename_i hr
    rw [on_wr_self, decide_eq_true hr]
    rfl

section
variable {s : State}

/-- PORST_N_RISE of a powered island in reset. -/
theorem porstRiseOp_captures (x : Straps) (h0 : s.boot.rails = true) (h1 : s.boot.porstN = false) :
    porstRiseOp s x = riseEnd (strapCapture (powerOnReset s) x) := if_neg (by simp [h0, h1])

/-- What PORST_N_RISE leaves outside the registers and the boot data is what a power-on reset leaves. -/
theorem porstRise_eq (s : State) (x : Straps) : ∃ r b, riseEnd (strapCapture (powerOnReset s) x) =
    { sramLost (porBase s) with regs := r, boot := b } := by
  have e := State.eq_of_rest ((strapCapture_rest (powerOnReset s) x).trans (powerOnReset_rest s))
  rw [(riseEnd_eq _).1, e]
  exact ⟨_, _, rfl⟩

/-- The keys of the strap fields and TEST_LOCK. -/
def strapKeys : List Nat :=
  [Reg.TOP_STRAP_ROLE_PIN, Reg.TOP_STRAP_ROLE, Reg.TOP_STRAP_STRAP_ERR, Reg.TOP_STRAP_HARV_CAP, Reg.TOP_STRAP_D2D_SEL,
   Reg.TOP_STRAP_PKG_POS, Reg.TOP_STRAP_SMB_ADDR, Reg.TOP_STRAP_TEST_EN, Reg.TOP_MODE_TEST_LOCK].map (Field.key · [])

theorem strapped_onlyRegs (s : State) (x : Straps) : OnlyRegs s (s.strapped x) strapKeys :=
  (((((((((OnlyRegs.refl s _).wr _ _ _ (by decide)).wr _ _ _ (by decide)).wrb _ _ _ (by decide)).wrb _ _ _
    (by decide)).wrb _ _ _ (by decide)).wrb _ _ _ (by decide)).wr _ _ _ (by decide)).wrb _ _ _ (by decide)).wrb _ _ _
    (by decide)

/-- Outside the ports, strap capture writes TOP_STRAP and TEST_LOCK alone. -/
theorem strapCapture_rd_ne (s : State) (x : Straps) {g : Field} (h0 : offPorts (g.key []))
    (h1 : g.key [] ∉ strapKeys) : (strapCapture s x).rd g [] = s.rd g [] := by
  rw [strapCapture_sameOn s x g [] h0, (strapped_onlyRegs s x).regs g [] h1]

theorem strapCapture_shows (s : State) (x : Straps) : ShowsStraps (strapCapture s x) x :=
  (strapped_shows s x).keep (strapCapture_sameOn s x) (fun _ hl => .inl (by omega))

theorem porstRise_shows (s : State) (x : Straps) : ShowsStraps (riseEnd (strapCapture s x)) x := by
  refine (strapCapture_shows s x).keep (riseEnd_sameOn _) (fun l hl => ?_)
  simp only [riseKeys, Reg.TOP_RSTCAUSE_POR, Reg.CLO_STATE_REF_OK, Reg.TOP_MODE_PHASE, Reg.TOP_PINSTAT_MAIN_EN, Field.key,
    Field.addr, dotIdx, List.mem_cons, List.not_mem_nil, or_false]
  omega

/-- A field that PORST_N_RISE does not write reads as after the power-on reset. -/
theorem porstRise_rd (s : State) (x : Straps) {g : Field} (h0 : offPorts (g.key []))
    (h1 : g.key [] ∉ riseKeys ++ strapKeys) : (riseEnd (strapCapture s x)).rd g [] = s.rd g [] := by
  rw [riseEnd_sameOn _ _ _ (fun h => h1 (List.mem_append_left _ h)),
    strapCapture_rd_ne _ _ h0 (fun h => h1 (List.mem_append_right _ h))]

/-- A power-on reset stops plots, jobs and the mailbox and keeps flash, HBM and the retained SRAM (R75, R88, R100). -/
theorem porstRise_parts (s : State) (x : Straps) :
    (riseEnd (strapCapture (powerOnReset s) x)).plots = [] ∧ (riseEnd (strapCapture (powerOnReset s) x)).jobs = [] ∧
    (riseEnd (strapCapture (powerOnReset s) x)).mbx = {} ∧
    (riseEnd (strapCapture (powerOnReset s) x)).pending = s.pending ∧
    (riseEnd (strapCapture (powerOnReset s) x)).flash.bytes = s.flash.bytes ∧
    (riseEnd (strapCapture (powerOnReset s) x)).hbm = s.hbm ∧
    ∀ a, retainedBase ≤ a → a < sramSize →
      (riseEnd (strapCapture (powerOnReset s) x)).sramByte a = s.sramByte a := by
  obtain ⟨r, b, e⟩ := porstRise_eq s x
  have hc := State.rest_part (powerOnReset_rest s) State.cloche (fun _ => rfl)
  rw [e]
  exact ⟨rfl, rfl, rfl, rfl, rfl, rfl, fun a ha _ => powerOnReset_sram s { sramLost (porBase s) with regs := r, boot := b } hc.symm a ha⟩

/-- MAIN_EN after PORST_N_RISE: high unless the role is DORMANT (R51, R59). -/
theorem porstRise_mainEn (s : State) (x : Straps) :
    (riseEnd (strapCapture (powerOnReset s) x)).on Reg.TOP_PINSTAT_MAIN_EN [] = decide (x.role.val < 2) := by
  have h : (strapCapture (powerOnReset s) x).rd Reg.TOP_PINSTAT_MAIN_EN [] = 0 :=
    (strapCapture_rd_ne _ _ (.inl (by decide)) (by decide)).trans (powerOnReset_rd s _ (by decide))
  have hr : (strapCapture (powerOnReset s) x).role = (if x.role.val = 3 then 2 else x.role.val) :=
    (strapCapture_shows _ x).role
  rw [riseEnd_mainEn h, hr, decide_eq_decide]
  have := x.role.isLt
  split <;> omega

/-- Holding the island in reset lowers both enables and keeps CUT_SEEN, flash and HBM (R58, R100). -/
theorem holdInReset_holds (s : State) :
    (holdInReset s).boot.porstN = false ∧ (holdInReset s).rd Reg.TOP_PINSTAT_MAIN_EN [] = 0 ∧
    (holdInReset s).rd Reg.TOP_PINSTAT_VCORE_EN [] = 0 ∧
    (holdInReset s).rd Reg.TOP_PINSTAT_CUT_SEEN [] = s.rd Reg.TOP_PINSTAT_CUT_SEEN [] ∧ (holdInReset s).plots = [] ∧
    (holdInReset s).flash.bytes = s.flash.bytes ∧ (holdInReset s).hbm = s.hbm := by
  obtain ⟨hpin, hplots, hflash, hhbm⟩ := holdInReset_parts s
  refine ⟨hpin, ?_, ?_, ?_, hplots, hflash, hhbm⟩
  · rw [holdInReset_rd, powerOnReset_rd s _ (by decide)]
    rfl
  · rw [holdInReset_rd, powerOnReset_rd s _ (by decide)]
    rfl
  · rw [holdInReset_rd, powerOnReset_kept s _ (by decide) (by decide)]

theorem porstFallOp_notes (h0 : s.boot.porstN = true) (h1 : s.boot.holdup = true) :
    porstFallOp s = { s with boot := { s.boot with porstHeld := true } } := by
  unfold porstFallOp
  rw [if_neg (by simp [h0]), if_pos h1]

theorem porstFallOp_holds (h0 : s.boot.porstN = true) (h1 : s.boot.holdup = false) : porstFallOp s = holdInReset s := by
  unfold porstFallOp
  rw [if_neg (by simp [h0]), if_neg (by simp [h1])]

theorem porstHoldoffOp_holds (h0 : s.boot.porstHeld = true)
    (h1 : s.boot.holdup = false ∨ s.boot.cutAt + msCounts 3 ≤ s.now) : porstHoldoffOp s = holdInReset s :=
  if_pos ⟨h0, h1.imp_left (by simp [·])⟩

/-- The registers of an island whose rails are lost: what a power-on reset keeps is cleared too (R100). -/
def State.railsLost (s : State) : State := (clearFields (sramLostAll s) porKept).wr Reg.TOP_RSTCAUSE_POR [] 1

theorem islandLossEnd_eq (s : State) : islandLossEnd s = { s.railsLost with
    boot := { s.railsLost.boot with rails := false, porstN := false, osc := false }
    cloche := { s.railsLost.cloche with rtcAcc := 0 } } := rfl

theorem islandLossEnd_rd (s : State) (g : Field) : (islandLossEnd s).rd g [] = s.railsLost.rd g [] := by
  rw [islandLossEnd_eq]
  generalize s.railsLost = u
  rfl

theorem railsLost_rd (s : State) {g : Field} (hm : g.key [] ∈ porKept.map (fun f => f.key []))
    (h : ∀ f ∈ porKept, f.key [] = g.key [] → f.wid = g.wid ∧ f.rst [] = g.rst [])
    (hp : g.key [] ≠ Reg.TOP_RSTCAUSE_POR.key []) : s.railsLost.rd g [] = g.rst [] % 2 ^ g.wid := by
  unfold State.railsLost
  rw [rd_wr_ne _ _ hp, clearFields_rd _ _ _ hm h]

theorem railsLost_por (s : State) : s.railsLost.rd Reg.TOP_RSTCAUSE_POR [] = 1 := by
  unfold State.railsLost
  rw [rd_wr_self]
  rfl

theorem railsLost_rest (s : State) : s.railsLost.rest = (sramLostAll s).rest := by
  unfold State.railsLost
  rw [rest_wr, clearFields_rest]

theorem islandLossEnd_parts (s : State) : (islandLossEnd s).boot.rails = false ∧ (islandLossEnd s).boot.porstN = false ∧
    (islandLossEnd s).plots = s.plots ∧ (islandLossEnd s).flash = s.flash ∧ (islandLossEnd s).hbm = s.hbm := by
  have hp := State.rest_part (railsLost_rest s) State.plots (fun _ => rfl)
  have hf := State.rest_part (railsLost_rest s) State.flash (fun _ => rfl)
  have hh := State.rest_part (railsLost_rest s) State.hbm (fun _ => rfl)
  rw [islandLossEnd_eq]
  generalize s.railsLost = u at hp hf hh ⊢
  exact ⟨rfl, rfl, hp, hf, hh⟩

end

/-- Settles O3: the machine after PORST_N_RISE is `powerOnReset` with the straps of R59 and the enables of R51; holding in
reset is `powerOnReset` alone, and the loss of the rails clears what it keeps. -/
theorem powerOnResetCapturesStrapsAndKeepsCauses : Obligations.PowerOnResetCapturesStrapsAndKeepsCauses := by
  intro s x
  obtain ⟨hplots, hflash, hhbm⟩ := powerOnReset_parts s
  refine ⟨fun h0 h1 => ⟨_, congrArg Outcome.next (porstRiseOp_captures x h0 h1), ?_⟩,
    fun h0 h1 => ⟨_, congrArg Outcome.next (porstFallOp_notes h0 h1), rfl⟩,
    fun h0 h1 => ⟨_, congrArg Outcome.next (porstFallOp_holds h0 h1), holdInReset_holds s⟩,
    fun h0 h1 => ⟨_, congrArg Outcome.next (porstHoldoffOp_holds h0 h1), holdInReset_holds s⟩, ⟨_, rfl, ?_⟩⟩
  · obtain ⟨hpin, hrole, herr, hcap, hpos, hsmb, htest⟩ := porstRise_shows (powerOnReset s) x
    obtain ⟨mplots, mjobs, mmbx, mpend, mflash, mhbm, msram⟩ := porstRise_parts s x
    refine ⟨hpin, hrole, herr, hcap, hpos, hsmb, htest, riseEnd_por _, porstRise_mainEn s x, ?_, (riseEnd_eq _).2, mplots,
      mjobs, mmbx, mpend, ?_, ?_, mflash, mhbm, msram⟩
    · rw [porstRise_rd _ x (.inl (by decide)) (by decide), powerOnReset_rd s _ (by decide)]
      rfl
    · rw [porstRise_rd _ x (.inl (by decide)) (by decide), powerOnReset_kept s _ (by decide) (by decide)]
    · rw [porstRise_rd _ x (.inr (by decide)) (by decide), powerOnReset_kept s _ (by decide) (by decide)]
  · obtain ⟨hrails, hporst, lplots, lflash, lhbm⟩ := islandLossEnd_parts (powerOnReset s)
    refine ⟨hrails, hporst, ?_, ?_, ?_, lplots.trans hplots, (congrArg Flash.bytes lflash).trans hflash, lhbm.trans hhbm⟩
    · exact (islandLossEnd_rd _ _).trans (railsLost_por _)
    · exact (islandLossEnd_rd _ _).trans (railsLost_rd _ (by decide) (by decide) (by decide))
    · exact (islandLossEnd_rd _ _).trans (railsLost_rd _ (by decide) (by decide) (by decide))

end Sys2Proof.Machine
end

/-! ## Frames with a chosen view, and loops over the instances of a field -/

section
namespace Sys2Proof.Machine

/-- `t` shows in the view `v` what `s` shows, and reads as `s` on every field whose key satisfies `P`. -/
structure Spares {α : Type} (v : State → α) (P : Nat → Prop) (s t : State) : Prop where
  view : v t = v s
  regs : SameOn P s t

section
variable {α : Type} {v : State → α} {P : Nat → Prop} {a b c s t : State}

theorem Spares.refl (v : State → α) (P : Nat → Prop) (s : State) : Spares v P s s := ⟨rfl, .refl P s⟩

theorem Spares.trans (h : Spares v P a b) (g : Spares v P b c) : Spares v P a c :=
  ⟨g.view.trans h.view, h.regs.trans g.regs⟩

theorem Spares.wr (h : Spares v P a s) (f : Field) (i : List Nat) (x : Nat) (hv : v (s.wr f i x) = v s)
    (hk : ¬ P (f.key i)) : Spares v P a (s.wr f i x) := ⟨hv.trans h.view, h.regs.wr f i x hk⟩

theorem Spares.set (h : Spares v P a s) (hr : t.regs = s.regs) (hv : v t = v s) : Spares v P a t :=
  ⟨hv.trans h.view, h.regs.set hr⟩

theorem Spares.ite {p : Prop} [Decidable p] (hs : Spares v P a s) (ht : Spares v P a t) :
    Spares v P a (if p then s else t) := by
  split
  · exact hs
  · exact ht

theorem Spares.foldl {β : Type} (g : State → β → State) (l : List β)
    (hg : ∀ s x, x ∈ l → Spares v P a s → Spares v P a (g s x)) (h : Spares v P a s) : Spares v P a (l.foldl g s) := by
  induction l generalizing s with
  | nil => exact h
  | cons x r ih => exact ih (fun s y hy => hg s y (.tail _ hy)) (hg s x (.head _) h)

theorem Quiet.spares (h : Quiet s t) (hv : ∀ u : State, v u.still = v u) (hp : ∀ k, P k → outside k) : Spares v P s t :=
  ⟨by rw [← hv t, h.still, hv s], h.sameOn.mono hp⟩

theorem Logged.spares (h : Logged s t) (hv : ∀ u : State, v u.offFlash = v u) (hp : ∀ k, P k → k ∉ logKeys) :
    Spares v P s t :=
  ⟨h.part v hv, h.regs.mono hp⟩

/-- What a frame with the view `still` says of a part that requests do not change. -/
theorem Spares.part {β : Type} (h : Spares State.still P s t) (p : State → β) (hp : ∀ u : State, p u.still = p u) :
    p t = p s := by
  rw [← hp t, h.view, hp s]

theorem Spares.rd (h : Spares v P s t) (f : Field) (i : List Nat) (hk : P (f.key i)) : t.rd f i = s.rd f i :=
  h.regs f i hk

end

/-- Writing other registers leaves the time base. -/
theorem now_wr (s : State) {f : Field} {i : List Nat} (v : Nat) (h : Reg.TOP_TIMEBASE_COUNT.key [] ≠ f.key i) :
    (s.wr f i v).now = s.now := rd_wr_ne s v h

theorem now_lt (s : State) : s.now < 2 ^ 64 := rd_lt s Reg.TOP_TIMEBASE_COUNT []

/-- A loop that updates each element of a list once leaves every element updated once. -/
theorem rd_foldl_wr_each (f : Field) (w : Nat → Nat → Nat) (l : List Nat) (hl : l.Nodup)
    (hk : ∀ m n, m ≠ n → f.key [n] ≠ f.key [m]) {n : Nat} (hn : n ∈ l) (s : State) :
    (l.foldl (fun s m => s.wr f [m] (w m (s.rd f [m]))) s).rd f [n] = w n (s.rd f [n]) % 2 ^ f.wid := by
  induction l generalizing s with
  | nil => exact absurd hn List.not_mem_nil
  | cons m r ih =>
    obtain ⟨hm, hr⟩ := List.nodup_cons.mp hl
    rw [List.foldl_cons]
    rcases List.mem_cons.mp hn with rfl | hn
    · rw [rd_foldl_wr f (fun m => [m]) (fun s m => w m (s.rd f [m])) r _
        (fun x hx => hk x n (fun e => hm (e ▸ hx))), rd_wr_self]
    · rw [ih hr hn, rd_wr_ne _ _ (hk m n (fun e => hm (e ▸ hn)))]

end Sys2Proof.Machine
end

/-! ## Main power, VCORE and their time-outs (R48, R51, R63, R75, R92, R633) -/

section
namespace Sys2Proof.Machine

open Host (Outcome)

/-- Driving VID writes its two copies. -/
theorem driveVid_eq (s : State) (c : Nat) : driveVid s c = (s.wr Reg.TOP_PINSTAT_VID [] c).wr Reg.PWR_STAT_VID [] c := rfl

theorem vcoreOff_eq (s : State) : vcoreOff s =
    ((s.wr Reg.TOP_PINSTAT_VCORE_EN [] 0).wr Reg.TOP_PINSTAT_VID [] 0).wr Reg.PWR_STAT_VID [] 0 := rfl

section
variable {s : State}

/-- The registers once the reference is found absent (R63). -/
def State.noRef (s : State) : State :=
  (((s.wr Reg.TOP_PINSTAT_REFCLK_FAIL [] 1).wr Reg.TOP_PINSTAT_MAIN_EN [] 0).wr Reg.CLO_STATE_REF_OK [] 0).wr
    Reg.TOP_MODE_PHASE [] 0

theorem refclkTimeoutOp_latches (h0 : s.boot.porstN = true) (h1 : s.boot.restarting = false)
    (h2 : s.rd Reg.TOP_BOOTSTAT_STATE [] = 0) :
    refclkTimeoutOp s = { s.noRef with boot := { s.boot with osc := false } } := if_pos ⟨h0, h2, by simp [h1]⟩

theorem noRef_onlyRegs (s : State) : OnlyRegs s s.noRef [Reg.TOP_PINSTAT_REFCLK_FAIL.key [],
    Reg.TOP_PINSTAT_MAIN_EN.key [], Reg.CLO_STATE_REF_OK.key [], Reg.TOP_MODE_PHASE.key []] :=
  ((((OnlyRegs.refl s _).wr _ _ _ (by decide)).wr _ _ _ (by decide)).wr _ _ _ (by decide)).wr _ _ _ (by decide)

theorem noRef_rd (s : State) : s.noRef.rd Reg.TOP_PINSTAT_REFCLK_FAIL [] = 1 ∧ s.noRef.rd Reg.TOP_PINSTAT_MAIN_EN [] = 0 ∧
    s.noRef.rd Reg.CLO_STATE_REF_OK [] = 0 := by
  unfold State.noRef
  simp (disch := decide) only [rd_wr_ne, rd_wr_self]
  exact ⟨rfl, rfl, rfl⟩

/-- The registers once VCORE is asked for (step 7 of R51). -/
def State.vcoreAsked (s : State) : State :=
  ((driveVid s 0x64).wr Reg.TOP_PINSTAT_VCORE_EN [] 1).wr Reg.TOP_MODE_PHASE [] 2

theorem tryVcore_raises (h0 : s.on Reg.TOP_PINSTAT_MAIN_EN [] = true) (h1 : s.on Reg.TOP_PINSTAT_MAIN_PG [] = true)
    (h2 : s.rd Reg.TOP_BOOTSTAT_STATE [] = 1) (h3 : s.on Reg.TOP_PINSTAT_VCORE_EN [] = false)
    (h4 : s.on Reg.TOP_PINSTAT_THERMTRIP [] = false) (h5 : s.boot.powerFault = false)
    (h6 : s.on Reg.PWR_STAT_CUT [] = false) (h7 : s.role ≠ 2) :
    tryVcore s = { s.vcoreAsked with boot := { s.boot with vcoreEnAt := s.now } } := by
  have hn : ((driveVid s 0x64).wr Reg.TOP_PINSTAT_VCORE_EN [] 1).now = s.now := by
    rw [driveVid_eq]
    simp (disch := decide) only [now_wr]
  unfold tryVcore
  rw [if_pos (by simp [h0, h1, h2, h3, h4, h5, h6, h7])]
  dsimp only
  rw [hn]
  rfl

/-- The state once MAIN_PG has risen (R51). -/
def State.mainUp (s : State) : State := s.wr Reg.TOP_PINSTAT_MAIN_PG [] 1

theorem mainPgRiseOp_raises (h0 : s.on Reg.TOP_PINSTAT_MAIN_EN [] = true) (h1 : s.rd Reg.TOP_BOOTSTAT_STATE [] = 1)
    (h2 : s.on Reg.TOP_PINSTAT_VCORE_EN [] = false) (h3 : s.on Reg.TOP_PINSTAT_THERMTRIP [] = false)
    (h4 : s.boot.powerFault = false) (h5 : s.on Reg.PWR_STAT_CUT [] = false) (h6 : s.role ≠ 2) :
    mainPgRiseOp s = { s.mainUp.vcoreAsked with boot := { s.boot with vcoreEnAt := s.now } } := by
  have keeps {g : Field} (h : g.key [] ≠ Reg.TOP_PINSTAT_MAIN_PG.key []) := on_wr_ne s 1 h
  unfold mainPgRiseOp
  rw [if_pos h0]
  refine (tryVcore_raises (s := s.mainUp) ((keeps (by decide)).trans h0) (on_wr_self _ _ _ _)
    ((rd_wr_ne s _ (by decide)).trans h1) ((keeps (by decide)).trans h2) ((keeps (by decide)).trans h3) h4
    ((keeps (by decide)).trans h5) ?_).trans ?_
  · exact fun e => h6 ((rd_wr_ne s _ (by decide)).symm.trans e)
  · rw [State.mainUp, now_wr s _ (by decide)]
    rfl

theorem mainUp_vcoreAsked_onlyRegs (s : State) : OnlyRegs s s.mainUp.vcoreAsked [Reg.TOP_PINSTAT_MAIN_PG.key [],
    Reg.TOP_PINSTAT_VID.key [], Reg.PWR_STAT_VID.key [], Reg.TOP_PINSTAT_VCORE_EN.key [], Reg.TOP_MODE_PHASE.key []] :=
  (((((OnlyRegs.refl s _).wr _ _ _ (by decide)).wr _ _ _ (by decide)).wr _ _ _ (by decide)).wr _ _ _ (by decide)).wr
    _ _ _ (by decide)

theorem mainUp_vcoreAsked_rd (s : State) : s.mainUp.vcoreAsked.rd Reg.TOP_PINSTAT_MAIN_PG [] = 1 ∧
    s.mainUp.vcoreAsked.rd Reg.TOP_PINSTAT_VID [] = 0x64 ∧ s.mainUp.vcoreAsked.rd Reg.PWR_STAT_VID [] = 0x64 ∧
    s.mainUp.vcoreAsked.rd Reg.TOP_PINSTAT_VCORE_EN [] = 1 := by
  unfold State.vcoreAsked State.mainUp
  rw [driveVid_eq]
  simp (disch := decide) only [rd_wr_ne, rd_wr_self]
  exact ⟨rfl, rfl, rfl, rfl⟩

/-- The registers of a die whose power-up failed (R51). -/
def State.powerFailed (s : State) : State :=
  ((vcoreOff s).wr Reg.TOP_PINSTAT_MAIN_EN [] 0).wr Reg.TOP_MODE_PHASE [] 15

theorem powerFailed_rd (s : State) : s.powerFailed.rd Reg.TOP_PINSTAT_MAIN_EN [] = 0 ∧
    s.powerFailed.rd Reg.TOP_PINSTAT_VCORE_EN [] = 0 ∧ s.powerFailed.rd Reg.TOP_PINSTAT_VID [] = 0 := by
  unfold State.powerFailed
  rw [vcoreOff_eq]
  simp (disch := decide) only [rd_wr_ne, rd_wr_self]
  exact ⟨rfl, rfl, rfl⟩

theorem dieRecord_logged (s : State) (cause unit temp : Nat) : Logged s (dieRecord s cause unit temp) :=
  faultRecord_logged (.refl s) _ _

/-- A power-up fault lowers both enables and is remembered until the next power-on reset (R51). -/
theorem powerUpFault_lowers (s : State) : (powerUpFault s).rd Reg.TOP_PINSTAT_MAIN_EN [] = 0 ∧
    (powerUpFault s).rd Reg.TOP_PINSTAT_VCORE_EN [] = 0 ∧ (powerUpFault s).rd Reg.TOP_PINSTAT_VID [] = 0 ∧
    (powerUpFault s).boot = { s.boot with powerFault := true } ∧ (powerUpFault s).hbm = s.hbm ∧
    (powerUpFault s).plots = s.plots := by
  have h : Logged { s.powerFailed with boot := { s.boot with powerFault := true } } (powerUpFault s) :=
    dieRecord_logged _ 4 0 0
  obtain ⟨hmain, hvcore, hvid⟩ := powerFailed_rd s
  have keeps {f : Field} (hk : f.key [] ∉ logKeys) : (powerUpFault s).rd f [] = s.powerFailed.rd f [] := by
    rw [h.regs f [] hk, rd_boot]
  exact ⟨(keeps (by decide)).trans hmain, (keeps (by decide)).trans hvcore, (keeps (by decide)).trans hvid, h.part State.boot (fun _ => rfl), h.part State.hbm (fun _ => rfl),
    h.part State.plots (fun _ => rfl)⟩

theorem mainPgTimeoutOp_faults (h0 : s.on Reg.TOP_PINSTAT_MAIN_EN [] = true)
    (h1 : s.on Reg.TOP_PINSTAT_MAIN_PG [] = false) (h2 : s.boot.mainEnAt + msCounts 100 ≤ s.now) :
    mainPgTimeoutOp s = powerUpFault s := if_pos (by simp [h0, h1, h2])

theorem vcorePgTimeoutOp_faults (h0 : s.on Reg.TOP_PINSTAT_VCORE_EN [] = true)
    (h1 : s.on Reg.TOP_PINSTAT_VCORE_PG [] = false) (h2 : s.boot.vcoreEnAt + msCounts 5 ≤ s.now) :
    vcorePgTimeoutOp s = powerUpFault s := if_pos (by simp [h0, h1, h2])

/-! ### VCORE_PG -/

/-- Fields of no port, no function's page and no Hedge register. -/
def offFabricPins (k : Nat) : Prop := outside k ∧ offPorts k

theorem portKey_in {f : Field} {n : Nat} (hb : 0x800000 ≤ f.base ∧ f.base < 0x801000) (hs : f.strides = [65536])
    (hl : f.lo < 128) (hn : n < 8) : ¬ offPorts (f.key [n]) := by
  simp only [offPorts, Field.key, Field.addr, hs, dotIdx]
  omega

/-- A port that changes state writes its own register and raises its source. -/
theorem setPortState_spares {a s : State} (h : Spares State.still offFabricPins a s) {n : Nat} (st : Nat) (hn : n < 8) :
    Spares State.still offFabricPins a (setPortState s n st) := by
  refine .ite h ?_
  have h1 := h.wr Reg.CSK_STAT_STATE [n] st rfl (fun hk => portKey_in (by decide) rfl (by decide) hn hk.2)
  exact h1.trans ((hedgeEvent_quiet (.refl _) st (by omega)).spares (fun _ => rfl) (fun _ hk => hk.1))

/-- VCORE_PG is shown and no fabric sensor has a reading yet. -/
def State.vcoreUp (s : State) : State :=
  (List.range 32).foldl (fun s n => s.wr Reg.TOP_TSENS_VALID [n] 0) (s.wr Reg.TOP_PINSTAT_VCORE_PG [] 1)

/-- The state once the fuses are read, before the ports train (step 4 of R75). -/
def State.fused (s : State) (x : Fuses) : State :=
  let u := s.vcoreUp.wr Reg.TOP_HARVEST_FUSE_GOOD [] x.good
  { u.wr Reg.TOP_MODE_PHASE [] (if u.role == 1 then 5 else 4) with
    boot := { u.boot with serial := x.serial, minSecVer := x.minSecVer, fuseWs := x.wsRows, fuseAs := x.asRows,
                          fusePs := x.psRows, bistDone := u.role == 1, trained := false } }

/-- A port that is down starts training under its next link epoch (R92). -/
def trainPort (s : State) (n : Nat) : State :=
  if s.portState n = psDown then
    setPortState (s.wr Reg.CSK_EPOCH_RX_EPOCH [n] (s.firstEpoch (s.rd Reg.CSK_EPOCH_RX_EPOCH [n]))) n psTraining
  else s

theorem vcorePgRiseOp_trains (x : Fuses) (h0 : s.on Reg.TOP_PINSTAT_VCORE_EN [] = true)
    (h1 : s.on Reg.TOP_PINSTAT_VCORE_PG [] = false) :
    vcorePgRiseOp s x = (List.range 8).foldl trainPort (s.fused x) := if_neg (by simp [h0, h1])

theorem trainPorts_spares (s : State) : Spares State.still offFabricPins s ((List.range 8).foldl trainPort s) := by
  refine .foldl _ _ (fun t n hn h => ?_) (.refl _ _ s)
  have hn := List.mem_range.mp hn
  exact .ite (setPortState_spares
    (h.wr Reg.CSK_EPOCH_RX_EPOCH [n] _ rfl (fun hk => portKey_in (by decide) rfl (by decide) hn hk.2)) _ hn) h

theorem vcoreUp_rest (s : State) : s.vcoreUp.rest = s.rest :=
  rest_foldl_wr (fun _ => Reg.TOP_TSENS_VALID) (fun n => [n]) (fun _ _ => 0) _ _

theorem tsensKey_ne {m n : Nat} (h : m ≠ n) : Reg.TOP_TSENS_VALID.key [n] ≠ Reg.TOP_TSENS_VALID.key [m] := by
  simp only [Reg.TOP_TSENS_VALID, Field.key, Field.addr, dotIdx]
  omega

theorem vcoreUp_valid (s : State) {n : Nat} (hn : n < 32) : s.vcoreUp.rd Reg.TOP_TSENS_VALID [n] = 0 :=
  rd_foldl_wr_each Reg.TOP_TSENS_VALID (fun _ _ => 0) _ List.nodup_range (fun _ _ => tsensKey_ne) (List.mem_range.mpr hn) _

/-- VCORE_PG alone moves among the fields below the sensors. -/
theorem vcoreUp_rd (s : State) {f : Field} (h : f.key [] < 0x100 * 128) :
    s.vcoreUp.rd f [] = (s.wr Reg.TOP_PINSTAT_VCORE_PG [] 1).rd f [] := by
  refine rd_foldl_wr Reg.TOP_TSENS_VALID (fun n => [n]) (fun _ _ => 0) _ _ (fun n _ => ?_)
  simp only [Reg.TOP_TSENS_VALID, Field.key, Field.addr, dotIdx] at h ⊢
  omega

theorem fused_role (s : State) (x : Fuses) : (s.vcoreUp.wr Reg.TOP_HARVEST_FUSE_GOOD [] x.good).role = s.role := by
  unfold State.role
  rw [rd_wr_ne _ _ (by decide), vcoreUp_rd _ (by decide), rd_wr_ne _ _ (by decide)]

theorem fused_parts (s : State) (x : Fuses) : (s.fused x).boot.serial = x.serial ∧ (s.fused x).boot.trained = false ∧
    (s.fused x).boot.bistDone = (s.role == 1) ∧ (s.fused x).hbm = s.hbm ∧ (s.fused x).plots = s.plots ∧
    (s.fused x).flash = s.flash := by
  have hr := congrArg (· == 1) (fused_role s x)
  have hh := State.rest_part (vcoreUp_rest s) State.hbm (fun _ => rfl)
  have hp := State.rest_part (vcoreUp_rest s) State.plots (fun _ => rfl)
  have hf := State.rest_part (vcoreUp_rest s) State.flash (fun _ => rfl)
  unfold State.fused
  generalize s.vcoreUp = u at hr hh hp hf ⊢
  exact ⟨rfl, rfl, hr, hh, hp, hf⟩

/-- After the fuses are read PHASE and FUSE_GOOD alone moved since VCORE_PG rose. -/
theorem fused_rd (s : State) (x : Fuses) {f : Field} {i : List Nat} (h0 : f.key i ≠ Reg.TOP_MODE_PHASE.key [])
    (h1 : f.key i ≠ Reg.TOP_HARVEST_FUSE_GOOD.key []) : (s.fused x).rd f i = s.vcoreUp.rd f i := by
  unfold State.fused
  rw [rd_boot, rd_wr_ne _ _ h0, rd_wr_ne _ _ h1]

theorem fused_good (s : State) (x : Fuses) (h : x.good < 2 ^ 16) :
    (s.fused x).rd Reg.TOP_HARVEST_FUSE_GOOD [] = x.good := by
  unfold State.fused
  rw [rd_boot, rd_wr_ne _ _ (by decide), rd_wr_self]
  exact Nat.mod_eq_of_lt h

theorem fused_vcorePg (s : State) (x : Fuses) : (s.fused x).rd Reg.TOP_PINSTAT_VCORE_PG [] = 1 := by
  rw [fused_rd s x (by decide) (by decide), vcoreUp_rd s (by decide), rd_wr_self]
  rfl

theorem fused_valid (s : State) (x : Fuses) {n : Nat} (hn : n < 32) : (s.fused x).rd Reg.TOP_TSENS_VALID [n] = 0 := by
  rw [fused_rd s x, vcoreUp_valid s hn]
  all_goals
    simp only [Reg.TOP_TSENS_VALID, Reg.TOP_MODE_PHASE, Reg.TOP_HARVEST_FUSE_GOOD, Field.key, Field.addr, dotIdx]
    omega

/-- What the ports' training leaves of the fused state. -/
theorem fused_shows {x : Fuses} {t : State} (h : Spares State.still offFabricPins (s.fused x) t) (h0 : x.good < 2 ^ 16) :
    t.rd Reg.TOP_PINSTAT_VCORE_PG [] = 1 ∧
      t.rd Reg.TOP_HARVEST_FUSE_GOOD [] = x.good ∧ t.boot.serial = x.serial ∧ t.boot.trained = false ∧
      t.boot.bistDone = (s.role == 1) ∧ (∀ n, n < 32 → t.rd Reg.TOP_TSENS_VALID [n] = 0) ∧
      t.hbm = s.hbm ∧ t.plots = s.plots ∧ t.flash = s.flash := by
  obtain ⟨pserial, ptrained, pbist, phbm, pplots, pflash⟩ := fused_parts s x
  have hboot := h.part State.boot (fun _ => rfl)
  have low {f : Field} {i : List Nat} (hk : f.key i < 0x100000 * 128) := h.rd f i ⟨.inl hk, .inl (by omega)⟩
  refine ⟨(low (by decide)).trans (fused_vcorePg s x), (low (by decide)).trans (fused_good s x h0),
    (congrArg Boot.serial hboot).trans pserial, (congrArg Boot.trained hboot).trans ptrained,
    (congrArg Boot.bistDone hboot).trans pbist, fun n hn => (low ?_).trans (fused_valid s x hn),
    (h.part State.hbm (fun _ => rfl)).trans phbm, (h.part State.plots (fun _ => rfl)).trans pplots,
    (h.part State.flash (fun _ => rfl)).trans pflash⟩
  simp only [Reg.TOP_TSENS_VALID, Field.key, Field.addr, dotIdx]
  omega

end

/-- Settles O4: the clauses are the reference check, MAIN_PG, its time-out, VCORE_PG's time-out and VCORE_PG. -/
theorem powerUpEventsMoveTheEnables : Obligations.PowerUpEventsMoveTheEnables := by
  intro s x
  refine ⟨fun h0 h1 h2 => ?_, fun h0 h1 h2 h3 h4 h5 h6 => ?_,
    fun h0 h1 h2 => ⟨_, congrArg Outcome.next (mainPgTimeoutOp_faults h0 h1 h2), powerUpFault_lowers s⟩,
    fun h0 h1 h2 => ⟨_, congrArg Outcome.next (vcorePgTimeoutOp_faults h0 h1 h2), powerUpFault_lowers s⟩,
    fun h0 h1 h2 => ⟨_, congrArg Outcome.next (vcorePgRiseOp_trains x h0 h1), fused_shows (trainPorts_spares _) h2⟩⟩
  · obtain ⟨hfail, hmain, href⟩ := noRef_rd s
    refine ⟨_, congrArg Outcome.next (refclkTimeoutOp_latches h0 h1 h2), ?_, ?_, ?_, rfl, (noRef_onlyRegs s).setBoot _⟩
    all_goals rwa [rd_boot]
  · obtain ⟨hpg, hpin, hvid, hen⟩ := mainUp_vcoreAsked_rd s
    refine ⟨_, congrArg Outcome.next (mainPgRiseOp_raises h0 h1 h2 h3 h4 h5 h6), ?_, ?_, ?_, ?_, rfl,
      (mainUp_vcoreAsked_onlyRegs s).setBoot _⟩
    all_goals rwa [rd_boot]

end Sys2Proof.Machine
end

/-! ## The governor's flags and the close of a demand interval (R598, R599, R603) -/

section
namespace Sys2Proof.Machine

section
variable {α : Type} {v : State → α} {P Q : Nat → Prop} {a s t : State}

/-- A frame over what requests may change, seen in a view that requests do not change. -/
theorem Spares.weaken (h : Spares State.still P s t) (hv : ∀ u : State, v u.still = v u) (hp : ∀ k, Q k → P k) :
    Spares v Q s t := ⟨h.part v hv, h.regs.mono hp⟩

/-- Keys below the functions' pages: the registers of TOP. -/
def lowKey (k : Nat) : Prop := k < 0x100000 * 128

theorem lowKey_outside {k : Nat} (h : lowKey k) : outside k := .inl h

theorem not_lowKey {f : Field} (i : List Nat) (h : 0x100000 ≤ f.base) : ¬ lowKey (f.key i) := by
  simp only [lowKey, Field.key, Field.addr]
  omega

end

/-- The registers that follow the limiter. -/
def flagKeys : List Nat :=
  [Reg.PWR_STAT_LIMITED.key [], Reg.PWR_STAT_THERMAL.key [], Reg.PWR_STAT_FLOOR.key [], Reg.PWR_IV_OPEN_B_FLAGS.key []]

/-- The registers once the limiter's flags have followed, before source 408 does (R599). -/
def State.flagged (s : State) : State :=
  let limited := decide (s.rd Reg.PWR_LIMIT_CODE [] < s.rd Reg.PWR_TARGET_CODE [])
  let atFloor := s.gov.isOver && s.rd Reg.PWR_STAT_VID [] == 0x28
  let u := ((s.wrb Reg.PWR_STAT_LIMITED [] limited).wrb Reg.PWR_STAT_THERMAL [] s.gov.isOverTemp).wrb Reg.PWR_STAT_FLOOR []
    atFloor
  let fl := u.rd Reg.PWR_IV_OPEN_B_FLAGS []
  let fl := if limited && !bitOf fl 4 then fl + 16 else fl
  u.wr Reg.PWR_IV_OPEN_B_FLAGS [] (if atFloor && !bitOf fl 5 then fl + 32 else fl)

theorem powerFlags_eq (s : State) : powerFlags s = hedgeLevel s.flagged 408
    (decide (s.rd Reg.PWR_LIMIT_CODE [] < s.rd Reg.PWR_TARGET_CODE [])) 0 := rfl

theorem flagged_onlyRegs (s : State) : OnlyRegs s s.flagged flagKeys :=
  ((((OnlyRegs.refl s _).wrb _ _ _ (by decide)).wrb _ _ _ (by decide)).wrb _ _ _ (by decide)).wr _ _ _ (by decide)

theorem flagged_limited (s : State) : s.flagged.on Reg.PWR_STAT_LIMITED [] =
    decide (s.rd Reg.PWR_LIMIT_CODE [] < s.rd Reg.PWR_TARGET_CODE []) := by
  unfold State.flagged
  dsimp only
  rw [on_wr_ne _ _ (by decide), on_wrb_ne _ _ (by decide), on_wrb_ne _ _ (by decide), on_wrb_self _ _ _ rfl]

theorem powerFlags_spares (s : State) : Spares State.still (fun k => outside k ∧ k ∉ flagKeys) s (powerFlags s) := by
  have h : Spares State.still (fun k => outside k ∧ k ∉ flagKeys) s s.flagged :=
    ⟨(flagged_onlyRegs s).part State.still (fun _ => rfl), fun f i hk => (flagged_onlyRegs s).regs f i hk.2⟩
  rw [powerFlags_eq]
  exact h.trans ((hedgeLevel_quiet (.refl _) _ _ (by decide)).spares (fun _ => rfl) (fun _ hk => hk.1))

/-- What a cut and a closing demand interval leave alone: HBM, the plots, and the pins and boot data. -/
def State.cutView (s : State) : FMap Byte × FMap Plot × Boot := (s.hbm, s.plots, s.boot)

theorem cutView_wr (s : State) (f : Field) (i : List Nat) (x : Nat) : (s.wr f i x).cutView = s.cutView := rfl

/-- `s` differs from `a` in registers above TOP and outside HBM, the plots and the boot data at most. -/
def LowSpares (a s : State) : Prop := Spares State.cutView lowKey a s

section
variable {a s t : State}

theorem LowSpares.refl (s : State) : LowSpares s s := Spares.refl _ _ s

theorem LowSpares.set (h : LowSpares a s) (hr : t.regs = s.regs) (hv : t.cutView = s.cutView) : LowSpares a t :=
  Spares.set h hr hv

theorem LowSpares.gov (h : LowSpares a s) (g : Gov) : LowSpares a { s with gov := g } := h.set rfl rfl

theorem LowSpares.ite {p : Prop} [Decidable p] (hs : LowSpares a s) (ht : LowSpares a t) : LowSpares a (if p then s else t) :=
  Spares.ite hs ht

theorem LowSpares.wr (h : LowSpares a s) (f : Field) (i : List Nat) (x : Nat) (hb : 0x100000 ≤ f.base) :
    LowSpares a (s.wr f i x) := Spares.wr h f i x (cutView_wr s f i x) (not_lowKey i hb)

theorem LowSpares.foldl {β : Type} (g : State → β → State) (l : List β)
    (hg : ∀ s x, x ∈ l → LowSpares a s → LowSpares a (g s x)) (h : LowSpares a s) : LowSpares a (l.foldl g s) :=
  Spares.foldl g l hg h

theorem LowSpares.quiet (h : LowSpares a s) (q : Quiet s t) : LowSpares a t :=
  h.trans (q.spares (fun _ => rfl) (fun _ => lowKey_outside))

theorem powerFlags_low (h : LowSpares a s) : LowSpares a (powerFlags s) := by
  refine h.trans ((powerFlags_spares s).weaken (fun _ => rfl) (fun k hk => ⟨lowKey_outside hk, fun hm => ?_⟩))
  have high : ∀ j ∈ flagKeys, ¬ j < 0x100000 * 128 := by decide
  exact high k hm hk

theorem updateLimits_low (h : LowSpares a s) : LowSpares a (updateLimits s) := by
  unfold updateLimits
  exact powerFlags_low (.gov (.wr (.wr (.wr h _ _ _ (by decide)) _ _ _ (by decide)) _ _ _ (by decide)) _)

theorem selectBand_low (h : LowSpares a s) (r : Nat) : LowSpares a (selectBand s r) :=
  updateLimits_low ((h.wr Reg.PWR_STAT_BAND [] (s.scheduledBand r) (by decide)).wr Reg.PWR_IV_OPEN_B_BAND []
    (s.scheduledBand r) (by decide))

/-- The fields of the schedule lie above TOP, in the staging copy and in effect. -/
theorem tariffField_high : ∀ e ∈ setFields .tariff, 0x100000 ≤ e.1.mirror.base := by
  intro e he
  have words {f : Field} {idx : List Nat} {n : Nat} (hb : 0x100000 ≤ f.mirror.base) (h : e ∈ fieldRow f idx n) :
      0x100000 ≤ e.1.mirror.base := by
    obtain ⟨_, -, rfl⟩ := List.mem_map.mp h
    exact hb
  simp only [setFields, List.mem_append, List.mem_flatMap] at he
  rcases he with (h | ⟨_, -, h⟩) | ⟨_, -, h⟩
  · exact words (by decide) h
  · exact words (by decide) h
  · exact words (by decide) h

theorem dropSet_low (h : LowSpares a s) : LowSpares a (dropSet s .tariff) := by
  have forget : ∀ l : List (Field × List Nat), LowSpares a
      (l.foldl (fun s e => { s with captured := FMap.erase s.captured (e.1.key e.2) }) s) :=
    fun l => .foldl _ l (fun _ _ _ h => h.set rfl rfl) h
  exact .ite ((forget _).wr _ _ _ (by decide)) h

theorem effectSet_low (h : LowSpares a s) : LowSpares a (effectSet s .tariff) := by
  have put : ∀ l : List (Field × List Nat), (∀ e ∈ l, 0x100000 ≤ e.1.mirror.base) → LowSpares a
      (l.foldl (fun s e => s.wr e.1.mirror e.2 (s.cap e.1 e.2)) s) :=
    fun l hl => .foldl _ l (fun _ e he h => h.wr _ _ _ (hl e he)) h
  exact .ite ((dropSet_low (put _ tariffField_high)).wr _ _ _ (by decide)) h

theorem openWithBand_low (h : LowSpares a s) (r : Nat) : LowSpares a (openWithBand s r) := by
  have h1 := (effectSet_low h).wr Reg.PWR_STAT_SCHED_DEFAULT [] 0 (by decide)
  unfold openWithBand
  refine .gov (selectBand_low (.ite ?_ h) r) _
  generalize effectSet s .tariff = u at h1 ⊢
  exact h1.gov _

theorem closeInterval_low (h : LowSpares a s) (r flags : Nat) : LowSpares a (closeInterval s r flags) := by
  unfold closeInterval
  refine .gov (.wr (.wr (.wr (.wr (.wr (.wr (.foldl _ _ (fun t f _ ht => ?_) ?_) _ _ _ (by decide)) _ _ _ (by decide))
    _ _ _ (by decide)) _ _ _ (by decide)) _ _ _ (by decide)) _ _ _ (by decide)) _
  · exact (ht.wr _ _ _ (by decide)).wr _ _ _ (by decide)
  · exact ((((((h.wr _ _ _ (by decide)).wr _ _ _ (by decide)).wr _ _ _ (by decide)).wr _ _ _ (by decide)).wr _ _ _
      (by decide)).wr _ _ _ (by decide)).wr _ _ _ (by decide)

theorem closeAndOpen_low (h : LowSpares a s) (r flags : Nat) : LowSpares a (closeAndOpen s r flags) :=
  (openWithBand_low (closeInterval_low h r flags) r).quiet (hedgeEvent_quiet (.refl _) _ (by decide))

/-- An interval that ends before a cut leaves TOP, HBM, the plots and the boot data alone (R612). -/
theorem demandCloseOp_low (s : State) : LowSpares s (demandCloseOp s) := .ite (closeAndOpen_low (.refl s) _ _) (.refl s)

end

end Sys2Proof.Machine
end

/-! ## Registering a power cut (R55-R57, R610, R611) -/

section
namespace Sys2Proof.Machine

open Host (Outcome)

section
variable {s : State}

theorem holdupRecord_logged {a s : State} (h : Logged a s) (slot log kind : Nat) (body : List Byte) :
    Logged a (holdupRecord s slot log kind body) := putRecord_logged h _ _ _ _

theorem writePack_logged {a s : State} (h : Logged a s) (slot rtc len band flags : Nat) (e : Nat → Nat) :
    Logged a (writePack s slot rtc len band flags e).1 := by
  unfold writePack
  dsimp only
  split
  · exact holdupRecord_logged (holdupRecord_logged h _ _ _ _) _ _ _ _
  · exact holdupRecord_logged h _ _ _ _

/-- The pack of a closed interval, where one is due. -/
theorem firstPack_logged (s : State) (c : Bool) (rtc len band flags : Nat) (e : Nat → Nat) :
    Logged s (if c then writePack s 0 rtc len band flags e else (s, 0)).1 := by
  split
  · exact writePack_logged (.refl s) _ _ _ _ _ _
  · exact .refl s

/-- The hold-up executor writes records and nothing else. -/
theorem holdupWrites_logged (s : State) (cause : Nat) : Logged s (holdupWrites s cause).1 := by
  unfold holdupWrites
  split
  · exact .refl s
  · split
    · exact .refl s
    · dsimp only
      split
      · exact writePack_logged (holdupRecord_logged (firstPack_logged s _ _ _ _ _ _) _ _ _ _) _ _ _ _ _ _
      · exact holdupRecord_logged (firstPack_logged s _ _ _ _ _ _) _ _ _ _

theorem cutBank_logged {a s : State} (h : Logged a s) (ops : List FlashOp) : Logged a (cutBank s ops) := by
  unfold cutBank
  split
  · exact undefSector_logged h _
  · split
    · exact programSegment_logged h _ _
    · exact h
  · exact h

/-- Registers that the hold-up sequence writes once the cut is shown, the log's own apart. -/
def cutKeys : List Nat :=
  [Reg.FLC_STAT_FAIL.key [], Reg.FLC_STAT_CAUSE.key [], Reg.PWR_STAT_HOLDUP.key [], Reg.TOP_PINSTAT_VCORE_EN.key [],
   Reg.TOP_PINSTAT_VID.key [], Reg.PWR_STAT_VID.key [], Reg.TOP_PINSTAT_MAIN_EN.key []]

/-- Registers that the hold-up sequence leaves alone once the cut is shown. -/
def cutKept (k : Nat) : Prop := outside k ∧ k ∉ logKeys ∧ k ∉ cutKeys

theorem not_cutKept {k : Nat} (h : k ∈ logKeys ∨ k ∈ cutKeys) : ¬ cutKept k :=
  fun ⟨_, hl, hc⟩ => h.elim hl hc

theorem flashCutAbort_spares (s : State) : Spares State.cutView cutKept s (flashCutAbort s) := by
  have hl : Logged s (cutBank (cutBank s s.flash.bank0) s.flash.bank1) := cutBank_logged (cutBank_logged (.refl s) _) _
  have h : Spares State.cutView cutKept s (cutBank (cutBank s s.flash.bank0) s.flash.bank1) :=
    hl.spares (fun _ => rfl) (fun _ hk => hk.2.1)
  unfold flashCutAbort
  generalize cutBank (cutBank s s.flash.bank0) s.flash.bank1 = u at h ⊢
  have h0 : Spares State.cutView cutKept s { u with flash := { u.flash with bank0 := [], bank1 := [], logWait := [] } } :=
    h.set rfl rfl
  have h1 := (h0.wr Reg.FLC_STAT_BUSY0 [] 0 (cutView_wr _ _ _ _) (not_cutKept (by decide))).wr Reg.FLC_STAT_BUSY1 [] 0 (cutView_wr _ _ _ _)
    (not_cutKept (by decide))
  have h2 := (h1.wr Reg.FLC_STAT_FAIL [] 1 (cutView_wr _ _ _ _) (not_cutKept (by decide))).wr Reg.FLC_STAT_CAUSE [] 5 (cutView_wr _ _ _ _)
    (not_cutKept (by decide))
  exact .ite (h2.trans ((hedgeEvent_quiet (i := 406) (.refl _) 0 (by decide)).spares (fun _ => rfl) (fun _ hk => hk.1))) h1

/-- The registers that show a cut (R56). -/
def State.cutNoted (s : State) (cause : Nat) : State :=
  ((((s.wr Reg.PWR_STAT_CUT [] 1).wr Reg.PWR_CUT_TB_TB [] s.now).wr Reg.TOP_PINSTAT_CUT_SEEN [] 1).wr
    Reg.TOP_PINSTAT_CUT_CAUSE [] cause).wr Reg.TOP_RSTCAUSE_CUT [] 1

/-- The state once the records of the hold-up sequence are written (R611). -/
def State.cutStored (s : State) (cause : Nat) : State := (holdupWrites (hedgeEvent (flashCutAbort s) 4 cause) cause).1

/-- The registers once both enables have fallen. -/
def State.cutDown (s : State) : State :=
  (vcoreOff (s.wr Reg.PWR_STAT_HOLDUP [] (if s.on Reg.FLC_RSV_VALID [] then 1 else 3))).wr Reg.TOP_PINSTAT_MAIN_EN [] 0

/-- The end of the registration: the enables fall and the hold-up sequence runs. -/
def State.cutEnd (s : State) : State :=
  { s.cutDown with boot := { s.cutDown.boot with holdup := true, cutAt := s.cutDown.now } }

theorem registerCut_eq (cause : Nat) (h0 : s.on Reg.PWR_STAT_CUT [] = false) (h1 : s.boot.porstN = true) :
    registerCut s cause = (((demandCloseOp s).cutNoted cause).cutStored cause).cutEnd := by
  unfold registerCut
  rw [if_neg (by simp [h0, h1])]
  dsimp only [State.cutEnd, State.cutDown, State.cutStored, State.cutNoted]

theorem cutStored_spares (s : State) (cause : Nat) : Spares State.cutView cutKept s (s.cutStored cause) := by
  have h := flashCutAbort_spares s
  unfold State.cutStored
  generalize flashCutAbort s = u at h ⊢
  refine (h.trans ((hedgeEvent_quiet (i := 4) (.refl u) cause (by decide)).spares (fun _ => rfl) (fun _ hk => hk.1))).trans ?_
  exact (holdupWrites_logged _ cause).spares (fun _ => rfl) (fun _ hk => hk.2.1)

theorem cutDown_spares (s : State) : Spares State.cutView cutKept s s.cutDown := by
  unfold State.cutDown
  rw [vcoreOff_eq]
  have h := (Spares.refl State.cutView cutKept s).wr Reg.PWR_STAT_HOLDUP [] (if s.on Reg.FLC_RSV_VALID [] then 1 else 3) (cutView_wr _ _ _ _)
    (not_cutKept (by decide))
  exact (((h.wr _ _ _ (cutView_wr _ _ _ _) (not_cutKept (by decide))).wr _ _ _ (cutView_wr _ _ _ _) (not_cutKept (by decide))).wr _ _ _ (cutView_wr _ _ _ _)
    (not_cutKept (by decide))).wr _ _ _ (cutView_wr _ _ _ _) (not_cutKept (by decide))

theorem cutDown_rd (s : State) : s.cutDown.rd Reg.TOP_PINSTAT_VCORE_EN [] = 0 ∧
    s.cutDown.rd Reg.TOP_PINSTAT_MAIN_EN [] = 0 ∧ s.cutDown.rd Reg.TOP_PINSTAT_VID [] = 0 := by
  unfold State.cutDown
  rw [vcoreOff_eq]
  simp (disch := decide) only [rd_wr_ne, rd_wr_self]
  exact ⟨rfl, rfl, rfl⟩

theorem cutNoted_rd (s : State) {cause : Nat} (h : cause < 4) : (s.cutNoted cause).rd Reg.PWR_STAT_CUT [] = 1 ∧
    (s.cutNoted cause).rd Reg.PWR_CUT_TB_TB [] = s.now ∧ (s.cutNoted cause).rd Reg.TOP_PINSTAT_CUT_SEEN [] = 1 ∧
    (s.cutNoted cause).rd Reg.TOP_PINSTAT_CUT_CAUSE [] = cause ∧ (s.cutNoted cause).rd Reg.TOP_RSTCAUSE_CUT [] = 1 := by
  unfold State.cutNoted
  simp (disch := decide) only [rd_wr_ne, rd_wr_self]
  exact ⟨rfl, Nat.mod_eq_of_lt (now_lt s), rfl, Nat.mod_eq_of_lt h, rfl⟩

/-- The registers that show a cut. -/
def noteKeys : List Nat :=
  [Reg.PWR_STAT_CUT.key [], Reg.PWR_CUT_TB_TB.key [], Reg.TOP_PINSTAT_CUT_SEEN.key [], Reg.TOP_PINSTAT_CUT_CAUSE.key [],
   Reg.TOP_RSTCAUSE_CUT.key []]

theorem cutNoted_onlyRegs (s : State) (cause : Nat) : OnlyRegs s (s.cutNoted cause) noteKeys :=
  (((((OnlyRegs.refl s _).wr _ _ _ (by decide)).wr _ _ _ (by decide)).wr _ _ _ (by decide)).wr _ _ _ (by decide)).wr
    _ _ _ (by decide)

/-- What the registration of a cut leaves (R56, R57, R610, R611). -/
structure CutRegistered (s t : State) (cause : Nat) : Prop where
  cut : t.rd Reg.PWR_STAT_CUT [] = 1
  seen : t.rd Reg.TOP_PINSTAT_CUT_SEEN [] = 1
  cause : t.rd Reg.TOP_PINSTAT_CUT_CAUSE [] = cause
  rstcause : t.rd Reg.TOP_RSTCAUSE_CUT [] = 1
  time : t.rd Reg.PWR_CUT_TB_TB [] = s.now
  vcoreEn : t.rd Reg.TOP_PINSTAT_VCORE_EN [] = 0
  mainEn : t.rd Reg.TOP_PINSTAT_MAIN_EN [] = 0
  vid : t.rd Reg.TOP_PINSTAT_VID [] = 0
  holdup : t.boot.holdup = true
  cutAt : t.boot.cutAt = s.now
  hbm : t.hbm = s.hbm
  plots : t.plots = s.plots

theorem registerCut_registers {cause : Nat} (h0 : s.on Reg.PWR_STAT_CUT [] = false) (h1 : s.boot.porstN = true)
    (hc : cause < 4) : CutRegistered s (registerCut s cause) cause ∧
      ∀ f i, lowKey (f.key i) → f.key i ∉ logKeys ++ cutKeys ++ noteKeys → (registerCut s cause).rd f i = s.rd f i := by
  rw [registerCut_eq cause h0 h1]
  have hu := demandCloseOp_low s
  generalize demandCloseOp s = u at hu ⊢
  have hn := cutNoted_onlyRegs u cause
  obtain ⟨ncut, ntime, nseen, ncause, nrst⟩ := cutNoted_rd u hc
  have hnow : u.now = s.now := hu.regs _ _ (show Reg.TOP_TIMEBASE_COUNT.key [] < 0x100000 * 128 by decide)
  have hk := (cutStored_spares (u.cutNoted cause) cause).trans (cutDown_spares _)
  obtain ⟨dvcore, dmain, dvid⟩ := cutDown_rd ((u.cutNoted cause).cutStored cause)
  generalize (u.cutNoted cause).cutStored cause = w at hk dvcore dmain dvid ⊢
  have hv := (hn.part State.cutView (fun _ => rfl)).trans hu.view
  have reads {f : Field} {i : List Nat} (h : cutKept (f.key i)) : w.cutEnd.rd f i = (u.cutNoted cause).rd f i :=
    (rd_boot _ _ _ _).trans (hk.regs f i h)
  have hend : w.cutDown.cutView = s.cutView := hk.view.trans hv
  have kept {k : Nat} (ho : outside k) (hl : k ∉ logKeys ++ cutKeys) : cutKept k :=
    ⟨ho, fun h => hl (List.mem_append_left _ h), fun h => hl (List.mem_append_right _ h)⟩
  have wnow : w.cutDown.now = s.now := by
    refine (hk.regs _ _ (kept (.inl (by decide)) (by decide))).trans ?_
    exact (hn.regs _ _ (by decide)).trans hnow
  refine ⟨{
    cut := (reads (kept (.inr (by decide)) (by decide))).trans ncut
    seen := (reads (kept (.inl (by decide)) (by decide))).trans nseen
    cause := (reads (kept (.inl (by decide)) (by decide))).trans ncause
    rstcause := (reads (kept (.inl (by decide)) (by decide))).trans nrst
    time := ((reads (kept (.inr (by decide)) (by decide))).trans ntime).trans hnow
    vcoreEn := (rd_boot _ _ _ _).trans dvcore
    mainEn := (rd_boot _ _ _ _).trans dmain
    vid := (rd_boot _ _ _ _).trans dvid
    holdup := rfl
    cutAt := wnow
    hbm := congrArg (·.1) hend
    plots := congrArg (·.2.1) hend }, fun f i hlow hf => ?_⟩
  have hc := kept (lowKey_outside hlow) (fun h => hf (List.mem_append_left _ h))
  exact ((reads hc).trans (hn.regs f i (fun h => hf (List.mem_append_right _ h)))).trans (hu.regs f i hlow)

theorem powerCutOp_cuts (h0 : s.boot.pwrfailLow = true) (h1 : s.boot.pwrfailAt + usCounts 1 ≤ s.now) :
    powerCutOp s = registerCut (s.wr Reg.TOP_PINSTAT_PWRFAIL_N [] 0) 1 := if_pos ⟨h0, h1⟩

/-- The power-good field of a rail. -/
def railPg : Rail → Field
  | .main => Reg.TOP_PINSTAT_MAIN_PG
  | .vcore => Reg.TOP_PINSTAT_VCORE_PG

/-- The enable field of a rail. -/
def railEn : Rail → Field
  | .main => Reg.TOP_PINSTAT_MAIN_EN
  | .vcore => Reg.TOP_PINSTAT_VCORE_EN

theorem mainLossOp_cuts (r : Rail) (h0 : s.on (railPg r) [] = true) (h1 : s.on (railEn r) [] = true)
    (h2 : s.boot.pwrfailLow = false) : mainLossOp s r = registerCut (s.wr (railPg r) [] 0) 2 := by
  cases r with
  | main =>
    unfold railPg at h0 ⊢
    exact (if_neg (by simp [h0])).trans (if_pos (by simp [railEn] at h1; simp [h1, h2]))
  | vcore =>
    unfold railPg at h0 ⊢
    exact (if_neg (by simp [h0])).trans (if_pos (by simp [railEn] at h1; simp [h1, h2]))

/-- A pin falls and the cut is registered: the pin reads 0 beside what shows the cut. -/
theorem registerCut_after_fall {f : Field} {cause : Nat} (h0 : s.on Reg.PWR_STAT_CUT [] = false)
    (h1 : s.boot.porstN = true) (hc : cause < 4) (hlow : f.key [] < 0x100000 * 128)
    (hf : f.key [] ∉ logKeys ++ cutKeys ++ noteKeys) (hn : Reg.TOP_TIMEBASE_COUNT.key [] ≠ f.key []) :
    (registerCut (s.wr f [] 0) cause).rd f [] = 0 ∧ CutRegistered s (registerCut (s.wr f [] 0) cause) cause := by
  have hcut : (s.wr f [] 0).on Reg.PWR_STAT_CUT [] = false := by
    rw [on_wr_ne s 0 (fun e => hf (e ▸ List.mem_append_right _ (by decide))), h0]
  obtain ⟨h, hothers⟩ := registerCut_registers (s := s.wr f [] 0) hcut h1 hc
  have hnow := now_wr s 0 hn
  exact ⟨by rw [hothers f [] hlow hf, rd_wr_self, Nat.zero_mod],
    { h with time := h.time.trans hnow, cutAt := h.cutAt.trans hnow, hbm := h.hbm, plots := h.plots }⟩

end

/-- Settles O8: a filtered PWRFAIL_N and a fallen power-good lower one pin and register the cut. -/
theorem powerCutFreezesAndRemovesPower : Obligations.PowerCutFreezesAndRemovesPower := by
  intro s hporst hcut
  refine ⟨fun h0 h1 => ?_, fun h0 => ⟨fun h1 h2 => ?_, fun h1 h2 => ?_⟩⟩
  · obtain ⟨hpin, h⟩ := registerCut_after_fall (f := Reg.TOP_PINSTAT_PWRFAIL_N) (cause := 1) hcut hporst (by decide)
      (by decide) (by decide) (by decide)
    exact ⟨_, congrArg Outcome.next (powerCutOp_cuts h0 h1), h.cut, h.seen, h.cause, h.rstcause, h.time, hpin, h.vcoreEn,
      h.mainEn, h.vid, h.holdup, h.cutAt, h.hbm, h.plots⟩
  · obtain ⟨hpin, h⟩ := registerCut_after_fall (f := Reg.TOP_PINSTAT_MAIN_PG) (cause := 2) hcut hporst (by decide)
      (by decide) (by decide) (by decide)
    exact ⟨_, congrArg Outcome.next (mainLossOp_cuts .main h1 h2 h0), hpin, h.cut, h.cause, h.time, h.vcoreEn, h.mainEn,
      h.holdup, h.hbm, h.plots⟩
  · obtain ⟨hpin, h⟩ := registerCut_after_fall (f := Reg.TOP_PINSTAT_VCORE_PG) (cause := 2) hcut hporst (by decide)
      (by decide) (by decide) (by decide)
    exact ⟨_, congrArg Outcome.next (mainLossOp_cuts .vcore h1 h2 h0), hpin, h.cut, h.cause, h.time, h.vcoreEn, h.mainEn,
      h.holdup, h.hbm, h.plots⟩

end Sys2Proof.Machine
end

/-! ## The limiter, VID and the governor's loop (R48, R598, R599, R601, R606) -/

section
namespace Sys2Proof.Machine

open Host (Outcome)

/-- Parts that no command of the governor changes. -/
def State.govView (s : State) : FMap Byte × FMap Plot × Flash × FMap Job := (s.hbm, s.plots, s.flash, s.jobs)

/-- What following the flags leaves of every other part and register, and what LIMITED then says (R599). -/
structure Flagged (s t : State) : Prop where
  frame : Spares State.still (fun k => outside k ∧ k ∉ flagKeys) s t
  limited : t.on Reg.PWR_STAT_LIMITED [] = decide (s.rd Reg.PWR_LIMIT_CODE [] < s.rd Reg.PWR_TARGET_CODE [])

theorem powerFlags_flagged (s : State) : Flagged s (powerFlags s) := by
  refine ⟨powerFlags_spares s, ?_⟩
  rw [powerFlags_eq, (hedgeLevel_quiet (.refl _) _ _ (by decide)).on _ _ (.inr (by decide)), flagged_limited]

section
variable {s t u : State}

theorem Flagged.rd (h : Flagged s t) (f : Field) (i : List Nat) (ho : 0x230000 * 128 ≤ f.key i) (hf : f.key i ∉ flagKeys) :
    t.rd f i = s.rd f i := h.frame.regs f i ⟨.inr ho, hf⟩

/-- Flags that follow a state whose storage is that of `u` leave it so. -/
theorem Flagged.govView (h : Flagged s t) (hs : s.govView = u.govView) :
    t.hbm = u.hbm ∧ t.plots = u.plots ∧ t.flash = u.flash ∧ t.jobs = u.jobs := by
  have e : t.govView = u.govView := (h.frame.part State.govView (fun _ => rfl)).trans hs
  exact ⟨congrArg (·.1) e, congrArg (·.2.1) e, congrArg (·.2.2.1) e, congrArg (·.2.2.2) e⟩

/-- LIMITED after the flags have followed: the limit code lies below the target. -/
theorem Flagged.limited_iff (h : Flagged s t) (ht : s.rd Reg.PWR_TARGET_CODE [] = u.rd Reg.PWR_TARGET_CODE []) :
    t.rd Reg.PWR_STAT_LIMITED [] = 1 ↔ t.rd Reg.PWR_LIMIT_CODE [] < u.rd Reg.PWR_TARGET_CODE [] := by
  have hl : t.rd Reg.PWR_STAT_LIMITED [] < 2 := rd_lt t Reg.PWR_STAT_LIMITED []
  have e := h.limited
  rw [h.rd Reg.PWR_LIMIT_CODE [] (by decide) (by decide), ← ht, ← decide_eq_true_iff (p := _ < _), ← e]
  unfold State.on
  simp only [bne_iff_ne]
  omega

/-! ### LIMITER_STEP -/

/-- The limit code that LIMITER_STEP leaves (R599). -/
def State.nextLimit (s : State) : Nat :=
  if s.gov.isOver = true then
    if s.gov.lowerAt ≤ s.now ∧ 0x28 < s.rd Reg.PWR_LIMIT_CODE [] then s.rd Reg.PWR_LIMIT_CODE [] - 1
    else s.rd Reg.PWR_LIMIT_CODE []
  else if s.rd Reg.PWR_LIMIT_CODE [] < 0xA0 ∧ s.gov.notOverSince + usCounts 100 ≤ s.now ∧ s.gov.raiseAt ≤ s.now ∧
      s.gov.power * 1200 * 100 ≤ s.rd Reg.PWR_FAST_CAP_W [] * 4096 * 97 then s.rd Reg.PWR_LIMIT_CODE [] + 1
  else s.rd Reg.PWR_LIMIT_CODE []

/-- LIMITER_STEP sets the limit code and its own timers, then the flags follow. -/
theorem limiterStepOp_eq (s : State) : ∃ w g, limiterStepOp s = powerFlags { w with gov := g } ∧
    OnlyRegs s w [Reg.PWR_LIMIT_CODE.key []] ∧ w.rd Reg.PWR_LIMIT_CODE [] = s.nextLimit := by
  have hlt : s.rd Reg.PWR_LIMIT_CODE [] < 2 ^ 8 := rd_lt s Reg.PWR_LIMIT_CODE []
  have writes (v : Nat) (hv : v < 2 ^ 8) : OnlyRegs s (s.wr Reg.PWR_LIMIT_CODE [] v) [Reg.PWR_LIMIT_CODE.key []] ∧
      (s.wr Reg.PWR_LIMIT_CODE [] v).rd Reg.PWR_LIMIT_CODE [] = v :=
    ⟨(OnlyRegs.refl s _).wr _ _ _ (List.mem_singleton.mpr rfl), (rd_wr_self _ _ _ _).trans (Nat.mod_eq_of_lt hv)⟩
  unfold limiterStepOp State.nextLimit
  dsimp only
  split
  · split
    · exact ⟨_, _, rfl, writes _ (by omega)⟩
    · exact ⟨s, s.gov, rfl, .refl s _, rfl⟩
  · split
    · exact ⟨_, _, rfl, writes _ (by omega)⟩
    · exact ⟨s, s.gov, rfl, .refl s _, rfl⟩

theorem limiterStep_steps (s : State) : (limiterStepOp s).rd Reg.PWR_LIMIT_CODE [] = s.nextLimit ∧
    ((limiterStepOp s).rd Reg.PWR_STAT_LIMITED [] = 1 ↔
      (limiterStepOp s).rd Reg.PWR_LIMIT_CODE [] < s.rd Reg.PWR_TARGET_CODE []) ∧
    (limiterStepOp s).hbm = s.hbm ∧ (limiterStepOp s).plots = s.plots ∧ (limiterStepOp s).flash = s.flash ∧
    (limiterStepOp s).jobs = s.jobs := by
  obtain ⟨w, g, e, hw, hcode⟩ := limiterStepOp_eq s
  have h := powerFlags_flagged { w with gov := g }
  rw [e]
  exact ⟨(h.rd _ _ (by decide) (by decide)).trans hcode, h.limited_iff (hw.regs _ _ (by decide)),
    h.govView (hw.part State.govView (fun _ => rfl))⟩

/-! ### VID_STEP -/

theorem vidGoal_bounds (s : State) : 0x28 ≤ s.vidGoal ∧ s.vidGoal ≤ 0xA0 := by
  unfold State.vidGoal
  omega

/-- VID one code nearer to its goal (R48). -/
def State.nextVid (s : State) : Nat :=
  if s.rd Reg.TOP_PINSTAT_VID [] < s.vidGoal then s.rd Reg.TOP_PINSTAT_VID [] + 1 else s.rd Reg.TOP_PINSTAT_VID [] - 1

theorem nextVid_lt (s : State) : s.nextVid < 2 ^ 8 := by
  have := vidGoal_bounds s
  have hlt : s.rd Reg.TOP_PINSTAT_VID [] < 2 ^ 8 := rd_lt s Reg.TOP_PINSTAT_VID []
  unfold State.nextVid
  split <;> omega

theorem vidStepOp_moves (h0 : s.on Reg.TOP_PINSTAT_VCORE_EN [] = true) (h1 : s.boot.vidAt ≤ s.now)
    (h2 : s.rd Reg.TOP_PINSTAT_VID [] ≠ s.vidGoal) : vidStepOp s =
      powerFlags { driveVid s s.nextVid with boot := { s.boot with vidAt := s.now + usCounts 1 } } := by
  have hn : (driveVid s s.nextVid).now = s.now := by
    rw [driveVid_eq]
    simp (disch := decide) only [now_wr]
  rw [← hn]
  exact if_neg (by simp [h0, h2, h1])

theorem driveVid_rd (s : State) {c : Nat} (h : c < 2 ^ 8) : (driveVid s c).rd Reg.TOP_PINSTAT_VID [] = c ∧
    (driveVid s c).rd Reg.PWR_STAT_VID [] = c := by
  rw [driveVid_eq]
  simp (disch := decide) only [rd_wr_ne, rd_wr_self]
  exact ⟨Nat.mod_eq_of_lt h, Nat.mod_eq_of_lt h⟩

theorem vidStep_moves (h0 : s.on Reg.TOP_PINSTAT_VCORE_EN [] = true) (h1 : s.boot.vidAt ≤ s.now)
    (h2 : s.rd Reg.TOP_PINSTAT_VID [] ≠ s.vidGoal) : (vidStepOp s).rd Reg.TOP_PINSTAT_VID [] = s.nextVid ∧
      (vidStepOp s).rd Reg.PWR_STAT_VID [] = (vidStepOp s).rd Reg.TOP_PINSTAT_VID [] ∧
      (vidStepOp s).boot.vidAt = s.now + usCounts 1 ∧ (vidStepOp s).hbm = s.hbm ∧ (vidStepOp s).plots = s.plots ∧
      (vidStepOp s).flash = s.flash ∧ (vidStepOp s).jobs = s.jobs := by
  obtain ⟨hpin, hstat⟩ := driveVid_rd s (nextVid_lt s)
  have hv : (driveVid s s.nextVid).govView = s.govView := rfl
  rw [vidStepOp_moves h0 h1 h2]
  generalize driveVid s s.nextVid = d at hpin hstat hv ⊢
  have h := powerFlags_flagged { d with boot := { s.boot with vidAt := s.now + usCounts 1 } }
  have tpin := (h.frame.regs Reg.TOP_PINSTAT_VID [] ⟨.inl (by decide), by decide⟩).trans ((rd_boot _ _ _ _).trans hpin)
  have tstat := (h.rd Reg.PWR_STAT_VID [] (by decide) (by decide)).trans ((rd_boot _ _ _ _).trans hstat)
  have tboot := h.frame.part State.boot (fun _ => rfl)
  exact ⟨tpin, tstat.trans tpin.symm, by rw [tboot], h.govView hv⟩

/-! ### GOVERNOR_LOOP -/

theorem floorNow_le_ceilNow (s : State) : s.floorNow ≤ s.ceilNow := Nat.min_le_right _ _

theorem loopTarget_bounds (s : State) : s.floorNow ≤ s.loopTarget ∧ s.loopTarget ≤ s.ceilNow := by
  have := floorNow_le_ceilNow s
  unfold State.loopTarget
  exact ⟨Nat.le_max_left _ _, Nat.max_le.mpr ⟨this, Nat.min_le_right _ _⟩⟩

theorem ceilNow_lt (s : State) : s.ceilNow < 2 ^ 8 :=
  Nat.lt_of_le_of_lt (Nat.min_le_right _ _) (rd_lt s Reg.PWR_VID_MAX_CODE [])

theorem governorLoopOp_targets (h : s.govRuns = true) : ∃ g, governorLoopOp s =
    powerFlags { s.wr Reg.PWR_TARGET_CODE [] s.loopTarget with gov := g } := ⟨_, if_pos h⟩

theorem governorLoop_targets (h : s.govRuns = true) : (governorLoopOp s).rd Reg.PWR_TARGET_CODE [] = s.loopTarget ∧
    (governorLoopOp s).hbm = s.hbm ∧ (governorLoopOp s).plots = s.plots ∧ (governorLoopOp s).flash = s.flash ∧
    (governorLoopOp s).jobs = s.jobs := by
  obtain ⟨g, e⟩ := governorLoopOp_targets h
  have hf := powerFlags_flagged { s.wr Reg.PWR_TARGET_CODE [] s.loopTarget with gov := g }
  have hlt : s.loopTarget < 2 ^ 8 := Nat.lt_of_le_of_lt (loopTarget_bounds s).2 (ceilNow_lt s)
  rw [e]
  refine ⟨(hf.rd _ _ (by decide) (by decide)).trans ?_, hf.govView rfl⟩
  exact (rd_wr_self s _ _ _).trans (Nat.mod_eq_of_lt hlt)

/-! ### POWER_SAMPLE -/

/-- The energy that a function is given of a sample (R606): its share by activity, and to the PF what is left. -/
def State.energyGiven (s : State) (e f : Nat) : Nat :=
  let total := ((List.range 16).map s.activity).sum
  let share (g : Nat) : Nat := if total = 0 then 0 else e * ((List.range 16).map s.activity).getD g 0 / total
  share f + (if f = 0 then e - ((List.range 16).map share).sum else 0)

theorem addEnergy_eq (s : State) (e : Nat) : addEnergy s e = ((List.range 16).foldl
    (fun u f => u.wr Reg.PWR_E_OPEN_NJ [f] (u.rd Reg.PWR_E_OPEN_NJ [f] + s.energyGiven e f)) s).wrapInc
      Reg.PWR_E_DIE_OPEN_NJ [] e := rfl

theorem energyKey_ne {m n : Nat} (h : m ≠ n) : Reg.PWR_E_OPEN_NJ.key [n] ≠ Reg.PWR_E_OPEN_NJ.key [m] := by
  simp only [Reg.PWR_E_OPEN_NJ, Field.key, Field.addr, dotIdx]
  omega

theorem energyKey_ne_die {n : Nat} (h : n < 16) : Reg.PWR_E_OPEN_NJ.key [n] ≠ Reg.PWR_E_DIE_OPEN_NJ.key [] := by
  simp only [Reg.PWR_E_OPEN_NJ, Reg.PWR_E_DIE_OPEN_NJ, Field.key, Field.addr, dotIdx]
  omega

theorem addEnergy_open (s : State) (e : Nat) {f : Nat} (hf : f < 16) : (addEnergy s e).rd Reg.PWR_E_OPEN_NJ [f] =
    (s.rd Reg.PWR_E_OPEN_NJ [f] + s.energyGiven e f) % 2 ^ 64 := by
  rw [addEnergy_eq, rd_wrapInc_ne _ _ (energyKey_ne_die hf)]
  exact rd_foldl_wr_each Reg.PWR_E_OPEN_NJ (fun m r => r + s.energyGiven e m) _ List.nodup_range (fun _ _ => energyKey_ne)
    (List.mem_range.mpr hf) s

theorem addEnergy_die (s : State) (e : Nat) : (addEnergy s e).rd Reg.PWR_E_DIE_OPEN_NJ [] =
    (s.rd Reg.PWR_E_DIE_OPEN_NJ [] + e) % 2 ^ 64 := by
  rw [addEnergy_eq, rd_wrapInc_self, rd_foldl_wr Reg.PWR_E_OPEN_NJ (fun f => [f])
    (fun u f => u.rd Reg.PWR_E_OPEN_NJ [f] + s.energyGiven e f)]
  · rfl
  · exact fun x hx => (energyKey_ne_die (List.mem_range.mp hx)).symm

/-- Energy reaches the accumulators alone. -/
theorem addEnergy_frame (s : State) (e : Nat) :
    (addEnergy s e).rest = s.rest ∧ SameOn (· < 0xA00100 * 128) s (addEnergy s e) := by
  rw [addEnergy_eq]
  refine ⟨(rest_wrapInc _ _ _ _).trans (rest_foldl_wr (fun _ => Reg.PWR_E_OPEN_NJ) (fun f => [f]) _ _ _), ?_⟩
  refine (SameOn.foldl _ _ (fun u f _ h => h.wr _ _ _ ?_) (.refl _ s)).wr _ _ _ (by decide)
  simp only [Reg.PWR_E_OPEN_NJ, Field.key, Field.addr]
  omega

theorem energyGiven_share (s : State) (e : Nat) {f : Nat} (h0 : 0 < f) (h1 : f < 16)
    (h2 : ((List.range 16).map s.activity).sum ≠ 0) :
    s.energyGiven e f = e * s.activity f / ((List.range 16).map s.activity).sum := by
  have hget : ((List.range 16).map s.activity).getD f 0 = s.activity f := by
    simp [List.getD, List.getElem?_range h1]
  unfold State.energyGiven
  dsimp only
  rw [if_neg h2, if_neg (Nat.ne_of_gt h0), hget, Nat.add_zero]

/-- Without activity the PF is given all of it (R606). -/
theorem energyGiven_idle (s : State) (e : Nat) (h : ((List.range 16).map s.activity).sum = 0) : s.energyGiven e 0 = e := by
  unfold State.energyGiven
  simp [h]

/-- The registers once both converters are read and, while accounting, the energy is added. -/
def State.metered (s : State) (core board : Nat) : State :=
  let u := (s.wr Reg.PWR_IMON_CORE [] core).wr Reg.PWR_IMON_BOARD [] board
  if u.on Reg.PWR_CTL_ACCT_EN [] then addEnergy u (sampleNJ board) else u

/-- Keys below the converters' register: TOP, the limits in force and the weights of R606 among them. -/
def belowMeter (k : Nat) : Prop := k < 0xA00028 * 128

/-- The registers once the converters are read. -/
def State.converted (s : State) (core board : Nat) : State :=
  (s.wr Reg.PWR_IMON_CORE [] core).wr Reg.PWR_IMON_BOARD [] board

theorem metered_eq (s : State) (core board : Nat) : s.metered core board =
    if s.on Reg.PWR_CTL_ACCT_EN [] then addEnergy (s.converted core board) (sampleNJ board) else s.converted core board := by
  have h : (s.converted core board).on Reg.PWR_CTL_ACCT_EN [] = s.on Reg.PWR_CTL_ACCT_EN [] := by
    unfold State.converted
    rw [on_wr_ne _ _ (by decide), on_wr_ne _ _ (by decide)]
  rw [← h]
  rfl

theorem converted_frame (s : State) (core board : Nat) :
    (s.converted core board).rest = s.rest ∧ OnlyRegs s (s.converted core board)
      [Reg.PWR_IMON_CORE.key [], Reg.PWR_IMON_BOARD.key []] :=
  ⟨rfl, ((OnlyRegs.refl s _).wr _ _ _ (by decide)).wr _ _ _ (by decide)⟩

theorem converted_rd (s : State) {core board : Nat} (hc : core < 2 ^ 12) (hb : board < 2 ^ 12) :
    (s.converted core board).rd Reg.PWR_IMON_CORE [] = core ∧
    (s.converted core board).rd Reg.PWR_IMON_BOARD [] = board := by
  unfold State.converted
  simp (disch := decide) only [rd_wr_ne, rd_wr_self]
  exact ⟨Nat.mod_eq_of_lt hc, Nat.mod_eq_of_lt hb⟩

/-- The activity of a function does not rest on the converters. -/
theorem converted_activity (s : State) (core board : Nat) : (s.converted core board).activity = s.activity := by
  funext f
  have h := (converted_frame s core board).2.regs
  have hs := h Reg.PWR_ATTR_W_S [] (by decide)
  have hh := h Reg.PWR_ATTR_W_H [] (by decide)
  have hc := h Reg.PWR_ATTR_W_C [] (by decide)
  unfold State.activity
  dsimp only
  rw [hs, hh, hc]
  rfl

theorem metered_frame (s : State) (core board : Nat) :
    (s.metered core board).rest = s.rest ∧ SameOn belowMeter s (s.metered core board) ∧
    SameOn (· < 0xA00100 * 128) (s.converted core board) (s.metered core board) := by
  obtain ⟨hrest, hregs⟩ := converted_frame s core board
  have low : SameOn belowMeter s (s.converted core board) := fun f i hk => hregs.regs f i (fun h => by
    have : ∀ k ∈ [Reg.PWR_IMON_CORE.key [], Reg.PWR_IMON_BOARD.key []], ¬ k < 0xA00028 * 128 := by decide
    exact this _ h hk)
  rw [metered_eq]
  split
  · obtain ⟨erest, eregs⟩ := addEnergy_frame (s.converted core board) (sampleNJ board)
    exact ⟨erest.trans hrest, low.trans (eregs.mono (fun k hk => Nat.lt_trans hk (by decide))), eregs⟩
  · exact ⟨hrest, low, .refl _ _⟩

/-- The sensors and T_LIMIT decide whether the die is too hot. -/
theorem overTemp_congr {s t : State} (h : SameOn belowMeter s t) : t.overTemp = s.overTemp := by
  have sensor {f : Field} (hb : f.base = 0x100) (hs : f.strides = [4]) (hl : f.lo < 128) {n : Nat} (hn : n < 32) :
      belowMeter (f.key [n]) := by
    simp only [belowMeter, Field.key, Field.addr, hb, hs, dotIdx]
    omega
  unfold State.overTemp
  rw [Bool.eq_iff_iff, List.any_eq_true, List.any_eq_true]
  refine exists_congr (fun n => and_congr_right (fun hn => ?_))
  have hn := List.mem_range.mp hn
  rw [h.on _ _ (sensor rfl rfl (by decide) hn), h _ _ (sensor rfl rfl (by decide) hn),
    h Reg.PWR_FAST_T_LIMIT [] (show Reg.PWR_FAST_T_LIMIT.key [] < 0xA00028 * 128 by decide)]

/-- A sample is metered, the peak follows, the die is judged, and the flags follow (R589, R599). -/
theorem powerSampleOp_eq (core board : Nat) (h0 : s.boot.rails = true) (h1 : s.on Reg.PWR_STAT_CUT [] = false) :
    ∃ g x g', powerSampleOp s core board =
      powerFlags { ({ s.metered core board with gov := g } : State).wr Reg.PWR_PEAK_PEAK_W [] x with gov := g' } ∧
      g'.isOver = (decide ((({ s.metered core board with gov := g } : State).wr Reg.PWR_PEAK_PEAK_W [] x).rd
        Reg.PWR_FAST_CAP_W [] * 4096 < board * 1200) ||
        (({ s.metered core board with gov := g } : State).wr Reg.PWR_PEAK_PEAK_W [] x).overTemp) :=
  ⟨_, _, _, if_neg (by simp [h0, h1]), rfl⟩

/-- What POWER_SAMPLE meters is what the state shows after it. -/
theorem powerSample_reads (core board : Nat) (h0 : s.boot.rails = true) (h1 : s.on Reg.PWR_STAT_CUT [] = false) {f : Field}
    {i : List Nat} (hk : 0x230000 * 128 ≤ f.key i) (hf : f.key i ∉ Reg.PWR_PEAK_PEAK_W.key [] :: flagKeys) :
    (powerSampleOp s core board).rd f i = (s.metered core board).rd f i := by
  obtain ⟨hne, hf⟩ := not_or.mp (fun h => hf (List.mem_cons.mpr h))
  obtain ⟨g, x, g', e, -⟩ := powerSampleOp_eq core board h0 h1
  rw [e, (powerFlags_flagged _).rd f i hk hf]
  exact rd_wr_ne _ x hne

theorem powerSample_energy (core board : Nat) (h0 : s.boot.rails = true) (h1 : s.on Reg.PWR_STAT_CUT [] = false) {f : Field}
    {i : List Nat} (hk : 0xA00100 * 128 ≤ f.key i) :
    (powerSampleOp s core board).rd f i = (s.metered core board).rd f i := by
  refine powerSample_reads core board h0 h1 (Nat.le_trans (by decide) hk) (fun h => ?_)
  have : ∀ k ∈ Reg.PWR_PEAK_PEAK_W.key [] :: flagKeys, ¬ 0xA00100 * 128 ≤ k := by decide
  exact this _ h hk

theorem energyKey_high (n : Nat) : 0xA00100 * 128 ≤ Reg.PWR_E_OPEN_NJ.key [n] := by
  simp only [Reg.PWR_E_OPEN_NJ, Field.key, Field.addr]
  omega

/-- While accounting, the open energies grow by what each is given of the sample (R606). -/
theorem metered_energy (s : State) (core board : Nat) (h : s.on Reg.PWR_CTL_ACCT_EN [] = true) :
    (s.metered core board).rd Reg.PWR_E_DIE_OPEN_NJ [] = (s.rd Reg.PWR_E_DIE_OPEN_NJ [] + sampleNJ board) % 2 ^ 64 ∧
    ∀ f, f < 16 → (s.metered core board).rd Reg.PWR_E_OPEN_NJ [f] =
      (s.rd Reg.PWR_E_OPEN_NJ [f] + s.energyGiven (sampleNJ board) f) % 2 ^ 64 := by
  have hregs := (converted_frame s core board).2.regs
  have hgiven : (s.converted core board).energyGiven = s.energyGiven := by
    unfold State.energyGiven
    rw [converted_activity]
  rw [metered_eq, if_pos h]
  refine ⟨?_, fun f hf => ?_⟩
  · rw [addEnergy_die, hregs _ _ (by decide)]
  · rw [addEnergy_open _ _ hf, hgiven, hregs]
    have := energyKey_high f
    exact fun hm => absurd this (by
      have low : ∀ k ∈ [Reg.PWR_IMON_CORE.key [], Reg.PWR_IMON_BOARD.key []], ¬ 0xA00100 * 128 ≤ k := by decide
      exact low _ hm)

theorem powerSample_judges (core board : Nat) (h0 : s.boot.rails = true) (h1 : s.on Reg.PWR_STAT_CUT [] = false) :
    (powerSampleOp s core board).gov.isOver =
      (decide (s.rd Reg.PWR_FAST_CAP_W [] * 4096 < board * 1200) || s.overTemp) ∧
    (powerSampleOp s core board).hbm = s.hbm ∧ (powerSampleOp s core board).plots = s.plots ∧
    (powerSampleOp s core board).flash = s.flash ∧ (powerSampleOp s core board).jobs = s.jobs := by
  obtain ⟨g, x, g', e, hover⟩ := powerSampleOp_eq core board h0 h1
  obtain ⟨hrest, hlow, -⟩ := metered_frame s core board
  have hw : SameOn belowMeter s (({ s.metered core board with gov := g } : State).wr Reg.PWR_PEAK_PEAK_W [] x) :=
    (hlow.set rfl).wr _ _ _ (show ¬ Reg.PWR_PEAK_PEAK_W.key [] < 0xA00028 * 128 by decide)
  have hv : (s.metered core board).govView = s.govView := State.rest_part hrest State.govView (fun _ => rfl)
  have h := powerFlags_flagged { ({ s.metered core board with gov := g } : State).wr Reg.PWR_PEAK_PEAK_W [] x with gov := g' }
  rw [overTemp_congr hw, hw Reg.PWR_FAST_CAP_W [] (show Reg.PWR_FAST_CAP_W.key [] < 0xA00028 * 128 by decide)] at hover
  rw [e]
  exact ⟨(congrArg Gov.isOver (h.frame.part State.gov (fun _ => rfl))).trans hover, h.govView hv⟩

end

/-- Settles O16: every command of the governor sets its own registers, and the flags that follow change none of them. -/
theorem limiterVidAndGovernor : Obligations.LimiterVidAndGovernor := by
  intro s
  refine ⟨fun core board h0 h1 => ?_, ⟨_, rfl, limiterStep_steps s⟩, fun h0 h1 h2 => ⟨_, rfl, vidStep_moves h0 h1 h2⟩,
    fun h => ⟨_, rfl, ?_⟩⟩
  · have hc : core % 4096 < 2 ^ 12 := Nat.mod_lt _ (by decide)
    have hb : board % 4096 < 2 ^ 12 := Nat.mod_lt _ (by decide)
    obtain ⟨ccore, cboard⟩ := converted_rd s hc hb
    obtain ⟨-, -, hconv⟩ := metered_frame s (core % 4096) (board % 4096)
    obtain ⟨hover, hview⟩ := powerSample_judges (core % 4096) (board % 4096) h0 h1
    refine ⟨_, rfl, ?_, ?_, hover, fun hacct => ⟨?_, fun f hf0 hf1 hsum => ?_, fun hsum => ?_⟩, fun hacct => ?_, hview⟩
    · exact ((powerSample_reads _ _ h0 h1 (by decide) (by decide)).trans (hconv _ _ (by decide))).trans ccore
    · exact ((powerSample_reads _ _ h0 h1 (by decide) (by decide)).trans (hconv _ _ (by decide))).trans cboard
    · exact (powerSample_energy _ _ h0 h1 (by decide)).trans (metered_energy s _ _ hacct).1
    · rw [powerSample_energy _ _ h0 h1 (energyKey_high f), (metered_energy s _ _ hacct).2 f hf1,
        energyGiven_share s _ hf0 hf1 hsum]
    · rw [powerSample_energy _ _ h0 h1 (energyKey_high 0), (metered_energy s _ _ hacct).2 0 (by decide),
        energyGiven_idle s _ hsum]
    · rw [powerSample_energy _ _ h0 h1 (by decide), metered_eq, if_neg (by simp [hacct])]
      exact (converted_frame s _ _).2.regs _ _ (by decide)
  · obtain ⟨htarget, hview⟩ := governorLoop_targets h
    exact ⟨htarget, (loopTarget_bounds s).1, (loopTarget_bounds s).2, hview⟩

end Sys2Proof.Machine
end

/-! ## Die faults: the state that a brown-out clears its own record in (R633) -/

section
namespace Sys2Proof.Machine

/-- A powered die with one running job whose list of armed detector slots names slot 402. TOP_QD_GST of that slot would
lie at 0x9C0 + 4 · 402 = 0x1008, the address of TOP_FAULT. No run arms a slot above 15, but the obligation is about every
state. -/
def strayGroup : State :=
  (({ jobs := [(0, { loaded := true, state := 1, groups := [402] })] } : State).wr Reg.TOP_PINSTAT_VCORE_PG [] 1).wr
    Reg.TOP_PINSTAT_VCORE_EN [] 1

theorem strayGroup_coreUp : strayGroup.coreUp = true := by decide

theorem strayGroup_vcoreEn : strayGroup.on Reg.TOP_PINSTAT_VCORE_EN [] = true := by decide

/-- Ending the job disarms slot 402, whose QUIET bit lies where TOP_FAULT shows the brown-out: the fault is shown no more
when the fabric reset has begun. -/
theorem strayGroup_brownout_unshown :
    (qdRefresh (wakeAll (brownoutOp strayGroup))).rd Reg.TOP_FAULT_BROWNOUT [] = 0 := by decide +kernel

/-- Refutes O13: in `strayGroup` a brown-out leaves TOP_FAULT.BROWNOUT 0. -/
theorem not_dieFaultsAreShownAndReset : ¬ Obligations.DieFaultsAreShownAndReset := by
  intro h
  obtain ⟨t, e, hfault, -⟩ := (h strayGroup strayGroup_coreUp).1 strayGroup_vcoreEn
  have ht : qdRefresh (wakeAll (brownoutOp strayGroup)) = t := Host.Outcome.next.inj e
  rw [← ht, strayGroup_brownout_unshown] at hfault
  exact absurd hfault (by decide)

end Sys2Proof.Machine
end

/-! ## The canonical form of memory, carried through the operations of the model (R88, R224, R567) -/

section
namespace Sys2Proof.Machine

open Host (Outcome)

/-- The register file, HBM and flash of a state are in canonical form. -/
def Canon (s : State) : Prop := s.memWf = true

/-- An outcome whose next state, if it has one, is in canonical form. -/
def Keeps (o : Outcome State Fault Refusal) : Prop := ∀ t, o = .next t → Canon t

variable {s t : State}

protected theorem Keeps.next (h : Canon s) : Keeps (.next s) := fun _ e => Outcome.next.inj e ▸ h

/-- A state with the same register file, HBM and flash bytes. -/
theorem Canon.same (h : Canon s) (hregs : t.regs = s.regs) (hhbm : t.hbm = s.hbm) (hundef : t.hbmUndef = s.hbmUndef)
    (hflash : t.flash.bytes = s.flash.bytes) : Canon t := (State.memWf_congr hregs hhbm hundef hflash).trans h

/-! ### Updates of the parts of the state that hold no register, no byte of HBM and no byte of flash -/

protected theorem Canon.pending {x : List Instr} (h : Canon s) : Canon { s with pending := x } := h.same rfl rfl rfl rfl
protected theorem Canon.captured {x : FMap Nat} (h : Canon s) : Canon { s with captured := x } := h.same rfl rfl rfl rfl
protected theorem Canon.freeCtr {x : Nat} (h : Canon s) : Canon { s with freeCtr := x } := h.same rfl rfl rfl rfl
protected theorem Canon.outs {x : List Out} (h : Canon s) : Canon { s with outs := x } := h.same rfl rfl rfl rfl
protected theorem Canon.mbx {x : Mailbox} (h : Canon s) : Canon { s with mbx := x } := h.same rfl rfl rfl rfl
protected theorem Canon.hedge {x : Hedge} (h : Canon s) : Canon { s with hedge := x } := h.same rfl rfl rfl rfl
protected theorem Canon.link {x : Link} (h : Canon s) : Canon { s with link := x } := h.same rfl rfl rfl rfl
protected theorem Canon.gov {x : Gov} (h : Canon s) : Canon { s with gov := x } := h.same rfl rfl rfl rfl
protected theorem Canon.boot {x : Boot} (h : Canon s) : Canon { s with boot := x } := h.same rfl rfl rfl rfl
protected theorem Canon.tenants {x : FMap Tenant} (h : Canon s) : Canon { s with tenants := x } := h.same rfl rfl rfl rfl
protected theorem Canon.cloche {x : Cloche} (h : Canon s) : Canon { s with cloche := x } := h.same rfl rfl rfl rfl
protected theorem Canon.hbmPoison {x : List Nat} (h : Canon s) : Canon { s with hbmPoison := x } := h.same rfl rfl rfl rfl
protected theorem Canon.storeGen {x : Nat} (h : Canon s) : Canon { s with storeGen := x } := h.same rfl rfl rfl rfl
protected theorem Canon.plots {x : FMap Plot} (h : Canon s) : Canon { s with plots := x } := h.same rfl rfl rfl rfl
protected theorem Canon.flights {x : List Flight} (h : Canon s) : Canon { s with flights := x } := h.same rfl rfl rfl rfl
protected theorem Canon.qd {x : FMap QSlot} (h : Canon s) : Canon { s with qd := x } := h.same rfl rfl rfl rfl
protected theorem Canon.jobs {x : FMap Job} (h : Canon s) : Canon { s with jobs := x } := h.same rfl rfl rfl rfl
protected theorem Canon.plotHold {x : FMap Nat} (h : Canon s) : Canon { s with plotHold := x } := h.same rfl rfl rfl rfl
protected theorem Canon.tbls {x : FMap Tbl} (h : Canon s) : Canon { s with tbls := x } := h.same rfl rfl rfl rfl
protected theorem Canon.shard {x : FMap (List Byte)} (h : Canon s) : Canon { s with shard := x } := h.same rfl rfl rfl rfl
protected theorem Canon.sieves {x : FMap Gather} (h : Canon s) : Canon { s with sieves := x } := h.same rfl rfl rfl rfl
protected theorem Canon.sieveLast {x : FMap Nat} (h : Canon s) : Canon { s with sieveLast := x } := h.same rfl rfl rfl rfl
protected theorem Canon.rwc {x : RowCache} (h : Canon s) : Canon { s with rwc := x } := h.same rfl rfl rfl rfl
protected theorem Canon.furrow {x : FMap Furrow} (h : Canon s) : Canon { s with furrow := x } := h.same rfl rfl rfl rfl
protected theorem Canon.upd {x : Updates} (h : Canon s) : Canon { s with upd := x } := h.same rfl rfl rfl rfl
protected theorem Canon.fences {x : List Fence} (h : Canon s) : Canon { s with fences := x } := h.same rfl rfl rfl rfl
protected theorem Canon.memLogged {x : List Nat} (h : Canon s) : Canon { s with memLogged := x } := h.same rfl rfl rfl rfl
protected theorem Canon.graft {x : Graft} (h : Canon s) : Canon { s with graft := x } := h.same rfl rfl rfl rfl

/-- The controller's state beside the bytes of flash. -/
protected theorem Canon.flash {undef wear : FMap Nat} {bank0 bank1 : List FlashOp} {logSeq : Nat}
    {logWait : List (Nat × Nat × List Byte)} {retired : List Nat} {faultSecond faultCount rcvPhase rcvBlock rcvReason : Nat}
    {rcvSeen : List Nat} (h : Canon s) :
    Canon { s with flash := { bytes := s.flash.bytes, undef, wear, bank0, bank1, logSeq, logWait, retired, faultSecond,
                              faultCount, rcvPhase, rcvBlock, rcvReason, rcvSeen } } := h.same rfl rfl rfl rfl

/-- Registers that a reset drops from the register file. -/
protected theorem Canon.dropRegs {p : Nat → Bool} (h : Canon s) : Canon { s with regs := FMap.dropWhere s.regs p } :=
  State.memWf_regs h (FMap.rising_dropWhere p ((State.memWf_iff s).1 h).1)

/-- Either of two states in canonical form. -/
protected theorem Canon.ite {c : Prop} {_ : Decidable c} (hs : Canon s) (ht : Canon t) : Canon (if c then s else t) := by
  split
  · exact hs
  · exact ht

protected theorem Canon.dite {c : Prop} {_ : Decidable c} {f : c → State} {g : ¬ c → State} (hf : ∀ hc, Canon (f hc))
    (hg : ∀ hc, Canon (g hc)) : Canon (if hc : c then f hc else g hc) := by
  split
  · exact hf _
  · exact hg _

/-- A loop whose every turn keeps the form. -/
protected theorem Canon.foldl {α : Type} {g : State → α → State} {l : List α} (h : Canon s)
    (hg : ∀ s x, Canon s → Canon (g s x)) : Canon (l.foldl g s) := foldl_memWf g hg l h

/-- A loop that carries more than the state. -/
protected theorem Canon.foldlVia {α β : Type} {g : β → α → β} {l : List α} {b : β} (p : β → State) (h : Canon (p b))
    (hg : ∀ b x, Canon (p b) → Canon (p (g b x))) : Canon (p (l.foldl g b)) := by
  induction l generalizing b with
  | nil => exact h
  | cons x l ih => exact ih (hg b x h)

/-! ### The shared operations -/

protected theorem Canon.wr {f : Field} {idx : List Nat} {v : Nat} (h : Canon s) : Canon (s.wr f idx v) :=
  wr_memWf h f idx v

protected theorem Canon.wrb {f : Field} {idx : List Nat} {b : Bool} (h : Canon s) : Canon (s.wrb f idx b) :=
  wrb_memWf h f idx b

protected theorem Canon.satInc {f : Field} {idx : List Nat} {n : Nat} (h : Canon s) : Canon (s.satInc f idx n) :=
  satInc_memWf h f idx n

protected theorem Canon.wrapInc {f : Field} {idx : List Nat} {n : Nat} (h : Canon s) : Canon (s.wrapInc f idx n) :=
  wrapInc_memWf h f idx n

protected theorem Canon.resetRegs {p : Nat → Bool} (h : Canon s) : Canon (s.resetRegs p) := resetRegs_memWf h p

protected theorem Canon.freeNext (h : Canon s) : Canon (State.freeNext s) :=
  h.freeCtr

protected theorem Canon.emit {o : Out} (h : Canon s) : Canon (State.emit s o) :=
  h.outs

protected theorem Canon.sendVector {f v : Nat} (h : Canon s) : Canon (sendVector s f v) :=
  .ite h.mbx h.wrapInc.emit

protected theorem Canon.closeWindow {f v : Nat} (h : Canon s) : Canon (closeWindow s f v) :=
  h.hedge.wr.wr.sendVector

protected theorem Canon.vectorRequest {f v : Nat} {idle : Bool} (h : Canon s) : Canon (vectorRequest s f v idle) := by
  unfold vectorRequest
  refine .ite h.sendVector (.ite h ?_)
  split
  · exact .ite h.wr.closeWindow h.wr
  · exact .ite h.sendVector (.ite h.hedge.wr.wr.closeWindow h.hedge.wr.wr)

protected theorem Canon.evqWrite {f source data : Nat} (h : Canon s) : Canon (evqWrite s f source data) :=
  h.wr.mbx

protected theorem Canon.evqLose {f : Nat} (h : Canon s) : Canon (evqLose s f) :=
  h.satInc.mbx

protected theorem Canon.evqPostLost {f : Nat} (h : Canon s) : Canon (evqPostLost s f) :=
  .ite h h.evqWrite.mbx.vectorRequest

protected theorem Canon.evqPost {f source data : Nat} (h : Canon s) : Canon (evqPost s f source data) :=
  .ite h.evqPostLost.evqWrite h.evqPostLost.evqLose

protected theorem Canon.hedgeDecide (h : Canon s) : Canon (hedgeDecide s) :=
  h.wr.wrb.wrb.wr.hedge

protected theorem Canon.hostCopy {i : Nat} (h : Canon s) : Canon (hostCopy s i) :=
  .ite h.evqPost.vectorRequest h

protected theorem Canon.hedgeLevel {i : Nat} {level : Bool} {data : Nat} (h : Canon s) :
    Canon (hedgeLevel s i level data) := by
  unfold hedgeLevel
  extract_lets old s1 s2 sense act s3 asserted
  have h2 : Canon s2 := .ite h.wrb.wr h.wrb
  have h3 : Canon s3 := by
    unfold s3
    clear_value sense
    split
    · exact .ite h2 h2.wrb
    · exact .ite h2 h2.wrb
    · exact .ite h2.wr h2
    · exact .ite h2 h2.wr
    · exact h2.wr
  exact .ite h (Canon.ite h3.hostCopy h3).hedgeDecide

protected theorem Canon.pulseHigh {i : Nat} (h : Canon s) : Canon (pulseHigh s i) :=
  .ite (Canon.ite h h.wr).hedgeDecide h

protected theorem Canon.pulseLow {i : Nat} (h : Canon s) : Canon (pulseLow s i) :=
  .ite h h.wr

protected theorem Canon.hedgeEvent {i data : Nat} (h : Canon s) : Canon (hedgeEvent s i data) :=
  h.wr.pulseHigh.pulseLow.hostCopy.hedgeDecide

protected theorem Canon.flit {n : Nat} (h : Canon s) : Canon (flit s n) :=
  h.wrapInc

protected theorem Canon.hbmActivity {f n : Nat} (h : Canon s) : Canon (hbmActivity s f n) :=
  h.gov

protected theorem Canon.cellActivity {f n : Nat} (h : Canon s) : Canon (cellActivity s f n) :=
  h.gov

protected theorem Canon.hostViolation {f code detail offset : Nat} {read : Bool} (h : Canon s) :
    Canon (hostViolation s f code detail offset read) :=
  h.mbx.wrapInc.satInc.wr.wrapInc.sendVector

protected theorem Canon.cfgRefuse {agent kind offset : Nat} (h : Canon s) : Canon (cfgRefuse s agent kind offset) :=
  .ite h.satInc h.satInc.wr.wr.wr.wr.hedgeLevel

protected theorem Canon.faultVector {f : Nat} (h : Canon s) : Canon (faultVector s f) :=
  h.vectorRequest

protected theorem Canon.faultVectorAll (h : Canon s) : Canon (faultVectorAll s) :=
  h.foldl (fun _ _ h => h.faultVector)

/-! ### Mailboxes -/

protected theorem Canon.setSlot {f i : Nat} {x : Slot} (h : Canon s) : Canon (State.setSlot s f i x) :=
  h.mbx

protected theorem Canon.acceptOne {f : Nat} {s : State} {n : Nat} (h : Canon s) : Canon (acceptOne f s n) :=
  h.setSlot

protected theorem Canon.doorbellOp {f p : Nat} (h : Canon s) : Canon (doorbellOp s f p) :=
  .ite h (.ite h.hostViolation (.ite h (.ite (h.foldl (fun _ _ h => h.acceptOne)).wr.hedgeEvent h.hostViolation)))

protected theorem Canon.ringStore {f o : Nat} {l : List Byte} (h : Canon s) : Canon (ringStore f s o l) := by
  induction l generalizing s o with
  | nil => exact h
  | cons b r ih => exact ih (.ite h.mbx h)

protected theorem Canon.ringWriteOp {f o : Nat} {data : List Byte} (h : Canon s) : Canon (ringWriteOp s f o data) := by
  unfold ringWriteOp
  refine .ite h (.ite h.hostViolation ?_)
  split
  · exact h.ringStore
  · exact h.ringStore.hostViolation

protected theorem Canon.retireOp {f i tag : Nat} (h : Canon s) : Canon (retireOp s f i tag) :=
  .ite h (.ite h.hostViolation (.ite h.hostViolation h.setSlot))

protected theorem Canon.freeSlots {f : Nat} (h : Canon s) : Canon (State.freeSlots s f) :=
  h.mbx

protected theorem Canon.ringEnableOp {f : Nat} (h : Canon s) : Canon (ringEnableOp s f) :=
  .ite h h.wr.wr.freeSlots.wr

protected theorem Canon.ringDisableOp {f : Nat} (h : Canon s) : Canon (ringDisableOp s f) :=
  .ite h (.ite h.wr h.hostViolation)

protected theorem Canon.evqEnableOp {f : Nat} (h : Canon s) : Canon (evqEnableOp s f) :=
  .ite h h.wr.wr.wr.mbx.wr

protected theorem Canon.evqDisableOp {f : Nat} (h : Canon s) : Canon (evqDisableOp s f) :=
  .ite h.wr h

protected theorem Canon.evqCiOp {f c : Nat} (h : Canon s) : Canon (evqCiOp s f c) :=
  .ite h (.ite h.hostViolation h.wr.evqPostLost)

protected theorem Canon.violCntClearOp {f : Nat} (h : Canon s) : Canon (violCntClearOp s f) :=
  .ite h.wr h

protected theorem Canon.evqLostClearOp {f : Nat} (h : Canon s) : Canon (evqLostClearOp s f) :=
  .ite h.wr h

protected theorem Canon.msixUnmaskOp {f v : Nat} (h : Canon s) : Canon (msixUnmaskOp s f v) :=
  .ite h (.ite h.mbx.sendVector h.mbx)

protected theorem Canon.fetchOp (h : Canon s) : Canon (fetchOp s) := by
  unfold fetchOp
  refine .ite h ?_
  split
  · exact h
  · exact h.wr.mbx

protected theorem Canon.setCmd {c : Cmd} (h : Canon s) : Canon (State.setCmd s c) :=
  h.mbx

protected theorem Canon.finish {f i : Nat} {st : Status} {body : List Byte} (h : Canon s) :
    Canon (State.finish s f i st body) := by
  unfold State.finish
  split
  · exact h.setCmd
  · exact h

protected theorem Canon.failCmd {f i : Nat} {st : Status} {field sub value : Nat} (h : Canon s) :
    Canon (State.failCmd s f i st field sub value) :=
  h.finish

protected theorem Canon.resultPostOp {f i : Nat} (h : Canon s) : Canon (resultPostOp s f i) := by
  unfold resultPostOp
  split
  · exact h
  · split
    · exact h
    · exact .ite h (.ite h.mbx (.ite h.mbx.setSlot.vectorRequest h.mbx.setSlot))

/-! ### Hedge -/

protected theorem Canon.denied {src : Src} {off : Nat} (h : Canon s) : Canon (denied s src off) := by
  unfold denied
  split
  · exact .ite h.hostViolation h
  · exact h

protected theorem Canon.fwWrite {src : Src} {off : Nat} {act : State → State}
    (h : Canon s) (hact : ∀ s', Canon s' → Canon (act s')) :
    Canon (fwWrite s src off act) :=
  .ite (hact _ h) h.denied

protected theorem Canon.sourceRequestOp {i : Nat} {level : Bool} {data : Nat} (h : Canon s) :
    Canon (sourceRequestOp s i level data) := by
  unfold sourceRequestOp
  split
  · exact h.hedgeEvent
  · exact h.hedgeLevel
  · exact h

protected theorem Canon.coalesceExpiryOp {f v : Nat} (h : Canon s) : Canon (coalesceExpiryOp s f v) := by
  unfold coalesceExpiryOp
  split
  · exact .ite h.closeWindow h
  · exact h

protected theorem Canon.benchClaimOp {r} (h : Canon s) (e : benchClaimOp s = r) : Canon r.2 := by
  subst e
  unfold benchClaimOp
  dsimp only
  split
  · exact h.hedge.wr.wr.hedgeDecide
  · split
    · exact h.satInc.hedge
    · exact h

protected theorem Canon.benchCompleteOp {x : Nat} (h : Canon s) : Canon (benchCompleteOp s x) := by
  unfold benchCompleteOp
  refine .ite h.satInc (Canon.hedgeDecide ?_)
  split
  · exact .ite h.wr.wr h.wr
  · exact .ite h.wr h.wr.wr
  · exact h.wr

protected theorem Canon.forceOp {i : Nat} (h : Canon s) : Canon (forceOp s i) :=
  .ite h h.wr.wr.hostCopy.hedgeDecide

protected theorem Canon.pendingClearOp {i : Nat} (h : Canon s) : Canon (pendingClearOp s i) :=
  .ite h h.wr.hedgeDecide

protected theorem Canon.pendingFollows {i : Nat} (h : Canon s) : Canon (pendingFollows s i) := by
  unfold pendingFollows
  refine .ite h ?_
  split
  · exact h.wrb
  · exact h.wrb
  · exact h

protected theorem Canon.hedgeSrcWriteOp {i v : Nat} (h : Canon s) : Canon (hedgeSrcWriteOp s i v) := by
  unfold hedgeSrcWriteOp
  extract_lets wasBen wasHen ben s1 sense old s2 s3 s4 s5 lvl now s6 s7
  have h2 : Canon s2 := Canon.ite h.wrb.wrb.wr h.wrb.wrb
  have h4 : Canon s4 := Canon.ite h2.wr.wr.wr.pendingFollows h2.wr.wr.wr
  have h5 : Canon s5 := .ite h4.wr h4
  have h7 : Canon s7 := (Canon.ite h5.hostCopy h5).hedgeDecide
  exact .ite h (.ite h7.forceOp h7)

protected theorem Canon.hedgeResetFunc {f : Nat} (h : Canon s) : Canon (hedgeResetFunc s f) :=
  ((h.foldl (fun _ _ h => h.wr)).resetRegs.foldl (fun _ _ h => h.wr.wr)).hedge

/-! ### Staged sets -/

protected theorem Canon.captureSet {x : StagedSet} (h : Canon s) : Canon (captureSet s x) :=
  ((Canon.ite h.wr h).foldl (fun _ _ h => h.captured)).wr

protected theorem Canon.refuseSet {x : StagedSet} {agent : Nat} (h : Canon s) : Canon (refuseSet s x agent) :=
  h.wr.cfgRefuse

protected theorem Canon.dropSet {x : StagedSet} (h : Canon s) : Canon (dropSet s x) :=
  .ite (h.foldl (fun _ _ h => h.captured)).wr h

protected theorem Canon.effectSet {x : StagedSet} (h : Canon s) : Canon (effectSet s x) :=
  .ite (h.foldl (fun _ _ h => h.wr)).dropSet.wrapInc h

protected theorem Canon.discardSet {x : StagedSet} (h : Canon s) : Canon (discardSet s x) :=
  h.foldl (fun _ _ h => h.wr)

protected theorem Canon.stageWords {f : Field} {idx l : List Nat} {i : Nat} (h : Canon s) :
    Canon (stageWords s f idx i l) := by
  induction l generalizing s i with
  | nil => exact h
  | cons w r ih => exact ih h.wr

protected theorem Canon.discardOp {src : Src} {x : StagedSet} (h : Canon s) : Canon (discardOp s src x) :=
  h.fwWrite (fun _ h => .ite h.discardSet h)

protected theorem Canon.pairWrite {agent : Nat} {p : DirectPair} {second : Bool} {v : Nat} (h : Canon s) :
    Canon (pairWrite s agent p second v) :=
  .ite h.wr h.cfgRefuse

/-! ### Flash and its records -/

protected theorem Canon.flashPut {a : Nat} {d : List Byte} (h : Canon s) : Canon (flashPut s a d) :=
  flashPut_memWf h a d

protected theorem Canon.eraseSector {k : Nat} (h : Canon s) : Canon (eraseSector s k) := eraseSector_memWf h k

protected theorem Canon.programSegment {a : Nat} {d : List Byte} (h : Canon s) : Canon (programSegment s a d) :=
  programSegment_memWf h a d

protected theorem Canon.undefSegment {k : Nat} (h : Canon s) : Canon (undefSegment s k) := undefSegment_memWf h k

protected theorem Canon.undefSector {sector : Nat} (h : Canon s) : Canon (undefSector s sector) :=
  h.foldl (fun _ _ h => h.undefSegment)

protected theorem Canon.writeSwap {r' : SwapRec} {r} (h : Canon s) (e : writeSwap s r' = r) : Canon r.1 := by
  subst e
  unfold writeSwap
  split
  · exact h
  · exact .ite h.programSegment.eraseSector h.programSegment

protected theorem Canon.writePersist {contents : List Byte} (h : Canon s) : Canon (writePersist s contents) :=
  h.eraseSector.flashPut

protected theorem Canon.setReserved (h : Canon s) : Canon (setReserved s) := by
  unfold setReserved
  split
  · exact h.wr.wr
  · exact h

protected theorem Canon.queueFlash {sector : Nat} {op : FlashOp} (h : Canon s) : Canon (queueFlash s sector op) :=
  .ite h.flash.wr h.flash.wr

protected theorem Canon.disownOps {p : FlashOwner → Bool} (h : Canon s) : Canon (disownOps s p) :=
  h.flash

protected theorem Canon.slideLog (h : Canon s) : Canon (slideLog s) :=
  (Canon.ite h.wr.wr h.wr.wr.wr).queueFlash

protected theorem Canon.putRecord {addr log kind : Nat} {body : List Byte} (h : Canon s) :
    Canon (putRecord s addr log kind body) :=
  h.programSegment.flash

protected theorem Canon.appendRecord {log kind : Nat} {body : List Byte} (h : Canon s) :
    Canon (appendRecord s log kind body) :=
  .ite h.flash (Canon.ite h.putRecord.slideLog h.putRecord.wr).setReserved

protected theorem Canon.flushLogWait (h : Canon s) : Canon (flushLogWait s) :=
  h.flash.foldl (fun _ _ h => h.appendRecord)

protected theorem Canon.countTorn (h : Canon s) : Canon (countTorn s) :=
  h.wr

protected theorem Canon.mountLog (h : Canon s) : Canon (mountLog s) := by
  unfold mountLog
  extract_lets newest retired fl s1 s2 head0
  have h2 : Canon s2 := h.flash.wr
  split
  next head seq _ =>
  extract_lets used slot back base s3 s4 s5 spare dirty s6 s7
  have h5 : Canon s5 := h2.flash.wr.wr.countTorn
  have h6 : Canon s6 := .ite h5.eraseSector h5
  have h7 : Canon s7 := .ite h6.wr h6.slideLog
  exact h7.setReserved.flushLogWait

protected theorem Canon.faultRecord {kind : Nat} {body : List Byte} (h : Canon s) : Canon (faultRecord s kind body) :=
  .ite h.flash.satInc h.flash.satInc.appendRecord

protected theorem Canon.memRecord {key wh unit agent func addr status : Nat} (h : Canon s) :
    Canon (memRecord s key wh unit agent func addr status) :=
  .ite h h.memLogged.faultRecord

/-! ### Power -/

protected theorem Canon.powerFlags (h : Canon s) : Canon (powerFlags s) :=
  h.wrb.wrb.wrb.wr.hedgeLevel

protected theorem Canon.updateLimits (h : Canon s) : Canon (updateLimits s) :=
  h.wr.wr.wr.gov.powerFlags

protected theorem Canon.selectBand {r' : Nat} (h : Canon s) : Canon (selectBand s r') :=
  h.wr.wr.updateLimits

protected theorem Canon.defaultSchedule (h : Canon s) : Canon (defaultSchedule s) :=
  h.wr.wr.wr.wr.wr.wr.wr.wr.gov.selectBand

protected theorem Canon.stageTariff {b : List Byte} {source : Nat} (h : Canon s) : Canon (stageTariff s b source) :=
  ((h.stageWords.foldl (fun _ _ h => h.stageWords)).foldl (fun _ _ h => h.stageWords)).gov.captureSet

protected theorem Canon.addEnergy {e' : Nat} (h : Canon s) : Canon (addEnergy s e') :=
  (h.foldl (fun _ _ h => h.wrapInc)).wrapInc

protected theorem Canon.powerSampleOp {core board : Nat} (h : Canon s) : Canon (powerSampleOp s core board) :=
  .ite h (Canon.ite h.wr.wr.addEnergy h.wr.wr).gov.wr.gov.powerFlags

protected theorem Canon.limiterStepOp (h : Canon s) : Canon (limiterStepOp s) :=
  .ite (.ite h.wr.gov.powerFlags h.powerFlags) (.ite h.wr.gov.powerFlags h.powerFlags)

protected theorem Canon.driveVid {c : Nat} (h : Canon s) : Canon (driveVid s c) :=
  h.wr.wr

protected theorem Canon.vidStepOp (h : Canon s) : Canon (vidStepOp s) :=
  .ite h h.driveVid.boot.powerFlags

protected theorem Canon.governorLoopOp (h : Canon s) : Canon (governorLoopOp s) :=
  .ite h.wr.gov.powerFlags h

protected theorem Canon.closeInterval {r' flags : Nat} (h : Canon s) : Canon (closeInterval s r' flags) :=
  (h.wr.wr.wr.wr.wr.wr.wr.foldl (fun _ _ h => h.wr.wr)).wr.wr.wr.wr.wr.wr.gov

protected theorem Canon.openWithBand {r' : Nat} (h : Canon s) : Canon (openWithBand s r') :=
  (Canon.ite h.effectSet.wr.gov h).selectBand.gov

protected theorem Canon.closeAndOpen {r' flags : Nat} (h : Canon s) : Canon (closeAndOpen s r' flags) :=
  h.closeInterval.openWithBand.hedgeEvent

protected theorem Canon.demandCloseOp (h : Canon s) : Canon (demandCloseOp s) :=
  .ite h.closeAndOpen h

protected theorem Canon.acctEnOp (h : Canon s) : Canon (acctEnOp s) :=
  .ite h (h.wr.wr.wr.wr.wr.foldl (fun _ _ h => h.wr)).wr.gov.openWithBand

protected theorem Canon.rtcSetOp {sec : Nat} (h : Canon s) : Canon (rtcSetOp s sec) :=
  .ite h.wr.closeAndOpen.gov h.wr

protected theorem Canon.intervalLogOp (h : Canon s) : Canon (intervalLogOp s) := by
  unfold intervalLogOp
  extract_lets s1 s2
  have h1 : Canon s1 := h.foldl fun _ _ h => h.appendRecord
  have h2 : Canon s2 := .ite h1.appendRecord h1
  exact .ite h (.ite h2.wr h2.gov)

protected theorem Canon.logCaughtUp (h : Canon s) : Canon (logCaughtUp s) :=
  .ite h.wr.gov h

protected theorem Canon.holdupRecord {slot log kind : Nat} {body : List Byte} (h : Canon s) :
    Canon (holdupRecord s slot log kind body) :=
  h.putRecord

protected theorem Canon.writePack {slot rtc len band flags : Nat} {e' : Nat → Nat} {r}
    (h : Canon s) (e : writePack s slot rtc len band flags e' = r) :
    Canon r.1 := by
  subst e
  unfold writePack
  dsimp only
  split
  · exact h.holdupRecord.holdupRecord
  · exact h.holdupRecord

protected theorem Canon.holdupWrites {cause : Nat} {r} (h : Canon s) (e : holdupWrites s cause = r) : Canon r.1 := by
  subst e
  unfold holdupWrites
  extract_lets packClosed ms packOpen
  split
  · exact h
  · split
    · exact h
    · split
      next u k e =>
      have hu : Canon u := by
        split at e
        · exact h.writePack e
        · cases e
          exact h
      extract_lets cut s1
      have h1 : Canon s1 := hu.holdupRecord
      split
      · exact h1.writePack rfl
      · exact h1

protected theorem Canon.cutBank {ops : List FlashOp} (h : Canon s) : Canon (cutBank s ops) := by
  unfold cutBank
  split
  · exact h.undefSector
  · exact .ite h.programSegment h
  · exact h

protected theorem Canon.flashCutAbort (h : Canon s) : Canon (flashCutAbort s) :=
  .ite h.cutBank.cutBank.flash.wr.wr.wr.wr.hedgeEvent h.cutBank.cutBank.flash.wr.wr

/-! ### HBM -/

protected theorem Canon.hbmPutByte {a : Nat} {b : Byte} (h : Canon s) : Canon (hbmPutByte s a b) :=
  hbmPutByte_memWf h a b

protected theorem Canon.hbmRecord {a n agent func status : Nat} (h : Canon s) :
    Canon (hbmRecord s a n agent func status) :=
  h.foldl (fun _ _ h => h.memRecord)

protected theorem Canon.hbmUe {unit agent : Nat} (h : Canon s) : Canon (hbmUe s unit agent) :=
  .ite h (.ite h.hbmPoison.satInc h.hbmPoison.satInc.wr.wr.wr)

protected theorem Canon.hbmPut {a : Nat} {d : List Byte} (h : Canon s) : Canon (hbmPut s a d) := hbmPut_memWf h a d

protected theorem Canon.hbmWrite {a : Nat} {d : List Byte} (h : Canon s) : Canon (hbmWrite s a d) :=
  hbmWrite_memWf h a d

/-! ### Links -/

protected theorem Canon.setPort {n : Nat} {p : Port} (h : Canon s) : Canon (State.setPort s n p) :=
  h.link

protected theorem Canon.setPortState {n st : Nat} (h : Canon s) : Canon (setPortState s n st) :=
  .ite h h.wr.hedgeEvent

protected theorem Canon.linkRecord {n event : Nat} (h : Canon s) : Canon (linkRecord s n event) :=
  h.faultRecord

protected theorem Canon.portFlagLevel {n : Nat} (h : Canon s) : Canon (portFlagLevel s n) :=
  h.hedgeLevel

protected theorem Canon.injectPkt {p : Packet} (h : Canon s) : Canon (injectPkt s p) :=
  h.link.flit

protected theorem Canon.sendNak {p : Packet} {code detail : Nat} (h : Canon s) : Canon (sendNak s p code detail) :=
  .ite h h.injectPkt

protected theorem Canon.sendAck {p : Packet} {skip fault : Bool} {count : Nat} (h : Canon s) :
    Canon (sendAck s p skip fault count) :=
  h.injectPkt

protected theorem Canon.answerUnreachable {n : Nat} {p : Packet} (h : Canon s) : Canon (answerUnreachable s n p) :=
  .ite h.sendNak.satInc.hedgeEvent h.sendNak

protected theorem Canon.takeInbox {p : Packet} (h : Canon s) : Canon (takeInbox s p) :=
  h.link

protected theorem Canon.flushPort {n : Nat} (h : Canon s) : Canon (flushPort s n) :=
  h.setPort.foldl (fun _ _ h => h.answerUnreachable)

protected theorem Canon.advanceLinkEpoch {n : Nat} (h : Canon s) : Canon (advanceLinkEpoch s n) :=
  h.wr

protected theorem Canon.quarantine {n : Nat} (h : Canon s) : Canon (quarantine s n) := by
  unfold quarantine
  exact h.advanceLinkEpoch.setPortState.hedgeEvent.linkRecord.flushPort

protected theorem Canon.linkViolation {n code seq : Nat} {hdr : Option Packet} (h : Canon s) :
    Canon (linkViolation s n code seq hdr) := by
  unfold linkViolation
  extract_lets pi k w s1 s2 s3 s4 s5 p times s6 s7
  have h2 : Canon s2 := by
    dsimp only [s2]
    split
    · exact h.wr.wr.wr.wr.wr.wr
    · exact h.wr.wr.wr.wr.wr.wr
  have h6 : Canon s6 := h2.wr.wrapInc.satInc.hedgeEvent.setPort
  have h7 : Canon s7 := by
    dsimp only [s7]
    split
    · exact .ite h6.sendNak h6
    · exact h6
  exact .ite h (.ite h7.quarantine h7)

protected theorem Canon.portEvaluate {n : Nat} (h : Canon s) : Canon (portEvaluate s n) :=
  .ite h <| .ite h.setPortState <| .ite h.setPortState <|
    .ite (.ite (.ite h.wr.portFlagLevel h.wr.portFlagLevel.setPort.setPortState)
      (Canon.ite h h.wr.linkRecord).portFlagLevel.setPortState) h.setPortState

protected theorem Canon.startRetrain {n : Nat} (h : Canon s) : Canon (startRetrain s n) :=
  .ite h h.advanceLinkEpoch.setPort.satInc.setPortState.hedgeEvent

protected theorem Canon.retrainCompleteOp {n lastSeq : Nat} (h : Canon s) : Canon (retrainCompleteOp s n lastSeq) :=
  .ite h h.setPort.setPortState.portEvaluate

protected theorem Canon.retrainTimeoutOp {n : Nat} (h : Canon s) : Canon (retrainTimeoutOp s n) :=
  .ite h.setPort.setPortState.linkRecord.flushPort h

protected theorem Canon.portTrainRetryOp {n : Nat} (h : Canon s) : Canon (portTrainRetryOp s n) :=
  .ite h.setPortState h

protected theorem Canon.portTrainedOp {n : Nat} {degraded : Bool} (h : Canon s) : Canon (portTrainedOp s n degraded) :=
  .ite (Canon.ite h.setPort.wrb.linkRecord h.setPort.wrb).portEvaluate h

protected theorem Canon.linkMessageOp {n : Nat} {m : LinkMsg} (h : Canon s) : Canon (linkMessageOp s n m) := by
  unfold linkMessageOp
  extract_lets p s1 s2 s3 s4 s5 s6 s7 s8 s9 s10
  have h1 : Canon s1 := h.setPort
  have h7 : Canon s7 := h1.wr.wr.wr.wr.wr.wrb.wr.wrb
  have h8 : Canon s8 := .ite h7.wr.linkRecord.portFlagLevel h7
  have h9 : Canon s9 := .ite h8.wr.startRetrain h8
  have h10 : Canon s10 := .ite h9.startRetrain h9
  exact .ite h (.ite h8.wr.setPortState.flushPort h10.portEvaluate)

protected theorem Canon.linkMessageSendOp {n serial : Nat} (h : Canon s) : Canon (linkMessageSendOp s n serial) :=
  .ite h h.setPort.emit

protected theorem Canon.acceptPacket {n seq : Nat} {q : Packet} (h : Canon s) : Canon (acceptPacket s n seq q) :=
  .ite h.linkViolation (.ite h.linkViolation (.ite h.linkViolation h.setPort.link))

protected theorem Canon.takeCell {n seq : Nat} {s : State} {cell : List Byte} (h : Canon s) :
    Canon (takeCell n seq s cell) := by
  unfold takeCell
  dsimp only
  split
  · exact .ite h (.ite h.wrapInc.acceptPacket h.wrapInc.setPort)
  · exact .ite h.wrapInc.setPort h.wrapInc.setPort.acceptPacket

protected theorem Canon.deliverCells {n : Nat} {b : Block} (h : Canon s) : Canon (deliverCells s n b) :=
  .ite (.ite (h.setPort.foldl (fun _ _ h => h.takeCell)) h) <| .ite (h.foldl (fun _ _ h => h.takeCell)) <|
    .ite (h.linkViolation.setPort.foldl (fun _ _ h => h.takeCell)) h.linkViolation.setPort

protected theorem Canon.uncorrectableBlock {n : Nat} (h : Canon s) : Canon (uncorrectableBlock s n) :=
  .ite h.satInc.setPort.startRetrain h.satInc.setPort

protected theorem Canon.blockPrologue {n : Nat} {b : Block} {r} (h : Canon s) (e : blockPrologue s n b = r) :
    Canon r.1 := by
  subst e
  unfold blockPrologue
  extract_lets p s1
  have h1 : Canon s1 := h.wrapInc
  clear_value s1
  split
  · exact h
  · split
    · exact h.uncorrectableBlock
    · split
      · dsimp only
        exact h1.linkViolation
      · split
        · dsimp only
          exact h1.linkViolation
        · exact h1.setPort

protected theorem Canon.dataBlockOp {n : Nat} {b : Block} (h : Canon s) : Canon (dataBlockOp s n b) :=
  .ite (h.blockPrologue rfl) <| .ite h.linkViolation <| .ite (h.blockPrologue rfl) <|
    .ite (h.blockPrologue rfl).setPort.deliverCells <| .ite (h.blockPrologue rfl).setPort <|
    .ite (h.blockPrologue rfl) (h.blockPrologue rfl).linkViolation

protected theorem Canon.retryBlockOp {n : Nat} {b : Block} (h : Canon s) : Canon (retryBlockOp s n b) := by
  unfold retryBlockOp
  dsimp only
  refine .ite (h.blockPrologue rfl) ?_
  split
  · exact h.blockPrologue rfl
  · exact .ite (h.blockPrologue rfl).startRetrain (h.blockPrologue rfl).satInc.setPort

protected theorem Canon.blockTransmitOp {n : Nat} (h : Canon s) : Canon (blockTransmitOp s n) := by
  unfold blockTransmitOp
  dsimp only
  refine .ite h ?_
  split
  · split
    · exact h.setPort.emit
    · exact h.setPort
  · exact .ite h.setPort.emit (.ite h.setPort.emit (h.setPort.foldl (fun _ _ h => h.cellActivity)).wrapInc.emit)

protected theorem Canon.returnCells {q : QPkt} (h : Canon s) : Canon (returnCells s q) :=
  .ite h.setPort h

protected theorem Canon.routeOne {q : QPkt} (h : Canon s) : Canon (routeOne s q) := by
  unfold routeOne
  refine .ite (Canon.ite h.returnCells.flit h.returnCells).link ?_
  split
  · exact (Canon.ite h.returnCells.flit h.returnCells).answerUnreachable
  · exact (Canon.ite h.returnCells.flit h.returnCells).setPort

protected theorem Canon.expireQueued {old : QPkt → Bool} {n fuel i : Nat} (h : Canon s) :
    Canon (lifetimeExpiryOp.go old s n fuel i) := by
  induction fuel generalizing n i with
  | zero => exact h
  | succ fuel ih =>
    unfold lifetimeExpiryOp.go
    refine .ite ?_ ih
    split
    · exact .ite h.setPort.answerUnreachable h
    · exact h

protected theorem Canon.lifetimeExpiryOp {i : Nat} (h : Canon s) : Canon (lifetimeExpiryOp s i) := by
  unfold lifetimeExpiryOp
  refine .ite ?_ (Canon.expireQueued h)
  split
  · exact .ite h.link.returnCells.answerUnreachable h
  · exact h

/-! ### Store access -/

protected theorem Canon.setPlot {p : Nat} {x : Plot} (h : Canon s) : Canon (State.setPlot s p x) :=
  h.plots

protected theorem Canon.setSto {p : Nat} {x : Stores} (h : Canon s) : Canon (State.setSto s p x) :=
  h.setPlot

protected theorem Canon.putRow {p st row : Nat} {data : List Byte} (h : Canon s) : Canon (putRow s p st row data) :=
  h.setSto

protected theorem Canon.setTag {p st row : Nat} {full : Bool} (h : Canon s) : Canon (setTag s p st row full) :=
  h.setSto

protected theorem Canon.clearPoison {p st row : Nat} {covered : Nat → Bool} (h : Canon s) :
    Canon (clearPoison s p st row covered) :=
  h.setSto

protected theorem Canon.showScoreboard {p : Nat} (h : Canon s) : Canon (showScoreboard s p) :=
  h.wr

protected theorem Canon.flushEntry {p : Nat} {e' : CoalEntry} (h : Canon s) : Canon (flushEntry s p e') :=
  h.setSto.putRow.clearPoison.showScoreboard

protected theorem Canon.flushRow {p st row : Nat} (h : Canon s) : Canon (flushRow s p st row) := by
  unfold flushRow
  split
  · exact h.flushEntry
  · exact h

protected theorem Canon.flushAll {p : Nat} (h : Canon s) : Canon (flushAll s p) :=
  h.foldl (fun _ _ h => h.flushEntry)

protected theorem Canon.readRow {p st row tag : Nat} {r} (h : Canon s) (e : readRow s p st row tag = r) :
    Canon r.1 := by
  subst e
  unfold readRow
  dsimp only
  split
  · exact h
  · split
    · exact h.flushRow
    · split
      · exact h.flushRow
      · exact .ite h.flushRow.setTag h.flushRow

protected theorem Canon.writeRow {p st row tag : Nat} {data : List Byte} {r}
    (h : Canon s) (e : writeRow s p st row tag data = r) :
    Canon r.1 := by
  subst e
  unfold writeRow
  split
  · exact h
  · split
    · exact h
    · exact .ite h.flushRow.putRow.clearPoison.setTag h.flushRow.putRow.clearPoison

protected theorem Canon.writeWords {p st row ctx tag : Nat} {words : FMap Nat} {r} (h : Canon s)
    (e : writeWords s p st row ctx tag words = r) : Canon r.1 := by
  subst e
  unfold writeWords
  extract_lets s1 old e x s2 s3 s4
  have h1 : Canon s1 := by
    dsimp only [s1]
    split
    · exact h
    · split
      · exact .ite h.flushEntry h
      · exact h
  have h3 : Canon s3 := h1.setSto.showScoreboard
  have h4 : Canon s4 := .ite h3.flushEntry h3
  split
  · exact h
  · split
    · exact h
    · exact .ite h4.setTag h4

protected theorem Canon.storeError {p kind st row agent ctx : Nat} (h : Canon s) :
    Canon (storeError s p kind st row agent ctx) :=
  .ite h h.wr.wr.wr.wr.wr.wr.wr.hedgeLevel

protected theorem Canon.storeEcc {p st row agent ctx : Nat} {ecc : EccEvent} (h : Canon s) :
    Canon (storeEcc s p st row agent ctx ecc) := by
  unfold storeEcc
  split
  · exact h
  · exact h.satInc
  · exact .ite h h.setSto.memRecord.satInc.storeError

protected theorem Canon.readRows {p st row tag n : Nat} {r} (h : Canon s) (e : readRows s p st row tag n = r) :
    Canon r.1 := by
  induction n generalizing s row r with
  | zero => exact e ▸ h
  | succ n ih =>
    subst e
    unfold readRows
    split
    · next e =>
      have h1 := h.readRow e
      split
      · next e => exact (ih h1 e :)
      · next e => exact ih h1 e
    · next e => exact h.readRow e

/-! ### Jobs and contexts -/

protected theorem Canon.setCtx {p c : Nat} {x : Ctx} (h : Canon s) : Canon (State.setCtx s p c x) :=
  h.setPlot

protected theorem Canon.showCtx {p c : Nat} (h : Canon s) : Canon (showCtx s p c) := by
  unfold showCtx
  dsimp only
  refine .ite ?_ h.wr.wr
  split
  · exact h.wr.wr.wr
  · exact h.wr.wr.wr

protected theorem Canon.setWait {p c kind arg : Nat} (h : Canon s) : Canon (setWait s p c kind arg) :=
  h.setCtx.showCtx

protected theorem Canon.clearWait {p c : Nat} (h : Canon s) : Canon (clearWait s p c) :=
  h.setCtx.showCtx

protected theorem Canon.setBg {p c : Nat} {w : Option (Nat × Nat)} (h : Canon s) : Canon (setBg s p c w) :=
  h.setCtx.showCtx

protected theorem Canon.wakeCtx {p c : Nat} (h : Canon s) : Canon (wakeCtx s p c) :=
  .ite h.setCtx.showCtx h

protected theorem Canon.wakeAll (h : Canon s) : Canon (wakeAll s) :=
  h.foldl (fun _ _ h => h.wakeCtx)

protected theorem Canon.setJob {j : Nat} {x : Job} (h : Canon s) : Canon (State.setJob s j x) :=
  h.jobs

protected theorem Canon.setQslot {g : Nat} {x : QSlot} (h : Canon s) : Canon (State.setQslot s g x) :=
  h.qd

protected theorem Canon.qdFollow {g : Nat} (h : Canon s) : Canon (qdFollow s g) :=
  .ite h.wrb (.ite h.wrb.wrb.wr.setQslot h.wrb.wrb.wr.wrapInc)

protected theorem Canon.qdRefresh (h : Canon s) : Canon (qdRefresh s) :=
  h.foldl (fun _ _ h => h.qdFollow)

protected theorem Canon.qdDisarmOp {g : Nat} (h : Canon s) : Canon (qdDisarmOp s g) :=
  (Canon.ite h.wr.wr.wrapInc h.wr.wr).wr.wr.wr.setQslot

protected theorem Canon.showArray {p cls : Nat} {fast : Bool} (h : Canon s) : Canon (showArray s p cls fast) :=
  h.wrb.wr.wr.wrb.wrb.wr.wrb.wr.wrb

protected theorem Canon.showSieve {i : Nat} (h : Canon s) : Canon (showSieve s i) :=
  h.wr.wrb

protected theorem Canon.dropWork {p c : Nat} (h : Canon s) : Canon (dropWork s p c) := by
  have hd : ∀ x y, Canon { s with sieves := x, graft := y } := fun _ _ => h.same rfl rfl rfl rfl
  exact (hd _ _).showSieve.showSieve

protected theorem Canon.haltCtx {p c : Nat} (h : Canon s) : Canon (haltCtx s p c) := by
  unfold haltCtx
  extract_lets s1 x s3 live s4 s5
  have h3 : Canon s3 := h.dropSet.dropSet.dropWork.setCtx
  have h5 : Canon s5 := (Canon.ite h3.wr h3).showCtx
  exact .ite (.ite h5.hedgeEvent h5) h

protected theorem Canon.haltPlot {p : Nat} (h : Canon s) : Canon (haltPlot s p) :=
  (h.foldl (fun _ _ h => h.haltCtx)).setPlot.showArray

protected theorem Canon.closeWindows {p : Nat} (h : Canon s) : Canon (closeWindows s p) :=
  h.foldl (fun _ _ h => h.wr)

protected theorem Canon.setGent {k : Nat} {e' : GEntry} (h : Canon s) : Canon (State.setGent s k e') :=
  h.graft

protected theorem Canon.showGraft {n : Nat} (h : Canon s) : Canon (showGraft s n) := by
  unfold showGraft
  dsimp only
  split
  · exact h.wr.wr.wrb.foldl (fun _ _ h => h.wr)
  · exact h.wr.wr.wrb.foldl (fun _ _ h => h.wr)

protected theorem Canon.showGrafts (h : Canon s) : Canon (showGrafts s) :=
  h.foldl (fun _ _ h => h.showGraft)

protected theorem Canon.dropJobEntries {job : Nat} (h : Canon s) : Canon (dropJobEntries s job) :=
  h.graft.showGrafts

protected theorem Canon.finishCode {f i st : Nat} {body : List Byte} (h : Canon s) :
    Canon (State.finishCode s f i st body) := by
  unfold State.finishCode
  split
  · exact h.setCmd
  · exact h

protected theorem Canon.postWaits {j : Nat} (h : Canon s) : Canon (postWaits s j) :=
  h.foldl (fun _ _ h => h.finishCode)

protected theorem Canon.sendReleases {b : List Byte} (h : Canon s) : Canon (sendReleases s b) :=
  h.foldl (fun _ _ h => h.foldl (fun _ _ h1 => h1.injectPkt))

protected theorem Canon.endBatches {j : Nat} (h : Canon s) : Canon (endBatches s j) :=
  h.setJob.foldl (fun _ _ h => h.failCmd)

protected theorem Canon.endJob {j : Nat} {st : Status} (h : Canon s) : Canon (endJob s j st) := by
  unfold endJob
  extract_lets x s1 s2 s3 s4 s5 hold s6 s7 s8 s9 s10 g
  have h2 : Canon s2 := (h.foldl fun _ _ h => h.haltPlot).foldl fun _ _ h => h.closeWindows
  have h5 : Canon s5 := h2.dropJobEntries.sendReleases.foldl fun _ _ h => h.qdDisarmOp
  have h7 : Canon s7 := (h5.foldl fun _ _ h => h.plotHold).setJob
  have h8 : Canon s8 := .ite h7 h7.endBatches
  have h10 : Canon s10 := (h8.foldl fun _ _ h => h.finish).postWaits
  exact .ite h (.ite h10 h10.faultRecord)

protected theorem Canon.ctxFaultAs {p c cause arg : Nat} {st : Status} (h : Canon s) :
    Canon (ctxFaultAs s p c cause arg st) := by
  unfold ctxFaultAs
  extract_lets s1 s2 s3 s4 s5 s6 a s7 s8 s9
  have h2 : Canon s2 := h.wr.wr.wr.wr
  have h3 : Canon s3 := .ite h h2.wr.hedgeLevel
  have h5 : Canon s5 := h3.dropWork.setCtx
  have h6 : Canon s6 := h5.wr.showCtx
  have h8 : Canon s8 := .ite h6.setPlot.showArray h6
  have h9 : Canon s9 := h8.hedgeEvent
  refine .ite h3 ?_
  split
  · exact h9
  · exact Canon.endJob (.ite h9.setJob h9)

protected theorem Canon.ctxFault {p c cause arg : Nat} (h : Canon s) : Canon (ctxFault s p c cause arg) :=
  h.ctxFaultAs

protected theorem Canon.badField {p c byte : Nat} (h : Canon s) : Canon (badField s p c byte) :=
  h.ctxFault

protected theorem Canon.rangeFault {p c agent st row : Nat} (h : Canon s) : Canon (rangeFault s p c agent st row) :=
  h.storeError.ctxFault

protected theorem Canon.poisonFault {p c : Nat} (h : Canon s) : Canon (poisonFault s p c) :=
  h.ctxFault

protected theorem Canon.modeFault {p c : Nat} (h : Canon s) : Canon (modeFault s p c) :=
  h.wr.wr.satInc.hedgeLevel.ctxFault

/-! ### Table words -/

protected theorem Canon.stageVec {p c rsc act : Nat} (h : Canon s) : Canon (stageVec s p c rsc act) :=
  h.wr.wr.wrb.wrb.wr.wr.wr.wrb

protected theorem Canon.dtError {p c check : Nat} (h : Canon s) : Canon (dtError s p c check) :=
  h.wr.wr.wr

protected theorem Canon.loadAct {p c : Nat} (h : Canon s) : Canon (loadAct s p c) := by
  unfold loadAct
  refine .ite h ?_
  split
  · next e =>
    exact .ite (h.readRows e).setCtx.wr (h.readRows e).setCtx.wr.wr.hedgeLevel.ctxFault
  · next e => exact (h.readRows e).poisonFault
  · next e => exact (h.readRows e).rangeFault

protected theorem Canon.noteClass {p c : Nat} {b : List Byte} (h : Canon s) : Canon (noteClass s p c b) :=
  h.setCtx

protected theorem Canon.loadCodebooks {p c : Nat} (h : Canon s) : Canon (loadCodebooks s p c) :=
  .ite h.setCtx.badField h.setCtx

protected theorem Canon.takeSets {p c : Nat} (h : Canon s) : Canon (takeSets s p c) := by
  unfold takeSets
  extract_lets dt vec s1 s2 a drop x s3
  have h2 : Canon s2 := h.effectSet.effectSet
  have h3 : Canon s3 := .ite h2.setPlot.loadCodebooks h2
  exact .ite h3.loadAct h3

/-! ### The frame of a command -/

protected theorem Canon.done {c : Cmd} {body : List Byte} (h : Canon s) : Canon (done s c body) :=
  h.finish

protected theorem Canon.fail {c : Cmd} {st : Status} {field sub value : Nat} (h : Canon s) :
    Canon (fail s c st field sub value) :=
  h.failCmd

protected theorem Canon.acs {f i op : Nat} {act : State → Cmd → State}
    (h : Canon s) (hact : ∀ s' x1, Canon s' → Canon (act s' x1)) :
    Canon (acs s f i op act) := by
  unfold acs
  split
  · exact h
  · refine .ite h ?_
    split
    · exact h.fail
    · exact .ite h (hact _ _ h)

protected theorem Canon.running {c : Cmd} (h : Canon s) : Canon (running s c) :=
  h.setCmd

protected theorem Canon.waiting {c : Cmd} (h : Canon s) : Canon (waiting s c) :=
  h.setCmd

protected theorem Canon.bulk {f a n : Nat} (h : Canon s) : Canon (bulk s f a n) :=
  h.hbmActivity.wrapInc.wrapInc

protected theorem Canon.withBuffer {c : Cmd} {o : Nat} {buf : HostBuf} {act : State → List Byte → State}
    (h : Canon s) (hact : ∀ s' x1, Canon s' → Canon (act s' x1)) :
    Canon (withBuffer s c o buf act) := by
  unfold withBuffer
  dsimp only
  split
  · exact hact _ _ (.ite h.bulk h)
  · exact h.fail

protected theorem Canon.putBuffer {f : Nat} {r' : BufRef} {l : List Byte} (h : Canon s) : Canon (putBuffer s f r' l) :=
  .ite h.bulk.hbmWrite h.emit

/-! ### Graft entries -/

protected theorem Canon.graftRefuse {n : Nat} {q : Packet} {code detail : Nat} (h : Canon s) :
    Canon (graftRefuse s n q code detail) :=
  (Canon.ite h.satInc h.satInc.wr.wr.wr.wr.wr.hedgeLevel).sendNak

protected theorem Canon.countRx {k : Nat} {e' : GEntry} {q : Packet} {n : Nat} {r}
    (h : Canon s) (e : countRx s k e' q n = r) :
    Canon r.1 := by
  subst e
  unfold countRx
  exact h.setGent.wrapInc

protected theorem Canon.queueSend {d : GSend} (h : Canon s) : Canon (queueSend s d) :=
  h.graft.showGraft

protected theorem Canon.sendRowPacket {q : Packet} (h : Canon s) : Canon (sendRowPacket s q) := by
  unfold sendRowPacket
  split
  · exact h.injectPkt
  · split
    · exact h.injectPkt
    · exact h.queueSend

protected theorem Canon.packetRouteOp (h : Canon s) : Canon (packetRouteOp s) := by
  unfold packetRouteOp
  split
  · exact h
  · refine .ite ?_ h.link.routeOne
    split
    · exact h.link.routeOne
    · split
      · exact h.link.returnCells.graftRefuse
      · exact (h.link.countRx rfl).routeOne

/-! ### Spilled planes -/

protected theorem Canon.numFlag {p bit : Nat} (h : Canon s) : Canon (numFlag s p bit) :=
  .ite h h.wr.hedgeEvent

protected theorem Canon.charge {p c : Nat} {e : NumEv} (h : Canon s) : Canon (charge s p c e) := by
  unfold charge
  extract_lets s1 s2 s3 s4 s5 s6
  have h3 : Canon s3 := h.satInc.satInc.satInc.satInc.satInc
  have h4 : Canon s4 := .ite h3 h3.numFlag
  have h5 : Canon s5 := .ite h4 h4.numFlag
  have h6 : Canon s6 := .ite h5 h5.numFlag
  exact .ite h6 h6.numFlag

/-! ### The array -/

protected theorem Canon.retireTo {p c pc : Nat} (h : Canon s) : Canon (retireTo s p c pc) :=
  .ite h.setCtx.showCtx.ctxFault h.setCtx.showCtx.wr.takeSets

protected theorem Canon.retireNext {p c : Nat} (h : Canon s) : Canon (retireNext s p c) :=
  h.retireTo

protected theorem Canon.issue {p c opcode : Nat} {act : State → List Byte → State}
    (h : Canon s) (hact : ∀ s' x1, Canon s' → Canon (act s' x1)) :
    Canon (issue s p c opcode act) :=
  .ite h (.ite h.ctxFault (.ite h (hact _ _ h)))

protected theorem Canon.checked {p c : Nat} {l : List Byte} {bad : List (Nat × Bool)} {unused : List Nat}
    {act : State → State} (h : Canon s) (hact : ∀ s', Canon s' → Canon (act s')) :
    Canon (checked s p c l bad unused act) := by
  unfold checked
  split
  · exact h.badField
  · exact hact _ h

protected theorem Canon.strictly {p c : Nat} {l : List Byte} {unused : List Nat} {act : State → State}
    (h : Canon s) (hact : ∀ s', Canon s' → Canon (act s')) :
    Canon (strictly s p c l unused act) := by
  unfold strictly
  split
  · exact h.badField
  · exact hact _ h

protected theorem Canon.setArr {p : Nat} {a : MArray} (h : Canon s) : Canon (State.setArr s p a) :=
  h.setPlot

protected theorem Canon.showTile {p : Nat} (h : Canon s) : Canon (showTile s p) := by
  unfold showTile
  split
  · exact h.showArray
  · exact h.showArray

protected theorem Canon.spillPlane {p cls : Nat} {x : Plane} {row stride : Int} {r} (h : Canon s)
    (e : spillPlane s p cls x row stride = r) : Canon r.1 := by
  subst e
  refine Canon.foldlVia (fun a : State × Bool => a.1) h fun a m ha => Canon.foldlVia (fun a : State × Bool => a.1) ha
      fun b i hb => ?_
  dsimp only
  split
  · exact hb
  · split
    · next e => exact hb.writeRow e
    · next e => exact hb.writeRow e

protected theorem Canon.reloadPlane {p cls : Nat} {row stride : Int} {r} (h : Canon s)
    (e : reloadPlane s p cls row stride = r) : Canon r.1 := by
  subst e
  refine Canon.foldlVia (fun a : State × RowRead × FMap Nat => a.1) h fun a m ha => ?_
  dsimp only
  split
  · split
    · exact ha
    · split
      · next e => exact ha.readRows e
      · next e => exact ha.readRows e
  · exact ha

protected theorem Canon.takeWeights {p : Nat} {k : WKey} (h : Canon s) : Canon (takeWeights s p k) :=
  .ite h (.ite h.setArr h)

protected theorem Canon.startBlock {p : Nat} (h : Canon s) : Canon (startBlock s p) := by
  unfold startBlock
  extract_lets a
  split
  · exact h
  · split
    · exact h
    · extract_lets b cls
      split
      · exact h.setArr.clearWait.takeWeights.showTile
      · refine .ite h.setWait ?_
        refine .ite h.setArr.clearWait.takeWeights.showTile ?_
        split
        · next e => exact (h.reloadPlane e).setArr.clearWait.takeWeights.showTile
        · next e => exact (h.reloadPlane e).poisonFault
        · next e => exact (h.reloadPlane e).rangeFault

protected theorem Canon.matmulDone {p c : Nat} (h : Canon s) : Canon (matmulDone s p c) :=
  h.setCtx.retireNext

protected theorem Canon.startTile {p c : Nat} (h : Canon s) : Canon (startTile s p c) := by
  unfold startTile
  refine .ite h.setArr.clearWait.takeSets ?_
  split
  · exact h.setArr.clearWait.takeSets
  · exact .ite h.setArr.clearWait.takeSets.setArr.matmulDone h.setArr.clearWait.takeSets.wrapInc.setCtx.startBlock

protected theorem Canon.grantArray {p k : Nat} (h : Canon s) : Canon (grantArray s p k) := by
  induction k generalizing s with
  | zero => exact h.showTile
  | succ k ih =>
    unfold grantArray
    refine .ite h.showTile ?_
    dsimp only
    split
    · exact h.showTile
    · exact ih (h.foldl fun _ _ h => .ite h.setWait h).startTile

protected theorem Canon.matmulOp {p c : Nat} (h : Canon s) : Canon (matmulOp s p c) := by
  unfold matmulOp
  dsimp only
  refine h.issue (fun _ _ h => h.strictly (fun _ h1 => ?_))
  split
  · exact h1.modeFault
  · exact h1.ctxFault
  · exact (Canon.ite h1.setCtx.setWait h1.setCtx).grantArray

protected theorem Canon.readScales {p cls vec0 k : Nat} {b : List Byte} {r} (h : Canon s)
    (e : readScales s p b cls vec0 k = r) : Canon r.1 := by
  subst e
  unfold readScales
  split
  · exact h
  · dsimp only
    split
    · next e => exact (h.readRows e :)
    · exact h.readRows rfl

protected theorem Canon.shadowLoadOp {p : Nat} (h : Canon s) : Canon (shadowLoadOp s p) := by
  unfold shadowLoadOp
  dsimp only
  split
  · exact h
  · split
    · exact h
    · split
      · exact h
      · refine .ite h (.ite h.rangeFault (.ite h.setWait ?_))
        split
        · next e =>
          have h1 := h.readRows e
          split
          · next e =>
            have h2 := (h1.readScales e)
            exact (Canon.ite h2.charge.setArr.clearWait.takeWeights h2.charge.setArr.clearWait).showTile
          · next e => exact (h1.readScales e).poisonFault
          · next e => exact (h1.readScales e).rangeFault
        · next e => exact (h.readRows e).poisonFault
        · next e => exact (h.readRows e).rangeFault

protected theorem Canon.arrayUpset {p c : Nat} {u : Upset} (h : Canon s) : Canon (arrayUpset s p c u) := by
  unfold arrayUpset
  dsimp only
  split
  · refine (Canon.wr ?_).satInc.hedgeLevel.faultRecord.endJob
    split
    · exact h.wr
    · exact h.wr
  · refine (Canon.wr ?_).satInc.hedgeLevel.faultRecord.haltPlot
    split
    · exact h.wr
    · exact h.wr

protected theorem Canon.readAScales {p cls d : Nat} {b : List Byte} {r} (h : Canon s)
    (e : readAScales s p b cls d = r) : Canon r.1 := by
  subst e
  unfold readAScales
  split
  · exact h
  · dsimp only
    split
    · next e => exact (h.readRow e :)
    · exact h.readRow rfl

protected theorem Canon.arrayStepOp {p : Nat} {u : Upset} (h : Canon s) : Canon (arrayStepOp s p u) := by
  unfold arrayStepOp
  dsimp only
  split
  · split
    · exact h
    · refine .ite h (.ite h.arrayUpset (.ite h.rangeFault (.ite h.setWait ?_)))
      split
      · next e =>
        split
        · next e1 => exact ((h.readRows e).readAScales e1).clearWait.charge.setArr.wrapInc.gov
        · next e1 => exact ((h.readRows e).readAScales e1).poisonFault
        · next e1 => exact ((h.readRows e).readAScales e1).rangeFault
      · next e => exact (h.readRows e).poisonFault
      · next e => exact (h.readRows e).rangeFault
  · exact h

protected theorem Canon.leavePlane {p c i : Nat} {w : Walk} {nxt : Option Walk} {b : List Byte} {cls : Nat}
    (h : Canon s) :
    Canon (leavePlane s p c i w nxt b cls) := by
  unfold leavePlane
  refine .ite h.setArr (.ite h.setArr ?_)
  split
  · next e => exact (h.spillPlane e).setArr
  · next e => exact (h.spillPlane e).rangeFault

protected theorem Canon.blockCompleteOp {p : Nat} (h : Canon s) : Canon (blockCompleteOp s p) := by
  unfold blockCompleteOp
  dsimp only
  split
  · split
    · exact h
    · refine .ite h (.ite h.leavePlane ?_)
      split
      · exact h.leavePlane.setCtx.startBlock
      · split
        · exact h.leavePlane.setArr.setCtx.grantArray
        · exact h.leavePlane.setArr.matmulDone.grantArray
  · exact h

protected theorem Canon.wsBytes {p row off n : Nat} {r} (h : Canon s) (e : wsBytes s p row off n = r) : Canon r.1 := by
  subst e
  unfold wsBytes
  split
  · next e => exact (h.readRows e :)
  · exact h.readRows rfl

protected theorem Canon.drainTables {p cls : Nat} {b : List Byte} {d : Drain} {r} (h : Canon s)
    (e : drainTables s p b cls d = r) : Canon r.1 := by
  subst e
  unfold drainTables
  extract_lets n e r1 r2 r3
  have read : ∀ {u : State} {c : Prop} {_ : Decidable c} {row off m : Nat}, Canon u →
      Canon (if c then wsBytes u p row off m else (u, .ok [])).1 := by
    intro u c _ row off m hu
    split
    · exact hu.wsBytes rfl
    · exact hu
  have h3 : Canon r3.1 := read (read (read h))
  split
  all_goals exact h3

protected theorem Canon.writeRowsFrom {p st row tag : Nat} {l : List (List Byte)} (h : Canon s) :
    Canon (writeRowsFrom s p st row tag l) := by
  induction l generalizing s row with
  | nil => exact h
  | cons x r ih => exact ih (h.writeRow rfl)

protected theorem Canon.queueRows {p c k agent stamp : Nat} {rows : List (List Byte)} (h : Canon s) :
    Canon (queueRows s p c k agent stamp rows) :=
  .ite h.setPlot.setBg h.setPlot

protected theorem Canon.drainNext {p i : Nat} {d : Drain} (h : Canon s) : Canon (drainNext s p i d) :=
  .ite h.setArr (.ite h.setArr.showTile.startBlock h.setArr.showTile)

protected theorem Canon.rescaleActOp {p : Nat} (h : Canon s) : Canon (rescaleActOp s p) := by
  unfold rescaleActOp
  split
  · exact h
  · extract_lets pl c b cls st row n pr dist off
    refine .ite h (.ite h.ctxFault (.ite h.rangeFault (.ite h.setBg ?_)))
    split
    · next e =>
      extract_lets v x bytes s1 s2 s3 rows s4
      have h2 : Canon s2 := Canon.ite (h.drainTables e).charge.setBg (h.drainTables e).charge
      have h3 : Canon s3 := .ite h2 (h2.writeWords rfl).flushRow
      have h4 : Canon s4 := .ite h3.queueRows h3.writeRowsFrom
      exact h4.drainNext
    · next e => exact (h.drainTables e).poisonFault
    · next e => exact (h.drainTables e).rangeFault

/-! ### Vectors -/

protected theorem Canon.vopWrite {p c st row tag : Nat} {d : List Byte} {r}
    (h : Canon s) (e : vopWrite s p c st row tag d = r) :
    Canon r.1 := by
  subst e
  unfold vopWrite
  split
  · exact h.writeWords rfl
  · exact h.writeRow rfl

protected theorem Canon.vopRun {p c k : Nat} {l : List Byte} (h : Canon s) : Canon (vopRun p c l k s) := by
  induction k generalizing s with
  | zero => exact h
  | succ k ih =>
    unfold vopRun
    dsimp only
    split
    · split
      · next e => exact ih (h.vopWrite e).setCtx
      · next e => exact (h.vopWrite e).setWait
      · next e => exact (h.vopWrite e).rangeFault
    · refine .ite h.setCtx.retireNext ?_
      split
      · split
        · next e => exact ih (h.readRow e).setCtx
        · next e => exact (h.readRow e).setWait
        · next e => exact (h.readRow e).poisonFault
        · next e => exact (h.readRow e).rangeFault
      · exact ih h.setCtx.charge

protected theorem Canon.vopOp {p c : Nat} (h : Canon s) : Canon (vopOp s p c) :=
  h.issue (fun _ _ h => h.checked (fun _ h1 => h1.vopRun))

/-! ### The Rake instructions -/

protected theorem Canon.releaseSigs {p c k : Nat} (h : Canon s) : Canon (releaseSigs p c k s) := by
  induction k generalizing s with
  | zero => exact h
  | succ k ih =>
    unfold releaseSigs
    split
    · exact h
    · exact .ite h (ih h.setCtx.flights.injectPkt)

protected theorem Canon.releasePlot {p : Nat} (h : Canon s) : Canon (releasePlot s p) :=
  h.foldl (fun _ _ h => h.releaseSigs)

protected theorem Canon.fenceCheck {p c : Nat} (h : Canon s) : Canon (fenceCheck s p c) := by
  unfold fenceCheck
  dsimp only
  split
  · exact .ite h.setCtx.retireNext h
  · exact h

protected theorem Canon.fenceOp {p c : Nat} (h : Canon s) : Canon (fenceOp s p c) :=
  h.issue (fun _ _ h => h.checked (fun _ h1 => h1.flushAll.setCtx.setWait.fenceCheck))

protected theorem Canon.haltOp {p c : Nat} (h : Canon s) : Canon (haltOp s p c) :=
  h.issue (fun _ _ h => h.strictly (fun _ h1 => h1.flushAll.setCtx.setWait))

protected theorem Canon.haltRetireOp {p c : Nat} (h : Canon s) : Canon (haltRetireOp s p c) := by
  unfold haltRetireOp
  dsimp only
  refine .ite h ?_
  split
  · exact .ite h.setCtx.wr.showCtx.hedgeEvent.endJob h.setCtx.wr.showCtx.hedgeEvent
  · exact h.setCtx.wr.showCtx.hedgeEvent

protected theorem Canon.nopOp {p c : Nat} (h : Canon s) : Canon (nopOp s p c) :=
  h.issue (fun _ _ h => h.strictly (fun _ h1 => h1.retireNext))

protected theorem Canon.setlOp {p c : Nat} (h : Canon s) : Canon (setlOp s p c) :=
  h.issue (fun _ _ h => h.checked (fun _ h1 => h1.setCtx.retireNext))

protected theorem Canon.loopOp {p c : Nat} (h : Canon s) : Canon (loopOp s p c) :=
  h.issue (fun _ _ h => h.checked (fun _ h1 => .ite h1.ctxFault h1.setCtx.retireTo))

protected theorem Canon.jumpOp {p c : Nat} (h : Canon s) : Canon (jumpOp s p c) :=
  h.issue (fun _ _ h => h.strictly (fun _ h1 => .ite h1.ctxFault h1.retireTo))

protected theorem Canon.ldtOp {p c : Nat} (h : Canon s) : Canon (ldtOp s p c) := by
  unfold ldtOp
  dsimp only
  refine h.issue (fun _ _ h => h.strictly (fun _ h1 => ?_))
  split
  · next e2 =>
    split
    · exact (h1.readRow e2).stageWords.stageVec.dtError.refuseSet.ctxFault
    · exact (h1.readRow e2).stageWords.stageVec.noteClass.captureSet.captureSet.retireNext
  · next e2 => exact (h1.readRow e2).poisonFault
  · next e2 => exact (h1.readRow e2).rangeFault

protected theorem Canon.waitOp {p c : Nat} (h : Canon s) : Canon (waitOp s p c) :=
  h.issue (fun _ _ h => h.checked (fun _ h1 => .ite h1.wr.retireNext h1.setWait))

protected theorem Canon.signalOp {p c : Nat} (h : Canon s) : Canon (signalOp s p c) :=
  h.issue (fun _ _ h => h.checked (fun _ h1 => h1.setCtx.releaseSigs.retireNext))

/-! ### DMA -/

protected theorem Canon.setChan {p ch : Nat} {x : Chan} (h : Canon s) : Canon (State.setChan s p ch x) :=
  h.setPlot

protected theorem Canon.chanStart {p ch : Nat} (h : Canon s) : Canon (chanStart s p ch) := by
  unfold chanStart
  dsimp only
  split
  · exact h.setChan
  · exact h

protected theorem Canon.dmaOp {p c : Nat} (h : Canon s) : Canon (dmaOp s p c) := by
  unfold dmaOp
  refine h.issue (fun _ _ h => h.checked (fun _ h1 => .ite h1.setWait ?_))
  split
  · next e2 =>
    exact (h1.readRow e2).checked (fun _ h3 => .ite h3.setChan.chanStart.retireNext h3.ctxFault)
  · next e2 => exact (h1.readRow e2).poisonFault
  · next e2 => exact (h1.readRow e2).rangeFault

protected theorem Canon.chanAdvance {p ch : Nat} (h : Canon s) : Canon (chanAdvance s p ch) := by
  unfold chanAdvance
  dsimp only
  split
  · exact .ite h.setChan h.setChan.releasePlot
  · exact h

protected theorem Canon.chanFault {p ch : Nat} {act : State → State}
    (h : Canon s) (hact : ∀ s', Canon s' → Canon (act s')) :
    Canon (chanFault s p ch act) :=
  hact _ h.setChan

protected theorem Canon.dmaIn {p ch : Nat} {d : DmaDesc} {i : Nat} (h : Canon s) : Canon (dmaIn s p ch d i) := by
  unfold dmaIn
  refine .ite (h.hbmRecord.chanFault (fun _ h => h.ctxFault)) ?_
  split
  · next e => exact (h.writeRow e).flit.flit.hbmActivity.chanAdvance
  · next e => exact h.writeRow e
  · next e => exact (h.writeRow e).chanFault (fun _ h1 => h1.rangeFault)

protected theorem Canon.dmaOut {p ch : Nat} {d : DmaDesc} {i : Nat} (h : Canon s) : Canon (dmaOut s p ch d i) := by
  unfold dmaOut
  dsimp only
  split
  · next e => exact (h.readRow e).hbmWrite.flit.flit.hbmActivity.chanAdvance
  · next e => exact h.readRow e
  · next e => exact (h.readRow e).chanFault (fun _ h1 => h1.poisonFault)
  · next e => exact (h.readRow e).chanFault (fun _ h1 => h1.rangeFault)

protected theorem Canon.dmaSend {p ch : Nat} {d : DmaDesc} {i : Nat} (h : Canon s) : Canon (dmaSend s p ch d i) := by
  unfold dmaSend
  refine .ite (h.chanFault (fun _ h => h.ctxFault)) (.ite h ?_)
  split
  · next e => exact (h.readRow e).queueRows
  · next e => exact h.readRow e
  · next e => exact (h.readRow e).chanFault (fun _ h1 => h1.poisonFault)
  · next e => exact (h.readRow e).chanFault (fun _ h1 => h1.rangeFault)

protected theorem Canon.dmaRowOp {p ch : Nat} (h : Canon s) : Canon (dmaRowOp s p ch) := by
  unfold dmaRowOp
  dsimp only
  split
  · exact h
  · split
    · exact h.dmaIn
    · exact h.dmaOut
    · exact h.dmaSend

/-! ### Remote writes -/

protected theorem Canon.sendRow {p k : Nat} {r' : RowOut} (h : Canon s) : Canon (sendRow s p k r') :=
  .ite h.wr.wrapInc.setPlot.flights.sendRowPacket.setBg h.wr.wrapInc.setPlot.flights.sendRowPacket.chanAdvance

protected theorem Canon.remoteSendOp {p k : Nat} (h : Canon s) : Canon (remoteSendOp s p k) := by
  unfold remoteSendOp
  split
  · exact h
  · exact .ite h.setPlot.ctxFault (.ite h h.sendRow)

protected theorem Canon.refuseWrite {p w reason : Nat} {q : Packet} (h : Canon s) :
    Canon (refuseWrite s p w reason q) :=
  h.satInc.satInc.wr.wr.wr.hedgeEvent.sendNak

protected theorem Canon.acceptWrite {p w : Nat} {q : Packet} {data : List Byte} (h : Canon s) :
    Canon (acceptWrite s p w q data) :=
  (h.writeRow rfl).wrapInc.wr.wrapInc.sendAck

protected theorem Canon.inboundOp {q : Packet} {data : List Byte} (h : Canon s) : Canon (inboundOp s q data) := by
  unfold inboundOp
  refine .ite h.sendNak ?_
  split
  · exact h.acceptWrite
  · exact h.refuseWrite

protected theorem Canon.grantWindow {p w : Nat} (h : Canon s) : Canon (grantWindow s p w) :=
  h.injectPkt

protected theorem Canon.creditOp {q : Packet} (h : Canon s) : Canon (creditOp s q) := by
  unfold creditOp
  refine .ite h ?_
  split
  · exact h
  · exact .ite (Canon.ite h h.wr.wr).wr (.ite h h.wr.wr)

protected theorem Canon.creditReturnOp {p w : Nat} (h : Canon s) : Canon (creditReturnOp s p w) :=
  .ite h h.wr.injectPkt

/-! ### Graft units -/

protected theorem Canon.takeCap {k : Nat} (h : Canon s) : Canon (takeCap s k) := by
  unfold takeCap
  split
  · exact h
  · split
    · exact h
    · exact h.setGent.effectSet.showGraft

protected theorem Canon.judgeWindow {k clip bad rung : Nat} (h : Canon s) : Canon (judgeWindow s k clip bad rung) := by
  unfold judgeWindow
  split
  · exact h
  · extract_lets n wide s1 misfit e' s2
    have h1 : Canon s1 := .ite h.satInc.hedgeEvent h
    exact .ite h1 (.ite h1.setGent.satInc.hedgeEvent h1.setGent)

protected theorem Canon.windowEndOp {n slot : Nat} (h : Canon s) : Canon (windowEndOp s n slot) := by
  unfold windowEndOp
  dsimp only
  split
  · exact h
  · split
    · exact h
    · exact h.setGent.judgeWindow

protected theorem Canon.closePartial {k rung : Nat} (h : Canon s) : Canon (closePartial s k rung) := by
  unfold closePartial
  split
  · exact h
  · exact .ite h h.setGent.judgeWindow

protected theorem Canon.sendReady {e' : GEntry} {k : Nat} {d : GSend} {r} (h : Canon s)
    (e : sendReady e' k s d = r) : Canon r.1 := by
  induction k generalizing s d r with
  | zero => exact e ▸ h
  | succ k ih =>
    subst e
    unfold sendReady
    dsimp only
    split
    · exact h
    · exact ih h.injectPkt rfl

protected theorem Canon.rowBegin {d : GSend} {r} (h : Canon s) (e : rowBegin s d = r) : Canon r.1 := by
  subst e
  unfold rowBegin
  dsimp only
  split
  · split
    · exact h.takeCap.setGent
    · exact h.takeCap
  · exact h

protected theorem Canon.egressStep {d : GSend} {r} (h : Canon s) (e : egressStep s d = r) : Canon r.1 := by
  subst e
  unfold egressStep
  have h0 : Canon (rowBegin s d).1 := h.rowBegin rfl
  generalize rowBegin s d = r at h0 ⊢
  obtain ⟨u, d'⟩ := r
  replace h0 : Canon u := h0
  dsimp only
  split
  · exact h0
  · exact h0.setGent.wrapInc.wrapInc.satInc.sendReady rfl

protected theorem Canon.rwriteGraft {q : Packet} {port : Nat} (h : Canon s) : Canon (rwriteGraft s q port) := by
  unfold rwriteGraft
  split
  · exact h.graftRefuse
  · split
    · exact h.graftRefuse
    · exact (h.countRx rfl).inboundOp

protected theorem Canon.rwriteOp {q : Packet} {port : Nat} (h : Canon s) : Canon (rwriteOp s q port) :=
  .ite h.rwriteGraft h.inboundOp

protected theorem Canon.sendWide {q : Packet} {f k off : Nat} {l : List Nat} (h : Canon s) :
    Canon (sendWide q f k off l s) := by
  induction k generalizing s off l with
  | zero => exact h
  | succ k ih =>
    cases l with
    | nil => exact h
    | cons v l => exact ih h.injectPkt

protected theorem Canon.collSend {p c : Nat} {x : Coll} {die phase chunk : Nat} {l : List Nat} (h : Canon s) :
    Canon (collSend s p c x die phase chunk l) := by
  unfold collSend
  split
  · exact h.sendWide
  · split
    · exact h
    · exact h.setGent.queueSend

protected theorem Canon.sendVerdict {p c : Nat} {x : Coll} {die : Nat} (h : Canon s) :
    Canon (sendVerdict s p c x die) :=
  h.injectPkt

protected theorem Canon.setRx {p c : Nat} {l : List Rx} (h : Canon s) : Canon (State.setRx s p c l) :=
  h.graft

protected theorem Canon.setColls {p c : Nat} {l : List Coll} (h : Canon s) : Canon (State.setColls s p c l) :=
  h.graft

protected theorem Canon.collStep {p c : Nat} {x : Coll} {a : CAct} {r} (h : Canon s)
    (e : collStep s p c x a = some r) : Canon r.1 := by
  unfold collStep at e
  dsimp only at e
  split at e
  · split at e
    · exact Option.some.inj e ▸ h.sendVerdict
    · exact Option.some.inj e ▸ h.collSend
  · split at e
    · cases e
    · split at e
      · exact Option.some.inj e ▸ h.setRx
      · exact Option.some.inj e ▸ h.setRx

protected theorem Canon.collSteps {p c k : Nat} {l : List CAct} {x : Coll} {r} (h : Canon s)
    (e : collSteps p c l k s x = r) : Canon r.1 := by
  induction k generalizing s x r with
  | zero => exact e ▸ h
  | succ k ih =>
    subst e
    unfold collSteps
    split
    · exact h
    · split
      · exact h
      · next e => exact ih (h.collStep e) rfl

protected theorem Canon.startRun {p c : Nat} {x : Coll} (h : Canon s) : Canon (startRun s p c x) := by
  unfold startRun
  dsimp only
  refine h.foldl (fun _ _ h => ?_)
  split
  · exact h.takeCap.setGent
  · exact h.takeCap

protected theorem Canon.collFinish {p c : Nat} {x : Coll} {r} (h : Canon s) (e : collFinish s p c x = r) :
    Canon r.1 := by
  subst e
  unfold collFinish
  dsimp only
  split
  · exact h
  · refine ((h.foldl (fun _ _ h => h.writeRow rfl)).setColls.foldl (fun _ _ h => ?_)).setCtx
    split
    · exact h.setGent
    · exact h

protected theorem Canon.collAdvance {p c k : Nat} (h : Canon s) : Canon (collAdvance p c k s) := by
  induction k generalizing s with
  | zero => exact h
  | succ k ih =>
    unfold collAdvance
    split
    · exact h
    · next x rest _ =>
      extract_lets put finish l r s1 l2 r2
      have hput : ∀ {u : State} {y : Coll}, Canon u → Canon (put u y) := fun hu => hu.setColls
      have hfinish : ∀ {u : State} {y : Coll}, Canon u → Canon (finish u y) := by
        intro u y hu
        dsimp only [finish]
        split
        · next e => exact hput (hu.collFinish e)
        · next e =>
          have h1 := hu.collFinish e
          split
          · exact h1
          · exact ih h1.startRun.setColls
      split
      · have hr : Canon r.1 := h.collSteps rfl
        have h1 : Canon s1 := hr.foldl fun _ _ h => h.closePartial
        exact .ite (hput hr) (.ite (hput h1) (hfinish h1))
      · exact hput (h.collSteps rfl)
      · exact hfinish h
      · exact h

protected theorem Canon.collGo {p c : Nat} (h : Canon s) : Canon (collGo s p c) :=
  h.collAdvance

protected theorem Canon.collAccept {p c : Nat} {l b g : List Byte} (h : Canon s) : Canon (collAccept s p c l b g) := by
  unfold collAccept
  refine .ite h.ctxFault (.ite h.rangeFault (.ite h.rangeFault (.ite h.setWait ?_)))
  split
  · next e =>
    exact (Canon.ite (h.readRows e).startRun (h.readRows e)).setCtx.setColls.collGo.retireNext
  · next e => exact (h.readRows e).poisonFault
  · next e => exact h.readRows e

protected theorem Canon.collectiveOp {p c : Nat} (h : Canon s) : Canon (collectiveOp s p c) := by
  unfold collectiveOp
  refine h.issue (fun _ _ h => h.checked (fun _ h1 => ?_))
  split
  · next e2 =>
    refine (h1.readRow e2).checked (fun _ h3 => ?_)
    split
    · next e4 => exact (h3.readRow e4).collAccept
    · next e4 => exact (h3.readRow e4).poisonFault
    · next e4 => exact (h3.readRow e4).rangeFault
  · next e2 => exact (h1.readRow e2).poisonFault
  · next e2 => exact (h1.readRow e2).rangeFault

protected theorem Canon.addRx {q : Packet} {verdict : Bool} {off : Nat} {l : List Nat} (h : Canon s) :
    Canon (addRx s q verdict off l) :=
  h.setRx.collGo

protected theorem Canon.collOp {q : Packet} {port : Nat} (h : Canon s) : Canon (collOp s q port) := by
  unfold collOp
  refine .ite h (.ite h.addRx (.ite h.addRx ?_))
  split
  · exact h.graftRefuse
  · split
    · exact h.graftRefuse
    · exact (h.countRx rfl).addRx

protected theorem Canon.egressBlockOp {n : Nat} (h : Canon s) : Canon (egressBlockOp s n) := by
  unfold egressBlockOp
  split
  · exact h
  · exact .ite h (.ite (h.egressStep rfl).graft.showGraft (h.egressStep rfl).graft.showGraft.collGo)

protected theorem Canon.verdictRoundOp {p c : Nat} (h : Canon s) : Canon (verdictRoundOp s p c) := by
  unfold verdictRoundOp
  split
  · exact h
  · exact .ite h h.setColls.collGo

protected theorem Canon.countRerun {p c : Nat} {x : Coll} (h : Canon s) : Canon (countRerun s p c x) := by
  unfold countRerun
  refine h.foldl (fun _ _ h => ?_)
  split
  · exact h.setGent.satInc.hedgeEvent
  · exact h

protected theorem Canon.verdictCompleteOp {p c : Nat} (h : Canon s) : Canon (verdictCompleteOp s p c) := by
  unfold verdictCompleteOp
  split
  · exact h
  · exact .ite h.collGo (.ite h (.ite h.countRerun.startRun.setColls.collGo h.setColls.collGo))

/-! ### Table keys -/

protected theorem Canon.setTbl {t : Nat} {x : Tbl} (h : Canon s) : Canon (State.setTbl s t x) :=
  h.tbls

/-! ### The Row Cache -/

protected theorem Canon.rwcLookup {tkey row n : Nat} {r} (h : Canon s) (e : rwcLookup s tkey row n = r) :
    Canon r.1 := by
  subst e
  unfold rwcLookup
  dsimp only
  split
  · exact h.wrapInc.wrapInc
  · split
    · exact h.wrapInc.wrapInc
    · split
      · exact h.wrapInc
      · exact h.wrapInc.wrapInc.rwc

protected theorem Canon.rwcFillStart {tkey row : Nat} {data : List Byte} {prefetch : Bool} (h : Canon s) :
    Canon (rwcFillStart s tkey row data prefetch) :=
  .ite h h.rwc

protected theorem Canon.rowCacheFillOp {i : Nat} (h : Canon s) : Canon (rowCacheFillOp s i) := by
  unfold rowCacheFillOp
  split
  · exact h
  · refine .ite h.rwc.wrapInc (.ite h.rwc ?_)
    split
    · exact h.rwc.wrapInc
    · exact h.rwc.wrapInc.rwc

protected theorem Canon.cacheDecayOp (h : Canon s) : Canon (cacheDecayOp s) :=
  .ite h h.rwc

protected theorem Canon.rwcDrop {p : Nat → Nat → Bool} (h : Canon s) : Canon (rwcDrop s p) :=
  h.rwc

protected theorem Canon.rwcDropAll (h : Canon s) : Canon (rwcDropAll s) :=
  h.rwcDrop

protected theorem Canon.rwcDropKey {tkey : Nat} (h : Canon s) : Canon (rwcDropKey s tkey) :=
  h.rwcDrop

protected theorem Canon.epochAdvance (h : Canon s) : Canon (epochAdvance s) :=
  h.wrapInc.effectSet.rwcDropAll

protected theorem Canon.rwcInvStart {tkey : Nat} (h : Canon s) : Canon (rwcInvStart s tkey) :=
  h.wr.rwc

protected theorem Canon.invalidationCompleteOp (h : Canon s) : Canon (invalidationCompleteOp s) := by
  unfold invalidationCompleteOp
  split
  · exact h
  · exact .ite (h.rwc.rwcDropKey.wrb.hedgeEvent.rwc.foldl (fun _ _ h => h.finish)) h.rwc.rwcDropKey.wrb.hedgeEvent

/-! ### Furrow -/

protected theorem Canon.injectAll {l : List Packet} (h : Canon s) : Canon (injectAll s l) :=
  h.foldl (fun _ _ h => h.injectPkt)

protected theorem Canon.takeStream {l : List Packet} (h : Canon s) : Canon (takeStream s l) :=
  h.foldl (fun _ _ h => h.takeInbox)

protected theorem Canon.badStream {l : List Packet} {port : Nat} (h : Canon s) : Canon (badStream s l port) := by
  unfold badStream
  split
  · exact .ite h.linkViolation h
  · exact h

protected theorem Canon.setFur {u : Nat} {x : Furrow} (h : Canon s) : Canon (State.setFur s u x) :=
  h.furrow.wrb

protected theorem Canon.pushPart {u : Nat} {x : FPart} (h : Canon s) : Canon (pushPart s u x) :=
  h.setFur

protected theorem Canon.furError {u addr : Nat} (h : Canon s) : Canon (furError s u addr) :=
  .ite h h.wr.wr.wr.hedgeLevel

protected theorem Canon.sendScratch {u : Nat} {l : List Packet} (h : Canon s) : Canon (sendScratch s u l) :=
  h.foldl (fun _ _ h => h.flights.injectPkt)

protected theorem Canon.partPooledOp {u : Nat} (h : Canon s) : Canon (partPooledOp s u) := by
  unfold partPooledOp
  split
  · exact h
  · exact ((h.setFur.wrapInc.hbmActivity.foldl (fun _ _ h => h.rwcFillStart)).foldl
        (fun _ _ h => h.furError.hbmRecord)).wrapInc.sendScratch

protected theorem Canon.lookupRows {t : Nat} {l : List Nat} {m : FMap (List Byte)} {r} (h : Canon s)
    (e : lookupRows t l s m = r) : Canon r.1 := by
  induction l generalizing s m r with
  | nil => exact e ▸ h
  | cons x l ih =>
    subst e
    unfold lookupRows
    dsimp only
    split
    · next e => exact ih (h.rwcLookup e) rfl
    · next e => exact ih (h.rwcLookup e) rfl

protected theorem Canon.greqOp {l : List Packet} (h : Canon s) : Canon (greqOp s l) := by
  unfold greqOp
  split
  · exact h
  · refine .ite h ?_
    split
    · exact h.takeStream.sendNak
    · refine .ite h ?_
      split
      · exact h.takeStream.badStream
      · exact (h.takeStream.wrapInc.wrapInc.lookupRows rfl).rwc.foldl (fun _ _ h => h.pushPart)

protected theorem Canon.prefetchRows {t : Nat} {rows : List Nat} (h : Canon s) : Canon (prefetchRows s t rows) :=
  h.foldl (fun _ _ h => .ite h (.ite h.hbmActivity.hbmRecord h.hbmActivity.rwcFillStart))

protected theorem Canon.pfetchOp {l : List Packet} (h : Canon s) : Canon (pfetchOp s l) := by
  unfold pfetchOp
  dsimp only
  split
  · exact h
  · refine .ite h ?_
    split
    · exact h.takeStream
    · exact .ite h.takeStream.badStream h.takeStream.prefetchRows

/-! ### Sieves -/

protected theorem Canon.withGather {p c : Nat} {act : State → List Byte → List Byte → State}
    (h : Canon s) (hact : ∀ s' x1 x2, Canon s' → Canon (act s' x1 x2)) :
    Canon (withGather s p c act) := by
  unfold withGather
  refine h.issue (fun _ _ h => h.checked (fun _ h1 => ?_))
  split
  · next e2 => exact .ite (hact _ _ _ (h1.readRow e2)) (h1.readRow e2).ctxFault
  · next e2 => exact (h1.readRow e2).poisonFault
  · next e2 => exact (h1.readRow e2).rangeFault

protected theorem Canon.gatherOp {p c : Nat} (h : Canon s) : Canon (gatherOp s p c) :=
  h.withGather (fun _ _ _ h => h.setWait)

protected theorem Canon.setGbuf {k : Nat} {g : Gather} (h : Canon s) : Canon (State.setGbuf s k g) :=
  h.sieves

protected theorem Canon.freeBuf {k : Nat} (h : Canon s) : Canon (freeBuf s k) :=
  h.sieves.showSieve

protected theorem Canon.dropPrefetch {i : Nat} (h : Canon s) : Canon (dropPrefetch s i) :=
  h.foldl (fun _ _ h => h.freeBuf.satInc.hedgeEvent)

protected theorem Canon.enterBuf {p c i b : Nat} {l d data : List Byte} (h : Canon s) :
    Canon (enterBuf s p c i b l d data) := by
  unfold enterBuf
  extract_lets n slot pf s1 s2 x s3 g
  have h2 : Canon s2 := .ite h.retireNext h.retireNext.dropPrefetch
  have h3 : Canon s3 := .ite h2 h2.setCtx
  exact h3.setGbuf.showSieve

protected theorem Canon.streamIn {p c i b : Nat} {l d : List Byte} (h : Canon s) : Canon (streamIn s p c i b l d) := by
  unfold streamIn
  refine .ite h.rangeFault (.ite h.setWait ?_)
  split
  · next e =>
    exact .ite (h.readRows e).ctxFault (.ite (h.readRows e).ctxFault (h.readRows e).enterBuf)
  · next e => exact (h.readRows e).poisonFault
  · next e => exact h.readRows e

protected theorem Canon.bufferGrantOp {i : Nat} (h : Canon s) : Canon (bufferGrantOp s i) := by
  unfold bufferGrantOp
  dsimp only
  split
  · exact h.sieveLast.withGather (fun _ _ _ h => h.streamIn)
  · exact h

protected theorem Canon.indexFault {i k : Nat} {g : Gather} {t idx : Nat} (h : Canon s) :
    Canon (indexFault s i k g t idx) := by
  unfold indexFault
  dsimp only
  split
  · exact (Canon.ite h.freeBuf.hedgeEvent.setTbl.setJob h.freeBuf.hedgeEvent.setTbl).endJob
  · exact h.freeBuf.hedgeEvent.setTbl.haltPlot

protected theorem Canon.sortCompleteOp {i b : Nat} (h : Canon s) : Canon (sortCompleteOp s i b) := by
  unfold sortCompleteOp
  dsimp only
  split
  · exact h
  · refine .ite h ?_
    split
    · exact h.indexFault
    · refine .ite ?_ ?_
      · split
        · exact h.wrapInc.wrapInc.setGbuf
        · exact h.wrapInc.wrapInc.ctxFault
      · split
        · exact h.wrapInc.wrapInc.setGbuf
        · exact h.wrapInc.wrapInc.ctxFault

protected theorem Canon.gatherDone {k : Nat} {g : Gather} (h : Canon s) : Canon (gatherDone s k g) := by
  unfold gatherDone
  refine (Canon.setCtx ?_).rwc.freeBuf
  split
  · refine (h.foldl (fun _ _ h => ?_)).setJob
    split
    · exact h.setTbl
    · exact h
  · refine h.foldl (fun _ _ h => ?_)
    split
    · exact h.setTbl
    · exact h

protected theorem Canon.lookupAll {l : List (Nat × Nat)} {m : FMap (List Byte)} {r} (h : Canon s)
    (e : lookupAll l s m = r) : Canon r.1 := by
  induction l generalizing s m r with
  | nil => exact e ▸ h
  | cons x l ih =>
    subst e
    unfold lookupAll
    dsimp only
    split
    · next e => exact ih (h.rwcLookup e) rfl
    · next e => exact ih (h.rwcLookup e) rfl

protected theorem Canon.sendGroups {g : Gather} {parts : List Part} (h : Canon s) : Canon (sendGroups s g parts) :=
  h.foldl (fun _ _ h => h.injectAll)

protected theorem Canon.waveRead {k : Nat} {g : Gather} (h : Canon s) : Canon (waveRead s k g) :=
  (((h.lookupAll rfl).foldl (fun _ _ h => h.writeRow rfl)).foldl (fun _ _ h => h.pushPart)).sendGroups.setGbuf

protected theorem Canon.rowGrad {g : Gather} {elems : Nat} {l : List (Nat × Nat × Nat)} {acc : Option (List Nat)} {r}
    (h : Canon s) (e : rowGrad g elems l s acc = r) : Canon r.1 := by
  induction l generalizing s acc r with
  | nil => exact e ▸ h
  | cons x l ih =>
    subst e
    unfold rowGrad
    dsimp only
    split
    · exact ih h rfl
    · split
      · next e => exact ih (h.readRows e) rfl
      · next e => exact (h.readRows e :)

protected theorem Canon.formGrads {g : Gather} {l : List GRow} {r} (h : Canon s) (e : formGrads g l s = r) :
    Canon r.1 := by
  induction l generalizing s r with
  | nil => exact e ▸ h
  | cons x l ih =>
    subst e
    unfold formGrads
    split
    · next e => exact (h.rowGrad e :)
    · next e =>
      have h1 := h.rowGrad e
      dsimp only
      split
      · next e => exact (ih h1.writeRowsFrom e :)
      · next e => exact (ih h1.writeRowsFrom e :)

protected theorem Canon.sendUpdates {g : Gather} {rows : List (GRow × List Byte)} (h : Canon s) :
    Canon (sendUpdates s g rows) :=
  (h.flights.foldl (fun _ _ h => h.setFur)).foldl (fun _ _ h => h.injectAll)

protected theorem Canon.sendEnds {g : Gather} (h : Canon s) : Canon (sendEnds s g) :=
  .ite h (h.foldl (fun _ _ h => (h.foldl (fun _ _ h1 => h1.injectPkt)).upd))

protected theorem Canon.waveUpdate {k : Nat} {g : Gather} (h : Canon s) : Canon (waveUpdate s k g) := by
  unfold waveUpdate
  split
  · next e => exact (h.formGrads e).poisonFault
  · next e =>
    exact .ite (h.formGrads e).sendUpdates.setGbuf (.ite (h.formGrads e).sendUpdates.sendEnds.gatherDone
        (h.formGrads e).sendUpdates.sendEnds.setGbuf)

protected theorem Canon.waveStartOp {i b : Nat} (h : Canon s) : Canon (waveStartOp s i b) := by
  unfold waveStartOp
  split
  · exact h
  · exact .ite h (.ite h.waveUpdate h.waveRead)

protected theorem Canon.updateAcked {p c n : Nat} (h : Canon s) : Canon (updateAcked s p c n) := by
  unfold updateAcked
  split
  · exact h
  · exact .ite h.gatherDone h.setGbuf

protected theorem Canon.scratchOp {q : Packet} (h : Canon s) : Canon (scratchOp s q) := by
  unfold scratchOp
  dsimp only
  refine .ite h ?_
  split
  · exact h.sendAck
  · exact .ite h.sendAck.ctxFault (h.sendAck.writeRow rfl).setGbuf

protected theorem Canon.partVec {g : Gather} {p : Part} {r} (h : Canon s) (e : partVec g s p = r) : Canon r.1 := by
  subst e
  unfold partVec
  dsimp only
  split
  · refine Canon.foldlVia (fun a : State × Option (List (Nat × List Byte)) => a.1) h fun a t ha => ?_
    split
    · exact ha
    · split
      · next e => exact ha.readRow e
      · next e => exact ha.readRow e
  · split
    · next e => exact h.readRows e
    · next e => exact h.readRows e

protected theorem Canon.sumParts {g : Gather} {l : List Part} {acc : Option (List Nat)} {r} (h : Canon s)
    (e : sumParts g l s acc = r) : Canon r.1 := by
  induction l generalizing s acc r with
  | nil => exact e ▸ h
  | cons x l ih =>
    subst e
    unfold sumParts
    split
    · next e => exact (h.partVec e :)
    · next e => exact ih (h.partVec e) rfl

protected theorem Canon.bagVec {g : Gather} {bag : Nat} {y : Bag} {r} (h : Canon s) (e : bagVec g s bag y = r) :
    Canon r.1 := by
  subst e
  unfold bagVec
  dsimp only
  split
  · exact h
  · split
    · next e => exact (h.sumParts e :)
    · next e =>
      have h1 := h.sumParts e
      split
      · exact h1
      · split
        · next e => exact (h1.sumParts e :)
        · next e => exact (h1.sumParts e :)

protected theorem Canon.writeOut {g : Gather} {row : Nat} {rows : List (List Byte)} {go : State → State}
    (h : Canon s) (hgo : ∀ s', Canon s' → Canon (go s')) :
    Canon (writeOut s g row rows go) :=
  .ite h.setBg (hgo _ h.writeRowsFrom)

protected theorem Canon.writeMasks {k : Nat} {g : Gather} {l : List Nat} (h : Canon s) :
    Canon (writeMasks k g l s) := by
  induction l generalizing s with
  | nil => exact h.gatherDone
  | cons i l ih => exact h.writeOut fun _ h => ih h

protected theorem Canon.waveDone {k : Nat} {g : Gather} (h : Canon s) : Canon (waveDone s k g) := by
  unfold waveDone
  refine .ite h.setGbuf ?_
  split
  · exact h.setGbuf.setBg
  · exact h.writeMasks

protected theorem Canon.bagCombineOp {i b : Nat} (h : Canon s) : Canon (bagCombineOp s i b) := by
  unfold bagCombineOp
  split
  · exact h
  · refine .ite h ?_
    split
    · exact h.waveDone
    · refine .ite h.waveDone (.ite h ?_)
      split
      · next e => exact (h.bagVec e).poisonFault
      · next e =>
        exact (h.bagVec e).writeOut (fun _ h1 => .ite h1.charge.setGbuf h1.charge.waveDone)

protected theorem Canon.prefetchBatchOp {i : Nat} (h : Canon s) : Canon (prefetchBatchOp s i) := by
  unfold prefetchBatchOp
  refine .ite h ?_
  split
  · exact h
  · exact .ite h ((h.freeBuf.wrapInc.wrapInc.foldl (fun _ _ h => h.prefetchRows)).foldl (fun _ _ h => h.injectAll))

/-! ### Leases and fences -/

protected theorem Canon.setPlan {x : Plan} (h : Canon s) : Canon (setPlan s x) :=
  h.upd

protected theorem Canon.movePlan {x y : Plan} (h : Canon s) : Canon (movePlan s x y) :=
  h.setPlan

protected theorem Canon.beginFence {cls a b trigger old new die agent name gtag func : Nat} (h : Canon s) :
    Canon (beginFence s cls a b trigger old new die agent name gtag func) :=
  h.wr.wr.wr.wr.wr.wr.satInc.faultRecord.faultVector.fences

protected theorem Canon.fenceWindow {p w trigger : Nat} (h : Canon s) : Canon (fenceWindow s p w trigger) :=
  .ite h h.wr.beginFence

protected theorem Canon.fenceWriter {tkey die trigger : Nat} (h : Canon s) :
    Canon (fenceWriter s tkey die trigger) := by
  unfold fenceWriter
  split
  · exact h
  · split
    · exact h
    · exact .ite h h.setPlan.upd.beginFence

protected theorem Canon.fenceLocks {u trigger : Nat} (h : Canon s) : Canon (fenceLocks s u trigger) :=
  .ite h h.wr.beginFence

protected theorem Canon.writerTimeoutOp {tkey : Nat} (h : Canon s) : Canon (writerTimeoutOp s tkey) := by
  unfold writerTimeoutOp
  split
  · exact h
  · split
    · exact h
    · exact .ite h.fenceWriter h

protected theorem Canon.dropLeaving (h : Canon s) : Canon (dropLeaving s) :=
  h.upd

protected theorem Canon.reclaim {f : Fence} (h : Canon s) : Canon (reclaim s f) := by
  unfold reclaim
  split
  · exact h.wr
  · split
    · exact h.movePlan
    · exact h
  · exact h.wr

protected theorem Canon.drainExpiryOp {i : Nat} (h : Canon s) : Canon (drainExpiryOp s i) := by
  unfold drainExpiryOp
  split
  · exact h
  · exact .ite h h.fences.reclaim.satInc.dropLeaving

protected theorem Canon.dropInstalled {job leader : Nat} (h : Canon s) : Canon (dropInstalled s job leader) := by
  have hd : ∀ x y, Canon { s with upd := x, graft := y } := fun _ _ => h.same rfl rfl rfl rfl
  exact (hd _ _).dropLeaving.showGrafts

protected theorem Canon.releaseOp {q : Packet} (h : Canon s) : Canon (releaseOp s q) := by
  unfold releaseOp
  exact ((h.foldl (fun _ _ h => .ite h.fenceWindow h)).foldl (fun _ _ h => h.fenceWriter)).dropInstalled

protected theorem Canon.leaseOp {q : Packet} (h : Canon s) : Canon (leaseOp s q) :=
  .ite h.upd h

/-! ### Row updates -/

protected theorem Canon.refuseUpdate {q : Packet} {u code detail : Nat} (h : Canon s) :
    Canon (refuseUpdate s q u code detail) :=
  h.satInc.sendNak

protected theorem Canon.updateOp {l : List Packet} (h : Canon s) : Canon (updateOp s l) := by
  unfold updateOp
  dsimp only
  split
  · exact h
  · refine .ite h ?_
    split
    · exact h.takeStream.sendNak
    · refine .ite h ?_
      split
      · exact h.takeStream.badStream
      · split
        · exact h.takeStream.refuseUpdate
        · split
          · exact h.takeStream.refuseUpdate
          · refine Canon.foldl ?_ (fun _ _ h => h.setFur)
            split
            · exact h.takeStream.setPlan
            · exact h.takeStream

protected theorem Canon.updateEndOp {q : Packet} (h : Canon s) : Canon (updateEndOp s q) := by
  unfold updateEndOp
  refine .ite h ?_
  split
  · exact h.sendNak
  · split
    · exact h.movePlan
    · exact h.refuseUpdate
    · exact h

protected theorem Canon.updError {u kind addr writer : Nat} (h : Canon s) : Canon (updError s u kind addr writer) :=
  .ite h h.wr.wr.wr.wr.hedgeLevel

protected theorem Canon.ackUpdate {x : FUpd} {skip fault : Bool} (h : Canon s) : Canon (ackUpdate s x skip fault) :=
  h.injectPkt

protected theorem Canon.applyUpd {u t : Nat} {x : FUpd} {ue : Bool} (h : Canon s) : Canon (applyUpd s u t x ue) := by
  unfold applyUpd
  refine .ite (Canon.ite h.hbmActivity.hbmUe h.hbmActivity).satInc.hbmRecord.furError.updError.ackUpdate ?_
  split
  · exact (Canon.ite h.hbmActivity.hbmUe h.hbmActivity).satInc.updError.ackUpdate
  · exact (Canon.ite h.hbmActivity.hbmUe h.hbmActivity).hbmWrite.hbmActivity.satInc.wrapInc.rwcDrop.ackUpdate

protected theorem Canon.rowUpdateOp {u : Nat} {ue : Bool} (h : Canon s) : Canon (rowUpdateOp s u ue) := by
  unfold rowUpdateOp
  dsimp only
  split
  · exact h
  · split
    · exact h.setFur.applyUpd
    · exact h.setFur

/-- A loop over states that may give up. -/
protected theorem Canon.foldlSome {α : Type} {g : Option State → α → Option State} {l : List α} {o : Option State}
    (ho : ∀ s, o = some s → Canon s) (hn : ∀ x, g none x = none)
    (hg : ∀ s x t, Canon s → g (some s) x = some t → Canon t) : ∀ t, l.foldl g o = some t → Canon t := by
  induction l generalizing o with
  | nil => exact ho
  | cons x l ih =>
    refine ih fun t e => ?_
    cases o with
    | none => rw [hn] at e; cases e
    | some s => exact hg s x t (ho s rfl) e

/-! ### Installation -/

protected theorem Canon.installEntry {keep : Bool} {plan job leader : Nat} {x observers tensor books} {r} (h : Canon s)
    (e : installEntry s keep plan job leader x observers tensor books = some r) : Canon r := by
  refine Canon.foldlSome (fun _ e => Option.some.inj e ▸ h) (fun _ => rfl) (fun u x t hu e => ?_) r e
  dsimp only at e
  split at e
  · obtain ⟨i, -, rfl⟩ := Option.map_eq_some_iff.mp e
    exact hu.setGent.showGraft
  · cases e

protected theorem Canon.installPlan {x : List Byte} {job leader : Nat} {slot : Option Nat} {r} (h : Canon s)
    (e : installPlan s x job leader slot = some r) : Canon r := by
  unfold installPlan at e
  split at e
  · exact Option.some.inj e ▸ h
  · split at e
    · cases e
    · have hd : ∀ x y, Canon { s with upd := x, rwc := y } := fun _ _ => h.same rfl rfl rfl rfl
      exact Option.some.inj e ▸ (hd _ _).foldl fun _ _ h => h.injectPkt

protected theorem Canon.installOwn {j : Nat} {r} (h : Canon s) (e : installOwn s j = some r) : Canon r := by
  refine Canon.foldlSome (Canon.foldlSome (fun _ e => Option.some.inj e ▸ h) (fun _ => rfl) fun u x t hu e => ?_)
    (fun _ => rfl) (fun u x t hu e => ?_) r e
  · exact hu.installEntry e
  · exact hu.upd.installPlan e

protected theorem Canon.removeOwn {j : Nat} (h : Canon s) : Canon (removeOwn s j) :=
  h.dropJobEntries.upd.dropLeaving

protected theorem Canon.installAll {job leader plan : Nat} {l : List (Nat × List Byte)} {a : State × Nat} {r}
    (h : Canon a.1) (e : installAll job leader plan l a = r) : Canon r.1 := by
  induction l generalizing a r with
  | nil => exact e ▸ h
  | cons x l ih =>
    subst e
    unfold installAll
    split
    · dsimp only
      split
      · next e => exact ih (h.installEntry e) rfl
      · exact h
    · split
      · split
        · next e => exact ih (h.installPlan e) rfl
        · exact h
      · exact ih (a := (a.1, if x.1 = 2 then a.2 + 1 else a.2)) h rfl

protected theorem Canon.installOp {l : List Packet} (h : Canon s) : Canon (installOp s l) := by
  unfold installOp
  split
  · exact h
  · exact .ite h (.ite h.takeStream.badStream (h.takeStream.freeNext.installAll rfl).sendAck)

/-! ### The Cloche SRAM -/

protected theorem Canon.sramPut {a : Nat} {l : List Byte} (h : Canon s) : Canon (sramPut s a l) := by
  induction l generalizing s a with
  | nil => exact h
  | cons b r ih => exact ih (.ite h.cloche h)

protected theorem Canon.sramLost (h : Canon s) : Canon (sramLost s) := h.same rfl rfl rfl rfl

protected theorem Canon.sramLostAll (h : Canon s) : Canon (sramLostAll s) := h.same rfl rfl rfl rfl

/-! ### The flash controller -/

protected theorem Canon.flashDone (h : Canon s) : Canon (flashDone s) :=
  h.wr.hedgeEvent

protected theorem Canon.flashFail {cause addr : Nat} (h : Canon s) : Canon (flashFail s cause addr) :=
  h.wr.wr.wr.hedgeEvent

protected theorem Canon.dropOwner {o : FlashOwner} (h : Canon s) : Canon (dropOwner s o) :=
  h.flash

protected theorem Canon.ownerDone {o : FlashOwner} (h : Canon s) : Canon (ownerDone s o) := by
  unfold ownerDone
  refine .ite h ?_
  split
  · exact h.finish
  · exact h.emit
  · exact h.setReserved.flushLogWait.logCaughtUp
  · exact h.flash
  · exact h

protected theorem Canon.ownerFail {o : FlashOwner} {cause value : Nat} (h : Canon s) :
    Canon (ownerFail s o cause value) := by
  unfold ownerFail
  split
  · exact h.dropOwner.failCmd
  · exact h.dropOwner.emit
  · exact h.dropOwner.flash
  · exact h.dropOwner.flash.wr.queueFlash
  · exact h.dropOwner

protected theorem Canon.busyFollows (h : Canon s) : Canon (busyFollows s) :=
  h.wrb.wrb

protected theorem Canon.setBank {b : Nat} {q : List FlashOp} (h : Canon s) : Canon (State.setBank s b q) :=
  .ite h.flash h.flash

protected theorem Canon.flcEraseOp {src : Src} (h : Canon s) : Canon (flcEraseOp s src) :=
  .ite h (.ite h.flashFail h.queueFlash)

protected theorem Canon.flcProgramOp {src : Src} (h : Canon s) : Canon (flcProgramOp s src) :=
  .ite h (.ite h.flashFail h.queueFlash)

protected theorem Canon.sectorEraseOp {b : Nat} (h : Canon s) : Canon (sectorEraseOp s b) := by
  unfold sectorEraseOp
  split
  · exact .ite h <| .ite h.setBank.flashFail.ownerFail.busyFollows <|
      .ite h.eraseSector.setBank h.eraseSector.setBank.flashDone.ownerDone.busyFollows
  · exact h

protected theorem Canon.segmentProgramOp {b : Nat} {verifyOk : Bool} (h : Canon s) :
    Canon (segmentProgramOp s b verifyOk) := by
  unfold segmentProgramOp
  split
  · exact .ite h <| .ite h.setBank.flashFail.ownerFail.busyFollows <|
      .ite h.undefSegment.setBank.flashFail.ownerFail.busyFollows <|
      .ite h.programSegment.setBank.flashDone.ownerDone.busyFollows h.programSegment.setBank
  · exact h

protected theorem Canon.rcvStatusOp {pecOk : Bool} (h : Canon s) : Canon (rcvStatusOp s pecOk) :=
  .ite h (.ite h.emit h.emit)

protected theorem Canon.rcvBeginOp {data : List Byte} {pecOk : Bool} (h : Canon s) : Canon (rcvBeginOp s data pecOk) :=
  .ite h (.ite h.emit h.flash.queueFlash)

protected theorem Canon.rcvDataOp {data : List Byte} {pecOk : Bool} (h : Canon s) : Canon (rcvDataOp s data pecOk) :=
  .ite h (.ite h.emit (.ite h.flash h.programSegment.programSegment.flash))

protected theorem Canon.rcvCommitOp {data : List Byte} {pecOk : Bool} {img : ImageCheck} (h : Canon s) :
    Canon (rcvCommitOp s data pecOk img) :=
  .ite h (.ite h.emit (.ite h.flash (h.writeSwap rfl).flash))

/-! ### The Cloche -/

protected theorem Canon.listenEnterOp (h : Canon s) : Canon (listenEnterOp s) :=
  .ite h h.wr.wr

protected theorem Canon.listenWakeOp {w : WakeSource} (h : Canon s) : Canon (listenWakeOp s w) :=
  .ite h.wr.wr h

protected theorem Canon.referenceStableOp (h : Canon s) : Canon (referenceStableOp s) :=
  .ite h.wr h

protected theorem Canon.timerCompare {n : Nat} (h : Canon s) : Canon (timerCompare s n) :=
  .ite h.cloche h

protected theorem Canon.timerCount {n : Nat} (h : Canon s) : Canon (timerCount s n) :=
  .ite h (.ite h.cloche (.ite (.ite h.cloche.wr.timerCompare h.cloche.wr) h.cloche.wr.timerCompare))

protected theorem Canon.timersCount {k : Nat} (h : Canon s) : Canon (timersCount k s) := by
  induction k generalizing s with
  | zero => exact h
  | succ k ih => exact ih (h.foldl fun _ _ h => h.timerCount)

protected theorem Canon.timerExpiryOp {n : Nat} (h : Canon s) : Canon (timerExpiryOp s n) :=
  .ite h.cloche.satInc.hedgeEvent h

protected theorem Canon.timerEnableOp {n : Nat} (h : Canon s) : Canon (timerEnableOp s n) :=
  .ite h h.cloche.wr.wr.timerCompare

protected theorem Canon.rtcSubAdvance {k : Nat} (h : Canon s) : Canon (rtcSubAdvance s k) :=
  h.cloche.wr

protected theorem Canon.holdupEnds (h : Canon s) : Canon (holdupEnds s) :=
  .ite (Canon.ite h.wr h).boot h

protected theorem Canon.heartbeat (h : Canon t) : Canon (heartbeat s t) :=
  .ite h.wrapInc.freeNext h

protected theorem Canon.tick (h : Canon s) : Canon (tick s) :=
  .ite h (Canon.ite h.wrapInc.timersCount.rtcSubAdvance.holdupEnds
    h.cloche.wrapInc.timersCount.wr.holdupEnds).heartbeat

protected theorem Canon.alarmCompare (h : Canon s) : Canon (alarmCompare s) :=
  .ite h.cloche h

protected theorem Canon.rtcTickOp (h : Canon s) : Canon (rtcTickOp s) :=
  .ite h (.ite h.wrapInc.wr.cloche.alarmCompare.gov h.wrapInc.wr.cloche.alarmCompare)

protected theorem Canon.rtcAlarmOp (h : Canon s) : Canon (rtcAlarmOp s) :=
  .ite h.cloche.hedgeEvent h

protected theorem Canon.kickOp (h : Canon s) : Canon (kickOp s) :=
  h.cloche

protected theorem Canon.gpiEdgeOp {n : Nat} {level : Bool} (h : Canon s) : Canon (gpiEdgeOp s n level) :=
  .ite h (.ite h.wr.wr.satInc.hedgeLevel h.wr)

protected theorem Canon.gpiLatchClear {mask : Nat} (h : Canon s) : Canon (gpiLatchClear s mask) :=
  h.foldl (fun _ _ h => .ite h.wr.hedgeLevel h)

protected theorem Canon.workPut {a : Nat} {l : List Byte} (h : Canon s) : Canon (workPut s a l) := by
  induction l generalizing s a with
  | nil => exact h
  | cons b r ih => exact ih (.ite h.sramPut h)

protected theorem Canon.spiStartOp (h : Canon s) : Canon (spiStartOp s) :=
  .ite h h.wr.emit

protected theorem Canon.spiCompleteOp {miso : List Byte} (h : Canon s) : Canon (spiCompleteOp s miso) :=
  .ite h.workPut.wr.hedgeEvent h

protected theorem Canon.pdmSampleOp {n sample : Nat} (h : Canon s) : Canon (pdmSampleOp s n sample) :=
  .ite h (.ite h.satInc (.ite h.workPut.wr.hedgeEvent h.workPut.wr))

protected theorem Canon.cmeBegin {addr : Nat} (h : Canon s) : Canon (cmeBegin s addr) :=
  .ite h.wr h.wr.wr.wr.cloche

protected theorem Canon.cmeStartOp {src : Src} (h : Canon s) : Canon (cmeStartOp s src) :=
  .ite h h.cmeBegin

protected theorem Canon.cmeFault {err : Nat} (h : Canon s) : Canon (cmeFault s err) :=
  h.wr.wr.wr.hedgeEvent

protected theorem Canon.flashEccCount {ecc : FlashEcc} (h : Canon s) : Canon (flashEccCount s ecc) := by
  unfold flashEccCount
  split
  · exact h.satInc.satInc.wr
  · exact h.satInc

protected theorem Canon.cmeStepOp {op : Nat} {ecc : FlashEcc} (h : Canon s) : Canon (cmeStepOp s op ecc) :=
  .ite h <| .ite h.cmeFault <| .ite h <| .ite h <| .ite h.flashEccCount.cmeFault <| .ite h.flashEccCount.cmeFault <|
    .ite h.flashEccCount.wr.wr.hedgeLevel (Canon.ite (Canon.ite h.flashEccCount.wrapInc
      h.flashEccCount).sramPut.hedgeEvent (Canon.ite h.flashEccCount.wrapInc h.flashEccCount).sramPut).cloche

protected theorem Canon.cmeRunAll {fuel : Nat} (h : Canon s) : Canon (cmeRunAll fuel s) := by
  induction fuel generalizing s with
  | zero => exact h
  | succ fuel ih => exact .ite (ih h.cmeStepOp) h

protected theorem Canon.dormantJobOp {trigger input : Nat} (h : Canon s) : Canon (dormantJobOp s trigger input) := by
  unfold dormantJobOp
  refine .ite h ?_
  split
  · exact h
  · split
    · exact h
    · exact .ite h.cmeBegin.cmeRunAll h.cmeBegin.cmeRunAll.wr.hedgeLevel.cloche

protected theorem Canon.benchHaltOp (h : Canon s) : Canon (benchHaltOp s) :=
  .ite h.wr.wr.freeNext h

protected theorem Canon.benchStepOp (h : Canon s) : Canon (benchStepOp s) :=
  .ite h.wr.freeNext h

/-! ### Power-up and boot -/

/-- A power-on reset lists no register and keeps HBM and flash. -/
protected theorem Canon.porBase (h : Canon s) : Canon (porBase s) := by
  obtain ⟨-, hhbm, hlisted, hflash⟩ := (State.memWf_iff s).1 h
  exact (State.memWf_iff _).2 ⟨rfl, hhbm, hlisted, hflash⟩

protected theorem Canon.keepFields {l : List Field} (h : Canon t) : Canon (keepFields s t l) :=
  h.foldl (fun _ _ h => h.wr)

protected theorem Canon.clearFields {l : List Field} (h : Canon s) : Canon (clearFields s l) :=
  h.foldl (fun _ _ h => h.wr)

protected theorem Canon.powerOnReset (h : Canon s) : Canon (powerOnReset s) :=
  h.porBase.keepFields.sramLost

protected theorem Canon.strapCapture {x : Straps} (h : Canon s) : Canon (strapCapture s x) :=
  h.wr.wr.wrb.wrb.wrb.wrb.wr.wrb.wrb.foldl (fun _ _ h => h.wrb)

protected theorem Canon.islandRailsUpOp (h : Canon s) : Canon (islandRailsUpOp s) :=
  .ite h h.boot

protected theorem Canon.riseEnd (h : Canon s) : Canon (riseEnd s) :=
  .ite h.wr.wr.wr.boot h.wr.wr.wr.boot.wr

protected theorem Canon.porstRiseOp {x : Straps} (h : Canon s) : Canon (porstRiseOp s x) :=
  .ite h h.powerOnReset.strapCapture.riseEnd

protected theorem Canon.holdInReset (h : Canon s) : Canon (holdInReset s) :=
  h.powerOnReset.boot

protected theorem Canon.porstFallOp (h : Canon s) : Canon (porstFallOp s) :=
  .ite h (.ite h.boot h.holdInReset)

protected theorem Canon.porstHoldoffOp (h : Canon s) : Canon (porstHoldoffOp s) :=
  .ite h.holdInReset h

protected theorem Canon.refclkTimeoutOp (h : Canon s) : Canon (refclkTimeoutOp s) :=
  .ite h.wr.wr.wr.wr.boot h

protected theorem Canon.islandLossEnd (h : Canon s) : Canon (islandLossEnd s) := by
  have ht : Canon ((clearFields (sramLostAll s) porKept).wr Reg.TOP_RSTCAUSE_POR [] 1) := h.sramLostAll.clearFields.wr
  unfold islandLossEnd
  generalize (clearFields (sramLostAll s) porKept).wr Reg.TOP_RSTCAUSE_POR [] 1 = t at ht
  exact ht.same rfl rfl rfl rfl

protected theorem Canon.islandRailsLossOp (h : Canon s) : Canon (islandRailsLossOp s) :=
  h.powerOnReset.islandLossEnd

protected theorem Canon.tryVcore (h : Canon s) : Canon (tryVcore s) :=
  .ite h.driveVid.wr.wr.boot h

protected theorem Canon.vcoreOff (h : Canon s) : Canon (vcoreOff s) :=
  h.wr.driveVid

protected theorem Canon.dieRecord {cause unit temp : Nat} (h : Canon s) : Canon (dieRecord s cause unit temp) :=
  h.faultRecord

protected theorem Canon.mainPgRiseOp (h : Canon s) : Canon (mainPgRiseOp s) :=
  .ite h.wr.tryVcore h

protected theorem Canon.powerUpFault (h : Canon s) : Canon (powerUpFault s) :=
  h.vcoreOff.wr.wr.boot.dieRecord

protected theorem Canon.mainPgTimeoutOp (h : Canon s) : Canon (mainPgTimeoutOp s) :=
  .ite h.powerUpFault h

protected theorem Canon.vcorePgTimeoutOp (h : Canon s) : Canon (vcorePgTimeoutOp s) :=
  .ite h.powerUpFault h

protected theorem Canon.vcorePgRiseOp {x : Fuses} (h : Canon s) : Canon (vcorePgRiseOp s x) :=
  .ite h ((h.wr.foldl (fun _ _ h => h.wr)).wr.wr.boot.foldl (fun _ _ h => .ite h.wr.setPortState h))

protected theorem Canon.plotBistOp {fail : Nat} (h : Canon s) : Canon (plotBistOp s fail) :=
  .ite h (h.wr.wr.wr.wrb.wrb.foldl (fun _ _ h => .ite h.wr.wr.wr h)).wr.boot

protected theorem Canon.hbmTrainingOp {best : List Nat} (h : Canon s) : Canon (hbmTrainingOp s best) :=
  .ite h (Canon.ite (h.foldl (fun _ _ h => h.wr.wrb.wrb)).wr (h.foldl (fun _ _ h => h.wr.wrb.wrb))).boot

/-- HBM with nothing listed, and nothing of it undefined. -/
protected theorem Canon.hbmCleared {b : Boot} (h : Canon s) :
    Canon { s with hbm := [], hbmPoison := [], hbmUndef := [], boot := b } := by
  obtain ⟨hregs, -, -, hflash⟩ := (State.memWf_iff s).1 h
  exact (State.memWf_iff _).2 ⟨hregs, rfl, fun _ he => absurd he List.not_mem_nil, hflash⟩

protected theorem Canon.hbmClearOp (h : Canon s) : Canon (hbmClearOp s) := by
  unfold hbmClearOp
  extract_lets s1 s2
  have h1 : Canon s1 := h.foldl fun _ _ h => h.wrb
  have h2 : Canon s2 := .ite h1.wr h1
  exact .ite h h2.hbmCleared

protected theorem Canon.recoveryEntry (h : Canon s) : Canon (recoveryEntry s) :=
  h.vcoreOff.wr.wr.wr.wr

protected theorem Canon.swapUpkeep (h : Canon s) : Canon (swapUpkeep s) :=
  .ite h h.eraseSector

protected theorem Canon.startImage {blk : Nat} {img : ImageCheck} (h : Canon s) : Canon (startImage s blk img) :=
  h.boot.wr.wr.wr.wr.kickOp.swapUpkeep.mountLog

protected theorem Canon.bootSelect {a b : ImageCheck} {r} (h : Canon s) (e : bootSelect s a b = r) : Canon r.1 := by
  subst e
  unfold bootSelect
  dsimp only
  split
  · split
    · exact (Canon.ite (h.writeSwap rfl) h).boot.wr.wrb.wr.wr.wr.wrb
    · exact (Canon.ite (h.writeSwap rfl) h).boot.wr.wrb.wr.wr.wr.wr.wr
  · split
    · exact (Canon.ite (h.writeSwap rfl) h).boot.wr.wrb.wr.wr.wr.wrb
    · exact (Canon.ite (h.writeSwap rfl) h).boot.wr.wrb.wr.wr.wr.wr.wr

protected theorem Canon.bootRecord (h : Canon s) : Canon (bootRecord s) :=
  h.faultRecord

protected theorem Canon.restartCmds (h : Canon s) : Canon (restartCmds s) :=
  h.disownOps.mbx

protected theorem Canon.bootImageOp {a b : ImageCheck} (h : Canon s) : Canon (bootImageOp s a b) := by
  unfold bootImageOp
  refine .ite h ?_
  split
  next u blk e =>
  have hsel : Canon u := h.bootSelect e
  split
  · exact hsel.recoveryEntry
  · extract_lets s1 s2 s3 s4 b4 e s5 s6
    have h1 : Canon s1 := hsel.startImage.bootRecord
    have h2 : Canon s2 := h1.wr
    have h3 : Canon s3 := by
      unfold s3
      split
      · exact h2.finish
      · exact h2
    have h4 : Canon s4 := h3.restartCmds
    have h5 : Canon s5 := h1.foldl fun _ _ h => h.wr
    exact .ite h4.boot h5.wr.wr.tryVcore

protected theorem Canon.islandRestart (h : Canon s) : Canon (islandRestart s) := by
  have hd : ∀ {u : State} x y, Canon u → Canon { u with boot := x, cloche := y } := fun _ _ h => h.same rfl rfl rfl rfl
  exact hd _ _ h.sramLost.wr.wr.wr.wr.wr

protected theorem Canon.watchdogOp (h : Canon s) : Canon (watchdogOp s) :=
  .ite h.wr.dieRecord.islandRestart.faultVectorAll h

protected theorem Canon.perstReleaseOp (h : Canon s) : Canon (perstReleaseOp s) := h.same rfl rfl rfl rfl

protected theorem Canon.pcieReadyOp (h : Canon s) : Canon (pcieReadyOp s) :=
  .ite h.mbx h

protected theorem Canon.pwrfailFallOp (h : Canon s) : Canon (pwrfailFallOp s) :=
  .ite h h.boot

protected theorem Canon.pwrfailRiseOp (h : Canon s) : Canon (pwrfailRiseOp s) :=
  .ite h h.wr.boot

protected theorem Canon.registerCut {cause : Nat} (h : Canon s) : Canon (registerCut s cause) := by
  unfold registerCut
  dsimp only
  exact .ite h (h.demandCloseOp.wr.wr.wr.wr.wr.flashCutAbort.hedgeEvent.holdupWrites rfl).wr.vcoreOff.wr.boot

protected theorem Canon.powerCutOp (h : Canon s) : Canon (powerCutOp s) :=
  .ite h.wr.registerCut h

protected theorem Canon.mainLossOp {r' : Rail} (h : Canon s) : Canon (mainLossOp s r') :=
  .ite h (.ite h.wr.registerCut h.wr)

protected theorem Canon.tsensOp {n temp : Nat} (h : Canon s) : Canon (tsensOp s n temp) :=
  .ite h h.wr.wr.wr

protected theorem Canon.replicaOp {p rate : Nat} (h : Canon s) : Canon (replicaOp s p rate) :=
  .ite h.wr.wr h

protected theorem Canon.paceSnapOp (h : Canon s) : Canon (paceSnapOp s) :=
  .ite h.wr (h.wr.wr.foldl (fun _ _ h => h.wr))

protected theorem Canon.paceAutoOp (h : Canon s) : Canon (paceAutoOp s) :=
  .ite h h.cloche.paceSnapOp

protected theorem Canon.paceCompleteOp (h : Canon s) : Canon (paceCompleteOp s) :=
  .ite h.wr.wrapInc.hedgeEvent h

protected theorem Canon.tckOp {tms tdi trstN rising : Bool} {pins : Nat} (h : Canon s) :
    Canon (tckOp s tms tdi trstN rising pins) := by
  unfold tckOp
  refine .ite h (.ite h.cloche (.ite h.cloche ?_))
  split
  · exact h.cloche
  · exact h.emit
  · exact h.emit
  · exact h.cloche
  · exact h.cloche
  · exact h

/-! ### Stores -/

protected theorem Canon.accessRange {p : Nat} {a : StoreAccess} (h : Canon s) : Canon (accessRange s p a) :=
  .ite h.rangeFault h

protected theorem Canon.accessOp {p : Nat} {a : StoreAccess} (h : Canon s) : Canon (accessOp s p a) := by
  unfold accessOp
  extract_lets st bg r
  have hbg : ∀ {u : State} {w}, Canon u → Canon (bg u w) := fun hu => .ite hu.setBg hu
  refine .ite h.accessRange (.ite ?_ ?_)
  · have hr : Canon r.1 := by
      dsimp only [r]
      split
      · exact h.writeRow rfl
      · exact h.writeWords rfl
    clear_value r
    obtain ⟨u, w⟩ := r
    cases w
    all_goals exact hbg hr
  · have h1 := (h.flushRow (p := p) (st := st) (row := a.row)).storeEcc (p := p) (st := st) (row := a.row)
      (agent := a.agent) (ctx := a.ctx) (ecc := a.ecc)
    split
    · next e => exact hbg (h1.readRow e)
    · next e => exact .ite (h1.readRow e).poisonFault (h1.readRow e)
    · next e => exact hbg (h1.readRow e)

protected theorem Canon.idleFlushOp {p e' : Nat} (h : Canon s) : Canon (idleFlushOp s p e') := by
  unfold idleFlushOp
  split
  · exact .ite h.flushEntry h
  · exact h

protected theorem Canon.storeScrubOp {p : Nat} {ecc : EccEvent} (h : Canon s) : Canon (storeScrubOp s p ecc) :=
  .ite h h.flushRow.storeEcc.setSto

protected theorem Canon.clearStart {p : Nat} (h : Canon s) : Canon (clearStart s p) :=
  .ite h h.setPlot.wr.showScoreboard

protected theorem Canon.clearStorage {p : Nat} (h : Canon s) : Canon (clearStorage s p) :=
  ((((h.setPlot.foldl (fun _ _ h => h.setCtx)).foldl (fun _ _ h => h.wr)).foldl (fun _ _ h => h.wr)).wr.wr.foldl
      (fun _ _ h => h.wr)).showArray.hedgeLevel.showScoreboard

protected theorem Canon.clearEnd {p : Nat} (h : Canon s) : Canon (clearEnd s p) :=
  .ite h.clearStorage.wr.wrapInc h

protected theorem Canon.debugReadOp {p i : Nat} {r} (h : Canon s) (e : debugReadOp s p i = r) : Canon r.2 := by
  subst e
  unfold debugReadOp
  split
  · exact h.flushRow
  · exact h

protected theorem Canon.debugWriteOp {p i v : Nat} (h : Canon s) : Canon (debugWriteOp s p i v) := by
  unfold debugWriteOp
  split
  · exact h.writeWords rfl
  · exact h

protected theorem Canon.numClearOp {p mask : Nat} (h : Canon s) : Canon (numClearOp s p mask) :=
  h.foldl (fun _ _ h => .ite h.wr.wr.wr.wr.wr.wr h)

protected theorem Canon.seedWriteOp {p : Nat} {die : Bool} {v : Nat} (h : Canon s) : Canon (seedWriteOp s p die v) :=
  .ite h (.ite h.wr h.wr)

/-! ### Signals and detectors -/

protected theorem Canon.refuseSignal {reason : Nat} {q : Packet} (h : Canon s) : Canon (refuseSignal s reason q) :=
  (Canon.ite h h.wr.wr.wr.wr.wr.hedgeLevel).sendNak

protected theorem Canon.addSignal {p c n inc : Nat} (h : Canon s) : Canon (addSignal s p c n inc) :=
  .ite h.wr h.wr.ctxFault

protected theorem Canon.signalDeliveryOp {q : Packet} (h : Canon s) : Canon (signalDeliveryOp s q) := by
  unfold signalDeliveryOp
  refine .ite h ?_
  split
  · exact (Canon.ite h.cloche h.addSignal).sendAck
  · exact h.refuseSignal

protected theorem Canon.takeFlight {q : Packet} {r} (h : Canon s) (e : takeFlight s q = r) : Canon r.1 := by
  subst e
  unfold takeFlight
  split
  · exact h.flights
  · exact h

protected theorem Canon.nakFault {k typ code : Nat} (h : Canon s) : Canon (nakFault s k typ code) :=
  h.ctxFaultAs

protected theorem Canon.qdArmOp {g v : Nat} (h : Canon s) : Canon (qdArmOp s g v) :=
  .ite h h.wr.wr.wr.wr.wr.wr.wr.wr.wr.wr.wr.wr.setQslot

protected theorem Canon.windowExpiryOp {g : Nat} (h : Canon s) : Canon (windowExpiryOp s g) :=
  .ite h.wr.injectPkt h

protected theorem Canon.startRound {g : Nat} (h : Canon s) : Canon (startRound s g) :=
  .ite (h.setQslot.foldl (fun _ _ h => h.injectPkt)) h

protected theorem Canon.quietOp {q : Packet} (h : Canon s) : Canon (quietOp s q) := by
  unfold quietOp
  split
  · exact .ite h.setQslot.startRound h
  · exact h

protected theorem Canon.latchSnap {g : Nat} (h : Canon s) : Canon (latchSnap s g) :=
  .ite h (h.foldl (fun _ _ h => h.foldl (fun _ _ h1 => h1.wr))).wr.setQslot

protected theorem Canon.probeOp {q : Packet} (h : Canon s) : Canon (probeOp s q) := by
  unfold probeOp
  split
  · exact h.injectPkt
  · exact .ite (Canon.ite h.latchSnap h).injectPkt h.injectPkt

protected theorem Canon.closeRound {g : Nat} (h : Canon s) : Canon (closeRound s g) :=
  .ite h (.ite (h.satInc.setQslot.foldl (fun _ _ h => h.injectPkt)) h.satInc.setQslot)

protected theorem Canon.answerOp {q : Packet} (h : Canon s) : Canon (answerOp s q) := by
  unfold answerOp
  split
  · exact .ite h.setQslot.closeRound h
  · exact h

protected theorem Canon.lostProbe {epoch : Nat} (h : Canon s) : Canon (lostProbe s epoch) := by
  unfold lostProbe
  split
  · exact h.setQslot.closeRound
  · exact h

protected theorem Canon.verdictOp {q : Packet} (h : Canon s) : Canon (verdictOp s q) := by
  unfold verdictOp
  dsimp only
  split
  · exact h
  · split
    · exact h.wr.hedgeEvent.setJob.endJob
    · exact h.wr.hedgeEvent

/-! ### Starting a job -/

protected theorem Canon.withJob {c : Cmd} {act : Nat → State} (h : Canon s) (hact : ∀ x0, Canon (act x0)) :
    Canon (withJob s c act) := by
  unfold withJob
  split
  · exact hact _
  · exact h.fail

protected theorem Canon.startTags {p : Nat} {r' : List Byte} (h : Canon s) : Canon (startTags s p r') :=
  h.setSto

protected theorem Canon.startWindow {r' : List Byte} (h : Canon s) : Canon (startWindow s r') :=
  (h.wr.wr.wr.wr.foldl (fun _ _ h => h.setTag)).wr.wr.wr.wr.wr.wr

protected theorem Canon.startCounter {r' : List Byte} (h : Canon s) : Canon (startCounter s r') :=
  h.wr.wr.wr.wr.wr.wr.wr.wr.wr

protected theorem Canon.startGroup {j : Nat} {r' : List Byte} (h : Canon s) : Canon (startGroup s j r') := by
  unfold startGroup
  refine .ite h ?_
  split
  · exact h
  · exact (h.foldl (fun _ _ h => h.wr)).wr.qdArmOp.rwc.setJob

protected theorem Canon.startCtx {p c entry : Nat} (h : Canon s) : Canon (startCtx s p c entry) :=
  ((h.dropSet.foldl (fun _ _ h => h.wr)).foldl (fun _ _ h => h.wr)).wr.wr.graft.setCtx.wr.showCtx

protected theorem Canon.startPlot {b : List Byte} {seed p : Nat} (h : Canon s) : Canon (startPlot s b seed p) := by
  unfold startPlot
  refine (((Canon.numClearOp ?_).foldl (fun _ _ h => h.wr)).foldl (fun _ _ h =>
      h.wr)).wr.wr.setPlot.showArray.flights.foldl (fun _ _ h => h.startCtx)
  split
  · exact h.startTags
  · exact h

protected theorem Canon.prepareStart {j seed : Nat} {r} (h : Canon s) (e : prepareStart s j seed = r) : Canon r.1 := by
  subst e
  unfold prepareStart
  extract_lets x b s1 s2 s3 s4 y steps s5
  have h1 : Canon s1 := h.foldl fun _ _ h => h.startPlot
  have h2 : Canon s2 := h1.foldl fun _ _ h => h.startWindow
  have h3 : Canon s3 := h2.foldl fun _ _ h => h.startCounter
  have h4 : Canon s4 := h3.foldl fun _ _ h => h.startGroup
  have h5 : Canon s5 := h4.setJob
  split
  · next e => exact h5.installOwn e
  · exact h5

protected theorem Canon.undoStart {j : Nat} (h : Canon s) : Canon (undoStart s j) :=
  (((h.foldl (fun _ _ h => h.closeWindows)).foldl (fun _ _ h => h.wr)).foldl
      (fun _ _ h => h.qdDisarmOp)).removeOwn.setJob

protected theorem Canon.abandonStart {j : Nat} {st : Status} {value : Nat} (h : Canon s) :
    Canon (abandonStart s j st value) := by
  unfold abandonStart
  dsimp only
  split
  · exact h
  · exact (h.undoStart.foldl (fun _ _ h => h.injectPkt)).failCmd

protected theorem Canon.goHere {j : Nat} (h : Canon s) : Canon (goHere s j) := by
  unfold goHere
  extract_lets x b s1 s2
  split
  · exact h
  · extract_lets s3 faulted s4
    have h3 : Canon s3 := (h.foldl fun _ _ h => h.grantWindow).setJob.finish
    have h4 : Canon s4 := h3.foldl fun _ _ h => h.foldl fun _ _ h => .ite h.wr h
    exact .ite h4.endJob (.ite h4.endJob h4)

protected theorem Canon.tryGo {j : Nat} (h : Canon s) : Canon (tryGo s j) := by
  unfold tryGo
  dsimp only
  split
  · exact h
  · exact .ite (h.foldl (fun _ _ h => h.injectPkt)).goHere h

protected theorem Canon.beginStart {c : Cmd} {j : Nat} (h : Canon s) : Canon (beginStart s c j) := by
  unfold beginStart
  exact .ite (h.setJob.running.prepareStart rfl).abandonStart (.ite
      ((h.setJob.running.prepareStart rfl).foldl (fun _ _ h => h.injectAll)).tryGo
      (h.setJob.running.prepareStart rfl).injectPkt)

protected theorem Canon.jobStartOp {f i : Nat} {buf : HostBuf} (h : Canon s) : Canon (jobStartOp s f i buf) :=
  h.acs (fun _ _ h => .ite (.ite h.fail (h.withJob (fun _ => .ite h.fail (.ite h.running h.beginStart))))
      (h.withBuffer (fun _ _ h1 => h1.withJob (fun _ => .ite h1.fail (.ite h1.running h1.beginStart)))))

protected theorem Canon.holdExpiryOp {f i : Nat} (h : Canon s) : Canon (holdExpiryOp s f i) := by
  unfold holdExpiryOp
  split
  · exact h
  · refine .ite h ?_
    split
    · exact h.fail
    · split
      · exact .ite h h.fail
      · exact .ite h.fail (.ite h h.beginStart)

protected theorem Canon.readyOp {q : Packet} (h : Canon s) : Canon (readyOp s q) := by
  unfold readyOp
  split
  · exact .ite h.setJob.tryGo h
  · exact h

protected theorem Canon.goOp {q : Packet} (h : Canon s) : Canon (goOp s q) := by
  unfold goOp
  split
  · exact .ite h.goHere h
  · exact h

protected theorem Canon.startAbortOp {q : Packet} (h : Canon s) : Canon (startAbortOp s q) := by
  unfold startAbortOp
  split
  · exact h.abandonStart
  · exact h.dropInstalled

protected theorem Canon.startTimeoutOp {j : Nat} (h : Canon s) : Canon (startTimeoutOp s j) := by
  unfold startTimeoutOp
  split
  · exact .ite h.abandonStart h
  · exact h

protected theorem Canon.installAcked {q : Packet} (h : Canon s) : Canon (installAcked s q) := by
  unfold installAcked
  split
  · exact .ite h.abandonStart h.setJob.tryGo
  · exact h

/-! ### The job commands -/

protected theorem Canon.loadProgram {r' : List Byte} (h : Canon s) : Canon (loadProgram s r') :=
  h.foldl (fun _ _ h => h.setPlot)

protected theorem Canon.loadImage {r' : List Byte} (h : Canon s) : Canon (loadImage s r') :=
  h.foldl (fun _ _ h => h.setSto.putRow.clearPoison.showScoreboard)

protected theorem Canon.showTrain (h : Canon s) : Canon (showTrain s) :=
  h.wrb

protected theorem Canon.loadBundle {c : Cmd} {b : List Byte} (h : Canon s) : Canon (loadBundle s c b) := by
  unfold loadBundle
  split
  · exact h
  · exact ((h.foldl (fun _ _ h => h.loadProgram)).foldl (fun _ _ h => h.loadImage)).setJob.showTrain.done

protected theorem Canon.jobLoadOp {f i : Nat} {buf : HostBuf} (h : Canon s) : Canon (jobLoadOp s f i buf) := by
  unfold jobLoadOp
  refine h.acs (fun _ _ h => h.withBuffer (fun _ _ h1 => ?_))
  split
  · exact h1.fail
  · exact .ite h1 h1.loadBundle

protected theorem Canon.unloadJob {j : Nat} (h : Canon s) : Canon (unloadJob s j) :=
  (((h.foldl (fun _ _ h => h.closeWindows)).foldl (fun _ _ h => h.qdDisarmOp)).removeOwn.upd.foldl
      (fun _ _ h => h.failCmd)).setJob.showTrain

protected theorem Canon.jobUnloadOp {f i : Nat} (h : Canon s) : Canon (jobUnloadOp s f i) :=
  h.acs (fun _ _ h => h.withJob (fun _ => .ite h.fail (.ite h h.unloadJob.done)))

protected theorem Canon.jobWaitOp {f i : Nat} (h : Canon s) : Canon (jobWaitOp s f i) :=
  h.acs (fun _ _ h => h.withJob (fun _ => .ite h.finishCode h.waiting))

protected theorem Canon.jobStatusOp {f i : Nat} (h : Canon s) : Canon (jobStatusOp s f i) :=
  h.acs (fun _ _ h => h.withJob (fun _ => h.done))

protected theorem Canon.abortDrainedOp {j : Nat} (h : Canon s) : Canon (abortDrainedOp s j) :=
  .ite h.endJob h

protected theorem Canon.jobAbortOp {f i : Nat} (h : Canon s) : Canon (jobAbortOp s f i) :=
  h.acs (fun _ _ h => h.withJob (fun _ => .ite h.done (h.running.foldl
      (fun _ _ h2 => h2.haltPlot)).setJob.abortDrainedOp))

protected theorem Canon.jobSubmitOp {f i : Nat} (h : Canon s) : Canon (jobSubmitOp s f i) :=
  h.acs (fun _ _ h => h.withJob (fun _ => .ite h.fail (.ite h.fail (.ite h.fail
      (.ite h.fail (.ite h.fail (.ite h.fail (.ite h.fail (.ite h.fail (.ite h.fail (.ite h h.setJob.waiting)))))))))))

protected theorem Canon.stageBatch {j : Nat} {data : HostBuf} (h : Canon s) : Canon (stageBatch s j data) := by
  unfold stageBatch
  dsimp only
  split
  · exact h
  · refine .ite h (.ite (.ite h.hbmWrite.setJob (.ite h.setJob.failCmd h.bulk.bulk.hbmWrite.setJob)) ?_)
    split
    · exact h.setJob.failCmd
    · exact h.bulk.hbmWrite.setJob

protected theorem Canon.boundaryAdvance {gtag ord : Nat} (h : Canon s) : Canon (boundaryAdvance s gtag ord) :=
  .ite h h.epochAdvance.rwc

protected theorem Canon.trainBoundary {j : Nat} (h : Canon s) : Canon (trainBoundary s j) :=
  .ite h (h.setJob.boundaryAdvance.foldl (fun _ _ h => h.injectPkt))

protected theorem Canon.releaseBatch {j : Nat} (h : Canon s) : Canon (releaseBatch s j) := by
  unfold releaseBatch
  dsimp only
  split
  · exact h
  · exact .ite h (h.trainBoundary.setJob.foldl (fun _ _ h => .ite h.addSignal h))

protected theorem Canon.batchDone {j : Nat} (h : Canon s) : Canon (batchDone s j) := by
  unfold batchDone
  dsimp only
  split
  · exact h
  · exact .ite h.setJob.trainBoundary h.setJob

protected theorem Canon.batchDoneOp {j : Nat} (h : Canon s) : Canon (batchDoneOp s j) := by
  unfold batchDoneOp
  dsimp only
  split
  · exact h
  · exact h.cloche.foldl (fun _ _ h => h.batchDone)

protected theorem Canon.outputCopied {j : Nat} {accepted : Bool} (h : Canon s) : Canon (outputCopied s j accepted) := by
  unfold outputCopied
  dsimp only
  split
  · exact h
  · exact .ite h.setJob.failCmd (.ite h.setJob.failCmd (Canon.ite h.setJob h.setJob.bulk.putBuffer).finish)

/-! ### Tenancy and BAR2 -/

protected theorem Canon.remapPf (h : Canon s) : Canon (remapPf s) :=
  h.foldl (fun _ _ h => h.wr.wrb.wrb)

protected theorem Canon.bar2ResizeOp {n : Nat} (h : Canon s) : Canon (bar2ResizeOp s n) :=
  .ite h h.mbx.remapPf

protected theorem Canon.bar2ReadPart {f off : Nat} {a : List Byte × Bool × State} {x : Nat × Nat × Nat × Nat} {r}
    (h : Canon a.2.2) (e : bar2ReadPart f off a x = r) :
    Canon r.2.2 := by
  subst e
  unfold bar2ReadPart
  dsimp only
  split
  · exact h.hostViolation
  · exact .ite h.bulk.satInc.hbmRecord h.bulk

protected theorem Canon.bar2ReadOp {f off len : Nat} (h : Canon s) : Canon (bar2ReadOp s f off len) :=
  .ite h (.ite h.emit (Canon.foldlVia (fun a : List Byte × Bool × State => a.2.2) h fun _ _ h => h.bar2ReadPart
      rfl).emit)

protected theorem Canon.hbmPutEn {a : Nat} {l : List (Byte × Bool)} (h : Canon s) : Canon (hbmPutEn s a l) := by
  induction l generalizing s a with
  | nil => exact h
  | cons b r ih => exact ih (.ite h.hbmPutByte h)

protected theorem Canon.hbmWriteEn {a : Nat} {l : List (Byte × Bool)} (h : Canon s) : Canon (hbmWriteEn s a l) :=
  h.hbmPutEn.hbmPoison

protected theorem Canon.bar2WritePart {f off : Nat} {l : List (Byte × Bool)} {s : State} {x : Nat × Nat × Nat × Nat}
    (h : Canon s) :
    Canon (bar2WritePart f off l s x) := by
  unfold bar2WritePart
  split
  · exact h.hostViolation
  · exact h.bulk.hbmWriteEn

protected theorem Canon.bar2WriteOp {f off : Nat} {data : List Byte} {enables : List Bool} (h : Canon s) :
    Canon (bar2WriteOp s f off data enables) :=
  .ite h (h.foldl (fun _ _ h => h.bar2WritePart))

protected theorem Canon.winSetOp {f i : Nat} (h : Canon s) : Canon (winSetOp s f i) :=
  h.acs (fun _ _ h => .ite h.fail (.ite h.fail (.ite h.fail (.ite h.fail h.wr.wrb.wrb.done))))

protected theorem Canon.dropJob {j : Nat} (h : Canon s) : Canon (dropJob s j) :=
  .ite h.abandonStart.endJob.unloadJob h

protected theorem Canon.tenantChange {p : Nat} (h : Canon s) : Canon (tenantChange s p) :=
  .ite h.haltPlot.closeWindows.clearStart h

protected theorem Canon.postCleared (h : Canon s) : Canon (postCleared s) :=
  .ite h (h.foldl (fun _ _ h => h.done))

protected theorem Canon.storeClearCompleteOp {p : Nat} (h : Canon s) : Canon (storeClearCompleteOp s p) :=
  .ite h.clearEnd.postCleared h

protected theorem Canon.trimApertures {g : Nat} (h : Canon s) : Canon (trimApertures s g) :=
  h.foldl (fun _ _ h => .ite h.wr.wr h)

protected theorem Canon.unrouteLost {g : Nat} (h : Canon s) : Canon (unrouteLost s g) :=
  h.foldl (fun _ _ h => h.wr)

protected theorem Canon.tenantAssignOp {f i : Nat} (h : Canon s) : Canon (tenantAssignOp s f i) := by
  unfold tenantAssignOp
  refine h.acs (fun _ _ h => ?_)
  split
  · exact h.fail
  · exact ((h.foldl (fun _ _ h1 => h1.dropJob)).tenants.trimApertures.unrouteLost.foldl
        (fun _ _ h1 => h1.tenantChange)).waiting.postCleared

protected theorem Canon.mbxReset {f : Nat} (h : Canon s) : Canon (mbxReset s f) := by
  have hd : ∀ {u : State} x y z, Canon u → Canon { u with rwc := x, boot := y, cloche := z } :=
    fun _ _ _ h => h.same rfl rfl rfl rfl
  have hm : ∀ {u : State} x y, Canon u → Canon { u with mbx := x, tbls := y } := fun _ _ h => h.same rfl rfl rfl rfl
  exact (hm _ _ (hd _ _ _ h.disownOps).resetRegs.wr).hedgeResetFunc

protected theorem Canon.fenceFunc {f : Nat} (h : Canon s) : Canon (fenceFunc s f) :=
  (h.foldl (fun _ _ h => .ite h.fenceWindow h)).foldl (fun _ _ h => h.foldl (fun _ _ h1 => h1.fenceWriter))

protected theorem Canon.funcReset {f : Nat} (h : Canon s) : Canon (funcReset s f) := by
  unfold funcReset
  extract_lets s1 s2 s3 s4
  have h1 : Canon s1 := .ite h.fenceFunc h
  have h4 : Canon s4 := ((h1.foldl fun _ _ h => h.dropJob).foldl fun _ _ h => h.tenantChange).mbxReset
  exact .ite h4.mbx.remapPf h4

protected theorem Canon.flrOp {f : Nat} (h : Canon s) : Canon (flrOp s f) :=
  .ite h h.funcReset.postCleared.hedgeEvent

protected theorem Canon.vfEnableOp {n : Nat} (h : Canon s) : Canon (vfEnableOp s n) :=
  .ite h.mbx h

protected theorem Canon.vfDisableOp {f : Nat} (h : Canon s) : Canon (vfDisableOp s f) :=
  .ite h (h.funcReset.postCleared.same rfl rfl rfl rfl)

protected theorem Canon.hostResetAll (h : Canon s) : Canon (hostResetAll s) := by
  have hd : ∀ {u : State} x y, Canon u → Canon { u with mbx := x, tenants := y } := fun _ _ h => h.same rfl rfl rfl rfl
  have hf : Canon ((List.range 16).foldl funcReset (s.wr Reg.TOP_RSTCAUSE_HOST [] 1)) := h.wr.foldl fun _ _ h =>
      h.funcReset
  exact (hd _ _ (.ite hf.rwcDropAll hf)).postCleared

protected theorem Canon.hostResetOp {k : HostResetKind} (h : Canon s) : Canon (hostResetOp s k) := by
  have rest : ∀ {u : State}, Canon u → Canon (if !u.served then u
      else if u.boot.fabricReset then { u with boot := { u.boot with hostResetHeld := true } } else hostResetAll u) :=
    fun h => .ite h (.ite h.boot h.hostResetAll)
  cases k
  · exact rest (h.same rfl rfl rfl rfl)
  · exact rest h.mbx
  · exact rest h

/-! ### Resets -/

protected theorem Canon.advanceEpochs (h : Canon s) : Canon (advanceEpochs s) :=
  (h.foldl (fun _ _ h => h.wr)).upd

protected theorem Canon.dropSets {p : StagedSet → Bool} (h : Canon s) : Canon (dropSets s p) :=
  .ite h (h.foldl (fun _ _ h => h.dropSet))

protected theorem Canon.runSchedule (h : Canon s) : Canon (runSchedule s) := by
  unfold runSchedule
  split
  · exact h.defaultSchedule
  · exact .ite h.defaultSchedule (.ite h.stageTariff h.stageTariff.openWithBand)

protected theorem Canon.runValues (h : Canon s) : Canon (runValues s) :=
  h.dropRegs

protected theorem Canon.openCaps (h : Canon s) : Canon (openCaps s) :=
  h.wr.wr

protected theorem Canon.maskSources (h : Canon s) : Canon (maskSources s) := by
  unfold maskSources
  exact (((((h.foldl (fun _ _ h => h.wr)).foldl (fun _ _ h => h.wr)).foldl (fun _ _ h => h.wr)).foldl
      (fun _ _ h => h.wr)).foldl (fun _ _ h => h.wr)).hedgeDecide

protected theorem Canon.runModeEntryOp (h : Canon s) : Canon (runModeEntryOp s) := by
  unfold runModeEntryOp
  extract_lets s1 s2 s3 s4 s5 s6
  have h1 : Canon s1 := .ite h h.advanceEpochs
  have h2 : Canon s2 := h1.foldl fun _ _ h => h.wr
  have h3 : Canon s3 := h2.wr.openCaps.runSchedule
  have h4 : Canon s4 := h3.remapPf.maskSources
  have h6 : Canon s6 := h4.wr.wr.wr
  refine .ite h (.ite ?_ h6)
  split
  · exact (h6.writeSwap rfl).wr
  · exact h6

protected theorem Canon.modeOpenOp {f i : Nat} (h : Canon s) : Canon (modeOpenOp s f i) :=
  h.acs (fun _ _ h => .ite h.done (.ite h.fail (.ite h.fail h.wr.done)))

protected theorem Canon.enterRun (h : Canon s) : Canon (enterRun s) := by
  unfold enterRun
  extract_lets s1 s2 s3 s4 s5 s6 s7 s8
  have h1 : Canon s1 := h.wr.foldl fun _ _ h => h.dropJob
  have h2 : Canon s2 := h1.foldl fun _ _ h => h.tenantChange
  have h3 : Canon s3 := .ite h2.rwcDropAll.advanceEpochs h2
  have h4 : Canon s4 := h3.dropSets.runValues
  clear_value s4
  have h5 : Canon s5 := h4.same rfl rfl rfl rfl
  have h6 : Canon s6 := h5.showSieve.showSieve.showGrafts
  have h7 : Canon s7 := h6.maskSources.foldl fun _ _ h => h.portEvaluate
  have h8 : Canon s8 := .ite h7.driveVid h7
  exact h8.openCaps.runSchedule.remapPf

protected theorem Canon.modeRunOp {f i : Nat} (h : Canon s) : Canon (modeRunOp s f i) :=
  h.acs (fun _ _ h => .ite h.done h.enterRun.waiting.postCleared)

/-- The loss of VCORE: registers dropped, and parts that hold no memory of the form. -/
protected theorem Canon.coreLoss (h : Canon s) : Canon (coreLoss s) := by
  have hd : ∀ {u : State} p a b c d e f g i j k l m n, Canon u → Canon { u with
      regs := FMap.dropWhere u.regs p, captured := a, plots := b, storeGen := c, flights := d, qd := e, sieves := f,
      sieveLast := g, rwc := i, furrow := j, graft := k, fences := l, upd := m, tbls := n } :=
    fun _ _ _ _ _ _ _ _ _ _ _ _ _ _ h => h.dropRegs.same rfl rfl rfl rfl
  exact (hd _ _ _ _ _ _ _ _ _ _ _ _ _ _ h).foldl fun _ _ h => h.hedgeLevel

protected theorem Canon.portsStop (h : Canon s) : Canon (portsStop s) :=
  h.foldl (fun _ _ h => h.setPortState.setPort)

protected theorem Canon.linkLoss (h : Canon s) : Canon (linkLoss s) := by
  have hd : ∀ {u : State} p a b, Canon u → Canon { u with regs := FMap.dropWhere u.regs p, captured := a, link := b } :=
    fun _ _ _ h => h.dropRegs.same rfl rfl rfl rfl
  exact hd _ _ _ h.portsStop

protected theorem Canon.fabricJob {st : Status} {s : State} {j : Nat} (h : Canon s) : Canon (fabricJob st s j) :=
  .ite h (.ite h.abandonStart.setJob.postWaits h.abandonStart.endJob)

protected theorem Canon.fabricAbort {st : Status} {but : Option (Nat × Nat)} (h : Canon s) :
    Canon (fabricAbort s st but) :=
  (h.foldl (fun _ _ h => h.fabricJob)).foldl (fun _ _ h => h.fail)

protected theorem Canon.fabricReset {cmd : Option (Nat × Nat)} (h : Canon s) : Canon (fabricReset s cmd) :=
  h.fabricAbort.coreLoss.linkLoss.wr.wr.wr.wr.wr.vcoreOff.wr.driveVid.wr.boot.faultVectorAll.postCleared

protected theorem Canon.devResetOp {f i : Nat} (h : Canon s) : Canon (devResetOp s f i) := by
  unfold devResetOp
  refine h.acs (fun _ _ h => ?_)
  split
  · exact .ite h.fail h.waiting.fabricReset
  · exact h.waiting.boot.islandRestart
  · exact h.fail

protected theorem Canon.fabricCompleteOp (h : Canon s) : Canon (fabricCompleteOp s) := by
  unfold fabricCompleteOp
  extract_lets b s1 s2 b2 s3 s4
  have h3 : Canon s3 := h.advanceEpochs.wr.wr.boot
  have h4 : Canon s4 := by
    unfold s4
    split
    · exact h3.finish
    · exact h3
  exact .ite h (.ite h4.hostResetAll h4)

protected theorem Canon.haltDie (h : Canon s) : Canon (haltDie s) :=
  h.vcoreOff.wr.portsStop

protected theorem Canon.fabricTimeoutOp (h : Canon s) : Canon (fabricTimeoutOp s) := by
  unfold fabricTimeoutOp
  refine .ite h (Canon.faultVectorAll ?_)
  split
  · exact h.fabricAbort.coreLoss.haltDie.wr.dieRecord.boot.failCmd
  · exact h.fabricAbort.coreLoss.haltDie.wr.dieRecord.boot

protected theorem Canon.brownoutOp (h : Canon s) : Canon (brownoutOp s) :=
  .ite h h.wr.wr.hedgeLevel.wr.dieRecord.fabricReset

protected theorem Canon.hbmControllerFaultOp {n : Nat} (h : Canon s) : Canon (hbmControllerFaultOp s n) :=
  .ite h h.wr.wr.dieRecord.fabricReset

protected theorem Canon.tripRecord {n temp : Nat} (h : Canon s) : Canon (tripRecord s n temp) :=
  .ite (.ite h.holdupRecord h) h.dieRecord

protected theorem Canon.thermalTripOp {n temp : Nat} (h : Canon s) : Canon (thermalTripOp s n temp) :=
  .ite h h.tsensOp.fabricAbort.coreLoss.haltDie.wr.wr.hedgeEvent.wr.tripRecord.boot.faultVectorAll

protected theorem Canon.hbmScrubOp {n unit : Nat} {ecc : EccEvent} (h : Canon s) : Canon (hbmScrubOp s n unit ecc) := by
  unfold hbmScrubOp
  refine .ite h ?_
  split
  · exact h
  · exact .ite h h.satInc
  · exact .ite h h.hbmUe.hbmRecord

/-! ### Answers -/

protected theorem Canon.ackOp {q : Packet} (h : Canon s) : Canon (ackOp s q) := by
  unfold ackOp
  dsimp only
  split
  · exact (h.takeFlight rfl).releasePlot
  · exact .ite (h.takeFlight rfl).installAcked <|
      .ite (.ite (h.takeFlight rfl).ctxFault (h.takeFlight rfl).updateAcked) <| h.takeFlight rfl

protected theorem Canon.installRefused {q : Packet} (h : Canon s) : Canon (installRefused s q) := by
  unfold installRefused
  split
  · exact h.abandonStart
  · exact h

protected theorem Canon.nakOp {q : Packet} (h : Canon s) : Canon (nakOp s q) := by
  unfold nakOp
  dsimp only
  split
  · exact (h.takeFlight rfl).releasePlot.nakFault
  · exact .ite (h.takeFlight rfl).lostProbe <| .ite (h.takeFlight rfl).installRefused <|
      .ite (h.takeFlight rfl).nakFault <| h.takeFlight rfl

protected theorem Canon.dropUnreachable (h : Canon s) : Canon (dropUnreachable s) :=
  h.foldl (fun _ _ h => h.dropInstalled)

/-! ### The table commands -/

protected theorem Canon.withTable {c : Cmd} {act : Nat → State} (h : Canon s) (hact : ∀ x0, Canon (act x0)) :
    Canon (withTable s c act) := by
  unfold withTable
  split
  · exact hact _
  · exact h.fail

protected theorem Canon.putDir {t : Nat} {b : List Byte} (h : Canon s) : Canon (putDir s t b) :=
  h.stageWords.captureSet.effectSet

protected theorem Canon.putGeo {u t : Nat} {words : List Nat} (h : Canon s) : Canon (putGeo s u t words) :=
  h.stageWords.captureSet.effectSet

protected theorem Canon.putMap {a : Nat} {l : List (List Byte)} (h : Canon s) : Canon (putMap s a l) := by
  induction l generalizing s a with
  | nil => exact h
  | cons e r ih => exact ih h.shard

protected theorem Canon.defineTable {c : Cmd} {b : List Byte} (h : Canon s) : Canon (defineTable s c b) := by
  unfold defineTable
  dsimp only
  split
  · exact h.fail
  · exact h.fail
  · exact (h.putMap.putDir.foldl (fun _ _ h => h.putGeo)).wr.setTbl.done

protected theorem Canon.tblDefineOp {f i : Nat} {buf : HostBuf} (h : Canon s) : Canon (tblDefineOp s f i buf) := by
  unfold tblDefineOp
  refine h.acs (fun _ _ h => h.withBuffer (fun _ _ h1 => ?_))
  split
  · exact h1.fail
  · exact h1.defineTable

protected theorem Canon.invalidateFor {c : Cmd} {keys : List Nat} (h : Canon s) : Canon (invalidateFor s c keys) :=
  (h.running.foldl (fun _ _ h => h.rwcDropKey.rwcInvStart)).rwc

protected theorem Canon.tblDeleteOp {f i : Nat} (h : Canon s) : Canon (tblDeleteOp s f i) :=
  h.acs (fun _ _ h => h.withTable (fun _ => .ite h.fail (h.putMap.putDir.foldl
      (fun _ _ h2 => h2.putGeo)).wr.tbls.invalidateFor))

protected theorem Canon.tblSyncOp {f i : Nat} (h : Canon s) : Canon (tblSyncOp s f i) :=
  h.acs (fun _ _ h => h.withTable (fun _ => .ite (.ite h.fail h.invalidateFor)
      (.ite h.fail (.ite h.fail h.invalidateFor))))

protected theorem Canon.trySwitch {t : Nat} (h : Canon s) : Canon (trySwitch s t) := by
  unfold trySwitch
  split
  · exact h
  · exact .ite h h.wr.rwcDropKey.setTbl.finish

protected theorem Canon.tblSwitchOp {f i : Nat} (h : Canon s) : Canon (tblSwitchOp s f i) := by
  unfold tblSwitchOp
  refine h.acs (fun _ _ h => h.withTable (fun _ => .ite h.fail (.ite h.fail ?_)))
  split
  · exact h.fail
  · exact .ite h.fail h.running.setTbl.trySwitch

protected theorem Canon.tblStatsOp {f i : Nat} (h : Canon s) : Canon (tblStatsOp s f i) :=
  h.acs (fun _ _ h => h.withTable (fun _ => (Canon.ite h.setTbl h).done))

/-! ### The power and link commands -/

protected theorem Canon.devInfoOp {f i : Nat} (h : Canon s) : Canon (devInfoOp s f i) :=
  h.acs (fun _ _ h => h.done)

protected theorem Canon.commitScales {k : Nat} {e' : GEntry} {sc : List (Nat × Int)} {zp : Bool} (h : Canon s) :
    Canon (commitScales s k e' sc zp) :=
  (h.foldl (fun _ _ h => h.setGent)).setGent.wr.stageWords.captureSet.showGraft

protected theorem Canon.calScalesOp {f i : Nat} {buf : HostBuf} (h : Canon s) : Canon (calScalesOp s f i buf) := by
  unfold calScalesOp
  refine h.acs (fun _ _ h => .ite h.fail ?_)
  split
  · exact h.fail
  · refine h.withBuffer (fun _ _ h1 => .ite h1.fail ?_)
    split
    · exact h1.fail
    · exact .ite h1.fail h1.commitScales.done

protected theorem Canon.calStatsOp {f i : Nat} (h : Canon s) : Canon (calStatsOp s f i) := by
  unfold calStatsOp
  refine h.acs (fun _ _ h => .ite h.fail ?_)
  split
  · exact h.fail
  · exact h.done

protected theorem Canon.pwrTariffOp {f i : Nat} {buf : HostBuf} (h : Canon s) : Canon (pwrTariffOp s f i buf) := by
  unfold pwrTariffOp
  refine h.acs (fun _ _ h => h.withBuffer (fun _ _ h1 => ?_))
  split
  · exact h1.fail
  · split
    · exact h1.fail
    · exact (Canon.ite h1.stageTariff.writePersist h1.stageTariff).done

protected theorem Canon.pwrLimitsOp {f i : Nat} (h : Canon s) : Canon (pwrLimitsOp s f i) :=
  h.acs (fun _ _ h => .ite h.fail (Canon.ite h.pairWrite.pairWrite h.pairWrite.pairWrite).wr.updateLimits.done)

protected theorem Canon.pwrEnergyOp {f i : Nat} (h : Canon s) : Canon (pwrEnergyOp s f i) := by
  unfold pwrEnergyOp
  refine h.acs (fun _ _ h => .ite h.fail ?_)
  split
  · exact h.done
  · exact h.fail

protected theorem Canon.forecastRunOp (h : Canon s) : Canon (forecastRunOp s) := by
  unfold forecastRunOp
  extract_lets v c s1 s2
  have h1 : Canon s1 := h.cloche
  have h2 : Canon s2 := h1.sramPut
  refine .ite h ?_
  split
  · exact h1.wr
  · extract_lets s3 s4
    have h4 : Canon s4 := h2.cmeBegin.cmeRunAll.wr.hedgeLevel
    split
    · exact h2.cmeBegin.cmeRunAll.wr
    · exact h4.wr.wr.wr.wr.wr

protected theorem Canon.evtRouteOp {f i : Nat} (h : Canon s) : Canon (evtRouteOp s f i) :=
  h.acs (fun _ _ h => .ite h.fail (.ite h.fail (.ite h.fail (.ite h.fail h.hedgeSrcWriteOp.done))))

protected theorem Canon.evtCoalesceOp {f i : Nat} (h : Canon s) : Canon (evtCoalesceOp s f i) :=
  h.acs (fun _ _ h => .ite h.fail (.ite h.fail (.ite h.fail h.wr.wr.captureSet.effectSet.done)))

protected theorem Canon.undefStores {p : Nat} (h : Canon s) : Canon (undefStores s p) :=
  h.setSto.showScoreboard

protected theorem Canon.undefHbm {a n : Nat} (h : Canon s) : Canon (undefHbm s a n) := undefHbm_memWf h a n

protected theorem Canon.diagSelftestOp {f i : Nat} {bad : Option Nat} (h : Canon s) :
    Canon (diagSelftestOp s f i bad) := by
  unfold diagSelftestOp
  refine h.acs (fun _ _ h => ?_)
  split
  · exact .ite h.fail (.ite h.fail (.ite h.fail (.ite h.fail (.ite h.fail h.undefStores.done))))
  · exact .ite h.fail (.ite h.fail (.ite h.fail h.undefHbm.done))
  · exact h.fail

protected theorem Canon.evaluatePorts (h : Canon s) : Canon (evaluatePorts s) :=
  h.foldl (fun _ _ h => h.portEvaluate)

protected theorem Canon.linkSetIdOp {f i : Nat} (h : Canon s) : Canon (linkSetIdOp s f i) :=
  h.acs (fun _ _ h => .ite h.fail (.ite h.fail (h.link.foldl (fun _ _ h1 => h1.wr.portFlagLevel)).evaluatePorts.done))

protected theorem Canon.routePort {b : List Byte} {s : State} {n : Fin 8} (h : Canon s) : Canon (routePort b s n) :=
  h.stageWords.stageWords.captureSet.effectSet

protected theorem Canon.linkRouteOp {f i : Nat} {buf : HostBuf} (h : Canon s) : Canon (linkRouteOp s f i buf) := by
  unfold linkRouteOp
  refine h.acs (fun _ _ h => h.withBuffer (fun _ _ h1 => .ite h1.fail ?_))
  split
  · exact h1.fail
  · exact (h1.foldl (fun _ _ h2 => h2.routePort)).link.evaluatePorts.done

protected theorem Canon.linkEnableOp {f i : Nat} (h : Canon s) : Canon (linkEnableOp s f i) :=
  h.acs (fun _ _ h => .ite h.fail (.ite h.fail (h.foldl (fun _ _ h1 => h1.wrb.portEvaluate)).done))

/-! ### The flash commands -/

protected theorem Canon.flashDeliver {c : Cmd} {r' : BufRef} {ecc : FlashEcc} {bad : Option Nat}
    {data body : List Byte} (h : Canon s) :
    Canon (flashDeliver s c r' ecc bad data body) := by
  unfold flashDeliver
  dsimp only
  split
  · exact h.flashEccCount.memRecord.fail
  · exact h.flashEccCount.putBuffer.done

protected theorem Canon.flashReadOp {f i : Nat} {ecc : FlashEcc} (h : Canon s) : Canon (flashReadOp s f i ecc) := by
  unfold flashReadOp
  refine h.acs (fun _ _ h => .ite h.fail ?_)
  split
  · exact h.fail
  · split
    · exact h.fail
    · exact .ite h.fail (.ite h h.flashDeliver)

protected theorem Canon.queueProgram {o : FlashOwner} {fuel a : Nat} {l : List Byte} (h : Canon s) :
    Canon (queueProgram o fuel s a l) := by
  induction fuel generalizing s a l with
  | zero => exact h
  | succ fuel ih => exact .ite h (ih h.queueFlash)

protected theorem Canon.flashProgramOp {f i : Nat} {buf : HostBuf} (h : Canon s) :
    Canon (flashProgramOp s f i buf) := by
  unfold flashProgramOp
  refine h.acs (fun _ _ h => .ite h.fail (.ite h.fail ?_))
  split
  · exact h.fail
  · exact .ite h.fail (h.withBuffer (fun _ _ h1 => h1.running.queueProgram))

protected theorem Canon.eraseRange {a n : Nat} (h : Canon s) : Canon (eraseRange s a n) :=
  h.pairWrite.pairWrite.pairWrite

protected theorem Canon.flashEraseOp {f i : Nat} (h : Canon s) : Canon (flashEraseOp s f i) :=
  h.acs (fun _ _ h => .ite h.fail (.ite h.fail (.ite h.eraseRange.fail
      (.ite h.eraseRange.fail h.eraseRange.running.queueFlash))))

protected theorem Canon.logReadOp {f i : Nat} {ecc : FlashEcc} (h : Canon s) : Canon (logReadOp s f i ecc) := by
  unfold logReadOp
  refine h.acs (fun _ _ h => .ite h.fail ?_)
  split
  · exact h.fail
  · exact .ite h.fail h.countTorn.flashDeliver

protected theorem Canon.fwInfoOp {f i : Nat} {img : ImageCheck} (h : Canon s) : Canon (fwInfoOp s f i img) :=
  h.acs (fun _ _ h => h.done)

protected theorem Canon.queueRewrite {o : FlashOwner} {fuel a : Nat} {l : List Byte} (h : Canon s) :
    Canon (queueRewrite o fuel s a l) := by
  induction fuel generalizing s a l with
  | zero => exact h
  | succ fuel ih => exact .ite h (ih h.queueFlash.queueFlash)

protected theorem Canon.fwWriteOp {f i : Nat} {buf : HostBuf} (h : Canon s) : Canon (fwWriteOp s f i buf) :=
  h.acs (fun _ _ h => .ite h.fail (.ite h.fail (h.withBuffer (fun _ _ h1 => h1.running.queueRewrite))))

protected theorem Canon.fwVerifyOp {f i : Nat} {img : ImageCheck} (h : Canon s) : Canon (fwVerifyOp s f i img) :=
  h.acs (fun _ _ h => .ite h.fail h.done)

protected theorem Canon.trialRecord {img : ImageCheck} (h : Canon s) : Canon (trialRecord s img) :=
  h.writeSwap rfl

protected theorem Canon.fwActivateOp {f i : Nat} {img : ImageCheck} (h : Canon s) : Canon (fwActivateOp s f i img) := by
  unfold fwActivateOp
  refine h.acs (fun _ _ h => ?_)
  split
  · exact h.fail
  · exact h.trialRecord.done

protected theorem Canon.swapGo (h : Canon s) : Canon (swapGo s) :=
  h.wr.wr.wr.wr

protected theorem Canon.seamEntry (h : Canon s) : Canon (seamEntry s) :=
  (h.foldl (fun _ _ h => h.benchCompleteOp)).wr.wr.wr.swapGo

protected theorem Canon.fwSwapOp {f i : Nat} {img : ImageCheck} (h : Canon s) : Canon (fwSwapOp s f i img) := by
  unfold fwSwapOp
  refine h.acs (fun _ _ h => ?_)
  split
  · exact h.fail
  · exact h.trialRecord.waiting.cloche.seamEntry

protected theorem Canon.seamLoadedOp {img : ImageCheck} (h : Canon s) : Canon (seamLoadedOp s img) := by
  unfold seamLoadedOp
  extract_lets old was
  refine .ite h ?_
  split
  next u blk e =>
  have hsel : Canon u := h.bootSelect e
  split
  · exact hsel.recoveryEntry
  · extract_lets new s1 s2 s3 s4 c4 s5
    have h1 : Canon s1 := hsel.startImage.bootRecord
    have h2 : Canon s2 := by
      unfold s2
      split
      · exact .ite h1.finish h1.failCmd
      · exact h1
    have h5 : Canon s5 := h2.restartCmds.wr.wr.cloche
    exact .ite (h5.writeSwap rfl).wr h5

/-! ### MCTP -/

protected theorem Canon.mctpArrives {p : Nat} (h : Canon s) : Canon (mctpArrives s p) :=
  .ite h.hedgeEvent h

protected theorem Canon.mctpAnswer {p st : Nat} {body : List Byte} (h : Canon s) : Canon (mctpAnswer s p st body) :=
  .ite h.mctpArrives.emit h.mctpArrives

protected theorem Canon.setEidOp {p eid : Nat} (h : Canon s) : Canon (setEidOp s p eid) :=
  .ite h.mctpArrives (.ite h.mctpArrives.emit h.mctpArrives.cloche.emit)

protected theorem Canon.mctpFail {p : Nat} {st : Status} {field sub value : Nat} (h : Canon s) :
    Canon (mctpFail s p st field sub value) :=
  h.emit

protected theorem Canon.mctpOk {p : Nat} {body : List Byte} (h : Canon s) : Canon (mctpOk s p body) :=
  h.emit

protected theorem Canon.vendor {p : Nat} {m : MctpRole} {act : State → State}
    (h : Canon s) (hact : ∀ s', Canon s' → Canon (act s')) :
    Canon (vendor s p m act) :=
  .ite h.mctpArrives (.ite h.mctpArrives.mctpFail (hact _ h.mctpArrives))

protected theorem Canon.getEnergyOp {p f back : Nat} (h : Canon s) : Canon (getEnergyOp s p f back) := by
  unfold getEnergyOp
  refine h.vendor (fun _ h => .ite h.mctpFail ?_)
  split
  · exact h.mctpOk
  · exact h.mctpFail

protected theorem Canon.setTariffOp {p persist : Nat} {b : List Byte} (h : Canon s) :
    Canon (setTariffOp s p persist b) := by
  unfold setTariffOp
  refine h.vendor (fun _ h => ?_)
  split
  · exact h.mctpFail
  · split
    · exact h.mctpFail
    · exact (Canon.ite h.stageTariff.writePersist h.stageTariff).mctpOk

protected theorem Canon.setCapOp {p watts : Nat} (h : Canon s) : Canon (setCapOp s p watts) :=
  h.vendor (fun _ h => h.wr.updateLimits.mctpOk)

protected theorem Canon.readLogOp {p log first count : Nat} {ecc : FlashEcc} (h : Canon s) :
    Canon (readLogOp s p log first count ecc) := by
  unfold readLogOp
  dsimp only
  refine h.vendor (fun _ h => .ite h.mctpFail (.ite h.mctpFail ?_))
  split
  · exact h.countTorn.flashEccCount.memRecord.mctpFail
  · exact h.countTorn.flashEccCount.mctpOk

protected theorem Canon.modelWriteOp {p a : Nat} {data : List Byte} (h : Canon s) : Canon (modelWriteOp s p a data) :=
  h.vendor (fun _ h => .ite h.mctpFail (.ite h.mctpFail (.ite h.mctpFail (.ite h.mctpFail h.queueProgram))))

protected theorem Canon.modelEraseOp {p a n : Nat} (h : Canon s) : Canon (modelEraseOp s p a n) :=
  h.vendor (fun _ h => .ite h.mctpFail (.ite h.mctpFail (.ite h.mctpFail
      (.ite h.mctpFail (.ite h.mctpFail h.queueFlash)))))

protected theorem Canon.readResultOp {p area : Nat} (h : Canon s) : Canon (readResultOp s p area) :=
  h.vendor (fun _ h => .ite h.mctpFail h.cloche.mctpOk)

protected theorem Canon.mctpFwWriteOp {p o : Nat} {data : List Byte} (h : Canon s) : Canon (mctpFwWriteOp s p o data) :=
  h.vendor (fun _ h => .ite h.mctpFail (.ite h.mctpFail (.ite h.mctpFail (Canon.ite h.queueFlash h).queueFlash)))

protected theorem Canon.mctpFwActivateOp {p : Nat} {img : ImageCheck} (h : Canon s) :
    Canon (mctpFwActivateOp s p img) := by
  unfold mctpFwActivateOp
  refine h.vendor (fun _ h => ?_)
  split
  · exact h.mctpFail
  · exact h.trialRecord.mctpOk

/-! ### Sets that take effect -/

protected theorem Canon.boundary {x : StagedSet} (h : Canon s) : Canon (boundary s x) := by
  unfold boundary
  refine .ite h ?_
  split
  · exact .ite h.takeSets h
  · exact .ite h.takeSets h
  · exact h.effectSet.hedgeDecide
  · exact h.effectSet
  · exact .ite h.effectSet h
  · exact .ite h.effectSet h
  · exact .ite h.effectSet h
  · exact .ite h.effectSet h
  · exact .ite h.effectSet.link.portEvaluate h
  · exact .ite (h.foldl (fun _ _ h => h.takeCap)) h
  · exact .ite h h.openWithBand

protected theorem Canon.noteCapture {x : StagedSet} (h : Canon s) : Canon (noteCapture s x) := by
  unfold noteCapture
  dsimp only
  split
  · exact h.noteClass
  · split
    · exact (h.foldl (fun _ _ h => h.setGent)).setGent
    · exact h
  · exact h.gov
  · exact h

protected theorem Canon.commitSet {src : Src} {x : StagedSet} (h : Canon s) : Canon (commitSet s src x) := by
  unfold commitSet
  refine .ite h.noteCapture.captureSet.boundary (Canon.refuseSet ?_)
  split
  · exact h.dtError
  · exact h

protected theorem Canon.commitOp {src : Src} {x : StagedSet} (h : Canon s) : Canon (commitOp s src x) :=
  h.fwWrite (fun _ h => .ite h.commitSet h)

protected theorem Canon.directPair {src : Src} {p : DirectPair} {second : Bool} {v : Nat} (h : Canon s) :
    Canon (directPair s src p second v) := by
  unfold directPair
  split
  · exact h.pairWrite.updateLimits
  · exact h.pairWrite

protected theorem Canon.directPairOp {src : Src} {p : DirectPair} {second : Bool} {v : Nat} (h : Canon s) :
    Canon (directPairOp s src p second v) := by
  unfold directPairOp
  exact h.fwWrite (fun _ h => .ite h.directPair h)

/-! ### Register writes -/

protected theorem Canon.busRead {a : Nat} {r} (h : Canon s) (e : busRead s a = r) : Canon r.2 := by
  subst e
  unfold busRead
  split
  · split
    · exact h.debugReadOp rfl
    · exact h
  · split
    · exact h
    · exact h

protected theorem Canon.busReadWords {a n : Nat} {r} (h : Canon s) (e : busReadWords s a n = r) : Canon r.2 := by
  induction n generalizing s a r with
  | zero => exact e ▸ h
  | succ n ih => exact e ▸ (ih (a := a + 4) (h.busRead (a := a) rfl) rfl :)

protected theorem Canon.diagRegReadOp {f i : Nat} (h : Canon s) : Canon (diagRegReadOp s f i) :=
  h.acs (fun _ _ h => .ite h.fail (.ite h.fail (h.busReadWords rfl).done))

protected theorem Canon.smbusReadOp {port off count : Nat} (h : Canon s) : Canon (smbusReadOp s port off count) :=
  .ite h (.ite h.emit h.emit)

protected theorem Canon.plainWrite {p : Place} {m w : Nat} (h : Canon s) : Canon (plainWrite s p m w) :=
  h.foldl (fun _ _ h => h.wr)

protected theorem Canon.levelOf {src : Nat} {f : Field} {idx : List Nat} (h : Canon s) : Canon (levelOf s src f idx) :=
  h.hedgeLevel

protected theorem Canon.atLeast {f : Field} {idx : List Nat} {n : Nat} (h : Canon s) : Canon (atLeast s f idx n) :=
  .ite h.wr h

protected theorem Canon.commitWrite {src : Src} {x : StagedSet} {w : Nat} (h : Canon s) :
    Canon (commitWrite s src x w) :=
  .ite h.commitSet (.ite h.discardSet h)

protected theorem Canon.topWrite {p : Place} {m w : Nat} (h : Canon s) : Canon (topWrite s p m w) :=
  .ite (.ite (Canon.ite h.plainWrite h.plainWrite.cloche).paceSnapOp (.ite h.plainWrite h.plainWrite.cloche)) <|
    .ite h.plainWrite.levelOf <| .ite h.plainWrite.levelOf <| .ite h.plainWrite.levelOf <|
    .ite (.ite (.ite h h.qdDisarmOp) (.ite h.qdArmOp h.plainWrite)) <| .ite (.ite h h.plainWrite) <|
    .ite h.plainWrite.atLeast <| .ite h.plainWrite.atLeast h.plainWrite

protected theorem Canon.mbxWrite {p : Place} {m w : Nat} (h : Canon s) : Canon (mbxWrite s p m w) :=
  .ite (.ite h.ringEnableOp h.ringDisableOp) <| .ite h.doorbellOp <| .ite h.retireOp <|
    .ite (.ite h.violCntClearOp h) <| .ite (.ite h.evqEnableOp h.evqDisableOp) <| .ite h.evqCiOp <|
    .ite (.ite h.evqLostClearOp h) h.plainWrite

protected theorem Canon.hdgWrite {p : Place} {m w : Nat} (h : Canon s) : Canon (hdgWrite s p m w) :=
  .ite h.hedgeSrcWriteOp (.ite h.benchCompleteOp h.plainWrite)

protected theorem Canon.plotWrite {p : Place} {m w : Nat} (h : Canon s) : Canon (plotWrite s p m w) :=
  .ite h.plainWrite.hedgeLevel <| .ite h.numClearOp <| .ite h.seedWriteOp <| .ite h.seedWriteOp <|
    .ite (.ite h.plainWrite.clearStart h.plainWrite) <| .ite h.plainWrite.levelOf <| .ite h.debugWriteOp <|
    .ite h.plainWrite.levelOf <| .ite (Canon.ite h.wr.wr.wr.wr h).plainWrite <| .ite h.plainWrite.levelOf h.plainWrite

protected theorem Canon.tableWrite {src : Src} {p : Place} {m w : Nat} (h : Canon s) : Canon (tableWrite s src p m w) :=
  .ite h.plainWrite <| .ite h.plainWrite <|
    .ite (.ite (Canon.ite h.plainWrite.epochAdvance h.plainWrite).rwcDropAll
      (.ite h.plainWrite.epochAdvance h.plainWrite)) <|
    .ite h.rwcInvStart <| .ite h.directPair <| .ite h.directPair <| .ite h.plainWrite.levelOf <|
    .ite h.plainWrite.levelOf h.plainWrite

protected theorem Canon.linkWrite {p : Place} {m w : Nat} (h : Canon s) : Canon (linkWrite s p m w) :=
  .ite (.ite (Canon.ite h.plainWrite.portEvaluate.startRetrain h.plainWrite.portEvaluate).startRetrain
      (.ite h.plainWrite.portEvaluate.startRetrain h.plainWrite.portEvaluate)) <|
    .ite h.plainWrite.atLeast <| .ite (.ite h.wr h) <| .ite h.plainWrite.levelOf <|
    .ite h.plainWrite.showGraft h.plainWrite

protected theorem Canon.pwrWrite {src : Src} {p : Place} {m w : Nat} (h : Canon s) : Canon (pwrWrite s src p m w) :=
  .ite (.ite (.ite h h.acctEnOp) h.wr) <| .ite h.directPair <| .ite h.directPair <|
    .ite h.plainWrite.updateLimits h.plainWrite

protected theorem Canon.islandWrite {src : Src} {p : Place} {m w : Nat} (h : Canon s) :
    Canon (islandWrite s src p m w) :=
  .ite (.ite h.plainWrite.listenEnterOp h.plainWrite) <| .ite (.ite h.swapGo h) <|
    .ite (.ite h.plainWrite.kickOp h.plainWrite) <| .ite h.rtcSetOp <|
    .ite (.ite (Canon.ite h.wr.wr.timerEnableOp h.wr.wr.wr).wr (.ite h.wr.wr.timerEnableOp h.wr.wr.wr)) <|
    .ite h.directPair <| .ite h.directPair <| .ite h.gpiLatchClear <|
    .ite (.ite h.plainWrite.spiStartOp h.plainWrite) <| .ite (.ite h.cmeStartOp h) <| .ite h.plainWrite.levelOf <|
    .ite (.ite (Canon.ite (Canon.ite h.benchHaltOp h).wr (.ite h.benchHaltOp h)).benchStepOp
      (.ite (Canon.ite h.benchHaltOp h).wr (.ite h.benchHaltOp h))) <|
    .ite (.ite (Canon.ite h.flcEraseOp h).flcProgramOp (.ite h.flcEraseOp h)) <| .ite h.directPair <|
    .ite h.directPair h.plainWrite

protected theorem Canon.regWrite {src : Src} {p : Place} {m w : Nat} (h : Canon s) : Canon (regWrite s src p m w) := by
  unfold regWrite
  dsimp only
  split
  · exact h.plainWrite.commitWrite
  · exact .ite h.topWrite <| .ite h.mbxWrite <| .ite h.hdgWrite <| .ite h.plotWrite <| .ite h.tableWrite <|
      .ite h.linkWrite <| .ite h.pwrWrite h.islandWrite

protected theorem Canon.msixWrite {f o v : Nat} (h : Canon s) : Canon (msixWrite s f o v) := by
  unfold msixWrite
  split
  · exact h.mbx
  · exact h.mbx
  · exact h.mbx
  · exact .ite h.mbx (.ite h.msixUnmaskOp h)

protected theorem Canon.partWrite {src : Src} {x : Nat × Nat × Nat} (h : Canon s) : Canon (partWrite s src x) := by
  unfold partWrite
  dsimp only
  split
  · exact h.msixWrite
  · split
    · exact h.regWrite
    · exact h

protected theorem Canon.writeParts {src : Src} {run : Bool} {parts : List (Nat × Nat × Nat)} (h : Canon s) :
    Canon (writeParts s src run parts) :=
  h.foldl (fun _ _ h => h.partWrite)

protected theorem Canon.hostWriteAt {f : Fin 16} {a len v : Nat} (h : Canon s) : Canon (hostWriteAt s f a len v) := by
  unfold hostWriteAt
  refine .ite h.ringWriteOp (.ite h.hostViolation (.ite h.hostViolation (Canon.foldl ?_ (fun _ _ h => h.partWrite))))
  split
  · exact h
  · exact h.hostViolation

protected theorem Canon.registerWriteOp {src : Src} {a len v : Nat} (h : Canon s) :
    Canon (registerWriteOp s src a len v) := by
  unfold registerWriteOp
  split
  · exact .ite h.writeParts h
  · exact .ite h (.ite (.ite h.hostWriteAt h) (.ite h.hostWriteAt h))

/-! ### The commands (the dispatch) -/

/-- The end of a command that may let waiting work go on. -/
protected theorem Keeps.nextQ (h : Canon s) : Keeps (nextQ s) := .next h.wakeAll.qdRefresh

protected theorem Keeps.execPaceSnap {src : Src} (h : Canon s) : Keeps (execPaceSnap src s) := by
  refine .next ?_
  cases src with
  | bench => exact h.paceSnapOp
  | host f => exact .ite h.paceSnapOp h

protected theorem Keeps.execTableSwitchBoundary {tkey : Nat} (h : Canon s) : Keeps (execTableSwitchBoundary tkey s) := by
  refine .next (.ite h ?_)
  split
  · exact h.trySwitch
  · exact h

protected theorem Keeps.execDebugRowRead {src : Src} {p : Fin 16} {w : Fin 64} (h : Canon s) :
    Keeps (execDebugRowRead src p w s) := by
  unfold execDebugRowRead
  split
  · exact .nextQ (h.debugReadOp rfl).emit
  · split
    · exact .next h
    · exact .next (Canon.ite h.hostViolation h).emit

protected theorem Keeps.execBenchClaim {src : Src} (h : Canon s) : Keeps (execBenchClaim src s) := by
  unfold execBenchClaim
  split
  · exact .next (h.benchClaimOp rfl).emit
  · split
    · exact .next h
    · exact .next (Canon.ite h.hostViolation h).emit

protected theorem Keeps.execLeaseFence {l : LeaseRef} {trigger : Nat} (h : Canon s) :
    Keeps (execLeaseFence l trigger s) := by
  refine .nextQ (.ite h ?_)
  cases l with
  | window p w => exact h.fenceWindow
  | writer k d => exact h.fenceWriter
  | rowLocks u => exact h.fenceLocks

/-- Every command keeps the canonical form, by the one operation that is its meaning. -/
theorem exec_keeps (c : Instr) (h : Canon s) : Keeps (exec c s) :=
  match c with
  | .registerWrite .. => .nextQ h.registerWriteOp
  | .islandRailsUp => .next h.islandRailsUpOp
  | .porstNRise .. => .next h.porstRiseOp
  | .porstNFall => .next h.porstFallOp
  | .porstNHoldoffExpiry => .next h.porstHoldoffOp
  | .refclkCheckTimeout => .next h.refclkTimeoutOp
  | .bootImageVerified .. => .next h.bootImageOp
  | .mainPgRise => .next h.mainPgRiseOp
  | .mainPgTimeout => .next h.mainPgTimeoutOp
  | .vcorePgRise .. => .next h.vcorePgRiseOp
  | .vcorePgTimeout => .next h.vcorePgTimeoutOp
  | .plotBistComplete .. => .next h.plotBistOp
  | .hbmTrainingComplete .. => .next h.hbmTrainingOp
  | .hbmClearComplete => .next h.hbmClearOp
  | .runModeEntry => .next h.runModeEntryOp
  | .perstNRelease => .next h.perstReleaseOp
  | .pcieConfigReady => .next h.pcieReadyOp
  | .hostReset .. => .nextQ h.hostResetOp
  | .flr .. => .nextQ h.flrOp
  | .pwrfailNFall => .next h.pwrfailFallOp
  | .powerCut => .next h.powerCutOp
  | .mainLoss .. => .next h.mainLossOp
  | .thermalTrip .. => .nextQ h.thermalTripOp
  | .vcoreBrownout => .nextQ h.brownoutOp
  | .vidStep => .next h.vidStepOp
  | .tsensUpdate .. => .next h.tsensOp
  | .replicaUpdate .. => .next h.replicaOp
  | .paceSnap .. => .execPaceSnap h
  | .paceAutoSnap => .next h.paceAutoOp
  | .paceSnapComplete => .next h.paceCompleteOp
  | .commit .. => .nextQ h.commitOp
  | .discard .. => .next h.discardOp
  | .stagedSetEffect .. => .nextQ (.ite h.boundary h)
  | .directPairWrite .. => .next h.directPairOp
  | .doorbell .. => .next h.doorbellOp
  | .ringEntryWrite .. => .next h.ringWriteOp
  | .retire .. => .next h.retireOp
  | .ringEnable .. => .next h.ringEnableOp
  | .ringDisable .. => .next h.ringDisableOp
  | .evqEnable .. => .next h.evqEnableOp
  | .evqDisable .. => .next h.evqDisableOp
  | .evqCiWrite .. => .next h.evqCiOp
  | .violCntClear .. => .next h.violCntClearOp
  | .evqLostClear .. => .next h.evqLostClearOp
  | .commandFetch => .next h.fetchOp
  | .resultPost .. => .next h.resultPostOp
  | .msixUnmask .. => .next h.msixUnmaskOp
  | .bar2Read .. => .next h.bar2ReadOp
  | .bar2Write .. => .next h.bar2WriteOp
  | .bar2Resize .. => .next h.bar2ResizeOp
  | .devInfo .. => .next h.devInfoOp
  | .devReset .. => .nextQ h.devResetOp
  | .fabricResetComplete => .nextQ h.fabricCompleteOp
  | .fabricResetTimeout => .nextQ h.fabricTimeoutOp
  | .modeOpen .. => .next h.modeOpenOp
  | .modeRun .. => .nextQ h.modeRunOp
  | .tenantAssign .. => .nextQ h.tenantAssignOp
  | .winSet .. => .next h.winSetOp
  | .jobLoad .. => .nextQ h.jobLoadOp
  | .jobStart .. => .nextQ h.jobStartOp
  | .jobStartHoldExpiry .. => .nextQ h.holdExpiryOp
  | .jobSubmit .. => .nextQ h.jobSubmitOp
  | .batchInputStage .. => .nextQ (.ite h.stageBatch h)
  | .batchInputCopied .. => .nextQ (.ite h.releaseBatch h)
  | .batchDoneSignal .. => .nextQ (.ite h.batchDoneOp h)
  | .batchOutputCopied .. => .nextQ (.ite h.outputCopied h)
  | .jobWait .. => .next h.jobWaitOp
  | .jobAbort .. => .nextQ h.jobAbortOp
  | .jobAbortDrained .. => .nextQ h.abortDrainedOp
  | .jobUnload .. => .nextQ h.jobUnloadOp
  | .jobStatus .. => .next h.jobStatusOp
  | .tblDefine .. => .next h.tblDefineOp
  | .tblDelete .. => .next h.tblDeleteOp
  | .tblSync .. => .next h.tblSyncOp
  | .tblSwitch .. => .next h.tblSwitchOp
  | .tableSwitchBoundary .. => .execTableSwitchBoundary h
  | .tblStats .. => .next h.tblStatsOp
  | .calScales .. => .next h.calScalesOp
  | .calStats .. => .next h.calStatsOp
  | .pwrStatus .. => .next (h.acs (fun _ _ h => h.done))
  | .pwrTariff .. => .next h.pwrTariffOp
  | .pwrLimits .. => .next h.pwrLimitsOp
  | .pwrEnergy .. => .next h.pwrEnergyOp
  | .fwInfo .. => .next h.fwInfoOp
  | .fwWrite .. => .next h.fwWriteOp
  | .fwVerify .. => .next h.fwVerifyOp
  | .fwActivate .. => .next h.fwActivateOp
  | .fwSwap .. => .next h.fwSwapOp
  | .seamImageLoaded .. => .next h.seamLoadedOp
  | .flashRead .. => .next h.flashReadOp
  | .flashProgram .. => .next h.flashProgramOp
  | .flashErase .. => .next h.flashEraseOp
  | .logRead .. => .next h.logReadOp
  | .evtRoute .. => .next h.evtRouteOp
  | .evtCoalesce .. => .next h.evtCoalesceOp
  | .diagEcho .. => .next (h.acs (fun _ _ h => h.done))
  | .diagRegRead .. => .nextQ h.diagRegReadOp
  | .diagSelftest .. => .next h.diagSelftestOp
  | .linkStatus .. => .next (h.acs (fun _ _ h => h.done))
  | .linkSetId .. => .next h.linkSetIdOp
  | .linkRoute .. => .next h.linkRouteOp
  | .linkEnable .. => .next h.linkEnableOp
  | .install .. => .nextQ (.ite h.installOp h.takeStream)
  | .ready .. => .nextQ (.ite h.takeInbox.readyOp h.takeInbox)
  | .go .. => .nextQ (.ite h.takeInbox.goOp h.takeInbox)
  | .startAbort .. => .nextQ (.ite h.takeInbox.startAbortOp h.takeInbox)
  | .startTimeout .. => .nextQ h.startTimeoutOp
  | .release .. => .nextQ (.ite h.takeInbox.releaseOp h.takeInbox)
  | .epochAdvMessage .. => .nextQ (.ite h.takeInbox.boundaryAdvance h.takeInbox)
  | .nop .. => .nextQ h.nopOp
  | .halt .. => .nextQ h.haltOp
  | .haltRetire .. => .nextQ h.haltRetireOp
  | .setl .. => .nextQ h.setlOp
  | .loopDec .. => .nextQ h.loopOp
  | .jump .. => .nextQ h.jumpOp
  | .ldt .. => .nextQ h.ldtOp
  | .matmul .. => .nextQ h.matmulOp
  | .arrayStep .. => .nextQ (.ite h.arrayStepOp h)
  | .shadowLoadComplete .. => .nextQ (.ite h.shadowLoadOp h)
  | .blockComplete .. => .nextQ (.ite h.blockCompleteOp h)
  | .rescaleAct .. => .nextQ (.ite h.rescaleActOp h)
  | .vop .. => .nextQ h.vopOp
  | .dma .. => .nextQ h.dmaOp
  | .dmaDescriptorStart .. => .nextQ (.ite h.chanStart h)
  | .dmaRow .. => .nextQ (.ite h.dmaRowOp h)
  | .gather .. => .nextQ h.gatherOp
  | .collective .. => .nextQ h.collectiveOp
  | .wait .. => .nextQ h.waitOp
  | .signal .. => .nextQ h.signalOp
  | .fence .. => .nextQ h.fenceOp
  | .fenceComplete .. => .nextQ h.fenceCheck
  | .remoteWriteSend .. => .nextQ (.ite h.remoteSendOp h)
  | .rwrite .. => .nextQ (.ite h.takeInbox.rwriteOp h.takeInbox)
  | .credit .. => .nextQ (.ite h.takeInbox.creditOp h.takeInbox)
  | .creditReturn .. => .nextQ (.ite h.creditReturnOp h)
  | .storeAccess .. => .nextQ (.ite h.accessOp h)
  | .coalescerIdleFlush .. => .nextQ (.ite h.idleFlushOp h)
  | .storeScrub .. => .nextQ (.ite h.storeScrubOp h)
  | .storeClear .. => .nextQ (h.fwWrite (fun _ h => .ite h.clearStart h))
  | .storeClearComplete .. => .nextQ h.storeClearCompleteOp
  | .debugRowRead .. => .execDebugRowRead h
  | .debugRowWrite .. => .nextQ (h.fwWrite (fun _ h => h.debugWriteOp))
  | .numClear .. => .next (h.fwWrite (fun _ h => .ite h.numClearOp h))
  | .srSeedWrite .. => .next (h.fwWrite (fun _ h => h.seedWriteOp))
  | .signalDelivery .. => .nextQ (.ite h.takeInbox.signalDeliveryOp h.takeInbox)
  | .ack .. => .nextQ (.ite h.takeInbox.ackOp h.takeInbox)
  | .nak .. => .nextQ (.ite h.takeInbox.nakOp h.takeInbox)
  | .qdArm .. => .nextQ (h.fwWrite (fun _ h => h.qdArmOp))
  | .qdDisarm .. => .nextQ (h.fwWrite (fun _ h => h.qdDisarmOp))
  | .qdWindowExpiry .. => .nextQ h.qdRefresh.windowExpiryOp
  | .quiet .. => .nextQ h.takeInbox.quietOp
  | .probe .. => .nextQ h.takeInbox.qdRefresh.probeOp
  | .qdAnswer .. => .nextQ h.takeInbox.answerOp
  | .verdict .. => .nextQ h.takeInbox.verdictOp
  | .sieveBufferGrant .. => .nextQ (.ite h.bufferGrantOp h)
  | .sieveSortComplete .. => .nextQ (.ite h.sortCompleteOp h)
  | .waveStart .. => .nextQ (.ite h.waveStartOp h)
  | .greq .. => .nextQ (.ite h.greqOp h.takeStream)
  | .furrowPartPooled .. => .nextQ (.ite h.partPooledOp h)
  | .scratch .. => .nextQ (.ite h.takeInbox.scratchOp h.takeInbox)
  | .bagCombine .. => .nextQ (.ite h.bagCombineOp h)
  | .prefetchBatch .. => .nextQ (.ite h.prefetchBatchOp h)
  | .pfetch .. => .nextQ (.ite h.pfetchOp h.takeStream)
  | .rowCacheFill .. => .next (.ite h.rowCacheFillOp h)
  | .cacheDecay => .next h.cacheDecayOp
  | .epochAdv .. => .next (h.fwWrite (fun _ h => .ite h.epochAdvance h))
  | .invalAll .. => .next (h.fwWrite (fun _ h => .ite h.rwcDropAll h))
  | .rwcInvKey .. => .next (h.fwWrite (fun _ h => .ite h.rwcInvStart h))
  | .invalidationComplete => .next h.invalidationCompleteOp
  | .update .. => .nextQ (.ite h.updateOp h.takeStream)
  | .updateEnd .. => .nextQ (.ite h.takeInbox.updateEndOp h.takeInbox)
  | .rowUpdate .. => .nextQ (.ite h.rowUpdateOp h)
  | .lease .. => .nextQ (.ite h.takeInbox.leaseOp h.takeInbox)
  | .writerStepTimeout .. => .nextQ h.writerTimeoutOp
  | .rowLockTimeout .. => .nextQ (.ite h.fenceLocks h)
  | .blockTransmit .. => .next h.blockTransmitOp
  | .dataBlock .. => .nextQ h.dataBlockOp.dropUnreachable
  | .retryBlock .. => .nextQ h.retryBlockOp.dropUnreachable
  | .linkMessage .. => .nextQ h.linkMessageOp.dropUnreachable
  | .linkMessageSend .. => .next h.linkMessageSendOp
  | .portTrainRetry .. => .next h.portTrainRetryOp
  | .portTrained .. => .next h.portTrainedOp
  | .retrain .. => .next (.ite h h.startRetrain)
  | .cskRetrainRequest .. => .next (h.fwWrite (fun _ h => .ite h h.startRetrain))
  | .retrainComplete .. => .next h.retrainCompleteOp
  | .retrainTimeout .. => .nextQ h.retrainTimeoutOp.dropUnreachable
  | .unquar .. => .next (h.fwWrite (fun _ h => .ite h.startRetrain h))
  | .packetRoute => .next h.packetRouteOp
  | .packetLifetimeExpiry .. => .next h.lifetimeExpiryOp
  | .graftEgressBlock .. => .nextQ (.ite h.egressBlockOp h)
  | .coll .. => .nextQ (.ite h.takeInbox.collOp h.takeInbox)
  | .graftWindowEnd .. => .nextQ (.ite h.windowEndOp h)
  | .verdictRound .. => .nextQ (.ite h.verdictRoundOp h)
  | .verdictRoundComplete .. => .nextQ (.ite h.verdictCompleteOp h)
  | .listenEnter .. => .next (h.fwWrite (fun _ h => h.listenEnterOp))
  | .listenWake .. => .next h.listenWakeOp
  | .referenceStable => .next h.referenceStableOp
  | .rtcTick => .next h.rtcTickOp
  | .rtcAlarm => .next h.rtcAlarmOp
  | .rtcSet .. => .next (h.fwWrite (fun _ h => h.rtcSetOp))
  | .timerExpiry .. => .next h.timerExpiryOp
  | .timerEnable .. => .next (h.fwWrite (fun _ h => h.timerEnableOp))
  | .timerDisable .. => .next (h.fwWrite (fun _ h => h.wr))
  | .expClr .. => .next (h.fwWrite (fun _ h => h.wr))
  | .kick .. => .next (h.fwWrite (fun _ h => h.kickOp))
  | .watchdogExpiry => .next h.watchdogOp
  | .gpiEdge .. => .next h.gpiEdgeOp
  | .spiStart .. => .next (h.fwWrite (fun _ h => h.spiStartOp))
  | .spiComplete .. => .next h.spiCompleteOp
  | .pdmSample .. => .next h.pdmSampleOp
  | .cmeStart .. => .next (h.fwWrite (fun _ h => h.cmeStartOp))
  | .cmeMatmul .. => .next h.cmeStepOp
  | .cmeAdd .. => .next h.cmeStepOp
  | .cmeLut .. => .next h.cmeStepOp
  | .cmeCopy .. => .next h.cmeStepOp
  | .cmeRaise .. => .next h.cmeStepOp
  | .cmeEnd .. => .next h.cmeStepOp
  | .forecastRun => .next h.forecastRunOp
  | .dormantJobTrigger .. => .next h.dormantJobOp
  | .benchHalt .. => .next (h.fwWrite (fun _ h => h.benchHaltOp))
  | .benchResume .. => .next (h.fwWrite (fun _ h => .ite h.wr h))
  | .benchStep .. => .next (h.fwWrite (fun _ h => h.benchStepOp))
  | .sourceRequest .. => .next h.sourceRequestOp
  | .coalesceWindowExpiry .. => .next h.coalesceExpiryOp
  | .benchClaim .. => .execBenchClaim h
  | .benchComplete .. => .next (h.fwWrite (fun _ h => h.benchCompleteOp))
  | .force .. => .next (h.fwWrite (fun _ h => h.forceOp))
  | .pendingClear .. => .next (h.fwWrite (fun _ h => h.pendingClearOp))
  | .flcCtlErase .. => .next (h.fwWrite (fun _ h => h.flcEraseOp))
  | .flcCtlProgram .. => .next (h.fwWrite (fun _ h => h.flcProgramOp))
  | .sectorEraseComplete .. => .next h.sectorEraseOp
  | .segmentProgramComplete .. => .next h.segmentProgramOp
  | .rcvStatus .. => .next h.rcvStatusOp
  | .rcvBegin .. => .next h.rcvBeginOp
  | .rcvData .. => .next h.rcvDataOp
  | .rcvCommit .. => .next h.rcvCommitOp
  | .powerSample .. => .next h.powerSampleOp
  | .limiterStep => .next h.limiterStepOp
  | .governorLoop => .next h.governorLoopOp
  | .demandIntervalClose => .next h.demandCloseOp
  | .intervalLog => .next h.intervalLogOp
  | .acctEn => .next (.ite h h.acctEnOp)
  | .smbusRegisterRead .. => .next h.smbusReadOp
  | .setEndpointId .. => .next h.setEidOp
  | .getEndpointId .. => .next h.mctpAnswer
  | .getEndpointUuid .. => .next h.mctpAnswer
  | .getMctpVersionSupport .. => .next (.ite h.mctpAnswer h.mctpAnswer)
  | .getMessageTypeSupport .. => .next h.mctpAnswer
  | .getVendorDefinedMessageSupport .. => .next (.ite h.mctpAnswer h.mctpAnswer)
  | .mctpUnsupportedCmd .. => .next h.mctpAnswer
  | .getPower .. => .next (h.vendor (fun _ h => h.mctpOk))
  | .getEnergy .. => .next h.getEnergyOp
  | .setTariff .. => .next h.setTariffOp
  | .setCap .. => .next h.setCapOp
  | .setTime .. => .next (h.vendor (fun _ h => h.rtcSetOp.mctpOk))
  | .readLog .. => .next h.readLogOp
  | .modelWrite .. => .next h.modelWriteOp
  | .modelErase .. => .next h.modelEraseOp
  | .readResult .. => .next h.readResultOp
  | .mctpFwWrite .. => .next h.mctpFwWriteOp
  | .mctpFwActivate .. => .next h.mctpFwActivateOp
  | .restart .. => .next (h.vendor (fun _ h => h.mctpOk.islandRestart))
  | .hbmScrub .. => .next h.hbmScrubOp
  | .hbmControllerFault .. => .nextQ h.hbmControllerFaultOp
  | .leaseFence .. => .execLeaseFence h
  | .drainExpiry .. => .nextQ h.drainExpiryOp
  | .pwrfailNRise => .next h.pwrfailRiseOp
  | .islandRailsLoss => .next h.islandRailsLossOp
  | .rtcCrystalStop => .next (.ite h.wr h)
  | .vfEnable .. => .next h.vfEnableOp
  | .vfDisable .. => .nextQ h.vfDisableOp
  | .tckEdge .. => .next h.tckOp

theorem step_keeps (h : Canon s) : Keeps (step s) := by
  unfold step
  split
  · exact .next h.tick
  · next c r _ => exact exec_keeps c h.pending

/-- Settles O59: each state-changing operation of the model keeps the canonical form, so every command and the clock do. -/
theorem everyStepKeepsMemoryCanonical : Obligations.EveryStepKeepsMemoryCanonical := by
  unfold Obligations.EveryStepKeepsMemoryCanonical
  intro s t hs ht
  exact step_keeps hs t ht

end Sys2Proof.Machine
end

/-! ## Function resets: the state whose job is unloaded over a mailbox epoch (R197, R621) -/

section
namespace Sys2Proof.Machine

/-- A serving die, its mailbox epoch of function 0 at 1, whose one loaded job of function 0 has ended and still lists
detector slot 432. TOP_QD_GST of that slot would lie at 0x9C0 + 4 · 432 = 0x1080, the address of TOP_MBX_EPOCH of
function 0. No run arms a slot above 15, but the obligation is about every state. -/
def strayEpochGroup : State :=
  ((({ jobs := [(0, { loaded := true, state := 2, groups := [432] })] } : State).wr Reg.TOP_MODE_MODE [] 1).wr
    Reg.TOP_PINSTAT_MAIN_PG [] 1).wr Reg.TOP_MBX_EPOCH_EPOCH [0] 1

theorem strayEpochGroup_served : strayEpochGroup.served = true := by decide

theorem strayEpochGroup_hostReach : strayEpochGroup.hostReach 0 = true := by decide

/-- Unloading the job disarms slot 432, which zeroes the epoch before FLR advances it: the epoch is 1 again. -/
theorem strayEpochGroup_epoch_stands :
    (qdRefresh (wakeAll (flrOp strayEpochGroup 0))).rd Reg.TOP_MBX_EPOCH_EPOCH [0] = 1 := by decide +kernel

/-- Refutes O15: an FLR of function 0 in `strayEpochGroup` leaves its mailbox epoch at 1. -/
theorem not_tenancyAndFunctionResets : ¬ Obligations.TenancyAndFunctionResets := by
  intro h
  obtain ⟨-, -, hflr, -⟩ := h strayEpochGroup 0
  obtain ⟨t, e, -, -, hepoch, -⟩ := hflr strayEpochGroup_served strayEpochGroup_hostReach
  have ht : qdRefresh (wakeAll (flrOp strayEpochGroup 0)) = t := Host.Outcome.next.inj e
  have hnext : (1 : Nat) = epochNext (strayEpochGroup.rd Reg.TOP_MBX_EPOCH_EPOCH [0]) :=
    strayEpochGroup_epoch_stands.symm.trans (ht ▸ hepoch)
  exact absurd hnext (by decide)

end Sys2Proof.Machine
end

/-! ## Writing flash, selecting a boot block and starting its image (R79, R577, R621) -/

section
namespace Sys2Proof.Machine

open Host (Outcome)

/-- A state without its flash. -/
def State.lessFlash (s : State) : State := { s with flash := {} }

section
variable {s t : State}

theorem State.lessFlash_part {α : Type} (h : t.lessFlash = s.lessFlash) (p : State → α) (hp : ∀ u : State, p u.lessFlash = p u) :
    p t = p s := by
  rw [← hp t, h, hp s]

theorem State.lessFlash_rd (h : t.lessFlash = s.lessFlash) (f : Field) (i : List Nat) : t.rd f i = s.rd f i :=
  rd_congr (State.lessFlash_part h State.regs (fun _ => rfl)) f i

theorem flashPut_lessFlash (l : List Byte) (s : State) (x : Nat) : (flashPut s x l).lessFlash = s.lessFlash := by
  induction l generalizing s x with
  | nil => rfl
  | cons b r ih => exact ih _ _

theorem programSegment_lessFlash (s : State) (x : Nat) (d : List Byte) : (programSegment s x d).lessFlash = s.lessFlash :=
  flashPut_lessFlash _ _ _

theorem eraseSector_lessFlash (s : State) (k : Nat) : (eraseSector s k).lessFlash = s.lessFlash := rfl

theorem writeSwap_lessFlash (s : State) (r : SwapRec) : (writeSwap s r).1.lessFlash = s.lessFlash := by
  unfold writeSwap
  split
  · rfl
  · dsimp only
    split
    · exact (eraseSector_lessFlash _ _).trans (programSegment_lessFlash s _ _)
    · exact programSegment_lessFlash s _ _

theorem swapUpkeep_lessFlash (s : State) : (swapUpkeep s).lessFlash = s.lessFlash := by
  unfold swapUpkeep
  extract_lets cur nxt
  split
  · rfl
  · exact eraseSector_lessFlash s nxt

/-! ### Selecting a block -/

/-- A state without its register file, its flash and what selecting and starting an image sets. -/
def State.bootView (s : State) : State :=
  { s.offFlash with
    boot := { s.boot with bootCount := 0, runVersion := 0, runSec := 0, code := none }
    cloche := { s.cloche with wdtAt := 0 } }

theorem bootView_wr (s : State) (f : Field) (i : List Nat) (x : Nat) : (s.wr f i x).bootView = s.bootView := rfl

/-- A write of a listed register keeps a frame over the registers outside the list. -/
theorem Spares.bootWr {a s : State} {ks : List Nat} (h : Spares State.bootView (· ∉ ks) a s) (f : Field) (x : Nat)
    (hk : f.key [] ∈ ks) : Spares State.bootView (· ∉ ks) a (s.wr f [] x) :=
  .wr h f [] x (bootView_wr s f [] x) (fun hn => hn hk)

theorem Spares.bootPart {α : Type} {P : Nat → Prop} {s t : State} (h : Spares State.bootView P s t) (p : State → α)
    (hp : ∀ u : State, p u.bootView = p u) : p t = p s := by
  rw [← hp t, h.view, hp s]

theorem bootView_boot (s : State) (n v w : Nat) (c : Option (FMap Byte)) :
    ({ s with boot := { s.boot with bootCount := n, runVersion := v, runSec := w, code := c } } : State).bootView =
      s.bootView := rfl

/-- The registers that show the selection. -/
def selectKeys : List Nat :=
  [Reg.TOP_BOOTSTAT_BOOT_COUNT.key [], Reg.TOP_BOOTSTAT_REVERTED.key [], Reg.TOP_BOOTSTAT_TRIES.key [],
   Reg.TOP_BOOTSTAT_FAIL_REASON.key [], Reg.TOP_BOOTSTAT_FALLBACK.key [], Reg.TOP_BOOTSTAT_TRIAL.key []]

/-- The state once the plan's record is written. -/
def State.planRecorded (s : State) (a b : ImageCheck) : State :=
  let pl := s.bootPlan
  if pl.write then (writeSwap s { pl.new with
    version := s.bootVersion pl (if pl.new.active = 0 then a else b) }).1 else s

theorem planRecorded_lessFlash (s : State) (a b : ImageCheck) : (s.planRecorded a b).lessFlash = s.lessFlash := by
  unfold State.planRecorded
  extract_lets pl
  split
  · exact writeSwap_lessFlash s _
  · rfl

/-- The state once the plan's record is written and its count shown, before the block's validity is. -/
def State.bootCounted (s : State) (a b : ImageCheck) : State :=
  let pl := s.bootPlan
  let u := s.planRecorded a b
  ((({ u with boot := { u.boot with bootCount := pl.new.bootCount } }.wr Reg.TOP_BOOTSTAT_BOOT_COUNT [] pl.new.bootCount).wrb
    Reg.TOP_BOOTSTAT_REVERTED [] pl.reverted).wr Reg.TOP_BOOTSTAT_TRIES [] pl.new.tries).wr
      Reg.TOP_BOOTSTAT_FAIL_REASON [] (if pl.reverted then 6 else 0)

theorem bootSelect_valid (a b : ImageCheck) (h : (if s.bootPlan.blk = 0 then a else b).reason = 0) :
    bootSelect s a b = (((s.bootCounted a b).wr Reg.TOP_BOOTSTAT_FALLBACK [] 0).wrb Reg.TOP_BOOTSTAT_TRIAL []
      s.bootPlan.new.trial, some s.bootPlan.blk) := if_pos h

theorem bootSelect_falls (a b : ImageCheck) (h : (if s.bootPlan.blk = 0 then a else b).reason ≠ 0) :
    bootSelect s a b = ((((s.bootCounted a b).wr Reg.TOP_BOOTSTAT_FAIL_REASON [] (if s.bootPlan.blk = 0 then a else b).reason).wr
      Reg.TOP_BOOTSTAT_FALLBACK [] 1).wr Reg.TOP_BOOTSTAT_TRIAL [] 0,
      if (if 1 - s.bootPlan.blk = 0 then a else b).reason = 0 then some (1 - s.bootPlan.blk) else none) := if_neg h

theorem bootCounted_spares (s : State) (a b : ImageCheck) :
    Spares State.bootView (· ∉ selectKeys) s (s.bootCounted a b) := by
  have hw := planRecorded_lessFlash s a b
  unfold State.bootCounted
  generalize s.planRecorded a b = u at hw ⊢
  have h0 : Spares State.bootView (· ∉ selectKeys) s u :=
    ⟨State.lessFlash_part hw State.bootView (fun _ => rfl), fun f i _ => State.lessFlash_rd hw f i⟩
  have h1 : Spares State.bootView (· ∉ selectKeys) s { u with boot := { u.boot with bootCount := s.bootPlan.new.bootCount } } :=
    h0.set rfl (bootView_boot u _ _ _ _)
  exact (((h1.bootWr _ _ (by decide)).bootWr _ _ (by decide)).bootWr _ _ (by decide)).bootWr _ _ (by decide)

theorem bootSelect_spares (s : State) (a b : ImageCheck) :
    Spares State.bootView (· ∉ selectKeys) s (bootSelect s a b).1 := by
  have h := bootCounted_spares s a b
  by_cases hv : (if s.bootPlan.blk = 0 then a else b).reason = 0
  · rw [bootSelect_valid a b hv]
    exact (h.bootWr _ _ (by decide)).bootWr _ _ (by decide)
  · rw [bootSelect_falls a b hv]
    exact ((h.bootWr _ _ (by decide)).bootWr _ _ (by decide)).bootWr _ _ (by decide)

theorem bootCounted_bootCount (s : State) (a b : ImageCheck) :
    (s.bootCounted a b).boot.bootCount = s.bootPlan.new.bootCount := by
  unfold State.bootCounted
  generalize s.planRecorded a b = u
  rfl

theorem bootSelect_bootCount (s : State) (a b : ImageCheck) :
    (bootSelect s a b).1.boot.bootCount = s.bootPlan.new.bootCount := by
  have h := bootCounted_bootCount s a b
  by_cases hv : (if s.bootPlan.blk = 0 then a else b).reason = 0
  · rw [bootSelect_valid a b hv]
    exact h
  · rw [bootSelect_falls a b hv]
    exact h

/-! ### Starting the image -/

/-- The registers that starting an image writes beside those of the log. -/
def startKeys : List Nat :=
  [Reg.CLO_FWVER_VERSION.key [], Reg.TOP_BOOTSTAT_BLOCK.key [], Reg.CLO_WDT_EN.key [], Reg.CLO_WDT_TIMEOUT_MS.key []]

/-- The state once the Bench core holds an image's code. -/
def State.codeTaken (s : State) (blk : Nat) (img : ImageCheck) : State :=
  let code : FMap Byte := s.flash.bytes.filterMap (fun e =>
    if blockAddr blk ≤ e.1 ∧ e.1 < blockAddr blk + 0x40000 then some (e.1 - blockAddr blk, e.2) else none)
  { s with boot := { s.boot with code := some code, runVersion := img.version, runSec := img.secVersion } }

theorem codeTaken_bootView (s : State) (blk : Nat) (img : ImageCheck) : (s.codeTaken blk img).bootView = s.bootView := rfl

/-- The state once an image's registers show it, before the watchdog is kicked and the log is mounted. -/
def State.imageShown (s : State) (blk : Nat) (img : ImageCheck) : State :=
  ((((s.codeTaken blk img).wr Reg.CLO_FWVER_VERSION [] img.version).wr Reg.TOP_BOOTSTAT_BLOCK [] blk).wr
    Reg.CLO_WDT_EN [] 1).wr Reg.CLO_WDT_TIMEOUT_MS [] 100

theorem startImage_eq (s : State) (blk : Nat) (img : ImageCheck) :
    startImage s blk img = mountLog (swapUpkeep (kickOp (s.imageShown blk img))) := rfl

theorem imageShown_spares (s : State) (blk : Nat) (img : ImageCheck) :
    Spares State.bootView (· ∉ startKeys) s (s.imageShown blk img) := by
  have h : Spares State.bootView (· ∉ startKeys) s (s.codeTaken blk img) :=
    .set (.refl _ _ s) rfl (codeTaken_bootView s blk img)
  unfold State.imageShown
  exact (((h.bootWr _ _ (by decide)).bootWr _ _ (by decide)).bootWr _ _ (by decide)).bootWr _ _ (by decide)

theorem kickOp_bootView (s : State) : (kickOp s).bootView = s.bootView := rfl

theorem kickOp_rd (s : State) (f : Field) (i : List Nat) : (kickOp s).rd f i = s.rd f i := rfl

/-- After its registers are shown, starting and recording an image writes flash and the log's registers alone. -/
theorem started_logged (s : State) (blk : Nat) (img : ImageCheck) :
    Logged (swapUpkeep (kickOp (s.imageShown blk img))) (bootRecord (startImage s blk img)) :=
  faultRecord_logged (mountLog_logged (.refl _)) _ _

theorem started_spares (s : State) (blk : Nat) (img : ImageCheck) :
    Spares State.bootView (· ∉ startKeys ++ logKeys) s (bootRecord (startImage s blk img)) := by
  have hshown := imageShown_spares s blk img
  have hkept := swapUpkeep_lessFlash (kickOp (s.imageShown blk img))
  have hlogged := started_logged s blk img
  refine ⟨?_, fun f i hk => ?_⟩
  · rw [hlogged.part State.bootView (fun _ => rfl), State.lessFlash_part hkept State.bootView (fun _ => rfl),
      kickOp_bootView, hshown.view]
  · obtain ⟨hstart, hlog⟩ : f.key i ∉ startKeys ∧ f.key i ∉ logKeys := by simpa [List.mem_append] using hk
    rw [hlogged.regs f i hlog, State.lessFlash_rd hkept, kickOp_rd, hshown.rd f i hstart]

theorem started_rd (s : State) (blk : Nat) (img : ImageCheck) {f : Field} {i : List Nat} (hk : f.key i ∉ logKeys) :
    (bootRecord (startImage s blk img)).rd f i = (s.imageShown blk img).rd f i := by
  rw [(started_logged s blk img).regs f i hk, State.lessFlash_rd (swapUpkeep_lessFlash _), kickOp_rd]

theorem started_boot (s : State) (blk : Nat) (img : ImageCheck) :
    (bootRecord (startImage s blk img)).boot = (s.codeTaken blk img).boot := by
  rw [(started_logged s blk img).part State.boot (fun _ => rfl),
    State.lessFlash_part (swapUpkeep_lessFlash _) State.boot (fun _ => rfl)]
  rfl

/-- A started image is shown with its version, its block and an armed watchdog. -/
theorem started_shows (s : State) {blk : Nat} {img : ImageCheck} (hb : blk < 2) (hv : img.version < 2 ^ 32) :
    (bootRecord (startImage s blk img)).rd Reg.CLO_FWVER_VERSION [] = img.version ∧
    (bootRecord (startImage s blk img)).rd Reg.TOP_BOOTSTAT_BLOCK [] = blk ∧
    (bootRecord (startImage s blk img)).rd Reg.CLO_WDT_EN [] = 1 := by
  rw [started_rd s _ _ (by decide), started_rd s _ _ (by decide), started_rd s _ _ (by decide)]
  unfold State.imageShown
  simp (disch := decide) only [rd_wr_ne, rd_wr_self]
  exact ⟨Nat.mod_eq_of_lt hv, Nat.mod_eq_of_lt hb, rfl⟩

/-! ### Recovery -/

theorem recoveryEntry_lowers (s : State) : (recoveryEntry s).rd Reg.TOP_BOOTSTAT_STATE [] = 3 ∧
    (recoveryEntry s).rd Reg.TOP_PINSTAT_MAIN_EN [] = 0 ∧ (recoveryEntry s).rd Reg.TOP_PINSTAT_VCORE_EN [] = 0 := by
  unfold recoveryEntry
  rw [vcoreOff_eq]
  simp (disch := decide) only [rd_wr_ne, rd_wr_self]
  exact ⟨rfl, rfl, rfl⟩


end

end Sys2Proof.Machine
end

/-! ## BOOT_IMAGE_VERIFIED at power-on (R75, R78, R79, R81, R621) -/

section
namespace Sys2Proof.Machine

open Host (Outcome)

/-- HBM and the plots. -/
def State.stores (s : State) : FMap Byte × FMap Plot := (s.hbm, s.plots)

theorem State.stores_hbm {s t : State} (h : t.stores = s.stores) : t.hbm = s.hbm := congrArg Prod.fst h

theorem State.stores_plots {s t : State} (h : t.stores = s.stores) : t.plots = s.plots := congrArg Prod.snd h

theorem stores_wr (s : State) (f : Field) (i : List Nat) (x : Nat) : (s.wr f i x).stores = s.stores := rfl

/-- The epoch that a boot count gives every mailbox (R621). -/
def countEpoch (n : Nat) : Nat := if n % 65536 = 0 then 1 else n % 65536

theorem countEpoch_lt (n : Nat) : countEpoch n < 2 ^ 16 := by
  unfold countEpoch
  split <;> omega

/-- The state once every mailbox has the boot's epoch. -/
def State.epochsSet (s : State) : State :=
  (List.range 16).foldl (fun u f => u.wr Reg.TOP_MBX_EPOCH_EPOCH [f] (countEpoch s.boot.bootCount)) s

/-- The state once the mailboxes have the boot's epoch and STATE shows FW_INIT. -/
def State.bootEntered (s : State) : State :=
  (s.epochsSet.wr Reg.TOP_BOOTSTAT_STATE [] 1).wr Reg.TOP_MODE_PHASE [] 2

section
variable {s : State} {a b : ImageCheck}

theorem epochKey_ne {m n : Nat} (h : m ≠ n) : Reg.TOP_MBX_EPOCH_EPOCH.key [n] ≠ Reg.TOP_MBX_EPOCH_EPOCH.key [m] := by
  simp only [Reg.TOP_MBX_EPOCH_EPOCH, Field.key, Field.addr, dotIdx]
  omega

/-- Where a field lies that is no mailbox epoch. -/
def offEpochs (k : Nat) : Prop := k < 0x1080 * 128 ∨ 0x10C0 * 128 ≤ k

theorem ne_epochKey {k m : Nat} (h : offEpochs k) (hm : m < 16) : k ≠ Reg.TOP_MBX_EPOCH_EPOCH.key [m] := by
  simp only [offEpochs, Reg.TOP_MBX_EPOCH_EPOCH, Field.key, Field.addr, dotIdx] at h ⊢
  omega

theorem epochsSet_rd (s : State) {f : Field} {i : List Nat} (h : offEpochs (f.key i)) : s.epochsSet.rd f i = s.rd f i :=
  rd_foldl_wr Reg.TOP_MBX_EPOCH_EPOCH (fun n => [n]) (fun _ _ => countEpoch s.boot.bootCount) _ _
    (fun _ hm => ne_epochKey h (List.mem_range.mp hm))

theorem epochsSet_epoch (s : State) {f : Nat} (hf : f < 16) :
    s.epochsSet.rd Reg.TOP_MBX_EPOCH_EPOCH [f] = countEpoch s.boot.bootCount :=
  (rd_foldl_wr_each Reg.TOP_MBX_EPOCH_EPOCH (fun _ _ => countEpoch s.boot.bootCount) _ List.nodup_range
    (fun _ _ => epochKey_ne) (List.mem_range.mpr hf) s).trans (Nat.mod_eq_of_lt (countEpoch_lt _))

theorem epochsSet_rest (s : State) : s.epochsSet.rest = s.rest :=
  rest_foldl_wr (fun _ => Reg.TOP_MBX_EPOCH_EPOCH) (fun n => [n]) (fun _ _ => countEpoch s.boot.bootCount) _ _

theorem epochsSet_stores (s : State) : s.epochsSet.stores = s.stores :=
  State.rest_part (epochsSet_rest s) State.stores (fun _ => rfl)

/-- The registers that asking for VCORE writes. -/
def vcoreKeys : List Nat :=
  [Reg.TOP_PINSTAT_VID.key [], Reg.PWR_STAT_VID.key [], Reg.TOP_PINSTAT_VCORE_EN.key [], Reg.TOP_MODE_PHASE.key []]

theorem vcoreAsked_onlyRegs (s : State) : OnlyRegs s s.vcoreAsked vcoreKeys :=
  ((((OnlyRegs.refl s _).wr _ _ _ (by decide)).wr _ _ _ (by decide)).wr _ _ _ (by decide)).wr _ _ _ (by decide)

theorem tryVcore_spares (s : State) : Spares State.stores (· ∉ vcoreKeys) s (tryVcore s) := by
  unfold tryVcore
  refine .ite ?_ (.refl _ _ s)
  exact ⟨rfl, (vcoreAsked_onlyRegs s).regs⟩

theorem bootEntered_spares (s : State) :
    Spares State.stores (fun k => offEpochs k ∧ k ≠ Reg.TOP_BOOTSTAT_STATE.key [] ∧ k ∉ vcoreKeys) s (tryVcore s.bootEntered) := by
  refine ⟨?_, fun f i ⟨he, hs, hv⟩ => ?_⟩
  · rw [(tryVcore_spares _).view, State.bootEntered, stores_wr, stores_wr, epochsSet_stores]
  · have hp : f.key i ≠ Reg.TOP_MODE_PHASE.key [] := fun e => hv (e ▸ by decide)
    rw [(tryVcore_spares _).rd f i hv, State.bootEntered, rd_wr_ne _ _ hp, rd_wr_ne _ _ hs, epochsSet_rd s he]

theorem bootEntered_state (s : State) : (tryVcore s.bootEntered).rd Reg.TOP_BOOTSTAT_STATE [] = 1 := by
  rw [(tryVcore_spares _).rd _ _ (by decide), State.bootEntered, rd_wr_ne _ _ (by decide), rd_wr_self]
  rfl

theorem bootEntered_epoch (s : State) {f : Nat} (hf : f < 16) :
    (tryVcore s.bootEntered).rd Reg.TOP_MBX_EPOCH_EPOCH [f] = countEpoch s.boot.bootCount := by
  have apart {g : Field} (h : offEpochs (g.key [])) : Reg.TOP_MBX_EPOCH_EPOCH.key [f] ≠ g.key [] :=
    (ne_epochKey h hf).symm
  have hv : Reg.TOP_MBX_EPOCH_EPOCH.key [f] ∉ vcoreKeys := by
    simp only [vcoreKeys, List.mem_cons, List.not_mem_nil, or_false, not_or]
    exact ⟨apart (.inl (by decide)), apart (.inr (by decide)), apart (.inl (by decide)), apart (.inl (by decide))⟩
  rw [(tryVcore_spares _).rd _ _ hv, State.bootEntered, rd_wr_ne _ _ (apart (.inl (by decide))),
    rd_wr_ne _ _ (apart (.inl (by decide))), epochsSet_epoch s hf]

theorem bootSelect_boot (s : State) (a b : ImageCheck) : (bootSelect s a b).1.boot.restarting = s.boot.restarting :=
  (bootSelect_spares s a b).bootPart (fun x => x.boot.restarting) (fun _ => rfl)

theorem bootImageOp_recovers (h0 : s.boot.porstN = true) (h1 : s.rd Reg.TOP_BOOTSTAT_STATE [] = 0) (h2 : s.boot.osc = true)
    (h3 : s.on Reg.PWR_STAT_CUT [] = false) {u : State} (hsel : bootSelect s a b = (u, none)) :
    bootImageOp s a b = recoveryEntry u := by
  unfold bootImageOp
  rw [if_neg (by simp [h0, h1, h2, h3]), hsel]

/-- At power-on a selected block is started and the die enters FW_INIT. -/
theorem bootImageOp_starts (h0 : s.boot.porstN = true) (h1 : s.rd Reg.TOP_BOOTSTAT_STATE [] = 0) (h2 : s.boot.osc = true)
    (h3 : s.on Reg.PWR_STAT_CUT [] = false) (h4 : s.boot.restarting = false) {u : State} {k : Nat}
    (hsel : bootSelect s a b = (u, some k)) :
    bootImageOp s a b = tryVcore (bootRecord (startImage u k (if k = 0 then a else b))).bootEntered := by
  have hu : u.boot.restarting = false := (congrArg (fun e => e.1.boot.restarting) hsel).symm.trans ((bootSelect_boot s a b).trans h4)
  have hr : (bootRecord (startImage u k (if k = 0 then a else b))).boot.restarting = false := by
    rw [started_boot]
    exact hu
  unfold bootImageOp
  rw [if_neg (by simp [h0, h1, h2, h3]), hsel]
  dsimp only
  generalize bootRecord (startImage u k (if k = 0 then a else b)) = w at hr ⊢
  rw [if_neg (by simp [hr])]
  rfl

/-- What the selection shows once block `k` starts: FALLBACK, and with it the reason the selected block was refused. -/
theorem bootSelect_starts {k : Nat} (hk : k < 2) (hp : s.bootPlan.blk < 2) (hv : (if k = 0 then a else b).reason = 0)
    (hsel : s.bootPlan.blk = k ∨ (if k = 0 then b else a).reason ≠ 0) (ha : a.reason < 2 ^ 8) (hb : b.reason < 2 ^ 8) :
    (bootSelect s a b).2 = some k ∧
    (bootSelect s a b).1.rd Reg.TOP_BOOTSTAT_FALLBACK [] = (if s.bootPlan.blk = k then 0 else 1) ∧
    (s.bootPlan.blk ≠ k → (bootSelect s a b).1.rd Reg.TOP_BOOTSTAT_FAIL_REASON [] = (if k = 0 then b else a).reason) := by
  by_cases he : s.bootPlan.blk = k
  · rw [bootSelect_valid a b (he ▸ hv), if_pos he]
    refine ⟨congrArg some he, ?_, fun hn => absurd he hn⟩
    dsimp only
    rw [rd_wrb_ne _ _ (by decide), rd_wr_self]
    rfl
  · have hbad := hsel.resolve_left he
    have hother : (if s.bootPlan.blk = 0 then a else b) = (if k = 0 then b else a) := by
      by_cases hz : s.bootPlan.blk = 0
      · rw [if_pos hz, if_neg (by omega)]
      · rw [if_neg hz, if_pos (by omega)]
    have hk1 : 1 - s.bootPlan.blk = k := by omega
    have hlt : (if k = 0 then b else a).reason < 2 ^ 8 := by
      split
      · exact hb
      · exact ha
    rw [bootSelect_falls a b (by rw [hother]; exact hbad), hother, hk1, if_pos hv, if_neg he]
    refine ⟨rfl, ?_, fun _ => ?_⟩
    · dsimp only
      rw [rd_wr_ne _ _ (by decide), rd_wr_self]
      rfl
    · dsimp only
      rw [rd_wr_ne _ _ (by decide), rd_wr_ne _ _ (by decide), rd_wr_self]
      exact Nat.mod_eq_of_lt hlt

theorem bootSelect_stores (s : State) (a b : ImageCheck) : (bootSelect s a b).1.stores = s.stores :=
  (bootSelect_spares s a b).bootPart State.stores (fun _ => rfl)

theorem bootSelect_pair {o : Option Nat} (h : (bootSelect s a b).2 = o) : bootSelect s a b = ((bootSelect s a b).1, o) := by
  rw [← h]

theorem recoveryEntry_stores (s : State) : (recoveryEntry s).stores = s.stores := rfl

theorem started_stores (s : State) (k : Nat) (img : ImageCheck) :
    (bootRecord (startImage s k img)).stores = s.stores :=
  (started_spares s k img).bootPart State.stores (fun _ => rfl)

theorem bootSelect_recovers (ha : a.reason ≠ 0) (hb : b.reason ≠ 0) : (bootSelect s a b).2 = none := by
  have bad (n : Nat) : (if n = 0 then a else b).reason ≠ 0 := by
    split
    · exact ha
    · exact hb
  rw [bootSelect_falls a b (bad _)]
  dsimp only
  exact if_neg (bad _)

end

/-- Settles O6: the selection, then recovery or the start of the selected block, each by what it shows and leaves. -/
theorem bootBlockSelectionAndRecovery : Obligations.BootBlockSelectionAndRecovery := by
  intro s a b h0 h1 h2 h3 h4 ha hb hva hvb
  refine ⟨fun hna hnb => ?_, fun k hk hv hsel hp => ?_⟩
  · obtain ⟨hstate, hmain, hvcore⟩ := recoveryEntry_lowers (bootSelect s a b).1
    have hstores := (recoveryEntry_stores _).trans (bootSelect_stores s a b)
    refine ⟨_, congrArg Outcome.next (bootImageOp_recovers (u := (bootSelect s a b).1) h0 h1 h2 h3 (bootSelect_pair (bootSelect_recovers hna hnb))),
      hstate, hmain, hvcore, State.stores_hbm hstores, State.stores_plots hstores⟩
  · obtain ⟨hstarts, hfall, hreason⟩ := bootSelect_starts hk hp hv hsel ha hb
    have himg : (if k = 0 then a else b).version < 2 ^ 32 := by
      split
      · exact hva
      · exact hvb
    obtain ⟨hver, hblk, hwdt⟩ := started_shows (bootSelect s a b).1 hk himg
    have hcount := (congrArg Boot.bootCount (started_boot (bootSelect s a b).1 k (if k = 0 then a else b))).trans
      (bootSelect_bootCount s a b)
    have shown {f : Field} (hf : f.key [] ∉ startKeys ++ logKeys) := (started_spares (bootSelect s a b).1 k
      (if k = 0 then a else b)).rd f [] hf
    have hstores := (started_stores (bootSelect s a b).1 k (if k = 0 then a else b)).trans (bootSelect_stores s a b)
    refine ⟨_, congrArg Outcome.next (bootImageOp_starts h0 h1 h2 h3 h4 (bootSelect_pair hstarts)), ?_⟩
    have entered := bootEntered_spares (bootRecord (startImage (bootSelect s a b).1 k (if k = 0 then a else b)))
    have hview := entered.view.trans hstores
    refine ⟨bootEntered_state _, ?_, ?_, fun hne => ?_, ?_, ?_, fun f hf => ?_, State.stores_hbm hview, State.stores_plots hview⟩
    · rw [entered.rd _ _ ⟨.inl (by decide), by decide, by decide⟩, hblk]
    · rw [entered.rd _ _ ⟨.inl (by decide), by decide, by decide⟩, shown (by decide), hfall]
    · rw [entered.rd _ _ ⟨.inl (by decide), by decide, by decide⟩, shown (by decide), hreason hne]
    · rw [entered.rd _ _ ⟨.inr (by decide), by decide, by decide⟩, hver]
    · rw [entered.rd _ _ ⟨.inr (by decide), by decide, by decide⟩, hwdt]
    · rw [bootEntered_epoch _ hf, hcount]
      rfl

end Sys2Proof.Machine
end

/-! ## The firmware exchange (R79, R193, R218, R219, R220, R545, R546, R548) -/

section
namespace Sys2Proof.Machine

open Host (Outcome)

section
variable {s t : State}

/-- HBM, the plots and the jobs. -/
def State.works (s : State) : FMap Byte × FMap Plot × FMap Job := (s.hbm, s.plots, s.jobs)

theorem State.works_parts (h : t.works = s.works) : t.hbm = s.hbm ∧ t.plots = s.plots ∧ t.jobs = s.jobs :=
  ⟨congrArg (·.1) h, congrArg (·.2.1) h, congrArg (·.2.2) h⟩

theorem works_wr (s : State) (f : Field) (i : List Nat) (x : Nat) : (s.wr f i x).works = s.works := rfl

/-! ### FW_VERIFY and FW_ACTIVATE -/

theorem trialRecord_lessFlash (s : State) (img : ImageCheck) : (trialRecord s img).lessFlash = s.lessFlash :=
  writeSwap_lessFlash s _

theorem trialRecord_cmd? (s : State) (img : ImageCheck) (f i : Nat) : (trialRecord s img).cmd? f i = s.cmd? f i :=
  State.lessFlash_part (trialRecord_lessFlash s img) (fun u => u.cmd? f i) (fun _ => rfl)

theorem answers_regs {f i : Nat} {st : Status} {body : List Byte} (h : Answers s t f i st body) : t.regs = s.regs :=
  (congrArg State.regs h.rest : t.noCmds.regs = s.noCmds.regs)

theorem answers_works {f i : Nat} {st : Status} {body : List Byte} (h : Answers s t f i st body) : t.works = s.works :=
  (congrArg State.works h.rest : t.noCmds.works = s.noCmds.works)

theorem fwVerifyOp_answers {f i : Nat} {c : Cmd} (img : ImageCheck) (h : Startable s f i 0x603 c) :
    (img.reason = 0 → Answers s (fwVerifyOp s f i img) f i .ok (leBytes 4 0)) ∧
    (img.reason ≠ 0 → Answers s (fwVerifyOp s f i img) f i .imageInvalid (failBody 0xFFFF img.reason 0)) := by
  unfold fwVerifyOp
  rw [acs_starts h]
  refine ⟨fun h0 => ?_, fun h0 => ?_⟩
  · rw [if_neg (not_not.mpr h0)]
    exact done_answers h.fetched _
  · rw [if_pos h0]
    exact fail_answers h.fetched _ _ _ _

/-- FW_ACTIVATE that fails a check answers it. -/
theorem fwActivateOp_refuses {f i : Nat} {c : Cmd} {img : ImageCheck} (h : Startable s f i 0x604 c) {e : Status × Nat}
    (hbad : s.activateBad img = some e) : Answers s (fwActivateOp s f i img) f i e.1 (failBody 0xFFFF e.2 0) := by
  unfold fwActivateOp
  rw [acs_starts h]
  simp only [hbad]
  exact fail_answers h.fetched _ _ _ _

theorem fwActivateOp_records {f i : Nat} {c : Cmd} {img : ImageCheck} (h : Startable s f i 0x604 c)
    (hbad : s.activateBad img = none) : Answers (trialRecord s img) (fwActivateOp s f i img) f i .ok [] := by
  unfold fwActivateOp
  rw [acs_starts h]
  simp only [hbad]
  exact done_answers ((trialRecord_cmd? s img f i).trans h.fetched) []

/-! ### FW_SWAP -/

/-- Completing a request writes Hedge's registers and may send vectors. -/
theorem benchCompleteOp_quiet {a : State} (h : Quiet a s) (x : Nat) : Quiet a (benchCompleteOp s x) := by
  unfold benchCompleteOp
  split
  · exact h.wr _ _ _ (by decide)
  · next hx =>
    have hlt : x < 1023 := by omega
    have inHedge {f : Field} (hb : f.base = 0x210000) (hs : f.strides = [8]) (hl : f.lo < 128) :
        0x100000 * 128 ≤ f.key [x] ∧ f.key [x] < 0x230000 * 128 := by
      simp only [Field.key, Field.addr, hb, hs, dotIdx]
      omega
    have h1 := h.wr Reg.HDG_SRC_ACTIVE [x] 0 (inHedge rfl rfl (by decide))
    have h2 := h1.wr Reg.HDG_SRC_PENDING [x] 1 (inHedge rfl rfl (by decide))
    refine hedgeDecide_quiet ?_
    split
    · split
      · exact h2
      · exact h1
    · split
      · exact h1
      · exact h2
    · exact h1

/-- The registers that entering the seam writes beside Hedge's. -/
def State.seamEntered (s : State) : State :=
  swapGo (((s.wr Reg.CLO_SPI_CTL_BUSY [] 0).wr Reg.CLO_PDM_CTL_EN [0] 0).wr Reg.CLO_PDM_CTL_EN [1] 0)

theorem seamEntry_eq (s : State) : seamEntry s = ((s.srcsWith Reg.HDG_SRC_ACTIVE).foldl benchCompleteOp s).seamEntered := rfl

theorem seamEntered_shows (s : State) : s.seamEntered.rd Reg.CLO_FWSTAT_SEAM [] = 1 ∧
    s.seamEntered.rd Reg.BNC_CTL_HALTED [] = 1 ∧ s.seamEntered.rd Reg.TOP_RSTCAUSE_SWAP [] = 1 ∧
    s.seamEntered.rd Reg.CLO_WDT_EN [] = 0 ∧ s.seamEntered.rd Reg.CLO_PDM_CTL_EN [0] = 0 ∧
    s.seamEntered.rd Reg.CLO_PDM_CTL_EN [1] = 0 := by
  unfold State.seamEntered swapGo
  simp (disch := decide) only [rd_wr_ne, rd_wr_self]
  exact ⟨rfl, rfl, rfl, rfl, rfl, rfl⟩

theorem still_wr (s : State) (f : Field) (i : List Nat) (v : Nat) : (s.wr f i v).still = s.still := rfl

theorem seamEntered_still (s : State) : s.seamEntered.still = s.still := by
  unfold State.seamEntered swapGo
  simp only [still_wr]

/-- What entering the seam leaves of a state: all that Hedge and registers do not show. -/
theorem seamEntry_still (s : State) : (seamEntry s).still = s.still := by
  rw [seamEntry_eq, seamEntered_still]
  exact (Quiet.foldl _ (fun _ x h => benchCompleteOp_quiet h x) (s.srcsWith Reg.HDG_SRC_ACTIVE) (.refl s)).still

theorem State.still_part {α : Type} (h : t.still = s.still) (p : State → α) (hp : ∀ u : State, p u.still = p u) : p t = p s := by
  rw [← hp t, h, hp s]

/-- The state that FW_SWAP takes into the seam: the trial record written and the command waiting. -/
def State.swapBegun (s : State) (c : Cmd) (img : ImageCheck) : State :=
  let u := waiting (trialRecord s img) c
  { u with cloche := { u.cloche with swapCmd := some (c.func, c.slot) } }

theorem fwSwapOp_enters {f i : Nat} {c : Cmd} {img : ImageCheck} (h : Startable s f i 0x605 c)
    (hbad : s.activateBad img = none) : fwSwapOp s f i img = seamEntry (s.swapBegun c img) := by
  unfold fwSwapOp
  rw [acs_starts h]
  simp only [hbad]
  rfl

theorem setCmd_cmd?_self {f i : Nat} {c d : Cmd} (h : s.cmd? f i = some c) (hd : d.func = f ∧ d.slot = i) :
    (s.setCmd d).cmd? f i = some d := find?_setCmd_self s.mbx.cmds h hd

theorem swapBegun_cmd? {f i : Nat} {c : Cmd} (h : s.cmd? f i = some c) (img : ImageCheck) :
    (s.swapBegun c img).cmd? f i = some { c with started := true, waiting := true } := by
  obtain ⟨hf, hi⟩ := cmd?_place h
  exact setCmd_cmd?_self ((trialRecord_cmd? s img f i).trans h) ⟨hf, hi⟩

theorem swapBegun_works (s : State) (c : Cmd) (img : ImageCheck) : (s.swapBegun c img).works = s.works :=
  State.lessFlash_part (trialRecord_lessFlash s img) State.works (fun _ => rfl)

/-- FW_SWAP past its checks: the seam is shown, the trial record stands in flash, and the command waits. -/
theorem fwSwapOp_shows {f i : Nat} {c : Cmd} {img : ImageCheck} (h : Startable s f i 0x605 c)
    (hbad : s.activateBad img = none) :
    (fwSwapOp s f i img).cloche.swapCmd = some (f, i) ∧
    (fwSwapOp s f i img).cmd? f i = some { c with started := true, waiting := true } ∧
    (fwSwapOp s f i img).flash = (trialRecord s img).flash ∧ (fwSwapOp s f i img).works = s.works := by
  obtain ⟨hf, hi⟩ := cmd?_place h.fetched
  have hs := seamEntry_still (s.swapBegun c img)
  rw [fwSwapOp_enters h hbad]
  refine ⟨?_, ?_, State.still_part hs State.flash (fun _ => rfl), ?_⟩
  · rw [State.still_part hs (fun u => u.cloche.swapCmd) (fun _ => rfl), ← hf, ← hi]
    rfl
  · exact (State.still_part hs (fun u => u.cmd? f i) (fun _ => rfl)).trans (swapBegun_cmd? h.fetched img)
  · exact (State.still_part hs State.works (fun _ => rfl)).trans (swapBegun_works s c img)

/-! ### SEAM_IMAGE_LOADED -/

/-- What a command that new firmware finds unanswered and short of its commit point answers (R193). -/
def Cmd.restarted (c : Cmd) : Cmd :=
  if c.result.isNone && !c.waiting then { c with result := some (Status.restarted.code, failBody 0xFFFF 0 0) } else c

theorem Cmd.restarted_place (c : Cmd) : c.restarted.func = c.func ∧ c.restarted.slot = c.slot := by
  unfold Cmd.restarted
  split <;> exact ⟨rfl, rfl⟩

theorem restartCmds_cmd? (s : State) (f i : Nat) : (restartCmds s).cmd? f i = (s.cmd? f i).map Cmd.restarted := by
  have hp : (fun c : Cmd => c.func == f && c.slot == i) ∘ Cmd.restarted = (fun c : Cmd => c.func == f && c.slot == i) := by
    funext c
    obtain ⟨hfunc, hslot⟩ := c.restarted_place
    simp only [Function.comp, hfunc, hslot]
  have hm : (restartCmds s).mbx.cmds = s.mbx.cmds.map Cmd.restarted := rfl
  unfold State.cmd?
  rw [hm, List.find?_map, hp]

theorem restartCmds_works (s : State) : (restartCmds s).works = s.works := rfl

theorem restartCmds_resultOf_done {f i : Nat} {r : Nat × List Byte} (h : s.resultOf f i = some r) :
    (restartCmds s).resultOf f i = some r := by
  unfold State.resultOf at h ⊢
  obtain ⟨c, hc, hr⟩ := Option.bind_eq_some_iff.mp h
  rw [restartCmds_cmd?, hc]
  have hkeep : c.restarted = c := if_neg (by simp [hr])
  rw [Option.map_some, hkeep, Option.bind_some, hr]

theorem restartCmds_resultOf_open {f i : Nat} {c : Cmd} (h : s.cmd? f i = some c) (hr : c.result = none)
    (hw : c.waiting = false) : (restartCmds s).resultOf f i = some (Status.restarted.code, failBody 0xFFFF 0 0) := by
  unfold State.resultOf
  have hnew : c.restarted = { c with result := some (Status.restarted.code, failBody 0xFFFF 0 0) } := if_pos (by simp [hr, hw])
  rw [restartCmds_cmd?, h, Option.map_some, hnew, Option.bind_some]

/-- What the exchange's command answers: OK from the new firmware, RESTARTED from the old one. -/
def exchangeAnswer (new : Bool) (img : ImageCheck) : Status × List Byte :=
  if new then (.ok, leBytes 4 img.version ++ leBytes 4 0) else (.restarted, failBody 0xFFFF 0 0)

/-- The state once the exchange's command, if one waits, has its answer. -/
def State.exchangeAnswered (s : State) (a : Status × List Byte) : State :=
  match s.cloche.swapCmd with
  | some (f, i) => s.finish f i a.1 a.2
  | none => s

/-- The Bench core runs again outside the seam. -/
def State.seamLeft (s : State) : State :=
  let u := (s.wr Reg.CLO_FWSTAT_SEAM [] 0).wr Reg.BNC_CTL_HALTED [] 0
  { u with cloche := { u.cloche with swapCmd := none } }

/-- The new firmware confirms its own block. -/
def State.swapConfirmed (s : State) (k version : Nat) : State :=
  (writeSwap s ⟨0, k, false, s.rd Reg.TOP_BOOTSTAT_TRIES [], 1, version, s.boot.bootCount⟩).1.wr Reg.TOP_BOOTSTAT_TRIAL [] 0

/-- SEAM_IMAGE_LOADED once block `k` is started: its command answers, the others restart, and the seam is left. -/
def State.exchanged (s : State) (new : Bool) (k : Nat) (img : ImageCheck) : State :=
  let u := (restartCmds (s.exchangeAnswered (exchangeAnswer new img))).seamLeft
  if new then u.swapConfirmed k img.version else u

theorem seamLoadedOp_exchanges {img : ImageCheck} (hseam : s.on Reg.CLO_FWSTAT_SEAM [] = true) {u : State} {k : Nat}
    (hsel : bootSelect s (if s.rd Reg.TOP_BOOTSTAT_BLOCK [] = 0 then ⟨0, s.boot.runVersion, s.boot.runSec⟩ else img)
      (if s.rd Reg.TOP_BOOTSTAT_BLOCK [] = 0 then img else ⟨0, s.boot.runVersion, s.boot.runSec⟩) = (u, some k)) :
    ∃ im, seamLoadedOp s img =
      (bootRecord (startImage u k im)).exchanged (k != s.rd Reg.TOP_BOOTSTAT_BLOCK []) k img := by
  refine ⟨if k != s.rd Reg.TOP_BOOTSTAT_BLOCK [] then img else ⟨0, s.boot.runVersion, s.boot.runSec⟩, ?_⟩
  unfold seamLoadedOp
  rw [if_neg (by simp [hseam])]
  extract_lets old was
  rw [hsel]
  dsimp only
  generalize bootRecord (startImage u k _) = w
  unfold State.exchanged State.exchangeAnswered
  cases hnew : (k != s.rd Reg.TOP_BOOTSTAT_BLOCK []) with
  | false => rfl
  | true => rfl

theorem State.noCmds_part {α : Type} (h : t.noCmds = s.noCmds) (p : State → α) (hp : ∀ u : State, p u.noCmds = p u) :
    p t = p s := by
  rw [← hp t, h, hp s]

theorem finish_noCmds (s : State) (f i : Nat) (st : Status) (body : List Byte) : (s.finish f i st body).noCmds = s.noCmds := by
  unfold State.finish
  split <;> rfl

theorem exchangeAnswered_noCmds (s : State) (a : Status × List Byte) : (s.exchangeAnswered a).noCmds = s.noCmds := by
  unfold State.exchangeAnswered
  split
  · exact finish_noCmds _ _ _ _ _
  · rfl

/-- The exchange's command has its answer. -/
theorem exchangeAnswered_resultOf_self {g j : Nat} {d : Cmd} (a : Status × List Byte) (hswap : s.cloche.swapCmd = some (g, j))
    (hd : s.cmd? g j = some d) : (s.exchangeAnswered a).resultOf g j = some (a.1.code, a.2) := by
  unfold State.exchangeAnswered
  rw [hswap]
  exact (finish_answers hd a.1 a.2).result

/-- Every other command stands as it was. -/
theorem exchangeAnswered_cmd?_ne {g j : Nat} (a : Status × List Byte) (hswap : s.cloche.swapCmd ≠ some (g, j)) :
    (s.exchangeAnswered a).cmd? g j = s.cmd? g j := by
  unfold State.exchangeAnswered
  split
  · next f i hfi =>
    have hne : g ≠ f ∨ j ≠ i := by
      by_contra h
      push Not at h
      exact hswap (h.1 ▸ h.2 ▸ hfi)
    cases hc : s.cmd? f i with
    | none => simp only [State.finish, hc]
    | some c => exact (finish_answers hc a.1 a.2).others g j hne
  · rfl

theorem seamLeft_works (s : State) : s.seamLeft.works = s.works := rfl

theorem swapConfirmed_part {α : Type} (s : State) (k version : Nat) (p : State → α) (hl : ∀ u : State, p u.lessFlash = p u)
    (hw : ∀ u : State, p (u.wr Reg.TOP_BOOTSTAT_TRIAL [] 0) = p u) : p (s.swapConfirmed k version) = p s :=
  (hw _).trans (State.lessFlash_part (writeSwap_lessFlash s _) p hl)

theorem swapConfirmed_rd (s : State) (k version : Nat) {f : Field} (h : f.key [] ≠ Reg.TOP_BOOTSTAT_TRIAL.key []) :
    (s.swapConfirmed k version).rd f [] = s.rd f [] :=
  (rd_wr_ne _ _ h).trans (State.lessFlash_rd (writeSwap_lessFlash s _) f [])

/-- What the exchange leaves after the commands have restarted: flash and the registers of the seam and the trial apart. -/
theorem exchanged_part {α : Type} (s : State) (new : Bool) (k : Nat) (img : ImageCheck) (p : State → α)
    (hl : ∀ u : State, p u.lessFlash = p u) (hw : ∀ u : State, p (u.wr Reg.TOP_BOOTSTAT_TRIAL [] 0) = p u) :
    p (s.exchanged new k img) = p (restartCmds (s.exchangeAnswered (exchangeAnswer new img))).seamLeft := by
  unfold State.exchanged
  cases new with
  | false => rfl
  | true => exact swapConfirmed_part _ k img.version p hl hw

theorem exchanged_works (s : State) (new : Bool) (k : Nat) (img : ImageCheck) : (s.exchanged new k img).works = s.works := by
  rw [exchanged_part s new k img State.works (fun _ => rfl) (fun _ => rfl), seamLeft_works, restartCmds_works]
  exact State.noCmds_part (exchangeAnswered_noCmds s _) State.works (fun _ => rfl)

theorem exchanged_swapCmd (s : State) (new : Bool) (k : Nat) (img : ImageCheck) :
    (s.exchanged new k img).cloche.swapCmd = none := by
  rw [exchanged_part s new k img (fun u => u.cloche.swapCmd) (fun _ => rfl) (fun _ => rfl)]
  rfl

theorem exchanged_resultOf (s : State) (new : Bool) (k : Nat) (img : ImageCheck) (f i : Nat) :
    (s.exchanged new k img).resultOf f i = (restartCmds (s.exchangeAnswered (exchangeAnswer new img))).resultOf f i := by
  rw [exchanged_part s new k img (fun u => u.resultOf f i) (fun _ => rfl) (fun _ => rfl)]
  rfl

theorem exchanged_rd (s : State) (new : Bool) (k : Nat) (img : ImageCheck) {f : Field}
    (h : f.key [] ≠ Reg.TOP_BOOTSTAT_TRIAL.key []) :
    (s.exchanged new k img).rd f [] = (restartCmds (s.exchangeAnswered (exchangeAnswer new img))).seamLeft.rd f [] := by
  unfold State.exchanged
  cases new with
  | false => rfl
  | true => exact swapConfirmed_rd _ k img.version h

theorem seamLeft_shows (s : State) : s.seamLeft.rd Reg.CLO_FWSTAT_SEAM [] = 0 ∧ s.seamLeft.rd Reg.BNC_CTL_HALTED [] = 0 ∧
    s.seamLeft.rd Reg.TOP_BOOTSTAT_BLOCK [] = s.rd Reg.TOP_BOOTSTAT_BLOCK [] := by
  have h (f : Field) : s.seamLeft.rd f [] = ((s.wr Reg.CLO_FWSTAT_SEAM [] 0).wr Reg.BNC_CTL_HALTED [] 0).rd f [] := rfl
  rw [h, h, h]
  simp (disch := decide) only [rd_wr_ne, rd_wr_self]
  exact ⟨rfl, rfl, trivial⟩

theorem exchanged_block (s : State) (new : Bool) (k : Nat) (img : ImageCheck) :
    (s.exchanged new k img).rd Reg.TOP_BOOTSTAT_BLOCK [] = s.rd Reg.TOP_BOOTSTAT_BLOCK [] := by
  obtain ⟨-, -, hblock⟩ := seamLeft_shows (restartCmds (s.exchangeAnswered (exchangeAnswer new img)))
  rw [exchanged_rd s new k img (by decide), hblock]
  exact State.noCmds_part (exchangeAnswered_noCmds s _) (fun u => u.rd Reg.TOP_BOOTSTAT_BLOCK []) (fun _ => rfl)

/-- The commands after the exchange: its own is answered, and one not past its commit point answers RESTARTED. -/
theorem exchanged_answers (s : State) (new : Bool) (k : Nat) (img : ImageCheck) :
    (∀ g j d, s.cloche.swapCmd = some (g, j) → s.cmd? g j = some d → (s.exchanged new k img).resultOf g j =
      some ((exchangeAnswer new img).1.code, (exchangeAnswer new img).2)) ∧
    (∀ g j d, s.cloche.swapCmd ≠ some (g, j) → s.cmd? g j = some d → d.result = none → d.waiting = false →
      (s.exchanged new k img).resultOf g j = some (0xD, failBody 0xFFFF 0 0)) := by
  refine ⟨fun g j d hswap hd => ?_, fun g j d hswap hd hr hw => ?_⟩
  · rw [exchanged_resultOf]
    exact restartCmds_resultOf_done (exchangeAnswered_resultOf_self _ hswap hd)
  · rw [exchanged_resultOf]
    exact restartCmds_resultOf_open ((exchangeAnswered_cmd?_ne _ hswap).trans hd) hr hw

end

/-- FW_ACTIVATE's clauses, by the check that decides. -/
theorem fwActivateOp_clauses {s : State} {f i : Nat} {c : Cmd} {img : ImageCheck} (h : Startable s f i 0x604 c) :
    (s.on Reg.TOP_BOOTSTAT_TRIAL [] = true → Answers s (fwActivateOp s f i img) f i .trialPending (failBody 0xFFFF 0 0)) ∧
    (s.on Reg.TOP_BOOTSTAT_TRIAL [] = false → s.fwBusy = true →
      Answers s (fwActivateOp s f i img) f i .busy (failBody 0xFFFF 0 0)) ∧
    (s.on Reg.TOP_BOOTSTAT_TRIAL [] = false → s.fwBusy = false → img.reason ≠ 0 →
      Answers s (fwActivateOp s f i img) f i .imageInvalid (failBody 0xFFFF img.reason 0)) ∧
    (s.on Reg.TOP_BOOTSTAT_TRIAL [] = false → s.fwBusy = false → img.reason = 0 →
      Answers (trialRecord s img) (fwActivateOp s f i img) f i .ok []) :=
  ⟨fun h0 => fwActivateOp_refuses (e := (.trialPending, 0)) h (by simp [State.activateBad, h0]),
    fun h0 h1 => fwActivateOp_refuses (e := (.busy, 0)) h (by simp [State.activateBad, h0, h1]),
    fun h0 h1 h2 => fwActivateOp_refuses (e := (.imageInvalid, img.reason)) h (by simp [State.activateBad, h0, h1, h2]),
    fun h0 h1 h2 => fwActivateOp_records h (by simp [State.activateBad, h0, h1, h2])⟩

/-- FW_ACTIVATE's OK leaves registers, HBM, plots and jobs: it writes flash alone. -/
theorem trialAnswered_parts {s t : State} {f i : Nat} {img : ImageCheck} (h : Answers (trialRecord s img) t f i .ok []) :
    t.regs = s.regs ∧ t.hbm = s.hbm ∧ t.plots = s.plots ∧ t.jobs = s.jobs :=
  ⟨(answers_regs h).trans (State.lessFlash_part (trialRecord_lessFlash s img) State.regs (fun _ => rfl)),
    State.works_parts ((answers_works h).trans (State.lessFlash_part (trialRecord_lessFlash s img) State.works (fun _ => rfl)))⟩

/-- SEAM_IMAGE_LOADED with a block selected. -/
theorem seamLoadedOp_shows {s : State} {img : ImageCheck} (hseam : s.on Reg.CLO_FWSTAT_SEAM [] = true) {k : Nat} (hk : k < 2)
    (hsel : (bootSelect s (if s.rd Reg.TOP_BOOTSTAT_BLOCK [] = 0 then ⟨0, s.boot.runVersion, s.boot.runSec⟩ else img)
      (if s.rd Reg.TOP_BOOTSTAT_BLOCK [] = 0 then img else ⟨0, s.boot.runVersion, s.boot.runSec⟩)).2 = some k) :
    ∃ v : State, seamLoadedOp s img = v.exchanged (k != s.rd Reg.TOP_BOOTSTAT_BLOCK []) k img ∧
      v.rd Reg.TOP_BOOTSTAT_BLOCK [] = k ∧ v.cloche.swapCmd = s.cloche.swapCmd ∧ v.mbx = s.mbx ∧ v.works = s.works := by
  obtain ⟨im, heq⟩ := seamLoadedOp_exchanges hseam (bootSelect_pair hsel)
  have hchosen := bootSelect_spares s (if s.rd Reg.TOP_BOOTSTAT_BLOCK [] = 0 then ⟨0, s.boot.runVersion, s.boot.runSec⟩ else img)
    (if s.rd Reg.TOP_BOOTSTAT_BLOCK [] = 0 then img else ⟨0, s.boot.runVersion, s.boot.runSec⟩)
  generalize (bootSelect s _ _).1 = u at heq hchosen
  have hstarted := started_spares u k im
  have kept {α : Type} (p : State → α) (hp : ∀ x : State, p x.bootView = p x) : p (bootRecord (startImage u k im)) = p s :=
    (hstarted.bootPart p hp).trans (hchosen.bootPart p hp)
  refine ⟨_, heq, ?_, kept (fun x => x.cloche.swapCmd) (fun _ => rfl), kept State.mbx (fun _ => rfl),
    kept State.works (fun _ => rfl)⟩
  rw [started_rd u k im (by decide), State.imageShown, rd_wr_ne _ _ (by decide), rd_wr_ne _ _ (by decide), rd_wr_self]
  exact Nat.mod_eq_of_lt hk

/-- Settles O29: FW_VERIFY, FW_ACTIVATE and FW_SWAP by their checks, then the exchange. -/
theorem firmwareExchange : Obligations.FirmwareExchange := by
  intro s
  refine ⟨fun f i c img => ⟨fun h => ?_, fun h => ?_, fun h hbad => ?_⟩, fun img => ⟨fun hseam => ?_, fun hseam => ?_⟩⟩
  · obtain ⟨hok, hbad⟩ := fwVerifyOp_answers img h
    exact ⟨fun h0 => ⟨_, rfl, hok h0⟩, fun h0 => ⟨_, rfl, hbad h0⟩⟩
  · obtain ⟨htrial, hbusy, hinvalid, hok⟩ := fwActivateOp_clauses (img := img) h
    exact ⟨fun h0 => ⟨_, rfl, htrial h0⟩, fun h0 h1 => ⟨_, rfl, hbusy h0 h1⟩, fun h0 h1 h2 => ⟨_, rfl, hinvalid h0 h1 h2⟩,
      fun h0 h1 h2 => ⟨_, rfl, hok h0 h1 h2, trialAnswered_parts (hok h0 h1 h2)⟩⟩
  · obtain ⟨hswap, hcmd, hflash, hworks⟩ := fwSwapOp_shows h hbad
    obtain ⟨hs, hh, hc, hw, hp0, hp1⟩ := seamEntered_shows
      (((s.swapBegun c img).srcsWith Reg.HDG_SRC_ACTIVE).foldl benchCompleteOp (s.swapBegun c img))
    rw [← seamEntry_eq, ← fwSwapOp_enters h hbad] at hs hh hc hw hp0 hp1
    exact ⟨_, rfl, hs, hh, hc, hw, hp0, hp1, hswap, hcmd, hflash, State.works_parts hworks⟩
  · exact ⟨_, rfl, if_pos (by simp [hseam])⟩
  · intro old was sel k hk hsel
    obtain ⟨v, heq, hblock, hswap, hmbx, hworks⟩ := seamLoadedOp_shows hseam hk hsel
    obtain ⟨hown, hopen⟩ := exchanged_answers v (k != was) k img
    obtain ⟨hs, hh, -⟩ := seamLeft_shows (restartCmds (v.exchangeAnswered (exchangeAnswer (k != was) img)))
    have hcmd (g j : Nat) : v.cmd? g j = s.cmd? g j := congrArg (fun m : Mailbox => m.cmds.find? _) hmbx
    refine ⟨_, congrArg Outcome.next heq, ?_, ?_, ?_, exchanged_swapCmd v _ k img, ?_, ?_,
      State.works_parts ((exchanged_works v _ k img).trans hworks)⟩
    · rw [exchanged_rd v _ k img (by decide), hs]
    · rw [exchanged_rd v _ k img (by decide), hh]
    · rw [exchanged_block, hblock]
    · intro g j d hg hd
      rw [hown g j d (hswap.trans hg) ((hcmd g j).trans hd)]
      by_cases hnew : k = was
      · simp [hnew, exchangeAnswer, Status.code]
      · simp [hnew, exchangeAnswer, Status.code]
    · intro g j d hg hd hr hw
      exact hopen g j d (hswap ▸ hg) ((hcmd g j).trans hd) hr hw

end Sys2Proof.Machine
end

/-! ## What ending jobs and losing the fabric leave: HBM, tenants, boot data and the die's first registers (R96, R204) -/

section
namespace Sys2Proof.Machine

open Host (Outcome)

/-- HBM, the tenants' assignments and the boot data. -/
def State.anchor (s : State) : FMap Byte × FMap Tenant × Boot := (s.hbm, s.tenants, s.boot)

/-- Keys of the die's first registers: pins, causes, boot status, mode and the time base. -/
def dieKey (k : Nat) : Prop := k < 0x300 * 128

theorem not_dieKey {f : Field} (i : List Nat) (h : 0x300 ≤ f.base) : ¬ dieKey (f.key i) := by
  simp only [dieKey, Field.key, Field.addr]
  omega

/-- `s` keeps HBM, the tenants, the boot data and the die's first registers of `a`. -/
def Held (a s : State) : Prop := Spares State.anchor dieKey a s

section
variable {a s t : State}

theorem Held.refl (s : State) : Held s s := Spares.refl _ _ s

theorem Held.same (h : Held a s) (hr : t.regs = s.regs) (hv : t.anchor = s.anchor) : Held a t := Spares.set h hr hv

protected theorem Held.mbx {x : Mailbox} (h : Held a s) : Held a { s with mbx := x } := h.same rfl rfl
protected theorem Held.hedge {x : Hedge} (h : Held a s) : Held a { s with hedge := x } := h.same rfl rfl
protected theorem Held.link {x : Link} (h : Held a s) : Held a { s with link := x } := h.same rfl rfl
protected theorem Held.plots {x : FMap Plot} (h : Held a s) : Held a { s with plots := x } := h.same rfl rfl
protected theorem Held.jobs {x : FMap Job} (h : Held a s) : Held a { s with jobs := x } := h.same rfl rfl
protected theorem Held.plotHold {x : FMap Nat} (h : Held a s) : Held a { s with plotHold := x } := h.same rfl rfl
protected theorem Held.qd {x : FMap QSlot} (h : Held a s) : Held a { s with qd := x } := h.same rfl rfl
protected theorem Held.upd {x : Updates} (h : Held a s) : Held a { s with upd := x } := h.same rfl rfl
protected theorem Held.graft {x : Graft} (h : Held a s) : Held a { s with graft := x } := h.same rfl rfl
protected theorem Held.rwc {x : RowCache} (h : Held a s) : Held a { s with rwc := x } := h.same rfl rfl
protected theorem Held.captured {x : FMap Nat} (h : Held a s) : Held a { s with captured := x } := h.same rfl rfl
protected theorem Held.emit {o : Out} (h : Held a s) : Held a (s.emit o) := h.same rfl rfl
protected theorem Held.setCmd {c : Cmd} (h : Held a s) : Held a (s.setCmd c) := h.mbx
protected theorem Held.setJob {j : Nat} {x : Job} (h : Held a s) : Held a (s.setJob j x) := h.jobs
protected theorem Held.setPlot {p : Nat} {x : Plot} (h : Held a s) : Held a (s.setPlot p x) := h.plots
protected theorem Held.setCtx {p c : Nat} {x : Ctx} (h : Held a s) : Held a (s.setCtx p c x) := h.setPlot
protected theorem Held.setQslot {g : Nat} {x : QSlot} (h : Held a s) : Held a (s.setQslot g x) := h.qd
protected theorem Held.setPort {n : Nat} {p : Port} (h : Held a s) : Held a (s.setPort n p) := h.link

protected theorem Held.ite {c : Prop} {_ : Decidable c} (hs : Held a s) (ht : Held a t) : Held a (if c then s else t) := by
  split
  · exact hs
  · exact ht

protected theorem Held.foldl {α : Type} {g : State → α → State} {l : List α} (h : Held a s)
    (hg : ∀ s x, Held a s → Held a (g s x)) : Held a (l.foldl g s) := Spares.foldl g l (fun s x _ => hg s x) h

theorem anchor_wr (s : State) (f : Field) (i : List Nat) (x : Nat) : (s.wr f i x).anchor = s.anchor := rfl

/-- Writing a register that lies after the die's first ones. -/
protected theorem Held.wr {f : Field} {i : List Nat} {v : Nat} (h : Held a s) (hb : 0x300 ≤ f.base := by decide) :
    Held a (s.wr f i v) := Spares.wr h f i v (anchor_wr s f i v) (not_dieKey i hb)

protected theorem Held.wrb {f : Field} {i : List Nat} {b : Bool} (h : Held a s) (hb : 0x300 ≤ f.base := by decide) :
    Held a (s.wrb f i b) := h.wr hb

protected theorem Held.wrapInc {f : Field} {i : List Nat} {n : Nat} (h : Held a s) (hb : 0x300 ≤ f.base := by decide) :
    Held a (s.wrapInc f i n) := h.wr hb

protected theorem Held.satInc {f : Field} {i : List Nat} {n : Nat} (h : Held a s) (hb : 0x300 ≤ f.base := by decide) :
    Held a (s.satInc f i n) := h.wr hb

theorem FMap.get_eq_find {α : Type} (m : FMap α) (d : α) (k : Nat) : FMap.get m d k = (FMap.find m k).getD d := by
  induction m with
  | nil => rfl
  | cons e r ih =>
    by_cases he : e.1 = k
    · simp [FMap.get, FMap.find, he]
    · simp [FMap.get, FMap.find, he, ih]

theorem rd_dropWhere (s : State) (p : Nat → Bool) (f : Field) (i : List Nat) (h : p (f.key i) = false) :
    ({ s with regs := FMap.dropWhere s.regs p } : State).rd f i = s.rd f i := by
  simp only [State.rd, FMap.get_eq_find, FMap.find_dropWhere s.regs (f.key i) p h]

/-- Dropping registers that lie after the die's first ones. -/
protected theorem Held.dropRegs {p : Nat → Bool} (h : Held a s) (hp : ∀ k, dieKey k → p k = false) :
    Held a { s with regs := FMap.dropWhere s.regs p } :=
  ⟨h.view, fun f i hk => (rd_dropWhere s p f i (hp _ hk)).trans (h.regs f i hk)⟩

/-- A record in the log writes flash and the log's registers. -/
theorem Held.logged (h : Held a s) (g : Logged s t) : Held a t :=
  h.trans (g.spares (fun _ => rfl) (fun k hk hm => by
    have high : ∀ j ∈ logKeys, ¬ j < 0x300 * 128 := by decide
    exact high k hm hk))

protected theorem Held.faultRecord {kind : Nat} {body : List Byte} (h : Held a s) : Held a (faultRecord s kind body) :=
  h.logged (faultRecord_logged (.refl s) kind body)

protected theorem Held.sendVector {f v : Nat} (h : Held a s) : Held a (sendVector s f v) :=
  .ite h.mbx h.wrapInc.emit

protected theorem Held.closeWindow {f v : Nat} (h : Held a s) : Held a (closeWindow s f v) :=
  h.hedge.wr.wr.sendVector

protected theorem Held.vectorRequest {f v : Nat} {idle : Bool} (h : Held a s) : Held a (vectorRequest s f v idle) := by
  unfold vectorRequest
  refine .ite h.sendVector (.ite h ?_)
  split
  · exact .ite h.wr.closeWindow h.wr
  · exact .ite h.sendVector (.ite h.hedge.wr.wr.closeWindow h.hedge.wr.wr)

protected theorem Held.evqWrite {f source data : Nat} (h : Held a s) : Held a (evqWrite s f source data) :=
  h.wr.mbx

protected theorem Held.evqLose {f : Nat} (h : Held a s) : Held a (evqLose s f) :=
  h.satInc.mbx

protected theorem Held.evqPostLost {f : Nat} (h : Held a s) : Held a (evqPostLost s f) :=
  .ite h h.evqWrite.mbx.vectorRequest

protected theorem Held.evqPost {f source data : Nat} (h : Held a s) : Held a (evqPost s f source data) :=
  .ite h.evqPostLost.evqWrite h.evqPostLost.evqLose

protected theorem Held.hostCopy {i : Nat} (h : Held a s) : Held a (hostCopy s i) :=
  .ite h.evqPost.vectorRequest h

protected theorem Held.hedgeDecide (h : Held a s) : Held a (hedgeDecide s) :=
  h.wr.wrb.wrb.wr.hedge

protected theorem Held.pulseHigh {i : Nat} (h : Held a s) : Held a (pulseHigh s i) :=
  .ite (Held.ite h h.wr).hedgeDecide h

protected theorem Held.pulseLow {i : Nat} (h : Held a s) : Held a (pulseLow s i) :=
  .ite h h.wr

protected theorem Held.hedgeEvent {i data : Nat} (h : Held a s) : Held a (hedgeEvent s i data) :=
  h.wr.pulseHigh.pulseLow.hostCopy.hedgeDecide

protected theorem Held.hedgeLevel {i : Nat} {level : Bool} {data : Nat} (h : Held a s) :
    Held a (hedgeLevel s i level data) := by
  unfold hedgeLevel
  extract_lets old s1 s2 sense act s3 asserted
  have h2 : Held a s2 := .ite h.wrb.wr h.wrb
  have h3 : Held a s3 := by
    unfold s3
    clear_value sense
    split
    · exact .ite h2 h2.wrb
    · exact .ite h2 h2.wrb
    · exact .ite h2.wr h2
    · exact .ite h2 h2.wr
    · exact h2.wr
  exact .ite h (Held.ite h3.hostCopy h3).hedgeDecide

protected theorem Held.finish {f i : Nat} {st : Status} {body : List Byte} (h : Held a s) :
    Held a (State.finish s f i st body) := by
  unfold State.finish
  split
  · exact h.setCmd
  · exact h

protected theorem Held.failCmd {f i : Nat} {st : Status} {field sub value : Nat} (h : Held a s) :
    Held a (State.failCmd s f i st field sub value) :=
  h.finish

protected theorem Held.finishCode {f i st : Nat} {body : List Byte} (h : Held a s) :
    Held a (State.finishCode s f i st body) := by
  unfold State.finishCode
  split
  · exact h.setCmd
  · exact h

protected theorem Held.done {c : Cmd} {body : List Byte} (h : Held a s) : Held a (done s c body) :=
  h.finish

protected theorem Held.fail {c : Cmd} {st : Status} {field sub value : Nat} (h : Held a s) :
    Held a (fail s c st field sub value) :=
  h.failCmd

protected theorem Held.waiting {c : Cmd} (h : Held a s) : Held a (waiting s c) :=
  h.setCmd

protected theorem Held.postCleared (h : Held a s) : Held a (postCleared s) :=
  .ite h (h.foldl (fun _ _ h => h.done))

protected theorem Held.faultVector {f : Nat} (h : Held a s) : Held a (faultVector s f) :=
  h.vectorRequest

protected theorem Held.faultVectorAll (h : Held a s) : Held a (faultVectorAll s) :=
  h.foldl (fun _ _ h => h.faultVector)

protected theorem Held.flit {n : Nat} (h : Held a s) : Held a (flit s n) :=
  h.wrapInc

protected theorem Held.injectPkt {p : Packet} (h : Held a s) : Held a (injectPkt s p) :=
  h.link.flit

protected theorem Held.showCtx {p c : Nat} (h : Held a s) : Held a (showCtx s p c) := by
  unfold showCtx
  dsimp only
  refine .ite ?_ h.wr.wr
  split
  · exact h.wr.wr.wr
  · exact h.wr.wr.wr

protected theorem Held.showArray {p cls : Nat} {fast : Bool} (h : Held a s) : Held a (showArray s p cls fast) :=
  h.wrb.wr.wr.wrb.wrb.wr.wrb.wr.wrb

protected theorem Held.showSieve {i : Nat} (h : Held a s) : Held a (showSieve s i) :=
  h.wr.wrb

protected theorem Held.showGraft {n : Nat} (h : Held a s) : Held a (showGraft s n) := by
  unfold showGraft
  dsimp only
  split
  · exact h.wr.wr.wrb.foldl (fun _ _ h => h.wr)
  · exact h.wr.wr.wrb.foldl (fun _ _ h => h.wr)

protected theorem Held.showGrafts (h : Held a s) : Held a (showGrafts s) :=
  h.foldl (fun _ _ h => h.showGraft)

protected theorem Held.showTrain (h : Held a s) : Held a (showTrain s) :=
  h.wrb

protected theorem Held.showScoreboard {p : Nat} (h : Held a s) : Held a (showScoreboard s p) :=
  h.wr

protected theorem Held.closeWindows {p : Nat} (h : Held a s) : Held a (closeWindows s p) :=
  h.foldl (fun _ _ h => h.wr)

protected theorem Held.qdDisarmOp {g : Nat} (h : Held a s) : Held a (qdDisarmOp s g) :=
  (Held.ite h.wr.wr.wrapInc h.wr.wr).wr.wr.wr.setQslot

protected theorem Held.dropJobEntries {job : Nat} (h : Held a s) : Held a (dropJobEntries s job) :=
  h.graft.showGrafts

protected theorem Held.dropLeaving (h : Held a s) : Held a (dropLeaving s) :=
  h.upd

protected theorem Held.removeOwn {j : Nat} (h : Held a s) : Held a (removeOwn s j) :=
  h.dropJobEntries.upd.dropLeaving

protected theorem Held.undoStart {j : Nat} (h : Held a s) : Held a (undoStart s j) :=
  (((h.foldl (fun _ _ h => h.closeWindows)).foldl (fun _ _ h => h.wr)).foldl
      (fun _ _ h => h.qdDisarmOp)).removeOwn.setJob

protected theorem Held.abandonStart {j : Nat} {st : Status} {value : Nat} (h : Held a s) :
    Held a (abandonStart s j st value) := by
  unfold abandonStart
  dsimp only
  split
  · exact h
  · exact (h.undoStart.foldl (fun _ _ h => h.injectPkt)).failCmd

theorem Field.addr_high {f : Field} {i : List Nat} (hb : 0x300 ≤ f.base := by decide) : 0x300 ≤ f.addr i :=
  hb.trans (Nat.le_add_right _ _)

theorem commitAddr_high (x : StagedSet) : 0x300 ≤ commitAddr x := by
  cases x <;> exact Field.addr_high

protected theorem Held.dropSet {x : StagedSet} (h : Held a s) : Held a (dropSet s x) :=
  .ite ((h.foldl (fun _ _ h => h.captured)).wr (commitAddr_high x)) h

protected theorem Held.dropWork {p c : Nat} (h : Held a s) : Held a (dropWork s p c) := by
  have hd : ∀ x y, Held a { s with sieves := x, graft := y } := fun _ _ => h.same rfl rfl
  exact (hd _ _).showSieve.showSieve

protected theorem Held.haltCtx {p c : Nat} (h : Held a s) : Held a (haltCtx s p c) := by
  unfold haltCtx
  extract_lets s1 x s3 live s4 s5
  have h3 : Held a s3 := h.dropSet.dropSet.dropWork.setCtx
  have h5 : Held a s5 := (Held.ite h3.wr h3).showCtx
  exact .ite (.ite h5.hedgeEvent h5) h

protected theorem Held.haltPlot {p : Nat} (h : Held a s) : Held a (haltPlot s p) :=
  (h.foldl (fun _ _ h => h.haltCtx)).setPlot.showArray

protected theorem Held.sendReleases {b : List Byte} (h : Held a s) : Held a (sendReleases s b) :=
  h.foldl (fun _ _ h => h.foldl (fun _ _ h1 => h1.injectPkt))

protected theorem Held.endBatches {j : Nat} (h : Held a s) : Held a (endBatches s j) :=
  h.setJob.foldl (fun _ _ h => h.failCmd)

protected theorem Held.postWaits {j : Nat} (h : Held a s) : Held a (postWaits s j) :=
  h.foldl (fun _ _ h => h.finishCode)

protected theorem Held.endJob {j : Nat} {st : Status} (h : Held a s) : Held a (endJob s j st) := by
  unfold endJob
  extract_lets x s1 s2 s3 s4 s5 hold s6 s7 s8 s9 s10 g
  have h2 : Held a s2 := (h.foldl fun _ _ h => h.haltPlot).foldl fun _ _ h => h.closeWindows
  have h5 : Held a s5 := h2.dropJobEntries.sendReleases.foldl fun _ _ h => h.qdDisarmOp
  have h7 : Held a s7 := (h5.foldl fun _ _ h => h.plotHold).setJob
  have h8 : Held a s8 := .ite h7 h7.endBatches
  have h10 : Held a s10 := (h8.foldl fun _ _ h => h.finish).postWaits
  exact .ite h (.ite h10 h10.faultRecord)

protected theorem Held.unloadJob {j : Nat} (h : Held a s) : Held a (unloadJob s j) :=
  (((h.foldl (fun _ _ h => h.closeWindows)).foldl (fun _ _ h => h.qdDisarmOp)).removeOwn.upd.foldl
      (fun _ _ h => h.failCmd)).setJob.showTrain

protected theorem Held.dropJob {j : Nat} (h : Held a s) : Held a (dropJob s j) :=
  .ite h.abandonStart.endJob.unloadJob h

protected theorem Held.clearStart {p : Nat} (h : Held a s) : Held a (clearStart s p) :=
  .ite h h.setPlot.wr.showScoreboard

protected theorem Held.tenantChange {p : Nat} (h : Held a s) : Held a (tenantChange s p) :=
  .ite h.haltPlot.closeWindows.clearStart h

protected theorem Held.rwcDrop {p : Nat → Nat → Bool} (h : Held a s) : Held a (rwcDrop s p) :=
  h.rwc

protected theorem Held.rwcDropAll (h : Held a s) : Held a (rwcDropAll s) :=
  h.rwcDrop

theorem epochFields_high : ∀ e ∈ epochFields, 0x300 ≤ e.1.base := by
  intro e he
  simp only [epochFields, List.mem_append, List.mem_map] at he
  rcases he with (⟨_, -, rfl⟩ | ⟨_, -, rfl⟩) | ⟨_, -, rfl⟩
  · exact (by decide : 0x300 ≤ Reg.STO_WIN_EPOCH.base)
  · exact (by decide : 0x300 ≤ Reg.TOP_QD_GRP_EPOCH.base)
  · exact (by decide : 0x300 ≤ Reg.FUR_LOCK_EPOCH.base)

protected theorem Held.advanceEpochs (h : Held a s) : Held a (advanceEpochs s) :=
  have hw : Held a (epochFields.foldl (fun s e => s.wr e.1 e.2 (s.firstEpoch (s.rd e.1 e.2))) s) :=
    Spares.foldl _ _ (fun _ e he h => Held.wr h (epochFields_high e he)) h
  hw.upd

protected theorem Held.dropSets {p : StagedSet → Bool} (h : Held a s) : Held a (dropSets s p) :=
  .ite h (h.foldl (fun _ _ h => h.dropSet))

protected theorem Held.setPortState {n st : Nat} (h : Held a s) : Held a (setPortState s n st) :=
  .ite h h.wr.hedgeEvent

protected theorem Held.portsStop (h : Held a s) : Held a (portsStop s) :=
  h.foldl (fun _ _ h => h.setPortState.setPort)

/-- The fabric's registers lie after the die's first ones. -/
theorem dieKey_not_core {k : Nat} (h : dieKey k) : coreAddr (k / 128) = false := by
  unfold dieKey at h
  simp only [coreAddr, Bool.or_eq_false_iff, Bool.and_eq_false_iff, decide_eq_false_iff_not]
  omega

/-- The loss of VCORE drops the fabric's registers and parts that hold no anchor. -/
protected theorem Held.coreLoss (h : Held a s) : Held a (coreLoss s) := by
  refine Held.foldl ?_ fun _ _ h => h.hedgeLevel
  exact (h.dropRegs fun k hk => by rw [dieKey_not_core hk, Bool.false_and, Bool.false_and]).same rfl rfl

protected theorem Held.linkLoss (h : Held a s) : Held a (linkLoss s) := by
  have hstop := h.portsStop
  unfold linkLoss
  generalize portsStop s = u at hstop ⊢
  refine (hstop.dropRegs fun k hk => ?_).same rfl rfl
  unfold dieKey at hk
  exact Bool.and_eq_false_imp.mpr fun hc => absurd (of_decide_eq_true (Bool.and_eq_true_iff.mp hc).1) (by omega)

protected theorem Held.fabricJob {st : Status} {s : State} {j : Nat} (h : Held a s) : Held a (fabricJob st s j) :=
  .ite h (.ite h.abandonStart.setJob.postWaits h.abandonStart.endJob)

protected theorem Held.fabricAbort {st : Status} {but : Option (Nat × Nat)} (h : Held a s) :
    Held a (fabricAbort s st but) :=
  (h.foldl (fun _ _ h => h.fabricJob)).foldl (fun _ _ h => h.fail)

end

end Sys2Proof.Machine
end

/-! ## The fabric reset from command to completion, and the restart of the island (R96, R97, R99, R101, R195) -/

section
namespace Sys2Proof.Machine

open Host (Outcome)

section
variable {s t : State}

/-- What the end of a command of the compute core leaves: all but registers, plots and detector slots. -/
theorem Settles.part {α : Type} (h : Settles s t) (p : State → α)
    (hp : ∀ u : State, p { u with regs := [], plots := [], qd := [] } = p u) : p t = p s := by
  rw [← hp t, h.rest, hp s]

/-! ### DEV_RESET of the fabric -/

/-- The fabric is gone: jobs ended, VCORE's state and the ports' lost. -/
def State.fabricGone (s : State) (cmd : Option (Nat × Nat)) : State := linkLoss (coreLoss (fabricAbort s .aborted cmd))

/-- The pins and the boot status that a starting fabric reset shows. -/
def State.fabricShown (s : State) : State :=
  let s := (s.wr Reg.TOP_RSTCAUSE_FABRIC [] 1).wr Reg.TOP_BOOTSTAT_STATE [] 1
  let s := ((s.wr Reg.TOP_MODE_PHASE [] 2).wr Reg.TOP_HARVEST_PLOT_EN [] 0).wr Reg.TOP_HARVEST_PLOT_COUNT [] 0
  let s := (vcoreOff s).wr Reg.TOP_PINSTAT_VCORE_PG [] 0
  (driveVid s 0x64).wr Reg.TOP_PINSTAT_VCORE_EN [] 1

/-- The boot data `b` of a die whose fabric reset starts at `now` for the command `cmd`. -/
def Boot.resetBegun (x b : Boot) (now : Nat) (serving : Bool) (cmd : Option (Nat × Nat)) : Boot :=
  { x with
    vcoreEnAt := now + msCounts 1, bistDone := false, trained := false, fabricReset := serving
    fabricAt := if b.fabricReset then b.fabricAt else now
    fabricCmd := if b.fabricReset then b.fabricCmd else cmd }

/-- The state of a starting fabric reset before the host is told. -/
def State.resetBegun (s : State) (b : Boot) (cmd : Option (Nat × Nat)) : State :=
  let u := s.fabricShown
  { u with boot := u.boot.resetBegun b u.now (u.on Reg.TOP_MODE_MODE []) cmd }

theorem fabricReset_eq (s : State) (cmd : Option (Nat × Nat)) :
    fabricReset s cmd = postCleared (faultVectorAll ((s.fabricGone cmd).resetBegun s.boot cmd)) := rfl

theorem fabricGone_held (s : State) (cmd : Option (Nat × Nat)) : Held s (s.fabricGone cmd) :=
  (Held.refl s).fabricAbort.coreLoss.linkLoss

theorem fabricShown_rd (s : State) :
    s.fabricShown.rd Reg.TOP_RSTCAUSE_FABRIC [] = 1 ∧ s.fabricShown.rd Reg.TOP_BOOTSTAT_STATE [] = 1 ∧
    s.fabricShown.rd Reg.TOP_MODE_PHASE [] = 2 ∧ s.fabricShown.rd Reg.TOP_HARVEST_PLOT_EN [] = 0 ∧
    s.fabricShown.rd Reg.TOP_PINSTAT_VCORE_PG [] = 0 ∧ s.fabricShown.rd Reg.TOP_PINSTAT_VCORE_EN [] = 1 ∧
    s.fabricShown.rd Reg.TOP_PINSTAT_VID [] = 0x64 := by
  unfold State.fabricShown
  simp only [vcoreOff_eq, driveVid_eq]
  simp (disch := decide) only [rd_wr_ne, rd_wr_self]
  exact ⟨rfl, rfl, rfl, rfl, rfl, rfl, rfl⟩

theorem fabricShown_now (s : State) : s.fabricShown.now = s.now := by
  unfold State.fabricShown
  simp only [vcoreOff_eq, driveVid_eq]
  simp (disch := decide) only [now_wr]

theorem fabricShown_anchor (s : State) : s.fabricShown.anchor = s.anchor := by
  unfold State.fabricShown
  simp only [vcoreOff_eq, driveVid_eq, anchor_wr]

theorem held_now (h : Held s t) : t.now = s.now := h.rd Reg.TOP_TIMEBASE_COUNT [] (by unfold dieKey; decide)

theorem State.anchor_hbm (h : t.anchor = s.anchor) : t.hbm = s.hbm := congrArg (fun v => v.1) h

theorem held_hbm (h : Held s t) : t.hbm = s.hbm := State.anchor_hbm h.view

theorem held_boot (h : Held s t) : t.boot = s.boot := congrArg (fun v => v.2.2) h.view

theorem held_tenants (h : Held s t) : t.tenants = s.tenants := congrArg (fun v => v.2.1) h.view

/-- What a state shows of a starting fabric reset. -/
structure FabricBegun (t : State) : Prop where
  cause : t.rd Reg.TOP_RSTCAUSE_FABRIC [] = 1
  state : t.rd Reg.TOP_BOOTSTAT_STATE [] = 1
  phase : t.rd Reg.TOP_MODE_PHASE [] = 2
  plots : t.rd Reg.TOP_HARVEST_PLOT_EN [] = 0
  vcorePg : t.rd Reg.TOP_PINSTAT_VCORE_PG [] = 0
  vcoreEn : t.rd Reg.TOP_PINSTAT_VCORE_EN [] = 1
  vid : t.rd Reg.TOP_PINSTAT_VID [] = 0x64

theorem resetBegun_shows (s : State) (b : Boot) (cmd : Option (Nat × Nat)) : FabricBegun (s.resetBegun b cmd) := by
  obtain ⟨h1, h2, h3, h4, h5, h6, h7⟩ := fabricShown_rd s
  unfold State.resetBegun
  generalize s.fabricShown = u at *
  exact ⟨h1, h2, h3, h4, h5, h6, h7⟩

theorem resetBegun_hbm (s : State) (b : Boot) (cmd : Option (Nat × Nat)) : (s.resetBegun b cmd).hbm = s.hbm := by
  have h := State.anchor_hbm (fabricShown_anchor s)
  unfold State.resetBegun
  generalize s.fabricShown = u at *
  exact h

/-- Changes that keep the die's first registers keep what they show. -/
theorem FabricBegun.of_regs (h : FabricBegun s) (k : ∀ f : Field, dieKey (f.key []) → t.rd f [] = s.rd f []) :
    FabricBegun t where
  cause := (k _ (by unfold dieKey; decide)).trans h.cause
  state := (k _ (by unfold dieKey; decide)).trans h.state
  phase := (k _ (by unfold dieKey; decide)).trans h.phase
  plots := (k _ (by unfold dieKey; decide)).trans h.plots
  vcorePg := (k _ (by unfold dieKey; decide)).trans h.vcorePg
  vcoreEn := (k _ (by unfold dieKey; decide)).trans h.vcoreEn
  vid := (k _ (by unfold dieKey; decide)).trans h.vid

theorem dieKey_not_settles {k : Nat} (h : dieKey k) : k ∉ settleKeys := by
  intro hm
  simp only [settleKeys, List.mem_append, List.mem_flatMap, List.mem_cons, List.not_mem_nil, or_false] at hm
  rcases hm with ⟨e, -, rfl | rfl | rfl⟩ | ⟨g, -, rfl | rfl | rfl | rfl⟩
  all_goals exact not_dieKey _ (by decide) h

/-- Contexts that resume and slots that follow keep HBM, the tenants, the boot data and the die's first registers. -/
theorem Settles.held (h : Settles s t) : Held s t :=
  ⟨h.part State.anchor (fun _ => rfl), fun f i hk => h.regs f i (dieKey_not_settles hk)⟩

/-- A fabric reset's start, the host told and the contexts settled. -/
theorem fabricReset_shows (s : State) (cmd : Option (Nat × Nat)) {t : State} (h : Settles (fabricReset s cmd) t) :
    FabricBegun t ∧ t.hbm = s.hbm ∧
      (s.boot.fabricReset = false → t.boot.fabricCmd = cmd ∧ t.boot.fabricAt = s.now) := by
  rw [fabricReset_eq] at h
  have hgone := fabricGone_held s cmd
  have hnow := (fabricShown_now (s.fabricGone cmd)).trans (held_now hgone)
  have hbegun := resetBegun_shows (s.fabricGone cmd) s.boot cmd
  have hboot : ((s.fabricGone cmd).resetBegun s.boot cmd).boot.fabricCmd =
      (if s.boot.fabricReset then s.boot.fabricCmd else cmd) ∧
      ((s.fabricGone cmd).resetBegun s.boot cmd).boot.fabricAt = (if s.boot.fabricReset then s.boot.fabricAt else s.now) := by
    unfold State.resetBegun
    rw [← hnow]
    exact ⟨rfl, rfl⟩
  have hhbm := (resetBegun_hbm (s.fabricGone cmd) s.boot cmd).trans (held_hbm hgone)
  generalize (s.fabricGone cmd).resetBegun s.boot cmd = u at h hbegun hboot hhbm
  have hheld : Held u t := (Held.refl u).faultVectorAll.postCleared.trans h.held
  refine ⟨hbegun.of_regs fun f hf => hheld.rd f [] hf, (held_hbm hheld).trans hhbm, fun hf => ?_⟩
  rw [held_boot hheld, hboot.1, hboot.2, hf]
  exact ⟨rfl, rfl⟩

/-! ### DEV_RESET of the island -/

/-- The state of a restarting island. -/
theorem islandRestart_shows (s : State) :
    (islandRestart s).rd Reg.TOP_RSTCAUSE_ISLAND [] = 1 ∧ (islandRestart s).rd Reg.TOP_BOOTSTAT_STATE [] = 0 ∧
    (islandRestart s).rd Reg.CLO_WDT_EN [] = 0 := by
  have h (f : Field) : (islandRestart s).rd f [] = ((((s.wr Reg.TOP_RSTCAUSE_ISLAND [] 1).wr Reg.TOP_BOOTSTAT_STATE [] 0).wr
    Reg.CLO_WDT_EN [] 0).wr Reg.CLO_FWSTAT_SEAM [] 0 |>.wr Reg.BNC_CTL_HALTED [] 0).rd f [] := rfl
  rw [h, h, h]
  simp (disch := decide) only [rd_wr_ne, rd_wr_self]
  exact ⟨rfl, rfl, rfl⟩

theorem islandRestart_boot (s : State) : (islandRestart s).boot.restarting = true ∧
    (islandRestart s).boot.islandCmd = s.boot.islandCmd := ⟨rfl, rfl⟩

/-- HBM, plots, jobs, tables, tenants and commands: what the island does not hold. -/
def State.offIsland (s : State) : FMap Byte × FMap Plot × FMap Job × FMap Tbl × FMap Tenant × Mailbox :=
  (s.hbm, s.plots, s.jobs, s.tbls, s.tenants, s.mbx)

theorem islandRestart_offIsland (s : State) : (islandRestart s).offIsland = s.offIsland := rfl

/-- The state of the DEV_RESET that restarts the island: its command waits. -/
def State.islandAsked (s : State) (c : Cmd) (f i : Nat) : State :=
  { waiting s c with boot := { s.boot with islandCmd := some (f, i) } }

theorem islandAsked_cmd? {f i : Nat} {c : Cmd} (h : s.cmd? f i = some c) :
    (s.islandAsked c f i).cmd? f i = some { c with started := true, waiting := true } := by
  obtain ⟨hf, hi⟩ := cmd?_place h
  exact setCmd_cmd?_self h ⟨hf, hi⟩

theorem devResetOp_fabric {f i : Nat} {c : Cmd} (h : Startable s f i 0x102 c) (hk : c.fld 8 1 = 1) (hr : s.role ≠ 2) :
    devResetOp s f i = fabricReset (waiting s c) (some (f, i)) := by
  unfold devResetOp
  rw [acs_starts h, hk]
  exact if_neg hr

theorem devResetOp_island {f i : Nat} {c : Cmd} (h : Startable s f i 0x102 c) (hk : c.fld 8 1 = 2) :
    devResetOp s f i = islandRestart (s.islandAsked c f i) := by
  unfold devResetOp
  rw [acs_starts h, hk]
  rfl

theorem devResetOp_refuses {f i : Nat} {c : Cmd} (h : Startable s f i 0x102 c) (h1 : c.fld 8 1 ≠ 1) (h2 : c.fld 8 1 ≠ 2) :
    Answers s (devResetOp s f i) f i .badParam (failBody 8 0 (c.fld 8 1)) := by
  unfold devResetOp
  rw [acs_starts h]
  split
  · next e => exact absurd e h1
  · next e => exact absurd e h2
  · exact fail_answers h.fetched _ _ _ _

/-! ### FABRIC_RESET_COMPLETE -/

/-- READY again, the fabric reset over. -/
def State.fabricBack (s : State) : State :=
  let u := (s.wr Reg.TOP_MODE_PHASE [] 8).wr Reg.TOP_BOOTSTAT_STATE [] 2
  { u with boot := { u.boot with fabricReset := false, fabricCmd := none, hostResetHeld := false } }

theorem fabricBack_shows (s : State) : s.fabricBack.rd Reg.TOP_BOOTSTAT_STATE [] = 2 ∧
    s.fabricBack.rd Reg.TOP_MODE_PHASE [] = 8 ∧ s.fabricBack.now = s.now ∧ s.fabricBack.hbm = s.hbm ∧
    s.fabricBack.boot.fabricReset = false ∧ s.fabricBack.mbx = s.mbx := by
  have hrd (f : Field) : s.fabricBack.rd f [] = ((s.wr Reg.TOP_MODE_PHASE [] 8).wr Reg.TOP_BOOTSTAT_STATE [] 2).rd f [] := rfl
  refine ⟨(hrd _).trans (rd_wr_self _ _ _ _), (hrd _).trans ?_, (hrd _).trans ?_, rfl, rfl, rfl⟩
  · rw [rd_wr_ne _ _ (by decide), rd_wr_self]
    rfl
  · rw [rd_wr_ne _ _ (by decide), rd_wr_ne _ _ (by decide)]
    rfl

/-- The loop over a list of epochs writes registers alone. -/
theorem epochLoop_rest (l : List (Field × List Nat)) (s : State) :
    (l.foldl (fun s e => s.wr e.1 e.2 (s.firstEpoch (s.rd e.1 e.2))) s).rest = s.rest := by
  induction l generalizing s with
  | nil => rfl
  | cons e r ih => rw [List.foldl_cons, ih, rest_wr]

/-- Every epoch of the fabric advanced in its register. -/
def State.epochsAdvanced (s : State) : State :=
  epochFields.foldl (fun s e => s.wr e.1 e.2 (s.firstEpoch (s.rd e.1 e.2))) s

theorem epochsAdvanced_rest (s : State) : s.epochsAdvanced.rest = s.rest := epochLoop_rest epochFields s

theorem advanceEpochs_eq (s : State) : advanceEpochs s = { s.epochsAdvanced with
    upd := { s.epochsAdvanced.upd with epochs := s.epochsAdvanced.upd.epochs.map (fun e => (e.1, epochNext e.2)) } } := rfl

theorem advanceEpochs_mbx (s : State) : (advanceEpochs s).mbx = s.mbx := by
  have h := State.rest_part (epochsAdvanced_rest s) State.mbx (fun _ => rfl)
  rw [advanceEpochs_eq]
  generalize s.epochsAdvanced = u at h ⊢
  exact h

/-- The command that waited for the fabric, if any, answers the time base. -/
def State.fabricAnswered (s : State) (cmd : Option (Nat × Nat)) : State :=
  match cmd with
  | some (f, i) => s.finish f i .ok (leBytes 8 s.now)
  | none => s

theorem fabricCompleteOp_eq (h0 : s.boot.fabricReset = true) (h1 : s.coreUp = true) (h2 : s.boot.bistDone = true)
    (h3 : s.boot.trained = true) (h4 : s.boot.hostResetHeld = false) :
    fabricCompleteOp s = (advanceEpochs s).fabricBack.fabricAnswered s.boot.fabricCmd := by
  unfold fabricCompleteOp
  simp only [h0, h1, h2, h3, h4, Bool.not_true, Bool.false_eq_true, or_self, if_false]
  rfl

theorem fabricAnswered_noCmds (s : State) (cmd : Option (Nat × Nat)) : (s.fabricAnswered cmd).noCmds = s.noCmds := by
  unfold State.fabricAnswered
  split
  · exact finish_noCmds _ _ _ _ _
  · rfl

theorem fabricAnswered_resultOf {f i : Nat} {c : Cmd} (h : s.cmd? f i = some c) :
    (s.fabricAnswered (some (f, i))).resultOf f i = some (0, leBytes 8 s.now) := (finish_answers h .ok _).result

/-! ### FABRIC_RESET_TIMEOUT -/

theorem portState_setPortState_self {n st : Nat} (hn : n < 8) (hst : st < 2 ^ Reg.CSK_STAT_STATE.wid) :
    (setPortState s n st).portState n = st := by
  unfold setPortState
  split
  · next h => exact h
  · have hout : outside (Reg.CSK_STAT_STATE.key [n]) := by
      simp only [outside, Reg.CSK_STAT_STATE, Field.key, Field.addr, dotIdx]
      omega
    unfold State.portState
    rw [(hedgeEvent_quiet (.refl _) st (by omega)).regs _ _ hout, rd_wr_self]
    exact Nat.mod_eq_of_lt hst

theorem portState_setPortState_ne {n m st : Nat} (hn : n < 8) (hne : m ≠ n) :
    (setPortState s n st).portState m = s.portState m := by
  unfold setPortState
  split
  · rfl
  · have hout : outside (Reg.CSK_STAT_STATE.key [m]) := by
      simp only [outside, Reg.CSK_STAT_STATE, Field.key, Field.addr, dotIdx]
      omega
    have hkey : Reg.CSK_STAT_STATE.key [m] ≠ Reg.CSK_STAT_STATE.key [n] := by
      simp only [Reg.CSK_STAT_STATE, Field.key, Field.addr, dotIdx]
      omega
    unfold State.portState
    rw [(hedgeEvent_quiet (.refl _) st (by omega)).regs _ _ hout, rd_wr_ne _ _ hkey]

/-- Stopping the ports of a list leaves each of them down. -/
theorem portsStop_down {l : List Nat} (hl : ∀ n ∈ l, n < 8) {m : Nat} (h : m ∈ l ∨ s.portState m = psDown) :
    (l.foldl (fun s n => (setPortState s n psDown).setPort n {}) s).portState m = psDown := by
  induction l generalizing s with
  | nil => exact h.resolve_left List.not_mem_nil
  | cons n r ih =>
    have hn := hl n (.head _)
    refine ih (fun k hk => hl k (.tail _ hk)) ?_
    by_cases hm : m = n
    · subst hm
      exact .inr (portState_setPortState_self hn (by decide))
    · refine h.imp (fun hmem => (List.mem_cons.mp hmem).resolve_left hm) (fun hd => ?_)
      exact (portState_setPortState_ne hn hm).trans hd

theorem portsStop_portState (s : State) {n : Nat} (hn : n < 8) : (portsStop s).portState n = psDown :=
  portsStop_down (fun _ => List.mem_range.mp) (.inl (List.mem_range.mpr hn))

/-- The die halted with its fabric's state lost. -/
def State.fabricHalted (s : State) : State := haltDie (coreLoss (fabricAbort s .fabricHalted none))

/-- The registers of a die that halts, before its ports stop. -/
def State.vcoreHalted (s : State) : State := (vcoreOff s).wr Reg.TOP_MODE_MODE [] 3

theorem vcoreHalted_shows (s : State) : s.vcoreHalted.rd Reg.TOP_MODE_MODE [] = 3 ∧
    s.vcoreHalted.rd Reg.TOP_PINSTAT_VCORE_EN [] = 0 ∧ s.vcoreHalted.hbm = s.hbm := by
  unfold State.vcoreHalted
  rw [vcoreOff_eq]
  simp (disch := decide) only [rd_wr_ne, rd_wr_self]
  exact ⟨rfl, rfl, rfl⟩

theorem haltDie_eq (s : State) : haltDie s = portsStop s.vcoreHalted := rfl

theorem haltDie_shows (s : State) : (haltDie s).rd Reg.TOP_MODE_MODE [] = 3 ∧ (haltDie s).rd Reg.TOP_PINSTAT_VCORE_EN [] = 0 ∧
    (haltDie s).hbm = s.hbm ∧ ∀ n, n < 8 → (haltDie s).portState n = psDown := by
  obtain ⟨hmode, hvcore, hhbm⟩ := vcoreHalted_shows s
  rw [haltDie_eq]
  generalize s.vcoreHalted = u at *
  have hstop := (Held.refl u).portsStop
  exact ⟨(hstop.rd _ _ (by unfold dieKey; decide)).trans hmode, (hstop.rd _ _ (by unfold dieKey; decide)).trans hvcore,
    (held_hbm hstop).trans hhbm, fun n hn => portsStop_portState u hn⟩

theorem fabricHalted_shows (s : State) : s.fabricHalted.rd Reg.TOP_MODE_MODE [] = 3 ∧
    s.fabricHalted.rd Reg.TOP_PINSTAT_VCORE_EN [] = 0 ∧ s.fabricHalted.hbm = s.hbm ∧
    ∀ n, n < 8 → s.fabricHalted.portState n = psDown := by
  have hlost := (Held.refl s).fabricAbort (st := .fabricHalted) (but := none) |>.coreLoss
  obtain ⟨hmode, hvcore, hhbm, hports⟩ := haltDie_shows (coreLoss (fabricAbort s .fabricHalted none))
  unfold State.fabricHalted
  exact ⟨hmode, hvcore, hhbm.trans (held_hbm hlost), hports⟩

/-- The failed reset shown and recorded. -/
def State.failureShown (s : State) : State := dieRecord (s.wr Reg.TOP_FAULT_RESET_FAIL [] 1) 6 0 0

/-- No fabric reset runs any more. -/
def State.resetEnded (s : State) : State := { s with boot := { s.boot with fabricReset := false, fabricCmd := none } }

/-- The command that waited for the fabric, if any, fails. -/
def State.fabricRefused (s : State) (cmd : Option (Nat × Nat)) : State :=
  match cmd with
  | some (f, i) => s.failCmd f i .fabricHalted 0xFFFF 0 0
  | none => s

theorem fabricTimeoutOp_eq (h0 : s.boot.fabricReset = true) (h1 : s.boot.fabricAt + msCounts 250 ≤ s.now) :
    fabricTimeoutOp s =
      faultVectorAll (s.fabricHalted.failureShown.resetEnded.fabricRefused s.boot.fabricCmd) := by
  have hdue : ¬ (!s.boot.fabricReset ∨ s.now < s.boot.fabricAt + msCounts 250) := by
    rintro (h | h)
    · simp [h0] at h
    · exact absurd h1 (Nat.not_le.mpr h)
  unfold fabricTimeoutOp State.fabricHalted
  extract_lets b u1 u2 _ u3 u4
  rw [if_neg hdue]
  have hrefused : u4 = u3.fabricRefused s.boot.fabricCmd := rfl
  have hended : u3 = u2.resetEnded := rfl
  rw [hrefused, hended]
  rfl

theorem faultVectorAll_quiet {a : State} (h : Quiet a s) : Quiet a (faultVectorAll s) := by
  have loop (l : List Nat) (hl : ∀ f ∈ l, f < 16) {u : State} (hu : Quiet a u) : Quiet a (l.foldl faultVector u) := by
    induction l generalizing u with
    | nil => exact hu
    | cons f r ih => exact ih (fun g hg => hl g (.tail _ hg)) (faultVector_quiet hu (hl f (.head _)))
  exact loop s.funcs (fun f hf => List.mem_range.mp (List.mem_of_mem_filter hf)) h

theorem failureShown_logged (s : State) : Logged (s.wr Reg.TOP_FAULT_RESET_FAIL [] 1) s.failureShown := dieRecord_logged _ 6 0 0

theorem resetEnded_rd (s : State) (f : Field) (i : List Nat) : s.resetEnded.rd f i = s.rd f i := rfl

theorem resetEnded_hbm (s : State) : s.resetEnded.hbm = s.hbm := rfl

theorem fabricRefused_noCmds (s : State) (cmd : Option (Nat × Nat)) : (s.fabricRefused cmd).noCmds = s.noCmds := by
  unfold State.fabricRefused
  split
  · exact finish_noCmds _ _ _ _ _
  · rfl

/-- What recording the failure and telling the host leave of the halted die, settled. -/
theorem resetFailed_leaves {u t : State} (cmd : Option (Nat × Nat))
    (h : Settles (faultVectorAll (u.failureShown.resetEnded.fabricRefused cmd)) t) :
    (∀ (f : Field) (i : List Nat), outside (f.key i) → f.key i ∉ logKeys → f.key i ∉ settleKeys →
      t.rd f i = (u.wr Reg.TOP_FAULT_RESET_FAIL [] 1).rd f i) ∧ t.boot.fabricReset = false ∧ t.hbm = u.hbm := by
  have hlog := failureShown_logged u
  have hcmds := fabricRefused_noCmds u.failureShown.resetEnded cmd
  have hquiet := faultVectorAll_quiet (.refl (u.failureShown.resetEnded.fabricRefused cmd))
  refine ⟨fun f i ho hl hs => ?_, ?_, ?_⟩
  · rw [h.regs f i hs, hquiet.regs f i ho, State.noCmds_part hcmds (fun x => x.rd f i) (fun _ => rfl),
      resetEnded_rd, hlog.regs f i hl]
  · rw [h.part (fun x => x.boot.fabricReset) (fun _ => rfl), hquiet.boot, State.noCmds_part hcmds State.boot (fun _ => rfl)]
    rfl
  · rw [h.part State.hbm (fun _ => rfl), hquiet.hbm, State.noCmds_part hcmds State.hbm (fun _ => rfl), resetEnded_hbm,
      hlog.part State.hbm (fun _ => rfl)]
    rfl

theorem portKey_leaves {n : Nat} (hn : n < 8) : outside (Reg.CSK_STAT_STATE.key [n]) ∧
    Reg.CSK_STAT_STATE.key [n] ∉ logKeys ∧ Reg.CSK_STAT_STATE.key [n] ∉ settleKeys := by
  refine ⟨?_, ?_, ?_⟩
  · simp only [outside, Reg.CSK_STAT_STATE, Field.key, Field.addr, dotIdx]
    omega
  · have low : ∀ j ∈ logKeys, j < 0x800000 * 128 ∨ 0x900000 * 128 ≤ j := by decide
    intro hm
    have := low _ hm
    simp only [Reg.CSK_STAT_STATE, Field.key, Field.addr, dotIdx] at this
    omega
  · intro hm
    simp only [settleKeys, List.mem_append, List.mem_flatMap, List.mem_cons, List.not_mem_nil, or_false, List.mem_range] at hm
    rcases hm with ⟨e, he, h | h | h⟩ | ⟨g, hg, h | h | h | h⟩
    all_goals
      simp only [Reg.CSK_STAT_STATE, Reg.RKE_CTX_STATE, Reg.RKE_CTX_WAIT_KIND, Reg.RKE_CTX_WAIT_ARG, Reg.TOP_QD_GST_QUIET,
        Reg.TOP_QD_GST_SUSPENDED, Reg.TOP_QD_GST_REPORTED, Reg.TOP_QD_GST_GEN, Field.key, Field.addr, dotIdx] at h
      omega

theorem fabricTimeoutOp_shows (h0 : s.boot.fabricReset = true) (h1 : s.boot.fabricAt + msCounts 250 ≤ s.now) {t : State}
    (h : Settles (fabricTimeoutOp s) t) : t.rd Reg.TOP_FAULT_RESET_FAIL [] = 1 ∧ t.rd Reg.TOP_MODE_MODE [] = 3 ∧
      t.rd Reg.TOP_PINSTAT_VCORE_EN [] = 0 ∧ t.boot.fabricReset = false ∧ (∀ n, n < 8 → t.portState n = psDown) ∧
      t.hbm = s.hbm := by
  rw [fabricTimeoutOp_eq h0 h1] at h
  obtain ⟨hmode, hvcore, hhbm, hports⟩ := fabricHalted_shows s
  obtain ⟨hrd, hreset, hkept⟩ := resetFailed_leaves s.boot.fabricCmd h
  have low {f : Field} (hf : dieKey (f.key [])) (hl : f.key [] ∉ logKeys) (hne : f.key [] ≠ Reg.TOP_FAULT_RESET_FAIL.key []) :
      t.rd f [] = s.fabricHalted.rd f [] := by
    rw [hrd f [] (.inl (by unfold dieKey at hf; omega)) hl (dieKey_not_settles hf), rd_wr_ne _ _ hne]
  refine ⟨?_, ?_, ?_, hreset, fun n hn => ?_, hkept.trans hhbm⟩
  · have hs : Reg.TOP_FAULT_RESET_FAIL.key [] ∉ settleKeys := by decide +kernel
    rw [hrd _ _ (.inl (by decide)) (by decide) hs, rd_wr_self]
    rfl
  · rw [low (by unfold dieKey; decide) (by decide) (by decide)]
    exact hmode
  · rw [low (by unfold dieKey; decide) (by decide) (by decide)]
    exact hvcore
  · obtain ⟨ho, hl, hs⟩ := portKey_leaves hn
    have hne : Reg.CSK_STAT_STATE.key [n] ≠ Reg.TOP_FAULT_RESET_FAIL.key [] := by
      simp only [Reg.CSK_STAT_STATE, Reg.TOP_FAULT_RESET_FAIL, Field.key, Field.addr, dotIdx]
      omega
    unfold State.portState
    rw [hrd _ _ ho hl hs, rd_wr_ne _ _ hne]
    exact hports n hn

end

theorem State.offIsland_parts {s t : State} (h : t.offIsland = s.offIsland) :
    t.hbm = s.hbm ∧ t.jobs = s.jobs ∧ t.tbls = s.tbls ∧ t.tenants = s.tenants ∧ t.plots = s.plots ∧ t.mbx = s.mbx :=
  ⟨congrArg (fun v => v.1) h, congrArg (fun v => v.2.2.1) h, congrArg (fun v => v.2.2.2.1) h,
    congrArg (fun v => v.2.2.2.2.1) h, congrArg (fun v => v.2.1) h, congrArg (fun v => v.2.2.2.2.2) h⟩

/-- DEV_RESET of the island, settled. -/
theorem devResetOp_island_shows {s t : State} {f i : Nat} {c : Cmd} (h : Startable s f i 0x102 c) (hk : c.fld 8 1 = 2)
    (ht : Settles (devResetOp s f i) t) : t.rd Reg.TOP_RSTCAUSE_ISLAND [] = 1 ∧ t.rd Reg.TOP_BOOTSTAT_STATE [] = 0 ∧
      t.rd Reg.CLO_WDT_EN [] = 0 ∧ t.boot.restarting = true ∧ t.boot.islandCmd = some (f, i) ∧
      t.cmd? f i = some { c with started := true, waiting := true } ∧ t.hbm = s.hbm ∧ t.jobs = s.jobs ∧ t.tbls = s.tbls ∧
      t.tenants = s.tenants := by
  rw [devResetOp_island h hk] at ht
  have hcmd := islandAsked_cmd? h.fetched
  obtain ⟨hcause, hstate, hwdt⟩ := islandRestart_shows (s.islandAsked c f i)
  have hkept := (islandRestart_offIsland (s.islandAsked c f i))
  obtain ⟨hrestarting, hisland⟩ := islandRestart_boot (s.islandAsked c f i)
  obtain ⟨hhbm, hjobs, htbls, htenants, -, hmbx⟩ := State.offIsland_parts hkept
  have hwdtKey : Reg.CLO_WDT_EN.key [] ∉ settleKeys := by decide +kernel
  refine ⟨?_, ?_, ?_, ?_, ?_, ?_, ?_, ?_, ?_, ?_⟩
  · rw [ht.held.rd _ _ (by unfold dieKey; decide), hcause]
  · rw [ht.held.rd _ _ (by unfold dieKey; decide), hstate]
  · rw [ht.regs _ _ hwdtKey, hwdt]
  · rw [ht.part State.boot (fun _ => rfl), hrestarting]
  · rw [ht.part State.boot (fun _ => rfl), hisland]
    rfl
  · rw [ht.part (fun x => x.cmd? f i) (fun _ => rfl), ← hcmd]
    exact congrArg (fun m : Mailbox => m.cmds.find? _) hmbx
  · rw [ht.part State.hbm (fun _ => rfl), hhbm]
    rfl
  · rw [ht.part State.jobs (fun _ => rfl), hjobs]
    rfl
  · rw [ht.part State.tbls (fun _ => rfl), htbls]
    rfl
  · rw [ht.part State.tenants (fun _ => rfl), htenants]
    rfl

/-- FABRIC_RESET_COMPLETE, settled. -/
theorem fabricCompleteOp_shows {s t : State} (h0 : s.boot.fabricReset = true) (h1 : s.coreUp = true)
    (h2 : s.boot.bistDone = true) (h3 : s.boot.trained = true) (h4 : s.boot.hostResetHeld = false)
    (ht : Settles (fabricCompleteOp s) t) : t.rd Reg.TOP_BOOTSTAT_STATE [] = 2 ∧ t.rd Reg.TOP_MODE_PHASE [] = 8 ∧
      t.boot.fabricReset = false ∧ t.hbm = s.hbm ∧
      (∀ f i c, s.boot.fabricCmd = some (f, i) → s.cmd? f i = some c → t.resultOf f i = some (0, leBytes 8 s.now)) := by
  rw [fabricCompleteOp_eq h0 h1 h2 h3 h4] at ht
  have hepochs := (Held.refl s).advanceEpochs
  have hmbx := advanceEpochs_mbx s
  generalize advanceEpochs s = u at ht hepochs hmbx
  obtain ⟨hstate, hphase, hnow, hhbm, hreset, hback⟩ := fabricBack_shows u
  have hcmds := fabricAnswered_noCmds u.fabricBack s.boot.fabricCmd
  have hrd {f : Field} (hf : dieKey (f.key [])) : t.rd f [] = u.fabricBack.rd f [] := by
    rw [ht.held.rd f [] hf, State.noCmds_part hcmds (fun x => x.rd f []) (fun _ => rfl)]
  refine ⟨?_, ?_, ?_, ?_, fun f i c hcmd hc => ?_⟩
  · rw [hrd (by unfold dieKey; decide), hstate]
  · rw [hrd (by unfold dieKey; decide), hphase]
  · rw [ht.part State.boot (fun _ => rfl), State.noCmds_part hcmds State.boot (fun _ => rfl), hreset]
  · rw [ht.part State.hbm (fun _ => rfl), State.noCmds_part hcmds State.hbm (fun _ => rfl), hhbm, held_hbm hepochs]
  · have hfetched : u.fabricBack.cmd? f i = some c := by
      rw [← hc]
      exact congrArg (fun m : Mailbox => m.cmds.find? _) (hback.trans hmbx)
    rw [ht.part (fun x => x.resultOf f i) (fun _ => rfl), hcmd, fabricAnswered_resultOf hfetched, hnow, held_now hepochs]

/-- Settles O12: each clause takes its branch, whose end is read through the contexts that settle. -/
theorem fabricResetRunsFromCommandToCompletion : Obligations.FabricResetRunsFromCommandToCompletion := by
  intro s
  refine ⟨fun f i c h => ⟨fun hk hr => ?_, fun hk => ?_, fun h1 h2 => ?_⟩, fun h0 h1 h2 h3 h4 => ?_, fun h0 h1 => ?_⟩
  · obtain ⟨t, heq, ht⟩ := nextQ_settles (devResetOp s f i)
    rw [devResetOp_fabric h hk hr] at ht
    obtain ⟨⟨hcause, hstate, hphase, hplots, hpg, hen, hvid⟩, hhbm, hcmd⟩ := fabricReset_shows _ _ ht
    exact ⟨t, heq, hcause, hstate, hphase, hplots, hpg, hen, hvid, hcmd, hhbm⟩
  · obtain ⟨t, heq, ht⟩ := nextQ_settles (devResetOp s f i)
    exact ⟨t, heq, devResetOp_island_shows h hk ht⟩
  · obtain ⟨t, heq, ht⟩ := nextQ_settles (devResetOp s f i)
    exact ⟨t, _, heq, devResetOp_refuses h h1 h2, ht⟩
  · obtain ⟨t, heq, ht⟩ := nextQ_settles (fabricCompleteOp s)
    exact ⟨t, heq, fabricCompleteOp_shows h0 h1 h2 h3 h4 ht⟩
  · obtain ⟨t, heq, ht⟩ := nextQ_settles (fabricTimeoutOp s)
    exact ⟨t, heq, fabricTimeoutOp_shows h0 h1 ht⟩

end Sys2Proof.Machine
end

/-! ## What port states and the schedule leave: HBM, plots, jobs, tenants, the mode and the sources' masks (R103, R555) -/

section
namespace Sys2Proof.Machine

open Host (Outcome)

/-- HBM, plots, jobs and the tenants' assignments. -/
def State.calm (s : State) : FMap Byte × FMap Plot × FMap Job × FMap Tenant := (s.hbm, s.plots, s.jobs, s.tenants)

/-- Keys of the sources' enables for the Bench core and the host: the two lowest bits of their registers. -/
def maskKey (k : Nat) : Prop := inSources k ∧ k % 128 < 2

/-- Keys of the mode, of the strap that opens it, and of the sources' enables. -/
def calmKey (k : Nat) : Prop := k = Reg.TOP_MODE_MODE.key [] ∨ k = Reg.TOP_STRAP_TEST_EN.key [] ∨ maskKey k

theorem not_calmKey {f : Field} (i : List Nat) (h : 0x220000 ≤ f.base) : ¬ calmKey (f.key i) := by
  have hm : Reg.TOP_MODE_MODE.key [] < 0x300 * 128 := by decide
  have ht : Reg.TOP_STRAP_TEST_EN.key [] < 0x300 * 128 := by decide
  simp only [calmKey, maskKey, inSources, Field.key, Field.addr] at hm ht ⊢
  omega

theorem calmKey_outside_or_mask {k : Nat} (h : calmKey k) : outside k ∨ maskKey k := by
  rcases h with rfl | rfl | h
  · exact .inl (.inl (by decide))
  · exact .inl (.inl (by decide))
  · exact .inr h

/-! ### Requests leave the enables -/

theorem IsSource.not_maskKey {f : Field} (hf : IsSource f) (i : Nat) (hl : 2 ≤ f.lo) : ¬ maskKey (f.key [i]) := by
  have := hf.low
  simp only [maskKey, Field.key, Field.addr, hf.base, hf.strides, dotIdx]
  omega

section
variable {a s t : State}

theorem SameOn.wrSource {i v : Nat} (h : SameOn maskKey a s) {f : Field} (hf : IsSource f) (hl : 2 ≤ f.lo) :
    SameOn maskKey a (s.wr f [i] v) := h.wr f [i] v (hf.not_maskKey i hl)

theorem hedgeDecide_mask (h : SameOn maskKey a s) : SameOn maskKey a (hedgeDecide s) :=
  h.trans ((hedgeDecide_sameOn s).mono fun _ hk => hk.1)

theorem hostCopy_mask (h : SameOn maskKey a s) (i : Nat) : SameOn maskKey a (hostCopy s i) :=
  h.trans ((hostCopy_sameOn s i).mono fun _ hk => inSources_offPost hk.1)

theorem pulseHigh_mask (h : SameOn maskKey a s) (i : Nat) : SameOn maskKey a (pulseHigh s i) :=
  .ite (hedgeDecide_mask (.ite h (h.wrSource isSource_pending (by decide)))) h

theorem pulseLow_mask (h : SameOn maskKey a s) (i : Nat) : SameOn maskKey a (pulseLow s i) :=
  .ite h (h.wrSource isSource_pending (by decide))

theorem hedgeEvent_mask (h : SameOn maskKey a s) (i d : Nat) : SameOn maskKey a (hedgeEvent s i d) :=
  hedgeDecide_mask (hostCopy_mask (pulseLow_mask (pulseHigh_mask (h.wrSource isSource_data (by decide)) i) i) i)

theorem hedgeLevel_mask (h : SameOn maskKey a s) (i : Nat) (level : Bool) (d : Nat) :
    SameOn maskKey a (hedgeLevel s i level d) := by
  have pending {u : State} (hu : SameOn maskKey a u) (v : Nat) : SameOn maskKey a (u.wr Reg.HDG_SRC_PENDING [i] v) :=
    hu.wrSource isSource_pending (by decide)
  unfold hedgeLevel
  extract_lets old s1 s2 sense act s3 asserted
  have h1 : SameOn maskKey a s1 := h.wrSource isSource_level (by decide)
  have h2 : SameOn maskKey a s2 := .ite (h1.wrSource isSource_data (by decide)) h1
  have h3 : SameOn maskKey a s3 := by
    unfold s3
    clear_value sense s2
    split
    · exact .ite h2 (pending h2 _)
    · exact .ite h2 (pending h2 _)
    · exact .ite (pending h2 _) h2
    · exact .ite h2 (pending h2 _)
    · exact pending h2 _
  exact .ite h (hedgeDecide_mask (.ite (hostCopy_mask h3 i) h3))

/-! ### The frame -/

/-- `s` keeps HBM, plots, jobs, tenants, the mode and the sources' enables of `a`. -/
def Calm (a s : State) : Prop := Spares State.calm calmKey a s

theorem Calm.refl (s : State) : Calm s s := Spares.refl _ _ s

theorem Calm.same (h : Calm a s) (hr : t.regs = s.regs) (hv : t.calm = s.calm) : Calm a t := Spares.set h hr hv

theorem calm_wr (s : State) (f : Field) (i : List Nat) (x : Nat) : (s.wr f i x).calm = s.calm := rfl

protected theorem Calm.gov {x : Gov} (h : Calm a s) : Calm a { s with gov := x } := h.same rfl rfl
protected theorem Calm.captured {x : FMap Nat} (h : Calm a s) : Calm a { s with captured := x } := h.same rfl rfl
protected theorem Calm.setPort {n : Nat} {p : Port} (h : Calm a s) : Calm a (s.setPort n p) := h.same rfl rfl

protected theorem Calm.ite {c : Prop} {_ : Decidable c} (hs : Calm a s) (ht : Calm a t) : Calm a (if c then s else t) := by
  split
  · exact hs
  · exact ht

protected theorem Calm.foldl {α : Type} {g : State → α → State} {l : List α} (h : Calm a s)
    (hg : ∀ s x, x ∈ l → Calm a s → Calm a (g s x)) : Calm a (l.foldl g s) := Spares.foldl g l hg h

/-- Writing a register that lies after Hedge's sources. -/
protected theorem Calm.wr {f : Field} {i : List Nat} {v : Nat} (h : Calm a s) (hb : 0x220000 ≤ f.base := by decide) :
    Calm a (s.wr f i v) := Spares.wr h f i v (calm_wr s f i v) (not_calmKey i hb)

protected theorem Calm.wrb {f : Field} {i : List Nat} {b : Bool} (h : Calm a s) (hb : 0x220000 ≤ f.base := by decide) :
    Calm a (s.wrb f i b) := h.wr hb

protected theorem Calm.wrapInc {f : Field} {i : List Nat} {n : Nat} (h : Calm a s) (hb : 0x220000 ≤ f.base := by decide) :
    Calm a (s.wrapInc f i n) := h.wr hb

/-- A request that keeps the enables. -/
theorem Calm.quiet (h : Calm a s) (q : Quiet s t) (m : SameOn maskKey s t) : Calm a t :=
  h.trans ⟨(q.spares (v := State.calm) (P := outside) (fun _ => rfl) (fun _ hk => hk)).view,
    fun f i hk => (calmKey_outside_or_mask hk).elim (q.regs f i) (m f i)⟩

protected theorem Calm.hedgeEvent (h : Calm a s) {i : Nat} (d : Nat) (hi : i < 1023) : Calm a (hedgeEvent s i d) :=
  h.quiet (hedgeEvent_quiet (.refl s) d hi) (hedgeEvent_mask (.refl _ s) i d)

protected theorem Calm.hedgeLevel (h : Calm a s) {i : Nat} (level : Bool) (d : Nat) (hi : i < 1023) :
    Calm a (hedgeLevel s i level d) :=
  h.quiet (hedgeLevel_quiet (.refl s) level d hi) (hedgeLevel_mask (.refl _ s) i level d)

/-- A record in the log writes flash and the log's registers. -/
theorem Calm.logged (h : Calm a s) (g : Logged s t) : Calm a t := by
  have high : ∀ j ∈ logKeys, 0x300 * 128 ≤ j ∧ (j < 0x210000 * 128 ∨ 0x220000 * 128 ≤ j) := by decide
  refine h.trans (g.spares (fun _ => rfl) (fun k hk hm => ?_))
  obtain ⟨hlow, hsrc⟩ := high k hm
  rcases hk with rfl | rfl | ⟨⟨h1, h2⟩, -⟩
  · exact absurd hlow (by decide)
  · exact absurd hlow (by decide)
  · omega

/-! ### Ports -/

protected theorem Calm.setPortState (h : Calm a s) {n : Nat} (st : Nat) (hn : n < 8) : Calm a (setPortState s n st) :=
  .ite h (h.wr.hedgeEvent st (by omega))

protected theorem Calm.portFlagLevel (h : Calm a s) {n : Nat} (hn : n < 8) : Calm a (portFlagLevel s n) :=
  h.hedgeLevel _ _ (by omega)

protected theorem Calm.linkRecord (h : Calm a s) (n event : Nat) : Calm a (linkRecord s n event) :=
  h.logged (faultRecord_logged (.refl s) _ _)

protected theorem Calm.portEvaluate (h : Calm a s) {n : Nat} (hn : n < 8) : Calm a (portEvaluate s n) :=
  .ite h <| .ite (h.setPortState _ hn) <| .ite (h.setPortState _ hn) <|
    .ite (.ite (.ite (h.wr.portFlagLevel hn) ((h.wr.portFlagLevel hn).setPort.setPortState _ hn))
      (((Calm.ite h (h.wr.linkRecord _ _)).portFlagLevel hn).setPortState _ hn)) (h.setPortState _ hn)

/-! ### The schedule and the caps -/

protected theorem Calm.powerFlags (h : Calm a s) : Calm a (powerFlags s) :=
  h.wrb.wrb.wrb.wr.hedgeLevel _ _ (by decide)

protected theorem Calm.updateLimits (h : Calm a s) : Calm a (updateLimits s) := h.wr.wr.wr.gov.powerFlags

protected theorem Calm.selectBand {r : Nat} (h : Calm a s) : Calm a (selectBand s r) := h.wr.wr.updateLimits

protected theorem Calm.dropTariff (h : Calm a s) : Calm a (dropSet s .tariff) :=
  .ite ((h.foldl (fun _ _ _ h => h.captured)).wr) h

/-- The staged fields of the schedule lie after Hedge's sources. -/
theorem tariffField_afterSources : ∀ e ∈ setFields .tariff, 0x220000 ≤ e.1.mirror.base := by
  intro e he
  have words {f : Field} {idx : List Nat} {n : Nat} (hb : 0x220000 ≤ f.mirror.base) (h : e ∈ fieldRow f idx n) :
      0x220000 ≤ e.1.mirror.base := by
    obtain ⟨_, -, rfl⟩ := List.mem_map.mp h
    exact hb
  simp only [setFields, List.mem_append, List.mem_flatMap] at he
  rcases he with (h | ⟨_, -, h⟩) | ⟨_, -, h⟩
  · exact words (by decide) h
  · exact words (by decide) h
  · exact words (by decide) h

protected theorem Calm.effectTariff (h : Calm a s) : Calm a (effectSet s .tariff) :=
  .ite (h.foldl fun _ e he h => h.wr (tariffField_afterSources e he)).dropTariff.wrapInc h

protected theorem Calm.openWithBand {r : Nat} (h : Calm a s) : Calm a (openWithBand s r) :=
  (Calm.ite h.effectTariff.wr.gov h).selectBand.gov

protected theorem Calm.defaultSchedule (h : Calm a s) : Calm a (defaultSchedule s) :=
  h.wr.wr.wr.wr.wr.wr.wr.wr.gov.selectBand

protected theorem Calm.stageWords {f : Field} {idx l : List Nat} {i : Nat} (h : Calm a s)
    (hb : 0x220000 ≤ f.base := by decide) : Calm a (stageWords s f idx i l) := by
  induction l generalizing s i with
  | nil => exact h
  | cons w r ih => exact ih (h.wr hb)

protected theorem Calm.captureTariff (h : Calm a s) : Calm a (captureSet s .tariff) :=
  ((Calm.ite h.wr h).foldl (fun _ _ _ h => h.captured)).wr

protected theorem Calm.stageTariff {b : List Byte} {source : Nat} (h : Calm a s) : Calm a (stageTariff s b source) :=
  ((h.stageWords.foldl (fun _ _ _ h => h.stageWords)).foldl (fun _ _ _ h => h.stageWords)).gov.captureTariff

protected theorem Calm.runSchedule (h : Calm a s) : Calm a (runSchedule s) := by
  unfold runSchedule
  split
  · exact h.defaultSchedule
  · exact .ite h.defaultSchedule (.ite h.stageTariff h.stageTariff.openWithBand)

protected theorem Calm.openCaps (h : Calm a s) : Calm a (openCaps s) := h.wr.wr

/-! ### The PF's windows -/

/-- The PF's apertures lie in its page. -/
theorem winKey_off {f : Field} {k : Nat} (hb : f.base = 0x100100) (hs : f.strides = [65536, 4]) (hl : f.lo < 128)
    (hk : k < 16) : ¬ calmKey (f.key [0, k]) := by
  have hm : Reg.TOP_MODE_MODE.key [] < 0x300 * 128 := by decide
  have ht : Reg.TOP_STRAP_TEST_EN.key [] < 0x300 * 128 := by decide
  simp only [calmKey, maskKey, inSources, Field.key, Field.addr, hb, hs, dotIdx] at hm ht ⊢
  omega

protected theorem Calm.remapPf (h : Calm a s) : Calm a (remapPf s) := by
  refine Calm.foldl h fun u k hk hu => ?_
  have hlt := List.mem_range.mp hk
  exact Spares.wr (Spares.wr (Spares.wr hu _ _ _ (calm_wr _ _ _ _) (winKey_off rfl rfl (by decide) hlt)) _ _ _
    (calm_wr _ _ _ _) (winKey_off rfl rfl (by decide) hlt)) _ _ _ (calm_wr _ _ _ _) (winKey_off rfl rfl (by decide) hlt)

end

end Sys2Proof.Machine
end

/-! ## Masking every source (R103, R555) -/

section
namespace Sys2Proof.Machine

section
variable {s : State}

theorem isSource_ben : IsSource Reg.HDG_SRC_BEN := ⟨rfl, rfl, by decide⟩
theorem isSource_hen : IsSource Reg.HDG_SRC_HEN := ⟨rfl, rfl, by decide⟩

/-- Zeroing a source's field leaves a zero of that field zero. -/
theorem rd_wr_zero {f : Field} (hf : IsSource f) {i k : Nat} (h : s.rd f [k] = 0) : (s.wr f [i] 0).rd f [k] = 0 := by
  by_cases he : k = i
  · rw [he, rd_wr_self, Nat.zero_mod]
  · rw [rd_wr_ne _ _ (hf.key_ne hf (.inl he)), h]

/-- Zeroing a field of a list of sources leaves it zero where it was, and zero in the list. -/
theorem foldl_zero_rd {f : Field} (hf : IsSource f) (l : List Nat) {k : Nat} (h : k ∈ l ∨ s.rd f [k] = 0) :
    (l.foldl (fun s i => s.wr f [i] 0) s).rd f [k] = 0 := by
  induction l generalizing s with
  | nil => exact h.resolve_left List.not_mem_nil
  | cons i r ih =>
    refine ih ?_
    by_cases he : k = i
    · exact .inr (by rw [he, rd_wr_self, Nat.zero_mod])
    · exact h.imp (fun hm => (List.mem_cons.mp hm).resolve_left he) (rd_wr_zero hf)

/-- A map with no nonzero entry at a key answers zero there when its default is zero. -/
theorem FMap.get_zero {m : FMap Nat} {k : Nat} (h : ∀ e ∈ m, e.1 = k → e.2 = 0) : FMap.get m 0 k = 0 := by
  induction m with
  | nil => rfl
  | cons e r ih =>
    unfold FMap.get
    split
    · next he => exact h e (.head _) he
    · exact ih fun x hx => h x (.tail _ hx)

/-- A source that is not among those with a nonzero field has the field zero. -/
theorem rd_zero_of_not_srcsWith {f : Field} (hf : IsSource f) (hr : ∀ i, f.rst i = 0) {k : Nat} (hk : k < 1023)
    (h : k ∉ s.srcsWith f) : s.rd f [k] = 0 := by
  have hlow := hf.low
  have hz : ∀ e ∈ s.regs, e.1 = f.key [k] → e.2 = 0 := by
    intro e he hkey
    by_contra hne
    refine h (List.mem_filterMap.mpr ⟨e, he, ?_⟩)
    simp only [Field.key, Field.addr, hf.base, hf.strides, dotIdx] at hkey
    rw [hf.base, if_pos (by omega)]
    exact congrArg some (by omega)
  unfold State.rd
  rw [hr, FMap.get_zero hz, Nat.zero_mod]

/-- Every source's field `f` zeroed. -/
def State.cleared (s : State) (f : Field) : State := (s.srcsWith f).foldl (fun s i => s.wr f [i] 0) s

theorem cleared_rd {f : Field} (hf : IsSource f) (hr : ∀ i, f.rst i = 0) {k : Nat} (hk : k < 1023) :
    (s.cleared f).rd f [k] = 0 :=
  foldl_zero_rd hf _ (by
    by_cases h : k ∈ s.srcsWith f
    · exact .inl h
    · exact .inr (rd_zero_of_not_srcsWith hf hr hk h))

theorem cleared_rd_ne {f g : Field} (hf : IsSource f) (hg : IsSource g) (hl : g.lo ≠ f.lo) (k : Nat) :
    (s.cleared f).rd g [k] = s.rd g [k] :=
  rd_foldl_wr f (fun i => [i]) (fun _ _ => 0) _ _ (fun _ _ => hg.key_ne hf (.inr hl))

/-- Every source's enables, pending bits and SENSE zeroed. -/
def State.maskCleared (s : State) : State :=
  (((s.cleared Reg.HDG_SRC_BEN).cleared Reg.HDG_SRC_HEN).cleared Reg.HDG_SRC_PENDING).cleared Reg.HDG_SRC_SENSE

/-- The sources of events that take edges again. -/
def State.edgesSet (s : State) : State :=
  ((List.range 512).filter (fun i => srcKind i == .event)).foldl (fun s i => s.wr Reg.HDG_SRC_SENSE [i] 2) s

theorem maskSources_eq (s : State) : maskSources s = hedgeDecide s.maskCleared.edgesSet := rfl

/-- Setting SENSE and deciding leave the sources' other fields. -/
theorem edgesSet_rd {f : Field} (hf : IsSource f) (hl : f.lo ≠ Reg.HDG_SRC_SENSE.lo) {k : Nat} (hk : k < 1023) :
    (hedgeDecide s.edgesSet).rd f [k] = s.rd f [k] := by
  rw [hedgeDecide_sameOn _ f [k] (hf.inSources hk)]
  exact rd_foldl_wr Reg.HDG_SRC_SENSE (fun i => [i]) (fun _ _ => 2) _ _ (fun _ _ => hf.key_ne isSource_sense (.inr hl))

theorem maskSources_masks (s : State) {k : Nat} (hk : k < 1023) : (maskSources s).rd Reg.HDG_SRC_BEN [k] = 0 ∧
    (maskSources s).rd Reg.HDG_SRC_HEN [k] = 0 ∧ (maskSources s).rd Reg.HDG_SRC_PENDING [k] = 0 := by
  rw [maskSources_eq]
  refine ⟨?_, ?_, ?_⟩
  · rw [edgesSet_rd isSource_ben (by decide) hk, State.maskCleared,
      cleared_rd_ne isSource_sense isSource_ben (by decide), cleared_rd_ne isSource_pending isSource_ben (by decide),
      cleared_rd_ne isSource_hen isSource_ben (by decide), cleared_rd isSource_ben (fun _ => rfl) hk]
  · rw [edgesSet_rd isSource_hen (by decide) hk, State.maskCleared,
      cleared_rd_ne isSource_sense isSource_hen (by decide), cleared_rd_ne isSource_pending isSource_hen (by decide),
      cleared_rd isSource_hen (fun _ => rfl) hk]
  · rw [edgesSet_rd isSource_pending (by decide) hk, State.maskCleared,
      cleared_rd_ne isSource_sense isSource_pending (by decide), cleared_rd isSource_pending (fun _ => rfl) hk]

/-- Masking writes Hedge's registers. -/
theorem cleared_spares {a : State} (h : Spares State.still dieKey a s) (f : Field) (hb : 0x300 ≤ f.base) :
    Spares State.still dieKey a (s.cleared f) :=
  .foldl _ _ (fun _ _ _ h => h.wr _ _ _ rfl (not_dieKey _ hb)) h

theorem maskSources_spares (s : State) : Spares State.still dieKey s (maskSources s) := by
  have hclear : Spares State.still dieKey s s.maskCleared :=
    cleared_spares (cleared_spares (cleared_spares (cleared_spares (.refl _ _ s) _ (by decide)) _ (by decide)) _ (by decide))
      _ (by decide)
  have hedge : Spares State.still dieKey s s.maskCleared.edgesSet :=
    .foldl _ _ (fun _ _ _ h => h.wr _ _ _ rfl (not_dieKey _ (by decide))) hclear
  rw [maskSources_eq]
  exact hedge.trans ((hedgeDecide_quiet (.refl _)).spares (fun _ => rfl) (fun k hk => .inl (by unfold dieKey at hk; omega)))

end

end Sys2Proof.Machine
end

/-! ## Entering Run mode, and the watchdog's expiry (R75, R99, R100, R103, R530, R633) -/

section
namespace Sys2Proof.Machine

open Host (Outcome)

section
variable {s : State}

/-- Every mailbox has its next epoch. -/
def State.mailboxEpochs (s : State) : State :=
  (List.range 16).foldl (fun s f => s.wr Reg.TOP_MBX_EPOCH_EPOCH [f] (s.firstEpoch (s.rd Reg.TOP_MBX_EPOCH_EPOCH [f]))) s

/-- The epochs of a die's fabric, which a ROOT die has none of. -/
def State.fabricEpochs (s : State) : State := if s.role = 2 then s else advanceEpochs s

/-- The fabric and the mailboxes of a die that enters Run mode have their epochs. -/
def State.runEpochs (s : State) : State := s.fabricEpochs.mailboxEpochs

/-- The schedule, the caps and the PF's windows of a die that enters Run mode. -/
def State.runScheduled (s : State) : State := remapPf (runSchedule (openCaps (s.wr Reg.PWR_BUDGET_BUDGET_W [] s.boot.budget)))

/-- Mode, phase and STATE of a die that has entered Run mode. -/
def State.runShown (s : State) : State :=
  ((s.wr Reg.TOP_MODE_MODE [] (if s.on Reg.TOP_STRAP_TEST_EN [] then 2 else 1)).wr Reg.TOP_MODE_PHASE [] 8).wr
    Reg.TOP_BOOTSTAT_STATE [] 2

/-- A trial that reaches Run mode confirms its block. -/
def State.trialConfirmed (s : State) : State :=
  if s.on Reg.TOP_BOOTSTAT_TRIAL [] then
    match s.newestSwap with
    | some (_, r) =>
      (writeSwap s { r with trial := false, writer := 1, version := s.boot.runVersion }).1.wr Reg.TOP_BOOTSTAT_TRIAL [] 0
    | none => s
  else s

theorem runModeEntryOp_eq (h : s.bringUpDone = true) :
    runModeEntryOp s = (maskSources s.runEpochs.runScheduled).runShown.trialConfirmed := by
  unfold runModeEntryOp
  extract_lets u1 u2 u3 u4 u5 u6
  have hepochs : u2 = s.runEpochs := rfl
  have hmasked : u4 = maskSources u2.runScheduled := rfl
  have hshown : u6 = u4.runShown := rfl
  rw [if_neg (by simp [h]), ← hepochs, ← hmasked, ← hshown]
  clear_value u6
  rfl

theorem trialConfirmed_rd (s : State) {f : Field} {i : List Nat} (h : f.key i ≠ Reg.TOP_BOOTSTAT_TRIAL.key []) :
    s.trialConfirmed.rd f i = s.rd f i := by
  unfold State.trialConfirmed
  split
  · split
    · rw [rd_wr_ne _ _ h, State.lessFlash_rd (writeSwap_lessFlash s _)]
    · rfl
  · rfl

theorem trialConfirmed_calm (s : State) : s.trialConfirmed.calm = s.calm := by
  unfold State.trialConfirmed
  split
  · split
    · exact State.lessFlash_part (writeSwap_lessFlash s _) State.calm (fun _ => rfl)
    · rfl
  · rfl

theorem epochsAdvanced_calm (s : State) : s.epochsAdvanced.calm = s.calm :=
  State.rest_part (epochsAdvanced_rest s) State.calm (fun _ => rfl)

theorem calm_upd (s : State) (x : Updates) : ({ s with upd := x } : State).calm = s.calm := rfl

theorem advanceEpochs_calm (s : State) : (advanceEpochs s).calm = s.calm := by
  rw [advanceEpochs_eq, calm_upd, epochsAdvanced_calm]

theorem mailboxEpochs_spares (s : State) : Spares State.calm dieKey s s.mailboxEpochs :=
  .foldl _ _ (fun _ _ _ h => h.wr _ _ _ (calm_wr _ _ _ _) (not_dieKey _ (by decide))) (.refl _ _ s)

theorem fabricEpochs_spares (s : State) : Spares State.calm dieKey s s.fabricEpochs := by
  unfold State.fabricEpochs
  split
  · exact .refl _ _ s
  · exact ⟨advanceEpochs_calm s, (Held.refl s).advanceEpochs.regs⟩

theorem runEpochs_spares (s : State) : Spares State.calm dieKey s s.runEpochs :=
  (fabricEpochs_spares s).trans (mailboxEpochs_spares _)

theorem runScheduled_calm (s : State) : Calm s s.runScheduled := (Calm.refl s).wr.openCaps.runSchedule.remapPf

theorem runShown_calm (s : State) : s.runShown.calm = s.calm := rfl

theorem runShown_rd (s : State) : s.runShown.rd Reg.TOP_BOOTSTAT_STATE [] = 2 ∧ s.runShown.rd Reg.TOP_MODE_PHASE [] = 8 ∧
    s.runShown.rd Reg.TOP_MODE_MODE [] = (if s.on Reg.TOP_STRAP_TEST_EN [] then 2 else 1) := by
  unfold State.runShown
  simp (disch := decide) only [rd_wr_ne, rd_wr_self]
  refine ⟨rfl, rfl, ?_⟩
  split <;> rfl

/-- A source's register lies apart from mode, phase, boot status. -/
theorem runShown_source {f : Field} (hf : IsSource f) (k : Nat) : s.runShown.rd f [k] = s.rd f [k] := by
  have apart {g : Field} (hg : dieKey (g.key [])) : f.key [k] ≠ g.key [] := by
    simp only [dieKey] at hg
    simp only [Field.key, Field.addr, hf.base, hf.strides, dotIdx] at hg ⊢
    omega
  unfold State.runShown
  rw [rd_wr_ne _ _ (apart (by unfold dieKey; decide)), rd_wr_ne _ _ (apart (by unfold dieKey; decide)),
    rd_wr_ne _ _ (apart (by unfold dieKey; decide))]

theorem trialConfirmed_source {f : Field} (hf : IsSource f) (k : Nat) : s.trialConfirmed.rd f [k] = s.rd f [k] := by
  refine trialConfirmed_rd s ?_
  simp only [Reg.TOP_BOOTSTAT_TRIAL, Field.key, Field.addr, hf.base, hf.strides, dotIdx]
  omega

theorem State.calm_parts {t : State} (h : t.calm = s.calm) :
    t.hbm = s.hbm ∧ t.plots = s.plots ∧ t.jobs = s.jobs ∧ t.tenants = s.tenants :=
  ⟨congrArg (fun v => v.1) h, congrArg (fun v => v.2.1) h, congrArg (fun v => v.2.2.1) h, congrArg (fun v => v.2.2.2) h⟩

/-- What a die has masked and scheduled when it enters Run mode, before it shows so. -/
theorem runMasked_leaves (s : State) : (maskSources s.runEpochs.runScheduled).calm = s.calm ∧
    (maskSources s.runEpochs.runScheduled).on Reg.TOP_STRAP_TEST_EN [] = s.on Reg.TOP_STRAP_TEST_EN [] := by
  have hepochs := runEpochs_spares s
  have hsched := runScheduled_calm s.runEpochs
  have hmask := maskSources_spares s.runEpochs.runScheduled
  refine ⟨((hmask.part State.calm (fun _ => rfl)).trans hsched.view).trans hepochs.view, ?_⟩
  rw [hmask.regs.on _ _ (by unfold dieKey; decide), hsched.regs.on _ _ (.inr (.inl rfl)),
    hepochs.regs.on _ _ (by unfold dieKey; decide)]

theorem runModeEntryOp_shows (h : s.bringUpDone = true) : (runModeEntryOp s).rd Reg.TOP_BOOTSTAT_STATE [] = 2 ∧
    (runModeEntryOp s).rd Reg.TOP_MODE_PHASE [] = 8 ∧
    (runModeEntryOp s).rd Reg.TOP_MODE_MODE [] = (if s.on Reg.TOP_STRAP_TEST_EN [] then 2 else 1) ∧
    (∀ i, i < 512 → (runModeEntryOp s).rd Reg.HDG_SRC_BEN [i] = 0 ∧ (runModeEntryOp s).rd Reg.HDG_SRC_HEN [i] = 0 ∧
      (runModeEntryOp s).rd Reg.HDG_SRC_PENDING [i] = 0) ∧ (runModeEntryOp s).calm = s.calm := by
  obtain ⟨hcalm, htest⟩ := runMasked_leaves s
  have hmasks := fun {k : Nat} => maskSources_masks s.runEpochs.runScheduled (k := k)
  rw [runModeEntryOp_eq h]
  generalize maskSources s.runEpochs.runScheduled = u at hcalm htest hmasks
  obtain ⟨hstate, hphase, hmode⟩ := runShown_rd u
  refine ⟨?_, ?_, ?_, fun i hi => ?_, ?_⟩
  · rw [trialConfirmed_rd _ (by decide), hstate]
  · rw [trialConfirmed_rd _ (by decide), hphase]
  · rw [trialConfirmed_rd _ (by decide), hmode, htest]
  · obtain ⟨hben, hhen, hpending⟩ := hmasks (show i < 1023 by omega)
    rw [trialConfirmed_source isSource_ben, runShown_source isSource_ben, trialConfirmed_source isSource_hen,
      runShown_source isSource_hen, trialConfirmed_source isSource_pending, runShown_source isSource_pending]
    exact ⟨hben, hhen, hpending⟩
  · rw [trialConfirmed_calm, runShown_calm, hcalm]

/-- HBM, plots, jobs, tables and tenants. -/
def State.holdings (s : State) : FMap Byte × FMap Plot × FMap Job × FMap Tbl × FMap Tenant :=
  (s.hbm, s.plots, s.jobs, s.tbls, s.tenants)

theorem State.holdings_parts {t : State} (h : t.holdings = s.holdings) :
    t.hbm = s.hbm ∧ t.plots = s.plots ∧ t.jobs = s.jobs ∧ t.tbls = s.tbls ∧ t.tenants = s.tenants :=
  ⟨congrArg (fun v => v.1) h, congrArg (fun v => v.2.1) h, congrArg (fun v => v.2.2.1) h,
    congrArg (fun v => v.2.2.2.1) h, congrArg (fun v => v.2.2.2.2) h⟩

theorem islandRestart_holdings (s : State) : (islandRestart s).holdings = s.holdings := rfl

/-- The expiry shown and recorded. -/
def State.expiryShown (s : State) : State := dieRecord (s.wr Reg.TOP_FAULT_WATCHDOG [] 1) 5 0 0

theorem expiryShown_logged (s : State) : Logged (s.wr Reg.TOP_FAULT_WATCHDOG [] 1) s.expiryShown := dieRecord_logged _ 5 0 0

theorem watchdogOp_expires (h0 : s.on Reg.CLO_WDT_EN [] = true) (h1 : s.on Reg.CLO_FWSTAT_SEAM [] = false)
    (h2 : s.cloche.wdtAt ≤ s.now) : watchdogOp s = faultVectorAll (islandRestart s.expiryShown) :=
  if_pos (by simp [h0, h1, h2])

/-- A restarting island keeps the faults shown. -/
theorem islandRestart_watchdog (s : State) :
    (islandRestart s).rd Reg.TOP_FAULT_WATCHDOG [] = s.rd Reg.TOP_FAULT_WATCHDOG [] := by
  have h : (islandRestart s).rd Reg.TOP_FAULT_WATCHDOG [] = ((((s.wr Reg.TOP_RSTCAUSE_ISLAND [] 1).wr
    Reg.TOP_BOOTSTAT_STATE [] 0).wr Reg.CLO_WDT_EN [] 0).wr Reg.CLO_FWSTAT_SEAM [] 0 |>.wr Reg.BNC_CTL_HALTED [] 0).rd
    Reg.TOP_FAULT_WATCHDOG [] := rfl
  rw [h]
  simp (disch := decide) only [rd_wr_ne]

theorem watchdogOp_shows (h0 : s.on Reg.CLO_WDT_EN [] = true) (h1 : s.on Reg.CLO_FWSTAT_SEAM [] = false)
    (h2 : s.cloche.wdtAt ≤ s.now) : (watchdogOp s).rd Reg.TOP_FAULT_WATCHDOG [] = 1 ∧
      (watchdogOp s).rd Reg.TOP_RSTCAUSE_ISLAND [] = 1 ∧ (watchdogOp s).rd Reg.TOP_BOOTSTAT_STATE [] = 0 ∧
      (watchdogOp s).rd Reg.CLO_WDT_EN [] = 0 ∧ (watchdogOp s).boot.restarting = true ∧ (watchdogOp s).hbm = s.hbm ∧
      (watchdogOp s).plots = s.plots ∧ (watchdogOp s).jobs = s.jobs ∧ (watchdogOp s).tbls = s.tbls ∧
      (watchdogOp s).tenants = s.tenants := by
  have hlog := expiryShown_logged s
  have hfault : s.expiryShown.rd Reg.TOP_FAULT_WATCHDOG [] = 1 := by
    rw [hlog.regs _ _ (by decide), rd_wr_self]
    rfl
  have hkept := hlog.part State.holdings (fun _ => rfl)
  rw [watchdogOp_expires h0 h1 h2]
  generalize s.expiryShown = u at hfault hkept
  obtain ⟨hcause, hstate, hwdt⟩ := islandRestart_shows u
  obtain ⟨hrestarting, -⟩ := islandRestart_boot u
  have hquiet := faultVectorAll_quiet (.refl (islandRestart u))
  have hheld := (State.still_part hquiet.still State.holdings (fun _ => rfl)).trans ((islandRestart_holdings u).trans hkept)
  refine ⟨?_, ?_, ?_, ?_, ?_, State.holdings_parts hheld⟩
  · rw [hquiet.regs _ _ (.inl (by decide)), islandRestart_watchdog, hfault]
  · rw [hquiet.regs _ _ (.inl (by decide)), hcause]
  · rw [hquiet.regs _ _ (.inl (by decide)), hstate]
  · rw [hquiet.regs _ _ (.inr (by decide)), hwdt]
  · rw [hquiet.boot, hrestarting]

end

/-- Settles O7: the state of R103 as the masks, the schedule and the shown mode leave it, and the restart of the island. -/
theorem runEntryAndIslandRestart : Obligations.RunEntryAndIslandRestart := by
  intro s
  refine ⟨fun h => ?_, fun h0 h1 h2 => ⟨_, rfl, watchdogOp_shows h0 h1 h2⟩⟩
  obtain ⟨hstate, hphase, hmode, hmasks, hcalm⟩ := runModeEntryOp_shows h
  obtain ⟨hhbm, hplots, hjobs, -⟩ := State.calm_parts hcalm
  exact ⟨_, rfl, hstate, hphase, hmode, hmasks, hhbm, hplots, hjobs⟩

end Sys2Proof.Machine
end

/-! ## MODE_OPEN and MODE_RUN (R94, R95, R103) -/

section
namespace Sys2Proof.Machine

open Host (Outcome)

section
variable {s t : State}

/-! ### MODE_OPEN -/

/-- MODE_OPEN's clauses, by the check that decides. -/
theorem modeOpenOp_clauses {f i : Nat} {c : Cmd} (h : Startable s f i 0x103 c) :
    (s.isOpen = true → Answers s (modeOpenOp s f i) f i .ok []) ∧
    (s.isOpen = false → s.mbx.vfs ≠ 0 → Answers s (modeOpenOp s f i) f i .busy (failBody 0xFFFF 1 0)) ∧
    (s.isOpen = false → s.mbx.vfs = 0 → (∃ j, j < 16 ∧ (s.job j).loaded = true) →
      Answers s (modeOpenOp s f i) f i .busy (failBody 0xFFFF 2 0)) ∧
    (s.isOpen = false → s.mbx.vfs = 0 → (∀ j, j < 16 → (s.job j).loaded = false) →
      Answers (s.wr Reg.TOP_MODE_MODE [] 2) (modeOpenOp s f i) f i .ok []) := by
  unfold modeOpenOp
  rw [acs_starts h]
  refine ⟨fun h0 => ?_, fun h0 h1 => ?_, fun h0 h1 ⟨j, hj, hl⟩ => ?_, fun h0 h1 h2 => ?_⟩
  · rw [if_pos h0]
    exact done_answers h.fetched []
  · rw [if_neg (by simp [h0]), if_pos h1]
    exact fail_answers h.fetched _ _ _ _
  · have hany : (List.range 16).any (fun j => (s.job j).loaded) = true :=
      List.any_eq_true.mpr ⟨j, List.mem_range.mpr hj, hl⟩
    rw [if_neg (by simp [h0]), if_neg (not_not.mpr h1), if_pos hany]
    exact fail_answers h.fetched _ _ _ _
  · have hnone : ¬ (List.range 16).any (fun j => (s.job j).loaded) = true := by
      intro hany
      obtain ⟨j, hj, hl⟩ := List.any_eq_true.mp hany
      rw [h2 j (List.mem_range.mp hj)] at hl
      exact absurd hl (by decide)
    rw [if_neg (by simp [h0]), if_neg (not_not.mpr h1), if_neg hnone]
    exact done_answers ((cmd?_wr s _ _ _ f i).trans h.fetched) []

/-! ### MODE_RUN -/

/-- Jobs and plots dropped, the fabric's epochs advanced. -/
def State.runDropped (s : State) : State :=
  let u := (List.range 16).foldl tenantChange ((List.range 16).foldl dropJob (s.wr Reg.TOP_MODE_MODE [] 1))
  if u.coreUp then advanceEpochs (rwcDropAll u) else u

/-- The values of R103 in firmware's registers, and no gather, update or collective left. -/
def State.runCleared (s : State) : State :=
  let u := runValues (dropSets s (fun _ => true))
  showGrafts (showSieve (showSieve { u with sieves := [], furrow := [], graft := {}, fences := [] } 0) 1)

/-- Sources masked, ports and VID as they start. -/
def State.runMasked (s : State) : State :=
  let u := (List.range 8).foldl portEvaluate (maskSources s)
  if u.on Reg.TOP_PINSTAT_VCORE_EN [] then driveVid u 0x64 else u

theorem enterRun_eq (s : State) : enterRun s = remapPf (runSchedule (openCaps s.runDropped.runCleared.runMasked)) := rfl

theorem runDropped_held (s : State) : Held (s.wr Reg.TOP_MODE_MODE [] 1) s.runDropped := by
  have h : Held (s.wr Reg.TOP_MODE_MODE [] 1)
      ((List.range 16).foldl tenantChange ((List.range 16).foldl dropJob (s.wr Reg.TOP_MODE_MODE [] 1))) :=
    ((Held.refl _).foldl fun _ _ h => h.dropJob).foldl fun _ _ h => h.tenantChange
  unfold State.runDropped
  generalize (List.range 16).foldl tenantChange _ = u at h ⊢
  exact .ite h.rwcDropAll.advanceEpochs h

/-- Keys of the mode alone. -/
def modeKey (k : Nat) : Prop := k = Reg.TOP_MODE_MODE.key []

theorem modeKey_die {k : Nat} (h : modeKey k) : dieKey k := by
  rw [h]
  unfold dieKey
  decide

/-- The mode is no field that firmware sets, so the values of R103 leave it. -/
theorem runValues_spares (s : State) : Spares State.anchor modeKey s (runValues s) := by
  have hmode : firmwareField (Reg.TOP_MODE_MODE.key []) = false := by decide +kernel
  refine ⟨rfl, fun f i hk => rd_dropWhere s _ f i ?_⟩
  rw [hk, hmode, Bool.false_and, Bool.false_and]

theorem runCleared_spares (s : State) : Spares State.anchor modeKey s s.runCleared := by
  have h : Spares State.anchor modeKey s (runValues (dropSets s (fun _ => true))) :=
    (⟨((Held.refl s).dropSets (p := fun _ => true)).view, ((Held.refl s).dropSets).regs.mono fun _ => modeKey_die⟩ :
      Spares State.anchor modeKey s (dropSets s (fun _ => true))).trans (runValues_spares _)
  unfold State.runCleared
  generalize runValues (dropSets s (fun _ => true)) = u at h ⊢
  have hshow : Held u (showGrafts (showSieve (showSieve { u with sieves := [], furrow := [], graft := {}, fences := [] } 0) 1)) :=
    ((Held.refl u).same rfl rfl : Held u { u with sieves := [], furrow := [], graft := {}, fences := [] }).showSieve.showSieve.showGrafts
  exact h.trans ⟨hshow.view, hshow.regs.mono fun _ => modeKey_die⟩

/-- HBM and the tenants. -/
def State.leases (s : State) : FMap Byte × FMap Tenant := (s.hbm, s.tenants)

theorem runMasked_calm (s : State) : Calm (maskSources s) s.runMasked := by
  have h : Calm (maskSources s) ((List.range 8).foldl portEvaluate (maskSources s)) :=
    (Calm.refl _).foldl fun _ _ hn h => h.portEvaluate (List.mem_range.mp hn)
  have hvid : ¬ calmKey (Reg.TOP_PINSTAT_VID.key []) := by
    rintro (h | h | ⟨⟨h, -⟩, -⟩)
    · exact absurd h (by decide)
    · exact absurd h (by decide)
    · exact absurd h (by decide)
  unfold State.runMasked
  generalize (List.range 8).foldl portEvaluate (maskSources s) = u at h ⊢
  refine .ite ?_ h
  rw [driveVid_eq]
  exact Calm.wr (Spares.wr h _ _ _ (calm_wr _ _ _ _) hvid)

theorem leases_wr (s : State) (f : Field) (i : List Nat) (x : Nat) : (s.wr f i x).leases = s.leases := rfl

theorem State.leases_of_anchor (h : t.anchor = s.anchor) : t.leases = s.leases :=
  congrArg (fun v : FMap Byte × FMap Tenant × Boot => (v.1, v.2.1)) h

theorem State.leases_of_calm (h : t.calm = s.calm) : t.leases = s.leases :=
  congrArg (fun v : FMap Byte × FMap Plot × FMap Job × FMap Tenant => (v.1, v.2.2.2)) h

/-- The die's mode and what it holds before sources are masked. -/
theorem runCleared_shows (s : State) : s.runDropped.runCleared.rd Reg.TOP_MODE_MODE [] = 1 ∧
    s.runDropped.runCleared.leases = s.leases := by
  have hdrop := runDropped_held s
  have hclear := runCleared_spares s.runDropped
  refine ⟨?_, ?_⟩
  · rw [hclear.rd _ _ rfl, hdrop.rd _ _ (modeKey_die rfl), rd_wr_self]
    rfl
  · rw [State.leases_of_anchor hclear.view, State.leases_of_anchor hdrop.view, leases_wr]

theorem sourceKey_calm {f : Field} (hf : IsSource f) (hl : f.lo < 2) {k : Nat} (hk : k < 1023) : calmKey (f.key [k]) := by
  refine .inr (.inr ⟨hf.inSources hk, ?_⟩)
  simp only [Field.key, Field.addr, hf.base, hf.strides, dotIdx]
  omega

/-- Run mode entered from Open mode: the mode reads RUN, no source is enabled, HBM and the tenants stand. -/
theorem enterRun_shows (s : State) : (enterRun s).rd Reg.TOP_MODE_MODE [] = 1 ∧
    (∀ k, k < 512 → (enterRun s).rd Reg.HDG_SRC_BEN [k] = 0 ∧ (enterRun s).rd Reg.HDG_SRC_HEN [k] = 0) ∧
    (enterRun s).leases = s.leases := by
  obtain ⟨hmode, hleases⟩ := runCleared_shows s
  have hmask := maskSources_spares s.runDropped.runCleared
  have hcalm : Calm (maskSources s.runDropped.runCleared) (enterRun s) :=
    (runMasked_calm _).openCaps.runSchedule.remapPf
  refine ⟨?_, fun k hk => ⟨?_, ?_⟩, ?_⟩
  · rw [hcalm.rd _ _ (.inl rfl), hmask.rd _ _ (modeKey_die rfl), hmode]
  · have hlt : k < 1023 := by omega
    obtain ⟨hben, -⟩ := maskSources_masks s.runDropped.runCleared hlt
    rw [hcalm.rd _ _ (sourceKey_calm isSource_ben (by decide) hlt), hben]
  · have hlt : k < 1023 := by omega
    obtain ⟨-, hhen, -⟩ := maskSources_masks s.runDropped.runCleared hlt
    rw [hcalm.rd _ _ (sourceKey_calm isSource_hen (by decide) hlt), hhen]
  · rw [State.leases_of_calm hcalm.view, hmask.part State.leases (fun _ => rfl), hleases]

theorem postCleared_noCmds (s : State) : (postCleared s).noCmds = s.noCmds := by
  have loop (l : List Cmd) (u : State) : (l.foldl (fun s c => done s c []) u).noCmds = u.noCmds := by
    induction l generalizing u with
    | nil => rfl
    | cons c r ih => exact (ih _).trans (finish_noCmds u c.func c.slot .ok [])
  unfold postCleared
  split
  · rfl
  · exact loop _ s

theorem waiting_noCmds (s : State) (c : Cmd) : (waiting s c).noCmds = s.noCmds := rfl

theorem modeRunOp_done {f i : Nat} {c : Cmd} (h : Startable s f i 0x104 c) (hr : s.isRun = true) :
    Answers s (modeRunOp s f i) f i .ok [] := by
  unfold modeRunOp
  rw [acs_starts h, if_pos hr]
  exact done_answers h.fetched []

theorem modeRunOp_enters {f i : Nat} {c : Cmd} (h : Startable s f i 0x104 c) (ho : s.isOpen = true) :
    modeRunOp s f i = postCleared (waiting (enterRun s) c) := by
  have hr : ¬ s.isRun = true := by
    intro hr
    have h1 : s.rd Reg.TOP_MODE_MODE [] = 1 := by simpa [State.isRun] using hr
    have h2 : s.rd Reg.TOP_MODE_MODE [] = 2 := by simpa [State.isOpen] using ho
    omega
  unfold modeRunOp
  rw [acs_starts h, if_neg hr]

theorem sourceKey_not_settles {f : Field} (hf : IsSource f) {k : Nat} (hk : k < 512) : f.key [k] ∉ settleKeys := by
  have := hf.low
  intro hm
  simp only [settleKeys, List.mem_append, List.mem_flatMap, List.mem_cons, List.not_mem_nil, or_false, List.mem_range] at hm
  rcases hm with ⟨e, he, h | h | h⟩ | ⟨g, hg, h | h | h | h⟩
  all_goals
    simp only [hf.base, hf.strides, Reg.RKE_CTX_STATE, Reg.RKE_CTX_WAIT_KIND, Reg.RKE_CTX_WAIT_ARG, Reg.TOP_QD_GST_QUIET,
      Reg.TOP_QD_GST_SUSPENDED, Reg.TOP_QD_GST_REPORTED, Reg.TOP_QD_GST_GEN, Field.key, Field.addr, dotIdx] at h
    omega

/-- MODE_RUN from Open mode, settled. -/
theorem modeRunOp_shows {f i : Nat} {c : Cmd} (h : Startable s f i 0x104 c) (ho : s.isOpen = true)
    (ht : Settles (modeRunOp s f i) t) : t.rd Reg.TOP_MODE_MODE [] = 1 ∧
      (∀ k, k < 512 → t.rd Reg.HDG_SRC_BEN [k] = 0 ∧ t.rd Reg.HDG_SRC_HEN [k] = 0) ∧ t.leases = s.leases := by
  rw [modeRunOp_enters h ho] at ht
  obtain ⟨hmode, hmasks, hleases⟩ := enterRun_shows s
  have hcmds := (postCleared_noCmds (waiting (enterRun s) c)).trans (waiting_noCmds _ c)
  have hrd (g : Field) (j : List Nat) (hg : g.key j ∉ settleKeys) : t.rd g j = (enterRun s).rd g j := by
    rw [ht.regs g j hg, State.noCmds_part hcmds (fun x => x.rd g j) (fun _ => rfl)]
  refine ⟨?_, fun k hk => ⟨?_, ?_⟩, ?_⟩
  · rw [hrd _ _ (dieKey_not_settles (modeKey_die rfl)), hmode]
  · rw [hrd _ _ (sourceKey_not_settles isSource_ben hk), (hmasks k hk).1]
  · rw [hrd _ _ (sourceKey_not_settles isSource_hen hk), (hmasks k hk).2]
  · rw [ht.part State.leases (fun _ => rfl), State.noCmds_part hcmds State.leases (fun _ => rfl), hleases]

end

/-- Settles O11: MODE_OPEN by its checks, MODE_RUN by the mode it starts from. -/
theorem modeCommandsMoveBetweenRunAndOpen : Obligations.ModeCommandsMoveBetweenRunAndOpen := by
  intro s f i c
  refine ⟨fun h => ?_, fun h => ⟨fun hr => ?_, fun ho => ?_⟩⟩
  · obtain ⟨hopen, hvfs, hjobs, hok⟩ := modeOpenOp_clauses h
    exact ⟨fun h0 => ⟨_, rfl, hopen h0⟩, fun h0 h1 => ⟨_, rfl, hvfs h0 h1⟩, fun h0 h1 h2 => ⟨_, rfl, hjobs h0 h1 h2⟩,
      fun h0 h1 h2 => ⟨_, rfl, hok h0 h1 h2⟩⟩
  · obtain ⟨t, heq, ht⟩ := nextQ_settles (modeRunOp s f i)
    exact ⟨t, _, heq, modeRunOp_done h hr, ht⟩
  · obtain ⟨t, heq, ht⟩ := nextQ_settles (modeRunOp s f i)
    obtain ⟨hmode, hmasks, hleases⟩ := modeRunOp_shows h ho ht
    exact ⟨t, heq, hmode, hmasks, congrArg (fun v => v.1) hleases, congrArg (fun v => v.2) hleases⟩

end Sys2Proof.Machine
end

/-! ## Bytes of flash: erased, programmed and undefined segments (R567, R570, R571) -/

section
namespace Sys2Proof.Machine

section
variable {s t : State}

/-- Reading a map after dropping keys that are not `k`. -/
theorem FMap.get_dropWhere {α : Type} (m : FMap α) (d : α) {k : Nat} {p : Nat → Bool} (h : p k = false) :
    FMap.get (FMap.dropWhere m p) d k = FMap.get m d k := by
  rw [FMap.get_eq_find, FMap.get_eq_find, FMap.find_dropWhere m k p h]

/-- A dropped key is found no more. -/
theorem FMap.find_dropWhere_none {α : Type} (m : FMap α) {k : Nat} {p : Nat → Bool} (h : p k = true) :
    FMap.find (FMap.dropWhere m p) k = none := by
  unfold FMap.dropWhere
  induction m with
  | nil => rfl
  | cons e r ih =>
    by_cases hp : p e.1 = true
    · simp [hp, ih]
    · have he : e.1 ≠ k := fun he => hp (he ▸ h)
      simp [hp, he, ih, FMap.find]

/-- A byte of flash is what its bytes and undefined segments say. -/
theorem flashByte_congr (hb : t.flash.bytes = s.flash.bytes) (hu : t.flash.undef = s.flash.undef) (x : Nat) :
    t.flashByte x = s.flashByte x := by
  unfold State.flashByte
  rw [hb, hu]

theorem eraseSector_bytes (s : State) (k : Nat) :
    (eraseSector s k).flash.bytes = FMap.dropWhere s.flash.bytes (fun a => a / 4096 == k) := rfl

theorem eraseSector_undef (s : State) (k : Nat) :
    (eraseSector s k).flash.undef = FMap.dropWhere s.flash.undef (fun g => g / 64 == k) := rfl

/-- A byte and the segment that holds it lie in the same sector. -/
theorem segment_sector (x : Nat) : x / 64 / 64 = x / 4096 := Nat.div_div_eq_div_mul x 64 64

theorem eraseSector_flashByte_self (s : State) {k x : Nat} (h : x / 4096 = k) : (eraseSector s k).flashByte x = 0xFF := by
  unfold State.flashByte
  rw [eraseSector_undef, eraseSector_bytes, FMap.find_dropWhere_none _ (by simp [segment_sector, h]), FMap.get_eq_find,
    FMap.find_dropWhere_none _ (by simp [h])]
  rfl

theorem eraseSector_flashByte_ne (s : State) {k x : Nat} (h : x / 4096 ≠ k) : (eraseSector s k).flashByte x = s.flashByte x := by
  unfold State.flashByte
  rw [eraseSector_undef, eraseSector_bytes, FMap.find_dropWhere _ _ _ (by simp [segment_sector, h]),
    FMap.get_dropWhere _ _ (by simp [h])]

/-- An erase counts the sector's wear alone. -/
theorem eraseSector_wear (s : State) {k : Nat} (h : s.wear k < 100000) : (eraseSector s k).wear k = s.wear k + 1 ∧
    ∀ j, j ≠ k → (eraseSector s k).wear j = s.wear j := by
  refine ⟨(FMap.get_set_self s.flash.wear 0 k _).trans (Nat.min_eq_left ?_), fun j hj => FMap.get_set_ne _ _ _ _ hj⟩
  omega

/-- Putting bytes leaves every other key of the bytes, and the undefined segments. -/
theorem flashPut_undef (l : List Byte) (s : State) (a : Nat) : (flashPut s a l).flash.undef = s.flash.undef := by
  induction l generalizing s a with
  | nil => rfl
  | cons b r ih => exact ih _ _

theorem flashPut_get_ne (l : List Byte) (s : State) (a : Nat) {x : Nat} (h : x < a ∨ a + l.length ≤ x) :
    FMap.get (flashPut s a l).flash.bytes 0xFF x = FMap.get s.flash.bytes 0xFF x := by
  induction l generalizing s a with
  | nil => rfl
  | cons b r ih =>
    rw [List.length_cons] at h
    rw [flashPut, ih _ _ (by omega)]
    exact FMap.get_set_ne _ _ _ _ (by omega)

theorem flashPut_get (l : List Byte) (s : State) (a : Nat) {k : Nat} (h : k < l.length) :
    FMap.get (flashPut s a l).flash.bytes 0xFF (a + k) = l.getD k 0 := by
  induction l generalizing s a k with
  | nil => exact absurd h (Nat.not_lt_zero k)
  | cons b r ih =>
    rw [List.length_cons] at h
    rw [flashPut]
    cases k with
    | zero =>
      rw [flashPut_get_ne r _ _ (.inl (by omega)), List.getD_cons_zero]
      exact FMap.get_set_self _ _ _ _
    | succ k =>
      rw [List.getD_cons_succ, ← ih _ (a + 1) (by omega)]
      exact congrArg (FMap.get _ 0xFF) (by omega)

/-- A programmed segment reads its data, padded with zeros. -/
theorem programSegment_flashByte_self (s : State) {a : Nat} (ha : a % 64 = 0) (d : List Byte) {k : Nat} (hk : k < 64) :
    (programSegment s a d).flashByte (a + k) = d.getD k 0 := by
  have hu : FMap.find (programSegment s a d).flash.undef ((a + k) / 64) = none := by
    rw [programSegment, flashPut_undef, show (a + k) / 64 = a / 64 by omega]
    exact FMap.find_erase_self _ _
  unfold State.flashByte
  rw [hu]
  exact (flashPut_get _ _ a (by rwa [padTo_length])).trans (padTo_getD d hk)

theorem programSegment_flashByte_ne (s : State) {a : Nat} (ha : a % 64 = 0) (d : List Byte) {x : Nat} (h : x / 64 ≠ a / 64) :
    (programSegment s a d).flashByte x = s.flashByte x := by
  have hu : FMap.find (programSegment s a d).flash.undef (x / 64) = FMap.find s.flash.undef (x / 64) := by
    rw [programSegment, flashPut_undef]
    exact FMap.find_erase_ne _ h
  have hb : FMap.get (programSegment s a d).flash.bytes 0xFF x = FMap.get s.flash.bytes 0xFF x :=
    flashPut_get_ne _ _ a (by rw [padTo_length]; omega)
  unfold State.flashByte
  rw [hu, hb]

theorem undefSegment_bytes (s : State) (g : Nat) :
    (undefSegment s g).flash.bytes = FMap.dropWhere s.flash.bytes (fun a => a / 64 == g) := rfl

theorem undefSegment_undef (s : State) (g : Nat) : (undefSegment s g).flash.undef = FMap.put s.flash.undef g s.freeCtr := rfl

theorem undefSegment_flashByte_ne (s : State) {g x : Nat} (h : x / 64 ≠ g) : (undefSegment s g).flashByte x = s.flashByte x := by
  unfold State.flashByte
  rw [undefSegment_undef, undefSegment_bytes, FMap.find_put_ne _ _ h, FMap.get_dropWhere _ _ (by simp [h])]

/-- Programming changes flash's bytes and undefined segments alone. -/
theorem programSegment_flash (s : State) (a : Nat) (d : List Byte) : ∃ x y,
    programSegment s a d = { s with flash := { s.flash with bytes := x, undef := y } } := by
  have loop (l : List Byte) (u : State) (a : Nat) : ∃ x, flashPut u a l = { u with flash := { u.flash with bytes := x } } := by
    induction l generalizing u a with
    | nil => exact ⟨_, rfl⟩
    | cons b r ih =>
      obtain ⟨x, hx⟩ := ih { u with flash := { u.flash with bytes := FMap.set u.flash.bytes 0xFF a b } } (a + 1)
      exact ⟨x, hx⟩
  obtain ⟨x, hx⟩ := loop (padTo 64 d) { s with flash := { s.flash with undef := FMap.erase s.flash.undef (a / 64) } } a
  exact ⟨x, _, hx⟩

end

end Sys2Proof.Machine
end

/-! ## The flash controller: queues, completions and failures (R570, R571, R572, R574, R585) -/

section
namespace Sys2Proof.Machine

open Host (Outcome)

section
variable {s t : State}

/-! ### What a failure and an end of an operation show -/

/-- A failure shown, before its source is raised. -/
def State.failShown (s : State) (cause addr : Nat) : State :=
  ((s.wr Reg.FLC_STAT_FAIL [] 1).wr Reg.FLC_STAT_CAUSE [] cause).wr Reg.FLC_FAILADDR_ADDR [] addr

theorem flashFail_raises (s : State) (cause addr : Nat) : Raises (s.failShown cause addr) (flashFail s cause addr) 406 0 :=
  hedgeEvent_raises _ 0 (by decide)

theorem failShown_rd (s : State) {cause : Nat} (addr : Nat) (hc : cause < 2 ^ 4) :
    (s.failShown cause addr).on Reg.FLC_STAT_FAIL [] = true ∧ (s.failShown cause addr).rd Reg.FLC_STAT_CAUSE [] = cause ∧
    (s.failShown cause addr).rd Reg.FLC_FAILADDR_ADDR [] = addr % 2 ^ 23 := by
  unfold State.failShown State.on
  simp (disch := decide) only [rd_wr_ne, rd_wr_self]
  exact ⟨rfl, Nat.mod_eq_of_lt hc, rfl⟩

theorem flashFail_flash (s : State) (cause addr : Nat) : (flashFail s cause addr).flash = s.flash :=
  (flashFail_raises s cause addr).quiet.flash

/-- A failed operation of which nothing else follows. -/
theorem flashFail_fails (s : State) {cause : Nat} (addr : Nat) (hc : cause < 2 ^ 4) :
    FlashFails s (flashFail s cause addr) cause addr := by
  obtain ⟨quiet, data, -, -⟩ := flashFail_raises s cause addr
  obtain ⟨hfail, hcause, haddr⟩ := failShown_rd s addr hc
  have hflash := flashFail_flash s cause addr
  exact ⟨(quiet.on _ _ (.inr (by decide))).trans hfail, (quiet.regs _ _ (.inr (by decide))).trans hcause,
    (quiet.regs _ _ (.inr (by decide))).trans haddr, data, congrArg Flash.bytes hflash, congrArg Flash.wear hflash,
    quiet.hbm, quiet.plots⟩

/-- A state with other queues of flash operations. -/
def State.withBanks (s : State) (p q : List FlashOp) : State := { s with flash := { s.flash with bank0 := p, bank1 := q } }

/-- The owner of an operation. -/
def FlashOp.by : FlashOp → FlashOwner
  | .erase o _ _ => o
  | .program o _ _ => o

theorem dropOwner_eq (s : State) (o : FlashOwner) : dropOwner s o =
    s.withBanks (s.flash.bank0.filter (fun x => x.by != o)) (s.flash.bank1.filter (fun x => x.by != o)) := by
  have hk : (fun x : FlashOp => match x with | .erase p _ _ => p != o | .program p _ _ => p != o) = (fun x => x.by != o) := by
    funext x
    cases x <;> rfl
  unfold dropOwner
  rw [← hk]
  rfl

theorem setBank_eq (s : State) (b : Nat) (q : List FlashOp) :
    s.setBank b q = s.withBanks (if b = 0 then q else s.flash.bank0) (if b = 0 then s.flash.bank1 else q) := by
  unfold State.setBank
  split <;> rfl

/-- A bank's operations are among those queued before its owner's are dropped. -/
theorem dropOwner_bank (s : State) (o : FlashOwner) (b : Nat) : ∀ x ∈ (dropOwner s o).bank b, x ∈ s.bank b := by
  intro x hx
  rw [dropOwner_eq] at hx
  unfold State.bank at hx ⊢
  split
  · next hb =>
    rw [if_pos hb] at hx
    exact List.mem_of_mem_filter hx
  · next hb =>
    rw [if_neg hb] at hx
    exact List.mem_of_mem_filter hx

theorem setBank_bank (s : State) (b : Nat) (q : List FlashOp) : (s.setBank b q).bank b = q := by
  unfold State.setBank State.bank
  split <;> rfl

/-- BUSY follows, and nothing else. -/
theorem busyFollows_onlyRegs (s : State) : OnlyRegs s (busyFollows s) [Reg.FLC_STAT_BUSY0.key [], Reg.FLC_STAT_BUSY1.key []] :=
  ((OnlyRegs.refl s _).wrb _ _ _ (by decide)).wrb _ _ _ (by decide)

theorem busyFollows_flash (s : State) : (busyFollows s).flash = s.flash :=
  (busyFollows_onlyRegs s).part State.flash (fun _ => rfl)

/-- The register of a bank's BUSY bit. -/
theorem busyFollows_empty (s : State) (b : Fin 2) (h : s.bank b = []) :
    (busyFollows s).on (if b = 0 then Reg.FLC_STAT_BUSY0 else Reg.FLC_STAT_BUSY1) [] = false := by
  unfold busyFollows
  fin_cases b
  · have h0 : s.flash.bank0 = [] := h
    rw [h0]
    exact (on_wrb_ne _ _ (by decide)).trans (on_wrb_self _ _ _ rfl)
  · have h1 : s.flash.bank1 = [] := h
    rw [h1]
    exact on_wrb_self _ _ _ rfl

/-- A failed operation of the registers: the failure is shown, and their queued operations are dropped. -/
def State.registerFailed (s : State) (cause addr : Nat) : State :=
  busyFollows (ownerFail (flashFail s cause addr) .register cause addr)

theorem registerFailed_eq (s : State) (cause addr : Nat) :
    s.registerFailed cause addr = busyFollows (dropOwner (flashFail s cause addr) .register) := rfl

theorem registerFailed_bank (s : State) (cause addr b : Nat) : ∀ x ∈ (s.registerFailed cause addr).bank b, x ∈ s.bank b := by
  intro x hx
  have hbusy : (s.registerFailed cause addr).bank b = (dropOwner (flashFail s cause addr) .register).bank b := by
    unfold State.bank
    rw [registerFailed_eq, busyFollows_flash]
  have hflash : (flashFail s cause addr).bank b = s.bank b := by
    unfold State.bank
    rw [flashFail_flash]
  rw [hbusy] at hx
  exact hflash ▸ dropOwner_bank _ _ _ x hx

/-- Other queues and the BUSY bits do not touch what a failure shows. -/
theorem FlashFails.withBanks {cause addr : Nat} (h : FlashFails s t cause addr) (p q : List FlashOp) :
    FlashFails s (busyFollows (t.withBanks p q)) cause addr := by
  have hb := busyFollows_onlyRegs (t.withBanks p q)
  have hrd (f : Field) (i : List Nat) (hk : f.key i ∉ [Reg.FLC_STAT_BUSY0.key [], Reg.FLC_STAT_BUSY1.key []]) :
      (busyFollows (t.withBanks p q)).rd f i = t.rd f i := hb.regs f i hk
  have hflash := busyFollows_flash (t.withBanks p q)
  refine ⟨?_, ?_, ?_, ?_, ?_, ?_, ?_, ?_⟩
  · exact (congrArg (· != 0) (hrd _ _ (by decide))).trans h.fail
  · exact (hrd _ _ (by decide)).trans h.cause
  · exact (hrd _ _ (by decide)).trans h.addr
  · exact (hrd _ _ (by decide)).trans h.data
  · exact (congrArg Flash.bytes hflash).trans h.bytes
  · exact (congrArg Flash.wear hflash).trans h.wear
  · exact (hb.part State.hbm (fun _ => rfl)).trans h.hbm
  · exact (hb.part State.plots (fun _ => rfl)).trans h.plots

theorem registerFailed_fails (s : State) {cause : Nat} (addr : Nat) (hc : cause < 2 ^ 4) :
    FlashFails s (s.registerFailed cause addr) cause addr := by
  rw [registerFailed_eq, dropOwner_eq]
  exact (flashFail_fails s addr hc).withBanks _ _

/-- What a failure shows does not depend on the queues it started from. -/
theorem FlashFails.of_withBanks {cause addr : Nat} {p q : List FlashOp} (h : FlashFails (s.withBanks p q) t cause addr) :
    FlashFails s t cause addr := ⟨h.fail, h.cause, h.addr, h.data, h.bytes, h.wear, h.hbm, h.plots⟩

/-! ### ERASE and PROGRAM -/

theorem exec_flcCtlErase {src : Src} (h : s.mayWrite src = true) : exec (.flcCtlErase src) s = .next (flcEraseOp s src) :=
  next_fwWrite h _ _

theorem exec_flcCtlProgram {src : Src} (h : s.mayWrite src = true) :
    exec (.flcCtlProgram src) s = .next (flcProgramOp s src) := next_fwWrite h _ _

theorem flcEraseOp_cut {src : Src} (h : s.on Reg.PWR_STAT_CUT [] = true) : flcEraseOp s src = s := if_pos h

theorem flcEraseOp_protected {src : Src} (h0 : s.on Reg.PWR_STAT_CUT [] = false) (h1 : src ≠ .bench)
    (h2 : modelSectors (s.rd Reg.FLC_ERASE_ADDR_SECTOR []) (s.rd Reg.FLC_ERASE_COUNT_SECTORS []) = false) :
    flcEraseOp s src = flashFail s 4 (4096 * s.rd Reg.FLC_ERASE_ADDR_SECTOR []) := by
  unfold flcEraseOp
  rw [if_neg (by simp [h0]), if_pos ⟨h1, by simp [h2]⟩, Nat.mul_comm]
  rfl

theorem flcEraseOp_queues {src : Src} (h0 : s.on Reg.PWR_STAT_CUT [] = false) (h1 : src = .bench ∨
    modelSectors (s.rd Reg.FLC_ERASE_ADDR_SECTOR []) (s.rd Reg.FLC_ERASE_COUNT_SECTORS []) = true) :
    flcEraseOp s src = queueFlash s (s.rd Reg.FLC_ERASE_ADDR_SECTOR [])
      (.erase .register (s.rd Reg.FLC_ERASE_ADDR_SECTOR []) (s.rd Reg.FLC_ERASE_COUNT_SECTORS [])) := by
  have hok : ¬ (src ≠ .bench ∧ (!modelSectors (s.rd Reg.FLC_ERASE_ADDR_SECTOR []) (s.rd Reg.FLC_ERASE_COUNT_SECTORS [])) = true) := by
    rintro ⟨hne, hm⟩
    have := h1.resolve_left hne
    simp [this] at hm
  unfold flcEraseOp
  rw [if_neg (by simp [h0]), if_neg hok]

/-- The segment of an address, and the sector of a segment. -/
theorem segment_units (a : Nat) : a * 64 / 4096 = a / 64 ∧ a * 64 / 64 = a := by omega

/-- The number of segments that PROGRAM writes. -/
def State.progCount (s : State) : Nat :=
  min (s.rd Reg.FLC_PROG_LEN_LEN1 [] + 1) (64 - s.rd Reg.FLC_PROG_ADDR_SEG [] % 64)

theorem flcProgramOp_cut {src : Src} (h : s.on Reg.PWR_STAT_CUT [] = true) : flcProgramOp s src = s := if_pos h

theorem flcProgramOp_protected {src : Src} (h0 : s.on Reg.PWR_STAT_CUT [] = false) (h1 : src ≠ .bench)
    (h2 : modelSectors (s.rd Reg.FLC_PROG_ADDR_SEG [] / 64) 1 = false) :
    flcProgramOp s src = flashFail s 4 (64 * s.rd Reg.FLC_PROG_ADDR_SEG []) := by
  obtain ⟨hsector, -⟩ := segment_units (s.rd Reg.FLC_PROG_ADDR_SEG [])
  unfold flcProgramOp
  dsimp only
  rw [hsector, if_neg (by simp [h0]), if_pos ⟨h1, by simp [h2]⟩, Nat.mul_comm]
  rfl

theorem flcProgramOp_queues {src : Src} (h0 : s.on Reg.PWR_STAT_CUT [] = false) (h1 : src = .bench ∨
    modelSectors (s.rd Reg.FLC_PROG_ADDR_SEG [] / 64) 1 = true) :
    flcProgramOp s src = queueFlash s (s.rd Reg.FLC_PROG_ADDR_SEG [] / 64)
      (.program .register (64 * s.rd Reg.FLC_PROG_ADDR_SEG [])
        (segments s.progCount (s.sramRead (s.rd Reg.FLC_PROG_SRC_SRC []) (64 * s.progCount)))) := by
  obtain ⟨hsector, hseg⟩ := segment_units (s.rd Reg.FLC_PROG_ADDR_SEG [])
  have hok : ¬ (src ≠ .bench ∧ (!modelSectors (s.rd Reg.FLC_PROG_ADDR_SEG [] / 64) 1) = true) := by
    rintro ⟨hne, hm⟩
    have := h1.resolve_left hne
    simp [this] at hm
  unfold flcProgramOp
  dsimp only
  rw [hsector, hseg, if_neg (by simp [h0]), if_neg hok, Nat.mul_comm (s.rd Reg.FLC_PROG_ADDR_SEG []) 64]
  rfl

theorem segments_length (n : Nat) (l : List Byte) : (segments n l).length = n := by
  induction n generalizing l with
  | zero => rfl
  | succ n ih => exact congrArg (· + 1) (ih _)

theorem sramRead_drop (s : State) (a n : Nat) : (s.sramRead a (64 * (n + 1))).drop 64 = s.sramRead (a + 64) (64 * n) := by
  refine List.ext_getElem (by simp [State.sramRead]; omega) fun i h1 h2 => ?_
  simp only [State.sramRead, List.getElem_drop, List.getElem_map, List.getElem_range]
  exact congrArg s.sramByte (by omega)

theorem sramRead_head (s : State) (a n : Nat) : padTo 64 (s.sramRead a (64 * (n + 1))) = s.sramRead a 64 := by
  refine List.ext_getElem (by simp [State.sramRead, padTo_length]) fun i h1 h2 => ?_
  rw [padTo_length] at h1
  simp only [padTo, List.getElem_take]
  rw [List.getElem_append_left (by simp [State.sramRead]; omega)]
  simp only [State.sramRead, List.getElem_map, List.getElem_range]

/-- Each segment is its 64 bytes of SRAM. -/
theorem segments_sramRead (s : State) {n k : Nat} (a : Nat) (h : k < n) :
    (segments n (s.sramRead a (64 * n)))[k]? = some (s.sramRead (a + 64 * k) 64) := by
  induction n generalizing a k with
  | zero => omega
  | succ n ih =>
    rw [segments]
    cases k with
    | zero => rw [List.getElem?_cons_zero, sramRead_head]; rfl
    | succ k =>
      rw [List.getElem?_cons_succ, sramRead_drop, ih (a + 64) (by omega)]
      exact congrArg (fun x => some (s.sramRead x 64)) (by omega)

/-! ### The end of a sector's erase -/

/-- A state whose next completion finds no erase at the head of the bank. -/
theorem sectorEraseOp_stays {b : Nat} (h : ∀ o a n r, s.bank b ≠ .erase o a n :: r) : sectorEraseOp s b = s := by
  unfold sectorEraseOp
  split
  · next o a n r he => exact absurd he (h o a n r)
  · rfl

/-- A range that a running list reads waits (R585). -/
theorem sectorEraseOp_waits {b n a : Nat} {o : FlashOwner} {r : List FlashOp} (hb : s.bank b = .erase o a n :: r)
    (h : s.cmeHolds (4096 * a) 4096 = true) : sectorEraseOp s b = s := by
  unfold sectorEraseOp
  rw [hb, Nat.mul_comm] at *
  exact if_pos h

theorem sectorEraseOp_worn {b n a : Nat} {r : List FlashOp} (hb : s.bank b = .erase .register a n :: r)
    (h0 : s.cmeHolds (4096 * a) 4096 = false) (h1 : 100000 ≤ s.wear a) :
    sectorEraseOp s b = (s.setBank b r).registerFailed 3 (4096 * a) := by
  have hw : s.worn a = true := decide_eq_true h1
  rw [Nat.mul_comm] at h0
  unfold sectorEraseOp
  rw [hb]
  dsimp only
  rw [if_neg (by simp [h0]), if_pos hw, Nat.mul_comm]
  rfl

theorem not_worn {a : Nat} (h : s.wear a < 100000) : ¬ s.worn a = true := by
  unfold State.worn
  simpa using h

theorem sectorEraseOp_continues {b n a : Nat} {o : FlashOwner} {r : List FlashOp} (hb : s.bank b = .erase o a n :: r)
    (h0 : s.cmeHolds (4096 * a) 4096 = false) (h1 : s.wear a < 100000) (hn : 1 < n) :
    sectorEraseOp s b = (eraseSector s a).setBank b (.erase o (a + 1) (n - 1) :: r) := by
  rw [Nat.mul_comm] at h0
  unfold sectorEraseOp
  rw [hb]
  dsimp only
  rw [if_neg (by simp [h0]), if_neg (not_worn h1), if_pos hn]

theorem sectorEraseOp_ends {b n a : Nat} {o : FlashOwner} {r : List FlashOp} (hb : s.bank b = .erase o a n :: r)
    (h0 : s.cmeHolds (4096 * a) 4096 = false) (h1 : s.wear a < 100000) (hn : n ≤ 1) :
    sectorEraseOp s b = busyFollows (ownerDone (flashDone ((eraseSector s a).setBank b r)) o) := by
  rw [Nat.mul_comm] at h0
  unfold sectorEraseOp
  rw [hb]
  dsimp only
  rw [if_neg (by simp [h0]), if_neg (not_worn h1), if_neg (by omega)]

/-- What an operation's end leaves of flash: all but the recovery's phase. -/
def State.media (s : State) : Flash := { s.flash with rcvPhase := 0 }

theorem media_of_flash (h : t.flash = s.flash) : t.media = s.media := by
  unfold State.media
  rw [h]

theorem media_bank (h : t.media = s.media) (b : Nat) : t.bank b = s.bank b := by
  have hbanks (u : State) : u.bank b = if b = 0 then u.media.bank0 else u.media.bank1 := rfl
  rw [hbanks, hbanks, h]

theorem media_wear (h : t.media = s.media) (k : Nat) : t.wear k = s.wear k := by
  have hwear (u : State) : u.wear k = FMap.get u.media.wear 0 k := rfl
  rw [hwear, hwear, h]

theorem media_flashByte (h : t.media = s.media) (x : Nat) : t.flashByte x = s.flashByte x := by
  have hbytes (u : State) : u.flash.bytes = u.media.bytes := rfl
  have hundef (u : State) : u.flash.undef = u.media.undef := rfl
  exact flashByte_congr (by rw [hbytes, hbytes, h]) (by rw [hundef, hundef, h]) x

theorem flashDone_quiet (s : State) : Quiet (s.wr Reg.FLC_STAT_DONE [] 1) (flashDone s) :=
  hedgeEvent_quiet (.refl _) 0 (by decide)

theorem flashDone_flash (s : State) : (flashDone s).flash = s.flash := (flashDone_quiet s).flash

theorem flashDone_hbm (s : State) : (flashDone s).hbm = s.hbm := (flashDone_quiet s).hbm

theorem flashDone_done (s : State) : (flashDone s).on Reg.FLC_STAT_DONE [] = true :=
  ((flashDone_quiet s).on _ _ (.inr (by decide))).trans (on_wr_self _ _ _ _)

/-- The registers and the recovery learn of an end without a register or a queue changing. -/
theorem ownerDone_shows (s : State) {o : FlashOwner} (ho : o = .register ∨ o = .rcv) :
    (ownerDone s o).regs = s.regs ∧ (ownerDone s o).media = s.media ∧ (ownerDone s o).hbm = s.hbm := by
  unfold ownerDone
  split
  · exact ⟨rfl, rfl, rfl⟩
  · rcases ho with rfl | rfl
    · exact ⟨rfl, rfl, rfl⟩
    · exact ⟨rfl, rfl, rfl⟩

/-- The end of the last operation of the registers or of the recovery: DONE, and of the recovery its phase. -/
theorem ended_shows (s : State) {o : FlashOwner} (ho : o = .register ∨ o = .rcv) :
    (busyFollows (ownerDone (flashDone s) o)).on Reg.FLC_STAT_DONE [] = true ∧
    (busyFollows (ownerDone (flashDone s) o)).media = s.media ∧ (busyFollows (ownerDone (flashDone s) o)).hbm = s.hbm := by
  obtain ⟨hregs, hmedia, hhbm⟩ := ownerDone_shows (flashDone s) ho
  have hdone := flashDone_done s
  have hflash := media_of_flash (flashDone_flash s)
  have hdata := flashDone_hbm s
  generalize flashDone s = u at *
  generalize ownerDone u o = w at *
  have hbusy := busyFollows_onlyRegs w
  refine ⟨?_, (media_of_flash (busyFollows_flash w)).trans (hmedia.trans hflash), ?_⟩
  · unfold State.on
    rw [hbusy.regs _ _ (by decide), rd_congr hregs]
    exact hdone
  · exact (hbusy.part State.hbm (fun _ => rfl)).trans (hhbm.trans hdata)

/-- A bank without operations shows no BUSY at the end of one. -/
theorem ended_idle (s : State) {o : FlashOwner} (ho : o = .register ∨ o = .rcv) (b : Fin 2) (h : s.bank b = []) :
    (busyFollows (ownerDone (flashDone s) o)).on (if b = 0 then Reg.FLC_STAT_BUSY0 else Reg.FLC_STAT_BUSY1) [] = false := by
  obtain ⟨-, hmedia, -⟩ := ownerDone_shows (flashDone s) ho
  refine busyFollows_empty _ b ?_
  rw [media_bank (hmedia.trans (media_of_flash (flashDone_flash s))) b]
  exact h

/-- The last operation of the recovery ends the erase phase. -/
theorem ended_recovery (s : State) (h0 : s.flash.bank0 = []) (h1 : s.flash.bank1 = []) :
    (busyFollows (ownerDone (flashDone s) .rcv)).flash.rcvPhase = 2 := by
  have hnone : (flashDone s).ownsOp .rcv = false := by
    unfold State.ownsOp
    rw [flashDone_flash, h0, h1]
    rfl
  rw [busyFollows_flash]
  generalize flashDone s = u at *
  rw [ownerDone, if_neg (by simp [hnone])]

/-- The banks hold one operation in all, so nothing is left once it is taken. -/
theorem setBank_empty {b : Nat} {x : FlashOp} {r : List FlashOp} (hb : s.bank b = x :: r)
    (h : s.flash.bank0.length + s.flash.bank1.length = 1) :
    (s.setBank b r).flash.bank0 = [] ∧ (s.setBank b r).flash.bank1 = [] := by
  unfold State.bank at hb
  unfold State.setBank
  split
  · next h0 =>
    rw [if_pos h0] at hb
    rw [hb, List.length_cons] at h
    have hr : r = [] := List.eq_nil_of_length_eq_zero (by omega)
    have h1 : s.flash.bank1 = [] := List.eq_nil_of_length_eq_zero (by omega)
    exact ⟨hr, h1⟩
  · next h0 =>
    rw [if_neg h0] at hb
    rw [hb, List.length_cons] at h
    have hr : r = [] := List.eq_nil_of_length_eq_zero (by omega)
    have h0 : s.flash.bank0 = [] := List.eq_nil_of_length_eq_zero (by omega)
    exact ⟨h0, hr⟩

/-- Replacing a queue leaves the bytes and the wear. -/
theorem setBank_flashByte (s : State) (b : Nat) (q : List FlashOp) (x : Nat) : (s.setBank b q).flashByte x = s.flashByte x := by
  rw [setBank_eq]
  rfl

theorem setBank_wear (s : State) (b : Nat) (q : List FlashOp) (k : Nat) : (s.setBank b q).wear k = s.wear k := by
  rw [setBank_eq]
  rfl

theorem setBank_rest (s : State) (b : Nat) (q : List FlashOp) :
    (s.setBank b q).regs = s.regs ∧ (s.setBank b q).hbm = s.hbm := by
  rw [setBank_eq]
  exact ⟨rfl, rfl⟩

/-! ### The end of a segment's programming -/

theorem segmentProgramOp_stays {b : Nat} {v : Bool} (h : ∀ o a d l r, s.bank b ≠ .program o a (d :: l) :: r) :
    segmentProgramOp s b v = s := by
  unfold segmentProgramOp
  split
  · next o a d l r he => exact absurd he (h o a d l r)
  · rfl

section
variable {b a : Nat} {o : FlashOwner} {d : List Byte} {l : List (List Byte)} {r : List FlashOp} {v : Bool}

theorem segmentProgramOp_waits (hb : s.bank b = .program o a (d :: l) :: r) (h : s.cmeHolds a 64 = true) :
    segmentProgramOp s b v = s := by
  unfold segmentProgramOp
  rw [hb]
  exact if_pos h

theorem segmentProgramOp_notBlank (hb : s.bank b = .program .register a (d :: l) :: r) (h0 : s.cmeHolds a 64 = false)
    (h1 : s.blank a = false) : segmentProgramOp s b v = (s.setBank b r).registerFailed 1 a := by
  unfold segmentProgramOp
  rw [hb]
  dsimp only
  rw [if_neg (by simp [h0]), if_pos (by simp [h1])]
  rfl

theorem segmentProgramOp_unverified (hb : s.bank b = .program .register a (d :: l) :: r) (h0 : s.cmeHolds a 64 = false)
    (h1 : s.blank a = true) : segmentProgramOp s b false = ((undefSegment s (a / 64)).setBank b r).registerFailed 2 a := by
  unfold segmentProgramOp
  rw [hb]
  dsimp only
  rw [if_neg (by simp [h0]), if_neg (by simp [h1]), if_pos (by decide)]
  rfl

theorem segmentProgramOp_programs (hb : s.bank b = .program o a (d :: l) :: r) (h0 : s.cmeHolds a 64 = false)
    (h1 : s.blank a = true) : segmentProgramOp s b true = if l.isEmpty then
      busyFollows (ownerDone (flashDone ((programSegment s a d).setBank b r)) o)
      else (programSegment s a d).setBank b (.program o (a + 64) l :: r) := by
  unfold segmentProgramOp
  rw [hb]
  dsimp only
  rw [if_neg (by simp [h0]), if_neg (by simp [h1]), if_neg (by decide)]

end

end

end Sys2Proof.Machine
end

/-! ## Clauses of the flash controller and of the recovery (R78, R570, R571, R588) -/

section
namespace Sys2Proof.Machine

open Host (Outcome)

section
variable {s t : State}

/-! ### Queues -/

theorem queueFlash_flash (s : State) (k : Nat) (op : FlashOp) : (queueFlash s k op).flash =
    if k < 1024 then { s.flash with bank0 := s.flash.bank0 ++ [op] } else { s.flash with bank1 := s.flash.bank1 ++ [op] } := by
  unfold queueFlash
  split <;> rfl

theorem queueFlash_onlyRegs (s : State) (k : Nat) (op : FlashOp) :
    OnlyRegs { s with flash := (queueFlash s k op).flash } (queueFlash s k op)
      [(if k < 1024 then Reg.FLC_STAT_BUSY0 else Reg.FLC_STAT_BUSY1).key []] := by
  unfold queueFlash
  split
  · exact (OnlyRegs.refl _ _).wr _ _ _ (by decide)
  · exact (OnlyRegs.refl _ _).wr _ _ _ (by decide)

theorem queueFlash_busy (s : State) (k : Nat) (op : FlashOp) :
    (queueFlash s k op).on (if k < 1024 then Reg.FLC_STAT_BUSY0 else Reg.FLC_STAT_BUSY1) [] = true := by
  unfold queueFlash
  split
  · exact on_wr_self _ _ _ _
  · exact on_wr_self _ _ _ _

theorem OnlyRegs.mono {ks ks' : List Nat} (h : OnlyRegs s t ks) (hk : ∀ k ∈ ks, k ∈ ks') : OnlyRegs s t ks' :=
  ⟨h.rest, fun f i hi => h.regs f i (fun hm => hi (hk _ hm))⟩

/-- ERASE queues its sectors behind the operations of the bank. -/
theorem flcCtlErase_queues {src : Src} (h : s.mayWrite src = true) (h0 : s.on Reg.PWR_STAT_CUT [] = false)
    (h1 : src = .bench ∨ modelSectors (s.rd Reg.FLC_ERASE_ADDR_SECTOR []) (s.rd Reg.FLC_ERASE_COUNT_SECTORS []) = true) :
    exec (.flcCtlErase src) s = .next (queueFlash s (s.rd Reg.FLC_ERASE_ADDR_SECTOR [])
      (.erase .register (s.rd Reg.FLC_ERASE_ADDR_SECTOR []) (s.rd Reg.FLC_ERASE_COUNT_SECTORS []))) :=
  (exec_flcCtlErase h).trans (congrArg Outcome.next (flcEraseOp_queues h0 h1))

theorem flcCtlErase_low {src : Src} {a n : Nat} (h : exec (.flcCtlErase src) s = .next (queueFlash s a (.erase .register a n)))
    (ha : a < 1024) : ∃ t, exec (.flcCtlErase src) s = .next t ∧
    t.flash = { s.flash with bank0 := s.flash.bank0 ++ [.erase .register a n] } ∧
    t.on Reg.FLC_STAT_BUSY0 [] = true ∧ OnlyRegs { s with flash := t.flash } t [Reg.FLC_STAT_BUSY0.key []] := by
  have hflash := queueFlash_flash s a (.erase .register a n)
  have hbusy := queueFlash_busy s a (.erase .register a n)
  have hregs := queueFlash_onlyRegs s a (.erase .register a n)
  rw [if_pos ha] at hflash hbusy hregs
  exact ⟨_, h, hflash, hbusy, hregs⟩

theorem flcCtlErase_high {src : Src} {a n : Nat} (h : exec (.flcCtlErase src) s = .next (queueFlash s a (.erase .register a n)))
    (ha : 1024 ≤ a) : ∃ t, exec (.flcCtlErase src) s = .next t ∧
    t.flash = { s.flash with bank1 := s.flash.bank1 ++ [.erase .register a n] } ∧
    t.on Reg.FLC_STAT_BUSY1 [] = true ∧ OnlyRegs { s with flash := t.flash } t [Reg.FLC_STAT_BUSY1.key []] := by
  have hflash := queueFlash_flash s a (.erase .register a n)
  have hbusy := queueFlash_busy s a (.erase .register a n)
  have hregs := queueFlash_onlyRegs s a (.erase .register a n)
  rw [if_neg (Nat.not_lt.mpr ha)] at hflash hbusy hregs
  exact ⟨_, h, hflash, hbusy, hregs⟩

theorem flcCtlErase_protected {src : Src} (h : s.mayWrite src = true) (h0 : s.on Reg.PWR_STAT_CUT [] = false)
    (h1 : src ≠ .bench)
    (h2 : modelSectors (s.rd Reg.FLC_ERASE_ADDR_SECTOR []) (s.rd Reg.FLC_ERASE_COUNT_SECTORS []) = false) :
    ∃ t, exec (.flcCtlErase src) s = .next t ∧ FlashFails s t 4 (4096 * s.rd Reg.FLC_ERASE_ADDR_SECTOR []) ∧
    t.flash = s.flash :=
  ⟨_, (exec_flcCtlErase h).trans (congrArg Outcome.next (flcEraseOp_protected h0 h1 h2)), flashFail_fails _ _ (by decide),
    flashFail_flash _ _ _⟩

theorem flcCtlProgram_protected {src : Src} (h : s.mayWrite src = true) (h0 : s.on Reg.PWR_STAT_CUT [] = false)
    (h1 : src ≠ .bench) (h2 : modelSectors (s.rd Reg.FLC_PROG_ADDR_SEG [] / 64) 1 = false) :
    ∃ t, exec (.flcCtlProgram src) s = .next t ∧ FlashFails s t 4 (64 * s.rd Reg.FLC_PROG_ADDR_SEG []) ∧
    t.flash = s.flash :=
  ⟨_, (exec_flcCtlProgram h).trans (congrArg Outcome.next (flcProgramOp_protected h0 h1 h2)), flashFail_fails _ _ (by decide),
    flashFail_flash _ _ _⟩

/-- PROGRAM queues its segments of SRAM at the bank of its address. -/
theorem flcCtlProgram_queues {src : Src} {a : Nat} (h : s.mayWrite src = true) (h0 : s.on Reg.PWR_STAT_CUT [] = false)
    (ha : a = s.rd Reg.FLC_PROG_ADDR_SEG []) (h1 : src = .bench ∨ modelSectors (a / 64) 1 = true) :
    ∃ t l, exec (.flcCtlProgram src) s = .next t ∧ l.length = s.progCount ∧
    (∀ k, k < s.progCount → l[k]? = some (s.sramRead (s.rd Reg.FLC_PROG_SRC_SRC [] + 64 * k) 64)) ∧
    t.flash = (if a < 65536 then { s.flash with bank0 := s.flash.bank0 ++ [.program .register (64 * a) l] }
      else { s.flash with bank1 := s.flash.bank1 ++ [.program .register (64 * a) l] }) ∧
    OnlyRegs { s with flash := t.flash } t [Reg.FLC_STAT_BUSY0.key [], Reg.FLC_STAT_BUSY1.key []] := by
  have hbank : a / 64 < 1024 ↔ a < 65536 := by omega
  subst ha
  refine ⟨_, _, (exec_flcCtlProgram h).trans (congrArg Outcome.next (flcProgramOp_queues h0 h1)), segments_length _ _,
    fun k hk => segments_sramRead s _ hk, ?_, (queueFlash_onlyRegs s _ _).mono ?_⟩
  · rw [queueFlash_flash]
    simp only [hbank]
  · split <;> decide

/-! ### Sector erases -/

/-- An erased sector's bytes, wear and queue, seen in any state with the same flash. -/
theorem erased_shows {a b : Nat} {q : List FlashOp} (h : t.media = ((eraseSector s a).setBank b q).media)
    (hw : s.wear a < 100000) : t.wear a = s.wear a + 1 ∧ (∀ k, k ≠ a → t.wear k = s.wear k) ∧
    (∀ x, x / 4096 = a → t.flashByte x = 0xFF) ∧ (∀ x, x / 4096 ≠ a → t.flashByte x = s.flashByte x) ∧ t.bank b = q := by
  obtain ⟨hself, hne⟩ := eraseSector_wear s hw
  have hwear (k : Nat) : t.wear k = (eraseSector s a).wear k := (media_wear h k).trans (setBank_wear _ _ _ _)
  have hbyte (x : Nat) : t.flashByte x = (eraseSector s a).flashByte x := (media_flashByte h x).trans (setBank_flashByte _ _ _ _)
  exact ⟨(hwear a).trans hself, fun k hk => (hwear k).trans (hne k hk),
    fun x hx => (hbyte x).trans (eraseSector_flashByte_self s hx),
    fun x hx => (hbyte x).trans (eraseSector_flashByte_ne s hx), (media_bank h b).trans (setBank_bank _ _ _)⟩

/-- A failure shown after the head of a queue is taken. -/
theorem FlashFails.of_setBank {b cause addr : Nat} {q : List FlashOp} (h : FlashFails (s.setBank b q) t cause addr) :
    FlashFails s t cause addr := by
  rw [setBank_eq] at h
  exact h.of_withBanks

/-- The operation that failed and its owner's others are gone; what is left of the queue stood behind it. -/
theorem failed_queue {u : State} {b cause addr : Nat} {r : List FlashOp} :
    ∀ x ∈ ((u.setBank b r).registerFailed cause addr).bank b, x ∈ r := by
  intro x hx
  have := registerFailed_bank _ _ _ _ x hx
  rwa [setBank_bank] at this

theorem registerFailed_flash (s : State) (cause addr : Nat) : (s.registerFailed cause addr).flash.bytes = s.flash.bytes ∧
    (s.registerFailed cause addr).flash.undef = s.flash.undef := by
  rw [registerFailed_eq, busyFollows_flash, dropOwner_eq]
  have h := flashFail_flash s cause addr
  generalize flashFail s cause addr = u at *
  have hbytes : u.flash.bytes = s.flash.bytes := by rw [h]
  have hundef : u.flash.undef = s.flash.undef := by rw [h]
  exact ⟨hbytes, hundef⟩

/-- The end of a sector's erase: its bytes read 0xFF and its wear is counted; the next sector follows, or DONE. -/
theorem sectorErase_shows {b : Fin 2} {o : FlashOwner} {a n : Nat} {r : List FlashOp} (hb : s.bank b = .erase o a n :: r)
    (h0 : s.cmeHolds (4096 * a) 4096 = false) (h1 : s.wear a < 100000) (ho : 1 < n ∨ o = .register ∨ o = .rcv) : ∃ t,
    exec (.sectorEraseComplete b) s = .next t ∧ t.wear a = s.wear a + 1 ∧
    (∀ k, k ≠ a → t.wear k = s.wear k) ∧ (∀ x, x / 4096 = a → t.flashByte x = 0xFF) ∧
    (∀ x, x / 4096 ≠ a → t.flashByte x = s.flashByte x) ∧
    (1 < n → t.bank b = .erase o (a + 1) (n - 1) :: r ∧ t.regs = s.regs) ∧
    (n ≤ 1 → t.bank b = r ∧ t.on Reg.FLC_STAT_DONE [] = true ∧ (r = [] →
      t.on (if b = 0 then Reg.FLC_STAT_BUSY0 else Reg.FLC_STAT_BUSY1) [] = false) ∧
      (o = .rcv → s.flash.bank0.length + s.flash.bank1.length = 1 → t.flash.rcvPhase = 2)) ∧ t.hbm = s.hbm := by
  by_cases hn : 1 < n
  · obtain ⟨hself, hne, hff, hbytes, hbank⟩ := erased_shows (t := (eraseSector s a).setBank b (.erase o (a + 1) (n - 1) :: r)) rfl h1
    obtain ⟨hregs, hhbm⟩ := setBank_rest (eraseSector s a) b (.erase o (a + 1) (n - 1) :: r)
    exact ⟨_, congrArg Outcome.next (sectorEraseOp_continues hb h0 h1 hn), hself, hne, hff, hbytes,
      fun _ => ⟨hbank, hregs⟩, fun h => absurd hn (by omega), hhbm⟩
  · have hle : n ≤ 1 := Nat.le_of_not_lt hn
    have ho := ho.resolve_left hn
    obtain ⟨hdone, hmedia, hdata⟩ := ended_shows ((eraseSector s a).setBank b r) ho
    obtain ⟨hself, hne, hff, hbytes, hbank⟩ := erased_shows hmedia h1
    obtain ⟨-, hhbm⟩ := setBank_rest (eraseSector s a) b r
    refine ⟨_, congrArg Outcome.next (sectorEraseOp_ends hb h0 h1 hle), hself, hne, hff, hbytes, fun h => absurd h hn,
      fun _ => ⟨hbank, hdone, fun hr => ?_, fun hrcv hlen => ?_⟩, hdata.trans hhbm⟩
    · exact ended_idle _ ho b ((setBank_bank _ _ _).trans hr)
    · subst hrcv
      obtain ⟨h0, h1⟩ := setBank_empty (s := eraseSector s a) hb hlen
      exact ended_recovery _ h0 h1

/-- A sector at its limit stands. -/
theorem sectorErase_worn {b : Fin 2} {a n : Nat} {r : List FlashOp} (hb : s.bank b = .erase .register a n :: r)
    (h0 : s.cmeHolds (4096 * a) 4096 = false) (h1 : 100000 ≤ s.wear a) : ∃ t,
    exec (.sectorEraseComplete b) s = .next t ∧ FlashFails s t 3 (4096 * a) ∧ ∀ x, x ∈ t.bank b → x ∈ r :=
  ⟨_, congrArg Outcome.next (sectorEraseOp_worn hb h0 h1), (registerFailed_fails _ _ (by decide)).of_setBank, failed_queue⟩

/-! ### Segments -/

section
variable {b : Fin 2} {a : Nat} {d : List Byte} {l : List (List Byte)} {r : List FlashOp}

/-- A segment that is not blank stands. -/
theorem segmentProgram_notBlank {v : Bool} (hb : s.bank b = .program .register a (d :: l) :: r)
    (h0 : s.cmeHolds a 64 = false) (h1 : s.blank a = false) : ∃ t, exec (.segmentProgramComplete b v) s = .next t ∧
    FlashFails s t 1 a ∧ ∀ x, x ∈ t.bank b → x ∈ r :=
  ⟨_, congrArg Outcome.next (segmentProgramOp_notBlank hb h0 h1), (registerFailed_fails _ _ (by decide)).of_setBank,
    failed_queue⟩

/-- A segment that does not verify reads undefined data, and no other byte changes. -/
theorem segmentProgram_unverified (hb : s.bank b = .program .register a (d :: l) :: r)
    (h0 : s.cmeHolds a 64 = false) (h1 : s.blank a = true) : ∃ t, exec (.segmentProgramComplete b false) s = .next t ∧
    t.on Reg.FLC_STAT_FAIL [] = true ∧ t.rd Reg.FLC_STAT_CAUSE [] = 2 ∧ t.rd Reg.FLC_FAILADDR_ADDR [] = a % 2 ^ 23 ∧
    (∀ x, x ∈ t.bank b → x ∈ r) ∧ ∀ x, x / 64 ≠ a / 64 → t.flashByte x = s.flashByte x := by
  have hfails := registerFailed_fails ((undefSegment s (a / 64)).setBank b r) a (cause := 2) (by decide)
  obtain ⟨hbytes, hundef⟩ := registerFailed_flash ((undefSegment s (a / 64)).setBank b r) 2 a
  refine ⟨_, congrArg Outcome.next (segmentProgramOp_unverified hb h0 h1), hfails.fail, hfails.cause, hfails.addr,
    failed_queue, fun x hx => ?_⟩
  exact (flashByte_congr hbytes hundef x).trans ((setBank_flashByte _ _ _ _).trans (undefSegment_flashByte_ne s hx))

/-- A programmed segment reads its data; the next segment follows, or DONE. -/
theorem segmentProgram_shows (hb : s.bank b = .program .register a (d :: l) :: r) (ha : a % 64 = 0)
    (h0 : s.cmeHolds a 64 = false) (h1 : s.blank a = true) : ∃ t, exec (.segmentProgramComplete b true) s = .next t ∧
    (∀ k, k < 64 → t.flashByte (a + k) = d.getD k 0) ∧ (∀ x, x / 64 ≠ a / 64 → t.flashByte x = s.flashByte x) ∧
    (l ≠ [] → t.bank b = .program .register (a + 64) l :: r ∧ t.regs = s.regs) ∧
    (l = [] → t.bank b = r ∧ t.on Reg.FLC_STAT_DONE [] = true) := by
  have hexec : exec (.segmentProgramComplete b true) s = _ := congrArg Outcome.next (segmentProgramOp_programs hb h0 h1)
  have hself (k : Nat) (hk : k < 64) := programSegment_flashByte_self s ha d hk
  have hne (x : Nat) (hx : x / 64 ≠ a / 64) := programSegment_flashByte_ne s ha d hx
  cases l with
  | nil =>
    obtain ⟨hdone, hmedia, -⟩ := ended_shows ((programSegment s a d).setBank b r) (.inl rfl)
    have hbyte (x : Nat) := (media_flashByte hmedia x).trans (setBank_flashByte (programSegment s a d) b r x)
    exact ⟨_, hexec, fun k hk => (hbyte _).trans (hself k hk), fun x hx => (hbyte x).trans (hne x hx),
      fun h => absurd rfl h, fun _ => ⟨(media_bank hmedia b).trans (setBank_bank _ _ _), hdone⟩⟩
  | cons e l =>
    have hbyte (x : Nat) := setBank_flashByte (programSegment s a d) b (.program .register (a + 64) (e :: l) :: r) x
    obtain ⟨hregs, -⟩ := setBank_rest (programSegment s a d) b (.program .register (a + 64) (e :: l) :: r)
    obtain ⟨x, y, hprog⟩ := programSegment_flash s a d
    refine ⟨_, hexec, fun k hk => (hbyte _).trans (hself k hk), fun x hx => (hbyte x).trans (hne x hx),
      fun _ => ⟨setBank_bank _ _ _, hregs.trans ?_⟩, fun h => absurd h (by simp)⟩
    rw [hprog]

end

/-! ### Recovery -/

theorem inRecovery_true (h : s.rd Reg.TOP_BOOTSTAT_STATE [] = 3) : s.inRecovery = true := by
  unfold State.inRecovery
  rw [h]
  rfl

/-- Out of recovery the RCV commands change nothing. -/
theorem rcv_ignored (h : s.rd Reg.TOP_BOOTSTAT_STATE [] ≠ 3) (l : List Byte) (img : ImageCheck) (p : Bool) :
    exec (.rcvStatus p) s = .next s ∧ exec (.rcvBegin l p) s = .next s ∧ exec (.rcvData l p) s = .next s ∧
    exec (.rcvCommit l p img) s = .next s := by
  have hn : (!s.inRecovery) = true := by simp [State.inRecovery, h]
  exact ⟨congrArg Outcome.next (if_pos hn), congrArg Outcome.next (if_pos hn), congrArg Outcome.next (if_pos hn),
    congrArg Outcome.next (if_pos hn)⟩

/-- A wrong PEC is not acknowledged. -/
theorem rcv_wrongPec (h : s.rd Reg.TOP_BOOTSTAT_STATE [] = 3) (l : List Byte) (img : ImageCheck) :
    exec (.rcvStatus false) s = .next (s.emit (.nack 0)) ∧ exec (.rcvBegin l false) s = .next (s.emit (.nack 0)) ∧
    exec (.rcvData l false) s = .next (s.emit (.nack 0)) ∧ exec (.rcvCommit l false img) s = .next (s.emit (.nack 0)) := by
  have hin : ¬ (!s.inRecovery) = true := by simp [inRecovery_true h]
  exact ⟨congrArg Outcome.next ((if_neg hin).trans (if_pos rfl)), congrArg Outcome.next ((if_neg hin).trans (if_pos (.inl rfl))),
    congrArg Outcome.next ((if_neg hin).trans (if_pos (.inl rfl))),
    congrArg Outcome.next ((if_neg hin).trans (if_pos (.inl rfl)))⟩

theorem leNat_leBytes (n v : Nat) : leNat (leBytes n v) = v % 256 ^ n := by
  induction n generalizing v with
  | zero => exact (Nat.mod_one v).symm
  | succ n ih =>
    rw [leBytes, leNat, ih, BitVec.toNat_ofNat]
    exact (Nat.mod_mul (a := 256)).symm.trans (congrArg (v % ·) Nat.pow_succ'.symm)

/-- RCV_STATUS answers the phase, the block, the reason and the bytes received. -/
theorem rcvStatus_shows (h : s.rd Reg.TOP_BOOTSTAT_STATE [] = 3) : ∃ b,
    exec (.rcvStatus true) s = .next (s.emit (.smbus 0 b)) ∧ b.length = 8 ∧
    fieldAt b 0 1 = s.flash.rcvPhase % 256 ∧ fieldAt b 1 1 = s.flash.rcvBlock % 256 ∧
    fieldAt b 2 1 = s.flash.rcvReason % 256 ∧ fieldAt b 4 4 = 128 * s.flash.rcvSeen.length % 2 ^ 32 := by
  have hin : ¬ (!s.inRecovery) = true := by simp [inRecovery_true h]
  refine ⟨_, congrArg Outcome.next ((if_neg hin).trans (if_neg (by decide))), ?_, ?_, ?_, ?_, ?_⟩
  · simp only [List.length_append, leBytes_length]
  · exact Nat.add_zero _
  · exact Nat.add_zero _
  · exact Nat.add_zero _
  · exact leNat_leBytes 4 _

/-- RCV_BEGIN queues the erase of a block. -/
theorem rcvBegin_queues (h : s.rd Reg.TOP_BOOTSTAT_STATE [] = 3) (x : Byte) (hx : x.toNat ≤ 1) : ∃ t,
    exec (.rcvBegin [x] true) s = .next t ∧ t.flash.rcvPhase = 1 ∧ t.flash.rcvBlock = x.toNat ∧ t.flash.rcvSeen = [] ∧
    t.flash.bytes = s.flash.bytes ∧ t.bank x.toNat = s.bank x.toNat ++ [.erase .rcv (1024 * x.toNat) 64] := by
  have hin : ¬ (!s.inRecovery) = true := by simp [inRecovery_true h]
  have hblock : fieldAt [x] 0 1 = x.toNat := Nat.add_zero _
  have hsector : blockAddr x.toNat / 4096 = 1024 * x.toNat := by
    unfold blockAddr
    split <;> omega
  have hexec : exec (.rcvBegin [x] true) s = .next (queueFlash
      { s with flash := { s.flash with rcvPhase := 1, rcvBlock := x.toNat, rcvSeen := [], rcvReason := 0 } }
      (1024 * x.toNat) (.erase .rcv (1024 * x.toNat) 64)) := by
    refine congrArg Outcome.next ?_
    unfold rcvBeginOp
    dsimp only
    rw [hblock, hsector, if_neg hin, if_neg (by simp; omega)]
  refine ⟨_, hexec, ?_⟩
  unfold State.bank
  rw [queueFlash_flash]
  by_cases h0 : x.toNat = 0
  · rw [if_pos (by omega), if_pos h0, if_pos h0]
    exact ⟨rfl, rfl, rfl, rfl, rfl⟩
  · rw [if_neg (by omega), if_neg h0, if_neg h0]
    exact ⟨rfl, rfl, rfl, rfl, rfl⟩

/-! ### Image data and commit -/

/-- A chunk's address begins a segment. -/
theorem chunk_address {blk o a : Nat} (ha : a = blockAddr blk + o) (ho : o % 128 = 0) : a % 64 = 0 := by
  have hb : blockAddr blk % 128 = 0 := by
    unfold blockAddr
    split <;> rfl
  omega

/-- Two segments programmed side by side read 128 bytes of data and leave every other byte. -/
theorem programTwo_flashByte (s : State) {a : Nat} (ha : a % 64 = 0) (d e : List Byte) (k : Nat) (hk : k < 128) :
    (programSegment (programSegment s a d) (a + 64) e).flashByte (a + k) =
      if k < 64 then d.getD k 0 else e.getD (k - 64) 0 := by
  split
  · next h =>
    rw [programSegment_flashByte_ne _ (by omega) _ (by omega)]
    exact programSegment_flashByte_self s ha d h
  · next h =>
    rw [show a + k = a + 64 + (k - 64) by omega]
    exact programSegment_flashByte_self _ (by omega) e (by omega)

theorem programTwo_flashByte_ne (s : State) {a : Nat} (ha : a % 64 = 0) (d e : List Byte) {x : Nat}
    (hx : x < a ∨ a + 128 ≤ x) : (programSegment (programSegment s a d) (a + 64) e).flashByte x = s.flashByte x := by
  rw [programSegment_flashByte_ne _ (by omega) _ (by omega), programSegment_flashByte_ne _ ha _ (by omega)]

theorem programSegment_rest (s : State) (a : Nat) (d : List Byte) : (programSegment s a d).regs = s.regs ∧
    (programSegment s a d).flash.rcvPhase = s.flash.rcvPhase ∧ (programSegment s a d).flash.rcvSeen = s.flash.rcvSeen := by
  obtain ⟨x, y, h⟩ := programSegment_flash s a d
  rw [h]
  exact ⟨rfl, rfl, rfl⟩

/-- Data of a bad offset, or for an offset already received, ends the delivery as invalid. -/
theorem rcvData_refused {l : List Byte} (h : s.rd Reg.TOP_BOOTSTAT_STATE [] = 3) (hl : l.length = 132)
    (hp : s.flash.rcvPhase = 2) (ho : fieldAt l 0 4 % 128 ≠ 0 ∨ 0x40000 ≤ fieldAt l 0 4 ∨ fieldAt l 0 4 ∈ s.flash.rcvSeen) :
    exec (.rcvData l true) s = .next { s with flash := { s.flash with rcvPhase := 4 } } := by
  refine congrArg Outcome.next ?_
  unfold rcvDataOp
  dsimp only
  rw [if_neg (by simp [inRecovery_true h]), if_neg (by simp [hl, hp]), if_pos]
  rcases ho with ho | ho | ho
  · exact .inl ho
  · exact .inr (.inl ho)
  · exact .inr (.inr (.inl (List.contains_iff_mem.mpr ho)))

/-- A new chunk of 128 bytes is programmed where both its segments are blank. -/
theorem rcvData_programs {l : List Byte} {o a : Nat} (h : s.rd Reg.TOP_BOOTSTAT_STATE [] = 3) (hl : l.length = 132)
    (hp : s.flash.rcvPhase = 2) (ho : o = fieldAt l 0 4) (ha : a = blockAddr s.flash.rcvBlock + o) (h0 : o % 128 = 0)
    (h1 : o < 0x40000) (h2 : o ∉ s.flash.rcvSeen) (h3 : s.blank a = true) (h4 : s.blank (a + 64) = true) : ∃ t,
    exec (.rcvData l true) s = .next t ∧ (∀ k, k < 128 → t.flashByte (a + k) = l.getD (4 + k) 0) ∧
    (∀ x, (x < a ∨ a + 128 ≤ x) → t.flashByte x = s.flashByte x) ∧ t.flash.rcvSeen = o :: s.flash.rcvSeen ∧
    t.flash.rcvPhase = 2 ∧ t.regs = s.regs := by
  have haligned := chunk_address ha h0
  have hexec : exec (.rcvData l true) s = .next
      { programSegment (programSegment s a ((l.drop 4).take 64)) (a + 64) (l.drop 68) with
        flash := { (programSegment (programSegment s a ((l.drop 4).take 64)) (a + 64) (l.drop 68)).flash with
          rcvSeen := o :: (programSegment (programSegment s a ((l.drop 4).take 64)) (a + 64) (l.drop 68)).flash.rcvSeen } } := by
    refine congrArg Outcome.next ?_
    unfold rcvDataOp
    dsimp only
    rw [← ho, ← ha, if_neg (by simp [inRecovery_true h]), if_neg (by simp [hl, hp]), if_neg]
    simp [h0, h1, h2, h3, h4]
  obtain ⟨hregs1, hphase1, hseen1⟩ := programSegment_rest s a ((l.drop 4).take 64)
  obtain ⟨hregs2, hphase2, hseen2⟩ := programSegment_rest (programSegment s a ((l.drop 4).take 64)) (a + 64) (l.drop 68)
  refine ⟨_, hexec, fun k hk => ?_, fun x hx => programTwo_flashByte_ne s haligned _ _ hx,
    congrArg (o :: ·) (hseen2.trans hseen1), (hphase2.trans hphase1).trans hp, hregs2.trans hregs1⟩
  refine (programTwo_flashByte s haligned _ _ k hk).trans ?_
  split
  · next hlt => simp [List.getD_eq_getElem?_getD, hlt]
  · next hge => simp [List.getD_eq_getElem?_getD, show 68 + (k - 64) = 4 + k by omega]

/-- A programmed segment of 64 bytes reads them back. -/
theorem flashRead_programSegment (s : State) {a : Nat} (ha : a % 64 = 0) {d : List Byte} (hd : d.length = 64) :
    (programSegment s a d).flashRead a 64 = d := by
  refine List.ext_getElem (by simp [State.flashRead, hd]) fun k h1 h2 => ?_
  simp only [State.flashRead, List.getElem_map, List.getElem_range]
  rw [programSegment_flashByte_self s ha d (by omega)]
  simp [List.getD_eq_getElem?_getD, h2]

theorem swapBytes_length (r : SwapRec) : (swapBytes r).length = 64 := by
  unfold swapBytes sealRecord
  rw [List.length_append, padTo_length, leBytes_length]

/-- A swap record written into a free slot by other firmware than the running one. -/
theorem writeSwap_free {i : Nat} (h : s.swapSlot = some i) (r : SwapRec) (hr : r.writer = 2) : ∃ q, writeSwap s r =
    (programSegment s (0x40000 + 64 * i) (swapBytes { r with seq := q }), true) := by
  unfold writeSwap
  rw [h]
  dsimp only
  rw [if_neg (by simp [hr])]
  exact ⟨_, rfl⟩

theorem writeSwap_full (h : s.swapSlot = none) (r : SwapRec) : writeSwap s r = (s, false) := by
  unfold writeSwap
  rw [h]

/-- A commit of an image that does not pass its checks. -/
theorem rcvCommit_invalid {img : ImageCheck} (h : s.rd Reg.TOP_BOOTSTAT_STATE [] = 3) (hp : s.flash.rcvPhase = 2)
    (hr : img.reason ≠ 0) : exec (.rcvCommit [0] true img) s =
      .next { s with flash := { s.flash with rcvPhase := 4, rcvReason := img.reason } } := by
  refine congrArg Outcome.next ?_
  unfold rcvCommitOp
  rw [if_neg (by simp [inRecovery_true h]), if_neg (by simp [hp, fieldAt, leNat]), if_pos hr]

/-- A commit of a valid image writes the swap record's trial. -/
theorem rcvCommit_valid {img : ImageCheck} (h : s.rd Reg.TOP_BOOTSTAT_STATE [] = 3) (hp : s.flash.rcvPhase = 2)
    (hr : img.reason = 0) {u : State} {ok : Bool}
    (hw : writeSwap s ⟨0, s.flash.rcvBlock, true, 0, 2, img.version, s.boot.bootCount⟩ = (u, ok)) :
    exec (.rcvCommit [0] true img) s = .next { u with flash := { u.flash with rcvPhase := if ok then 3 else 4 } } := by
  refine congrArg Outcome.next ?_
  unfold rcvCommitOp
  rw [if_neg (by simp [inRecovery_true h]), if_neg (by simp [hp, fieldAt, leNat]), if_neg (by simp [hr]), hw]

/-- The recovery's phase is no part of what flash reads. -/
theorem flashRead_setPhase (s : State) (p a n : Nat) :
    ({ s with flash := { s.flash with rcvPhase := p } } : State).flashRead a n = s.flashRead a n := rfl

/-- The record of a committed image reads back from its slot. -/
theorem rcvCommit_records {img : ImageCheck} (h : s.rd Reg.TOP_BOOTSTAT_STATE [] = 3) (hp : s.flash.rcvPhase = 2)
    (hr : img.reason = 0) {i : Nat} (hi : s.swapSlot = some i) : ∃ t q, exec (.rcvCommit [0] true img) s = .next t ∧
    t.flash.rcvPhase = 3 ∧ t.regs = s.regs ∧ t.flashRead (0x40000 + 64 * i) 64 =
      swapBytes ⟨q, s.flash.rcvBlock, true, 0, 2, img.version, s.boot.bootCount⟩ := by
  obtain ⟨q, hq⟩ := writeSwap_free hi ⟨0, s.flash.rcvBlock, true, 0, 2, img.version, s.boot.bootCount⟩ rfl
  obtain ⟨hregs, -, -⟩ := programSegment_rest s (0x40000 + 64 * i)
    (swapBytes ⟨q, s.flash.rcvBlock, true, 0, 2, img.version, s.boot.bootCount⟩)
  have hread := flashRead_programSegment s (a := 0x40000 + 64 * i) (by omega)
    (swapBytes_length ⟨q, s.flash.rcvBlock, true, 0, 2, img.version, s.boot.bootCount⟩)
  have hexec := rcvCommit_valid h hp hr hq
  generalize programSegment s _ _ = u at *
  exact ⟨_, q, hexec, rfl, hregs, (flashRead_setPhase _ _ _ _).trans hread⟩

end

/-- Settles O56: queued operations change no byte, and what completes is told by the head of a bank. -/
theorem flashControllerAndRecovery : Obligations.FlashControllerAndRecovery := by
  intro s
  refine ⟨?erase, ?program, ?sector, ?segment, ?recovery⟩
  case erase =>
    rintro src a n h rfl rfl
    refine ⟨fun h0 => (exec_flcCtlErase h).trans (congrArg Outcome.next (flcEraseOp_cut h0)),
      fun h0 h1 h2 => flcCtlErase_protected h h0 h1 h2, fun h0 h1 => ?_⟩
    have hexec := flcCtlErase_queues h h0 h1
    exact ⟨flcCtlErase_low hexec, flcCtlErase_high hexec⟩
  case program =>
    rintro src a n h rfl rfl
    exact ⟨fun h0 => (exec_flcCtlProgram h).trans (congrArg Outcome.next (flcProgramOp_cut h0)),
      fun h0 h1 h2 => flcCtlProgram_protected h h0 h1 h2, fun h0 h1 => flcCtlProgram_queues h h0 rfl h1⟩
  case sector =>
    intro b
    refine ⟨fun h => congrArg Outcome.next (sectorEraseOp_stays h), fun o a n r hb => ⟨fun h0 => ?_, ?_, ?_⟩⟩
    · exact congrArg Outcome.next (sectorEraseOp_waits hb h0)
    · rintro h0 h1 rfl
      exact sectorErase_worn hb h0 h1
    · exact fun h0 h1 ho => sectorErase_shows hb h0 h1 ho
  case segment =>
    intro b v
    refine ⟨fun h => congrArg Outcome.next (segmentProgramOp_stays h), fun o a d l r hb ha => ⟨fun h0 => ?_, ?_⟩⟩
    · exact congrArg Outcome.next (segmentProgramOp_waits hb h0)
    · rintro h0 rfl
      refine ⟨segmentProgram_notBlank hb h0, ?_, ?_⟩
      · rintro h1 rfl
        exact segmentProgram_unverified hb h0 h1
      · rintro h1 rfl
        exact segmentProgram_shows hb ha h0 h1
  case recovery =>
    intro l img
    refine ⟨fun h => rcv_ignored h l img, fun h => ⟨rcv_wrongPec h l img, rcvStatus_shows h, ?_, ?_, ?_⟩⟩
    · rintro x rfl hx
      exact rcvBegin_queues h x hx
    · rintro o a hl hp rfl ha
      exact ⟨rcvData_refused h hl hp, rcvData_programs h hl hp rfl ha⟩
    · rintro rfl hp
      exact ⟨rcvCommit_invalid h hp, fun hr hn => rcvCommit_valid h hp hr (writeSwap_full hn _),
        fun i hr hi => rcvCommit_records h hp hr hi⟩

end Sys2Proof.Machine
end

/-! ## Where the staged sets, their active copies and their commit registers lie (R123, R124, R130) -/

section
namespace Sys2Proof.Machine

/-! ### Rows of words -/

theorem dotIdx_append (ss idx : List Nat) (i w : Nat) (h : ss.drop idx.length = [w]) :
    dotIdx ss (idx ++ [i]) = dotIdx ss idx + w * i := by
  induction idx generalizing ss with
  | nil =>
    obtain rfl : ss = [w] := h
    simp only [List.nil_append, dotIdx]
    omega
  | cons j r ih =>
    cases ss with
    | nil => exact absurd h (by simp)
    | cons a ss =>
      rw [List.cons_append, dotIdx, dotIdx, ih ss h]
      omega

/-- The words of a row follow each other in steps of 4 bytes. -/
theorem mem_fieldRow {f : Field} {idx : List Nat} {n : Nat} {e : Field × List Nat} (hs : f.strides.drop idx.length = [4])
    (he : e ∈ fieldRow f idx n) : ∃ i < n, e = (f, idx ++ [i]) ∧ e.1.addr e.2 = f.addr idx + 4 * i := by
  obtain ⟨i, hi, rfl⟩ := List.mem_map.mp he
  refine ⟨i, List.mem_range.mp hi, rfl, ?_⟩
  simp only [Field.addr, dotIdx_append _ _ _ _ hs]
  omega

/-- A field at an index lies in the `n` bytes from address `a`. -/
structure LiesIn (a n : Nat) (e : Field × List Nat) : Prop where
  first : a ≤ e.1.addr e.2
  last : e.1.addr e.2 < a + n
  low : e.1.lo < 128

theorem fieldRow_liesIn {f : Field} {idx : List Nat} {n a m : Nat} {e : Field × List Nat} (he : e ∈ fieldRow f idx n)
    (hs : f.strides.drop idx.length = [4]) (hl : f.lo < 128) (ha : a ≤ f.addr idx) (hm : f.addr idx + 4 * n ≤ a + m) :
    LiesIn a m e := by
  obtain ⟨i, hi, rfl, h⟩ := mem_fieldRow hs he
  exact ⟨by omega, by omega, hl⟩

/-! ### Addresses -/

/-- Where a set's staging copy starts, and the length in bytes of the registers from there. -/
def stagedSpan : StagedSet → Nat × Nat
  | .rkeDt p c => (Reg.RKE_DT_WORD.addr [p, c], 4 * 64)
  | .vec p c => (Reg.VEC_RSC_EN.addr [p, c], 8)
  | .prioSplit => (Reg.HDG_PRIOSPLIT_SPLIT.addr [], 4)
  | .coal f => (Reg.HDG_COAL_COUNT.addr [f], 4 * 128)
  | .sivDir t => (Reg.SIV_DIR_WORD.addr [t], 4 * 16)
  | .furGeo u t => (Reg.FUR_GEO_WORD.addr [u, t], 4 * 4)
  | .rwcParam => (Reg.RWC_PARAM_INSERT.addr [], 4)
  | .vcMap p => (Reg.CSK_VCMAP_LOW.addr [p], 4 * 4)
  | .route p => (Reg.CSK_RTHDR_WORD.addr [p], 0x500)
  | .grfEnt u => (Reg.GRF_ENT_WORD.addr [u], 4 * 16)
  | .tariff => (Reg.PWR_SCHED_HDR_WORD.addr [], 0x400)

/-- The fields of a vector context's set. -/
def vecFields : List Field :=
  [Reg.VEC_RSC_BASE_ROW, Reg.VEC_RSC_CHANNELS, Reg.VEC_RSC_BIAS_EN, Reg.VEC_RSC_EN, Reg.VEC_ACT_BASE_ROW,
   Reg.VEC_ACT_SEGMENTS, Reg.VEC_ACT_DEGREE, Reg.VEC_ACT_EN]

theorem setFields_vec (p : Fin 16) (c : Fin 4) : setFields (.vec p c) = vecFields.map (·, [p.val, c.val]) := rfl

theorem vecFields_place : ∀ f ∈ vecFields, f.strides = [131072, 64] ∧ (f.base = 0x410000 ∨ f.base = 0x410004) ∧
    f.lo < 128 := by
  simp [vecFields, Reg.VEC_RSC_BASE_ROW, Reg.VEC_RSC_CHANNELS, Reg.VEC_RSC_BIAS_EN, Reg.VEC_RSC_EN,
    Reg.VEC_ACT_BASE_ROW, Reg.VEC_ACT_SEGMENTS, Reg.VEC_ACT_DEGREE, Reg.VEC_ACT_EN]

/-- Every staged field of a set lies in its span. -/
theorem setFields_liesIn {x : StagedSet} {e : Field × List Nat} (he : e ∈ setFields x) :
    LiesIn (stagedSpan x).1 (stagedSpan x).2 e := by
  cases x with
  | rkeDt p c => exact fieldRow_liesIn he rfl (by decide) le_rfl le_rfl
  | vec p c =>
    rw [setFields_vec] at he
    obtain ⟨f, hf, rfl⟩ := List.mem_map.mp he
    obtain ⟨hs, hb, hl⟩ := vecFields_place f hf
    have ha : f.addr [p.val, c.val] = f.base + dotIdx [131072, 64] [p.val, c.val] := by rw [Field.addr, hs]
    have hspan : stagedSpan (.vec p c) = (0x410000 + dotIdx [131072, 64] [p.val, c.val], 8) := rfl
    rw [hspan]
    refine ⟨?_, ?_, hl⟩
    all_goals
      dsimp only
      omega
  | prioSplit =>
    obtain rfl := List.mem_singleton.mp he
    exact ⟨le_rfl, by decide, by decide⟩
  | coal f =>
    rcases List.mem_append.mp he with h | h
    all_goals exact fieldRow_liesIn h rfl (by decide) le_rfl le_rfl
  | sivDir t => exact fieldRow_liesIn he rfl (by decide) le_rfl le_rfl
  | furGeo u t => exact fieldRow_liesIn he rfl (by decide) le_rfl le_rfl
  | rwcParam =>
    have h : ∀ e ∈ setFields .rwcParam, e.1.addr e.2 = 0x680010 ∧ e.1.lo < 128 := by
      simp [setFields, Field.addr, Reg.RWC_PARAM_INSERT, Reg.RWC_PARAM_PF_INSERT, Reg.RWC_PARAM_ADMIT,
        Reg.RWC_PARAM_DECAY_BATCHES, dotIdx]
    obtain ⟨ha, hl⟩ := h e he
    exact ⟨ha.ge, by rw [ha]; decide, hl⟩
  | vcMap p =>
    rcases List.mem_append.mp he with h | h
    all_goals exact fieldRow_liesIn h rfl (by decide) le_rfl le_rfl
  | route p =>
    have hrt : Reg.CSK_RT_WORD.addr [p] = Reg.CSK_RTHDR_WORD.addr [p] + 0x100 := by
      simp only [Field.addr, Reg.CSK_RT_WORD, Reg.CSK_RTHDR_WORD]
      omega
    rcases List.mem_append.mp he with h | h
    · exact fieldRow_liesIn h rfl (by decide) le_rfl (by simp [stagedSpan])
    · exact fieldRow_liesIn h rfl (by decide) (by simp [stagedSpan, hrt]) (by simp [stagedSpan, hrt])
  | grfEnt u => exact fieldRow_liesIn he rfl (by decide) le_rfl le_rfl
  | tariff =>
    rcases List.mem_append.mp he with h | h
    · rcases List.mem_append.mp h with h | h
      · exact fieldRow_liesIn h rfl (by decide) le_rfl (by decide)
      · obtain ⟨b, hb, h⟩ := List.mem_flatMap.mp h
        have := List.mem_range.mp hb
        refine fieldRow_liesIn h rfl (by decide) ?_ ?_
        all_goals
          simp only [stagedSpan, Field.addr, Reg.PWR_BAND_WORD, Reg.PWR_SCHED_HDR_WORD, dotIdx]
          omega
    · obtain ⟨b, hb, h⟩ := List.mem_flatMap.mp h
      have := List.mem_range.mp hb
      refine fieldRow_liesIn h rfl (by decide) ?_ ?_
      all_goals
        simp only [stagedSpan, Field.addr, Reg.PWR_SCHED_WORD, Reg.PWR_SCHED_HDR_WORD, dotIdx]
        omega

/-- A set's registers lie in the lower half of a block of 64 KiB, beside the commit register, and clear of what a request
to Hedge writes. -/
structure Placed (a n c : Nat) : Prop where
  half : a % 0x10000 + n ≤ 0x8000
  commitHalf : c % 0x10000 < 0x8000
  apart : c < a ∨ a + n ≤ c
  clear : 0x200004 ≤ a ∧ a + n + 0x8000 ≤ 0x210000 ∨ 0x230000 ≤ a
  commitClear : 0x200004 ≤ c ∧ c < 0x210000 ∨ 0x230000 ≤ c ∧ c < 0x1000000
  settle : c < 0x404800 ∨ 0x600000 ≤ c ∨ c % 0x20000 < 0x4800 ∨ 0x4820 ≤ c % 0x20000

theorem set_placed (x : StagedSet) : Placed (stagedSpan x).1 (stagedSpan x).2 (commitAddr x) := by
  cases x
  all_goals
    constructor
    all_goals
      simp only [stagedSpan, commitAddr, Field.addr, dotIdx, Reg.RKE_DT_WORD, Reg.RKE_DT_COMMIT_COMMIT, Reg.VEC_RSC_EN,
        Reg.VEC_COMMIT_COMMIT, Reg.HDG_PRIOSPLIT_SPLIT, Reg.HDG_PRIOSPLIT_COMMIT_COMMIT, Reg.HDG_COAL_COUNT,
        Reg.HDG_COAL_COMMIT_COMMIT, Reg.SIV_DIR_WORD, Reg.SIV_DIR_COMMIT_COMMIT, Reg.FUR_GEO_WORD,
        Reg.FUR_GEO_COMMIT_COMMIT, Reg.RWC_PARAM_INSERT, Reg.RWC_PARAM_COMMIT_COMMIT, Reg.CSK_VCMAP_LOW,
        Reg.CSK_VCMAP_COMMIT_COMMIT, Reg.CSK_RTHDR_WORD, Reg.CSK_RT_COMMIT_COMMIT, Reg.GRF_ENT_WORD,
        Reg.GRF_ENT_COMMIT_COMMIT, Reg.PWR_SCHED_HDR_WORD, Reg.PWR_TARIFF_COMMIT_COMMIT]
      omega

end Sys2Proof.Machine
end

/-! ## Fields of a staged set at one key -/

section
namespace Sys2Proof.Machine

/-- Two indexed fields with the same width and reset value: at one key they read alike. -/
structure Alike (e d : Field × List Nat) : Prop where
  wid : d.1.wid = e.1.wid
  rst : d.1.rst d.2 = e.1.rst e.2

/-- A 32-bit word that resets to zero. -/
def IsWord (e : Field × List Nat) : Prop := e.1.wid = 32 ∧ e.1.rst e.2 = 0

theorem IsWord.alike {e d : Field × List Nat} (he : IsWord e) (hd : IsWord d) : Alike e d :=
  ⟨hd.1.trans he.1.symm, hd.2.trans he.2.symm⟩

theorem fieldRow_isWord {f : Field} {idx : List Nat} {n : Nat} {e : Field × List Nat} (he : e ∈ fieldRow f idx n)
    (hw : f.wid = 32) (hr : ∀ i, f.rst i = 0) : IsWord e := by
  obtain ⟨_, -, rfl⟩ := List.mem_map.mp he
  exact ⟨hw, hr _⟩

/-- The sets that consist of words. -/
def wordSet : StagedSet → Bool
  | .rkeDt .. | .sivDir _ | .furGeo .. | .route _ | .grfEnt _ | .tariff => true
  | _ => false

theorem setFields_isWord {x : StagedSet} (hx : wordSet x = true) {e : Field × List Nat} (he : e ∈ setFields x) :
    IsWord e := by
  cases x with
  | rkeDt | sivDir | furGeo | grfEnt => exact fieldRow_isWord he rfl (fun _ => rfl)
  | route p =>
    rcases List.mem_append.mp he with h | h
    all_goals exact fieldRow_isWord h rfl (fun _ => rfl)
  | tariff =>
    simp only [setFields, List.mem_append, List.mem_flatMap] at he
    rcases he with (h | ⟨_, -, h⟩) | ⟨_, -, h⟩
    all_goals exact fieldRow_isWord h rfl (fun _ => rfl)
  | vec | prioSplit | coal | rwcParam | vcMap => exact absurd hx Bool.false_ne_true

theorem fieldRow_key {f : Field} {idx : List Nat} {n a : Nat} {e : Field × List Nat} (he : e ∈ fieldRow f idx n)
    (hs : f.strides.drop idx.length = [4]) (ha : f.addr idx = a) :
    ∃ i, e = (f, idx ++ [i]) ∧ e.1.key e.2 = 128 * a + 512 * i + f.lo := by
  obtain ⟨i, -, h, hi⟩ := mem_fieldRow hs he
  refine ⟨i, h, ?_⟩
  subst h
  rw [Field.key, hi, ha]
  dsimp only
  omega

/-- Where two fields share each register of a row, a key names one field at one index. -/
theorem sharedRow_key_inj {f g : Field} {idx : List Nat} {n : Nat} {e d : Field × List Nat}
    (he : e ∈ fieldRow f idx n ++ fieldRow g idx n) (hd : d ∈ fieldRow f idx n ++ fieldRow g idx n)
    (hk : d.1.key d.2 = e.1.key e.2) (hf : f.strides.drop idx.length = [4]) (hg : g.strides.drop idx.length = [4])
    (ha : g.addr idx = f.addr idx) (hl : f.lo < 128 ∧ g.lo < 128 ∧ f.lo ≠ g.lo) : d = e := by
  have shape {c : Field × List Nat} (hc : c ∈ fieldRow f idx n ++ fieldRow g idx n) :
      (∃ i, c = (f, idx ++ [i]) ∧ c.1.key c.2 = 128 * f.addr idx + 512 * i + f.lo) ∨
      (∃ i, c = (g, idx ++ [i]) ∧ c.1.key c.2 = 128 * f.addr idx + 512 * i + g.lo) :=
    (List.mem_append.mp hc).imp (fieldRow_key · hf rfl) (fieldRow_key · hg ha)
  obtain ⟨i, rfl, hi⟩ | ⟨i, rfl, hi⟩ := shape he
  all_goals rw [hi] at hk
  · obtain ⟨j, rfl, hj⟩ | ⟨j, rfl, hj⟩ := shape hd
    · obtain rfl : j = i := by omega
      rfl
    · omega
  · obtain ⟨j, rfl, hj⟩ | ⟨j, rfl, hj⟩ := shape hd
    · omega
    · obtain rfl : j = i := by omega
      rfl

theorem vecField_key (p : Fin 16) (c : Fin 4) {f : Field} (h : f ∈ vecFields) :
    f.key [p, c] = f.base * 128 + f.lo + 128 * (131072 * p + 64 * c) := by
  simp only [Field.key, Field.addr, (vecFields_place f h).1, dotIdx]
  omega

/-- Two fields of a set that share a key read alike. -/
theorem setFields_alike {x : StagedSet} {e d : Field × List Nat} (he : e ∈ setFields x) (hd : d ∈ setFields x)
    (hk : d.1.key d.2 = e.1.key e.2) : Alike e d := by
  have same (h : d = e) : Alike e d := h ▸ ⟨rfl, rfl⟩
  cases x with
  | rkeDt | sivDir | furGeo | route | grfEnt | tariff => exact (setFields_isWord rfl he).alike (setFields_isWord rfl hd)
  | coal f => exact same (sharedRow_key_inj he hd hk rfl rfl rfl (by decide))
  | vcMap p => exact same (sharedRow_key_inj he hd hk rfl rfl rfl (by decide))
  | prioSplit => exact same ((List.mem_singleton.mp hd).trans (List.mem_singleton.mp he).symm)
  | rwcParam =>
    have hn : ((setFields .rwcParam).map (fun e => e.1.key e.2)).Nodup := by decide
    exact same (List.inj_on_of_nodup_map hn hd he hk)
  | vec p c =>
    have hn : (vecFields.map (fun f => f.base * 128 + f.lo)).Nodup := by decide
    rw [setFields_vec] at he hd
    obtain ⟨f, hf, rfl⟩ := List.mem_map.mp he
    obtain ⟨g, hg, rfl⟩ := List.mem_map.mp hd
    rw [vecField_key p c hf, vecField_key p c hg] at hk
    exact same (congrArg (·, _) (List.inj_on_of_nodup_map hn hg hf (by omega)))

end Sys2Proof.Machine
end

/-! ## Keys of staging copies, active copies and commit registers -/

section
namespace Sys2Proof.Machine

/-- Keys in the upper half of a block of 64 KiB: the active mirrors (R123). -/
def activeKey (k : Nat) : Prop := 0x8000 ≤ k / 128 % 0x10000

/-- Keys that a refusal's record and its request to Hedge leave alone. -/
def offRefusal (k : Nat) : Prop := 0x200004 * 128 ≤ k ∧ k < 0x210000 * 128 ∨ 0x230000 * 128 ≤ k

/-- A field of a set's commit register. -/
structure IsCommit (x : StagedSet) (f : Field) : Prop where
  base : f.base = commitAddr x
  strides : f.strides = []
  low : f.lo < 128

section
variable {x : StagedSet} {e d : Field × List Nat} {f g : Field}

theorem isCommit_pending (x : StagedSet) : IsCommit x (cPending x) :=
  ⟨rfl, rfl, (by decide : Reg.HDG_PRIOSPLIT_COMMIT_PENDING.lo < 128)⟩
theorem isCommit_superseded (x : StagedSet) : IsCommit x (cSuperseded x) :=
  ⟨rfl, rfl, (by decide : Reg.HDG_PRIOSPLIT_COMMIT_SUPERSEDED.lo < 128)⟩
theorem isCommit_refused (x : StagedSet) : IsCommit x (cRefused x) :=
  ⟨rfl, rfl, (by decide : Reg.HDG_PRIOSPLIT_COMMIT_REFUSED.lo < 128)⟩
theorem isCommit_gen (x : StagedSet) : IsCommit x (cGen x) :=
  ⟨rfl, rfl, (by decide : Reg.HDG_PRIOSPLIT_COMMIT_GEN.lo < 128)⟩

theorem IsCommit.key (h : IsCommit x f) : f.key [] = commitAddr x * 128 + f.lo := by
  simp only [Field.key, Field.addr, h.base, h.strides, dotIdx]
  omega

theorem IsCommit.key_ne (hf : IsCommit x f) (hg : IsCommit x g) (h : f.lo ≠ g.lo) : f.key [] ≠ g.key [] := by
  rw [hf.key, hg.key]
  omega

theorem IsCommit.key_div (h : IsCommit x f) : f.key [] / 128 = commitAddr x := by
  have := h.low
  rw [h.key]
  omega

theorem IsCommit.not_active (h : IsCommit x f) : ¬ activeKey (f.key []) := by
  have := (set_placed x).commitHalf
  rw [activeKey, h.key_div]
  omega

theorem IsCommit.offRefusal (h : IsCommit x f) : offRefusal (f.key []) := by
  have := (set_placed x).commitClear
  have := h.low
  rw [Machine.offRefusal, h.key]
  omega

theorem mirror_key (f : Field) (i : List Nat) : f.mirror.key i = f.key i + 0x8000 * 128 := by
  simp only [Field.key, Field.addr, Field.mirror]
  omega

theorem staged_not_active (he : e ∈ setFields x) : ¬ activeKey (e.1.key e.2) := by
  obtain ⟨h1, h2, h3⟩ := setFields_liesIn he
  have := (set_placed x).half
  rw [activeKey, Field.key]
  omega

theorem mirror_active (he : e ∈ setFields x) : activeKey (e.1.mirror.key e.2) := by
  obtain ⟨h1, h2, h3⟩ := setFields_liesIn he
  have := (set_placed x).half
  rw [activeKey, mirror_key, Field.key]
  omega

theorem mirror_offRefusal (he : e ∈ setFields x) : offRefusal (e.1.mirror.key e.2) := by
  obtain ⟨h1, h2, h3⟩ := setFields_liesIn he
  have := (set_placed x).clear
  rw [offRefusal, mirror_key, Field.key]
  omega

theorem staged_ne_mirror (he : e ∈ setFields x) (hd : d ∈ setFields x) : e.1.key e.2 ≠ d.1.mirror.key d.2 :=
  fun h => staged_not_active he (h ▸ mirror_active hd)

theorem mirror_ne_commit (he : e ∈ setFields x) (hf : IsCommit x f) : e.1.mirror.key e.2 ≠ f.key [] :=
  fun h => hf.not_active (h ▸ mirror_active he)

theorem staged_ne_commit (he : e ∈ setFields x) (hf : IsCommit x f) : e.1.key e.2 ≠ f.key [] := by
  obtain ⟨h1, h2, h3⟩ := setFields_liesIn he
  have := (set_placed x).apart
  have := hf.low
  rw [hf.key, Field.key]
  omega

/-! ### What the end of a command may change -/

/-- The detector slots of TOP and the contexts of the plots. -/
theorem settleKeys_place {k : Nat} (h : k ∈ settleKeys) : 0x9C0 * 128 ≤ k ∧ k < 0xA00 * 128 ∨
    0x404800 * 128 ≤ k ∧ k < 0x600000 * 128 ∧ 0x4800 ≤ k / 128 % 0x20000 ∧ k / 128 % 0x20000 < 0x4820 := by
  simp only [settleKeys, List.mem_append, List.mem_flatMap, List.mem_cons, List.not_mem_nil, or_false,
    List.mem_range] at h
  rcases h with ⟨n, hn, rfl | rfl | rfl⟩ | ⟨g, hg, rfl | rfl | rfl | rfl⟩
  all_goals
    simp only [Reg.RKE_CTX_STATE, Reg.RKE_CTX_WAIT_KIND, Reg.RKE_CTX_WAIT_ARG, Reg.TOP_QD_GST_QUIET,
      Reg.TOP_QD_GST_SUSPENDED, Reg.TOP_QD_GST_REPORTED, Reg.TOP_QD_GST_GEN, Field.key, Field.addr, dotIdx]
    omega

theorem active_not_settles {k : Nat} (h : activeKey k) : k ∉ settleKeys := by
  intro hm
  have := settleKeys_place hm
  unfold activeKey at h
  omega

theorem IsCommit.not_settles (h : IsCommit x f) : f.key [] ∉ settleKeys := by
  intro hm
  have hp := settleKeys_place hm
  have hc := (set_placed x).settle
  have hr := (set_placed x).commitClear
  have hk := h.key
  have hl := h.low
  rw [h.key_div] at hp
  omega

theorem top_not_settles {k : Nat} (h : k < 0x9C0 * 128) : k ∉ settleKeys := by
  intro hm
  have := settleKeys_place hm
  omega

theorem coal_not_settles {f : Fin 16} (he : e ∈ setFields (.coal f)) : e.1.key e.2 ∉ settleKeys := by
  intro hm
  have := settleKeys_place hm
  obtain ⟨h1, h2, h3⟩ := setFields_liesIn he
  simp only [stagedSpan, Field.addr, Reg.HDG_COAL_COUNT, dotIdx] at h1 h2
  simp only [Field.key, Field.addr] at this
  omega

end

end Sys2Proof.Machine
end

/-! ## The record of a refusal (R127, R134) -/

section
namespace Sys2Proof.Machine

section
variable {a s : State}

theorem offRefusal_offPost {k : Nat} (h : offRefusal k) : offPost k := by
  unfold offRefusal at h
  unfold offPost
  omega

theorem IsSource.not_offRefusal {f : Field} (hf : IsSource f) {i : Nat} (hi : i < 1023) : ¬ offRefusal (f.key [i]) := by
  have := hf.low
  simp only [offRefusal, Field.key, Field.addr, hf.base, hf.strides, dotIdx]
  omega

theorem hedgeDecide_offRefusal (h : SameOn offRefusal a s) : SameOn offRefusal a (hedgeDecide s) := by
  have stat {u : State} (hu : SameOn offRefusal a u) {f : Field} (v : Nat) (hk : f.key [] < 0x200004 * 128) :
      SameOn offRefusal a (u.wr f [] v) := by
    refine hu.wr f [] v fun ho => ?_
    unfold offRefusal at ho
    omega
  unfold hedgeDecide
  extract_lets offer s1 s2 s3 s4
  have h1 : SameOn offRefusal a s1 := stat h _ (by decide)
  have h2 : SameOn offRefusal a s2 := stat h1 _ (by decide)
  have h3 : SameOn offRefusal a s3 := stat h2 _ (by decide)
  have h4 : SameOn offRefusal a s4 := stat h3 _ (by decide)
  exact h4.set rfl

/-- A level source's request writes its register, HDG_STAT, the functions' pages and the vector status. -/
theorem hedgeLevel_offRefusal (h : SameOn offRefusal a s) {i : Nat} (level : Bool) (d : Nat) (hi : i < 1023) :
    SameOn offRefusal a (hedgeLevel s i level d) := by
  have source {u : State} (hu : SameOn offRefusal a u) {f : Field} (hf : IsSource f) (v : Nat) :
      SameOn offRefusal a (u.wr f [i] v) := hu.wr f [i] v (hf.not_offRefusal hi)
  unfold hedgeLevel
  extract_lets old s1 s2 sense act s3 asserted
  have h1 : SameOn offRefusal a s1 := source h isSource_level _
  have h2 : SameOn offRefusal a s2 := .ite (source h1 isSource_data _) h1
  have h3 : SameOn offRefusal a s3 := by
    have pending (v : Nat) := source h2 isSource_pending v
    unfold s3
    clear_value sense s2
    split
    · exact .ite h2 (pending _)
    · exact .ite h2 (pending _)
    · exact .ite (pending _) h2
    · exact .ite h2 (pending _)
    · exact pending _
  have hcopy : SameOn offRefusal a (hostCopy s3 i) := h3.trans ((hostCopy_sameOn s3 i).mono fun _ => offRefusal_offPost)
  exact .ite h (hedgeDecide_offRefusal (.ite hcopy h3))

/-! ### TOP_CFGERR -/

/-- The state with a refusal counted. -/
def State.refusalCounted (s : State) : State := s.satInc Reg.TOP_CFGERR_CNT_COUNT [] 1

/-- The state with a refusal counted and its record put. -/
def State.refusalNoted (s : State) (agent kind offset : Nat) : State :=
  (((s.refusalCounted.wr Reg.TOP_CFGERR_OFFSET [] offset).wr Reg.TOP_CFGERR_AGENT [] agent).wr
    Reg.TOP_CFGERR_KIND [] kind).wr Reg.TOP_CFGERR_VALID [] 1

theorem refusalCounted_on (s : State) : s.refusalCounted.on Reg.TOP_CFGERR_VALID [] = s.on Reg.TOP_CFGERR_VALID [] :=
  on_wr_ne s _ (by decide)

theorem cfgRefuse_stands (h : s.on Reg.TOP_CFGERR_VALID [] = true) (agent kind offset : Nat) :
    cfgRefuse s agent kind offset = s.refusalCounted := if_pos ((refusalCounted_on s).trans h)

theorem cfgRefuse_notes (h : s.on Reg.TOP_CFGERR_VALID [] = false) (agent kind offset : Nat) :
    cfgRefuse s agent kind offset = hedgeLevel (s.refusalNoted agent kind offset) 1 true 0 :=
  if_neg (Bool.eq_false_iff.mp ((refusalCounted_on s).trans h))

/-- What a refusal shows in TOP_CFGERR and leaves elsewhere. -/
structure Refuses (s t : State) (agent kind offset : Nat) : Prop where
  still : t.still = s.still
  regs : SameOn offRefusal s t
  count : t.rd Reg.TOP_CFGERR_CNT_COUNT [] = satAdd Reg.TOP_CFGERR_CNT_COUNT.wid (s.rd Reg.TOP_CFGERR_CNT_COUNT []) 1
  valid : t.rd Reg.TOP_CFGERR_VALID [] = 1
  first : s.on Reg.TOP_CFGERR_VALID [] = false → t.rd Reg.TOP_CFGERR_KIND [] = kind ∧
    t.rd Reg.TOP_CFGERR_OFFSET [] = offset ∧ t.rd Reg.TOP_CFGERR_AGENT [] = agent

theorem top_not_offRefusal {k : Nat} (h : k < 0x100000 * 128) : ¬ offRefusal k := by
  unfold offRefusal
  omega

theorem cfgRefuse_refuses (s : State) {agent kind offset : Nat} (ha : agent < 4) (hk : kind < 2) (ho : offset < 2 ^ 26) :
    Refuses s (cfgRefuse s agent kind offset) agent kind offset := by
  have hc : SameOn offRefusal s s.refusalCounted := (SameOn.refl _ s).wr _ _ _ (top_not_offRefusal (by decide))
  have hcount := rd_satInc_eq s Reg.TOP_CFGERR_CNT_COUNT [] 1
  cases hv : s.on Reg.TOP_CFGERR_VALID [] with
  | true =>
    rw [cfgRefuse_stands hv]
    have hlt : s.rd Reg.TOP_CFGERR_VALID [] < 2 := rd_lt s Reg.TOP_CFGERR_VALID []
    have hne : s.rd Reg.TOP_CFGERR_VALID [] ≠ 0 := by simpa [State.on] using hv
    have hvalid : s.refusalCounted.rd Reg.TOP_CFGERR_VALID [] = s.rd Reg.TOP_CFGERR_VALID [] := rd_wr_ne s _ (by decide)
    exact ⟨rfl, hc, hcount, by omega, fun h => absurd (hv.symm.trans h) (by decide)⟩
  | false =>
    rw [cfgRefuse_notes hv]
    have hq : Quiet (s.refusalNoted agent kind offset) _ := hedgeLevel_quiet (.refl _) (i := 1) true 0 (by decide)
    have rd (f : Field) (hf : f.key [] < 0x100000 * 128) := hq.regs f [] (.inl hf)
    have hn : SameOn offRefusal s (s.refusalNoted agent kind offset) :=
      (((hc.wr _ _ _ (top_not_offRefusal (by decide))).wr _ _ _ (top_not_offRefusal (by decide))).wr _ _ _
        (top_not_offRefusal (by decide))).wr _ _ _ (top_not_offRefusal (by decide))
    have hstill : (s.refusalNoted agent kind offset).still = s.still := by
      simp only [State.refusalNoted, State.refusalCounted, State.satInc, still_wr]
    refine ⟨hq.still.trans hstill, hedgeLevel_offRefusal hn true 0 (by decide), ?_, ?_, fun _ => ⟨?_, ?_, ?_⟩⟩
    · rw [rd _ (by decide), State.refusalNoted, rd_wr_ne _ _ (by decide), rd_wr_ne _ _ (by decide),
        rd_wr_ne _ _ (by decide), rd_wr_ne _ _ (by decide)]
      exact hcount
    · rw [rd _ (by decide), State.refusalNoted, rd_wr_self]
      rfl
    · rw [rd _ (by decide), State.refusalNoted, rd_wr_ne _ _ (by decide), rd_wr_self]
      exact Nat.mod_eq_of_lt hk
    · rw [rd _ (by decide), State.refusalNoted, rd_wr_ne _ _ (by decide), rd_wr_ne _ _ (by decide),
        rd_wr_ne _ _ (by decide), rd_wr_self]
      exact Nat.mod_eq_of_lt ho
    · rw [rd _ (by decide), State.refusalNoted, rd_wr_ne _ _ (by decide), rd_wr_ne _ _ (by decide), rd_wr_self]
      exact Nat.mod_eq_of_lt ha

end

end Sys2Proof.Machine
end

/-! ## Capture, discard and taking effect (R125, R128) -/

section
namespace Sys2Proof.Machine

section
variable {s t : State} {x : StagedSet} {e : Field × List Nat}

/-! ### Loops that write each element of a list -/

/-- What a write leaves at a field that shares its key and reads alike. -/
theorem rd_wr_alike (s : State) {e d : Field × List Nat} (v : Nat) (hk : d.1.key d.2 = e.1.key e.2) (h : Alike e d) :
    (s.wr d.1 d.2 v).rd e.1 e.2 = v % 2 ^ e.1.wid := by
  simp only [State.rd, State.wr, hk, h.wid, h.rst, FMap.get_set_self, Nat.mod_mod]

/-- A loop of writes leaves at a field its value there, when every write of that key writes that value alike. -/
theorem rd_foldl_wr_mem (f : Field → Field) {l : List (Field × List Nat)} {e : Field × List Nat} (he : e ∈ l)
    (v : Field × List Nat → Nat) (h : ∀ d ∈ l, (f d.1).key d.2 = (f e.1).key e.2 →
      Alike (f e.1, e.2) (f d.1, d.2) ∧ v d = v e) (s : State) :
    (l.foldl (fun s d => s.wr (f d.1) d.2 (v d)) s).rd (f e.1) e.2 = v e % 2 ^ (f e.1).wid := by
  induction l using List.reverseRecOn with
  | nil => exact absurd he List.not_mem_nil
  | append_singleton r d ih =>
    rw [List.foldl_append, List.foldl_cons, List.foldl_nil]
    by_cases hk : (f d.1).key d.2 = (f e.1).key e.2
    · obtain ⟨ha, hv⟩ := h d (by simp) hk
      rw [rd_wr_alike (e := (f e.1, e.2)) (d := (f d.1, d.2)) _ _ hk ha, hv]
    · have hr : e ∈ r := (List.mem_append.mp he).resolve_right (by rintro (_ | ⟨_, ⟨⟩⟩); exact hk rfl)
      rw [rd_wr_ne _ _ (Ne.symm hk), ih hr (fun d hd => h d (List.mem_append_left _ hd))]

/-- A loop whose values no write of it moves writes the values of its start. -/
theorem foldl_wr_values (f : Field → Field) (v : State → Field × List Nat → Nat) {l : List (Field × List Nat)}
    (h : ∀ (t : State) (n : Nat), ∀ d ∈ l, ∀ e ∈ l, v (t.wr (f d.1) d.2 n) e = v t e) (s : State) :
    l.foldl (fun t d => t.wr (f d.1) d.2 (v t d)) s = l.foldl (fun t d => t.wr (f d.1) d.2 (v s d)) s := by
  induction l generalizing s with
  | nil => rfl
  | cons d r ih =>
    rw [List.foldl_cons, List.foldl_cons, ih (fun t n a ha b hb => h t n a (.tail _ ha) b (.tail _ hb))]
    exact List.foldl_ext _ _ _ fun t b hb => by rw [h s _ d (.head _) b (.tail _ hb)]

/-- A loop of writes changes the registers that it names. -/
theorem foldl_wr_onlyRegs (f : Field → Field) (v : Field × List Nat → Nat) (l : List (Field × List Nat)) (s : State) :
    OnlyRegs s (l.foldl (fun t d => t.wr (f d.1) d.2 (v d)) s) (l.map fun d => (f d.1).key d.2) :=
  OnlyRegs.foldl _ l (fun _ d hd h => h.wr (f d.1) d.2 (v d) (List.mem_map.mpr ⟨d, hd, rfl⟩)) (.refl s _)

/-! ### The captured copy -/

/-- A state with its captured copies replaced. -/
def State.withCaptured (s : State) (m : FMap Nat) : State := { s with captured := m }

@[simp] theorem rd_withCaptured (s : State) (m : FMap Nat) (f : Field) (i : List Nat) :
    (s.withCaptured m).rd f i = s.rd f i := rfl

/-- A loop over the captured copies that reads registers changes the captured copies alone. -/
theorem foldl_captured (g : (Field → List Nat → Nat) → FMap Nat → Field × List Nat → FMap Nat) (l : List (Field × List Nat))
    (s : State) : l.foldl (fun s e => { s with captured := g s.rd s.captured e }) s =
      s.withCaptured (l.foldl (g s.rd) s.captured) := by
  induction l generalizing s with
  | nil => rfl
  | cons e r ih => exact ih _

theorem get_foldl_put {l : List (Field × List Nat)} {e : Field × List Nat} (he : e ∈ l) (v : Field × List Nat → Nat)
    (h : ∀ d ∈ l, d.1.key d.2 = e.1.key e.2 → v d = v e) (m : FMap Nat) :
    FMap.get (l.foldl (fun m d => FMap.put m (d.1.key d.2) (v d)) m) 0 (e.1.key e.2) = v e := by
  induction l using List.reverseRecOn with
  | nil => exact absurd he List.not_mem_nil
  | append_singleton r d ih =>
    rw [List.foldl_append, List.foldl_cons, List.foldl_nil]
    by_cases hk : d.1.key d.2 = e.1.key e.2
    · rw [hk, FMap.get_put_self, h d (by simp) hk]
    · have hr : e ∈ r := (List.mem_append.mp he).resolve_right (by rintro (_ | ⟨_, ⟨⟩⟩); exact hk rfl)
      rw [FMap.get_put_ne _ _ _ (Ne.symm hk), ih hr (fun d hd => h d (List.mem_append_left _ hd))]

theorem Alike.rd {e d : Field × List Nat} (h : Alike e d) (hk : d.1.key d.2 = e.1.key e.2) (s : State) :
    s.rd d.1 d.2 = s.rd e.1 e.2 := by
  simp only [State.rd, hk, h.wid, h.rst]

/-! ### CAPTURE -/

/-- The state in which a set is captured: SUPERSEDED tells whether a captured copy was replaced (R126). -/
def State.superseded (s : State) (x : StagedSet) : State :=
  if s.on (cPending x) [] then s.wr (cSuperseded x) [] 1 else s

theorem superseded_onlyRegs (s : State) (x : StagedSet) : OnlyRegs s (s.superseded x) [(cSuperseded x).key []] := by
  unfold State.superseded
  split
  · exact (OnlyRegs.refl s _).wr _ _ _ (.head _)
  · exact .refl s _

theorem superseded_rd (he : e ∈ setFields x) (s : State) : (s.superseded x).rd e.1 e.2 = s.rd e.1 e.2 :=
  (superseded_onlyRegs s x).regs _ _ (by simpa using staged_ne_commit he (isCommit_superseded x))

theorem captureSet_eq (s : State) (x : StagedSet) : ∃ m,
    captureSet s x = ((s.superseded x).withCaptured m).wr (cPending x) [] 1 ∧
    ∀ e ∈ setFields x, FMap.get m 0 (e.1.key e.2) = s.rd e.1 e.2 := by
  refine ⟨_, congrArg (fun u => u.wr (cPending x) [] 1)
    (foldl_captured (fun rd m e => FMap.put m (e.1.key e.2) (rd e.1 e.2)) (setFields x) (s.superseded x)), fun e he => ?_⟩
  exact (get_foldl_put he (fun e => (s.superseded x).rd e.1 e.2) (fun d hd hk => (setFields_alike he hd hk).rd hk _)
    _).trans (superseded_rd he s)

theorem captureSet_cap (he : e ∈ setFields x) (s : State) : (captureSet s x).cap e.1 e.2 = s.rd e.1 e.2 := by
  obtain ⟨m, h, hm⟩ := captureSet_eq s x
  rw [h]
  exact hm e he

theorem captureSet_pending (s : State) (x : StagedSet) : (captureSet s x).rd (cPending x) [] = 1 := by
  obtain ⟨m, h, -⟩ := captureSet_eq s x
  rw [h, rd_wr_self]
  rfl

/-- A capture leaves every register but PENDING and SUPERSEDED. -/
theorem captureSet_rd {f : Field} {i : List Nat} (hp : f.key i ≠ (cPending x).key [])
    (hs : f.key i ≠ (cSuperseded x).key []) (s : State) : (captureSet s x).rd f i = s.rd f i := by
  obtain ⟨m, h, -⟩ := captureSet_eq s x
  rw [h, rd_wr_ne _ _ hp, rd_withCaptured]
  exact (superseded_onlyRegs s x).regs f i (by simpa using hs)

theorem captureSet_hbm (s : State) (x : StagedSet) : (captureSet s x).hbm = s.hbm := by
  obtain ⟨m, h, -⟩ := captureSet_eq s x
  rw [h]
  exact (superseded_onlyRegs s x).part State.hbm (fun _ => rfl)

/-! ### The boundary -/

/-- The set's captured copy, written into its active copy. -/
def State.activated (s : State) (x : StagedSet) : State :=
  (setFields x).foldl (fun t e => t.wr e.1.mirror e.2 (s.cap e.1 e.2)) s

theorem activated_onlyRegs (s : State) (x : StagedSet) :
    OnlyRegs s (s.activated x) ((setFields x).map fun e => e.1.mirror.key e.2) :=
  foldl_wr_onlyRegs Field.mirror _ _ s

/-- Taking effect writes no register outside the active copies. -/
theorem activated_rd {f : Field} {i : List Nat} (hf : ¬ activeKey (f.key i)) (s : State) (x : StagedSet) :
    (s.activated x).rd f i = s.rd f i := by
  refine (activated_onlyRegs s x).regs f i fun hm => ?_
  obtain ⟨e, he, hk⟩ := List.mem_map.mp hm
  exact hf (hk ▸ mirror_active he)

theorem activated_active (he : e ∈ setFields x) (s : State) :
    (s.activated x).rdA e.1 e.2 = s.cap e.1 e.2 % 2 ^ e.1.wid := by
  refine rd_foldl_wr_mem Field.mirror he (fun e => s.cap e.1 e.2) (fun d hd hk => ?_) s
  have hk : d.1.key d.2 = e.1.key e.2 := by
    rw [mirror_key, mirror_key] at hk
    omega
  obtain ⟨hwid, hrst⟩ := setFields_alike he hd hk
  exact ⟨⟨hwid, hrst⟩, by simp only [State.cap, hk]⟩

theorem dropSet_eq (h : s.on (cPending x) [] = true) :
    ∃ m, dropSet s x = (s.withCaptured m).wr (cPending x) [] 0 :=
  ⟨_, (if_pos h).trans (congrArg (fun u => u.wr (cPending x) [] 0)
    (foldl_captured (fun _ m e => FMap.erase m (e.1.key e.2)) (setFields x) s))⟩

theorem effectSet_eq (h : s.on (cPending x) [] = true) : ∃ m, effectSet s x =
    (((s.activated x).withCaptured m).wr (cPending x) [] 0).wrapInc (cGen x) [] 1 := by
  have hv : (setFields x).foldl (fun s e => s.wr e.1.mirror e.2 (s.cap e.1 e.2)) s = s.activated x :=
    foldl_wr_values Field.mirror (fun t e => t.cap e.1 e.2) (fun _ _ _ _ _ _ => rfl) s
  have hon : (s.activated x).on (cPending x) [] = true := by
    unfold State.on at h ⊢
    rw [activated_rd (isCommit_pending x).not_active]
    exact h
  have heffect : effectSet s x = (dropSet (s.activated x) x).wrapInc (cGen x) [] 1 :=
    (if_pos h).trans (congrArg (fun u => (dropSet u x).wrapInc (cGen x) [] 1) hv)
  obtain ⟨m, hdrop⟩ := dropSet_eq hon
  exact ⟨m, heffect.trans (congrArg (fun u => u.wrapInc (cGen x) [] 1) hdrop)⟩

/-- A set taking effect leaves every register but the active copies, PENDING and GEN. -/
theorem effectSet_rd (h : s.on (cPending x) [] = true) {f : Field} {i : List Nat} (hp : f.key i ≠ (cPending x).key [])
    (hg : f.key i ≠ (cGen x).key []) (ha : ¬ activeKey (f.key i)) : (effectSet s x).rd f i = s.rd f i := by
  obtain ⟨m, hm⟩ := effectSet_eq h
  rw [hm, rd_wrapInc_ne _ _ hg, rd_wr_ne _ _ hp, rd_withCaptured, activated_rd ha]

/-- What a pending set shows once it took effect (R125). -/
theorem effectSet_shows (h : s.on (cPending x) [] = true) :
    (effectSet s x).rd (cPending x) [] = 0 ∧ (effectSet s x).rd (cGen x) [] = (s.rd (cGen x) [] + 1) % 256 ∧
    (∀ e ∈ setFields x, (effectSet s x).rdA e.1 e.2 = s.cap e.1 e.2 % 2 ^ e.1.wid) ∧ (effectSet s x).hbm = s.hbm := by
  obtain ⟨m, hm⟩ := effectSet_eq h
  have hne : (cPending x).key [] ≠ (cGen x).key [] := (isCommit_pending x).key_ne (isCommit_gen x) (by decide : 2 ≠ 8)
  rw [hm]
  refine ⟨?_, ?_, fun e he => ?_, ?_⟩
  · rw [rd_wrapInc_ne _ _ hne, rd_wr_self]
    rfl
  · rw [rd_wrapInc_self, rd_wr_ne _ _ hne.symm, rd_withCaptured, activated_rd (isCommit_gen x).not_active]
    rfl
  · rw [State.rdA, rd_wrapInc_ne _ _ (mirror_ne_commit he (isCommit_gen x)),
      rd_wr_ne _ _ (mirror_ne_commit he (isCommit_pending x)), rd_withCaptured]
    exact activated_active he s
  · exact (activated_onlyRegs s x).part State.hbm (fun _ => rfl)

/-! ### DISCARD -/

theorem discardSet_eq (s : State) (x : StagedSet) :
    discardSet s x = (setFields x).foldl (fun t e => t.wr e.1 e.2 (s.rdA e.1 e.2)) s :=
  foldl_wr_values (fun f => f) (fun t e => t.rdA e.1 e.2)
    (fun t _ _ hd _ he => rd_wr_ne t _ (staged_ne_mirror hd he).symm) s

/-- A discard copies the active copy into the staging copy and changes no other register (R128). -/
theorem discardSet_shows (s : State) (x : StagedSet) : (∀ e ∈ setFields x, (discardSet s x).rd e.1 e.2 = s.rdA e.1 e.2) ∧
    OnlyRegs s (discardSet s x) ((setFields x).map (fun e => e.1.key e.2)) := by
  rw [discardSet_eq]
  refine ⟨fun e he => ?_, foldl_wr_onlyRegs (fun f => f) _ _ s⟩
  refine (rd_foldl_wr_mem (fun f => f) he (fun e => s.rdA e.1 e.2) (fun d hd hk => ?_) s).trans
    (Nat.mod_eq_of_lt (rd_lt s e.1.mirror e.2))
  have ha := setFields_alike he hd hk
  have hm : Alike (e.1.mirror, e.2) (d.1.mirror, d.2) := ⟨ha.wid, ha.rst⟩
  exact ⟨ha, hm.rd (by simp only [mirror_key, hk]) s⟩

end

end Sys2Proof.Machine
end

/-! ## COMMIT, the boundary, DISCARD and the direct pairs (R125, R127, R128, R130, R131, R133, R134) -/

section
namespace Sys2Proof.Machine

open Host (Outcome)

section
variable {s t : State} {src : Src} {x : StagedSet}

theorem exec_commit (hw : s.mayWrite src = true) (hr : s.setReach x = true) :
    exec (.commit src x) s = nextQ (commitSet s src x) := by
  have h : commitOp s src x = commitSet s src x := (if_pos hw).trans (if_pos hr)
  exact congrArg nextQ h

theorem exec_discard (hw : s.mayWrite src = true) (hr : s.setReach x = true) :
    exec (.discard src x) s = .next (discardSet s x) :=
  (next_fwWrite hw _ _).trans (congrArg Outcome.next (if_pos hr))

/-! ### A commit that is refused -/

/-- Keys outside the record of a refused descriptor-table set (R299). -/
def offDtErr (k : Nat) : Prop := k < 0x404410 * 128 ∨ k / 128 % 0x20000 ≠ 0x4410

theorem dtErrKey_on {f : Field} (hb : f.base = 0x404410) (hs : f.strides = [131072]) (hl : f.lo < 128) (p : Nat) :
    ¬ offDtErr (f.key [p]) := by
  simp only [offDtErr, Field.key, Field.addr, hb, hs, dotIdx]
  omega

theorem dtError_spares (s : State) (p c n : Nat) : Spares State.still offDtErr s (dtError s p c n) :=
  (((Spares.refl State.still offDtErr s).wr Reg.RKE_DTERR_CHECK [p] n rfl (dtErrKey_on rfl rfl (by decide) p)).wr
    Reg.RKE_DTERR_CTX [p] c rfl (dtErrKey_on rfl rfl (by decide) p)).wr
    Reg.RKE_DTERR_VALID [p] 1 rfl (dtErrKey_on rfl rfl (by decide) p)

/-- A commit of a set that disagrees is refused; a descriptor-table set first records why. -/
theorem commitSet_refuses (h : s.agrees x = false) : ∃ u, Spares State.still offDtErr s u ∧
    commitSet s src x = cfgRefuse (u.wr (cRefused x) [] 1) (Src.agentCode src) 1 (commitAddr x) := by
  have hne := Bool.eq_false_iff.mp h
  cases x with
  | rkeDt p c => exact ⟨_, dtError_spares s p c _, if_neg hne⟩
  | vec | prioSplit | coal | sivDir | furGeo | rwcParam | vcMap | route | grfEnt | tariff =>
    exact ⟨s, .refl _ _ s, if_neg hne⟩

theorem agentCode_lt : ∀ src, Src.agentCode src < 4
  | .bench => (by decide : 0 < 4)
  | .host _ => (by decide : 1 < 4)

theorem commitSet_refused (h : s.agrees x = false) (hset : Settles (commitSet s src x) t) :
    t.rd (cRefused x) [] = 1 ∧ t.captured = s.captured ∧
    t.rd Reg.TOP_CFGERR_CNT_COUNT [] = satAdd Reg.TOP_CFGERR_CNT_COUNT.wid (s.rd Reg.TOP_CFGERR_CNT_COUNT []) 1 ∧
    (s.on Reg.TOP_CFGERR_VALID [] = false → t.rd Reg.TOP_CFGERR_VALID [] = 1 ∧ t.rd Reg.TOP_CFGERR_KIND [] = 1 ∧
      t.rd Reg.TOP_CFGERR_OFFSET [] = commitAddr x ∧ t.rd Reg.TOP_CFGERR_AGENT [] = Src.agentCode src) ∧
    (∀ e, e ∈ setFields x → t.rdA e.1 e.2 = s.rdA e.1 e.2) := by
  obtain ⟨u, hu, heq⟩ := commitSet_refuses (src := src) h
  rw [heq] at hset
  have hc := (set_placed x).commitClear
  have hr := cfgRefuse_refuses (u.wr (cRefused x) [] 1) (offset := commitAddr x) (agentCode_lt src) (kind := 1)
    (by decide) (by omega)
  generalize cfgRefuse (u.wr (cRefused x) [] 1) (Src.agentCode src) 1 (commitAddr x) = v at hset hr
  have top {f : Field} (hf : f.key [] < 0x9C0 * 128) : t.rd f [] = v.rd f [] :=
    hset.regs f [] (top_not_settles hf)
  have before {f : Field} (hf : f.key [] < 0x9C0 * 128) : (u.wr (cRefused x) [] 1).rd f [] = s.rd f [] := by
    have hne : f.key [] ≠ (cRefused x).key [] :=
      fun hk => top_not_offRefusal (by omega) (hk ▸ (isCommit_refused x).offRefusal)
    rw [rd_wr_ne _ _ hne]
    exact hu.rd f [] (.inl (by omega))
  refine ⟨?_, ?_, ?_, fun hv => ?_, fun e he => ?_⟩
  · rw [hset.regs _ _ (isCommit_refused x).not_settles, hr.regs _ _ (isCommit_refused x).offRefusal, rd_wr_self]
    rfl
  · rw [hset.part State.captured (fun _ => rfl)]
    exact (congrArg State.captured (hr.still.trans hu.view) : v.still.captured = s.still.captured)
  · rw [top (by decide), hr.count, before (by decide)]
  · have hv' : (u.wr (cRefused x) [] 1).on Reg.TOP_CFGERR_VALID [] = false := by
      unfold State.on at hv ⊢
      rw [before (by decide)]
      exact hv
    obtain ⟨hkind, hoffset, hcode⟩ := hr.first hv'
    exact ⟨(top (by decide)).trans hr.valid, (top (by decide)).trans hkind, (top (by decide)).trans hoffset,
      (top (by decide)).trans hcode⟩
  · have ha := mirror_active he
    have hdt : offDtErr (e.1.mirror.key e.2) := by
      unfold activeKey at ha
      unfold offDtErr
      omega
    exact (hset.regs _ _ (active_not_settles ha)).trans <| (hr.regs _ _ (mirror_offRefusal he)).trans <|
      (rd_wr_ne _ _ (mirror_ne_commit he (isCommit_refused x))).trans (hu.rd _ _ hdt)

/-! ### A commit that agrees, and the boundary -/

theorem boundary_idle (h : s.on (cPending x) [] = false) : boundary s x = s :=
  if_pos (by rw [h]; rfl)

theorem exec_stagedSetEffect (hr : s.setReach x = true) : exec (.stagedSetEffect x) s = nextQ (boundary s x) :=
  congrArg nextQ (if_pos hr)

/-- A set that is not pending has no effect to take (R125). -/
theorem stagedSetEffect_idle (h : s.on (cPending x) [] = false) : exec (.stagedSetEffect x) s = nextQ s := by
  have heq : (if s.setReach x then boundary s x else s) = s := by rw [boundary_idle h, ite_self]
  exact congrArg nextQ heq

theorem captureSet_on (s : State) (x : StagedSet) : (captureSet s x).on (cPending x) [] = true := by
  rw [State.on, captureSet_pending]
  rfl

theorem commitSet_agrees (h : s.agrees x = true) :
    commitSet s src x = boundary (captureSet (noteCapture s x) x) x := if_pos h

theorem boundary_coal {f : Fin 16} (h : s.on (cPending (.coal f)) [] = true) :
    boundary s (.coal f) = effectSet s (.coal f) := if_neg (by rw [h]; decide)

theorem boundary_sivDir {n : Fin 256} (h : s.on (cPending (.sivDir n)) [] = true) (hs : s.sieves = []) :
    boundary s (.sivDir n) = effectSet s (.sivDir n) :=
  (if_neg (by rw [h]; decide)).trans (if_pos (by rw [hs]; rfl))

/-- A schedule waits for the end of the demand interval while accounting is on. -/
theorem boundary_tariff (h : s.on Reg.PWR_CTL_ACCT_EN [] = true) : boundary s .tariff = s := by
  have hb : boundary s .tariff = if !s.on (cPending .tariff) [] then s else
      if s.on Reg.PWR_CTL_ACCT_EN [] then s else openWithBand s (s.rd Reg.CLO_RTC_SEC_SEC []) := rfl
  rw [hb, if_pos h, ite_self]

/-- A set that is captured and takes effect at once shows its staging copy as the active copy (R131). -/
theorem effectSet_captureSet_shows (s : State) (x : StagedSet) {u : State} (hu : u = effectSet (captureSet s x) x) :
    (∀ e ∈ setFields x, u.rdA e.1 e.2 = s.rd e.1 e.2 ∧ u.rd e.1 e.2 = s.rd e.1 e.2) ∧
    u.rd (cPending x) [] = 0 ∧ u.rd (cGen x) [] = (s.rd (cGen x) [] + 1) % 256 ∧ u.hbm = s.hbm := by
  subst hu
  have hp := isCommit_pending x
  have hs := isCommit_superseded x
  have hg := isCommit_gen x
  obtain ⟨hpending, hgen, hactive, hhbm⟩ := effectSet_shows (captureSet_on s x)
  refine ⟨fun e he => ⟨?_, ?_⟩, hpending, ?_, hhbm.trans (captureSet_hbm s x)⟩
  · rw [hactive e he, captureSet_cap he, Nat.mod_eq_of_lt (rd_lt s e.1 e.2)]
  · rw [effectSet_rd (captureSet_on s x) (staged_ne_commit he hp) (staged_ne_commit he hg) (staged_not_active he),
      captureSet_rd (staged_ne_commit he hp) (staged_ne_commit he hs)]
  · rw [hgen, captureSet_rd (hg.key_ne hp (by decide : 8 ≠ 2)) (hg.key_ne hs (by decide : 8 ≠ 3))]

theorem commitSet_coal_takes {f : Fin 16} (h : s.agrees (.coal f) = true)
    (hset : Settles (commitSet s src (.coal f)) t) :
    (∀ e, e ∈ setFields (.coal f) → t.rdA e.1 e.2 = s.rd e.1 e.2 ∧ t.rd e.1 e.2 = s.rd e.1 e.2) ∧
    t.rd (cPending (.coal f)) [] = 0 ∧ t.rd (cGen (.coal f)) [] = (s.rd (cGen (.coal f)) [] + 1) % 256 ∧
    t.hbm = s.hbm := by
  have heq : commitSet s src (.coal f) = effectSet (captureSet s (.coal f)) (.coal f) :=
    (commitSet_agrees h).trans (boundary_coal (captureSet_on _ _))
  obtain ⟨hfields, hpending, hgen, hhbm⟩ := effectSet_captureSet_shows s (.coal f) heq
  refine ⟨fun e he => ⟨?_, ?_⟩, ?_, ?_, (hset.part State.hbm (fun _ => rfl)).trans hhbm⟩
  · exact (hset.regs _ _ (active_not_settles (mirror_active he))).trans (hfields e he).1
  · exact (hset.regs _ _ (coal_not_settles he)).trans (hfields e he).2
  · exact (hset.regs _ _ (isCommit_pending _).not_settles).trans hpending
  · exact (hset.regs _ _ (isCommit_gen _).not_settles).trans hgen

theorem commitSet_tariff_waits (h : s.agrees .tariff = true) (ha : s.on Reg.PWR_CTL_ACCT_EN [] = true)
    (hset : Settles (commitSet s src .tariff) t) : t.rd (cPending .tariff) [] = 1 ∧
    (∀ e, e ∈ setFields .tariff → t.cap e.1 e.2 = s.rd e.1 e.2 ∧ t.rdA e.1 e.2 = s.rdA e.1 e.2) ∧ t.hbm = s.hbm := by
  have hnote (f : Field) (i : List Nat) : (noteCapture s .tariff).rd f i = s.rd f i := rfl
  have hhbm : (noteCapture s .tariff).hbm = s.hbm := rfl
  have hcommit := commitSet_agrees (src := src) h
  generalize noteCapture s .tariff = u at hnote hhbm hcommit
  have hon : (captureSet u .tariff).on Reg.PWR_CTL_ACCT_EN [] = true := by
    unfold State.on at ha ⊢
    rw [captureSet_rd (by decide) (by decide), hnote]
    exact ha
  rw [hcommit, boundary_tariff hon] at hset
  refine ⟨?_, fun e he => ⟨?_, ?_⟩, ?_⟩
  · rw [hset.regs _ _ (isCommit_pending _).not_settles, captureSet_pending]
  · have hcap : t.captured = (captureSet u .tariff).captured := hset.part State.captured (fun _ => rfl)
    rw [State.cap, hcap]
    exact (captureSet_cap he u).trans (hnote _ _)
  · rw [State.rdA, hset.regs _ _ (active_not_settles (mirror_active he)),
      captureSet_rd (mirror_ne_commit he (isCommit_pending _)) (mirror_ne_commit he (isCommit_superseded _)), hnote]
    rfl
  · rw [hset.part State.hbm (fun _ => rfl), captureSet_hbm, hhbm]

theorem boundary_sivDir_takes {n : Fin 256} (h : s.on (cPending (.sivDir n)) [] = true) (hs : s.sieves = [])
    (hset : Settles (boundary s (.sivDir n)) t) : t.rd (cPending (.sivDir n)) [] = 0 ∧
    (∀ e, e ∈ setFields (.sivDir n) → t.rdA e.1 e.2 = s.cap e.1 e.2 % 2 ^ 32) ∧
    t.rd (cGen (.sivDir n)) [] = (s.rd (cGen (.sivDir n)) [] + 1) % 256 ∧ t.hbm = s.hbm := by
  obtain ⟨hpending, hgen, hactive, hhbm⟩ := effectSet_shows h
  rw [boundary_sivDir h hs] at hset
  refine ⟨?_, fun e he => ?_, ?_, (hset.part State.hbm (fun _ => rfl)).trans hhbm⟩
  · exact (hset.regs _ _ (isCommit_pending _).not_settles).trans hpending
  · have hw : e.1.wid = 32 := (setFields_isWord rfl he).1
    exact (hset.regs _ _ (active_not_settles (mirror_active he))).trans (hw ▸ hactive e he)
  · exact (hset.regs _ _ (isCommit_gen _).not_settles).trans hgen

end

/-! ### Direct pairs -/

section
variable {s : State} {src : Src} {p : DirectPair} {second : Bool} {v : Nat}

/-- The field of a pair that a write names. -/
def pairField (p : DirectPair) (second : Bool) : Field × List Nat :=
  if second then (pairFields p).2 else (pairFields p).1

theorem exec_directPairWrite (hw : s.mayWrite src = true) (hr : s.pairReach p = true) :
    exec (.directPairWrite src p second v) s = .next (directPair s src p second v) :=
  (next_fwWrite hw _ _).trans (congrArg Outcome.next (if_pos hr))

/-- Keys that the limits in force and the limiter's flags are not shown under (R598, R599). -/
def offLimits (k : Nat) : Prop := outside k ∧
  (k < 0xA00004 * 128 ∨ 0xA00008 * 128 ≤ k ∧ k < 0xA0001C * 128 ∨ 0xA00050 * 128 ≤ k)

theorem updateLimits_spares (s : State) : Spares State.govView offLimits s (updateLimits s) := by
  have flags : ∀ k ∈ flagKeys, 0xA00004 * 128 ≤ k ∧ k < 0xA00008 * 128 ∨ 0xA0004C * 128 ≤ k ∧ k < 0xA00050 * 128 := by
    decide
  have fast {u : State} (hu : Spares State.govView offLimits s u) {f : Field} (n : Nat) (hf : f.base = 0xA0001C)
      (hs : f.strides = []) (hl : f.lo < 128) : Spares State.govView offLimits s (u.wr f [] n) := by
    refine hu.wr f [] n rfl ?_
    simp only [offLimits, outside, Field.key, Field.addr, hf, hs, dotIdx]
    omega
  unfold updateLimits
  extract_lets s1 s2
  have h1 : Spares State.govView offLimits s s1 := fast (fast (.refl _ _ s) _ rfl rfl (by decide)) _ rfl rfl (by decide)
  have h2 : Spares State.govView offLimits s s2 := fast h1 _ rfl rfl (by decide)
  have h3 (g : Gov) : Spares State.govView offLimits s { s2 with gov := g } := h2.set rfl rfl
  refine (h3 _).trans ((powerFlags_spares _).weaken (fun _ => rfl) fun k hk => ⟨hk.1, fun hm => ?_⟩)
  obtain ⟨-, hk⟩ := hk
  have := flags k hm
  omega

/-- Only the VID pair has limits that follow it. -/
theorem directPair_spares (s : State) (src : Src) (p : DirectPair) (second : Bool) (v : Nat) :
    Spares State.govView offLimits (pairWrite s (Src.agentCode src) p second v) (directPair s src p second v) := by
  cases p with
  | vid => exact updateLimits_spares _
  | pin | timer | flashErase => exact .refl _ _ _

/-- Where the fields of the pairs lie. -/
theorem pairField_place (p : DirectPair) (second : Bool) : offLimits ((pairField p second).1.key (pairField p second).2) ∧
    offRefusal ((pairField p second).1.key (pairField p second).2) ∧
    (pairField p second).1.addr (pairField p second).2 < 2 ^ 26 := by
  cases p with
  | timer n =>
    cases second
    all_goals
      simp only [pairField, pairFields, Reg.CLO_TMR_CMP_VALUE, Reg.CLO_TMR_RELOAD_VALUE, Bool.false_eq_true, if_true,
        if_false, offLimits, outside, offRefusal, Field.key, Field.addr, dotIdx]
      omega
  | vid | pin | flashErase =>
    cases second
    all_goals
      unfold offLimits outside offRefusal
      decide

theorem directPair_accepted (h : s.pairAccepts p second v = true) {t : State} (ht : t = directPair s src p second v) :
    t.rd (pairField p second).1 (pairField p second).2 = v % 2 ^ (pairField p second).1.wid ∧ t.hbm = s.hbm ∧
    t.plots = s.plots := by
  have hwrite : pairWrite s (Src.agentCode src) p second v =
      s.wr (pairField p second).1 (pairField p second).2 v := if_pos h
  have hspares := directPair_spares s src p second v
  rw [hwrite, ← ht] at hspares
  exact ⟨(hspares.rd _ _ (pairField_place p second).1).trans (rd_wr_self _ _ _ _), congrArg (·.1) hspares.view,
    congrArg (·.2.1) hspares.view⟩

theorem directPair_refused (h : s.pairAccepts p second v = false) {t : State} (ht : t = directPair s src p second v) :
    (∀ b, t.rd (pairField p b).1 (pairField p b).2 = s.rd (pairField p b).1 (pairField p b).2) ∧
    t.rd Reg.TOP_CFGERR_VALID [] = 1 ∧
    t.rd Reg.TOP_CFGERR_CNT_COUNT [] = satAdd Reg.TOP_CFGERR_CNT_COUNT.wid (s.rd Reg.TOP_CFGERR_CNT_COUNT []) 1 ∧
    t.hbm = s.hbm ∧ t.plots = s.plots := by
  have hwrite : pairWrite s (Src.agentCode src) p second v =
      cfgRefuse s (Src.agentCode src) 0 ((pairField p second).1.addr (pairField p second).2) :=
    if_neg (Bool.eq_false_iff.mp h)
  have hr := cfgRefuse_refuses s (agentCode_lt src) (kind := 0) (by decide) (pairField_place p second).2.2
  have hspares := directPair_spares s src p second v
  rw [hwrite, ← ht] at hspares
  generalize cfgRefuse s _ 0 _ = u at hr hspares
  have hview : t.govView = s.govView :=
    hspares.view.trans (congrArg State.govView hr.still : u.still.govView = s.still.govView)
  refine ⟨fun b => ?_, ?_, ?_, congrArg (·.1) hview, congrArg (·.2.1) hview⟩
  · obtain ⟨hl, hf, -⟩ := pairField_place p b
    exact (hspares.rd _ _ hl).trans (hr.regs _ _ hf)
  · exact (hspares.rd _ _ (by unfold offLimits outside; decide)).trans hr.valid
  · exact (hspares.rd _ _ (by unfold offLimits outside; decide)).trans hr.count

end

/-- Settles O18: a set's staging copy, active copy and commit register lie apart, so a refusal reaches neither copy and
a boundary writes the active copy alone. -/
theorem stagedSetsAndDirectPairs : Obligations.StagedSetsAndDirectPairs := by
  intro s src hw
  refine ⟨?refused, ?coalescing, ?tariff, ?directory, ?idle, ?discard, ?pair⟩
  case refused =>
    intro x hr h
    obtain ⟨t, heq, hset⟩ := nextQ_settles (commitSet s src x)
    exact ⟨t, (exec_commit hw hr).trans heq, commitSet_refused h hset⟩
  case coalescing =>
    intro f h
    obtain ⟨t, heq, hset⟩ := nextQ_settles (commitSet s src (.coal f))
    exact ⟨t, (exec_commit hw rfl).trans heq, commitSet_coal_takes h hset⟩
  case tariff =>
    intro h ha
    obtain ⟨t, heq, hset⟩ := nextQ_settles (commitSet s src .tariff)
    exact ⟨t, (exec_commit hw rfl).trans heq, commitSet_tariff_waits h ha hset⟩
  case directory =>
    intro n hr hs h
    obtain ⟨t, heq, hset⟩ := nextQ_settles (boundary s (.sivDir n))
    exact ⟨t, (exec_stagedSetEffect (x := .sivDir n) hr).trans heq, boundary_sivDir_takes h hs hset⟩
  case idle =>
    intro x h
    rw [stagedSetEffect_idle h]
    exact nextQ_settles s
  case discard =>
    intro x hr
    exact ⟨_, exec_discard hw hr, discardSet_shows s x⟩
  case pair =>
    intro p second v hr
    have hexec := exec_directPairWrite (second := second) (v := v) hw hr
    refine ⟨fun h => ⟨_, hexec, directPair_accepted h rfl⟩, fun h => ?_⟩
    obtain ⟨hkeeps, hrest⟩ := directPair_refused (src := src) h rfl
    exact ⟨_, hexec, hkeeps false, hkeeps true, hrest⟩

end Sys2Proof.Machine
end

/-! ## What requests and host violations leave in the functions' pages (R147, R167, R168, R172) -/

section
namespace Sys2Proof.Machine

/-- A part of the state that requests and events do not change. -/
theorem Quiet.part {α : Type} {s t : State} (h : Quiet s t) (p : State → α) (hp : ∀ u : State, p u.still = p u) :
    p t = p s := by
  rw [← hp t, h.still, hp s]

/-- The fields of a function's page, one instance per function. -/
structure IsPage (f : Field) : Prop where
  base : 0x100000 ≤ f.base ∧ f.base < 0x110000
  strides : f.strides = [65536]
  low : f.lo < 128

theorem IsPage.key_ne {f g : Field} (hf : IsPage f) (hg : IsPage g) {i j : Nat}
    (h : i ≠ j ∨ f.base * 128 + f.lo ≠ g.base * 128 + g.lo) : f.key [i] ≠ g.key [j] := by
  obtain ⟨⟨hf1, hf2⟩, hfs, hfl⟩ := hf
  obtain ⟨⟨hg1, hg2⟩, hgs, hgl⟩ := hg
  simp only [Field.key, Field.addr, hfs, hgs, dotIdx]
  omega

theorem IsPage.key_lt {f : Field} (hf : IsPage f) {i : Nat} (hi : i < 16) : f.key [i] < 0x200000 * 128 := by
  obtain ⟨hb, hs, hl⟩ := hf
  simp only [Field.key, Field.addr, hs, dotIdx]
  omega

theorem isPage_ringEnable : IsPage Reg.MBX_RING_CTL_ENABLE := ⟨by decide, rfl, by decide⟩
theorem isPage_ringPi : IsPage Reg.MBX_RING_PTR_PI := ⟨by decide, rfl, by decide⟩
theorem isPage_ringCi : IsPage Reg.MBX_RING_PTR_CI := ⟨by decide, rfl, by decide⟩
theorem isPage_lastCode : IsPage Reg.MBX_STATUS_LAST_CODE := ⟨by decide, rfl, by decide⟩
theorem isPage_violSeq : IsPage Reg.MBX_STATUS_VIOL_SEQ := ⟨by decide, rfl, by decide⟩
theorem isPage_violCount : IsPage Reg.MBX_VIOL_CNT_COUNT := ⟨by decide, rfl, by decide⟩
theorem isPage_vlogPi : IsPage Reg.MBX_VLOG_PI_PI := ⟨by decide, rfl, by decide⟩
theorem isPage_evqEnable : IsPage Reg.MBX_EVQ_CTL_ENABLE := ⟨by decide, rfl, by decide⟩
theorem isPage_evqPi : IsPage Reg.MBX_EVQ_PI_PI := ⟨by decide, rfl, by decide⟩
theorem isPage_evqCi : IsPage Reg.MBX_EVQ_CI_CI := ⟨by decide, rfl, by decide⟩
theorem isPage_evqLost : IsPage Reg.MBX_EVQ_LOST_COUNT := ⟨by decide, rfl, by decide⟩

/-! ### Posted events and vector messages -/

/-- Keys that no posted event and no vector message writes: all but PI and the lost count of the event queues and the
vector status. -/
def offNotice (k : Nat) : Prop :=
  (k < 0x220000 * 128 ∨ 0x230000 * 128 ≤ k) ∧
    ∀ f, k ≠ Reg.MBX_EVQ_PI_PI.key [f] ∧ k ≠ Reg.MBX_EVQ_LOST_COUNT.key [f]

theorem IsPage.offNotice {g : Field} (hg : IsPage g) {i : Nat} (hi : i < 16)
    (hpi : g.base * 128 + g.lo ≠ Reg.MBX_EVQ_PI_PI.base * 128 + Reg.MBX_EVQ_PI_PI.lo := by decide)
    (hlost : g.base * 128 + g.lo ≠ Reg.MBX_EVQ_LOST_COUNT.base * 128 + Reg.MBX_EVQ_LOST_COUNT.lo := by decide) :
    offNotice (g.key [i]) :=
  ⟨.inl (by have := hg.key_lt hi; omega),
    fun _ => ⟨hg.key_ne isPage_evqPi (.inr hpi), hg.key_ne isPage_evqLost (.inr hlost)⟩⟩

theorem vstatKey_onNotice {g : Field} {f v : Nat} (hb : g.base = 0x220000) (hs : g.strides = [512, 4]) (hl : g.lo < 128)
    (hf : f < 16) (hv : v < 128) : ¬ offNotice (g.key [f, v]) := by
  rintro ⟨h, -⟩
  simp only [Field.key, Field.addr, hb, hs, dotIdx] at h
  omega

section
variable {a s : State} {f v : Nat}

theorem sendVector_offNotice (h : SameOn offNotice a s) (hf : f < 16) (hv : v < 128) :
    SameOn offNotice a (sendVector s f v) :=
  .ite (h.set rfl) ((h.wr Reg.HDG_VSTAT_MSGS [f, v] _ (vstatKey_onNotice rfl rfl (by decide) hf hv)).set rfl)

theorem closeWindow_offNotice (h : SameOn offNotice a s) (hf : f < 16) (hv : v < 128) :
    SameOn offNotice a (closeWindow s f v) := by
  have h0 : SameOn offNotice a { s with hedge := { s.hedge with wins := FMap.erase s.hedge.wins (f * 128 + v) } } := h.set rfl
  exact sendVector_offNotice ((h0.wr Reg.HDG_VSTAT_COUNT [f, v] 0 (vstatKey_onNotice rfl rfl (by decide) hf hv)).wr
    Reg.HDG_VSTAT_OPEN [f, v] 0 (vstatKey_onNotice rfl rfl (by decide) hf hv)) hf hv

theorem vectorRequest_offNotice (h : SameOn offNotice a s) (idle : Bool) (hf : f < 16) (hv : v < 128) :
    SameOn offNotice a (vectorRequest s f v idle) := by
  have count {t : State} (ht : SameOn offNotice a t) (n : Nat) : SameOn offNotice a (t.wr Reg.HDG_VSTAT_COUNT [f, v] n) :=
    ht.wr _ _ n (vstatKey_onNotice rfl rfl (by decide) hf hv)
  unfold vectorRequest
  refine .ite (sendVector_offNotice h hf hv) (.ite h ?_)
  cases FMap.find s.hedge.wins (f * 128 + v) with
  | some w => exact .ite (closeWindow_offNotice (count h _) hf hv) (count h _)
  | none =>
    refine .ite (sendVector_offNotice h hf hv) ?_
    have opened (ws : FMap CoalWin) : SameOn offNotice a ((({ s with hedge := { s.hedge with wins := ws } } : State).wr
        Reg.HDG_VSTAT_COUNT [f, v] 1).wr Reg.HDG_VSTAT_OPEN [f, v] 1) :=
      (count (h.set rfl) 1).wr _ _ 1 (vstatKey_onNotice rfl rfl (by decide) hf hv)
    exact .ite (closeWindow_offNotice (opened _) hf hv) (opened _)

theorem evqWrite_offNotice (h : SameOn offNotice a s) (f source data : Nat) :
    SameOn offNotice a (evqWrite s f source data) :=
  (h.wr Reg.MBX_EVQ_PI_PI [f] _ (fun o => (o.2 f).1 rfl)).set rfl

theorem evqLose_offNotice (h : SameOn offNotice a s) (f : Nat) : SameOn offNotice a (evqLose s f) :=
  (h.wr Reg.MBX_EVQ_LOST_COUNT [f] _ (fun o => (o.2 f).2 rfl)).set rfl

theorem evqPostLost_offNotice (h : SameOn offNotice a s) (hf : f < 16) : SameOn offNotice a (evqPostLost s f) := by
  have posted (n : Nat) (m : FMap Nat) :
      SameOn offNotice a { evqWrite s f 0 n with mbx := { (evqWrite s f 0 n).mbx with lostSince := m } } :=
    (evqWrite_offNotice h f 0 n).set rfl
  exact .ite h (vectorRequest_offNotice (posted _ _) _ hf (by decide))

theorem evqPost_offNotice (h : SameOn offNotice a s) (source data : Nat) (hf : f < 16) :
    SameOn offNotice a (evqPost s f source data) :=
  .ite (evqWrite_offNotice (evqPostLost_offNotice h hf) f _ _) (evqLose_offNotice (evqPostLost_offNotice h hf) f)

theorem hostCopy_offNotice (h : SameOn offNotice a s) (i : Nat) : SameOn offNotice a (hostCopy s i) :=
  .ite (vectorRequest_offNotice (evqPost_offNotice h _ _ (rd_lt s Reg.HDG_SRC_FUNC [i])) _
    (rd_lt s Reg.HDG_SRC_FUNC [i]) (rd_lt s Reg.HDG_SRC_VECTOR [i])) h

end

/-! ### Requests -/

/-- Keys of the pages that no request writes: all but PI and the lost count of the event queues. -/
def offRequest (k : Nat) : Prop := k < 0x200000 * 128 ∧ offNotice k

section
variable {a s : State} {i : Nat}

theorem SameOn.wrOffRequest (h : SameOn offRequest a s) {f : Field} (hf : IsSource f) (hi : i < 1023) (v : Nat) :
    SameOn offRequest a (s.wr f [i] v) :=
  h.wr f [i] v (fun o => by have := o.1; have := (hf.inSources hi).1; omega)

theorem hedgeDecide_offRequest (h : SameOn offRequest a s) : SameOn offRequest a (hedgeDecide s) := by
  have stat {t : State} (ht : SameOn offRequest a t) (f : Field) (v : Nat) (hb : f.base = 0x200000 := by rfl)
      (hs : f.strides = [] := by rfl) : SameOn offRequest a (t.wr f [] v) :=
    ht.wr f [] v (fun o => by have := o.1; simp only [Field.key, Field.addr, hb, hs, dotIdx] at this; omega)
  exact (stat (stat (stat (stat h Reg.HDG_STAT_OFFER _) Reg.HDG_STAT_IRQ _) Reg.HDG_STAT_ACTIVE_ANY _)
    Reg.HDG_STAT_RUNPRIO _).set rfl

theorem hedgeEvent_offRequest (h : SameOn offRequest a s) (d : Nat) (hi : i < 1023) :
    SameOn offRequest a (hedgeEvent s i d) := by
  have source {t : State} (ht : SameOn offRequest a t) (v : Nat) : SameOn offRequest a (t.wr Reg.HDG_SRC_PENDING [i] v) :=
    ht.wrOffRequest isSource_pending hi v
  have high {t : State} (ht : SameOn offRequest a t) : SameOn offRequest a (pulseHigh t i) :=
    .ite (hedgeDecide_offRequest (.ite ht (source ht _))) ht
  have low {t : State} (ht : SameOn offRequest a t) : SameOn offRequest a (pulseLow t i) := .ite ht (source ht _)
  have copy {t : State} (ht : SameOn offRequest a t) : SameOn offRequest a (hostCopy t i) :=
    ht.trans ((hostCopy_offNotice (.refl _ t) i).mono fun _ o => o.2)
  exact hedgeDecide_offRequest (copy (low (high (h.wrOffRequest isSource_data hi d))))

end

/-! ### Host violations -/

/-- The registers of a function's page that count and show its violations. -/
def violKeys (f : Nat) : List Nat :=
  [Reg.MBX_VLOG_PI_PI.key [f], Reg.MBX_VIOL_CNT_COUNT.key [f], Reg.MBX_STATUS_LAST_CODE.key [f],
    Reg.MBX_STATUS_VIOL_SEQ.key [f]]

theorem IsPage.not_violKey {g : Field} (hg : IsPage g) {i : Nat}
    (h : g.base * 128 + g.lo ∉ [Reg.MBX_VLOG_PI_PI, Reg.MBX_VIOL_CNT_COUNT, Reg.MBX_STATUS_LAST_CODE,
      Reg.MBX_STATUS_VIOL_SEQ].map (fun f => f.base * 128 + f.lo) := by decide) : g.key [i] ∉ violKeys i := by
  simp only [List.map_cons, List.map_nil, List.mem_cons, List.not_mem_nil, or_false, not_or] at h
  obtain ⟨hvlog, hcount, hcode, hseq⟩ := h
  simp only [violKeys, List.mem_cons, List.not_mem_nil, or_false, not_or]
  exact ⟨hg.key_ne isPage_vlogPi (.inr hvlog), hg.key_ne isPage_violCount (.inr hcount),
    hg.key_ne isPage_lastCode (.inr hcode), hg.key_ne isPage_violSeq (.inr hseq)⟩

section
variable (s : State) {f : Nat} (code detail offset : Nat) (read : Bool)

/-- The state in which a violation has been logged and counted and shows its code. -/
def State.violLogged (s : State) (f code detail offset : Nat) (read : Bool) : State :=
  let e := s.now + 2 ^ 64 * code + 2 ^ 80 * (detail % 65536) + 2 ^ 96 * (offset % 2 ^ 26) + 2 ^ 127 * b2n read
  let vlog := FMap.put s.mbx.vlog (f * 32 + s.rd Reg.MBX_VLOG_PI_PI [f] % 32) e
  (((({ s with mbx := { s.mbx with vlog := vlog } } : State).wrapInc Reg.MBX_VLOG_PI_PI [f] 1).satInc
    Reg.MBX_VIOL_CNT_COUNT [f] 1).wr Reg.MBX_STATUS_LAST_CODE [f] code)

theorem hostViolation_eq : hostViolation s f code detail offset read =
    sendVector ((s.violLogged f code detail offset read).wrapInc Reg.MBX_STATUS_VIOL_SEQ [f] 1) f 2 := rfl

/-- A host violation leaves every register but those that show it, the event queues and the vectors. -/
theorem hostViolation_sameOn (hf : f < 16) :
    SameOn (fun k => offNotice k ∧ k ∉ violKeys f) s (hostViolation s f code detail offset read) := by
  have wrote {t : State} (h : SameOn (fun k => offNotice k ∧ k ∉ violKeys f) s t) (g : Field) (v : Nat)
      (hg : g.key [f] ∈ violKeys f) : SameOn (fun k => offNotice k ∧ k ∉ violKeys f) s (t.wr g [f] v) :=
    h.wr g [f] v (fun o => o.2 hg)
  have h0 (l : FMap Nat) :
      SameOn (fun k => offNotice k ∧ k ∉ violKeys f) s { s with mbx := { s.mbx with vlog := l } } := fun _ _ _ => rfl
  rw [hostViolation_eq]
  refine SameOn.trans ?_ ((sendVector_offNotice (.refl _ _) hf (by decide)).mono fun _ o => o.1)
  exact wrote (wrote (wrote (wrote (h0 _) _ _ (by simp [violKeys])) _ _ (by simp [violKeys])) _ _ (by simp [violKeys]))
    _ _ (by simp [violKeys])

/-- A host violation shows its code in the status word. -/
theorem hostViolation_lastCode (hf : f < 16) :
    (hostViolation s f code detail offset read).rd Reg.MBX_STATUS_LAST_CODE [f] = code % 2 ^ 16 := by
  rw [hostViolation_eq, sendVector_offNotice (.refl _ _) hf (by decide) _ _ (isPage_lastCode.offNotice hf),
    rd_wrapInc_ne _ _ (isPage_lastCode.key_ne isPage_violSeq (.inr (by decide)))]
  exact rd_wr_self _ _ _ _

end

/-- A host violation is logged with its code and changes nothing but what events may change. -/
theorem hostViolation_logs {s t : State} {f : Fin 16} {code detail offset : Nat} {read : Bool}
    (ht : t = hostViolation s f code detail offset read) (hc : code < 2 ^ 16 := by decide) :
    Quiet s t ∧ t.rd Reg.MBX_STATUS_LAST_CODE [f] = code := by
  rw [ht, hostViolation_lastCode s code detail offset read f.isLt, Nat.mod_eq_of_lt hc]
  exact ⟨hostViolation_quiet (.refl s) _ _ _ _ f.isLt, rfl⟩

/-! ### Single writes -/

/-- A one-bit field that reads as true holds 1. -/
theorem rd_of_on {s : State} {f : Field} {i : List Nat} (hw : f.wid = 1) (h : s.on f i = true) : s.rd f i = 1 := by
  have hlt := rd_lt s f i
  have hne : s.rd f i ≠ 0 := by simpa [State.on] using h
  rw [hw] at hlt
  omega

/-- A state that is `s` with one field written. -/
theorem wr_shows {s t : State} {f : Field} {i : List Nat} {v : Nat} (ht : t = s.wr f i v) :
    t.rd f i = v % 2 ^ f.wid ∧ OnlyRegs s t [f.key i] := by
  rw [ht]
  exact ⟨rd_wr_self _ _ _ _, (OnlyRegs.refl s _).wr _ _ _ (List.mem_singleton.mpr rfl)⟩

end Sys2Proof.Machine
end

/-! ## Doorbells, ring writes and result slots (R156, R157, R158, R163, R164, R170) -/

section
namespace Sys2Proof.Machine

/-! ### Slots and ring bytes -/

theorem slot_congr {s t : State} (h : t.mbx.slots = s.mbx.slots) (f i : Nat) : t.slot f i = s.slot f i := by
  unfold State.slot
  rw [h]

theorem slot_setSlot_ne (s : State) {f i j : Nat} (x : Slot) (h : j ≠ i) : (s.setSlot f i x).slot f j = s.slot f j :=
  FMap.get_set_ne _ _ _ _ (by omega)

theorem ringByte_congr {s t : State} (h : t.mbx.ring = s.mbx.ring) (f o : Nat) : t.ringByte f o = s.ringByte f o := by
  unfold State.ringByte
  rw [h]

theorem ringEntry_congr {s t : State} (h : t.mbx.ring = s.mbx.ring) (f i : Nat) : t.ringEntry f i = s.ringEntry f i := by
  unfold State.ringEntry
  simp only [ringByte_congr h]

/-- Every slot of the function whose slots are freed is FREE. -/
theorem slot_freeSlots_self (s : State) (f : Nat) {i : Nat} (hi : i < 128) : (s.freeSlots f).slot f i = {} := by
  show FMap.get (FMap.dropWhere s.mbx.slots (fun k => k / 128 == f)) {} (f * 128 + i) = {}
  rw [FMap.get_eq_find, FMap.find_dropWhere_none _ (by simp only [beq_iff_eq]; omega)]
  rfl

theorem slot_freeSlots_ne (s : State) {f g : Nat} (h : g ≠ f) {i : Nat} (hi : i < 128) :
    (s.freeSlots f).slot g i = s.slot g i := by
  have hdiv : ((g * 128 + i) / 128 == f) = false := by simp only [beq_eq_false_iff_ne]; omega
  exact FMap.get_dropWhere (p := fun k => k / 128 == f) s.mbx.slots {} hdiv

@[simp] theorem rd_freeSlots (s : State) (f : Nat) (g : Field) (i : List Nat) : (s.freeSlots f).rd g i = s.rd g i := rfl

/-! ### Commands accepted by a doorbell -/

/-- A state with other result slots. -/
def State.withSlots (s : State) (m : FMap Slot) : State := { s with mbx := { s.mbx with slots := m } }

/-- The slot that a doorbell makes BUSY: TAG and NOTIFY of the ring entry with the slot's number. -/
def State.busySlot (s : State) (f i : Nat) : Slot :=
  ⟨.busy, fieldAt (s.ringEntry f i) 2 2, bitOf (fieldAt (s.ringEntry f i) 4 1) 0, 0, []⟩

/-- The state once commands `a` to `a + d - 1` have been accepted. -/
def State.accepted (s : State) (f a d : Nat) : State := (List.range d).foldl (fun s k => acceptOne f s (a + k)) s

section
variable (s : State) (f a : Nat)

theorem accepted_succ (d : Nat) : s.accepted f a (d + 1) =
    (s.accepted f a d).setSlot f ((a + d) % 128) ((s.accepted f a d).busySlot f ((a + d) % 128)) := by
  unfold State.accepted
  rw [List.range_succ, List.foldl_append]
  rfl

/-- Accepting commands changes result slots alone. -/
theorem accepted_eq (d : Nat) : s.accepted f a d = s.withSlots (s.accepted f a d).mbx.slots := by
  induction d with
  | zero => rfl
  | succ d ih => rw [accepted_succ, ih]; rfl

theorem busySlot_accepted (d i : Nat) : (s.accepted f a d).busySlot f i = s.busySlot f i := by
  unfold State.busySlot
  rw [accepted_eq, ringEntry_congr rfl]
  rfl

theorem slot_accepted_ne {d i : Nat} (h : ∀ k, k < d → i ≠ (a + k) % 128) : (s.accepted f a d).slot f i = s.slot f i := by
  induction d with
  | zero => rfl
  | succ d ih => rw [accepted_succ, slot_setSlot_ne _ _ (h d (by omega)), ih fun k hk => h k (by omega)]

theorem slot_accepted {d k : Nat} (hd : d ≤ 128) (hk : k < d) :
    (s.accepted f a d).slot f ((a + k) % 128) = s.busySlot f ((a + k) % 128) := by
  induction d with
  | zero => omega
  | succ d ih =>
    rw [accepted_succ]
    by_cases hkd : k = d
    · rw [hkd, slot_setSlot_self, busySlot_accepted]
    · rw [slot_setSlot_ne _ _ (by omega), ih (by omega) (by omega)]

end

/-! ### The doorbell -/

section
variable {s : State} {f : Fin 16} (h : s.hostReach f = true)
include h

theorem doorbellOp_accepts {p d : Nat} (hen : s.on Reg.MBX_RING_CTL_ENABLE [f] = true)
    (hd : (p + 65536 - s.rd Reg.MBX_RING_PTR_PI [f]) % 65536 = d) (h1 : 1 ≤ d) (h128 : d ≤ 128)
    (hfree : s.slotsFree f (s.rd Reg.MBX_RING_PTR_PI [f]) d = true) :
    doorbellOp s f p =
      hedgeEvent ((s.accepted f (s.rd Reg.MBX_RING_PTR_PI [f]) d).wr Reg.MBX_RING_PTR_PI [f] p) (32 + f) p := by
  unfold doorbellOp
  dsimp only
  rw [hd, if_neg (by simp [h]), if_neg (by simp [hen]), if_neg (by omega), if_pos ⟨h128, hfree⟩]
  rfl

theorem doorbellOp_overruns {p d : Nat} (hen : s.on Reg.MBX_RING_CTL_ENABLE [f] = true)
    (hd : (p + 65536 - s.rd Reg.MBX_RING_PTR_PI [f]) % 65536 = d) (h0 : d ≠ 0)
    (hbad : 128 < d ∨ s.slotsFree f (s.rd Reg.MBX_RING_PTR_PI [f]) d = false) :
    doorbellOp s f p = hostViolation s f vRingOverrun p (pageOffset f 4) false := by
  have hno : ¬ (d ≤ 128 ∧ s.slotsFree f (s.rd Reg.MBX_RING_PTR_PI [f]) d = true) := by
    rintro ⟨h1, h2⟩
    rcases hbad with hb | hb
    · omega
    · exact absurd (h2.symm.trans hb) (by decide)
  unfold doorbellOp
  dsimp only
  rw [hd, if_neg (by simp [h]), if_neg (by simp [hen]), if_neg h0, if_neg hno]

theorem doorbellOp_disabled (hen : s.on Reg.MBX_RING_CTL_ENABLE [f] = false) (p : Nat) :
    doorbellOp s f p = hostViolation s f vRingDisabled p (pageOffset f 4) false := by
  unfold doorbellOp
  dsimp only
  rw [if_neg (by simp [h]), if_pos (by simp [hen])]

end

/-- A doorbell that is accepted takes PI, makes the slots of its commands BUSY and raises the function's request. -/
theorem accepted_rung {s : State} {f : Fin 16} {a d : Nat} (p : Nat) (hd : d ≤ 128) {t : State}
    (ht : t = hedgeEvent ((s.accepted f a d).wr Reg.MBX_RING_PTR_PI [f] p) (32 + f) p) :
    t.rd Reg.MBX_RING_PTR_PI [f] = p % 65536 ∧
      (∀ k, k < d → t.slot f ((a + k) % 128) = s.busySlot f ((a + k) % 128)) ∧
      (∀ i, i < 128 → (∀ k, k < d → i ≠ (a + k) % 128) → t.slot f i = s.slot f i) ∧
      t.hbm = s.hbm ∧ t.plots = s.plots ∧ t.mbx.cmds = s.mbx.cmds := by
  have hq : Quiet ((s.accepted f a d).wr Reg.MBX_RING_PTR_PI [f] p) t :=
    ht ▸ hedgeEvent_quiet (.refl _) p (by omega)
  have hslot (i : Nat) : t.slot f i = (s.accepted f a d).slot f i := slot_congr hq.slots f i
  refine ⟨?_, fun k hk => ?_, fun i _ hi => ?_, hq.hbm.trans ?_, hq.plots.trans ?_, hq.cmds.trans ?_⟩
  · have hkey := isPage_ringPi.offNotice f.isLt
    rw [ht, hedgeEvent_offRequest (.refl _ _) p (by omega) _ _ ⟨isPage_ringPi.key_lt f.isLt, hkey⟩, rd_wr_self]
    rfl
  · rw [hslot, slot_accepted s f a hd hk]
  · rw [hslot, slot_accepted_ne s f a hi]
  · rw [accepted_eq]; rfl
  · rw [accepted_eq]; rfl
  · rw [accepted_eq]; rfl

/-! ### Ring writes -/

/-- A state with another command ring. -/
def State.withRing (s : State) (m : FMap Byte) : State := { s with mbx := { s.mbx with ring := m } }

/-- The state once one byte of a ring write has been put, when its entry is FREE. -/
def State.ringPut (s : State) (f o : Nat) (b : Byte) : State :=
  if (s.slot f (o / 64)).state = .free then s.withRing (FMap.set s.mbx.ring 0 (f * 8192 + o) b) else s

theorem ringStore_cons (f : Nat) (s : State) (o : Nat) (b : Byte) (r : List Byte) :
    ringStore f s o (b :: r) = ringStore f (s.ringPut f o b) (o + 1) r := rfl

theorem ringPut_eq (s : State) (f o : Nat) (b : Byte) : ∃ m, s.ringPut f o b = s.withRing m := by
  unfold State.ringPut
  split
  · exact ⟨_, rfl⟩
  · exact ⟨s.mbx.ring, rfl⟩

/-- A ring write changes the ring alone. -/
theorem ringStore_eq (f : Nat) (s : State) (o : Nat) (l : List Byte) : ∃ m, ringStore f s o l = s.withRing m := by
  induction l generalizing s o with
  | nil => exact ⟨s.mbx.ring, rfl⟩
  | cons b r ih =>
    obtain ⟨m, hm⟩ := ringPut_eq s f o b
    obtain ⟨m', hm'⟩ := ih (s.ringPut f o b) (o + 1)
    exact ⟨m', by rw [ringStore_cons, hm', hm]; rfl⟩

theorem slot_ringPut (s : State) (f o : Nat) (b : Byte) (g i : Nat) : (s.ringPut f o b).slot g i = s.slot g i := by
  obtain ⟨m, hm⟩ := ringPut_eq s f o b
  rw [hm]
  rfl

theorem ringByte_ringPut_ne (s : State) {f o x : Nat} (b : Byte) (h : x ≠ o) :
    (s.ringPut f o b).ringByte f x = s.ringByte f x := by
  unfold State.ringPut
  split
  · exact FMap.get_set_ne _ _ _ _ (by omega)
  · rfl

theorem ringByte_ringPut_self (s : State) (f o : Nat) (b : Byte) :
    (s.ringPut f o b).ringByte f o = if (s.slot f (o / 64)).state = .free then b else s.ringByte f o := by
  unfold State.ringPut
  split
  · exact FMap.get_set_self _ _ _ _
  · rfl

/-- Bytes outside a ring write are unchanged. -/
theorem ringByte_ringStore_ne (f : Nat) (s : State) {o x : Nat} {l : List Byte} (h : x < o ∨ o + l.length ≤ x) :
    (ringStore f s o l).ringByte f x = s.ringByte f x := by
  induction l generalizing s o with
  | nil => rfl
  | cons b r ih =>
    rw [List.length_cons] at h
    rw [ringStore_cons, ih _ (by omega), ringByte_ringPut_ne _ _ (by omega)]

/-- A ring write puts the bytes of free entries. -/
theorem ringByte_ringStore (f : Nat) (s : State) (o : Nat) {l : List Byte} {k : Nat} (hk : k < l.length) :
    (ringStore f s o l).ringByte f (o + k) =
      if (s.slot f ((o + k) / 64)).state = .free then l.getD k 0 else s.ringByte f (o + k) := by
  induction l generalizing s o k with
  | nil => exact absurd hk (by simp)
  | cons b r ih =>
    rw [ringStore_cons]
    cases k with
    | zero => rw [ringByte_ringStore_ne _ _ (.inl (by omega))]; exact ringByte_ringPut_self s f o b
    | succ k =>
      have e : o + (k + 1) = o + 1 + k := by omega
      rw [List.length_cons] at hk
      rw [e, ih _ _ (by omega), slot_ringPut, ringByte_ringPut_ne _ _ (by omega), List.getD_cons_succ]

/-- An aligned ring write stores its bytes; a protected entry is at most logged besides. -/
theorem ringWriteOp_quiet {s : State} {f : Fin 16} (h : s.hostReach f = true) {o : Nat} {data : List Byte} (ho : o % 4 = 0)
    (h4 : data.length % 4 = 0) (hmin : 4 ≤ data.length) (hmax : data.length ≤ 512) (hend : o + data.length ≤ 8192) :
    Quiet (ringStore f s o data) (ringWriteOp s f o data) := by
  unfold ringWriteOp
  dsimp only
  rw [if_neg (by simp [h]), if_neg (by omega)]
  split
  · exact .refl _
  · exact hostViolation_quiet (.refl _) _ _ _ _ f.isLt

theorem ringWriteOp_misaligned {s : State} {f : Fin 16} (h : s.hostReach f = true) {o : Nat} (ho : o % 4 ≠ 0)
    (data : List Byte) :
    ringWriteOp s f o data = hostViolation s f vAccessWidth 0 (pageOffset f (0x2000 + o)) false := by
  unfold ringWriteOp
  dsimp only
  rw [if_neg (by simp [h]), if_pos (.inl ho)]

theorem ringWrite_stores {s t : State} {f : Fin 16} {o : Nat} {data : List Byte} (hq : Quiet (ringStore f s o data) t) :
    (∀ k, k < data.length → t.ringByte f (o + k) =
      (if (s.slot f ((o + k) / 64)).state = .free then data.getD k 0 else s.ringByte f (o + k))) ∧
    (∀ b, b < 8192 → (b < o ∨ o + data.length ≤ b) → t.ringByte f b = s.ringByte f b) ∧
    t.mbx.slots = s.mbx.slots ∧ t.hbm = s.hbm ∧ t.plots = s.plots ∧ t.mbx.cmds = s.mbx.cmds := by
  have hring (b : Nat) : t.ringByte f b = (ringStore f s o data).ringByte f b :=
    ringByte_congr (hq.part (fun u => u.mbx.ring) fun _ => rfl) f b
  obtain ⟨m, hm⟩ := ringStore_eq f s o data
  have kept {α : Type} (p : State → α) (hp : ∀ u : State, p u.still = p u) (hw : p (s.withRing m) = p s) : p t = p s := by
    rw [hq.part p hp, hm, hw]
  exact ⟨fun k hk => (hring _).trans (ringByte_ringStore f s o hk),
    fun b _ hb => (hring _).trans (ringByte_ringStore_ne f s hb),
    kept (fun u => u.mbx.slots) (fun _ => rfl) rfl, kept State.hbm (fun _ => rfl) rfl,
    kept State.plots (fun _ => rfl) rfl, kept (fun u => u.mbx.cmds) (fun _ => rfl) rfl⟩

/-! ### RETIRE -/

section
variable {s : State} {f : Fin 16} (h : s.hostReach f = true) {i : Nat} {tag : Nat}
include h

theorem retireOp_frees (hr : (s.slot f i).state = .ready) (ht : (s.slot f i).tag = tag) :
    retireOp s f i tag = s.setSlot f i {} := by
  unfold retireOp
  dsimp only
  rw [if_neg (by simp [h]), if_neg (not_not.mpr hr), if_neg (not_not.mpr ht)]

theorem retireOp_notReady (hr : (s.slot f i).state ≠ .ready) :
    retireOp s f i tag = hostViolation s f vRetireNotReady i (pageOffset f 0xC) false := by
  unfold retireOp
  dsimp only
  rw [if_neg (by simp [h]), if_pos hr]

theorem retireOp_mismatch (hr : (s.slot f i).state = .ready) (ht : (s.slot f i).tag ≠ tag) :
    retireOp s f i tag = hostViolation s f vRetireTagMismatch i (pageOffset f 0xC) false := by
  unfold retireOp
  dsimp only
  rw [if_neg (by simp [h]), if_neg (not_not.mpr hr), if_pos ht]

/-! ### RING_ENABLE and RING_DISABLE -/

theorem ringEnableOp_enables (hen : s.on Reg.MBX_RING_CTL_ENABLE [f] = false) :
    ringEnableOp s f = ((((s.wr Reg.MBX_RING_PTR_PI [f] 0).wr Reg.MBX_RING_PTR_CI [f] 0).freeSlots f).wr
      Reg.MBX_RING_CTL_ENABLE [f] 1) := if_neg (by simp [h, hen])

theorem ringDisableOp_disables (hen : s.on Reg.MBX_RING_CTL_ENABLE [f] = true) (hfree : s.slotsFree f 0 128 = true) :
    ringDisableOp s f = s.wr Reg.MBX_RING_CTL_ENABLE [f] 0 := by
  unfold ringDisableOp
  rw [if_neg (by simp [h, hen]), if_pos hfree]

theorem ringDisableOp_busy (hen : s.on Reg.MBX_RING_CTL_ENABLE [f] = true) (hfree : s.slotsFree f 0 128 = false) :
    ringDisableOp s f = hostViolation s f vRingBusy 0 (pageOffset f 0) false := by
  unfold ringDisableOp
  rw [if_neg (by simp [h, hen]), if_neg (by simp [hfree])]

end

/-- A ring that has been enabled: both indices zero, every slot of the function free. -/
theorem ringEnabled_shows {s t : State} {f : Fin 16}
    (ht : t = ((((s.wr Reg.MBX_RING_PTR_PI [f] 0).wr Reg.MBX_RING_PTR_CI [f] 0).freeSlots f).wr
      Reg.MBX_RING_CTL_ENABLE [f] 1)) :
    t.rd Reg.MBX_RING_CTL_ENABLE [f] = 1 ∧ t.rd Reg.MBX_RING_PTR_PI [f] = 0 ∧ t.rd Reg.MBX_RING_PTR_CI [f] = 0 ∧
      (∀ i, i < 128 → t.slot f i = {}) ∧ (∀ g i, g ≠ f.val → i < 128 → t.slot g i = s.slot g i) ∧
      t.hbm = s.hbm ∧ t.plots = s.plots ∧ t.mbx.cmds = s.mbx.cmds := by
  subst ht
  refine ⟨rd_wr_self _ _ _ _, ?_, ?_, fun i hi => slot_freeSlots_self _ _ hi, fun g i hg hi => slot_freeSlots_ne _ hg hi,
    rfl, rfl, rfl⟩
  · rw [rd_wr_ne _ _ (isPage_ringPi.key_ne isPage_ringEnable (.inr (by decide))), rd_freeSlots,
      rd_wr_ne _ _ (isPage_ringPi.key_ne isPage_ringCi (.inr (by decide)))]
    exact rd_wr_self _ _ _ _
  · rw [rd_wr_ne _ _ (isPage_ringCi.key_ne isPage_ringEnable (.inr (by decide))), rd_freeSlots]
    exact rd_wr_self _ _ _ _

/-- Settles O20: a doorbell's commands are accepted slot by slot, a ring write puts byte by byte, and what a violation or a
request does besides reaches no slot and no ring byte. -/
theorem ringsAndSlots : Obligations.RingsAndSlots := by
  intro s f h
  refine ⟨?doorbell, ?disabled, ?write, ?misaligned, ?retire, ?enable, ?disable⟩
  case doorbell =>
    intro p hen d
    refine ⟨fun h1 h128 hfree => ⟨_, rfl, ?_⟩, fun hbad h0 => ⟨_, rfl, ?_⟩⟩
    · have hrung := accepted_rung (p % 65536) h128 (doorbellOp_accepts h hen rfl h1 h128 hfree)
      rw [Nat.mod_mod] at hrung
      exact hrung
    · exact hostViolation_logs (doorbellOp_overruns h hen rfl h0 hbad)
  case disabled =>
    exact fun p hen => ⟨_, rfl, hostViolation_logs (doorbellOp_disabled h hen _)⟩
  case write =>
    exact fun o data ho h4 hmin hmax hend => ⟨_, rfl, ringWrite_stores (ringWriteOp_quiet h ho h4 hmin hmax hend)⟩
  case misaligned =>
    exact fun o data ho => ⟨_, rfl, hostViolation_logs (ringWriteOp_misaligned h ho data)⟩
  case retire =>
    exact fun i tag => ⟨fun hr ht => ⟨_, rfl, retireOp_frees h hr ht⟩,
      fun hr => ⟨_, rfl, hostViolation_logs (retireOp_notReady h hr)⟩,
      fun hr ht => ⟨_, rfl, hostViolation_logs (retireOp_mismatch h hr ht)⟩⟩
  case enable =>
    exact fun hen => ⟨_, rfl, ringEnabled_shows (ringEnableOp_enables h hen)⟩
  case disable =>
    refine fun hen => ⟨fun hfree => ⟨_, rfl, ?_⟩, fun hfree => ⟨_, rfl, ?_⟩⟩
    · exact wr_shows (ringDisableOp_disables h hen hfree)
    · have heq := ringDisableOp_busy h hen hfree
      obtain ⟨hq, hcode⟩ := hostViolation_logs heq
      refine ⟨hq, ?_, hcode⟩
      rw [heq, hostViolation_sameOn s _ _ _ _ f.isLt _ _ ⟨isPage_ringEnable.offNotice f.isLt, isPage_ringEnable.not_violKey⟩]
      exact rd_of_on rfl hen

end Sys2Proof.Machine
end

/-! ## The event queue's registers and MSI-X vectors (R167, R168, R169, R170, R172, R176) -/

section
namespace Sys2Proof.Machine

section
variable {s : State} {f : Fin 16} (h : s.hostReach f = true)
include h

/-! ### EVQ_ENABLE, EVQ_DISABLE and the counter clears -/

/-- A state with other counts of lost events. -/
def State.withLost (s : State) (m : FMap Nat) : State := { s with mbx := { s.mbx with lostSince := m } }

theorem evqEnableOp_enables (hen : s.on Reg.MBX_EVQ_CTL_ENABLE [f] = false) :
    evqEnableOp s f = (((((s.withLost (FMap.set s.mbx.lostSince 0 f 0)).wr Reg.MBX_EVQ_PI_PI [f] 0).wr
      Reg.MBX_EVQ_CI_CI [f] 0).wr Reg.MBX_EVQ_LOST_COUNT [f] 0).wr Reg.MBX_EVQ_CTL_ENABLE [f] 1) :=
  if_neg (by simp [h, hen])

theorem evqDisableOp_disables : evqDisableOp s f = s.wr Reg.MBX_EVQ_CTL_ENABLE [f] 0 := if_pos h

theorem violCntClearOp_clears : violCntClearOp s f = s.wr Reg.MBX_VIOL_CNT_COUNT [f] 0 := if_pos h

theorem evqLostClearOp_clears : evqLostClearOp s f = s.wr Reg.MBX_EVQ_LOST_COUNT [f] 0 := if_pos h

/-! ### EVQ_CI_WRITE -/

/-- With no loss to report a write of CI posts nothing. -/
theorem evqCiOp_takes {c : Nat} (hc : (c + 65536 - s.rd Reg.MBX_EVQ_CI_CI [f]) % 65536 ≤ s.evqDepth f)
    (hlost : FMap.get s.mbx.lostSince 0 f = 0) : evqCiOp s f c = s.wr Reg.MBX_EVQ_CI_CI [f] c := by
  have hpost : evqPostLost (s.wr Reg.MBX_EVQ_CI_CI [f] c) f = s.wr Reg.MBX_EVQ_CI_CI [f] c := if_pos (.inl hlost)
  unfold evqCiOp
  dsimp only
  rw [if_neg (by simp [h]), if_neg (Nat.not_lt.mpr hc), hpost]

theorem evqCiOp_refuses {c : Nat} (hc : s.evqDepth f < (c + 65536 - s.rd Reg.MBX_EVQ_CI_CI [f]) % 65536) :
    evqCiOp s f c = hostViolation s f vEvqCiRange c (pageOffset f 0x28) false := by
  unfold evqCiOp
  dsimp only
  rw [if_neg (by simp [h]), if_pos hc]

end

/-- An event queue that has been enabled: both indices and the lost count zero. -/
theorem evqEnabled_shows {s t : State} {f : Fin 16}
    (ht : t = (((((s.withLost (FMap.set s.mbx.lostSince 0 f 0)).wr Reg.MBX_EVQ_PI_PI [f] 0).wr
      Reg.MBX_EVQ_CI_CI [f] 0).wr Reg.MBX_EVQ_LOST_COUNT [f] 0).wr Reg.MBX_EVQ_CTL_ENABLE [f] 1)) :
    t.rd Reg.MBX_EVQ_CTL_ENABLE [f] = 1 ∧ t.rd Reg.MBX_EVQ_PI_PI [f] = 0 ∧ t.rd Reg.MBX_EVQ_CI_CI [f] = 0 ∧
      t.rd Reg.MBX_EVQ_LOST_COUNT [f] = 0 ∧ FMap.get t.mbx.lostSince 0 f = 0 ∧
      OnlyRegs (s.withLost t.mbx.lostSince) t [Reg.MBX_EVQ_CTL_ENABLE.key [f], Reg.MBX_EVQ_PI_PI.key [f],
        Reg.MBX_EVQ_CI_CI.key [f], Reg.MBX_EVQ_LOST_COUNT.key [f]] := by
  subst ht
  refine ⟨rd_wr_self _ _ _ _, ?_, ?_, ?_, FMap.get_set_self s.mbx.lostSince 0 f 0, ?_⟩
  · rw [rd_wr_ne _ _ (isPage_evqPi.key_ne isPage_evqEnable (.inr (by decide))),
      rd_wr_ne _ _ (isPage_evqPi.key_ne isPage_evqLost (.inr (by decide))),
      rd_wr_ne _ _ (isPage_evqPi.key_ne isPage_evqCi (.inr (by decide)))]
    exact rd_wr_self _ _ _ _
  · rw [rd_wr_ne _ _ (isPage_evqCi.key_ne isPage_evqEnable (.inr (by decide))),
      rd_wr_ne _ _ (isPage_evqCi.key_ne isPage_evqLost (.inr (by decide)))]
    exact rd_wr_self _ _ _ _
  · rw [rd_wr_ne _ _ (isPage_evqLost.key_ne isPage_evqEnable (.inr (by decide)))]
    exact rd_wr_self _ _ _ _
  · exact ((((OnlyRegs.refl _ _).wr _ _ _ (by simp)).wr _ _ _ (by simp)).wr _ _ _ (by simp)).wr _ _ _ (by simp)

/-- A CI beyond the unread entries is logged and CI stays. -/
theorem evqCiRefused_shows {s t : State} {f : Fin 16} {c : Nat}
    (ht : t = hostViolation s f vEvqCiRange c (pageOffset f 0x28) false) :
    Quiet s t ∧ t.rd Reg.MBX_EVQ_CI_CI [f] = s.rd Reg.MBX_EVQ_CI_CI [f] ∧
      t.rd Reg.MBX_STATUS_LAST_CODE [f] = vEvqCiRange := by
  obtain ⟨hq, hcode⟩ := hostViolation_logs ht
  refine ⟨hq, ?_, hcode⟩
  rw [ht, hostViolation_sameOn s _ _ _ _ f.isLt _ _ ⟨isPage_evqCi.offNotice f.isLt, isPage_evqCi.not_violKey⟩]

/-! ### MSIX_UNMASK -/

/-- The state in which a vector has been unmasked. -/
def State.unmasked (s : State) (f v : Nat) : State :=
  { s with mbx := { s.mbx with msix := FMap.put s.mbx.msix (f * 128 + v) { s.msixEntry f v with masked := false } } }

/-- The state in which a vector's pending bit has been cleared. -/
def State.withoutPending (s : State) (f v : Nat) : State :=
  { s with mbx := { s.mbx with msixPend := s.mbx.msixPend.filter (· != f * 128 + v) } }

theorem msixEntry_unmasked (s : State) (f v : Nat) :
    (s.unmasked f v).msixEntry f v = { s.msixEntry f v with masked := false } := FMap.get_put_self _ _ _ _

theorem withoutPending_clear (s : State) (f v : Nat) :
    (s.withoutPending f v).mbx.msixPend.contains (f * 128 + v) = false := by
  simp [State.withoutPending]

/-- The message of a vector that is not masked goes out. -/
theorem sendVector_sends {s : State} {f v : Nat} (h : (s.msixEntry f v).masked = false) : sendVector s f v =
    (s.wrapInc Reg.HDG_VSTAT_MSGS [f, v] 1).emit (.msix f v (s.msixEntry f v).addr (s.msixEntry f v).data) :=
  if_neg (by simp [h])

theorem msixUnmaskOp_idle {s : State} {f v : Nat} (h : s.hostReach f = true)
    (hp : s.mbx.msixPend.contains (f * 128 + v) = false) : msixUnmaskOp s f v = s.unmasked f v := by
  unfold msixUnmaskOp
  dsimp only
  rw [if_neg (by simp [h])]
  exact if_neg (Bool.eq_false_iff.mp hp)

theorem msixUnmaskOp_pending {s : State} {f v : Nat} (h : s.hostReach f = true)
    (hp : s.mbx.msixPend.contains (f * 128 + v) = true) :
    msixUnmaskOp s f v = (((s.unmasked f v).withoutPending f v).wrapInc Reg.HDG_VSTAT_MSGS [f, v] 1).emit
      (.msix f v (s.msixEntry f v).addr (s.msixEntry f v).data) := by
  have he : ((s.unmasked f v).withoutPending f v).msixEntry f v = { s.msixEntry f v with masked := false } :=
    msixEntry_unmasked s f v
  have hsend := sendVector_sends (s := (s.unmasked f v).withoutPending f v) (f := f) (v := v) (by rw [he])
  rw [he] at hsend
  unfold msixUnmaskOp
  dsimp only
  rw [if_neg (by simp [h]), if_pos hp]
  exact hsend

/-- Unmasking a vector sends the message that its pending bit stands for, and none otherwise. -/
theorem msixUnmaskOp_shows {s t : State} {f v : Nat} (h : s.hostReach f = true) (ht : t = msixUnmaskOp s f v) :
    t.msixEntry f v = { s.msixEntry f v with masked := false } ∧
      (s.mbx.msixPend.contains (f * 128 + v) = false → t.outs = s.outs ∧ t.regs = s.regs) ∧
      (s.mbx.msixPend.contains (f * 128 + v) = true → t.mbx.msixPend.contains (f * 128 + v) = false ∧
        t.outs = .msix f v (s.msixEntry f v).addr (s.msixEntry f v).data :: s.outs) ∧
      t.hbm = s.hbm ∧ t.plots = s.plots ∧ t.mbx.cmds = s.mbx.cmds ∧ t.mbx.slots = s.mbx.slots := by
  cases hp : s.mbx.msixPend.contains (f * 128 + v) with
  | false =>
    rw [ht, msixUnmaskOp_idle h hp]
    exact ⟨msixEntry_unmasked s f v, fun _ => ⟨rfl, rfl⟩, fun c => absurd c (by decide), rfl, rfl, rfl, rfl⟩
  | true =>
    rw [ht, msixUnmaskOp_pending h hp]
    exact ⟨msixEntry_unmasked s f v, fun c => absurd c (by decide),
      fun _ => ⟨withoutPending_clear (s.unmasked f v) f v, rfl⟩, rfl, rfl, rfl, rfl⟩

/-- Settles O21: each command is one write of its own registers, or one violation; a pending vector sends its message. -/
theorem eventQueueAndVectors : Obligations.EventQueueAndVectors := by
  intro s f h
  refine ⟨?enable, ?disable, ?ci, ?range, ?violations, ?lost, ?unmask⟩
  case enable => exact fun hen => ⟨_, rfl, evqEnabled_shows (evqEnableOp_enables h hen)⟩
  case disable => exact ⟨_, rfl, wr_shows (evqDisableOp_disables h)⟩
  case ci =>
    intro ci hc hlost
    obtain ⟨hrd, honly⟩ := wr_shows (evqCiOp_takes h hc hlost)
    exact ⟨_, rfl, hrd.trans (Nat.mod_mod ci 65536), honly⟩
  case range => exact fun ci hc => ⟨_, rfl, evqCiRefused_shows (evqCiOp_refuses h hc)⟩
  case violations => exact ⟨_, rfl, wr_shows (violCntClearOp_clears h)⟩
  case lost => exact ⟨_, rfl, wr_shows (evqLostClearOp_clears h)⟩
  case unmask => exact fun v => ⟨_, rfl, msixUnmaskOp_shows h rfl⟩

end Sys2Proof.Machine
end

/-! ## Fetching commands and posting results (R161, R162, R187, R190, R626) -/

section
namespace Sys2Proof.Machine

open Host (Outcome)

section
variable {s t : State}

/-! ### COMMAND_FETCH -/

/-- The functions in the order in which COMMAND_FETCH looks for work: from the one after the one served last. -/
def State.fetchOrder (s : State) : List Nat := (List.range 16).map (fun k => (s.mbx.lastServed + 1 + k) % 16)

/-- The command at CI of a function's ring. -/
def State.nextCmd (s : State) (f : Nat) : Cmd :=
  ⟨f, s.rd Reg.MBX_RING_PTR_CI [f] % 128, s.rd Reg.TOP_MBX_EPOCH_EPOCH [f],
    s.ringEntry f (s.rd Reg.MBX_RING_PTR_CI [f] % 128), false, false, none⟩

/-- A state with other fetched commands, and another function served last. -/
def State.afterFetch (s : State) (f : Nat) (l : List Cmd) : State :=
  { s with mbx := { s.mbx with lastServed := f, cmds := l } }

/-- Firmware may fetch: it runs outside a fabric reset, no barrier is unposted and fewer than 64 commands run. -/
structure State.MayFetch (s : State) : Prop where
  runs : s.fwRuns = true
  ready : s.rd Reg.TOP_BOOTSTAT_STATE [] = 2
  noBarrier : s.mbx.cmds.any Cmd.barrier = false
  room : (s.mbx.cmds.filter (fun c => !c.waiting)).length < 64

theorem fetchOp_eq (h : s.MayFetch) : fetchOp s = match s.fetchOrder.find? s.hasWork with
    | none => s
    | some f => (s.afterFetch f (s.mbx.cmds ++ [s.nextCmd f])).wr Reg.MBX_RING_PTR_CI [f] (s.rd Reg.MBX_RING_PTR_CI [f] + 1) := by
  have hgo : ¬ ((!s.fwRuns) = true ∨ s.rd Reg.TOP_BOOTSTAT_STATE [] ≠ 2 ∨ s.mbx.cmds.any Cmd.barrier = true ∨
      64 ≤ (s.mbx.cmds.filter (fun c => !c.waiting)).length) := by
    have hroom := h.room
    simp only [h.runs, h.ready, h.noBarrier, Bool.not_true, Bool.false_eq_true, ne_eq, not_true_eq_false, false_or]
    omega
  unfold fetchOp
  exact if_neg hgo

theorem fetchOp_idle (h : s.MayFetch) (hnone : s.fetchOrder.find? s.hasWork = none) : fetchOp s = s := by
  rw [fetchOp_eq h, hnone]

theorem fetchOp_takes (h : s.MayFetch) {f : Nat} (hsome : s.fetchOrder.find? s.hasWork = some f) (ht : t = fetchOp s) :
    t.rd Reg.MBX_RING_PTR_CI [f] = (s.rd Reg.MBX_RING_PTR_CI [f] + 1) % 65536 ∧ t.mbx.lastServed = f ∧
      t.mbx.cmds = s.mbx.cmds ++ [s.nextCmd f] ∧
      OnlyRegs (s.afterFetch f t.mbx.cmds) t [Reg.MBX_RING_PTR_CI.key [f]] := by
  rw [fetchOp_eq h, hsome] at ht
  obtain ⟨hrd, honly⟩ := wr_shows ht
  have hmbx : t.mbx = (s.afterFetch f (s.mbx.cmds ++ [s.nextCmd f])).mbx := by rw [ht]; rfl
  rw [hmbx]
  exact ⟨hrd, rfl, rfl, honly⟩

/-! ### RESULT_POST -/

/-- The state that has forgotten the fetched command of a slot. -/
def State.forgotten (s : State) (f i : Nat) : State :=
  { s with mbx := { s.mbx with cmds := s.mbx.cmds.filter (fun d => !(d.func == f && d.slot == i)) } }

theorem cmd?_forgotten (s : State) (f i : Nat) : (s.forgotten f i).cmd? f i = none := by
  refine List.find?_eq_none.mpr fun d hd => ?_
  have hkept := (List.mem_filter.mp hd).2
  rw [Bool.not_eq_true'] at hkept
  exact Bool.eq_false_iff.mp hkept

/-- The state in which a result has been handed to its slot and its command forgotten. -/
def State.posted (s : State) (f i : Nat) (c : Cmd) (st : Nat) (body : List Byte) : State :=
  (s.forgotten f i).setSlot f i
    { s.slot f i with state := .ready, status := st, body := c.postedBody s.now st body }

theorem cmd?_congr (h : t.mbx.cmds = s.mbx.cmds) (f i : Nat) : t.cmd? f i = s.cmd? f i := by
  unfold State.cmd?
  rw [h]

section
variable {f : Fin 16} {i : Fin 128} {c : Cmd} {st : Nat} {body : List Byte}
  (hfw : s.fwRuns = true) (hc : s.cmd? f i = some c) (hr : c.result = some (st, body))
include hfw hc hr

/-- A result reaches its slot when its epoch is current and the slot is BUSY, and its command is forgotten in any case. -/
theorem resultPostOp_eq : resultPostOp s f i =
    if c.epoch ≠ s.rd Reg.TOP_MBX_EPOCH_EPOCH [f] ∨ (s.slot f i).state ≠ .busy then s.forgotten f i
    else if (s.slot f i).notify then
      vectorRequest (s.posted f i c st body) f 0 ((s.posted f i c st body).vec0Idle f i)
    else s.posted f i c st body := by
  unfold resultPostOp
  simp only [hc, hr]
  exact if_neg (by simp [hfw])

/-- A result under an older mailbox epoch is discarded with its command. -/
theorem resultPostOp_discards (he : c.epoch ≠ s.rd Reg.TOP_MBX_EPOCH_EPOCH [f]) :
    resultPostOp s f i = s.forgotten f i := by
  rw [resultPostOp_eq hfw hc hr, if_pos (.inl he)]

/-- The slot of a BUSY command becomes READY, and at most vector 0 is requested besides. -/
theorem resultPostOp_posts (he : c.epoch = s.rd Reg.TOP_MBX_EPOCH_EPOCH [f]) (hb : (s.slot f i).state = .busy) :
    Quiet (s.posted f i c st body) (resultPostOp s f i) := by
  rw [resultPostOp_eq hfw hc hr, if_neg (by simp [he, hb])]
  split
  · exact vectorRequest_quiet (.refl _) _ f.isLt (by decide)
  · exact .refl _

end

end

/-- Settles O22: the fetch is one write of CI beside the list of commands; a posted result is the slot made READY, and the
request of vector 0 reaches no slot and no command. -/
theorem fetchAndPost : Obligations.FetchAndPost := by
  intro s hfw
  refine ⟨fun hready hbar hroom => ?fetch, fun f i c st body hc hr => ⟨fun he hb => ?post, fun he => ?discard⟩⟩
  case fetch =>
    have h : s.MayFetch := ⟨hfw, hready, hbar, hroom⟩
    exact ⟨fun hnone => ⟨_, rfl, fetchOp_idle h hnone⟩, fun f hsome => ⟨_, rfl, fetchOp_takes h hsome rfl⟩⟩
  case post =>
    have hq := resultPostOp_posts hfw hc hr he hb
    refine ⟨_, rfl, ?_, ?_, fun k _ hk => ?_, hq.hbm, hq.plots, hq.jobs⟩
    · rw [cmd?_congr hq.cmds]
      exact cmd?_forgotten s f i
    · exact (slot_congr hq.slots f i).trans (slot_setSlot_self _ _ _ _)
    · exact (slot_congr hq.slots f k).trans (slot_setSlot_ne _ _ hk)
  case discard =>
    exact ⟨_, congrArg Outcome.next (resultPostOp_discards hfw hc hr he), cmd?_forgotten s f i, rfl, rfl, rfl, rfl, rfl⟩

end Sys2Proof.Machine
end

/-! ## BAR2: its size, its windows and accesses through one aperture (R177, R178, R179) -/

section
namespace Sys2Proof.Machine

open Host (Outcome)

section
variable {s t : State}

/-! ### BAR2_RESIZE -/

/-- The registers of the PF's windows. -/
def pfWindowKeys : List Nat := (List.range 16).flatMap (fun k =>
  [Reg.MBX_WIN_BASE.key [0, k], Reg.MBX_WIN_EN.key [0, k], Reg.MBX_WIN_WRITE_EN.key [0, k]])

theorem mem_pfWindowKeys {k x : Nat} (hk : k ∈ List.range 16) (hx : x ∈ [Reg.MBX_WIN_BASE.key [0, k],
    Reg.MBX_WIN_EN.key [0, k], Reg.MBX_WIN_WRITE_EN.key [0, k]]) : x ∈ pfWindowKeys :=
  List.mem_flatMap.mpr ⟨k, hk, hx⟩

/-- Remapping the PF's apertures writes its window registers alone. -/
theorem remapPf_onlyRegs (s : State) : OnlyRegs s (remapPf s) pfWindowKeys := by
  refine OnlyRegs.foldl _ _ (fun u k hk hu => ?_) (.refl s _)
  exact ((hu.wr _ _ _ (mem_pfWindowKeys hk (by simp))).wrb _ _ _ (mem_pfWindowKeys hk (by simp))).wrb _ _ _
    (mem_pfWindowKeys hk (by simp))

theorem bar2ResizeOp_takes {n : Nat} (h30 : 30 ≤ n) (h38 : n ≤ 38) (h : s.hostReach 0 = true) :
    bar2ResizeOp s n = remapPf { s with mbx := { s.mbx with bar2Log2 := n } } := by
  refine if_neg ?_
  simp only [h, Bool.not_true, Bool.false_eq_true, or_false]
  omega

/-! ### WIN_SET -/

section
variable {f i : Nat} {c : Cmd} (h : Startable s f i 0x106 c)
include h

theorem winSetOp_noFunction (hg : 15 < c.fld 8 1) :
    Answers s (winSetOp s f i) f i .badParam (failBody 8 0 (c.fld 8 1)) := by
  unfold winSetOp
  rw [acs_starts h, if_pos hg]
  exact fail_answers h.fetched _ _ _ _

theorem winSetOp_noAperture (hg : c.fld 8 1 ≤ 15) (hk : 15 < c.fld 9 1) :
    Answers s (winSetOp s f i) f i .badParam (failBody 9 0 (c.fld 9 1)) := by
  unfold winSetOp
  rw [acs_starts h, if_neg (Nat.not_lt.mpr hg), if_pos hk]
  exact fail_answers h.fetched _ _ _ _

/-- The state in which the window that a WIN_SET names has been written. -/
def State.windowSet (s : State) (c : Cmd) : State :=
  ((s.wr Reg.MBX_WIN_BASE [c.fld 8 1, c.fld 9 1] (c.fld 12 4)).wrb Reg.MBX_WIN_EN [c.fld 8 1, c.fld 9 1]
    (bitOf (c.fld 10 1) 0)).wrb Reg.MBX_WIN_WRITE_EN [c.fld 8 1, c.fld 9 1] (bitOf (c.fld 10 1) 1)

theorem winSetOp_sets (hg : c.fld 8 1 ≤ 15) (hk : c.fld 9 1 ≤ 15)
    (haligned : c.fld 12 4 * 2 ^ 26 % s.apertureBytes (c.fld 8 1) = 0) (hin : c.fld 12 4 * 2 ^ 26 ≤ hbmBytes)
    (hholds : bitOf (c.fld 10 1) 0 = true →
      s.holdsHbm (c.fld 8 1) (c.fld 12 4 * 2 ^ 26) (s.apertureBytes (c.fld 8 1)) = true) :
    Answers (s.windowSet c) (winSetOp s f i) f i .ok [] := by
  have hbase : ¬ (c.fld 12 4 * 2 ^ 26 % s.apertureBytes (c.fld 8 1) ≠ 0 ∨ hbmBytes < c.fld 12 4 * 2 ^ 26) := by
    rintro (hb | hb)
    · exact hb haligned
    · exact absurd hb (Nat.not_lt.mpr hin)
  have hassigned : ¬ (bitOf (c.fld 10 1) 0 = true ∧
      (!s.holdsHbm (c.fld 8 1) (c.fld 12 4 * 2 ^ 26) (s.apertureBytes (c.fld 8 1))) = true) := by
    rintro ⟨hen, hno⟩
    rw [hholds hen] at hno
    exact absurd hno (by decide)
  unfold winSetOp
  rw [acs_starts h, if_neg (Nat.not_lt.mpr hg), if_neg (Nat.not_lt.mpr hk), if_neg hbase, if_neg hassigned]
  exact done_answers (s := s.windowSet c) h.fetched []

end

/-! ### Accesses within one aperture -/

theorem bar2Parts_zero (size fuel off before : Nat) : bar2Parts size fuel off 0 before = [] := by
  cases fuel with
  | zero => rfl
  | succ _ => rfl

/-- An access within one aperture has one part. -/
theorem bar2Parts_single {size k x n : Nat} (hn : 0 < n) (hx : x + n ≤ size) :
    bar2Parts size (n + 1) (k * size + x) n 0 = [(k, x, n, 0)] := by
  obtain ⟨m, rfl⟩ : ∃ m, n = m + 1 := ⟨n - 1, by omega⟩
  have hlt : x < size := by omega
  have hdiv : (k * size + x) / size = k := by
    rw [Nat.mul_comm, Nat.mul_add_div (by omega), Nat.div_eq_of_lt hlt, Nat.add_zero]
  have hmod : (k * size + x) % size = x := by rw [Nat.mul_comm, Nat.mul_add_mod, Nat.mod_eq_of_lt hlt]
  have hmin : min (m + 1) (size - x) = m + 1 := by omega
  rw [bar2Parts]
  · simp only [hdiv, hmod, hmin, Nat.sub_self, bar2Parts_zero]
  · omega

theorem bar2Size_covers {f k x n : Nat} (hk : k < 16) (hx : x + n ≤ s.apertureBytes f) :
    ¬ s.bar2Size f < k * s.apertureBytes f + x + n := by
  have hle : (k + 1) * s.apertureBytes f ≤ 16 * s.apertureBytes f := Nat.mul_le_mul_right _ hk
  have hsucc : (k + 1) * s.apertureBytes f = k * s.apertureBytes f + s.apertureBytes f := Nat.succ_mul _ _
  unfold State.bar2Size
  omega

/-! ### Reads -/

section
variable {f k x n : Nat} (h : s.hostReach f = true) (hk : k < 16) (hn : 0 < n) (hx : x + n ≤ s.apertureBytes f)
include h hk hn hx

theorem bar2ReadOp_single : bar2ReadOp s f (k * s.apertureBytes f + x) n =
    let r := bar2ReadPart f (k * s.apertureBytes f + x) ([], false, s) (k, x, n, 0)
    r.2.2.emit (.completion f r.1 r.2.1) := by
  unfold bar2ReadOp
  rw [if_neg (bar2Size_covers hk hx), if_neg (by simp [h]), bar2Parts_single hn hx]
  rfl

/-- A read of working HBM free of poison completes with its bytes and moves traffic counts alone. -/
theorem bar2ReadOp_reads {a : Nat} (ha : s.bar2Target f k x n false = some a) (hp : s.hbmPoisoned a n = false) :
    bar2ReadOp s f (k * s.apertureBytes f + x) n = (bulk s f a n).emit (.completion f (s.hbmRead a n) false) := by
  have hpart : bar2ReadPart f (k * s.apertureBytes f + x) ([], false, s) (k, x, n, 0) =
      (s.hbmRead a n, false, bulk s f a n) := by
    unfold bar2ReadPart
    simp only [ha, hp, Bool.false_eq_true, if_false, List.nil_append, Bool.or_false]
    rfl
  rw [bar2ReadOp_single h hk hn hx, hpart]

theorem bar2ReadOp_unmapped (ha : s.bar2Target f k x n false = none) :
    bar2ReadOp s f (k * s.apertureBytes f + x) n =
      (hostViolation s f vWinUnmapped k (k * s.apertureBytes f + x) true).emit (.completion f (fill n 0) false) := by
  have hpart : bar2ReadPart f (k * s.apertureBytes f + x) ([], false, s) (k, x, n, 0) =
      (fill n 0, false, hostViolation s f vWinUnmapped k (k * s.apertureBytes f + x) true) := by
    unfold bar2ReadPart
    simp only [ha, List.nil_append]
    rfl
  rw [bar2ReadOp_single h hk hn hx, hpart]

end

/-- A read through an aperture that maps nothing: zeros, and a logged violation. -/
theorem bar2Unmapped_shows {f : Fin 16} {k off : Nat} {l : List Byte}
    (ht : t = (hostViolation s f vWinUnmapped k off true).emit (.completion f l false)) :
    t.outs.head? = some (.completion f l false) ∧ t.rd Reg.MBX_STATUS_LAST_CODE [f] = vWinUnmapped ∧ t.hbm = s.hbm := by
  obtain ⟨hq, hcode⟩ := hostViolation_logs (s := s) (f := f) (detail := k) (offset := off) (read := true)
    (code := vWinUnmapped) rfl
  rw [ht]
  exact ⟨rfl, hcode, hq.hbm⟩

/-! ### Writes -/

/-- Putting bytes under enables changes HBM alone. -/
theorem hbmPutEn_eq (s : State) (a : Nat) (l : List (Byte × Bool)) : ∃ m, hbmPutEn s a l = { s with hbm := m } := by
  induction l generalizing s a with
  | nil => exact ⟨s.hbm, rfl⟩
  | cons e r ih =>
    obtain ⟨b, en⟩ := e
    cases en with
    | false => exact ih s (a + 1)
    | true =>
      obtain ⟨m, hm⟩ := ih (hbmPutByte s a b) (a + 1)
      exact ⟨m, hm⟩

theorem hbmPutEn_cons (s : State) (a : Nat) (b : Byte) (en : Bool) (r : List (Byte × Bool)) :
    hbmPutEn s a ((b, en) :: r) = hbmPutEn (if en then hbmPutByte s a b else s) (a + 1) r := rfl

/-- Bytes outside a write are unchanged. -/
theorem hbmByte_hbmPutEn_ne (s : State) {a x : Nat} {l : List (Byte × Bool)} (h : x < a ∨ a + l.length ≤ x) :
    (hbmPutEn s a l).hbmByte x = s.hbmByte x := by
  induction l generalizing s a with
  | nil => rfl
  | cons e r ih =>
    obtain ⟨b, en⟩ := e
    rw [List.length_cons] at h
    rw [hbmPutEn_cons, ih _ (by omega)]
    cases en with
    | false => rfl
    | true => exact hbmByte_put_ne s b (by omega)

/-- A write puts its enabled bytes. -/
theorem hbmByte_hbmPutEn (s : State) (a : Nat) {l : List (Byte × Bool)} {j : Nat} (hj : j < l.length) :
    (hbmPutEn s a l).hbmByte (a + j) = if l[j].2 then l[j].1 else s.hbmByte (a + j) := by
  induction l generalizing s a j with
  | nil => exact absurd hj (by simp)
  | cons e r ih =>
    obtain ⟨b, en⟩ := e
    rw [hbmPutEn_cons]
    cases j with
    | zero =>
      rw [hbmByte_hbmPutEn_ne _ (.inl (by omega))]
      cases en with
      | false => rfl
      | true => exact hbmByte_put_self s a b
    | succ j =>
      have hnext : a + (j + 1) = a + 1 + j := by omega
      have hkept : (if en then hbmPutByte s a b else s).hbmByte (a + 1 + j) = s.hbmByte (a + 1 + j) := by
        cases en with
        | false => rfl
        | true => exact hbmByte_put_ne s b (by omega)
      rw [hnext, ih _ _ (by simpa using hj), hkept]
      rfl

/-- The bytes of a BAR2 write with their enables. -/
def bytesEnabled (data : List Byte) (en : List Bool) : List (Byte × Bool) :=
  data.zipIdx.map (fun e => (e.1, en.getD e.2 true))

theorem bytesEnabled_length (data : List Byte) (en : List Bool) : (bytesEnabled data en).length = data.length := by
  simp [bytesEnabled]

theorem bytesEnabled_get {data : List Byte} {en : List Bool} {j : Nat} (hj : j < (bytesEnabled data en).length) :
    (bytesEnabled data en)[j] = (data.getD j 0, en.getD j true) := by
  rw [bytesEnabled_length] at hj
  simp [bytesEnabled, hj]

theorem bar2WriteOp_writes {f k x a : Nat} {data : List Byte} (en : List Bool) (h : s.hostReach f = true) (hk : k < 16)
    (hn : 0 < data.length) (hx : x + data.length ≤ s.apertureBytes f)
    (ha : s.bar2Target f k x data.length true = some a) :
    bar2WriteOp s f (k * s.apertureBytes f + x) data en =
      hbmWriteEn (bulk s f a data.length) a (bytesEnabled data en) := by
  have htake : ((bytesEnabled data en).drop 0).take data.length = bytesEnabled data en :=
    List.take_of_length_le (by rw [List.drop_zero, bytesEnabled_length])
  have hpart : bar2WritePart f (k * s.apertureBytes f + x) (bytesEnabled data en) s (k, x, data.length, 0) =
      hbmWriteEn (bulk s f a data.length) a (bytesEnabled data en) := by
    unfold bar2WritePart
    simp only [ha, htake]
  unfold bar2WriteOp
  dsimp only
  rw [if_neg (by simp only [h, bar2Size_covers hk hx]; decide), bar2Parts_single hn hx]
  exact hpart

/-- A BAR2 write through one mapped aperture puts the enabled bytes and no others. -/
theorem bar2Written_shows {f a n : Nat} {data : List Byte} {en : List Bool} (hlen : data.length = n)
    (ht : t = hbmWriteEn (bulk s f a n) a (bytesEnabled data en)) :
    (∀ j, j < n → t.hbmByte (a + j) = (if en.getD j true then data.getD j 0 else s.hbmByte (a + j))) ∧
      (∀ b, b < a ∨ a + n ≤ b → t.hbmByte b = s.hbmByte b) ∧ t.plots = s.plots ∧ t.mbx = s.mbx := by
  have hbytes (b : Nat) : t.hbmByte b = (hbmPutEn (bulk s f a n) a (bytesEnabled data en)).hbmByte b := by rw [ht]; rfl
  have hl : (bytesEnabled data en).length = n := (bytesEnabled_length data en).trans hlen
  obtain ⟨m, hm⟩ := hbmPutEn_eq (bulk s f a n) a (bytesEnabled data en)
  refine ⟨fun j hj => ?_, fun b hb => ?_, ?_, ?_⟩
  · rw [hbytes, hbmByte_hbmPutEn _ _ (by rw [hl]; exact hj), bytesEnabled_get]
    rfl
  · rw [hbytes, hbmByte_hbmPutEn_ne _ (by rw [hl]; exact hb)]
    rfl
  · rw [ht]; unfold hbmWriteEn; rw [hm]; rfl
  · rw [ht]; unfold hbmWriteEn; rw [hm]; rfl

end

/-- Settles O14: a resize rewrites the PF's windows alone, WIN_SET is its table of checks, and an access within one aperture
is one part, which lands where the window says or nowhere. -/
theorem windowsAndApertures : Obligations.WindowsAndApertures := by
  intro s f
  refine ⟨fun n h30 h38 h0 => ?resize, fun i c h => ?set, fun k x n h hk hn hx => ⟨fun a ha hp => ?read, fun ha => ?unmapped,
    fun data en a hlen ha => ?write⟩⟩
  case resize =>
    have honly := remapPf_onlyRegs { s with mbx := { s.mbx with bar2Log2 := n } }
    refine ⟨_, congrArg Outcome.next (bar2ResizeOp_takes h30 h38 h0), ?_, honly⟩
    exact honly.part (fun u => u.mbx.bar2Log2) fun _ => rfl
  case set =>
    exact ⟨fun hg => ⟨_, rfl, winSetOp_noFunction h hg⟩, fun hg hk => ⟨_, rfl, winSetOp_noAperture h hg hk⟩,
      fun hg hk haligned hin hholds => ⟨_, rfl, winSetOp_sets h hg hk haligned hin hholds⟩⟩
  case read =>
    exact ⟨_, congrArg Outcome.next (bar2ReadOp_reads h hk hn hx ha hp), rfl, rfl, rfl, rfl⟩
  case unmapped =>
    exact ⟨_, rfl, bar2Unmapped_shows (bar2ReadOp_unmapped h hk hn hx ha)⟩
  case write =>
    subst hlen
    exact ⟨_, rfl, bar2Written_shows rfl (bar2WriteOp_writes en h hk hn hx ha)⟩

end Sys2Proof.Machine
end

/-! ## Bodies of results as fields, and commands that answer at once (R183, R184) -/

section
namespace Sys2Proof.Machine

/-! ### Fields of a body -/

/-- A field past the first part of a body is a field of the rest. -/
theorem fieldAt_append_right {l r : List Byte} {o n : Nat} (h : l.length ≤ o) :
    fieldAt (l ++ r) o n = fieldAt r (o - l.length) n := by
  unfold fieldAt
  rw [List.drop_append, List.drop_eq_nil_of_le h, List.nil_append]

@[simp] theorem fieldAt_leBytes_skip {m v o n : Nat} (r : List Byte) (h : m ≤ o) :
    fieldAt (leBytes m v ++ r) o n = fieldAt r (o - m) n := by
  rw [fieldAt_append_right (by rwa [leBytes_length]), leBytes_length]

/-- A number stored in little-endian bytes reads back as it was cut to them (R8). -/
@[simp] theorem fieldAt_leBytes_head (n v : Nat) (r : List Byte) : fieldAt (leBytes n v ++ r) 0 n = v % 256 ^ n := by
  unfold fieldAt
  rw [List.drop_zero, List.take_left' (leBytes_length n v), leNat_leBytes]

@[simp] theorem fieldAt_leBytes (n v : Nat) : fieldAt (leBytes n v) 0 n = v % 256 ^ n := by
  simpa using fieldAt_leBytes_head n v []

@[simp] theorem fill_length (n : Nat) (b : Byte) : (fill n b).length = n := List.length_replicate

/-! ### Commands that answer at once -/

section
variable {s : State} {f i op : Nat} {c : Cmd} {act : State → Cmd → State}

/-- A command that may run and whose action stages a result answers it. -/
theorem acs_done (h : Startable s f i op c) {body : List Byte} (ha : act s c = done s c body) :
    Answers s (acs s f i op act) f i .ok body := by
  rw [acs_starts h, ha]
  exact done_answers h.fetched body

/-- A command that may run and whose action stages a failure answers it. -/
theorem acs_fail (h : Startable s f i op c) {st : Status} {field sub value : Nat} (ha : act s c = fail s c st field sub value) :
    Answers s (acs s f i op act) f i st (failBody field sub value) := by
  rw [acs_starts h, ha]
  exact fail_answers h.fetched st field sub value

/-- The place of a command that may run. -/
theorem Startable.place (h : Startable s f i op c) : c.func = f ∧ c.slot = i := cmd?_place h.fetched

end

end Sys2Proof.Machine
end

/-! ## The commands that only report (R184, R194, R205, R215, R217, R218, R223, R418) -/

section
namespace Sys2Proof.Machine

open Host (Outcome)

section
variable {s : State} {f i : Nat} {c : Cmd}

/-! ### What the bodies hold -/

theorem devInfoBody_fields (s : State) {f : Nat} (hf : f < 16) : (s.devInfoBody f).length = 40 ∧
    fieldAt (s.devInfoBody f) 0 8 = s.boot.serial % 2 ^ 64 ∧ fieldAt (s.devInfoBody f) 8 1 = s.role ∧
    fieldAt (s.devInfoBody f) 9 1 = s.rd Reg.TOP_MODE_MODE [] ∧
    fieldAt (s.devInfoBody f) 12 2 = s.reportPlots f % 2 ^ 16 ∧ fieldAt (s.devInfoBody f) 14 1 = f ∧
    fieldAt (s.devInfoBody f) 20 1 = s.link.dieId % 256 ∧
    fieldAt (s.devInfoBody f) 24 8 = s.hbmAssigned f % 2 ^ 64 ∧ fieldAt (s.devInfoBody f) 32 8 = s.now := by
  have hrole : s.role < 2 ^ 2 := rd_lt s Reg.TOP_STRAP_ROLE []
  have hmode : s.rd Reg.TOP_MODE_MODE [] < 2 ^ 2 := rd_lt s _ _
  have hnow := now_lt s
  simp [State.devInfoBody, leBytes_length]
  omega

theorem pwrStatusBody_fields (s : State) : s.pwrStatusBody.length = 32 ∧
    fieldAt s.pwrStatusBody 0 1 = s.rd Reg.TOP_PINSTAT_VID [] ∧ fieldAt s.pwrStatusBody 2 2 = s.capNow ∧
    fieldAt s.pwrStatusBody 8 4 = s.rd Reg.PWR_IMON_BOARD [] * 1200000 / 4096 % 2 ^ 32 ∧
    fieldAt s.pwrStatusBody 16 8 = s.rd Reg.PWR_IV_OPEN_TB_TB [] := by
  have hvid : s.rd Reg.TOP_PINSTAT_VID [] < 2 ^ 8 := rd_lt s _ _
  have hcap : s.capNow < 2 ^ 16 :=
    (min_le_left _ _).trans_lt ((min_le_left _ _).trans_lt (rd_lt s Reg.PWR_BUDGET_BUDGET_W []))
  have htb : s.rd Reg.PWR_IV_OPEN_TB_TB [] < 2 ^ 64 := rd_lt s _ _
  simp [State.pwrStatusBody, leBytes_length]
  omega

theorem portBytes_length (s : State) (n : Nat) : (s.portBytes n).length = 12 := by
  simp [State.portBytes, leBytes_length]

/-- The fifth of the flags of a port is bit 4 of their byte. -/
theorem bitOf_portFlags : ∀ a b c d e x y : Bool, bitOf (((if a then 2 ^ 0 else 0) + (if b then 2 ^ 1 else 0)
    + (if c then 2 ^ 2 else 0) + (if d then 2 ^ 3 else 0) + (if e then 2 ^ 4 else 0) + (if x then 2 ^ 5 else 0)
    + (if y then 2 ^ 6 else 0)) % 256 ^ 1) 4 = e := by decide

theorem portBytes_fields (s : State) (n : Nat) (r : List Byte) : fieldAt (s.portBytes n ++ r) 0 1 = s.portState n % 256 ∧
    fieldAt (s.portBytes n ++ r) 2 1 = s.rd Reg.CSK_PARTNER_ID_DIE [n] % 256 ∧
    bitOf (fieldAt (s.portBytes n ++ r) 3 1) 4 = s.on Reg.CSK_STAT_MISWIRED [n] ∧
    fieldAt (s.portBytes n ++ r) 4 8 = s.rd Reg.CSK_PARTNER_SERIAL [n] % 2 ^ 64 := by
  simp only [State.portBytes, List.append_assoc, fieldAt_leBytes_skip, fieldAt_leBytes_head, Nat.reduceLeDiff, Nat.reduceSub]
  exact ⟨rfl, rfl, bitOf_portFlags .., rfl⟩

/-- Pieces of one length: past the first `n` pieces come the pieces of the rest. -/
theorem drop_flatMap_uniform {α β : Type} (g : α → List β) {k : Nat} (hg : ∀ x, (g x).length = k) (l : List α) (n : Nat) :
    (l.flatMap g).drop (k * n) = (l.drop n).flatMap g := by
  induction n generalizing l with
  | zero => rfl
  | succ n ih =>
    cases l with
    | nil => simp
    | cons x l =>
      rw [List.flatMap_cons, List.drop_append, hg, List.drop_eq_nil_of_le (by rw [hg, Nat.mul_succ]; omega), List.nil_append,
        Nat.mul_succ, Nat.add_sub_cancel, ih, List.drop_succ_cons]

/-- The record of port `n` starts at byte 12n of LINK_STATUS. -/
theorem linkStatus_record (s : State) {n : Nat} (hn : n < 8) :
    ∃ r, ∀ o k, fieldAt ((List.range 8).flatMap s.portBytes) (12 * n + o) k = fieldAt (s.portBytes n ++ r) o k := by
  have hn : n < (List.range 8).length := by simpa using hn
  refine ⟨((List.range 8).drop (n + 1)).flatMap s.portBytes, fun o k => ?_⟩
  unfold fieldAt
  rw [← List.drop_drop, drop_flatMap_uniform _ (portBytes_length s), List.drop_eq_getElem_cons hn, List.getElem_range,
    List.flatMap_cons]

/-! ### The commands -/

theorem jobStatusOp_job (h : Startable s f i 0x207 c) {j : Nat} (hj : s.jobNamed f (c.fld 8 2) = some j) :
    Answers s (jobStatusOp s f i) f i .ok (leBytes 1 (s.job j).state ++ leBytes 1 0 ++ leBytes 2 (s.job j).final
      ++ leBytes 4 ((s.job j).batches.filter (fun x => x.phase < 2)).length ++ leBytes 8 (s.job j).doneBatches
      ++ leBytes 8 (s.job j).changedAt) :=
  acs_done h (by simp only [withJob, h.place.1, hj])

theorem jobStatusOp_noJob (h : Startable s f i 0x207 c) (hj : s.jobNamed f (c.fld 8 2) = none) :
    Answers s (jobStatusOp s f i) f i .noJob (failBody 8 0 (c.fld 8 2)) :=
  acs_fail h (by simp only [withJob, h.place.1, hj])

/-- The state in which TBL_STATS answers: with its flag set the table's counters are zero. -/
def State.statsTaken (s : State) (c : Cmd) (x : Nat) : State :=
  if bitOf (c.fld 10 1) 0 then s.setTbl x { s.tbl x with drops := 0, empties := 0, aborts := 0 } else s

theorem statsTaken_cmd? (s : State) (c : Cmd) (x g k : Nat) : (s.statsTaken c x).cmd? g k = s.cmd? g k := by
  unfold State.statsTaken
  split <;> rfl

theorem tblStatsOp_table (h : Startable s f i 0x305 c) {x : Nat} (hx : s.tableOf f (c.fld 8 2) = some x) :
    Answers (s.statsTaken c x) (tblStatsOp s f i) f i .ok (leBytes 8 (s.tbl x).drops ++ leBytes 8 (s.tbl x).empties
      ++ leBytes 8 (s.tbl x).aborts ++ leBytes 4 (s.tbl x).version ++ fill 4 0) := by
  unfold tblStatsOp
  rw [acs_starts h]
  simp only [withTable, h.place.1, hx]
  exact done_answers ((statsTaken_cmd? s c x f i).trans h.fetched) _

theorem tblStatsOp_noTable (h : Startable s f i 0x305 c) (hx : s.tableOf f (c.fld 8 2) = none) :
    Answers s (tblStatsOp s f i) f i .noTable (failBody 8 0 (c.fld 8 2)) :=
  acs_fail h (by simp only [withTable, h.place.1, hx])

theorem calStatsOp_noPlan (h : Startable s f i 0x402 c) (hp : c.fld 10 1 ≤ 7) (he : s.calEntry c = none) :
    Answers s (calStatsOp s f i) f i .noPlan (failBody 8 0 (c.fld 8 2)) :=
  acs_fail h (by rw [if_neg (Nat.not_lt.mpr hp)]; simp only [he])

theorem calStatsOp_entry (h : Startable s f i 0x402 c) (hp : c.fld 10 1 ≤ 7) {k : Nat} {e : GEntry}
    (he : s.calEntry c = some (k, e)) : ∃ b, Answers s (calStatsOp s f i) f i .ok b ∧ b.length = 24 ∧
      fieldAt b 0 4 = e.maxAbs % 2 ^ 32 ∧ fieldAt b 8 8 = e.elems % 2 ^ 64 ∧ fieldAt b 16 4 = e.fallbacks % 2 ^ 32 := by
  refine ⟨_, acs_done h (by rw [if_neg (Nat.not_lt.mpr hp)]; simp only [he]; rfl), ?_⟩
  simp [leBytes_length]

/-- PWR_ENERGY's table of checks. -/
theorem pwrEnergyOp_clauses (h : Startable s f i 0x504 c) :
    (15 < c.fld 8 1 → Answers s (pwrEnergyOp s f i) f i .badParam (failBody 8 0 (c.fld 8 1))) ∧
    (c.fld 8 1 ≤ 15 → s.pwrEnergy (c.fld 8 1) (c.fld 12 4) = none →
      Answers s (pwrEnergyOp s f i) f i .badParam (failBody 12 0 (c.fld 12 4))) ∧
    (c.fld 8 1 ≤ 15 → ∀ b, s.pwrEnergy (c.fld 8 1) (c.fld 12 4) = some b → Answers s (pwrEnergyOp s f i) f i .ok b) := by
  refine ⟨fun hf => acs_fail h (if_pos hf), fun hf hn => acs_fail h ?_, fun hf b hb => acs_done h ?_⟩
  · rw [if_neg (Nat.not_lt.mpr hf)]
    simp only [hn]
  · rw [if_neg (Nat.not_lt.mpr hf)]
    simp only [hb]

/-- The interval in progress, as PWR_ENERGY gives it. -/
theorem pwrEnergy_open (ha : s.on Reg.PWR_CTL_ACCT_EN [] = true) (n : Nat) : s.pwrEnergy n 0 =
    some (energyBody (s.rd Reg.PWR_IV_OPEN_TB_TB []) s.openMs (mJ (s.rd Reg.PWR_E_OPEN_NJ [n])) s.band 1) :=
  (if_pos rfl).trans (if_pos ha)

theorem energyBody_fields {tb e : Nat} (htb : tb < 2 ^ 64) (he : e < 2 ^ 64) (len band flags : Nat) :
    (energyBody tb len e band flags).length = 24 ∧ fieldAt (energyBody tb len e band flags) 0 8 = tb ∧
    fieldAt (energyBody tb len e band flags) 12 8 = e := by
  simp [energyBody, leBytes_length]
  omega

end

/-- Settles O23: each command that may run stages the body of its table over the fetched state, whose fields are read back
from it, or the failure of the name it could not resolve. -/
theorem informationCommands : Obligations.InformationCommands := by
  intro s f i c
  refine ⟨fun h => ?info, fun h => ?power, fun h => ?link, fun h => ?echo, fun img h => ?firmware, fun h hp => ⟨?plan, ?entry⟩,
    fun h => ?energy, fun h => ⟨?noJob, ?job⟩, fun h => ⟨?noTable, ?table⟩⟩
  case info =>
    exact ⟨_, _, rfl, acs_done h (by rw [h.place.1]), devInfoBody_fields s f.isLt⟩
  case power => exact ⟨_, _, rfl, acs_done h rfl, pwrStatusBody_fields s⟩
  case link =>
    refine ⟨_, _, rfl, acs_done h rfl, ?_, fun n hn => ?_⟩
    · simp [List.length_flatMap, portBytes_length]
    · obtain ⟨r, hr⟩ := linkStatus_record s hn
      have h0 : fieldAt ((List.range 8).flatMap s.portBytes) (12 * n) 1 = fieldAt (s.portBytes n ++ r) 0 1 := hr 0 1
      rw [h0, hr, hr, hr]
      exact portBytes_fields s n r
  case echo => exact ⟨_, rfl, acs_done h rfl⟩
  case firmware =>
    have hblk : s.rd Reg.TOP_BOOTSTAT_BLOCK [] < 2 ^ 1 := rd_lt s _ _
    refine ⟨_, _, rfl, acs_done h rfl, ?_⟩
    simp [leBytes_length]
    omega
  case plan => exact fun he => ⟨_, rfl, calStatsOp_noPlan h hp he⟩
  case entry =>
    intro k e he
    obtain ⟨b, hb⟩ := calStatsOp_entry h hp he
    exact ⟨_, b, rfl, hb⟩
  case energy =>
    obtain ⟨hfunc, hnone, hsome⟩ := pwrEnergyOp_clauses h
    refine ⟨fun hf => ⟨_, rfl, hfunc hf⟩, fun hf hn => ⟨_, rfl, hnone hf hn⟩, fun hf hb ha => ?_,
      fun hf b hb => ⟨_, rfl, hsome hf b hb⟩⟩
    have hlt : mJ (s.rd Reg.PWR_E_OPEN_NJ [c.fld 8 1]) < 2 ^ 64 :=
      (Nat.div_le_self _ _).trans_lt (rd_lt s Reg.PWR_E_OPEN_NJ _)
    exact ⟨_, _, rfl, hsome hf _ (hb ▸ pwrEnergy_open ha _), energyBody_fields (rd_lt s Reg.PWR_IV_OPEN_TB_TB []) hlt _ _ _⟩
  case noJob => exact fun hj => ⟨_, rfl, jobStatusOp_noJob h hj⟩
  case job =>
    refine fun j hj => ⟨_, _, rfl, jobStatusOp_job h hj, ?_⟩
    simp [leBytes_length]
  case noTable => exact fun hx => ⟨_, rfl, tblStatsOp_noTable h hx⟩
  case table =>
    refine fun x hx => ⟨_, _, rfl, tblStatsOp_table h hx, ?_⟩
    simp [leBytes_length]

end Sys2Proof.Machine
end

/-! ## Commands with a buffer, and what answering keeps (R183, R185) -/

section
namespace Sys2Proof.Machine

section
variable {s t : State} {f i o : Nat} {c : Cmd}

/-- A part of the state beside the fetched commands, in an answered state. -/
theorem Answers.part {α : Type} {st : Status} {body : List Byte} (h : Answers s t f i st body) (p : State → α)
    (hp : ∀ u : State, p u.noCmds = p u) : p t = p s := State.noCmds_part h.rest p hp

theorem Answers.rd {st : Status} {body : List Byte} (h : Answers s t f i st body) (g : Field) (k : List Nat) :
    t.rd g k = s.rd g k := rd_congr (answers_regs h) g k

/-- The state that a buffer's traffic leaves, its counters apart. -/
def State.offTraffic (s : State) : State := { s with regs := [], gov := {} }

/-- The counters of the mailbox block's traffic (R106). -/
def trafficKey (k : Nat) : Prop := ∃ n, k = Reg.TOP_TRL_FLITS_COUNT.key [n]

theorem bulk_spares (s : State) (f a n : Nat) : Spares State.offTraffic (¬ trafficKey ·) s (bulk s f a n) := by
  have h : Spares State.offTraffic (¬ trafficKey ·) s (hbmActivity s f (cdiv n 256)) := ⟨rfl, fun _ _ _ => rfl⟩
  exact (h.wr Reg.TOP_TRL_FLITS_COUNT [22] _ rfl (not_not.mpr ⟨_, rfl⟩)).wr Reg.TOP_TRL_FLITS_COUNT _ _ rfl
    (not_not.mpr ⟨_, rfl⟩)

/-- Reading a buffer counts traffic and changes nothing else. -/
theorem afterBuffer_spares (s : State) (c : Cmd) (o : Nat) : Spares State.offTraffic (¬ trafficKey ·) s (s.afterBuffer c o) := by
  unfold State.afterBuffer
  split
  · exact bulk_spares s _ _ _
  · exact .refl _ _ s

theorem afterBuffer_part {α : Type} (s : State) (c : Cmd) (o : Nat) (p : State → α) (hp : ∀ u : State, p u.offTraffic = p u) :
    p (s.afterBuffer c o) = p s := by
  rw [← hp (s.afterBuffer c o), (afterBuffer_spares s c o).view, hp s]

theorem afterBuffer_cmd? (s : State) (c : Cmd) (o g k : Nat) : (s.afterBuffer c o).cmd? g k = s.cmd? g k :=
  afterBuffer_part s c o (fun u => u.cmd? g k) (fun _ => rfl)

/-- A command whose buffer is read runs its action on the bytes. -/
theorem withBuffer_ok (hc : c.func = f) {buf : HostBuf} {b : List Byte} (hb : s.buffer f (c.ref o) o buf = .ok b)
    (act : State → List Byte → State) : withBuffer s c o buf act = act (s.afterBuffer c o) b := by
  unfold withBuffer
  rw [← hc] at hb
  simp only [hb]
  rfl

end

end Sys2Proof.Machine
end

/-! ## Writing a source's register (R553, R559) -/

section
namespace Sys2Proof.Machine

section
variable {s : State} {i v : Nat}

theorem isSource_prio : IsSource Reg.HDG_SRC_PRIO := ⟨rfl, rfl, by decide⟩
theorem isSource_func : IsSource Reg.HDG_SRC_FUNC := ⟨rfl, rfl, by decide⟩
theorem isSource_vector : IsSource Reg.HDG_SRC_VECTOR := ⟨rfl, rfl, by decide⟩

theorem IsSource.quietKey {f : Field} (hf : IsSource f) (hi : i < 1023) :
    0x100000 * 128 ≤ f.key [i] ∧ f.key [i] < 0x230000 * 128 := srcKey hf.base hf.strides hf.low hi

theorem Quiet.ite {a s t : State} {p : Prop} [Decidable p] (hs : Quiet a s) (ht : Quiet a t) : Quiet a (if p then s else t) := by
  split
  · exact hs
  · exact ht

/-- The fields of a source's register as a write puts them, its pending bit apart. -/
def State.srcWritten (s : State) (i v : Nat) : State :=
  let s := (s.wrb Reg.HDG_SRC_BEN [i] (bitOf v 0)).wrb Reg.HDG_SRC_HEN [i] (bitOf v 1)
  let s := if bitsOf v 2 3 < 5 then s.wr Reg.HDG_SRC_SENSE [i] (bitsOf v 2 3) else s
  ((s.wr Reg.HDG_SRC_PRIO [i] (bitsOf v 5 8)).wr Reg.HDG_SRC_FUNC [i] (bitsOf v 13 4)).wr
    Reg.HDG_SRC_VECTOR [i] (bitsOf v 17 7)

theorem srcWritten_quiet (hi : i < 1023) : Quiet s (s.srcWritten i v) := by
  have h1 : Quiet s ((s.wrb Reg.HDG_SRC_BEN [i] (bitOf v 0)).wrb Reg.HDG_SRC_HEN [i] (bitOf v 1)) :=
    ((Quiet.refl s).wr _ _ _ (isSource_ben.quietKey hi)).wr _ _ _ (isSource_hen.quietKey hi)
  have h2 := Quiet.ite (p := bitsOf v 2 3 < 5) (h1.wr Reg.HDG_SRC_SENSE [i] (bitsOf v 2 3) (isSource_sense.quietKey hi)) h1
  exact ((h2.wr _ _ _ (isSource_prio.quietKey hi)).wr _ _ _ (isSource_func.quietKey hi)).wr _ _ _
    (isSource_vector.quietKey hi)

/-- What a write leaves in BEN, HEN, FUNC and VECTOR of the source, and HEN of the others. -/
theorem srcWritten_rd (s : State) (i v : Nat) : (s.srcWritten i v).rd Reg.HDG_SRC_BEN [i] = b2n (bitOf v 0) ∧
    (s.srcWritten i v).rd Reg.HDG_SRC_HEN [i] = b2n (bitOf v 1) ∧
    (s.srcWritten i v).rd Reg.HDG_SRC_FUNC [i] = bitsOf v 13 4 ∧
    (s.srcWritten i v).rd Reg.HDG_SRC_VECTOR [i] = bitsOf v 17 7 ∧
    ∀ k, k ≠ i → (s.srcWritten i v).rd Reg.HDG_SRC_HEN [k] = s.rd Reg.HDG_SRC_HEN [k] := by
  have bit (b : Bool) : b2n b % 2 ^ 1 = b2n b := by cases b <;> rfl
  have past {f : Field} (hf : IsSource f) (k : Nat) (h : k ≠ i ∨ f.lo ≠ Reg.HDG_SRC_SENSE.lo) (u : State) :
      (if bitsOf v 2 3 < 5 then u.wr Reg.HDG_SRC_SENSE [i] (bitsOf v 2 3) else u).rd f [k] = u.rd f [k] := by
    split
    · exact rd_wr_ne _ _ (hf.key_ne isSource_sense h)
    · rfl
  unfold State.srcWritten
  dsimp only
  refine ⟨?_, ?_, ?_, ?_, fun k hk => ?_⟩
  · rw [rd_wr_ne _ _ (isSource_ben.key_ne isSource_vector (.inr (by decide))),
      rd_wr_ne _ _ (isSource_ben.key_ne isSource_func (.inr (by decide))),
      rd_wr_ne _ _ (isSource_ben.key_ne isSource_prio (.inr (by decide))), past isSource_ben i (.inr (by decide)),
      rd_wrb_ne _ _ (isSource_ben.key_ne isSource_hen (.inr (by decide))), rd_wrb_self]
    exact bit _
  · rw [rd_wr_ne _ _ (isSource_hen.key_ne isSource_vector (.inr (by decide))),
      rd_wr_ne _ _ (isSource_hen.key_ne isSource_func (.inr (by decide))),
      rd_wr_ne _ _ (isSource_hen.key_ne isSource_prio (.inr (by decide))), past isSource_hen i (.inr (by decide)), rd_wrb_self]
    exact bit _
  · rw [rd_wr_ne _ _ (isSource_func.key_ne isSource_vector (.inr (by decide))), rd_wr_self]
    exact Nat.mod_mod _ _
  · rw [rd_wr_self]
    exact Nat.mod_mod _ _
  · rw [rd_wr_ne _ _ (isSource_hen.key_ne isSource_vector (.inl hk)), rd_wr_ne _ _ (isSource_hen.key_ne isSource_func (.inl hk)),
      rd_wr_ne _ _ (isSource_hen.key_ne isSource_prio (.inl hk)), past isSource_hen k (.inl hk),
      rd_wrb_ne _ _ (isSource_hen.key_ne isSource_hen (.inl hk)), rd_wrb_ne _ _ (isSource_hen.key_ne isSource_ben (.inl hk))]

/-! ### The write as a whole -/

/-- Keys of sources' fields but one source's pending bit. -/
def offPending (i k : Nat) : Prop := inSources k ∧ k ≠ Reg.HDG_SRC_PENDING.key [i]

theorem SameOn.pending {a s : State} (h : SameOn (offPending i) a s) (w : Nat) :
    SameOn (offPending i) a (s.wr Reg.HDG_SRC_PENDING [i] w) := h.wr _ _ _ fun hk => hk.2 rfl

theorem pendingFollows_sameOn {a s : State} (h : SameOn (offPending i) a s) : SameOn (offPending i) a (pendingFollows s i) := by
  unfold pendingFollows
  split
  · exact h
  · split
    · exact h.pending _
    · exact h.pending _
    · exact h

theorem pendingFollows_quiet {a s : State} (h : Quiet a s) (hi : i < 1023) : Quiet a (pendingFollows s i) := by
  unfold pendingFollows
  split
  · exact h
  · split
    · exact h.wr _ _ _ (isSource_pending.quietKey hi)
    · exact h.wr _ _ _ (isSource_pending.quietKey hi)
    · exact h

/-- A write that forces nothing: beside the source's pending bit its fields stay as put, and it changes no more than
requests do. -/
theorem hedgeSrcWriteOp_writes (hk : srcKind i ≠ .reserved) (hi : i < 1023) (hforce : bitOf v 27 = false) :
    Quiet s (hedgeSrcWriteOp s i v) ∧ SameOn (offPending i) (s.srcWritten i v) (hedgeSrcWriteOp s i v) := by
  have hw : ∀ u : State, (s.wrb Reg.HDG_SRC_BEN [i] (bitOf v 0)).wrb Reg.HDG_SRC_HEN [i] (bitOf v 1) = u →
    ((((if bitsOf v 2 3 < 5 then u.wr Reg.HDG_SRC_SENSE [i] (bitsOf v 2 3) else u).wr Reg.HDG_SRC_PRIO [i] (bitsOf v 5 8)).wr
      Reg.HDG_SRC_FUNC [i] (bitsOf v 13 4)).wr Reg.HDG_SRC_VECTOR [i] (bitsOf v 17 7)) = s.srcWritten i v := by
    rintro _ rfl
    rfl
  unfold hedgeSrcWriteOp
  rw [if_neg hk]
  extract_lets wasBen wasHen ben s1 sense old s2 s3 s4 s5 lvl now s6 s7
  have h3 : s3 = s.srcWritten i v := hw s1 rfl
  have q4 : Quiet s s4 := .ite (pendingFollows_quiet (h3 ▸ srcWritten_quiet hi) hi) (h3 ▸ srcWritten_quiet hi)
  have q5 : Quiet s s5 := .ite (q4.wr _ _ _ (isSource_pending.quietKey hi)) q4
  have k4 : SameOn (offPending i) (s.srcWritten i v) s4 := h3 ▸ .ite (pendingFollows_sameOn (.refl _ _)) (.refl _ _)
  have k5 : SameOn (offPending i) (s.srcWritten i v) s5 := .ite (k4.pending 0) k4
  have q7 : Quiet s s7 := hedgeDecide_quiet (.ite (hostCopy_quiet q5 i) q5)
  have k7 : SameOn (offPending i) (s.srcWritten i v) s7 :=
    k5.trans ((decideCopy_sameOn s5 i _).mono fun _ hk => hk.1)
  rw [hforce]
  exact ⟨q7, k7⟩

end

end Sys2Proof.Machine
end

/-! ## Sets that firmware fills and commits at once (R123, R125) -/

section
namespace Sys2Proof.Machine

section
variable {s t : State} {f g : Field} {idx j : List Nat} {x : StagedSet}

/-- A state without its register file and its captured copies. -/
def State.offSets (s : State) : State := { s with regs := [], captured := [] }

theorem offSets_wr (s : State) (f : Field) (i : List Nat) (v : Nat) : (s.wr f i v).offSets = s.offSets := rfl

theorem State.offSets_part {α : Type} (h : t.offSets = s.offSets) (p : State → α) (hp : ∀ u : State, p u.offSets = p u) :
    p t = p s := by
  rw [← hp t, h, hp s]

/-! ### Words written in a row -/

theorem stageWords_rest (f : Field) (idx : List Nat) (l : List Nat) (s : State) (i : Nat) :
    (stageWords s f idx i l).rest = s.rest := by
  induction l generalizing s i with
  | nil => rfl
  | cons w r ih => exact ih (s.wr f (idx ++ [i]) w) (i + 1)

theorem stageWords_offSets (f : Field) (idx : List Nat) (l : List Nat) (s : State) (i : Nat) :
    (stageWords s f idx i l).offSets = s.offSets :=
  State.rest_part (stageWords_rest f idx l s i) State.offSets (fun _ => rfl)

/-- Writing a row of words leaves every other field alone. -/
theorem stageWords_rd_ne (l : List Nat) (s : State) (i : Nat) (h : ∀ n, i ≤ n → n < i + l.length → g.key j ≠ f.key (idx ++ [n])) :
    (stageWords s f idx i l).rd g j = s.rd g j := by
  induction l generalizing s i with
  | nil => rfl
  | cons w r ih =>
    have hr : (w :: r).length = r.length + 1 := rfl
    rw [stageWords, ih _ _ fun n h1 h2 => h n (by omega) (by omega), rd_wr_ne _ _ (h i le_rfl (by omega))]

theorem rowKey_ne (hs : f.strides.drop idx.length = [4]) {m n : Nat} (h : m ≠ n) : f.key (idx ++ [m]) ≠ f.key (idx ++ [n]) := by
  simp only [Field.key, Field.addr, dotIdx_append _ _ _ _ hs]
  omega

/-- Each word of a row reads back, cut to its width. -/
theorem stageWords_rd (hs : f.strides.drop idx.length = [4]) (l : List Nat) (s : State) (i : Nat) {n : Nat} (hn : n < l.length) :
    (stageWords s f idx i l).rd f (idx ++ [i + n]) = l.getD n 0 % 2 ^ f.wid := by
  induction l generalizing s i n with
  | nil => exact absurd hn (Nat.not_lt_zero n)
  | cons w r ih =>
    rw [stageWords]
    cases n with
    | zero => rw [stageWords_rd_ne r _ _ (fun m h1 _ => rowKey_ne hs (by omega)), Nat.add_zero, rd_wr_self, List.getD_cons_zero]
    | succ n =>
      have hn : n < r.length := by simpa using hn
      rw [show i + (n + 1) = i + 1 + n by omega, ih _ _ hn, List.getD_cons_succ]

theorem wordsAt_length (b : List Byte) (o n : Nat) : (wordsAt b o n).length = n := by simp [wordsAt]

theorem wordsAt_getD (b : List Byte) (o : Nat) {n k : Nat} (hk : k < n) : (wordsAt b o n).getD k 0 = fieldAt b (o + 4 * k) 4 := by
  simp [wordsAt, hk]

theorem leNat_lt (l : List Byte) : leNat l < 256 ^ l.length := by
  induction l with
  | nil => exact Nat.one_pos
  | cons b r ih =>
    have hb := b.isLt
    rw [leNat, List.length_cons, Nat.pow_succ]
    omega

theorem fieldAt_lt (l : List Byte) (o n : Nat) : fieldAt l o n < 256 ^ n :=
  (leNat_lt _).trans_le (Nat.pow_le_pow_right (by decide) (List.length_take_le n _))

/-! ### A set captured and taken -/

/-- A set captured and taken at once. -/
def State.taken (s : State) (x : StagedSet) : State := effectSet (captureSet s x) x

/-- The registers that a set's taking writes: its active copy and its commit register. -/
def takenKeys (x : StagedSet) : List Nat :=
  [(cSuperseded x).key [], (cPending x).key [], (cGen x).key []] ++ (setFields x).map (fun e => e.1.mirror.key e.2)

theorem Spares.withCaptured {P : Nat → Prop} {a : State} (h : Spares State.offSets P a s) (m : FMap Nat) :
    Spares State.offSets P a (s.withCaptured m) := h.set rfl rfl

theorem OnlyRegs.takes {ks : List Nat} (h : OnlyRegs s t ks) (hk : ∀ k ∈ ks, k ∈ takenKeys x) :
    Spares State.offSets (· ∉ takenKeys x) s t :=
  ⟨State.rest_part h.rest State.offSets (fun _ => rfl), fun f i hi => h.regs f i fun hm => hi (hk _ hm)⟩

theorem taken_spares (s : State) (x : StagedSet) : Spares State.offSets (· ∉ takenKeys x) s (s.taken x) := by
  have hcommit : ∀ k ∈ [(cSuperseded x).key [], (cPending x).key [], (cGen x).key []], k ∈ takenKeys x :=
    fun k hk => List.mem_append_left _ hk
  have hwr {a u : State} {f : Field} {v : Nat} (h : Spares State.offSets (· ∉ takenKeys x) a u)
      (hf : f.key [] ∈ [(cSuperseded x).key [], (cPending x).key [], (cGen x).key []]) :
      Spares State.offSets (· ∉ takenKeys x) a (u.wr f [] v) :=
    h.wr f [] v (offSets_wr u f [] v) (not_not.mpr (hcommit _ hf))
  obtain ⟨m, hcap, -⟩ := captureSet_eq s x
  obtain ⟨n, heff⟩ := effectSet_eq (captureSet_on s x)
  have hsup : Spares State.offSets (· ∉ takenKeys x) s (s.superseded x) :=
    (superseded_onlyRegs s x).takes fun k hk => hcommit k (List.mem_singleton.mp hk ▸ .head _)
  have hact : Spares State.offSets (· ∉ takenKeys x) (captureSet s x) ((captureSet s x).activated x) :=
    (activated_onlyRegs _ x).takes fun k hk => List.mem_append_right _ hk
  have h1 : Spares State.offSets (· ∉ takenKeys x) s (captureSet s x) := by
    rw [hcap]
    exact hwr (hsup.withCaptured m) (by simp)
  rw [State.taken, heff]
  exact hwr (hwr ((h1.trans hact).withCaptured n) (by simp)) (by simp)

/-- The active copy of one set lies clear of what another set's taking writes. -/
theorem active_not_takenKeys {k : Nat} (ha : activeKey k) (h : ∀ e ∈ setFields x, k ≠ e.1.mirror.key e.2) : k ∉ takenKeys x := by
  intro hk
  rcases List.mem_append.mp hk with hk | hk
  · simp only [List.mem_cons, List.not_mem_nil, or_false] at hk
    rcases hk with rfl | rfl | rfl
    · exact (isCommit_superseded x).not_active ha
    · exact (isCommit_pending x).not_active ha
    · exact (isCommit_gen x).not_active ha
  · obtain ⟨e, he, hke⟩ := List.mem_map.mp hk
    exact h e he hke.symm

/-- A set taken at once shows its staging copy as its active copy. -/
theorem taken_active {e : Field × List Nat} (he : e ∈ setFields x) (s : State) : (s.taken x).rdA e.1 e.2 = s.rd e.1 e.2 :=
  ((effectSet_captureSet_shows s x rfl).1 e he).1

theorem taken_pending (s : State) (x : StagedSet) : (s.taken x).on (cPending x) [] = false := by
  obtain ⟨-, hpending, -⟩ := effectSet_captureSet_shows s x rfl
  rw [State.on, State.taken, hpending]
  rfl

end

end Sys2Proof.Machine
end

/-! ## EVT_ROUTE, EVT_COALESCE, CAL_SCALES and DIAG_SELFTEST (R215, R222, R224, R520, R550, R561) -/

section
namespace Sys2Proof.Machine

open Host (Outcome)

section
variable {s : State} {f i : Nat} {c : Cmd}

/-! ### EVT_ROUTE -/

theorem routable_kind {n : Nat} (h : s.routable f n = true) : srcKind n ≠ .reserved := by
  intro hk
  rw [State.routable, if_pos hk] at h
  exact Bool.false_ne_true h

/-- What EVT_ROUTE writes to the register of source `n`: its fields as they stand but HEN, FUNC and VECTOR. -/
def State.routeWord (s : State) (n on f v : Nat) : Nat :=
  s.rd Reg.HDG_SRC_BEN [n] + 2 * on + 4 * s.rd Reg.HDG_SRC_SENSE [n] + 32 * s.rd Reg.HDG_SRC_PRIO [n] + 2 ^ 13 * f + 2 ^ 17 * v

theorem routeWord_fields (s : State) {n on f v : Nat} (ho : on < 2) (hf : f < 16) (hv : v < 128) :
    b2n (bitOf (s.routeWord n on f v) 0) = s.rd Reg.HDG_SRC_BEN [n] ∧ b2n (bitOf (s.routeWord n on f v) 1) = on ∧
    bitsOf (s.routeWord n on f v) 13 4 = f ∧ bitsOf (s.routeWord n on f v) 17 7 = v ∧
    bitOf (s.routeWord n on f v) 27 = false := by
  have hben : s.rd Reg.HDG_SRC_BEN [n] < 2 ^ 1 := rd_lt s _ _
  have hsense : s.rd Reg.HDG_SRC_SENSE [n] < 2 ^ 3 := rd_lt s _ _
  have hprio : s.rd Reg.HDG_SRC_PRIO [n] < 2 ^ 8 := rd_lt s _ _
  have bit (w k m : Nat) (hm : m < 2) (h : w / 2 ^ k % 2 = m) : b2n (bitOf w k) = m := by
    rw [bitOf, h]
    interval_cases m <;> rfl
  refine ⟨bit _ _ _ hben ?_, bit _ _ _ ho ?_, ?_, ?_, ?_⟩
  all_goals simp only [State.routeWord, bitsOf, bitOf, beq_eq_false_iff_ne]
  all_goals omega

/-- EVT_ROUTE's table of checks. -/
theorem evtRouteOp_refuses (h : Startable s f i 0x801 c) :
    (c.fld 8 2 = 0 ∨ 1022 < c.fld 8 2 → Answers s (evtRouteOp s f i) f i .badParam (failBody 8 0 (c.fld 8 2))) ∧
    (1 ≤ c.fld 8 2 → c.fld 8 2 ≤ 1022 →
      (c.fld 10 1 < 8 ∨ 127 < c.fld 10 1 → Answers s (evtRouteOp s f i) f i .badParam (failBody 10 0 (c.fld 10 1))) ∧
      (8 ≤ c.fld 10 1 → c.fld 10 1 ≤ 127 →
        (s.routable f (c.fld 8 2) = false → Answers s (evtRouteOp s f i) f i .notAssigned (failBody 8 0 (c.fld 8 2))) ∧
        (s.routable f (c.fld 8 2) = true → s.on Reg.HDG_SRC_HEN [c.fld 8 2] = true → s.rd Reg.HDG_SRC_FUNC [c.fld 8 2] ≠ f →
          Answers s (evtRouteOp s f i) f i .busy (failBody 8 0 (c.fld 8 2))))) := by
  have hc := h.place.1
  refine ⟨fun h0 => acs_fail h (if_pos h0), fun h1 h2 => ?_⟩
  have hsrc : ¬ (c.fld 8 2 = 0 ∨ 1022 < c.fld 8 2) := by omega
  refine ⟨fun h0 => acs_fail h ((if_neg hsrc).trans (if_pos h0)), fun h3 h4 => ?_⟩
  have hvec : ¬ (c.fld 10 1 < 8 ∨ 127 < c.fld 10 1) := by omega
  refine ⟨fun hr => acs_fail h ?_, fun hr hen hfn => acs_fail h ?_⟩
  · exact (if_neg hsrc).trans ((if_neg hvec).trans (if_pos (by rw [hc, hr]; rfl)))
  · exact (if_neg hsrc).trans ((if_neg hvec).trans ((if_neg (by rw [hc, hr]; decide)).trans (if_pos ⟨hen, hc ▸ hfn⟩)))

/-- EVT_ROUTE of a source that is free to route writes the source's register and answers. -/
theorem evtRouteOp_routes (h : Startable s f i 0x801 c) (h1 : 1 ≤ c.fld 8 2) (h2 : c.fld 8 2 ≤ 1022) (h3 : 8 ≤ c.fld 10 1)
    (h4 : c.fld 10 1 ≤ 127) (hr : s.routable f (c.fld 8 2) = true)
    (hfree : s.on Reg.HDG_SRC_HEN [c.fld 8 2] = false ∨ s.rd Reg.HDG_SRC_FUNC [c.fld 8 2] = f) :
    evtRouteOp s f i = done (hedgeSrcWriteOp s (c.fld 8 2) (s.routeWord (c.fld 8 2) (c.fld 11 1 % 2) f (c.fld 10 1))) c [] := by
  have hc := h.place.1
  unfold evtRouteOp
  rw [acs_starts h]
  dsimp only
  rw [if_neg (by omega), if_neg (by omega), hc, if_neg (by rw [hr]; decide), if_neg ?_]
  · rfl
  · rintro ⟨hen, hfn⟩
    rcases hfree with h | h
    · exact Bool.false_ne_true (h.symm.trans hen)
    · exact hfn h

/-! ### EVT_COALESCE -/

/-- The staging copy that EVT_COALESCE writes. -/
def State.coalStaged (s : State) (f v n us : Nat) : State :=
  (s.wr Reg.HDG_COAL_COUNT [f, v] n).wr Reg.HDG_COAL_TIME_US [f, v] us

theorem evtCoalesceOp_takes {f : Fin 16} (h : Startable s f i 0x802 c) (hv : c.fld 8 1 ≤ 127)
    (hco : coalesced (c.fld 8 1) = true) (hn : 1 ≤ c.fld 9 1) (h1 : 1 ≤ c.fld 12 4) (h2 : c.fld 12 4 ≤ 65535) :
    evtCoalesceOp s f i = done ((s.coalStaged f (c.fld 8 1) (c.fld 9 1) (c.fld 12 4)).taken (.coal f)) c [] := by
  have hfin : Fin.ofNat 16 c.func = f := by
    rw [h.place.1]
    exact Fin.ext (Nat.mod_eq_of_lt f.isLt)
  unfold evtCoalesceOp
  rw [acs_starts h]
  dsimp only
  rw [if_neg (by rintro (h | h); omega; rw [hco] at h; exact absurd h (by decide)), if_neg (by omega), if_neg (by omega), hfin,
    h.place.1]
  rfl

/-- The coalescing set of a function shows the new COUNT and TIME of the vector as active. -/
theorem coalStaged_taken (s : State) (f : Fin 16) {v n us : Nat} (hv : v ≤ 127) (hn : n < 2 ^ 8) (hu : us < 2 ^ 16) :
    ((s.coalStaged f v n us).taken (.coal f)).rdA Reg.HDG_COAL_COUNT [f, v] = n ∧
    ((s.coalStaged f v n us).taken (.coal f)).rdA Reg.HDG_COAL_TIME_US [f, v] = us := by
  have hrow (g : Field) : (g, [f.val, v]) ∈ fieldRow g [f.val] 128 :=
    List.mem_map.mpr ⟨v, List.mem_range.mpr (by omega), rfl⟩
  have hcount : (s.coalStaged f v n us).rd Reg.HDG_COAL_COUNT [f, v] = n := by
    rw [State.coalStaged, rd_wr_beside (f := Reg.HDG_COAL_TIME_US) (g := Reg.HDG_COAL_COUNT) _ _ _ rfl (by decide), rd_wr_self]
    exact Nat.mod_eq_of_lt hn
  have htime : (s.coalStaged f v n us).rd Reg.HDG_COAL_TIME_US [f, v] = us := by
    rw [State.coalStaged, rd_wr_self]
    exact Nat.mod_eq_of_lt hu
  exact ⟨(taken_active (e := (Reg.HDG_COAL_COUNT, [f.val, v])) (List.mem_append_left _ (hrow _)) _).trans hcount,
    (taken_active (e := (Reg.HDG_COAL_TIME_US, [f.val, v])) (List.mem_append_right _ (hrow _)) _).trans htime⟩

theorem coalStaged_offSets (s : State) (f : Fin 16) (v n us : Nat) :
    ((s.coalStaged f v n us).taken (.coal f)).offSets = s.offSets := (taken_spares _ _).view

/-! ### CAL_SCALES -/

/-- A state without its register file, its captured copies and the Graft entries. -/
def State.offGraft (s : State) : State := { s with regs := [], captured := [], graft := {} }

theorem showGraft_rest (s : State) (n : Nat) : (showGraft s n).rest = s.rest := by
  unfold showGraft
  dsimp only
  split
  · exact rest_foldl_wr (fun _ => Reg.GRF_ENT_WORD.mirror) _ _ _ _
  · exact rest_foldl_wr (fun _ => Reg.GRF_ENT_WORD.mirror) _ _ _ _

theorem captureSet_offSets (s : State) (x : StagedSet) : (captureSet s x).offSets = s.offSets := by
  obtain ⟨m, h, -⟩ := captureSet_eq s x
  rw [h, offSets_wr]
  exact (superseded_onlyRegs s x).part State.offSets (fun _ => rfl)

/-- Committing new scales captures them in the entry, after the other entries of the unit let go of theirs. -/
theorem commitScales_offSets (s : State) (k : Nat) (e : GEntry) (sc : List (Nat × Int)) (zp : Bool) :
    (commitScales s k e sc zp).offSets = (((s.gentsOf (k / 256)).foldl (fun s (x : Nat × GEntry) =>
      s.setGent x.1 { x.2 with cap := none }) s).setGent k { e with cap := some (e.img, sc, zp) }).offSets := by
  unfold commitScales
  dsimp only
  rw [State.rest_part (showGraft_rest _ _) State.offSets (fun _ => rfl), captureSet_offSets, stageWords_offSets, offSets_wr]

theorem commitScales_gent (s : State) (k : Nat) (e : GEntry) (sc : List (Nat × Int)) (zp : Bool) :
    (commitScales s k e sc zp).gent k = some { e with cap := some (e.img, sc, zp) } :=
  (State.offSets_part (commitScales_offSets s k e sc zp) (fun u => u.gent k) (fun _ => rfl)).trans (FMap.find_put_self _ _ _)

theorem commitScales_offGraft (s : State) (k : Nat) (e : GEntry) (sc : List (Nat × Int)) (zp : Bool) :
    (commitScales s k e sc zp).offGraft = s.offGraft := by
  have hloop (l : List (Nat × GEntry)) (s : State) :
      (l.foldl (fun s (x : Nat × GEntry) => s.setGent x.1 { x.2 with cap := none }) s).offGraft = s.offGraft := by
    induction l generalizing s with
    | nil => rfl
    | cons x r ih => exact ih _
  exact (State.offSets_part (commitScales_offSets s k e sc zp) State.offGraft (fun _ => rfl)).trans (hloop _ s)

theorem calScalesOp_commits (h : Startable s f i 0x401 c) (hp : c.fld 10 1 ≤ 7) {k : Nat} {e : GEntry}
    (he : s.calEntry c = some (k, e)) {buf : HostBuf} {b : List Byte} (hb : s.buffer f (c.ref 16) 16 buf = .ok b)
    (hm : (geRung e.img 0).mode = 1) (hok : tensorOk e.img b = true) {l : List (Nat × Int)}
    (hl : effScales (geRung e.img 0).fmt b = .ok l) {sc : List (Nat × Int)} (hsc : sc = if e.role = 2 then [] else l) {zp : Bool}
    (hz : zp = tensorZp (geRung e.img 0).fmt b)
    (hroom : ({ e with cap := some (e.img, sc, zp) } : GEntry).words ≤ s.graftFree (k / 256) + e.words) :
    calScalesOp s f i buf = done (commitScales (s.afterBuffer c 16) k e sc zp) c [] := by
  have hfree : (s.afterBuffer c 16).graftFree (k / 256) = s.graftFree (k / 256) :=
    afterBuffer_part s c 16 (fun u => u.graftFree (k / 256)) (fun _ => rfl)
  subst hsc hz
  unfold calScalesOp
  rw [acs_starts h]
  dsimp only
  rw [if_neg (by omega), he]
  dsimp only
  rw [withBuffer_ok h.place.1 hb, if_neg (by rw [hm, hok]; decide), hl]
  dsimp only
  rw [if_neg (by rw [hfree]; omega)]

/-! ### DIAG_SELFTEST -/

/-- The body of a self-test. -/
def selftestBody (bad : Option Nat) : List Byte := leBytes 4 (b2n bad.isSome) ++ leBytes 4 (bad.getD 0)

/-- DIAG_SELFTEST of a plot, by its table of checks. -/
theorem diagSelftestOp_plot (h : Startable s f i 0x903 c) (bad : Option Nat) (h0 : c.fld 8 1 = 0) :
    (15 < c.fld 9 1 → Answers s (diagSelftestOp s f i bad) f i .badParam (failBody 9 0 (c.fld 9 1))) ∧
    (c.fld 9 1 ≤ 15 → s.plotEn (c.fld 9 1) = false →
      Answers s (diagSelftestOp s f i bad) f i .plotAbsent (failBody 9 0 (c.fld 9 1))) ∧
    (c.fld 9 1 ≤ 15 → s.plotEn (c.fld 9 1) = true → s.plotHolder (c.fld 9 1) = f → s.jobOf (c.fld 9 1) = none →
      s.coreUp = true → Answers (undefStores s (c.fld 9 1)) (diagSelftestOp s f i bad) f i .ok (selftestBody bad)) := by
  unfold diagSelftestOp
  rw [acs_starts h]
  simp only [h0]
  refine ⟨fun hp => ?_, fun hp he => ?_, fun hp he hh hj hu => ?_⟩
  · rw [if_pos hp]
    exact fail_answers h.fetched _ _ _ _
  · rw [if_neg (by omega), if_pos (by rw [he]; rfl)]
    exact fail_answers h.fetched _ _ _ _
  · rw [if_neg (by omega), if_neg (by rw [he]; decide), if_neg (by rw [hh, h.place.1]; exact fun hn => hn rfl),
      if_neg (by rw [hj]; decide), if_neg (by rw [hu]; decide)]
    exact done_answers (s := undefStores s (c.fld 9 1)) h.fetched _

theorem diagSelftestOp_range (h : Startable s f i 0x903 c) (bad : Option Nat) (h1 : c.fld 8 1 = 1) (hn : c.fld 24 8 ≠ 0)
    (hh : s.holdsHbm 0 (c.fld 16 8) (c.fld 24 8) = true) (hu : s.coreUp = true) :
    Answers (undefHbm s (c.fld 16 8) (c.fld 24 8)) (diagSelftestOp s f i bad) f i .ok (selftestBody bad) := by
  unfold diagSelftestOp
  rw [acs_starts h]
  simp only [h1]
  rw [if_neg hn, if_neg (by rw [hh]; decide), if_neg (by rw [hu]; decide)]
  exact done_answers (s := undefHbm s _ _) h.fetched _

theorem diagSelftestOp_noTest (h : Startable s f i 0x903 c) (bad : Option Nat) (h2 : 2 ≤ c.fld 8 1) :
    Answers s (diagSelftestOp s f i bad) f i .badParam (failBody 8 0 (c.fld 8 1)) := by
  unfold diagSelftestOp
  rw [acs_starts h]
  generalize c.fld 8 1 = n at h2
  obtain ⟨m, rfl⟩ : ∃ m, n = m + 2 := ⟨n - 2, by omega⟩
  exact fail_answers h.fetched _ _ _ _

end

/-- Settles O25: the refusals are the tables of checks; what is routed, taken, committed or left undefined is read in the
state that is answered. -/
theorem eventCalibrationAndTestCommands : Obligations.EventCalibrationAndTestCommands := by
  intro s f i c
  refine ⟨fun h => ?route, fun h => ⟨?vector, ?coalesce⟩, fun buf b k e l h hp he hb hm hok hl hroom => ?scales,
    fun bad h => ⟨fun h0 => ?plot, fun h1 hn hh hu => ⟨_, rfl, diagSelftestOp_range h bad h1 hn hh hu⟩,
      fun h2 => ⟨_, rfl, diagSelftestOp_noTest h bad h2⟩⟩⟩
  case route =>
    obtain ⟨hsrc, hrest⟩ := evtRouteOp_refuses h
    refine ⟨fun h0 => ⟨_, rfl, hsrc h0⟩, fun h1 h2 => ?_⟩
    obtain ⟨hvec, hrest⟩ := hrest h1 h2
    refine ⟨fun h0 => ⟨_, rfl, hvec h0⟩, fun h3 h4 => ?_⟩
    obtain ⟨hassigned, hbusy⟩ := hrest h3 h4
    refine ⟨fun hr => ⟨_, rfl, hassigned hr⟩, fun hr => ⟨fun hen hfn => ⟨_, rfl, hbusy hr hen hfn⟩, fun hfree => ?_⟩⟩
    have hi : c.fld 8 2 < 1023 := by omega
    obtain ⟨wben, when, wfunc, wvec, wforce⟩ :=
      routeWord_fields s (n := c.fld 8 2) (Nat.mod_lt (c.fld 11 1) two_pos) f.isLt (v := c.fld 10 1) (by omega)
    obtain ⟨hq, hsame⟩ := hedgeSrcWriteOp_writes (routable_kind hr) hi wforce
    obtain ⟨rben, rhen, rfunc, rvec, rothers⟩ := srcWritten_rd s (c.fld 8 2)
      (s.routeWord (c.fld 8 2) (c.fld 11 1 % 2) f (c.fld 10 1))
    have rd {g : Field} (hg : IsSource g) {n : Nat} (hn : n < 1023) (hl : g.lo ≠ Reg.HDG_SRC_PENDING.lo) :=
      hsame g [n] ⟨hg.inSources hn, hg.key_ne isSource_pending (.inr hl)⟩
    refine ⟨_, _, congrArg Outcome.next (evtRouteOp_routes h h1 h2 h3 h4 hr hfree), hq,
      done_answers ((cmd?_congr hq.cmds f i).trans h.fetched) [], ?_, ?_, ?_, ?_, fun n hn hne => ?_⟩
    · rw [rd isSource_hen hi (by decide), rhen, when]
    · rw [rd isSource_func hi (by decide), rfunc, wfunc]
    · rw [rd isSource_vector hi (by decide), rvec, wvec]
    · rw [rd isSource_ben hi (by decide), rben, wben]
    · rw [rd isSource_hen hn (by decide), rothers n hne]
  case vector =>
    intro h0
    exact ⟨_, rfl, acs_fail h (if_pos (h0.imp_right fun h => by rw [h]; rfl))⟩
  case coalesce =>
    intro hv hco hn h1 h2
    have hcount : c.fld 9 1 < 2 ^ 8 := fieldAt_lt c.desc 9 1
    obtain ⟨acount, atime⟩ := coalStaged_taken s f hv hcount (show c.fld 12 4 < 2 ^ 16 by omega)
    have hview := coalStaged_offSets s f (c.fld 8 1) (c.fld 9 1) (c.fld 12 4)
    have hans : Answers _ (evtCoalesceOp s f i) f i .ok [] := evtCoalesceOp_takes h hv hco hn h1 h2 ▸
      done_answers ((State.offSets_part hview (fun u => u.cmd? f i) (fun _ => rfl)).trans h.fetched) []
    refine ⟨_, rfl, (hans.rd _ _).trans acount, (hans.rd _ _).trans atime, ?_, ?_, hans.result, ?_, ?_, ?_⟩
    · rw [State.on, hans.rd]
      exact taken_pending _ _
    · exact (hans.part State.hedge fun _ => rfl).trans (State.offSets_part hview State.hedge fun _ => rfl)
    · exact (hans.part State.hbm fun _ => rfl).trans (State.offSets_part hview State.hbm fun _ => rfl)
    · exact (hans.part State.plots fun _ => rfl).trans (State.offSets_part hview State.plots fun _ => rfl)
    · exact (hans.part State.jobs fun _ => rfl).trans (State.offSets_part hview State.jobs fun _ => rfl)
  case scales =>
    have hop := calScalesOp_commits h hp he hb hm hok hl rfl rfl hroom
    have hview := commitScales_offGraft (s.afterBuffer c 16) k e (if e.role = 2 then [] else l)
      (tensorZp (geRung e.img 0).fmt b)
    have hpart {α : Type} (p : State → α) (hg : ∀ u : State, p u.offGraft = p u) (ht : ∀ u : State, p u.offTraffic = p u) :
        p (commitScales (s.afterBuffer c 16) k e (if e.role = 2 then [] else l) (tensorZp (geRung e.img 0).fmt b)) = p s := by
      rw [← hg, hview, hg, afterBuffer_part s c 16 p ht]
    have hans : Answers _ (calScalesOp s f i buf) f i .ok [] := hop ▸
      done_answers ((hpart (fun u => u.cmd? f i) (fun _ => rfl) (fun _ => rfl)).trans h.fetched) []
    refine ⟨_, rfl, ?_, hans.result, ?_, ?_, ?_⟩
    · exact (hans.part (fun u => u.gent k) fun _ => rfl).trans (commitScales_gent _ _ _ _ _)
    · exact (hans.part State.hbm fun _ => rfl).trans (hpart State.hbm (fun _ => rfl) (fun _ => rfl))
    · exact (hans.part State.plots fun _ => rfl).trans (hpart State.plots (fun _ => rfl) (fun _ => rfl))
    · exact (hans.part State.jobs fun _ => rfl).trans (hpart State.jobs (fun _ => rfl) (fun _ => rfl))
  case plot =>
    obtain ⟨hbad, habsent, htest⟩ := diagSelftestOp_plot h bad h0
    exact ⟨fun hp => ⟨_, rfl, hbad hp⟩, fun hp he => ⟨_, rfl, habsent hp he⟩,
      fun hp he hh hj hu => ⟨_, rfl, htest hp he hh hj hu⟩⟩

end Sys2Proof.Machine
end

/-! ## Ports evaluated, and the link commands (R223, R225, R495-R497) -/

section
namespace Sys2Proof.Machine

section
variable {a s t : State} {n m f i : Nat} {c : Cmd}

/-- A loop whose step for `y` brings a fact about and whose other steps keep it. -/
theorem foldl_reaches {σ α : Type} {g : σ → α → σ} {Q : σ → Prop} {l : List α} {y : α} (hself : ∀ u, Q (g u y))
    (hkeep : ∀ u, ∀ x ∈ l, x ≠ y → Q u → Q (g u x)) (u : σ) (hy : y ∈ l ∨ Q u) : Q (l.foldl g u) := by
  induction l generalizing u with
  | nil => exact hy.resolve_left List.not_mem_nil
  | cons x r ih =>
    refine ih (fun u x hx => hkeep u x (.tail _ hx)) _ ?_
    by_cases he : x = y
    · exact .inr (he ▸ hself u)
    · exact hy.imp (fun hm => (List.mem_cons.mp hm).resolve_left (Ne.symm he)) (hkeep u x (.head _) he)

/-! ### What evaluating a port leaves alone -/

/-- A state without what evaluating its ports may change: requests and events, the log, and the ports' credits. -/
def State.offEval (s : State) : State :=
  { s.still with flash := {}, memLogged := [], freeCtr := 0, link := { s.link with ports := [] } }

/-- Keys of the ports' fields but STATE and MISWIRED. -/
def evalKey (k : Nat) : Prop :=
  (0x800000 * 128 ≤ k ∧ k < 0x880000 * 128) ∧ ∀ n, k ≠ Reg.CSK_STAT_STATE.key [n] ∧ k ≠ Reg.CSK_STAT_MISWIRED.key [n]

theorem evalKey_outside {k : Nat} (h : evalKey k) : outside k := .inr (by have := h.1.1; omega)

theorem evalKey_not_logKeys {k : Nat} (h : evalKey k) : k ∉ logKeys := fun hk =>
  absurd h.1 ((show ∀ j ∈ logKeys, ¬ (0x800000 * 128 ≤ j ∧ j < 0x880000 * 128) by decide) k hk)

/-- `s` is `a` after ports were evaluated. -/
def Evaluates (a s : State) : Prop := Spares State.offEval evalKey a s

theorem Evaluates.refl (s : State) : Evaluates s s := Spares.refl _ _ s

theorem Evaluates.quiet (h : Evaluates a s) (q : Quiet s t) : Evaluates a t :=
  h.trans (q.spares (fun _ => rfl) fun _ => evalKey_outside)

theorem Evaluates.logged (h : Evaluates a s) (g : Logged s t) : Evaluates a t :=
  h.trans (g.spares (fun _ => rfl) fun _ => evalKey_not_logKeys)

theorem Evaluates.wrState (h : Evaluates a s) (v : Nat) : Evaluates a (s.wr Reg.CSK_STAT_STATE [n] v) :=
  Spares.wr h _ _ _ rfl fun hk => (hk.2 n).1 rfl

theorem Evaluates.wrMiswired (h : Evaluates a s) (v : Nat) : Evaluates a (s.wr Reg.CSK_STAT_MISWIRED [n] v) :=
  Spares.wr h _ _ _ rfl fun hk => (hk.2 n).2 rfl

protected theorem Evaluates.setPort (h : Evaluates a s) (p : Port) : Evaluates a (s.setPort n p) := Spares.set h rfl rfl

protected theorem Evaluates.setPortState (h : Evaluates a s) (st : Nat) (hn : n < 8) : Evaluates a (setPortState s n st) :=
  Spares.ite h ((h.wrState st).quiet (hedgeEvent_quiet (.refl _) st (by omega)))

protected theorem Evaluates.portFlagLevel (h : Evaluates a s) (hn : n < 8) : Evaluates a (portFlagLevel s n) :=
  h.quiet (hedgeLevel_quiet (.refl s) _ _ (by omega))

protected theorem Evaluates.portEvaluate (h : Evaluates a s) (hn : n < 8) : Evaluates a (portEvaluate s n) := by
  have hright : Evaluates a (portFlagLevel (s.wr Reg.CSK_STAT_MISWIRED [n] 0) n) := (h.wrMiswired 0).portFlagLevel hn
  have hwrong : Evaluates a (linkRecord (s.wr Reg.CSK_STAT_MISWIRED [n] 1) n 4) :=
    (h.wrMiswired 1).logged (faultRecord_logged (.refl _) _ _)
  exact .ite h <| .ite (h.setPortState _ hn) <| .ite (h.setPortState _ hn) <|
    .ite (.ite (.ite hright ((hright.setPort _).setPortState _ hn))
      ((Evaluates.portFlagLevel (Spares.ite h hwrong) hn).setPortState _ hn)) (h.setPortState _ hn)

protected theorem Evaluates.evaluatePorts (h : Evaluates a s) : Evaluates a (evaluatePorts s) :=
  Spares.foldl _ _ (fun _ _ hn h => Evaluates.portEvaluate h (List.mem_range.mp hn)) h

theorem Evaluates.part {α : Type} (h : Evaluates s t) (p : State → α) (hp : ∀ u : State, p u.offEval = p u) : p t = p s := by
  rw [← hp t, h.view, hp s]

theorem portFlagLevel_quiet (hn : n < 8) : Quiet s (portFlagLevel s n) := hedgeLevel_quiet (.refl s) _ _ (by omega)

/-- A field of the ports' first words other than STATE and MISWIRED. -/
theorem evalKey_field (hn : n < 8) {g : Field} (hb : 0x800000 ≤ g.base) (hl : g.base < 0x810000)
    (hs : g.strides = [65536]) (hlo : g.lo < 128)
    (hst : g.base ≠ 0x800004 ∨ 7 < g.lo) : evalKey (g.key [n]) := by
  refine ⟨?_, fun m => ?_⟩
  · simp only [Field.key, Field.addr, hs, dotIdx]
    omega
  · simp only [Reg.CSK_STAT_STATE, Reg.CSK_STAT_MISWIRED, Field.key, Field.addr, hs, dotIdx]
    omega

/-- A word of a port's routing table. -/
theorem evalKey_word (hn : n < 8) {g : Field} (hb : 0x808000 ≤ g.base) (hl : g.base + 0x400 < 0x810000)
    (hs : g.strides = [65536, 4]) (hlo : g.lo < 128)
    {j : Nat} (hj : j < 256) : evalKey (g.key [n, j]) := by
  refine ⟨?_, fun m => ?_⟩
  · simp only [Field.key, Field.addr, hs, dotIdx]
    omega
  · simp only [Reg.CSK_STAT_STATE, Reg.CSK_STAT_MISWIRED, Field.key, Field.addr, hs, dotIdx]
    omega

/-! ### LINK_SET_ID -/

theorem linkSetIdOp_refuses (h : Startable s f i 0xA02 c) :
    (s.idTaken (c.fld 8 1) = true → Answers s (linkSetIdOp s f i) f i .dieIdConflict (failBody 8 0 (c.fld 8 1))) ∧
    (s.idTaken (c.fld 8 1) = false → (∃ n, n < 8 ∧ s.portState n = psActive) →
      Answers s (linkSetIdOp s f i) f i .busy (failBody 8 0 (c.fld 8 1))) := by
  refine ⟨fun hid => acs_fail h (if_pos hid), fun hid ⟨n, hn, hact⟩ => acs_fail h ?_⟩
  have hany : (List.range 8).any (fun n => s.portState n == psActive) = true :=
    List.any_eq_true.mpr ⟨n, List.mem_range.mpr hn, beq_iff_eq.mpr hact⟩
  exact (if_neg (by rw [hid]; decide)).trans (if_pos hany)

/-- The die under its new ID, every port's conflict cleared. -/
def State.idSet (s : State) (id : Nat) : State :=
  (List.range 8).foldl (fun s n => portFlagLevel (s.wr Reg.CSK_STAT_ID_CONFLICT [n] 0) n)
    { s with link := { s.link with dieId := id, idValid := true } }

theorem linkSetIdOp_takes (h : Startable s f i 0xA02 c) (hid : s.idTaken (c.fld 8 1) = false)
    (hidle : ∀ n, n < 8 → s.portState n ≠ psActive) : linkSetIdOp s f i = done (evaluatePorts (s.idSet (c.fld 8 1))) c [] := by
  have hany : ¬ (List.range 8).any (fun n => s.portState n == psActive) = true := by
    rintro hact
    obtain ⟨n, hn, hact⟩ := List.any_eq_true.mp hact
    exact hidle n (List.mem_range.mp hn) (beq_iff_eq.mp hact)
  unfold linkSetIdOp
  rw [acs_starts h]
  dsimp only
  rw [if_neg (by rw [hid]; decide), if_neg hany]
  rfl

theorem idSet_still (s : State) (id : Nat) :
    (s.idSet id).still = { s.still with link := { s.link with dieId := id, idValid := true } } :=
  (Spares.foldl (v := State.still) (P := fun _ => False) _ _ (fun _ n hn h =>
    (h.wr Reg.CSK_STAT_ID_CONFLICT [n] 0 rfl not_false).trans
      ((portFlagLevel_quiet (List.mem_range.mp hn)).spares (fun _ => rfl) fun _ => False.elim)) (.refl _ _ _)).view

theorem outside_port {g : Field} (hb : 0x800000 ≤ g.base) (j : List Nat) : outside (g.key j) := by
  simp only [outside, Field.key, Field.addr]
  omega

theorem idSet_conflict (s : State) (id : Nat) (hn : n < 8) : (s.idSet id).rd Reg.CSK_STAT_ID_CONFLICT [n] = 0 := by
  have hflag {u : State} {k : Nat} (hk : k < 8) (m : Nat) :
      (portFlagLevel u k).rd Reg.CSK_STAT_ID_CONFLICT [m] = u.rd Reg.CSK_STAT_ID_CONFLICT [m] :=
    (portFlagLevel_quiet hk).regs _ _ (outside_port (by decide) _)
  refine foldl_reaches (Q := fun u : State => u.rd Reg.CSK_STAT_ID_CONFLICT [n] = 0) (fun u => ?_) (fun u k hk hne hz => ?_) _
    (.inl (List.mem_range.mpr hn))
  · rw [hflag hn, rd_wr_self]
    rfl
  · rw [hflag (List.mem_range.mp hk)]
    refine (rd_wr_ne _ _ ?_).trans hz
    simp only [Reg.CSK_STAT_ID_CONFLICT, Field.key, Field.addr, dotIdx]
    omega

/-! ### LINK_ROUTE -/

/-- The words that a table's buffer gives port `n`, in the state `s`. -/
structure Routed (b : List Byte) (n : Nat) (s : State) : Prop where
  words : ∀ j, j < 256 → s.rdA Reg.CSK_RT_WORD [n, j] = fieldAt b (64 + 4 * j) 4
  header : ∀ j, j < 4 → s.rdA Reg.CSK_RTHDR_WORD [n, j] = fieldAt b (4 * j) 4

/-- A table staged on a port. -/
def State.routeStaged (s : State) (b : List Byte) (n : Nat) : State :=
  stageWords (stageWords s Reg.CSK_RTHDR_WORD [n] 0 (wordsAt b 0 4)) Reg.CSK_RT_WORD [n] 0 (wordsAt b 64 256)

theorem routePort_eq (b : List Byte) (s : State) (n : Fin 8) : routePort b s n = (s.routeStaged b n).taken (.route n) := rfl

theorem routePort_offSets (b : List Byte) (s : State) (n : Fin 8) : (routePort b s n).offSets = s.offSets := by
  rw [routePort_eq, (taken_spares _ _).view, State.routeStaged, stageWords_offSets, stageWords_offSets]

theorem routePort_routed (b : List Byte) (s : State) (n : Fin 8) : Routed b n (routePort b s n) := by
  have hmod (o : Nat) : fieldAt b o 4 % 2 ^ 32 = fieldAt b o 4 := Nat.mod_eq_of_lt (fieldAt_lt b o 4)
  have hmem (g : Field) {k j : Nat} (hj : j < k) : (g, [n.val, j]) ∈ fieldRow g [n.val] k :=
    List.mem_map.mpr ⟨j, List.mem_range.mpr hj, rfl⟩
  constructor
  · intro j hj
    have hword := stageWords_rd (f := Reg.CSK_RT_WORD) (idx := [n.val]) rfl (wordsAt b 64 256)
      (stageWords s Reg.CSK_RTHDR_WORD [n] 0 (wordsAt b 0 4)) 0 (hj.trans_eq (wordsAt_length _ _ _).symm)
    rw [Nat.zero_add, wordsAt_getD b 64 hj] at hword
    exact (taken_active (e := (Reg.CSK_RT_WORD, [n.val, j])) (List.mem_append_right _ (hmem _ hj)) _).trans (hword.trans (hmod _))
  · intro j hj
    have hword := stageWords_rd (f := Reg.CSK_RTHDR_WORD) (idx := [n.val]) rfl (wordsAt b 0 4) s 0
      (hj.trans_eq (wordsAt_length _ _ _).symm)
    rw [Nat.zero_add, wordsAt_getD b 0 hj, Nat.zero_add] at hword
    refine (taken_active (e := (Reg.CSK_RTHDR_WORD, [n.val, j])) (List.mem_append_left _ (hmem _ hj)) _).trans
      (Eq.trans ?_ (hword.trans (hmod _)))
    refine stageWords_rd_ne _ _ _ fun k _ hk => ?_
    have hk : k < 256 := by rwa [wordsAt_length, Nat.zero_add] at hk
    simp only [Reg.CSK_RT_WORD, Reg.CSK_RTHDR_WORD, Field.key, Field.addr, List.cons_append, List.nil_append, dotIdx]
    omega

/-- Routing one port leaves the tables in effect on the others. -/
theorem routePort_rdA (b : List Byte) (s : State) {n m : Fin 8} (hne : m ≠ n) {g : Field}
    (hg : g = Reg.CSK_RT_WORD ∨ g = Reg.CSK_RTHDR_WORD) {j : Nat} (hj : j < 256) :
    (routePort b s n).rdA g [m, j] = s.rdA g [m, j] := by
  have hne : m.val ≠ n.val := fun h => hne (Fin.ext h)
  have hm := m.isLt
  have hn := n.isLt
  have hact : activeKey (g.mirror.key [m.val, j]) := by
    rcases hg with rfl | rfl
    · simp only [activeKey, Field.mirror, Reg.CSK_RT_WORD, Field.key, Field.addr, dotIdx]
      omega
    · simp only [activeKey, Field.mirror, Reg.CSK_RTHDR_WORD, Field.key, Field.addr, dotIdx]
      omega
  have hstage (h : Field) (hh : h = Reg.CSK_RT_WORD ∨ h = Reg.CSK_RTHDR_WORD) {k : Nat} (hk : k < 256) :
      g.mirror.key [m.val, j] ≠ h.key [n.val, k] ∧ g.mirror.key [m.val, j] ≠ h.mirror.key [n.val, k] := by
    rcases hg with rfl | rfl <;> rcases hh with rfl | rfl <;>
      simp only [Field.mirror, Reg.CSK_RT_WORD, Reg.CSK_RTHDR_WORD, Field.key, Field.addr, dotIdx] <;> omega
  rw [routePort_eq, State.rdA, (taken_spares _ _).rd _ _ (active_not_takenKeys hact ?taken), State.routeStaged,
    stageWords_rd_ne _ _ _ ?words, stageWords_rd_ne _ _ _ ?header, State.rdA]
  case taken =>
    intro e he
    rcases List.mem_append.mp he with he | he
    · obtain ⟨k, hk, rfl⟩ := List.mem_map.mp he
      exact (hstage _ (.inr rfl) (by have := List.mem_range.mp hk; omega)).2
    · obtain ⟨k, hk, rfl⟩ := List.mem_map.mp he
      exact (hstage _ (.inl rfl) (List.mem_range.mp hk)).2
  case words =>
    intro k _ hk
    rw [wordsAt_length, Nat.zero_add] at hk
    exact (hstage _ (.inl rfl) hk).1
  case header =>
    intro k _ hk
    rw [wordsAt_length, Nat.zero_add] at hk
    exact (hstage _ (.inr rfl) (by omega)).1

/-- The table of a buffer taken on every port. -/
def State.routesTaken (s : State) (b : List Byte) : State := (List.finRange 8).foldl (routePort b) s

theorem routesTaken_offSets (s : State) (b : List Byte) : (s.routesTaken b).offSets = s.offSets := by
  unfold State.routesTaken
  generalize List.finRange 8 = l
  induction l generalizing s with
  | nil => rfl
  | cons n r ih => rw [List.foldl_cons, ih, routePort_offSets]

theorem routesTaken_routed (s : State) (b : List Byte) (n : Fin 8) : Routed b n (s.routesTaken b) := by
  refine foldl_reaches (Q := Routed b n) (fun u => routePort_routed b u n) (fun u m _ hne hr => ?_) s (.inl (List.mem_finRange n))
  exact ⟨fun j hj => (routePort_rdA b u hne.symm (.inl rfl) hj).trans (hr.words j hj),
    fun j hj => (routePort_rdA b u hne.symm (.inr rfl) (by omega)).trans (hr.header j hj)⟩

/-- What LINK_ROUTE leaves before its answer. -/
def State.routedBy (s : State) (c : Cmd) (b : List Byte) : State :=
  let s := (s.afterBuffer c 8).routesTaken b
  evaluatePorts { s with link := { s.link with routed := true } }

theorem linkRouteOp_routes (h : Startable s f i 0xA03 c) {buf : HostBuf} {b : List Byte} (hb : s.buffer f (c.ref 8) 8 buf = .ok b)
    (hlen : b.length = 1088) (hok : routeCheck b = none) : linkRouteOp s f i buf = done (s.routedBy c b) c [] := by
  unfold linkRouteOp
  rw [acs_starts h]
  dsimp only
  rw [withBuffer_ok h.place.1 hb, if_neg (by rw [hlen]; decide), hok]
  dsimp only
  unfold State.routedBy State.routesTaken
  rfl

theorem linkRouteOp_refuses (h : Startable s f i 0xA03 c) {buf : HostBuf} {b : List Byte} (hb : s.buffer f (c.ref 8) 8 buf = .ok b) :
    (b.length ≠ 1088 → Answers (s.afterBuffer c 8) (linkRouteOp s f i buf) f i .badParam (failBody 16 0 b.length)) ∧
    (∀ v, b.length = 1088 → routeCheck b = some v →
      Answers (s.afterBuffer c 8) (linkRouteOp s f i buf) f i .routeInvalid (failBody 8 0 v)) := by
  have hcmd : (s.afterBuffer c 8).cmd? f i = some c := (afterBuffer_cmd? s c 8 f i).trans h.fetched
  unfold linkRouteOp
  rw [acs_starts h]
  dsimp only
  rw [withBuffer_ok h.place.1 hb]
  refine ⟨fun hlen => ?_, fun v hlen hv => ?_⟩
  · rw [if_pos hlen]
    exact fail_answers hcmd _ _ _ _
  · rw [if_neg (by rw [hlen]; decide), hv]
    exact fail_answers hcmd _ _ _ _

theorem routedBy_part {α : Type} (s : State) (c : Cmd) (b : List Byte) (p : State → α) (he : ∀ u : State, p u.offEval = p u)
    (hs : ∀ u : State, p u.offSets = p u) (ht : ∀ u : State, p u.offTraffic = p u)
    (hr : ∀ u : State, p { u with link := { u.link with routed := true } } = p u) : p (s.routedBy c b) = p s := by
  rw [State.routedBy, ((Evaluates.refl _).evaluatePorts).part p he, hr, State.offSets_part (routesTaken_offSets _ b) p hs,
    afterBuffer_part s c 8 p ht]

theorem routedBy_routed (s : State) (c : Cmd) (b : List Byte) : (s.routedBy c b).link.routed = true := by
  rw [State.routedBy, ((Evaluates.refl _).evaluatePorts).part (fun u => u.link.routed) fun _ => rfl]

/-- Evaluating the ports leaves the tables in effect. -/
theorem routedBy_rdA (s : State) (c : Cmd) (b : List Byte) {g : Field} (hb : 0x808000 ≤ g.mirror.base)
    (hl : g.mirror.base + 0x400 < 0x810000) (hs : g.strides = [65536, 4]) (hlo : g.lo < 128) {j : Nat} (hn : n < 8) (hj : j < 256) :
    (s.routedBy c b).rdA g [n, j] = ((s.afterBuffer c 8).routesTaken b).rdA g [n, j] := by
  rw [State.routedBy]
  generalize (s.afterBuffer c 8).routesTaken b = u
  exact ((Evaluates.refl _).evaluatePorts.rd _ _ (evalKey_word hn hb hl hs hlo hj)).trans (rd_congr (s := u) rfl _ _)

/-! ### LINK_ENABLE -/

/-- The ports that a mask names. -/
def maskPorts (mask : Nat) : List Nat := (List.range 8).filter (bitOf mask)

theorem mem_maskPorts {mask : Nat} : n ∈ maskPorts mask ↔ n < 8 ∧ bitOf mask n = true := by
  rw [maskPorts, List.mem_filter, List.mem_range]

theorem maskPorts_any {mask : Nat} {p : Nat → Bool} :
    (maskPorts mask).any p = true ↔ ∃ n, n < 8 ∧ bitOf mask n = true ∧ p n = true := by
  simp only [List.any_eq_true, mem_maskPorts, and_assoc]

/-- The ports of a mask enabled or disabled and evaluated. -/
def State.portsEnabled (s : State) (mask bits : Nat) : State :=
  (maskPorts mask).foldl (fun s n => portEvaluate (s.wrb Reg.CSK_CTL_ENABLE [n] (bitOf bits n)) n) s

theorem linkEnableOp_down (h : Startable s f i 0xA04 c) (hd : ∃ n, n < 8 ∧ bitOf (c.fld 8 1) n = true ∧ (s.port n).trained = false) :
    Answers s (linkEnableOp s f i) f i .linkDown (failBody 8 0 (c.fld 8 1)) := by
  obtain ⟨n, hn, hbit, hdown⟩ := hd
  exact acs_fail h (if_pos (maskPorts_any.mpr ⟨n, hn, hbit, by rw [hdown]; rfl⟩))

section
variable (ht : ∀ n, n < 8 → bitOf (c.fld 8 1) n = true → (s.port n).trained = true)
include ht

theorem maskPorts_trained : ¬ (maskPorts (c.fld 8 1)).any (fun n => !(s.port n).trained) = true := by
  intro hany
  obtain ⟨n, hn, hbit, hdown⟩ := maskPorts_any.mp hany
  rw [ht n hn hbit] at hdown
  exact Bool.false_ne_true hdown

theorem linkEnableOp_quarantined (h : Startable s f i 0xA04 c)
    (hq : ∃ n, n < 8 ∧ bitOf (c.fld 8 1) n = true ∧ s.portState n = psQuarantined) :
    Answers s (linkEnableOp s f i) f i .portQuarantined (failBody 8 0 (c.fld 8 1)) := by
  obtain ⟨n, hn, hbit, hquar⟩ := hq
  exact acs_fail h ((if_neg (maskPorts_trained ht)).trans
    (if_pos (maskPorts_any (p := fun n => s.portState n == psQuarantined).mpr ⟨n, hn, hbit, beq_iff_eq.mpr hquar⟩)))

theorem linkEnableOp_enables (h : Startable s f i 0xA04 c)
    (hq : ∀ n, n < 8 → bitOf (c.fld 8 1) n = true → s.portState n ≠ psQuarantined) :
    linkEnableOp s f i = done (s.portsEnabled (c.fld 8 1) (c.fld 9 1)) c [] := by
  have hfree : ¬ (maskPorts (c.fld 8 1)).any (fun n => s.portState n == psQuarantined) = true := by
    intro hany
    obtain ⟨n, hn, hbit, hquar⟩ := maskPorts_any.mp hany
    exact hq n hn hbit (beq_iff_eq.mp hquar)
  unfold linkEnableOp
  rw [acs_starts h]
  exact (if_neg (maskPorts_trained ht)).trans (if_neg hfree)

end

theorem portsEnabled_offEval (s : State) (mask bits : Nat) : (s.portsEnabled mask bits).offEval = s.offEval :=
  (Spares.foldl (v := State.offEval) (P := fun _ => False) _ _ (fun _ n hn h =>
    (h.wr Reg.CSK_CTL_ENABLE [n] _ rfl not_false).trans
      ⟨((Evaluates.refl _).portEvaluate (mem_maskPorts.mp hn).1).view, fun _ _ => False.elim⟩) (.refl _ _ s)).view

theorem enableKey_ne (h : m ≠ n) : Reg.CSK_CTL_ENABLE.key [m] ≠ Reg.CSK_CTL_ENABLE.key [n] := by
  simp only [Reg.CSK_CTL_ENABLE, Field.key, Field.addr, dotIdx]
  omega

theorem portEvaluate_enable (hn : n < 8) (hm : m < 8) :
    (portEvaluate s n).on Reg.CSK_CTL_ENABLE [m] = s.on Reg.CSK_CTL_ENABLE [m] :=
  ((Evaluates.refl s).portEvaluate hn).regs.on _ _ (evalKey_field hm (by decide) (by decide) rfl (by decide) (.inl (by decide)))

/-- ENABLE of each named port is its bit, and of the others as it was. -/
theorem portsEnabled_on (s : State) (mask bits : Nat) (hn : n < 8) : (s.portsEnabled mask bits).on Reg.CSK_CTL_ENABLE [n] =
    if bitOf mask n = true then bitOf bits n else s.on Reg.CSK_CTL_ENABLE [n] := by
  unfold State.portsEnabled
  split
  · next hbit =>
    refine foldl_reaches (Q := fun u : State => u.on Reg.CSK_CTL_ENABLE [n] = bitOf bits n) (fun u => ?_)
      (fun u k hk hne hu => ?_) s (.inl (mem_maskPorts.mpr ⟨hn, hbit⟩))
    · rw [portEvaluate_enable hn hn, on_wrb_self _ _ _ rfl]
    · rw [portEvaluate_enable (mem_maskPorts.mp hk).1 hn]
      exact (on_wr_ne _ _ (enableKey_ne hne.symm)).trans hu
  · next hbit =>
    refine SameOn.on (P := (· = Reg.CSK_CTL_ENABLE.key [n])) (.foldl _ _ (fun u k hk h => ?_) (.refl _ s)) _ _ rfl
    obtain ⟨hk, hnamed⟩ := mem_maskPorts.mp hk
    have hne : n ≠ k := fun he => hbit (he ▸ hnamed)
    refine SameOn.trans (h.wr _ _ _ (Ne.symm (enableKey_ne hne))) (((Evaluates.refl _).portEvaluate hk).regs.mono ?_)
    rintro _ rfl
    exact evalKey_field hn (by decide) (by decide) rfl (by decide) (.inl (by decide))

/-! ### What the commands leave -/

theorem linkSetIdOp_shows (h : Startable s f i 0xA02 c) (hid : s.idTaken (c.fld 8 1) = false)
    (hidle : ∀ n, n < 8 → s.portState n ≠ psActive) : (linkSetIdOp s f i).link.dieId = c.fld 8 1 ∧
    (linkSetIdOp s f i).link.idValid = true ∧ (∀ n, n < 8 → (linkSetIdOp s f i).on Reg.CSK_STAT_ID_CONFLICT [n] = false) ∧
    (linkSetIdOp s f i).resultOf f i = some (0, []) ∧ (linkSetIdOp s f i).hbm = s.hbm ∧
    (linkSetIdOp s f i).plots = s.plots ∧ (linkSetIdOp s f i).jobs = s.jobs := by
  have heval : Evaluates (s.idSet (c.fld 8 1)) (evaluatePorts (s.idSet (c.fld 8 1))) := (Evaluates.refl _).evaluatePorts
  have hset {α : Type} (p : State → α) (he : ∀ u : State, p u.offEval = p u) (hp : ∀ u : State, p u.still = p u) :
      p (evaluatePorts (s.idSet (c.fld 8 1))) =
        p { s.still with link := { s.link with dieId := c.fld 8 1, idValid := true } } := by
    rw [heval.part p he, ← hp, idSet_still]
  have hcmd : (evaluatePorts (s.idSet (c.fld 8 1))).cmd? f i = some c :=
    (hset (fun u => u.cmd? f i) (fun _ => rfl) (fun _ => rfl)).trans h.fetched
  have hans : Answers _ (linkSetIdOp s f i) f i .ok [] := linkSetIdOp_takes h hid hidle ▸ done_answers hcmd []
  refine ⟨?_, ?_, fun n hn => ?_, hans.result, ?_, ?_, ?_⟩
  · exact (hans.part (fun u => u.link.dieId) fun _ => rfl).trans (hset (fun u => u.link.dieId) (fun _ => rfl) (fun _ => rfl))
  · exact (hans.part (fun u => u.link.idValid) fun _ => rfl).trans (hset (fun u => u.link.idValid) (fun _ => rfl) (fun _ => rfl))
  · rw [State.on, hans.rd, heval.rd _ _ (evalKey_field hn (by decide) (by decide) rfl (by decide) (.inr (by decide))),
      idSet_conflict _ _ hn]
    rfl
  · exact (hans.part State.hbm fun _ => rfl).trans (hset State.hbm (fun _ => rfl) (fun _ => rfl))
  · exact (hans.part State.plots fun _ => rfl).trans (hset State.plots (fun _ => rfl) (fun _ => rfl))
  · exact (hans.part State.jobs fun _ => rfl).trans (hset State.jobs (fun _ => rfl) (fun _ => rfl))

theorem linkRouteOp_shows (h : Startable s f i 0xA03 c) {buf : HostBuf} {b : List Byte}
    (hb : s.buffer f (c.ref 8) 8 buf = .ok b) (hlen : b.length = 1088) (hok : routeCheck b = none) :
    (linkRouteOp s f i buf).link.routed = true ∧ (∀ n, n < 8 → Routed b n (linkRouteOp s f i buf)) ∧
    (linkRouteOp s f i buf).resultOf f i = some (0, []) ∧ (linkRouteOp s f i buf).hbm = s.hbm ∧
    (linkRouteOp s f i buf).plots = s.plots ∧ (linkRouteOp s f i buf).jobs = s.jobs := by
  have hkeep {α : Type} := routedBy_part (α := α) s c b
  have hcmd : (s.routedBy c b).cmd? f i = some c :=
    (hkeep (fun u => u.cmd? f i) (fun _ => rfl) (fun _ => rfl) (fun _ => rfl) fun _ => rfl).trans h.fetched
  have hans : Answers _ (linkRouteOp s f i buf) f i .ok [] := linkRouteOp_routes h hb hlen hok ▸ done_answers hcmd []
  refine ⟨?_, fun n hn => ⟨fun j hj => ?_, fun j hj => ?_⟩, hans.result, ?_, ?_, ?_⟩
  · exact (hans.part (fun u => u.link.routed) fun _ => rfl).trans (routedBy_routed s c b)
  · rw [State.rdA, hans.rd, ← State.rdA, routedBy_rdA s c b (by decide) (by decide) rfl (by decide) hn hj]
    exact (routesTaken_routed _ b ⟨n, hn⟩).words j hj
  · rw [State.rdA, hans.rd, ← State.rdA, routedBy_rdA s c b (by decide) (by decide) rfl (by decide) hn (by omega)]
    exact (routesTaken_routed _ b ⟨n, hn⟩).header j hj
  · exact (hans.part State.hbm fun _ => rfl).trans (hkeep State.hbm (fun _ => rfl) (fun _ => rfl) (fun _ => rfl) fun _ => rfl)
  · exact (hans.part State.plots fun _ => rfl).trans (hkeep State.plots (fun _ => rfl) (fun _ => rfl) (fun _ => rfl) fun _ => rfl)
  · exact (hans.part State.jobs fun _ => rfl).trans (hkeep State.jobs (fun _ => rfl) (fun _ => rfl) (fun _ => rfl) fun _ => rfl)

theorem linkEnableOp_shows (h : Startable s f i 0xA04 c)
    (ht : ∀ n, n < 8 → bitOf (c.fld 8 1) n = true → (s.port n).trained = true)
    (hq : ∀ n, n < 8 → bitOf (c.fld 8 1) n = true → s.portState n ≠ psQuarantined) :
    (linkEnableOp s f i).resultOf f i = some (0, []) ∧ (∀ n, n < 8 → (linkEnableOp s f i).on Reg.CSK_CTL_ENABLE [n] =
      (if bitOf (c.fld 8 1) n = true then bitOf (c.fld 9 1) n else s.on Reg.CSK_CTL_ENABLE [n])) ∧
    (linkEnableOp s f i).hbm = s.hbm ∧ (linkEnableOp s f i).plots = s.plots ∧ (linkEnableOp s f i).jobs = s.jobs := by
  have hpart {α : Type} (p : State → α) (hp : ∀ u : State, p u.offEval = p u) :
      p (s.portsEnabled (c.fld 8 1) (c.fld 9 1)) = p s := by
    rw [← hp, portsEnabled_offEval, hp]
  have hcmd : (s.portsEnabled (c.fld 8 1) (c.fld 9 1)).cmd? f i = some c :=
    (hpart (fun u => u.cmd? f i) fun _ => rfl).trans h.fetched
  have hans : Answers _ (linkEnableOp s f i) f i .ok [] := linkEnableOp_enables ht h hq ▸ done_answers hcmd []
  refine ⟨hans.result, fun n hn => ?_, ?_, ?_, ?_⟩
  · rw [← portsEnabled_on s _ _ hn, State.on, hans.rd, State.on]
  · exact (hans.part State.hbm fun _ => rfl).trans (hpart State.hbm fun _ => rfl)
  · exact (hans.part State.plots fun _ => rfl).trans (hpart State.plots fun _ => rfl)
  · exact (hans.part State.jobs fun _ => rfl).trans (hpart State.jobs fun _ => rfl)

end

/-- Settles O26: the refusals are the tables of checks; evaluating the ports again keeps the ID, the conflicts, the tables
and the enables that a command set. -/
theorem linkCommands : Obligations.LinkCommands := by
  intro s f i c
  refine ⟨fun h => ?setId, fun buf b h hb => ?route, fun h => ?enable⟩
  case setId =>
    obtain ⟨hconflict, hbusy⟩ := linkSetIdOp_refuses h
    exact ⟨fun hid => ⟨_, rfl, hconflict hid⟩, fun hid => ⟨fun hact => ⟨_, rfl, hbusy hid hact⟩,
      fun hidle => ⟨_, rfl, linkSetIdOp_shows h hid hidle⟩⟩⟩
  case route =>
    obtain ⟨hlength, hinvalid⟩ := linkRouteOp_refuses h hb
    refine ⟨fun hlen => ⟨_, rfl, hlength hlen⟩, fun v hlen hv => ⟨_, rfl, hinvalid v hlen hv⟩, fun hlen hok => ?_⟩
    obtain ⟨hrouted, hwords, hrest⟩ := linkRouteOp_shows h hb hlen hok
    exact ⟨_, rfl, hrouted, fun n j hn => (hwords n hn).words j, fun n j hn => (hwords n hn).header j, hrest⟩
  case enable =>
    exact ⟨fun hd => ⟨_, rfl, linkEnableOp_down h hd⟩, fun ht => ⟨fun hq => ⟨_, rfl, linkEnableOp_quarantined ht h hq⟩,
      fun hq => ⟨_, rfl, linkEnableOp_shows h ht hq⟩⟩⟩

end Sys2Proof.Machine
end

/-! ## Table commands (R211-R214, R419, R423) -/

section
namespace Sys2Proof.Machine

section
variable {a s t : State} {f i : Nat} {c : Cmd}

/-! ### Reading a buffer in HBM counts flits below the Sieve's registers -/

/-- Keys above the registers of TOP. -/
def aboveTop (k : Nat) : Prop := 0x1000 * 128 ≤ k

theorem aboveTop_key {g : Field} (hb : 0x1000 ≤ g.base) (j : List Nat) : aboveTop (g.key j) := by
  simp only [aboveTop, Field.key, Field.addr]
  omega

/-- A buffer that was read lies in HBM, so the counters of its traffic are those of the six stacks. -/
theorem afterBuffer_aboveTop {o : Nat} {buf : HostBuf} {b : List Byte} (hb : s.buffer f (c.ref o) o buf = .ok b) :
    Spares State.offTraffic aboveTop s (s.afterBuffer c o) := by
  refine ⟨(afterBuffer_spares s c o).view, ?_⟩
  unfold State.afterBuffer
  split
  · next hsp =>
    have hin : (c.ref o).addr + (c.ref o).len ≤ hbmBytes := by
      unfold State.buffer at hb
      by_contra hout
      have hno : s.holdsHbm f (c.ref o).addr (c.ref o).len = false := by
        rw [State.holdsHbm, State.hbmWorks, decide_eq_false hout]
        rfl
      rw [if_pos hsp, hno] at hb
      split at hb
      · cases hb
      · split at hb
        · cases hb
        · cases hb
    have hlow {n : Nat} (hn : n ≤ 22) : ¬ aboveTop (Reg.TOP_TRL_FLITS_COUNT.key [n]) := by
      simp only [aboveTop, Reg.TOP_TRL_FLITS_COUNT, Field.key, Field.addr, dotIdx]
      omega
    have hstack : (c.ref o).addr / stackBytes ≤ 6 := by
      simp only [hbmBytes, stackBytes] at hin ⊢
      omega
    have h : SameOn aboveTop s (hbmActivity s c.func (cdiv (c.ref o).len 256)) := fun _ _ _ => rfl
    exact (h.wr _ _ _ (hlow (by omega))).wr _ _ _ (hlow (by omega))
  · exact .refl _ s

/-- What the directory shows depends on the registers above TOP. -/
theorem dir_of_aboveTop (h : SameOn aboveTop s t) : t.dir = s.dir := by
  funext x
  unfold State.dir State.dirBytes State.rdA
  exact congrArg dirOf (congrArg (List.flatMap · (List.range 16)) (funext fun w => by rw [h _ _ (aboveTop_key (by decide) _)]))

theorem dirs_congr (h : t.dir = s.dir) : t.dirs = s.dirs := by
  unfold State.dirs
  rw [h]

theorem tableOf_congr (h : t.dir = s.dir) : t.tableOf = s.tableOf := by
  unfold State.tableOf
  rw [h, dirs_congr h]

theorem mapPlace_congr (h : t.dir = s.dir) : t.mapPlace = s.mapPlace := by
  unfold State.mapPlace
  rw [h, dirs_congr h]

theorem tableOf_lt {id x : Nat} (h : s.tableOf f id = some x) : x < 256 :=
  List.mem_range.mp (List.mem_filter.mp (List.mem_of_find?_eq_some h)).1

theorem withTable_some {x : Nat} (hc : c.func = f) (h : s.tableOf f (c.fld 8 2) = some x) (act : Nat → State) :
    withTable s c act = act x := by
  rw [withTable, hc, h]

theorem withTable_none (hc : c.func = f) (h : s.tableOf f (c.fld 8 2) = none) (act : Nat → State) :
    withTable s c act = fail s c .noTable 8 0 (c.fld 8 2) := by
  rw [withTable, hc, h]

/-! ### A directory slot filled (R447) -/

theorem dirKey_ne {x y v w : Nat} (h : y ≠ x) (hv : v < 16) (hw : w < 16) (g : Field) (hg : g.strides = [64, 4]) :
    g.key [y, w] ≠ g.key [x, v] := by
  simp only [Field.key, Field.addr, hg, dotIdx]
  omega

/-- Keys of the active copies of directory slots. -/
def dirActive (k : Nat) : Prop := 0x60A000 * 128 ≤ k ∧ k < 0x60E000 * 128

theorem dirKey_active {x w : Nat} (hx : x < 256) (hw : w < 16) : dirActive (Reg.SIV_DIR_WORD.mirror.key [x, w]) := by
  simp only [dirActive, Field.mirror, Reg.SIV_DIR_WORD, Field.key, Field.addr, dotIdx]
  omega

theorem putDir_eq (s : State) {x : Nat} (hx : x < 256) (b : List Byte) :
    putDir s x b = (stageWords s Reg.SIV_DIR_WORD [x] 0 (wordsAt b 0 16)).taken (.sivDir ⟨x, hx⟩) := by
  have h : Fin.ofNat 256 x = ⟨x, hx⟩ := Fin.ext (Nat.mod_eq_of_lt hx)
  unfold putDir
  rw [h]
  rfl

theorem putDir_offSets (s : State) (x : Nat) (b : List Byte) : (putDir s x b).offSets = s.offSets :=
  (taken_spares _ (.sivDir (Fin.ofNat 256 x))).view.trans (stageWords_offSets _ _ _ _ _)

theorem putDir_rdA_self (s : State) {x w : Nat} (hx : x < 256) (hw : w < 16) (b : List Byte) :
    (putDir s x b).rdA Reg.SIV_DIR_WORD [x, w] = fieldAt b (4 * w) 4 := by
  have hword := stageWords_rd (f := Reg.SIV_DIR_WORD) (idx := [x]) rfl (wordsAt b 0 16) s 0
    (hw.trans_eq (wordsAt_length _ _ _).symm)
  rw [Nat.zero_add, wordsAt_getD b 0 hw, Nat.zero_add] at hword
  have hmod : fieldAt b (4 * w) 4 % 2 ^ 32 = fieldAt b (4 * w) 4 := Nat.mod_eq_of_lt (fieldAt_lt b _ 4)
  rw [putDir_eq s hx]
  exact (taken_active (e := (Reg.SIV_DIR_WORD, [x, w])) (x := .sivDir ⟨x, hx⟩)
    (List.mem_map.mpr ⟨w, List.mem_range.mpr hw, rfl⟩) _).trans (hword.trans hmod)

theorem putDir_rdA_ne (s : State) {x y w : Nat} (hx : x < 256) (hy : y < 256) (hne : y ≠ x) (hw : w < 16) (b : List Byte) :
    (putDir s x b).rdA Reg.SIV_DIR_WORD [y, w] = s.rdA Reg.SIV_DIR_WORD [y, w] := by
  obtain ⟨hlow, hhigh⟩ := dirKey_active hy hw
  have hact : activeKey (Reg.SIV_DIR_WORD.mirror.key [y, w]) := by
    simp only [activeKey]
    omega
  rw [putDir_eq s hx, State.rdA, (taken_spares _ _).rd _ _ (active_not_takenKeys hact ?taken), stageWords_rd_ne _ _ _ ?staged,
    State.rdA]
  case taken =>
    intro e he
    obtain ⟨v, hv, rfl⟩ := List.mem_map.mp he
    exact dirKey_ne hne (List.mem_range.mp hv) hw _ rfl
  case staged =>
    intro v _ hv
    rw [wordsAt_length, Nat.zero_add] at hv
    simp only [Reg.SIV_DIR_WORD, Field.key, Field.addr, List.cons_append, List.nil_append, dotIdx] at hlow ⊢
    omega

/-- Filling a geometry slot writes Furrow's registers. -/
theorem putGeo_spares (s : State) (u x : Nat) (words : List Nat) :
    Spares State.offSets (· < 0x700000 * 128) s (putGeo s u x words) := by
  have hset : ∀ e ∈ setFields (.furGeo (Fin.ofNat 6 u) (Fin.ofNat 256 x)), 0x700000 * 128 ≤ e.1.mirror.key e.2 := by
    intro e he
    obtain ⟨w, -, rfl⟩ := List.mem_map.mp he
    simp only [Reg.FUR_GEO_WORD, Field.mirror, Field.key, Field.addr]
    omega
  have hcommit : 0x700000 ≤ commitAddr (.furGeo (Fin.ofNat 6 u) (Fin.ofNat 256 x)) := by
    simp only [commitAddr, Reg.FUR_GEO_COMMIT_COMMIT, Field.addr]
    omega
  have htaken : ∀ k ∈ takenKeys (.furGeo (Fin.ofNat 6 u) (Fin.ofNat 256 x)), 0x700000 * 128 ≤ k := by
    intro k hk
    rcases List.mem_append.mp hk with hk | hk
    · simp only [List.mem_cons, List.not_mem_nil, or_false] at hk
      rcases hk with rfl | rfl | rfl
      all_goals
        simp only [Field.key, Field.addr, cSuperseded, cPending, cGen]
        omega
    · obtain ⟨e, he, rfl⟩ := List.mem_map.mp hk
      exact hset e he
  refine Spares.trans ⟨stageWords_offSets Reg.FUR_GEO_WORD [u, x] words s 0, fun g j hg => stageWords_rd_ne _ _ _ fun n _ _ hn => ?_⟩
    ⟨(taken_spares _ (.furGeo (Fin.ofNat 6 u) (Fin.ofNat 256 x))).view,
      (taken_spares _ _).regs.mono fun k hk hm => absurd hk (Nat.not_lt.mpr (htaken k hm))⟩
  rw [hn] at hg
  simp only [Reg.FUR_GEO_WORD, Field.key, Field.addr] at hg
  omega

/-! ### The shard-map memory -/

theorem putMap_eq (s : State) (a : Nat) (l : List (List Byte)) : ∃ m, putMap s a l = { s with shard := m } := by
  induction l generalizing s a with
  | nil => exact ⟨_, rfl⟩
  | cons e r ih => exact ih _ _

theorem putMap_mapEntry_lt (s : State) {a n : Nat} (l : List (List Byte)) (h : n < a) :
    (putMap s a l).mapEntry n = s.mapEntry n := by
  induction l generalizing s a with
  | nil => rfl
  | cons e r ih =>
    rw [putMap, ih _ (Nat.lt_succ_of_lt h)]
    exact FMap.get_set_ne _ _ _ _ (Nat.ne_of_lt h)

theorem putMap_mapEntry (s : State) (a : Nat) {l : List (List Byte)} {k : Nat} (hk : k < l.length) :
    (putMap s a l).mapEntry (a + k) = l.getD k [] := by
  induction l generalizing s a k with
  | nil => exact absurd hk (Nat.not_lt_zero k)
  | cons e r ih =>
    rw [putMap]
    cases k with
    | zero =>
      rw [putMap_mapEntry_lt _ _ (by omega), List.getD_cons_zero]
      exact FMap.get_set_self _ _ _ _
    | succ k =>
      rw [show a + (k + 1) = a + 1 + k by omega, ih _ _ (by simpa using hk), List.getD_cons_succ]

/-! ### A table's slot, geometry, entries and base -/

/-- Slot `x` filled with `bytes` and the geometry `geo` on the stacks of a mask, entries from `a`, and the base. -/
def State.slotPut (s : State) (x a : Nat) (map : List (List Byte)) (bytes : List Byte) (mask : Nat) (geo : List Nat) (base : Nat) :
    State :=
  ((maskStacks mask).foldl (fun s u => putGeo s u x geo) (putDir (putMap s a map) x bytes)).wr Reg.SIV_BASE_BASE [x] base

/-- A state without what filling a slot changes. -/
def State.offTable (s : State) : State := { s with regs := [], captured := [], shard := [] }

section
variable (s) {x : Nat} (hx : x < 256) (p : Nat) (map : List (List Byte)) (bytes : List Byte) (mask : Nat) (geo : List Nat) (base : Nat)

theorem geosPut_spares : Spares State.offSets (· < 0x700000 * 128) s ((maskStacks mask).foldl (fun s u => putGeo s u x geo) s) :=
  .foldl _ _ (fun u n _ h => h.trans (putGeo_spares u n x geo)) (.refl _ _ s)

theorem slotPut_offSets : (s.slotPut x p map bytes mask geo base).offSets = (putMap s p map).offSets := by
  rw [State.slotPut, offSets_wr, (geosPut_spares _ mask geo).view, putDir_offSets]

theorem slotPut_offTable : (s.slotPut x p map bytes mask geo base).offTable = s.offTable := by
  obtain ⟨m, hm⟩ := putMap_eq s p map
  rw [State.offSets_part (slotPut_offSets s p map bytes mask geo base) State.offTable (fun _ => rfl), hm]
  rfl

theorem slotPut_part {α : Type} (v : State → α) (hv : ∀ u : State, v u.offTable = v u) :
    v (s.slotPut x p map bytes mask geo base) = v s := by
  rw [← hv, slotPut_offTable, hv]

theorem slotPut_mapEntry {k : Nat} (hk : k < map.length) :
    (s.slotPut x p map bytes mask geo base).mapEntry (p + k) = map.getD k [] :=
  (State.offSets_part (slotPut_offSets s p map bytes mask geo base) (fun u => u.mapEntry (p + k)) (fun _ => rfl)).trans
    (putMap_mapEntry s p hk)

theorem slotPut_base (hb : base < 2 ^ 64) : (s.slotPut x p map bytes mask geo base).rd Reg.SIV_BASE_BASE [x] = base :=
  (rd_wr_self _ _ _ _).trans (Nat.mod_eq_of_lt hb)

include hx

/-- The directory in effect after a slot is filled is what the directory's words alone leave. -/
theorem slotPut_dirWord {y w : Nat} (hy : y < 256) (hw : w < 16) :
    (s.slotPut x p map bytes mask geo base).rdA Reg.SIV_DIR_WORD [y, w] =
      (putDir (putMap s p map) x bytes).rdA Reg.SIV_DIR_WORD [y, w] := by
  obtain ⟨hlow, hhigh⟩ := dirKey_active hy hw
  have hne : Reg.SIV_DIR_WORD.mirror.key [y, w] ≠ Reg.SIV_BASE_BASE.key [x] := by
    intro he
    rw [he] at hlow
    simp only [Reg.SIV_BASE_BASE, Field.key, Field.addr, dotIdx] at hlow
    omega
  rw [State.rdA, State.slotPut, rd_wr_ne _ _ hne]
  exact (geosPut_spares _ mask geo).rd _ _ (by omega)

theorem slotPut_self {w : Nat} (hw : w < 16) :
    (s.slotPut x p map bytes mask geo base).rdA Reg.SIV_DIR_WORD [x, w] = fieldAt bytes (4 * w) 4 := by
  rw [slotPut_dirWord s hx p map bytes mask geo base hx hw, putDir_rdA_self _ hx hw]

theorem slotPut_ne {y w : Nat} (hy : y < 256) (hne : y ≠ x) (hw : w < 16) :
    (s.slotPut x p map bytes mask geo base).rdA Reg.SIV_DIR_WORD [y, w] = s.rdA Reg.SIV_DIR_WORD [y, w] := by
  obtain ⟨m, hm⟩ := putMap_eq s p map
  rw [slotPut_dirWord s hx p map bytes mask geo base hy hw, putDir_rdA_ne _ hx hy hne hw, hm]
  rfl

end

/-! ### TBL_DEFINE -/

theorem ite_some_eq_none {α : Type} {p : Prop} [Decidable p] {x : α} {o : Option α} (h : (if p then some x else o) = none) :
    ¬ p ∧ o = none := by
  split at h
  · exact absurd h (Option.some_ne_none x)
  · next hp => exact ⟨hp, h⟩

/-- A composed table that passes the checks names two tables of its function. -/
theorem defineBad_components {b : List Byte} (h : s.defineBad c b = none) (hk : smKind b = 2) :
    ∃ p q, s.tableOf c.func (fieldAt b 34 2) = some p ∧ s.tableOf c.func (fieldAt b 36 2) = some q := by
  unfold State.defineBad at h
  extract_lets k base d map n comp ent low at h
  have hent : ent = none := if_pos (.inl hk)
  rw [hent] at h
  replace h := (ite_some_eq_none (ite_some_eq_none (ite_some_eq_none (ite_some_eq_none (ite_some_eq_none h).2).2).2).2).2
  replace h := (ite_some_eq_none (ite_some_eq_none (ite_some_eq_none (ite_some_eq_none (ite_some_eq_none h).2).2).2).2).2
  replace h := (ite_some_eq_none h).2
  split at h
  · cases h
  · split at h
    · cases h
    · split at h
      · cases h
      · replace h := (ite_some_eq_none (ite_some_eq_none h).2).2
        rw [if_neg (not_not.mpr hk)] at h
        split at h
        · cases h
        · cases h
        · next p q hp hq => exact ⟨p, q, (Option.filter_eq_some_iff.mp hp).1, (Option.filter_eq_some_iff.mp hq).1⟩

/-- What firmware keeps of a table defined. -/
def defTbl (c : Cmd) : Tbl :=
  { versioned := bitOf (c.fld 11 1) 1, optState := bitOf (c.fld 11 1) 2,
    stateBytes := if bitOf (c.fld 11 1) 2 then c.fld 14 2 else 0 }

/-- The table of a component, slot 0 when the table is no composition. -/
def State.compSlot (s : State) (c : Cmd) (b : List Byte) (o : Nat) : Nat :=
  if (defDir c b).kind = 2 then (s.tableOf c.func (fieldAt b o 2)).getD 0 else 0

/-- The directory slot of a definition, its entries at `p`. -/
def State.definedDir (s : State) (c : Cmd) (b : List Byte) (p : Nat) : Dir :=
  { defDir c b with mapBase := p, compP := s.compSlot c b 34, compQ := s.compSlot c b 36 }

/-- A table defined in slot `x`, before the answer. -/
def State.tableDefined (s : State) (c : Cmd) (b : List Byte) (x p : Nat) : State :=
  (s.slotPut x p (smMap b) (dirPack (s.definedDir c b p)) (s.definedDir c b p).mask (geoWords (s.definedDir c b p))
    (fieldAt b 24 8)).setTbl x (defTbl c)

/-- A state without what defining or deleting a table changes. -/
def State.offDefs (s : State) : State := { s.offTable with tbls := [] }

/-- The answer to a definition: version 1 and the bytes of this die's rows. -/
def State.definedBody (s : State) (c : Cmd) (b : List Byte) : List Byte :=
  leBytes 4 1 ++ fill 4 0 ++
    leBytes 8 ((if (defDir c b).kind = 2 then 0 else ownedRows (defDir c b) (smMap b) s.self) * (defDir c b).pitch)

theorem definedBody_shows (s : State) (c : Cmd) (b : List Byte) :
    (s.definedBody c b).length = 16 ∧ fieldAt (s.definedBody c b) 0 4 = 1 := by
  constructor
  · simp [State.definedBody, fill_length, leBytes_length]
  · simp [State.definedBody, List.append_assoc]

theorem defineTable_places {b : List Byte} {x p : Nat} (hx : (List.range 256).find? (fun t => !(s.dir t).valid) = some x)
    (hp : s.mapPlace (defDir c b).entries = some p) :
    defineTable s c b = done (s.tableDefined c b x p) c (s.definedBody c b) := by
  unfold defineTable
  extract_lets d map free
  have hfree : free = some x := hx
  rw [hfree, hp]
  rfl

theorem tableDefined_part {α : Type} (s : State) (c : Cmd) (b : List Byte) (x p : Nat) (v : State → α)
    (hv : ∀ u : State, v u.offDefs = v u) : v (s.tableDefined c b x p) = v s := by
  have h : (s.tableDefined c b x p).offDefs = s.offDefs :=
    slotPut_part s _ _ _ _ _ (fieldAt b 24 8) State.offDefs fun _ => rfl
  rw [← hv, h, hv]

/-- What a defined table's slot, entries, base and record hold. -/
theorem tableDefined_shows (s : State) (c : Cmd) (b : List Byte) {x : Nat} (hx : x < 256) (p : Nat) :
    (∀ w, w < 16 → (s.tableDefined c b x p).rdA Reg.SIV_DIR_WORD [x, w] = fieldAt (dirPack (s.definedDir c b p)) (4 * w) 4) ∧
    (∀ y w, y < 256 → y ≠ x → w < 16 →
      (s.tableDefined c b x p).rdA Reg.SIV_DIR_WORD [y, w] = s.rdA Reg.SIV_DIR_WORD [y, w]) ∧
    (∀ k, k < (smMap b).length → (s.tableDefined c b x p).mapEntry (p + k) = (smMap b).getD k []) ∧
    (s.tableDefined c b x p).rd Reg.SIV_BASE_BASE [x] = fieldAt b 24 8 ∧ (s.tableDefined c b x p).tbl x = defTbl c :=
  ⟨fun _ hw => slotPut_self s hx _ _ _ _ _ _ hw, fun _ _ hy hne hw => slotPut_ne s hx _ _ _ _ _ _ hy hne hw,
    fun _ hk => slotPut_mapEntry s _ _ _ _ _ (fieldAt b 24 8) hk,
    slotPut_base s _ _ _ _ _ _ (fieldAt_lt b 24 8), FMap.get_put_self _ _ _ _⟩

theorem compSlot_none (s : State) {b : List Byte} (hk : (defDir c b).kind ≠ 2) (o : Nat) : s.compSlot c b o = 0 := if_neg hk

theorem compSlot_some {b : List Byte} (hk : (defDir c b).kind = 2) {o p : Nat} (hp : s.tableOf c.func (fieldAt b o 2) = some p) :
    s.compSlot c b o = p := (if_pos hk).trans (by rw [hp]; rfl)

theorem tblDefineOp_checks (h : Startable s f i 0x301 c) {buf : HostBuf} {b : List Byte}
    (hb : s.buffer f (c.ref 24) 24 buf = .ok b) {e : Status × Nat × Nat × Nat} (he : (s.afterBuffer c 24).defineBad c b = some e) :
    Answers (s.afterBuffer c 24) (tblDefineOp s f i buf) f i e.1 (failBody e.2.1 e.2.2.1 e.2.2.2) := by
  unfold tblDefineOp
  rw [acs_starts h]
  rw [withBuffer_ok h.place.1 hb, he]
  exact fail_answers ((afterBuffer_cmd? s c 24 f i).trans h.fetched) _ _ _ _

theorem tblDefineOp_defines (h : Startable s f i 0x301 c) {buf : HostBuf} {b : List Byte}
    (hb : s.buffer f (c.ref 24) 24 buf = .ok b) (hok : (s.afterBuffer c 24).defineBad c b = none) {x p : Nat}
    (hx : (List.range 256).find? (fun t => !(s.dir t).valid) = some x) (hp : s.mapPlace (defDir c b).entries = some p) :
    Answers ((s.afterBuffer c 24).tableDefined c b x p) (tblDefineOp s f i buf) f i .ok ((s.afterBuffer c 24).definedBody c b) := by
  have hdir := dir_of_aboveTop (afterBuffer_aboveTop hb).regs
  unfold tblDefineOp
  rw [acs_starts h]
  rw [withBuffer_ok h.place.1 hb, hok]
  dsimp only
  rw [defineTable_places (x := x) (p := p) (by rw [hdir]; exact hx) (by rw [mapPlace_congr hdir]; exact hp)]
  exact done_answers ((tableDefined_part _ c b x p (fun u => u.cmd? f i) fun _ => rfl).trans
    ((afterBuffer_cmd? s c 24 f i).trans h.fetched)) _

/-! ### Keyed invalidations -/

/-- A command left running while one table's lines are invalidated. -/
structure Invalidates (s t : State) (f i : Nat) (c : Cmd) (k : Nat) : Prop where
  busy : t.rd Reg.RWC_STAT_INV_BUSY [] = 1
  inv : t.rwc.inv = s.rwc.inv ++ [k]
  lines : ∀ e, e ∈ t.rwc.lines → e.2.tkey ≠ k
  waits : t.rwc.waits = s.rwc.waits ++ [(f, i)]
  cmd : t.cmd? f i = some { c with started := true }
  rest : { t with regs := [], rwc := {}, mbx := {} } = { s with regs := [], rwc := {}, mbx := {} }
  regs : SameOn (· ≠ Reg.RWC_STAT_INV_BUSY.key []) s t

theorem Invalidates.part {k : Nat} {α : Type} (h : Invalidates s t f i c k) (p : State → α)
    (hp : ∀ u : State, p { u with regs := [], rwc := {}, mbx := {} } = p u) : p t = p s := by
  rw [← hp t, h.rest, hp s]

theorem invalidateFor_regs (s : State) (c : Cmd) (k : Nat) :
    (invalidateFor s c [k]).regs = (s.wr Reg.RWC_STAT_INV_BUSY [] 1).regs := rfl

theorem busyKey_ne {g : Field} (hl : g.lo = 0) (j : List Nat) : g.key j ≠ Reg.RWC_STAT_INV_BUSY.key [] := by
  simp only [Reg.RWC_STAT_INV_BUSY, Field.key, hl]
  omega

theorem invalidateFor_invalidates (h : s.cmd? f i = some c) {k : Nat} (hk : k < 2 ^ 32) :
    Invalidates s (invalidateFor s c [k]) f i c k where
  busy := (rd_congr (invalidateFor_regs s c k) _ _).trans (rd_wr_self s _ _ _)
  inv := congrArg (s.rwc.inv ++ [·]) (Nat.mod_eq_of_lt hk)
  lines := fun e he hkey => by
    have hkeep : (!(e.2.tkey == k)) = true := (List.mem_filter.mp he).2
    rw [hkey, beq_self_eq_true] at hkeep
    exact Bool.false_ne_true hkeep
  waits := by
    obtain ⟨hf, hi⟩ := cmd?_place h
    rw [← hf, ← hi]
    rfl
  cmd :=
    have hplace := cmd?_place h
    setCmd_cmd?_self h hplace
  rest := rfl
  regs := ((SameOn.refl _ s).wr _ _ _ (not_not.mpr rfl)).set (invalidateFor_regs s c k)

theorem dir_tkey_lt (s : State) (x : Nat) : (s.dir x).tkey < 2 ^ 32 := fieldAt_lt _ 0 4

/-! ### TBL_DELETE -/

/-- Slot `x` emptied. -/
def State.tableEmptied (s : State) (x : Nat) : State :=
  let u := s.slotPut x (s.dir x).mapBase (List.replicate (s.dir x).entries (fill 16 0)) (fill 64 0) (s.dir x).mask [0, 0, 0, 0] 0
  { u with tbls := FMap.erase u.tbls x }

section
variable (h : Startable s f i 0x302 c)
include h

theorem tblDeleteOp_unnamed (hx : s.tableOf f (c.fld 8 2) = none) :
    Answers s (tblDeleteOp s f i) f i .noTable (failBody 8 0 (c.fld 8 2)) := acs_fail h (withTable_none h.place.1 hx _)

theorem tblDeleteOp_busy {x : Nat} (hx : s.tableOf f (c.fld 8 2) = some x) (hn : s.tableNamed x = true ∨ s.componentOf x = true) :
    Answers s (tblDeleteOp s f i) f i .busy (failBody 8 0 (c.fld 8 2)) :=
  acs_fail h ((withTable_some h.place.1 hx _).trans (if_pos hn))

theorem tblDeleteOp_deletes {x : Nat} (hx : s.tableOf f (c.fld 8 2) = some x) (hn : s.tableNamed x = false)
    (hc : s.componentOf x = false) : tblDeleteOp s f i = invalidateFor (s.tableEmptied x) c [(s.dir x).tkey] := by
  unfold tblDeleteOp
  rw [acs_starts h, withTable_some h.place.1 hx, if_neg (by rw [hn, hc]; decide)]
  rfl

end

theorem tableEmptied_part {α : Type} (s : State) (x : Nat) (p : State → α)
    (hp : ∀ u : State, p u.offDefs = p u) : p (s.tableEmptied x) = p s := by
  have h : (s.tableEmptied x).offDefs = s.offDefs := slotPut_part s _ _ _ _ _ 0 State.offDefs fun _ => rfl
  rw [← hp, h, hp]

theorem fieldAt_fill_zero (n o k : Nat) : fieldAt (fill n 0) o k = 0 := by
  have hz (m : Nat) : leNat (List.replicate m (0 : Byte)) = 0 := by
    induction m with
    | zero => rfl
    | succ m ih => rw [List.replicate_succ, leNat, ih]; rfl
  unfold fieldAt fill
  rw [List.drop_replicate, List.take_replicate, hz]

theorem tableEmptied_shows (s : State) {x : Nat} (hx : x < 256) :
    (∀ w, w < 16 → (s.tableEmptied x).rdA Reg.SIV_DIR_WORD [x, w] = 0) ∧ (s.tableEmptied x).rd Reg.SIV_BASE_BASE [x] = 0 := by
  have hself (w : Nat) (hw : w < 16) := slotPut_self s hx (s.dir x).mapBase (List.replicate (s.dir x).entries (fill 16 0))
    (fill 64 0) (s.dir x).mask [0, 0, 0, 0] 0 hw
  have hbase := slotPut_base s (x := x) (s.dir x).mapBase (List.replicate (s.dir x).entries (fill 16 0))
    (fill 64 0) (s.dir x).mask [0, 0, 0, 0] 0 (by decide)
  exact ⟨fun w hw => (hself w hw).trans (fieldAt_fill_zero _ _ _), hbase⟩

/-! ### TBL_SYNC -/

section
variable (h : Startable s f i 0x303 c) {x : Nat} (hx : s.tableOf f (c.fld 8 2) = some x) (hk : (s.dir x).kind ≠ 2)
include h hx hk

/-- TBL_SYNC of a table that is no composition. -/
theorem tblSyncOp_checks :
    ((s.dir x).rows ≤ c.fld 16 8 → Answers s (tblSyncOp s f i) f i .badParam (failBody 16 0 (c.fld 16 8 % 2 ^ 32))) ∧
    (c.fld 16 8 < (s.dir x).rows → c.fld 24 8 ≠ 0 ∨ c.fld 16 8 = 0 →
      ((s.dir x).rows < c.fld 16 8 + c.fld 24 8 →
        Answers s (tblSyncOp s f i) f i .badParam (failBody 24 0 (c.fld 24 8 % 2 ^ 32))) ∧
      (c.fld 16 8 + c.fld 24 8 ≤ (s.dir x).rows → tblSyncOp s f i = invalidateFor s c [(s.dir x).tkey])) := by
  have hf := h.place.1
  refine ⟨fun hr => acs_fail h ?_, fun hr hn => ⟨fun hl => acs_fail h ?_, fun hl => ?_⟩⟩
  · exact (withTable_some hf hx _).trans ((if_neg hk).trans (if_pos (.inl hr)))
  · exact (withTable_some hf hx _).trans ((if_neg hk).trans ((if_neg (by omega)).trans (if_pos hl)))
  · unfold tblSyncOp
    rw [acs_starts h, withTable_some hf hx, if_neg hk, if_neg (by omega), if_neg (by omega)]

end

/-! ### TBL_SWITCH -/

/-- The next version of the table in slot `x`, its switch over. -/
def State.nextTbl (s : State) (x : Nat) : Tbl := { s.tbl x with switch := none, version := ((s.tbl x).version + 1) % 2 ^ 32 }

/-- The table in slot `x` switched to a base. -/
def State.switched (s : State) (x base : Nat) : State :=
  (rwcDropKey (s.wr Reg.SIV_BASE_BASE [x] base) (s.dir x).tkey).setTbl x (s.nextTbl x)

/-- What a switch answers. -/
def State.switchBody (s : State) (x : Nat) : List Byte :=
  leBytes 4 (((s.tbl x).version + 1) % 2 ^ 32) ++ fill 4 0 ++ leBytes 8 s.now

theorem trySwitch_free {x g j base : Nat} (h : (s.tbl x).switch = some (g, j, base)) (hb : s.tableBusy x = false) :
    trySwitch s x = (s.switched x base).finish g j .ok (s.switchBody x) := by
  have hne : Reg.TOP_TIMEBASE_COUNT.key [] ≠ Reg.SIV_BASE_BASE.key [x] := by
    simp only [Reg.TOP_TIMEBASE_COUNT, Reg.SIV_BASE_BASE, Field.key, Field.addr, dotIdx]
    omega
  have hnow : (s.switched x base).now = s.now := now_wr s base hne
  rw [State.switchBody, ← hnow]
  unfold trySwitch
  rw [h]
  dsimp only
  rw [if_neg (by rw [hb]; decide)]
  rfl

theorem trySwitch_waits {x : Nat} (h : (s.tbl x).switch = none ∨ s.tableBusy x = true) : trySwitch s x = s := by
  unfold trySwitch
  split
  · rfl
  · next hs =>
    rcases h with h | h
    · rw [h] at hs
      cases hs
    · exact if_pos h

theorem switched_shows (s : State) (x base : Nat) : (s.switched x base).rd Reg.SIV_BASE_BASE [x] = base % 2 ^ 64 ∧
    (s.switched x base).tbl x = s.nextTbl x ∧ (∀ e, e ∈ (s.switched x base).rwc.lines → e.2.tkey ≠ (s.dir x).tkey) := by
  refine ⟨rd_wr_self s _ _ _, FMap.get_put_self _ _ _ _, fun e he hkey => ?_⟩
  have hkeep : (!(e.2.tkey == (s.dir x).tkey)) = true := (List.mem_filter.mp he).2
  rw [hkey, beq_self_eq_true] at hkeep
  exact Bool.false_ne_true hkeep

/-- A switch asked for, the command running. -/
def State.switchAsked (s : State) (c : Cmd) (f i x : Nat) : State :=
  (running s c).setTbl x { s.tbl x with switch := some (f, i, c.fld 16 8) }

theorem switchAsked_tbl (s : State) (c : Cmd) (f i x : Nat) :
    (s.switchAsked c f i x).tbl x = { s.tbl x with switch := some (f, i, c.fld 16 8) } := FMap.get_put_self _ _ _ _

theorem switchAsked_cmd? (h : s.cmd? f i = some c) (x : Nat) :
    (s.switchAsked c f i x).cmd? f i = some { c with started := true } :=
  have hplace := cmd?_place h
  setCmd_cmd?_self h hplace

section
variable (h : Startable s f i 0x304 c) {x : Nat} (hx : s.tableOf f (c.fld 8 2) = some x)
include h hx

theorem tblSwitchOp_unversioned (hv : (s.tbl x).versioned = false) :
    Answers s (tblSwitchOp s f i) f i .badParam (failBody 8 0 (c.fld 8 2)) :=
  acs_fail h ((withTable_some h.place.1 hx _).trans (if_pos (by rw [hv]; rfl)))

/-- The new base is a placement that the function may use. -/
structure State.SwitchOk (s : State) (f x base : Nat) : Prop where
  placed : placementBad (if ownedRows (s.dir x) (s.mapOf (s.dir x)) s.self = 0 then 0 else (s.dir x).mask) base (s.dir x).pitch
    (ownedRows (s.dir x) (s.mapOf (s.dir x)) s.self) = false
  apart : s.overlapped f (s.dir x).mask base (s.dir x).pitch (ownedRows (s.dir x) (s.mapOf (s.dir x)) s.self) = none
  held : s.unheld f (s.dir x).mask base (s.dir x).pitch (ownedRows (s.dir x) (s.mapOf (s.dir x)) s.self) = none

theorem tblSwitchOp_versioned (hv : (s.tbl x).versioned = true) (hok : s.SwitchOk f x (c.fld 16 8)) :
    tblSwitchOp s f i = if c.fld 12 4 ≠ (s.tbl x).version then fail s c .versionMismatch 12 0 (s.tbl x).version
      else trySwitch (s.switchAsked c f i x) x := by
  obtain ⟨hplaced, hapart, hheld⟩ := hok
  unfold tblSwitchOp
  rw [acs_starts h, withTable_some h.place.1 hx, h.place.1]
  dsimp only
  rw [if_neg (by rw [hv]; decide), hplaced, hapart, if_neg (by decide), hheld]
  rfl

end

theorem trySwitch_asked {x : Nat} (h : s.cmd? f i = some c) (hb : s.tableBusy x = false) :
    Answers ((s.switchAsked c f i x).switched x (c.fld 16 8)) (trySwitch (s.switchAsked c f i x) x) f i .ok (s.switchBody x) := by
  have hs : ((s.switchAsked c f i x).tbl x).switch = some (f, i, c.fld 16 8) := by rw [switchAsked_tbl]
  have hbody : (s.switchAsked c f i x).switchBody x = s.switchBody x := by
    unfold State.switchBody
    rw [switchAsked_tbl]
    rfl
  rw [trySwitch_free hs hb, hbody]
  exact finish_answers (s := (s.switchAsked c f i x).switched x (c.fld 16 8)) (switchAsked_cmd? h x) _ _

/-- A switch that takes effect at once changes the base, the table and the Row Cache. -/
theorem switchNow_onlyRegs {t : State} (x base : Nat) {st : Status} {body : List Byte}
    (h : Answers ((s.switchAsked c f i x).switched x base) t f i st body) :
    OnlyRegs { s with rwc := t.rwc, tbls := t.tbls, mbx := t.mbx } t [Reg.SIV_BASE_BASE.key [x]] := by
  have hpart := h.part (fun u => ({ u with regs := [], rwc := {}, tbls := [], mbx := {} } : State)) fun _ => rfl
  constructor
  · exact congrArg (fun u : State => ({ u with rwc := t.rwc, tbls := t.tbls, mbx := t.mbx } : State)) hpart
  · intro g j hj
    exact (h.rd g j).trans (rd_wr_ne (s.switchAsked c f i x) base (List.mem_singleton.not.mp hj))

end

/-- Settles O27: a definition, a deletion and a switch each put the directory's words, the base, the entries and the
table's record, and answer or wait. -/
theorem tableCommands : Obligations.TableCommands := by
  intro s
  refine ⟨fun f i c buf b h hb => ⟨fun e he => ⟨_, rfl, tblDefineOp_checks h hb he⟩, fun x a hok hx hp => ?define⟩,
    fun f i c => ⟨fun h => ⟨fun hx => ⟨_, rfl, tblDeleteOp_unnamed h hx⟩,
      fun x hx => ⟨fun hn => ⟨_, rfl, tblDeleteOp_busy h hx hn⟩,
      fun hn hc => ?delete⟩⟩, fun h x hx hk => ?sync, fun h x hx => ?switch⟩, fun k => ?boundary⟩
  case define =>
    have habove := (afterBuffer_aboveTop hb).regs
    have htables := tableOf_congr (dir_of_aboveTop habove)
    have hans := tblDefineOp_defines h hb hok hx hp
    obtain ⟨hself, hothers, hentries, hbase, htbl⟩ :=
      tableDefined_shows (s.afterBuffer c 24) c b (List.mem_range.mp (List.mem_of_find?_eq_some hx)) a
    have hpart {α : Type} (p : State → α) (hc : ∀ u : State, p u.noCmds = p u) (hd : ∀ u : State, p u.offDefs = p u)
        (ht : ∀ u : State, p u.offTraffic = p u) : p (tblDefineOp s f i buf) = p s :=
      (hans.part p hc).trans ((tableDefined_part _ c b x a p hd).trans (afterBuffer_part s c 24 p ht))
    refine ⟨_, (s.afterBuffer c 24).compSlot c b 34, (s.afterBuffer c 24).compSlot c b 36, rfl,
      fun hk => ⟨compSlot_none _ hk 34, compSlot_none _ hk 36⟩, fun hk => ?_, fun w hw => (hans.rd _ _).trans (hself w hw),
      fun y w hy hne hw => ?_, fun k hk => ?_, (hans.rd _ _).trans hbase, ?_,
      ⟨_, hans.result, definedBody_shows (s.afterBuffer c 24) c b⟩, ?_, ?_, ?_⟩
    · obtain ⟨p, q, hp, hq⟩ := defineBad_components hok hk
      rw [compSlot_some hk hp, compSlot_some hk hq, ← htables, ← h.place.1]
      exact ⟨hp, hq⟩
    · exact (hans.rd _ _).trans ((hothers y w hy hne hw).trans (habove _ _ (aboveTop_key (by decide) _)))
    · exact (hans.part (fun u => u.mapEntry (a + k)) fun _ => rfl).trans (hentries k hk)
    · rw [hans.part (fun u => u.tbl x) fun _ => rfl, htbl]
      rfl
    · exact hpart State.hbm (fun _ => rfl) (fun _ => rfl) (fun _ => rfl)
    · exact hpart State.plots (fun _ => rfl) (fun _ => rfl) (fun _ => rfl)
    · exact hpart State.jobs (fun _ => rfl) (fun _ => rfl) (fun _ => rfl)
  case delete =>
    have hcmd : (s.tableEmptied x).cmd? f i = some c := (tableEmptied_part s x (fun u => u.cmd? f i) fun _ => rfl).trans h.fetched
    have hinv := invalidateFor_invalidates hcmd (dir_tkey_lt s x)
    have hrwc : (s.tableEmptied x).rwc = s.rwc := tableEmptied_part s x State.rwc fun _ => rfl
    obtain ⟨hwords, hbase⟩ := tableEmptied_shows s (tableOf_lt hx)
    refine ⟨_, congrArg Host.Outcome.next (tblDeleteOp_deletes h hx hn hc), fun w hw => ?_, ?_, hinv.busy, ?_, hinv.lines, ?_,
      hinv.cmd, ?_, ?_, ?_⟩
    · exact (hinv.regs _ _ (busyKey_ne rfl _)).trans (hwords w hw)
    · exact (hinv.regs _ _ (busyKey_ne rfl _)).trans hbase
    · rw [hinv.inv, hrwc]
    · rw [hinv.waits, hrwc]
    · exact (hinv.part State.hbm fun _ => rfl).trans (tableEmptied_part s x State.hbm fun _ => rfl)
    · exact (hinv.part State.plots fun _ => rfl).trans (tableEmptied_part s x State.plots fun _ => rfl)
    · exact (hinv.part State.jobs fun _ => rfl).trans (tableEmptied_part s x State.jobs fun _ => rfl)
  case sync =>
    obtain ⟨hfirst, hrest⟩ := tblSyncOp_checks h hx hk
    refine ⟨fun hr => ⟨_, rfl, hfirst hr⟩, fun hr hn hl => ⟨_, rfl, (hrest hr hn).1 hl⟩, fun hr hn hl => ?_⟩
    have hinv := invalidateFor_invalidates h.fetched (dir_tkey_lt s x)
    exact ⟨_, congrArg Host.Outcome.next ((hrest hr hn).2 hl), hinv.busy, hinv.inv, hinv.lines, hinv.waits, hinv.cmd,
      rfl, rfl, rfl, rfl⟩
  case switch =>
    refine ⟨fun hv => ⟨_, rfl, tblSwitchOp_unversioned h hx hv⟩, fun hv hplaced hapart hheld => ?_⟩
    have hop := tblSwitchOp_versioned h hx hv ⟨hplaced, hapart, hheld⟩
    refine ⟨fun hne => ⟨_, congrArg Host.Outcome.next (hop.trans (if_pos hne)), fail_answers h.fetched _ _ _ _⟩, fun he =>
      ⟨fun hb => ?held, fun hb => ?now⟩⟩
    case held =>
      have hwait : trySwitch (s.switchAsked c f i x) x = s.switchAsked c f i x := trySwitch_waits (.inr hb)
      exact ⟨_, congrArg Host.Outcome.next (hop.trans ((if_neg (not_not.mpr he)).trans hwait)), rfl, switchAsked_tbl s c f i x,
        switchAsked_cmd? h.fetched x, rfl, rfl, rfl, rfl⟩
    case now =>
      have hans := trySwitch_asked h.fetched hb
      obtain ⟨hbase, htbl, hlines⟩ := switched_shows (s.switchAsked c f i x) x (c.fld 16 8)
      refine ⟨_, congrArg Host.Outcome.next (hop.trans (if_neg (not_not.mpr he))), ?_, switchNow_onlyRegs x _ hans, ?_, ?_, hans.result⟩
      · rw [hans.rd, hbase]
        exact Nat.mod_eq_of_lt (fieldAt_lt c.desc 16 8)
      · rw [hans.part (fun u => u.tbl x) fun _ => rfl, htbl, State.nextTbl, switchAsked_tbl]
      · rw [hans.part State.rwc fun _ => rfl]
        exact hlines
  case boundary =>
    have hop {t : State} {x : Nat} (hu : s.coreUp = true) (hx : s.slotOfKey k = some x) (ht : trySwitch s x = t) :
        exec (.tableSwitchBoundary k) s = .next t := by
      rw [← ht]
      show execTableSwitchBoundary k s = _
      rw [execTableSwitchBoundary, hu, hx]
      rfl
    refine ⟨fun h => ⟨_, ?idle, rfl⟩, fun x hu hx => ⟨fun h => ⟨_, hop hu hx (trySwitch_waits h), rfl⟩,
      fun g j base hs hb => ?_⟩⟩
    case idle =>
      show execTableSwitchBoundary k s = _
      rw [execTableSwitchBoundary]
      rcases h with h | h
      · rw [h]
        rfl
      · rw [h, ite_self]
    obtain ⟨hbase, htbl, -⟩ := switched_shows s x base
    have hno := finish_noCmds (s.switched x base) g j .ok (s.switchBody x)
    refine ⟨_, hop hu hx (trySwitch_free hs hb), ?_, ?_, fun d hd => ?_, ?_, ?_, ?_⟩
    · exact (rd_congr (State.noCmds_part hno State.regs fun _ => rfl) _ _).trans hbase
    · exact (State.noCmds_part hno (fun u => u.tbl x) fun _ => rfl).trans htbl
    · exact (finish_answers (s := s.switched x base) hd .ok (s.switchBody x)).result
    · exact State.noCmds_part hno State.hbm fun _ => rfl
    · exact State.noCmds_part hno State.plots fun _ => rfl
    · exact State.noCmds_part hno State.jobs fun _ => rfl

end Sys2Proof.Machine
end

/-! ## Batches of a job (R205, R206, R388, R439) -/

section
namespace Sys2Proof.Machine

section
variable {s t : State} {f i j k : Nat} {c : Cmd} {b : Batch}

/-! ### Commands of the compute core -/

theorem job_setJob_self (s : State) (j : Nat) (x : Job) : (s.setJob j x).job j = x := FMap.get_set_self _ _ _ _

theorem job_setJob_ne (s : State) (x : Job) (h : k ≠ j) : (s.setJob j x).job k = s.job k := FMap.get_set_ne _ _ _ _ h

/-- A command whose effect is `u` leads to a state that `u` settles to. -/
theorem nextQ_reaches {u : State} {o : Host.Outcome State Fault Refusal} (h : o = nextQ u) : ∃ t, o = .next t ∧ Settles u t :=
  h ▸ nextQ_settles u

/-- The same, with what `u` shows. -/
theorem nextQ_shows {u : State} {o : Host.Outcome State Fault Refusal} {p : State → Prop} (h : o = nextQ u) (hp : p u) :
    ∃ t u, o = .next t ∧ Settles u t ∧ p u :=
  have ⟨t, ht, hset⟩ := nextQ_reaches h
  ⟨t, u, ht, hset, hp⟩

theorem withJob_some (hc : c.func = f) (h : s.jobNamed f (c.fld 8 2) = some j) (act : Nat → State) : withJob s c act = act j := by
  rw [withJob, hc, h]

theorem withJob_none (hc : c.func = f) (h : s.jobNamed f (c.fld 8 2) = none) (act : Nat → State) :
    withJob s c act = fail s c .noJob 8 0 (c.fld 8 2) := by
  rw [withJob, hc, h]

theorem jobNamed_some {h : Nat} (hj : s.jobNamed f h = some j) : j < 16 ∧ (s.job j).loaded = true ∧ (s.job j).func = f := by
  unfold State.jobNamed at hj
  dsimp only at hj
  split at hj
  · next hc =>
    cases hj
    exact ⟨hc.1, hc.2.1, hc.2.2.1⟩
  · cases hj

theorem running_cmd? (h : s.cmd? f i = some c) : (running s c).cmd? f i = some { c with started := true } :=
  have hplace := cmd?_place h
  setCmd_cmd?_self h hplace

theorem waiting_cmd? (h : s.cmd? f i = some c) : (waiting s c).cmd? f i = some { c with started := true, waiting := true } :=
  have hplace := cmd?_place h
  setCmd_cmd?_self h hplace

/-- A failure staged for a fetched command. -/
theorem failCmd_answers (h : s.cmd? f i = some c) (st : Status) (field sub value : Nat) :
    Answers s (s.failCmd f i st field sub value) f i st (failBody field sub value) := finish_answers h st _

theorem failCmd_noCmds (s : State) (f i : Nat) (st : Status) (field sub value : Nat) :
    (s.failCmd f i st field sub value).noCmds = s.noCmds := finish_noCmds s f i st _

/-! ### JOB_SUBMIT -/

/-- The batch that a command submits. -/
def submitted (f i : Nat) (c : Cmd) : Batch := { func := f, slot := i, id := c.fld 12 4, inBuf := c.ref 16, outBuf := c.ref 32 }

/-- A batch at the end of its job's queue. -/
def State.queued (s : State) (j : Nat) (b : Batch) : State :=
  s.setJob j { s.job j with batches := (s.job j).batches ++ [b] }

section
variable (h : Startable s f i 0x203 c) (hj : s.jobNamed f (c.fld 8 2) = some j) (hr : (c.ref 16).len ≠ 0) (hw : (c.ref 32).len ≠ 0)
  (hrs : (c.ref 16).space = 1) (hws : (c.ref 32).space = 1)
include h hj hr hw hrs hws

/-- JOB_SUBMIT with buffers in host memory. -/
theorem jobSubmitOp_host : jobSubmitOp s f i =
    if bitOf (fieldAt (s.job j).bundle 13 1) 0 ∧ bInBytes (s.job j).bundle < (c.ref 16).len then fail s c .badParam 16 0 (c.ref 16).len
    else if bitOf (fieldAt (s.job j).bundle 13 1) 0 ∧ bOutBytes (s.job j).bundle < (c.ref 32).len then
      fail s c .badParam 32 0 (c.ref 32).len
    else if !bitOf (fieldAt (s.job j).bundle 13 1) 0 ∨ (s.job j).state ≠ 1 then fail s c .jobState 8 0 (s.job j).state
    else if 32 ≤ (s.job j).batches.length then s
    else waiting (s.queued j (submitted f i c)) c := by
  have hlocal (n : Nat) (hn : n = 1) (p : Prop) : ¬ (n = 0 ∧ p) := fun h => absurd (hn.symm.trans h.1) Nat.one_ne_zero
  unfold jobSubmitOp
  rw [acs_starts h, withJob_some h.place.1 hj]
  dsimp only
  rw [if_neg hr, if_neg hw, if_neg (by omega), if_neg (by omega), if_neg (hlocal _ hrs _), if_neg (hlocal _ hws _)]
  rfl

theorem jobSubmitOp_refuses (hx : bitOf (fieldAt (s.job j).bundle 13 1) 0 = false ∨ ((c.ref 16).len ≤ bInBytes (s.job j).bundle ∧
    (c.ref 32).len ≤ bOutBytes (s.job j).bundle ∧ (s.job j).state ≠ 1)) :
    Answers s (jobSubmitOp s f i) f i .jobState (failBody 8 0 (s.job j).state) := by
  have hfit {n m : Nat} (hn : bitOf (fieldAt (s.job j).bundle 13 1) 0 = false ∨ n ≤ m) :
      ¬ (bitOf (fieldAt (s.job j).bundle 13 1) 0 = true ∧ m < n) := by
    rintro ⟨hb, hlt⟩
    rcases hn with hn | hn
    · rw [hb] at hn
      cases hn
    · omega
  rw [jobSubmitOp_host h hj hr hw hrs hws, if_neg (hfit (hx.imp id (·.1))), if_neg (hfit (hx.imp id (·.2.1))),
    if_pos (hx.imp (fun hb => by rw [hb]; rfl) (·.2.2))]
  exact fail_answers h.fetched _ _ _ _

theorem jobSubmitOp_takes (hb : bitOf (fieldAt (s.job j).bundle 13 1) 0 = true) (h1 : (c.ref 16).len ≤ bInBytes (s.job j).bundle)
    (h2 : (c.ref 32).len ≤ bOutBytes (s.job j).bundle) (h3 : (s.job j).state = 1) : jobSubmitOp s f i =
      if 32 ≤ (s.job j).batches.length then s else waiting (s.queued j (submitted f i c)) c := by
  rw [jobSubmitOp_host h hj hr hw hrs hws, if_neg (by omega), if_neg (by omega), if_neg (by simp [hb, h3])]

end

/-! ### BATCH_INPUT_STAGE -/

theorem hbmPut_eq (s : State) (a : Nat) (l : List Byte) : ∃ m, hbmPut s a l = { s with hbm := m } := by
  induction l generalizing s a with
  | nil => exact ⟨s.hbm, rfl⟩
  | cons e r ih =>
    obtain ⟨m, hm⟩ := ih (hbmPutByte s a e) (a + 1)
    exact ⟨m, hm⟩

/-- A write to HBM changes bytes and poison alone. -/
theorem hbmWrite_eq (s : State) (a : Nat) (l : List Byte) : ∃ m p, hbmWrite s a l = { s with hbm := m, hbmPoison := p } := by
  obtain ⟨m, hm⟩ := hbmPut_eq s a l
  unfold hbmWrite
  rw [hm]
  exact ⟨m, _, rfl⟩

theorem hbmByte_hbmPut_lt (s : State) {a x : Nat} (l : List Byte) (h : x < a) : (hbmPut s a l).hbmByte x = s.hbmByte x := by
  induction l generalizing s a with
  | nil => rfl
  | cons e r ih =>
    rw [hbmPut, ih _ (Nat.lt_succ_of_lt h)]
    exact hbmByte_put_ne s e (Nat.ne_of_lt h)

theorem hbmRead_hbmPut (s : State) (a : Nat) (l : List Byte) : (hbmPut s a l).hbmRead a l.length = l := by
  induction l generalizing s a with
  | nil => rfl
  | cons e r ih =>
    have hhead : (hbmPut s a (e :: r)).hbmByte a = e := by
      rw [hbmPut, hbmByte_hbmPut_lt _ _ (Nat.lt_succ_self a), hbmByte_put_self]
    have htail := ih (hbmPutByte s a e) (a + 1)
    rw [State.hbmRead] at htail ⊢
    rw [List.length_cons, List.range_succ_eq_map, List.map_cons, List.map_map, Nat.add_zero, hhead]
    refine congrArg (e :: ·) ((List.map_congr_left fun n _ => ?_).trans htail)
    exact congrArg (hbmPut s a (e :: r)).hbmByte (show a + (n + 1) = a + 1 + n by omega)

/-- Bytes written to HBM read back. -/
theorem hbmRead_hbmWrite (s : State) (a : Nat) (l : List Byte) : (hbmWrite s a l).hbmRead a l.length = l := hbmRead_hbmPut s a l

/-- The staged input of a batch: counted as traffic and written to the slot. -/
def State.inputPut (s : State) (j : Nat) (b : Batch) (l : List Byte) : State :=
  let x := s.job j
  let a := inSlot x.bundle x.nextQ
  (hbmWrite (bulk s b.func a (bInBytes x.bundle)) a (padTo (bInBytes x.bundle) l)).setJob j
    { x with batches := setFirst x.batches 0 { b with phase := 1 } }

theorem stageBatch_held (hb : (s.job j).batchIn 0 = some b) (hm : (s.job j).mayStage = false) (data : HostBuf) :
    stageBatch s j data = s := by
  unfold stageBatch
  dsimp only
  rw [hb]
  exact if_pos (by rw [hm]; rfl)

theorem stageBatch_host (hb : (s.job j).batchIn 0 = some b) (hm : (s.job j).mayStage = true) (hsp : b.inBuf.space = 1)
    (data : HostBuf) : stageBatch s j data =
      match data with
      | none => (s.setJob j { s.job j with batches := dropFirst (s.job j).batches 0 }).failCmd b.func b.slot .hostDmaFault 16 0 0
      | some l => s.inputPut j b (padTo b.inBuf.len (l.take b.inBuf.len)) := by
  unfold stageBatch
  dsimp only
  rw [hb]
  dsimp only
  rw [if_neg (by rw [hm]; decide), if_neg (by omega)]
  rfl

theorem bulk_part {α : Type} (s : State) (f a n : Nat) (p : State → α) (hp : ∀ u : State, p u.offTraffic = p u) :
    p (bulk s f a n) = p s := by
  rw [← hp (bulk s f a n), (bulk_spares s f a n).view, hp s]

theorem hbmWrite_setJob_shows (s : State) (a : Nat) (l : List Byte) (j : Nat) (x : Job) :
    ((hbmWrite s a l).setJob j x).hbmRead a l.length = l ∧ ((hbmWrite s a l).setJob j x).job j = x ∧
    ((hbmWrite s a l).setJob j x).mbx = s.mbx ∧ ((hbmWrite s a l).setJob j x).plots = s.plots := by
  obtain ⟨m, p, hw⟩ := hbmWrite_eq s a l
  refine ⟨hbmRead_hbmWrite s a l, job_setJob_self _ _ _, ?_, ?_⟩
  · rw [setJob_mbx, hw]
  · rw [setJob_plots, hw]

theorem inputPut_shows (s : State) (j : Nat) (b : Batch) (l : List Byte) :
    (s.inputPut j b l).hbmRead (inSlot (s.job j).bundle (s.job j).nextQ) (bInBytes (s.job j).bundle) =
      padTo (bInBytes (s.job j).bundle) l ∧
    (s.inputPut j b l).job j = { s.job j with batches := setFirst (s.job j).batches 0 { b with phase := 1 } } ∧
    (s.inputPut j b l).mbx = s.mbx ∧ (s.inputPut j b l).plots = s.plots := by
  unfold State.inputPut
  dsimp only
  have hmbx := bulk_part s b.func (inSlot (s.job j).bundle (s.job j).nextQ) (bInBytes (s.job j).bundle) State.mbx fun _ => rfl
  have hplots := bulk_part s b.func (inSlot (s.job j).bundle (s.job j).nextQ) (bInBytes (s.job j).bundle) State.plots fun _ => rfl
  rw [← hmbx, ← hplots]
  have h := hbmWrite_setJob_shows (bulk s b.func (inSlot (s.job j).bundle (s.job j).nextQ) (bInBytes (s.job j).bundle))
    (inSlot (s.job j).bundle (s.job j).nextQ) (padTo (bInBytes (s.job j).bundle) l) j
    { s.job j with batches := setFirst (s.job j).batches 0 { b with phase := 1 } }
  rwa [padTo_length] at h

/-! ### BATCH_INPUT_COPIED -/

theorem trainBoundary_none (h : (s.job j).boundaryDue = false) : trainBoundary s j = s := by
  unfold trainBoundary
  exact if_pos (by rw [h]; rfl)

/-- The staged batch of a job runs under the next number. -/
def State.released (s : State) (j : Nat) (b : Batch) : State :=
  s.setJob j { s.job j with
    batches := setFirst (s.job j).batches 1 { b with phase := 2, q := (s.job j).nextQ }, nextQ := (s.job j).nextQ + 1 }

/-- The feed context of an enabled slot takes a signal. -/
def feedSignal (s : State) (g : Nat) : State :=
  if s.on Reg.TOP_QD_GRP_FEED_EN [g] then
    addSignal s (s.rd Reg.TOP_QD_GRP_FEED_PLOT [g]) (s.rd Reg.TOP_QD_GRP_FEED_CTX [g]) 7 1
  else s

theorem releaseBatch_releases (hb : (s.job j).batchIn 1 = some b) (h1 : (s.job j).state = 1) (h2 : (s.job j).aborting = false)
    (h3 : isTraining (s.job j).bundle = false) (h4 : (s.job j).boundaryDue = false) :
    releaseBatch s j = (s.job j).groups.foldl feedSignal (s.released j b) := by
  unfold releaseBatch
  dsimp only
  rw [hb]
  dsimp only
  rw [if_neg (by simp [h1, h2, h3]), trainBoundary_none h4]
  rfl

/-- A signal below the counter's end counts. -/
theorem addSignal_counts {p d n inc : Nat} (h : s.rd Reg.RKE_SIG_COUNT [p, d, n] + inc < 65536) :
    addSignal s p d n inc = s.wr Reg.RKE_SIG_COUNT [p, d, n] (s.rd Reg.RKE_SIG_COUNT [p, d, n] + inc) := if_pos h

/-! ### BATCH_DONE_SIGNAL -/

/-- The oldest running batch of a job complete. -/
def State.batchEnded (s : State) (j : Nat) (b : Batch) : State :=
  s.setJob j { s.job j with
    batches := setFirst (s.job j).batches 2 { b with phase := 3, dropped := (s.job j).dropped, empty := (s.job j).empty },
    dropped := 0, empty := 0, boundaryDue := false }

theorem batchDone_ends (hb : (s.job j).batchIn 2 = some b) (h3 : isTraining (s.job j).bundle = false) :
    batchDone s j = s.batchEnded j b := by
  have hdue : ((s.batchEnded j b).job j).boundaryDue = false := by
    rw [State.batchEnded, job_setJob_self]
  unfold batchDone
  dsimp only
  rw [hb]
  dsimp only
  rw [h3, ← State.batchEnded, trainBoundary_none hdue, ite_self]

theorem batchDoneOp_takes {q : Packet} (hq : s.cloche.sigQ.find? (fun q => bitOf (s.job j).plots (agentPlot q.srcAgent)) = some q)
    (hn : q.tfb 10 2 = 1) : batchDoneOp s j = batchDone { s with cloche := { s.cloche with sigQ := s.cloche.sigQ.erase q } } j := by
  unfold batchDoneOp
  dsimp only
  rw [hq]
  dsimp only
  rw [hn]
  rfl

/-! ### BATCH_OUTPUT_COPIED -/

/-- A completed batch out of its job. -/
def State.batchTaken (s : State) (j : Nat) : State :=
  s.setJob j { s.job j with batches := dropFirst (s.job j).batches 3, doneBatches := (s.job j).doneBatches + 1 }

/-- What JOB_SUBMIT answers for a batch. -/
def State.batchBody (s : State) (b : Batch) : List Byte :=
  leBytes 4 b.id ++ leBytes 4 0 ++ leBytes 8 s.now ++ leBytes 4 b.dropped ++ leBytes 4 b.empty

/-- The output of a batch sent to host memory. -/
def State.outputSent (s : State) (j : Nat) (b : Batch) : State :=
  let a := outSlot (s.job j).bundle b.q
  (bulk (s.batchTaken j) b.func a b.outBuf.len).emit (.hostWrite b.func b.outBuf.addr (s.hbmRead a b.outBuf.len))

theorem bulk_now (s : State) (f a n : Nat) : (bulk s f a n).now = s.now := by
  refine (bulk_spares s f a n).rd _ _ ?_
  rintro ⟨m, hm⟩
  simp only [Reg.TOP_TIMEBASE_COUNT, Reg.TOP_TRL_FLITS_COUNT, Field.key, Field.addr, dotIdx] at hm
  omega

theorem outputSent_part {α : Type} (s : State) (j : Nat) (b : Batch) (p : State → α) (ht : ∀ u : State, p u.offTraffic = p u)
    (he : ∀ (u : State) (o : Out), p (u.emit o) = p u) : p (s.outputSent j b) = p (s.batchTaken j) :=
  (he _ _).trans (bulk_part (s.batchTaken j) _ _ _ p ht)

section
variable (hb : (s.job j).batchIn 3 = some b) (hsp : b.outBuf.space = 1)
  (hp : s.hbmPoisoned (outSlot (s.job j).bundle b.q) b.outBuf.len = false)
include hb hsp hp

theorem outputCopied_delivers : outputCopied s j true = (s.outputSent j b).finish b.func b.slot .ok (s.batchBody b) := by
  have hown : ¬ (b.outBuf.space = 0 ∧ b.outBuf.addr = outSlot (s.job j).bundle b.q) := by omega
  have hpois : (s.batchTaken j).hbmPoisoned (outSlot (s.job j).bundle b.q) b.outBuf.len = false := hp
  have hnow : (s.outputSent j b).now = s.now := bulk_now (s.batchTaken j) _ _ _
  have hput : putBuffer (bulk (s.batchTaken j) b.func (outSlot (s.job j).bundle b.q) b.outBuf.len) b.func b.outBuf
      ((s.batchTaken j).hbmRead (outSlot (s.job j).bundle b.q) b.outBuf.len) = s.outputSent j b := if_neg (by omega)
  unfold outputCopied
  dsimp only
  rw [hb]
  dsimp only
  rw [← State.batchTaken, if_neg (by rw [hpois]; simp), if_neg (by simp), if_neg hown, hput, State.batchBody, ← hnow]

theorem outputCopied_fails :
    outputCopied s j false = (s.batchTaken j).failCmd b.func b.slot .hostDmaFault 32 0 0 := by
  have hpois : (s.batchTaken j).hbmPoisoned (outSlot (s.job j).bundle b.q) b.outBuf.len = false := hp
  unfold outputCopied
  dsimp only
  rw [hb]
  dsimp only
  rw [← State.batchTaken, if_neg (by rw [hpois]; simp), if_pos ⟨hsp, rfl⟩]

end

/-! ### EPOCH_ADV_MESSAGE -/

theorem effectSet_offSets (s : State) (x : StagedSet) : (effectSet s x).offSets = s.offSets := by
  by_cases h : s.on (cPending x) [] = true
  · obtain ⟨m, hm⟩ := effectSet_eq h
    rw [hm]
    exact (activated_onlyRegs s x).part State.offSets fun _ => rfl
  · rw [effectSet, if_neg h]

theorem effectSet_rwcParam_epoch (s : State) : (effectSet s .rwcParam).rd Reg.RWC_STAT_EPOCH [] = s.rd Reg.RWC_STAT_EPOCH [] := by
  by_cases h : s.on (cPending .rwcParam) [] = true
  · exact effectSet_rd h (by decide) (by decide) (by unfold activeKey; decide)
  · rw [effectSet, if_neg h]

theorem boundaryAdvance_passed {gtag ord : Nat} (h : ord ≤ FMap.get s.rwc.epochs 0 gtag) : boundaryAdvance s gtag ord = s :=
  if_pos h

theorem boundaryAdvance_shows {gtag ord : Nat} (h : FMap.get s.rwc.epochs 0 gtag < ord) :
    (boundaryAdvance s gtag ord).rd Reg.RWC_STAT_EPOCH [] = (s.rd Reg.RWC_STAT_EPOCH [] + 1) % 65536 ∧
    (boundaryAdvance s gtag ord).rwc.lines = [] ∧ FMap.get (boundaryAdvance s gtag ord).rwc.epochs 0 gtag = ord ∧
    (boundaryAdvance s gtag ord).hbm = s.hbm ∧ (boundaryAdvance s gtag ord).plots = s.plots ∧
    (boundaryAdvance s gtag ord).jobs = s.jobs := by
  have hview : (effectSet (s.wrapInc Reg.RWC_STAT_EPOCH [] 1) .rwcParam).offSets = s.offSets := effectSet_offSets _ _
  have hepoch : (effectSet (s.wrapInc Reg.RWC_STAT_EPOCH [] 1) .rwcParam).rd Reg.RWC_STAT_EPOCH [] =
      (s.rd Reg.RWC_STAT_EPOCH [] + 1) % 65536 := (effectSet_rwcParam_epoch _).trans (rd_wr_self _ _ _ _)
  rw [boundaryAdvance, if_neg (Nat.not_le.mpr h), epochAdvance]
  generalize effectSet (s.wrapInc Reg.RWC_STAT_EPOCH [] 1) .rwcParam = u at hview hepoch ⊢
  refine ⟨hepoch, ?_, FMap.get_put_self _ _ _ _, ?_, ?_, ?_⟩
  · exact List.filter_eq_nil_iff.mpr fun _ _ => Bool.false_ne_true
  · exact State.offSets_part hview State.hbm fun _ => rfl
  · exact State.offSets_part hview State.plots fun _ => rfl
  · exact State.offSets_part hview State.jobs fun _ => rfl

/-! ### The commands that firmware serves between batches -/

section
variable {j : Fin 16} (hu : s.coreUp = true) (hf : s.fwRuns = true)
include hu hf

theorem exec_batchInputStage (data : HostBuf) : exec (.batchInputStage j data) s = nextQ (stageBatch s j data) :=
  congrArg nextQ (if_pos (by rw [hu, hf]; rfl))

theorem exec_batchInputCopied : exec (.batchInputCopied j) s = nextQ (releaseBatch s j) :=
  congrArg nextQ (if_pos (by rw [hu, hf]; rfl))

theorem exec_batchDoneSignal (hl : (s.job j).loaded = true) : exec (.batchDoneSignal j) s = nextQ (batchDoneOp s j) :=
  congrArg nextQ (if_pos (by rw [hu, hf, hl]; rfl))

theorem exec_batchOutputCopied (ok : Bool) : exec (.batchOutputCopied j ok) s = nextQ (outputCopied s j ok) :=
  congrArg nextQ (if_pos (by rw [hu, hf]; rfl))

end

theorem exec_epochAdvMessage {q : Packet} (hu : s.coreUp = true) (h1 : q.typ = 14) (h2 : q.tfb 8 2 = 1) :
    exec (.epochAdvMessage q) s = nextQ (boundaryAdvance (takeInbox s q) (q.tfb 14 2) (q.tfb 10 4)) := by
  have hup : (takeInbox s q).coreUp = true := hu
  exact congrArg nextQ (if_pos (by rw [hup, h1, h2]; rfl))

end

/-- Settles O32: each batch operation by its equation, up to contexts that resume and detector slots that follow. -/
theorem batchesOfAJob : Obligations.BatchesOfAJob := by
  intro s
  refine ⟨fun f i c j h hj hr hw hrs hws => ⟨fun hx => ?refused, fun hb h1 h2 h3 => ⟨fun hn => ?full, fun hn => ?queued⟩⟩,
    fun j data b hu hf hb => ⟨fun hm => ?waits, fun hm hsp => ⟨fun l hl => ?staged, fun hl => ?lost⟩⟩,
    fun j b hu hf hb h1 h2 h3 h4 => ⟨fun hg => ?unfed, fun g hg hen hlt => ?fed⟩,
    fun j hu hf hl => ⟨fun hq => ?unsignalled, fun q b hq hn hb h3 => ?signalled⟩,
    fun j b hu hf hb hsp hp => ⟨?delivered, ?failed⟩, fun q hu h1 h2 => ⟨fun hle => ?passed, fun hlt => ?advanced⟩⟩
  case refused => exact nextQ_shows rfl (jobSubmitOp_refuses h hj hr hw hrs hws hx)
  case full =>
    exact nextQ_reaches (congrArg nextQ ((jobSubmitOp_takes h hj hr hw hrs hws hb h1 h2 h3).trans (if_pos hn)))
  case queued =>
    have hop := (jobSubmitOp_takes h hj hr hw hrs hws hb h1 h2 h3).trans (if_neg (Nat.not_le.mpr hn))
    exact nextQ_shows (congrArg nextQ hop) ⟨job_setJob_self _ _ _, fun k hk => job_setJob_ne _ _ hk,
      waiting_cmd? (s := s.queued j (submitted f i c)) h.fetched, rfl, rfl, rfl⟩
  case waits => exact nextQ_reaches ((exec_batchInputStage hu hf data).trans (congrArg nextQ (stageBatch_held hb hm data)))
  case staged =>
    have hop := (exec_batchInputStage hu hf data).trans (congrArg nextQ (stageBatch_host hb hm hsp data))
    rw [hl] at hop ⊢
    exact nextQ_shows hop (inputPut_shows s j b _)
  case lost =>
    have hop := (exec_batchInputStage hu hf data).trans (congrArg nextQ (stageBatch_host hb hm hsp data))
    rw [hl] at hop ⊢
    have hno := failCmd_noCmds (s.setJob j { s.job j with batches := dropFirst (s.job j).batches 0 }) b.func b.slot
      .hostDmaFault 16 0 0
    refine nextQ_shows hop ⟨?_, fun d hd => (failCmd_answers (s := s.setJob j _) hd _ _ _ _).result, ?_, ?_, ?_⟩
    · exact (State.noCmds_part hno (fun u => u.job j) fun _ => rfl).trans (job_setJob_self _ _ _)
    · exact State.noCmds_part hno State.regs fun _ => rfl
    · exact State.noCmds_part hno State.hbm fun _ => rfl
    · exact State.noCmds_part hno State.plots fun _ => rfl
  case unfed =>
    have hop := (exec_batchInputCopied (j := j) hu hf).trans (congrArg nextQ (releaseBatch_releases hb h1 h2 h3 h4))
    rw [hg] at hop
    exact nextQ_shows hop ⟨job_setJob_self _ _ _, rfl, rfl, rfl⟩
  case fed =>
    have hop := (exec_batchInputCopied (j := j) hu hf).trans (congrArg nextQ (releaseBatch_releases hb h1 h2 h3 h4))
    have hsignal : feedSignal (s.released j b) g = _ := (if_pos hen).trans (addSignal_counts (Nat.succ_lt_succ hlt))
    rw [hg, List.foldl_cons, List.foldl_nil, hsignal] at hop
    refine nextQ_shows hop ⟨?_, ?_, rfl, rfl⟩
    · exact congrArg Job.nextQ (job_setJob_self s j _)
    · exact (rd_wr_self _ _ _ _).trans (Nat.mod_eq_of_lt (Nat.succ_lt_succ hlt))
  case unsignalled =>
    have hnone : batchDoneOp s j = s := by
      unfold batchDoneOp
      dsimp only
      rw [hq]
    exact nextQ_reaches ((exec_batchDoneSignal hu hf hl).trans (congrArg nextQ hnone))
  case signalled =>
    have hop := (batchDoneOp_takes hq hn).trans
      (batchDone_ends (s := { s with cloche := { s.cloche with sigQ := s.cloche.sigQ.erase q } }) hb h3)
    exact nextQ_shows ((exec_batchDoneSignal hu hf hl).trans (congrArg nextQ hop)) ⟨rfl, job_setJob_self _ _ _, rfl, rfl, rfl⟩
  case delivered =>
    have hop := (exec_batchOutputCopied hu hf true).trans (congrArg nextQ (outputCopied_delivers hb hsp hp))
    have hno := finish_noCmds (s.outputSent j b) b.func b.slot .ok (s.batchBody b)
    have part {α : Type} (p : State → α) (hp : ∀ u : State, p u.noCmds = p u) := State.noCmds_part hno p hp
    have hcmd : ∀ d, s.cmd? b.func b.slot = some d → (s.outputSent j b).cmd? b.func b.slot = some d := fun d hd =>
      (outputSent_part s j b (fun u => u.cmd? b.func b.slot) (fun _ => rfl) fun _ _ => rfl).trans hd
    refine nextQ_shows hop ⟨?_, ?_, fun d hd => (finish_answers (hcmd d hd) _ _).result, ?_, ?_⟩
    · exact (part (fun u => u.job j) fun _ => rfl).trans
        ((outputSent_part s j b (fun u => u.job j) (fun _ => rfl) fun _ _ => rfl).trans (job_setJob_self _ _ _))
    · refine (part State.outs fun _ => rfl).trans (congrArg (_ :: ·) ?_)
      exact bulk_part (s.batchTaken j) b.func (outSlot (s.job j).bundle b.q) b.outBuf.len State.outs fun _ => rfl
    · exact (part State.hbm fun _ => rfl).trans (outputSent_part s j b State.hbm (fun _ => rfl) fun _ _ => rfl)
    · exact (part State.plots fun _ => rfl).trans (outputSent_part s j b State.plots (fun _ => rfl) fun _ _ => rfl)
  case failed =>
    have hop := (exec_batchOutputCopied hu hf false).trans (congrArg nextQ (outputCopied_fails hb hsp hp))
    have hno := failCmd_noCmds (s.batchTaken j) b.func b.slot .hostDmaFault 32 0 0
    refine nextQ_shows hop ⟨?_, fun d hd => (failCmd_answers (s := s.batchTaken j) hd _ _ _ _).result, ?_, ?_⟩
    · exact State.noCmds_part hno State.outs fun _ => rfl
    · exact State.noCmds_part hno State.hbm fun _ => rfl
    · exact State.noCmds_part hno State.plots fun _ => rfl
  case passed =>
    exact nextQ_reaches ((exec_epochAdvMessage hu h1 h2).trans (congrArg nextQ (boundaryAdvance_passed (s := takeInbox s q) hle)))
  case advanced => exact nextQ_shows (exec_epochAdvMessage hu h1 h2) (boundaryAdvance_shows (s := takeInbox s q) hlt)

end Sys2Proof.Machine
end

/-! ## What starting and ending jobs leave alone (R204, R209, R290, R383) -/

section
namespace Sys2Proof.Machine

section
variable {a s t : State} {p c k : Nat}

/-! ### Frames -/

/-- A state without what halting contexts and sending packets change: the register file, requests and events, captured
copies, plots, the Sieves, Graft, the detector, update plans and the packets on their way. -/
def State.jobView (s : State) : State :=
  { s.still with
    captured := [], plots := [], sieves := [], graft := {}, qd := [], upd := {}, link := { s.link with routeQ := [] } }

/-- A state without what undoing a start changes: the register file, Graft, the detector, update plans and the packets on
their way. -/
def State.offUndo (s : State) : State :=
  { s with regs := [], graft := {}, qd := [], upd := {}, link := { s.link with routeQ := [] } }

/-- Keys of the windows' EN. -/
def winEnKey (k : Nat) : Prop := 0x400000 * 128 ≤ k ∧ k % 128 = 31

/-- Keys of STATE and PC of a context. -/
def contextKey (k : Nat) : Prop :=
  0x404800 * 128 ≤ k ∧ k < 0x5E4820 * 128 ∧ 0x4800 ≤ k / 128 % 0x20000 ∧ k / 128 % 0x20000 < 0x4820 ∧ k % 128 < 14

/-- Keys of the words in effect that tell port 0's table which die this is. -/
def selfKey (k : Nat) : Prop := 0x809000 * 128 ≤ k ∧ k < 0x809010 * 128

/-- Keys that only commands about contexts write, with the die's first registers and the die's ID. -/
def coreKey (k : Nat) : Prop := dieKey k ∨ contextKey k ∨ selfKey k

def keptKey (k : Nat) : Prop := winEnKey k ∨ coreKey k

/-- Addresses of registers that show other things. -/
def plainAddr (A : Nat) : Prop :=
  0x300 ≤ A ∧ ¬ (0x4800 ≤ A % 0x20000 ∧ A % 0x20000 < 0x4820) ∧ ¬ (0x809000 ≤ A ∧ A < 0x809010)

theorem not_coreKey {f : Field} {i : List Nat} (hl : f.lo < 128) (h : plainAddr (f.addr i)) : ¬ coreKey (f.key i) := by
  obtain ⟨h1, h2, h3⟩ := h
  simp only [coreKey, dieKey, contextKey, selfKey, Field.key]
  omega

theorem not_winEnKey {f : Field} (i : List Nat) (hl : f.lo < 128) (hne : f.lo ≠ 31) : ¬ winEnKey (f.key i) := by
  simp only [winEnKey, Field.key]
  omega

theorem not_keptKey {f : Field} {i : List Nat} (hl : f.lo < 128) (hne : f.lo ≠ 31) (h : plainAddr (f.addr i)) :
    ¬ keptKey (f.key i) := fun hk => hk.elim (not_winEnKey i hl hne) (not_coreKey hl h)

theorem keptKey_outside {k : Nat} (h : keptKey k) : outside k := by
  simp only [keptKey, winEnKey, coreKey, dieKey, contextKey, selfKey] at h
  unfold outside
  omega

theorem keptKey_not_logKeys {k : Nat} (h : keptKey k) : k ∉ logKeys := by
  have high : ∀ j ∈ logKeys, 0x300 * 128 ≤ j ∧ j % 128 ≠ 31 ∧ (j < 0x404800 * 128 ∨ 0x809010 * 128 ≤ j) := by decide
  intro hm
  obtain ⟨h1, h2, h3⟩ := high k hm
  simp only [keptKey, winEnKey, coreKey, dieKey, contextKey, selfKey] at h
  omega

/-- `s` is `a` after something that shows in neither view. -/
def Undoes (P : Nat → Prop) (a s : State) : Prop := Spares State.offUndo P a s
def Works (P : Nat → Prop) (a s : State) : Prop := Spares State.jobView P a s

section
variable {P Q : Nat → Prop}

theorem Undoes.refl (s : State) : Undoes P s s := Spares.refl _ _ s

theorem Works.refl (s : State) : Works P s s := Spares.refl _ _ s

theorem Undoes.wr (h : Undoes P a s) {f : Field} {i : List Nat} (v : Nat) (hk : ¬ P (f.key i)) : Undoes P a (s.wr f i v) :=
  Spares.wr h f i v rfl hk

theorem Works.wr (h : Works P a s) {f : Field} {i : List Nat} (v : Nat) (hk : ¬ P (f.key i)) : Works P a (s.wr f i v) :=
  Spares.wr h f i v rfl hk

theorem Undoes.part {α : Type} (h : Undoes P s t) (v : State → α) (hv : ∀ u : State, v u.offUndo = v u) : v t = v s := by
  rw [← hv t, h.view, hv s]

theorem Works.part {α : Type} (h : Works P s t) (v : State → α) (hv : ∀ u : State, v u.jobView = v u) : v t = v s := by
  rw [← hv t, h.view, hv s]

theorem Undoes.mono (h : Undoes P a s) (hq : ∀ k, Q k → P k) : Undoes Q a s := ⟨h.view, h.regs.mono hq⟩

theorem Works.mono (h : Works P a s) (hq : ∀ k, Q k → P k) : Works Q a s := ⟨h.view, h.regs.mono hq⟩

theorem Undoes.works (h : Undoes P a s) : Works P a s := ⟨h.part State.jobView fun _ => rfl, h.regs⟩

theorem Works.quiet (h : Works P a s) (q : Quiet s t) (hp : ∀ k, P k → outside k) : Works P a t :=
  h.trans (q.spares (fun _ => rfl) hp)

end

/-! ### Sending -/

theorem agentStop_le (x : Nat) : agentStop x ≤ 23 := by
  unfold agentStop
  split
  · omega
  · split <;> omega

theorem Undoes.injectPkt (h : Undoes keptKey a s) (x : Packet) : Undoes keptKey a (injectPkt s x) := by
  have hstop := agentStop_le x.srcAgent
  refine Undoes.wr (s := { s with link := { s.link with routeQ := s.link.routeQ ++ [⟨x, 8, s.now⟩] } }) (Spares.set h rfl rfl) _
    (not_keptKey (by decide) (by decide) ?_)
  simp only [plainAddr, Reg.TOP_TRL_FLITS_COUNT, Field.addr, dotIdx]
  omega

theorem Undoes.foldl {α : Type} {P : Nat → Prop} {g : State → α → State} {l : List α} (h : Undoes P a s)
    (hg : ∀ s x, x ∈ l → Undoes P a s → Undoes P a (g s x)) : Undoes P a (l.foldl g s) := Spares.foldl g l hg h

theorem Works.foldl {α : Type} {P : Nat → Prop} {g : State → α → State} {l : List α} (h : Works P a s)
    (hg : ∀ s x, x ∈ l → Works P a s → Works P a (g s x)) : Works P a (l.foldl g s) := Spares.foldl g l hg h

protected theorem Undoes.sendReleases (h : Undoes keptKey a s) (b : List Byte) : Undoes keptKey a (sendReleases s b) :=
  h.foldl fun _ _ _ h => h.foldl fun _ _ _ h => h.injectPkt _

/-! ### Graft entries and update plans -/

theorem plainAddr_graft {f : Field} (hb : 0x900000 ≤ f.base) (ho : f.base % 0x10000 < 0x4800 ∨ 0x4860 ≤ f.base % 0x10000)
    (ho' : f.base % 0x10000 < 0xFF00) (hs : f.strides = [65536]) (n : Nat) : plainAddr (f.addr [n]) := by
  simp only [plainAddr, Field.addr, hs, dotIdx]
  omega

theorem plainAddr_graftWord {i : Nat} (n : Nat) (hi : i < 16) : plainAddr (Reg.GRF_ENT_WORD.mirror.addr [n, i]) := by
  simp only [plainAddr, Field.mirror, Reg.GRF_ENT_WORD, Field.addr, dotIdx]
  omega

protected theorem Undoes.showGraft (h : Undoes keptKey a s) (n : Nat) : Undoes keptKey a (showGraft s n) := by
  have stat {f : Field} (hl : f.lo < 128) (hne : f.lo ≠ 31) (hb : f.base = 0x900000) (hs : f.strides = [65536]) :
      ¬ keptKey (f.key [n]) := not_keptKey hl hne (plainAddr_graft hb.ge (by rw [hb]; decide) (by rw [hb]; decide) hs n)
  have word {i : Nat} (hi : i ∈ List.range 16) : ¬ keptKey (Reg.GRF_ENT_WORD.mirror.key [n, i]) :=
    not_keptKey (by decide) (by decide) (plainAddr_graftWord n (List.mem_range.mp hi))
  unfold showGraft
  extract_lets s1 s2 k
  have h2 : Undoes keptKey a s2 := ((h.wr _ (stat (by decide) (by decide) rfl rfl)).wr _ (stat (by decide) (by decide) rfl rfl)).wr _
    (stat (by decide) (by decide) rfl rfl)
  split
  · exact h2.foldl fun _ _ hi h => h.wr _ (word hi)
  · exact h2.foldl fun _ _ hi h => h.wr _ (word hi)

protected theorem Undoes.showGrafts (h : Undoes keptKey a s) : Undoes keptKey a (showGrafts s) :=
  h.foldl fun _ n _ h => h.showGraft n

protected theorem Undoes.dropJobEntries (h : Undoes keptKey a s) (job : Nat) : Undoes keptKey a (dropJobEntries s job) :=
  Undoes.showGrafts (Spares.set h rfl rfl)

protected theorem Undoes.removeOwn (h : Undoes keptKey a s) (j : Nat) : Undoes keptKey a (removeOwn s j) := by
  have hdrop := h.dropJobEntries (jobId (s.job j).bundle)
  unfold removeOwn
  generalize dropJobEntries s (jobId (s.job j).bundle) = u at hdrop ⊢
  exact Spares.set hdrop rfl rfl

/-! ### Windows and detector slots -/

theorem winEn_key (p w : Nat) : winEnKey (Reg.STO_WIN_EN.key [p, w]) := by
  simp only [winEnKey, Reg.STO_WIN_EN, Field.key, Field.addr, dotIdx]
  omega

theorem plainAddr_window {w : Nat} (p : Nat) (hw : w < 256) : plainAddr (Reg.STO_WIN_EN.addr [p, w]) := by
  simp only [plainAddr, Reg.STO_WIN_EN, Field.addr, dotIdx]
  omega

protected theorem Undoes.closeWindows (h : Undoes coreKey a s) (p : Nat) : Undoes coreKey a (closeWindows s p) :=
  h.foldl fun _ _ hw h => h.wr _ (not_coreKey (by decide) (plainAddr_window p (by have := List.mem_range.mp hw; omega)))

/-- Disarming a slot keeps the windows. -/
protected theorem Undoes.qdDisarmOp (h : Undoes winEnKey a s) (g : Nat) : Undoes winEnKey a (qdDisarmOp s g) := by
  have off {u : State} {f : Field} (hu : Undoes winEnKey a u) (v : Nat) (hl : f.lo < 128 := by decide)
      (hne : f.lo ≠ 31 := by decide) : Undoes winEnKey a (u.wr f [g] v) := hu.wr v (not_winEnKey _ hl hne)
  unfold qdDisarmOp
  extract_lets s1 s2 s3
  have h1 : Undoes winEnKey a s1 := off (off h 0) 0
  have h2 : Undoes winEnKey a s2 := Spares.ite (off h1 _) h1
  clear_value s2
  have h3 : Undoes winEnKey a s3 := off (off h2 0) 0
  clear_value s3
  exact Spares.set (off (f := Reg.TOP_QD_GST_REPORTED) h3 0) rfl rfl

/-- The windows of a list of plots disabled. -/
theorem closeWindows_closed (s : State) {l : List Nat} {p w : Nat} (hp : p ∈ l) (hw : w < 16) :
    (l.foldl closeWindows s).rd Reg.STO_WIN_EN [p, w] = 0 := by
  have hclose (u : State) : (closeWindows u p).rd Reg.STO_WIN_EN [p, w] = 0 := by
    refine foldl_reaches (Q := fun u : State => u.rd Reg.STO_WIN_EN [p, w] = 0) (fun u => rd_wr_self _ _ _ _)
      (fun u x _ hne hz => (rd_wr_ne _ _ ?_).trans hz) u (.inl (List.mem_range.mpr hw))
    simp only [Reg.STO_WIN_EN, Field.key, Field.addr, dotIdx]
    omega
  refine foldl_reaches (Q := fun u : State => u.rd Reg.STO_WIN_EN [p, w] = 0) hclose (fun u x _ hne hz => ?_) s (.inl hp)
  refine (SameOn.foldl (P := (· = Reg.STO_WIN_EN.key [p, w])) _ _ (fun u y hy h => h.wr _ _ _ ?_) (.refl _ u) _ _ rfl).trans hz
  have hy := List.mem_range.mp hy
  simp only [Reg.STO_WIN_EN, Field.key, Field.addr, dotIdx]
  omega

/-! ### Halting -/

/-- Keys kept when context `c` of plot `p` halts. -/
def offState (p c k : Nat) : Prop := keptKey k ∧ k ≠ Reg.RKE_CTX_STATE.key [p, c]

theorem contextKey_field {f : Field} (hp : p < 16) (hc : c < 4) (hb : f.base = 0x404800) (hs : f.strides = [131072, 8])
    (hl : f.lo < 14) : contextKey (f.key [p, c]) := by
  simp only [contextKey, Field.key, Field.addr, hb, hs, dotIdx]
  omega

theorem not_keptKey_wait {f : Field} (hc : c < 4) (hb : f.base = 0x404800) (hs : f.strides = [131072, 8])
    (hl : 14 ≤ f.lo) (hne : f.lo ≠ 31) (hlt : f.lo < 128) : ¬ keptKey (f.key [p, c]) := by
  simp only [keptKey, winEnKey, coreKey, dieKey, contextKey, selfKey, Field.key, Field.addr, hb, hs, dotIdx]
  omega

theorem ctxState_key_ne {q d : Nat} (hc : c < 4) (hd : d < 4) (h : q ≠ p ∨ d ≠ c) :
    Reg.RKE_CTX_STATE.key [q, d] ≠ Reg.RKE_CTX_STATE.key [p, c] := by
  simp only [Reg.RKE_CTX_STATE, Field.key, Field.addr, dotIdx]
  omega

theorem ctxLive_congr (h : t.ctxState p c = s.ctxState p c) : t.ctxLive p c = s.ctxLive p c := by
  rw [State.ctxLive, h, State.ctxLive]

theorem ctxLive_zero (h : s.ctxState p c = 0) : s.ctxLive p c = false := by
  rw [State.ctxLive, h]
  rfl

/-- A context that is not live shows no wait. -/
theorem showCtx_dead (h : s.ctxLive p c = false) :
    showCtx s p c = (s.wr Reg.RKE_CTX_WAIT_KIND [p, c] 0).wr Reg.RKE_CTX_WAIT_ARG [p, c] 0 := if_neg (by rw [h]; decide)

theorem Works.showCtx_dead (h : Works keptKey a s) (hc : c < 4) (hdead : s.ctxLive p c = false) :
    Works keptKey a (showCtx s p c) := by
  rw [Machine.showCtx_dead hdead]
  exact (h.wr 0 (not_keptKey_wait hc rfl rfl (by decide) (by decide) (by decide))).wr 0
    (not_keptKey_wait hc rfl rfl (by decide) (by decide) (by decide))

protected theorem Works.dropSet (h : Works keptKey a s) {x : StagedSet} (hx : plainAddr (commitAddr x)) :
    Works keptKey a (dropSet s x) := by
  have hk : ¬ keptKey ((cPending x).key []) := not_keptKey (by decide : (2 : Nat) < 128) (by decide : (2 : Nat) ≠ 31) hx
  unfold dropSet
  extract_lets s1
  have h1 : Works keptKey a s1 := Works.foldl h fun _ _ _ h => Spares.set h rfl rfl
  exact Spares.ite (h1.wr 0 hk) h

theorem plainAddr_dtCommit (p : Fin 16) (c : Fin 4) : plainAddr (commitAddr (.rkeDt p c)) := by
  have hp := p.isLt
  have hc := c.isLt
  simp only [plainAddr, commitAddr, Reg.RKE_DT_COMMIT_COMMIT, Field.addr, dotIdx]
  omega

theorem plainAddr_vecCommit (p : Fin 16) (c : Fin 4) : plainAddr (commitAddr (.vec p c)) := by
  have hp := p.isLt
  have hc := c.isLt
  simp only [plainAddr, commitAddr, Reg.VEC_COMMIT_COMMIT, Field.addr, dotIdx]
  omega

protected theorem Works.showSieve (h : Works keptKey a s) {n : Nat} (hn : n < 2) : Works keptKey a (showSieve s n) := by
  have stat {f : Field} (hl : f.lo < 128) (hne : f.lo ≠ 31) (hb : f.base = 0x600000) (hs : f.strides = [4096]) :
      ¬ keptKey (f.key [n]) := not_keptKey hl hne (by simp only [plainAddr, Field.addr, hb, hs, dotIdx]; omega)
  exact (h.wr _ (stat (by decide) (by decide) rfl rfl)).wr _ (stat (by decide) (by decide) rfl rfl)

protected theorem Works.dropWork (h : Works keptKey a s) (p c : Nat) : Works keptKey a (dropWork s p c) := by
  have hd : ∀ x y, Works keptKey a { s with sieves := x, graft := y } := fun _ _ => Spares.set h rfl rfl
  exact ((hd _ _).showSieve (by decide)).showSieve (by decide)

protected theorem Works.showArray (h : Works keptKey a s) (p cls : Nat) (fast : Bool) :
    Works keptKey a (showArray s p cls fast) := by
  have stat {u : State} {f : Field} (hu : Works keptKey a u) (v : Nat) (hb : f.base = 0x400200 := by rfl)
      (hs : f.strides = [131072] := by rfl) (hl : f.lo < 128 := by decide) (hne : f.lo ≠ 31 := by decide) :
      Works keptKey a (u.wr f [p] v) :=
    hu.wr v (not_keptKey hl hne (by simp only [plainAddr, Field.addr, hb, hs, dotIdx]; omega))
  unfold showArray
  extract_lets x s1 s2 s3 s4 s5
  have h1 : Works keptKey a s1 := stat (f := Reg.PLT_ARR_STAT_BUSY) h _
  have h2 : Works keptKey a s2 := stat (f := Reg.PLT_ARR_STAT_CTX) (stat (f := Reg.PLT_ARR_STAT_CLASS) h1 _) _
  clear_value s2
  have h3 : Works keptKey a s3 := stat (f := Reg.PLT_ARR_STAT_SHADOW_READY) h2 _
  have h4 : Works keptKey a s4 := stat (f := Reg.PLT_ARR_STAT_PLANE0_CTX) (stat (f := Reg.PLT_ARR_STAT_PLANE0_HELD) h3 _) _
  clear_value s4
  have h5 : Works keptKey a s5 := stat (f := Reg.PLT_ARR_STAT_PLANE1_CTX) (stat (f := Reg.PLT_ARR_STAT_PLANE1_HELD) h4 _) _
  exact stat (f := Reg.PLT_ARR_STAT_FAST) h5 _

/-- Halting a context leaves it neither RUNNING nor BLOCKED and every other context as it was. -/
theorem haltCtx_halts (s : State) (hp : p < 16) (hc : c < 4) :
    Works (offState p c) s (haltCtx s p c) ∧ (haltCtx s p c).ctxLive p c = false := by
  unfold haltCtx
  rw [if_pos ⟨hp, hc⟩]
  extract_lets s1 x s2 live s3 s4
  have h1 : Works keptKey s s1 := ((Works.refl s).dropSet (plainAddr_dtCommit _ _)).dropSet (plainAddr_vecCommit _ _)
  have h2 : Works keptKey s s2 := Spares.set (h1.dropWork p c) rfl rfl
  clear_value s2
  have h3 : Works (offState p c) s s3 := by
    have h := h2.mono (Q := offState p c) fun _ hk => hk.1
    exact Spares.ite (h.wr _ fun hk => hk.2 rfl) h
  have hdead : s3.ctxLive p c = false := by
    unfold s3
    split
    · exact ctxLive_zero (rd_wr_self _ _ _ _)
    · next hl => exact Bool.eq_false_iff.mpr hl
  clear_value s3
  have h4 : Works keptKey s3 s4 := (Works.refl s3).showCtx_dead hc hdead
  have hstate : keptKey (Reg.RKE_CTX_STATE.key [p, c]) := .inr (.inr (.inl (contextKey_field hp hc rfl rfl (by decide))))
  have hq : Quiet s4 (if live then hedgeEvent s4 (64 + 8 * p + 1) c else s4) :=
    .ite (hedgeEvent_quiet (.refl s4) c (by omega)) (.refl s4)
  have h5 := h4.quiet hq fun _ => keptKey_outside
  exact ⟨h3.trans (h5.mono fun _ hk => hk.1), (ctxLive_congr (h5.regs _ _ hstate)).trans hdead⟩

/-- Keys kept when plots halt. -/
def offContexts (k : Nat) : Prop := keptKey k ∧ ¬ contextKey k

/-- Contexts stay as dead as they are. -/
theorem haltCtx_dead (s : State) (hp : p < 16) (hc : c < 4) {q d : Nat} (hq : q < 16) (hd : d < 4) (h : s.ctxLive q d = false) :
    (haltCtx s p c).ctxLive q d = false := by
  obtain ⟨hw, hself⟩ := haltCtx_halts s hp hc
  by_cases he : q = p ∧ d = c
  · rw [he.1, he.2]
    exact hself
  · have hk : offState p c (Reg.RKE_CTX_STATE.key [q, d]) :=
      ⟨.inr (.inr (.inl (contextKey_field hq hd rfl rfl (by decide)))), ctxState_key_ne hc hd (by omega)⟩
    exact (ctxLive_congr (hw.regs _ _ hk)).trans h

theorem Works.halts (h : Works keptKey s t) {q d : Nat} (hq : q < 16) (hd : d < 4) : t.ctxLive q d = s.ctxLive q d :=
  ctxLive_congr (h.regs _ _ (.inr (.inr (.inl (contextKey_field hq hd rfl rfl (by decide))))))

/-- A plot's contexts halted, before its array gives up its work. -/
def State.ctxsHalted (s : State) (p : Nat) : State := (List.range 4).foldl (fun s c => haltCtx s p c) s

theorem haltPlot_works (s : State) (p : Nat) : Works keptKey (s.ctxsHalted p) (haltPlot s p) := by
  unfold haltPlot
  rw [← State.ctxsHalted]
  generalize s.ctxsHalted p = u
  have hset : ∀ x, Works keptKey u (u.setPlot p x) := fun _ => Spares.set (Works.refl u) rfl rfl
  exact (hset _).showArray p 0 false

/-- Halting plots leaves their contexts neither RUNNING nor BLOCKED. -/
theorem haltPlots_halts {l : List Nat} (hl : ∀ p ∈ l, p < 16) (s : State) :
    Works offContexts s (l.foldl haltPlot s) ∧ ∀ p ∈ l, ∀ d, d < 4 → (l.foldl haltPlot s).ctxLive p d = false := by
  have hctxs {p : Nat} (hp : p < 16) (u : State) : Works offContexts u (u.ctxsHalted p) :=
    Works.foldl (.refl u) fun v c hc h => h.trans ((haltCtx_halts v hp (List.mem_range.mp hc)).1.mono fun k hk =>
      ⟨hk.1, fun he => hk.2 (he ▸ contextKey_field hp (List.mem_range.mp hc) rfl rfl (by decide))⟩)
  have hdead {p : Nat} (hp : p < 16) (u : State) {q d : Nat} (hq : q < 16) (hd : d < 4) (h : u.ctxLive q d = false) :
      (haltPlot u p).ctxLive q d = false := by
    rw [(haltPlot_works u p).halts hq hd]
    exact List.foldlRecOn (motive := fun v : State => v.ctxLive q d = false) _ _ h fun v hv c hc =>
      haltCtx_dead v hp (List.mem_range.mp hc) hq hd hv
  have hself {p : Nat} (hp : p < 16) (u : State) {d : Nat} (hd : d < 4) : (haltPlot u p).ctxLive p d = false := by
    rw [(haltPlot_works u p).halts hp hd]
    exact foldl_reaches (Q := fun v : State => v.ctxLive p d = false) (fun v => (haltCtx_halts v hp hd).2)
      (fun v c hc _ hv => haltCtx_dead v hp (List.mem_range.mp hc) hp hd hv) u (.inl (List.mem_range.mpr hd))
  refine ⟨Works.foldl (.refl s) fun u p hp h => h.trans ((hctxs (hl p hp) u).trans ((haltPlot_works u p).mono
    fun _ hk => hk.1)), fun p hp d hd => ?_⟩
  exact foldl_reaches (Q := fun v : State => v.ctxLive p d = false) (fun u => hself (hl p hp) u hd)
    (fun u q hq _ hu => hdead (hl q hq) u (hl p hp) hd hu) s (.inl hp)

/-! ### Detector slots and contexts -/

/-- Writing 0 where a context's STATE may stand leaves the context dead. -/
theorem ctxLive_wr_zero {f : Field} {i : List Nat} (hf : f.rst i = 0) (h : s.ctxLive p c = false) :
    (s.wr f i 0).ctxLive p c = false := by
  by_cases he : Reg.RKE_CTX_STATE.key [p, c] = f.key i
  · refine ctxLive_zero ?_
    rw [State.ctxState, State.rd, State.wr, hf, he, Nat.zero_mod]
    show FMap.get (FMap.set s.regs 0 (f.key i) 0) 0 (f.key i) % 2 ^ _ = 0
    rw [FMap.get_set_self, Nat.zero_mod]
  · exact (ctxLive_congr (rd_wr_ne s 0 he)).trans h

theorem ctxLive_wr_lo {f : Field} {i : List Nat} (v : Nat) (hl : f.lo < 128) (hne : f.lo ≠ 0) :
    (s.wr f i v).ctxLive p c = s.ctxLive p c := by
  refine ctxLive_congr (rd_wr_ne s v ?_)
  simp only [Reg.RKE_CTX_STATE, Field.key]
  omega

/-- Disarming a slot leaves dead contexts dead. -/
theorem qdDisarmOp_dead (g : Nat) (h : s.ctxLive p c = false) : (qdDisarmOp s g).ctxLive p c = false := by
  have hset (u : State) (x : QSlot) : (u.setQslot g x).ctxLive p c = u.ctxLive p c := ctxLive_congr (rd_congr rfl _ _)
  unfold qdDisarmOp
  extract_lets s1 s2 s3
  have h1 : s1.ctxLive p c = false :=
    ctxLive_wr_zero rfl ((ctxLive_wr_lo (f := Reg.TOP_QD_GRP_EN) 0 (by decide) (by decide)).trans h)
  have h2 : s2.ctxLive p c = false := by
    unfold s2
    split
    · exact (ctxLive_wr_lo (f := Reg.TOP_QD_GST_GEN) _ (by decide) (by decide)).trans h1
    · exact h1
  clear_value s2
  have h3 : s3.ctxLive p c = false := (ctxLive_wr_lo (f := Reg.TOP_QD_GST_SUSPENDED) _ (by decide) (by decide)).trans
    ((ctxLive_wr_lo (f := Reg.TOP_QD_GST_QUIET) _ (by decide) (by decide)).trans h2)
  exact (hset _ _).trans ((ctxLive_wr_lo (f := Reg.TOP_QD_GST_REPORTED) _ (by decide) (by decide)).trans h3)

theorem Undoes.dead (h : Undoes coreKey s t) (hp : p < 16) (hc : c < 4) : t.ctxLive p c = s.ctxLive p c :=
  ctxLive_congr (h.regs _ _ (.inr (.inl (contextKey_field hp hc rfl rfl (by decide)))))

end

end Sys2Proof.Machine
end

/-! ## Loading and ending jobs (R197, R199-R204, R637) -/

section
namespace Sys2Proof.Machine

section
variable {s t : State} {f g i j k p c : Nat} {x : Job}

/-! ### Results staged in a row -/

/-- The command of a slot has OK with an empty body staged, and no copy of it waits. -/
def State.answeredOk (s : State) (f i : Nat) : Prop :=
  s.resultOf f i = some (0, []) ∧ ∀ y ∈ s.mbx.cmds, y.func = f → y.slot = i → y.waiting = false

theorem finishCode_noCmds (s : State) (f i st : Nat) (body : List Byte) : (s.finishCode f i st body).noCmds = s.noCmds := by
  unfold State.finishCode
  split <;> rfl

theorem finishCode_some {d : Cmd} (h : s.cmd? f i = some d) (st : Nat) (body : List Byte) :
    s.finishCode f i st body = s.setCmd { d with started := true, waiting := false, result := some (st, body) } := by
  unfold State.finishCode
  rw [h]

theorem finishCode_none (h : s.cmd? f i = none) (st : Nat) (body : List Byte) : s.finishCode f i st body = s := by
  unfold State.finishCode
  rw [h]

theorem finishCode_cmd?_ne (s : State) (st : Nat) (body : List Byte) (hne : g ≠ f ∨ k ≠ i) :
    (s.finishCode f i st body).cmd? g k = s.cmd? g k := by
  cases h : s.cmd? f i with
  | none => rw [finishCode_none h]
  | some d =>
    rw [finishCode_some h]
    have hplace := cmd?_place h
    exact find?_setCmd_ne s.mbx.cmds hplace hne

theorem finishCode_cmd?_self {d : Cmd} (h : s.cmd? f i = some d) (st : Nat) (body : List Byte) :
    (s.finishCode f i st body).cmd? f i = some { d with started := true, waiting := false, result := some (st, body) } := by
  have hplace := cmd?_place h
  rw [finishCode_some h]
  exact setCmd_cmd?_self h hplace

theorem finishCode_resultOf {d : Cmd} (h : s.cmd? f i = some d) (st : Nat) (body : List Byte) :
    (s.finishCode f i st body).resultOf f i = some (st, body) :=
  congrArg (Option.bind · Cmd.result) (finishCode_cmd?_self h st body)

/-- A fetched command stays fetched. -/
theorem finishCode_isSome (st : Nat) (body : List Byte) (h : (s.cmd? g k).isSome) :
    ((s.finishCode f i st body).cmd? g k).isSome := by
  by_cases he : g = f ∧ k = i
  · obtain ⟨d, hd⟩ := Option.isSome_iff_exists.mp h
    rw [he.1, he.2] at hd ⊢
    rw [finishCode_cmd?_self hd]
    rfl
  · rw [finishCode_cmd?_ne s st body (by omega)]
    exact h

theorem mem_setCmd {d y : Cmd} (h : y ∈ (s.setCmd d).mbx.cmds) :
    y = d ∨ (y ∈ s.mbx.cmds ∧ ¬ (y.func = d.func ∧ y.slot = d.slot)) := by
  obtain ⟨z, hz, rfl⟩ := List.mem_map.mp h
  by_cases hp : z.func = d.func ∧ z.slot = d.slot
  · exact .inl (if_pos hp)
  · rw [if_neg hp]
    exact .inr ⟨hz, hp⟩

/-- Staging OK for a fetched command. -/
theorem finishCode_answeredOk (h : (s.cmd? f i).isSome) : (s.finishCode f i 0 []).answeredOk f i := by
  obtain ⟨d, hd⟩ := Option.isSome_iff_exists.mp h
  refine ⟨finishCode_resultOf hd 0 [], ?_⟩
  obtain ⟨h1, h2⟩ := cmd?_place hd
  rw [finishCode_some hd]
  intro y hy hf hi
  obtain rfl | ⟨-, hne⟩ := mem_setCmd hy
  · rfl
  · exact absurd ⟨hf.trans h1.symm, hi.trans h2.symm⟩ hne

/-- Staging another command's result leaves it. -/
theorem State.answeredOk.keep (h : s.answeredOk f i) (st : Nat) (body : List Byte) (hne : f ≠ g ∨ i ≠ k) :
    (s.finishCode g k st body).answeredOk f i := by
  refine ⟨(congrArg (Option.bind · Cmd.result) (finishCode_cmd?_ne s st body hne)).trans h.1, ?_⟩
  cases hc : s.cmd? g k with
  | none =>
    rw [finishCode_none hc]
    exact h.2
  | some d =>
    rw [finishCode_some hc]
    intro y hy hf hi
    obtain rfl | ⟨hy, -⟩ := mem_setCmd hy
    · rfl
    · exact h.2 y hy hf hi

/-- OK staged for every command of a list. -/
theorem foldl_finish_answeredOk {l : List (Nat × Nat)} {e : Nat × Nat} (he : e ∈ l) (hs : (s.cmd? e.1 e.2).isSome) :
    (l.foldl (fun s a => s.finish a.1 a.2 .ok []) s).answeredOk e.1 e.2 := by
  induction l using List.reverseRecOn with
  | nil => cases he
  | append_singleton l a ih =>
    rw [List.foldl_append, List.foldl_cons, List.foldl_nil]
    have hsome : ((l.foldl (fun s a => s.finish a.1 a.2 .ok []) s).cmd? e.1 e.2).isSome :=
      List.foldlRecOn (motive := fun u : State => (u.cmd? e.1 e.2).isSome) _ _ hs fun _ hu _ _ => finishCode_isSome _ _ hu
    by_cases hea : e = a
    · rw [← hea]
      exact finishCode_answeredOk hsome
    · have hl : e ∈ l := by simpa [hea] using he
      exact (ih hl).keep _ _ (by
        by_contra hno
        exact hea (Prod.ext (by omega) (by omega)))

/-- JOB_WAITs that post leave an answered command. -/
theorem postWaits_answeredOk (h : s.answeredOk f i) (j : Nat) : (postWaits s j).answeredOk f i := by
  unfold postWaits
  refine List.foldlRecOn (motive := fun u : State => u.answeredOk f i) _ _ h fun u hu y hy => hu.keep _ _ ?_
  obtain ⟨hm, hw⟩ := List.mem_filter.mp hy
  by_contra hno
  have hwait := h.2 y hm (by omega) (by omega)
  simp [hwait] at hw

theorem postWaits_noCmds (s : State) (j : Nat) : (postWaits s j).noCmds = s.noCmds :=
  List.foldlRecOn (motive := fun u : State => u.noCmds = s.noCmds) _ _ rfl fun _ hu _ _ => (finishCode_noCmds _ _ _ _ _).trans hu

/-! ### The end of an aborted job -/

/-- A job's plots halted and their windows disabled, its entries gone, its release notices sent, its slots disarmed. -/
def State.jobStopped (s : State) (x : Job) : State :=
  x.groups.foldl qdDisarmOp (sendReleases (dropJobEntries (x.plotList.foldl closeWindows (x.plotList.foldl haltPlot s))
    (jobId x.bundle)) x.bundle)

theorem plotList_lt (h : p ∈ x.plotList) : p < 16 := List.mem_range.mp (List.mem_filter.mp h).1

theorem closeWindowsAll_undoes (s : State) (l : List Nat) : Undoes coreKey s (l.foldl closeWindows s) :=
  Undoes.foldl (.refl s) fun _ p _ h => h.closeWindows p

theorem coreKey_keptKey (k : Nat) (h : coreKey k) : keptKey k := .inr h

theorem coreKey_ctxState (hp : p < 16) (hc : c < 4) : coreKey (Reg.RKE_CTX_STATE.key [p, c]) :=
  .inr (.inl (contextKey_field hp hc rfl rfl (by decide)))

/-- What follows the halt of a job's plots, up to its slots. -/
theorem jobClosed_undoes (s : State) (x : Job) : Undoes coreKey s
    (sendReleases (dropJobEntries (x.plotList.foldl closeWindows s) (jobId x.bundle)) x.bundle) :=
  (closeWindowsAll_undoes s x.plotList).trans
    ((((Undoes.refl _).dropJobEntries _).sendReleases _).mono coreKey_keptKey)

theorem qdDisarmAll_undoes (s : State) (l : List Nat) : Undoes winEnKey s (l.foldl qdDisarmOp s) :=
  Undoes.foldl (.refl s) fun _ g _ h => h.qdDisarmOp g

theorem jobStopped_view (s : State) (x : Job) : (s.jobStopped x).jobView = s.jobView := by
  have h1 := (haltPlots_halts (l := x.plotList) (fun _ => plotList_lt) s).1.view
  have h2 := (jobClosed_undoes (x.plotList.foldl haltPlot s) x).works.view
  exact ((qdDisarmAll_undoes _ x.groups).works.view.trans h2).trans h1

theorem jobStopped_dead (s : State) (hp : p ∈ x.plotList) (hc : c < 4) : (s.jobStopped x).ctxLive p c = false := by
  have h1 := (haltPlots_halts (l := x.plotList) (fun _ => plotList_lt) s).2 p hp c hc
  have h2 := (jobClosed_undoes (x.plotList.foldl haltPlot s) x).dead (plotList_lt hp) hc
  exact List.foldlRecOn (motive := fun u : State => u.ctxLive p c = false) _ _ (h2.trans h1) fun _ hu g _ => qdDisarmOp_dead g hu

theorem jobStopped_held (s : State) (x : Job) : Held s (s.jobStopped x) :=
  (((Held.refl s).foldl fun _ _ h => h.haltPlot).foldl fun _ _ h => h.closeWindows).dropJobEntries.sendReleases.foldl
    fun _ _ h => h.qdDisarmOp

/-- A job's plots stay held for an interval. -/
def State.plotsHeld (s : State) (l : List Nat) (hold : Nat) : State :=
  l.foldl (fun s p => { s with plotHold := FMap.put s.plotHold p (s.now + hold) }) s

theorem plotsHeld_eq (s : State) (l : List Nat) (hold : Nat) : ∃ m, s.plotsHeld l hold = { s with plotHold := m } :=
  List.foldlRecOn (motive := fun u : State => ∃ m, u = { s with plotHold := m }) _ _ ⟨_, rfl⟩ (by
    rintro _ ⟨m, rfl⟩ p -
    exact ⟨_, rfl⟩)

/-- The record of a job that ends at a time after a number of array steps. -/
def Job.ended (x : Job) (st : Status) (now steps : Nat) : Job :=
  { x with state := 2, final := st.code, changedAt := now, steps := steps, groups := [], start := none, aborting := false, aborts := [] }

/-- A running job as its end leaves it before any command posts. -/
def State.jobEnded (s : State) (j : Nat) (st : Status) (hold : Nat) : State :=
  let u := (s.jobStopped (s.job j)).plotsHeld (s.job j).plotList hold
  u.setJob j ((s.job j).ended st u.now (u.jobSteps (s.job j)))

/-- Commands that post when an aborted job ends. -/
def State.abortsPosted (s : State) (l : List (Nat × Nat)) (j : Nat) : State :=
  postWaits (l.foldl (fun s a => s.finish a.1 a.2 .ok []) (endBatches s j)) j

theorem endJob_aborted (hl : (s.job j).loaded = true) (h1 : (s.job j).state = 1) : ∃ hold body,
    endJob s j .aborted = faultRecord ((s.jobEnded j .aborted hold).abortsPosted (s.job j).aborts j) 1 body := by
  have hrun : ¬ ((!(s.job j).loaded) = true ∨ (s.job j).state ≠ 1) := by simp [hl, h1]
  unfold endJob
  extract_lets x s1 s2 s3 s4 s5 hold s6 s7 s8 s9 s10 g
  exact ⟨hold, _, (if_neg hrun).trans (if_neg (by decide))⟩

theorem endBatches_noCmds (s : State) (j : Nat) : (endBatches s j).noCmds =
    (s.setJob j { s.job j with batches := (s.job j).batches.filter (fun b => 3 ≤ b.phase) }).noCmds :=
  List.foldlRecOn (motive := fun u : State => u.noCmds = _) _ _ rfl fun _ hu _ _ => (failCmd_noCmds _ _ _ _ _ _ _).trans hu

theorem abortsPosted_noCmds (s : State) (l : List (Nat × Nat)) (j : Nat) : (s.abortsPosted l j).noCmds = (endBatches s j).noCmds :=
  (postWaits_noCmds _ j).trans (List.foldlRecOn (motive := fun u : State => u.noCmds = _) _ _ rfl fun _ hu _ _ =>
    (finish_noCmds _ _ _ _ _).trans hu)

/-- Each command that asked for the abort has OK. -/
theorem abortsPosted_resultOf {l : List (Nat × Nat)} {e : Nat × Nat} (he : e ∈ l) (hs : (s.cmd? e.1 e.2).isSome) (j : Nat) :
    (s.abortsPosted l j).resultOf e.1 e.2 = some (0, []) := by
  have hsome : ((endBatches s j).cmd? e.1 e.2).isSome :=
    List.foldlRecOn (motive := fun u : State => (u.cmd? e.1 e.2).isSome) _ _ hs fun _ hu _ _ => finishCode_isSome _ _ hu
  exact (postWaits_answeredOk (foldl_finish_answeredOk he hsome) j).1

section
variable (st : Status) (hold : Nat)

theorem jobEnded_job (s : State) (j : Nat) : ∃ n, (s.jobEnded j st hold).job j = (s.job j).ended st s.now n := by
  obtain ⟨m, hm⟩ := plotsHeld_eq (s.jobStopped (s.job j)) (s.job j).plotList hold
  have hstop := held_now (jobStopped_held s (s.job j))
  have hnow : ((s.jobStopped (s.job j)).plotsHeld (s.job j).plotList hold).now = s.now := by
    rw [hm]
    exact hstop
  exact ⟨_, (job_setJob_self _ _ _).trans (by rw [hnow])⟩

theorem jobEnded_rd (s : State) (j : Nat) (f : Field) (i : List Nat) :
    (s.jobEnded j st hold).rd f i = (s.jobStopped (s.job j)).rd f i := by
  obtain ⟨m, hm⟩ := plotsHeld_eq (s.jobStopped (s.job j)) (s.job j).plotList hold
  unfold State.jobEnded
  rw [hm]
  rfl

theorem jobEnded_cmd? (s : State) (j f i : Nat) : (s.jobEnded j st hold).cmd? f i = s.cmd? f i := by
  obtain ⟨m, hm⟩ := plotsHeld_eq (s.jobStopped (s.job j)) (s.job j).plotList hold
  have hview := congrArg (fun u : State => u.cmd? f i) (jobStopped_view s (s.job j))
  unfold State.jobEnded
  rw [hm]
  exact hview

end

/-- What the end of an aborted job leaves. -/
structure JobAborted (s u : State) (j : Nat) : Prop where
  job : (u.job j).state = 2 ∧ (u.job j).final = 0xC ∧ (u.job j).changedAt = s.now ∧ (u.job j).aborts = []
  dead : ∀ p k, p ∈ (s.job j).plotList → k < 4 → u.ctxLive p k = false
  posted : ∀ f i, (f, i) ∈ (s.job j).aborts → (s.cmd? f i).isSome → u.resultOf f i = some (0, [])
  hbm : u.hbm = s.hbm

theorem endJob_aborts (hl : (s.job j).loaded = true) (h1 : (s.job j).state = 1) : JobAborted s (endJob s j .aborted) j := by
  have hhbm := held_hbm (Held.endJob (j := j) (st := .aborted) (.refl s))
  obtain ⟨hold, body, heq⟩ := endJob_aborted hl h1
  obtain ⟨n, hjob⟩ := jobEnded_job .aborted hold s j
  have hrd := jobEnded_rd .aborted hold s j
  have hcmd := jobEnded_cmd? .aborted hold s j
  rw [heq] at hhbm ⊢
  generalize s.jobEnded j .aborted hold = w at hjob hrd hcmd hhbm ⊢
  have hno := (abortsPosted_noCmds w (s.job j).aborts j).trans (endBatches_noCmds w j)
  have hlog := faultRecord_logged (.refl (w.abortsPosted (s.job j).aborts j)) 1 body
  refine ⟨?_, fun p k hp hk => ?_, fun f i he hs => ?_, hhbm⟩
  · have hj := (hlog.part (fun u => u.job j) fun _ => rfl).trans
      ((State.noCmds_part hno (fun u => u.job j) fun _ => rfl).trans (job_setJob_self _ _ _))
    rw [hj, hjob]
    exact ⟨rfl, rfl, rfl, rfl⟩
  · have hkey := keptKey_not_logKeys (coreKey_keptKey _ (coreKey_ctxState (plotList_lt hp) hk))
    have h1 : (w.abortsPosted (s.job j).aborts j).ctxLive p k = w.ctxLive p k :=
      ctxLive_congr (rd_congr (State.noCmds_part hno State.regs fun _ => rfl) _ _)
    exact ((ctxLive_congr (hlog.regs _ _ hkey)).trans h1).trans ((ctxLive_congr (hrd _ _)).trans (jobStopped_dead s hp hk))
  · have hsome : (w.cmd? f i).isSome := by rwa [hcmd]
    exact (hlog.part (fun u => u.resultOf f i) fun _ => rfl).trans (abortsPosted_resultOf (e := (f, i)) he hsome j)

/-! ### JOB_ABORT_DRAINED and JOB_ABORT -/

theorem exec_jobAbortDrained (j : Fin 16) : exec (.jobAbortDrained j) s = nextQ (abortDrainedOp s j) := rfl

theorem abortDrainedOp_waits (h : ¬ ((s.job j).aborting = true ∧
    (s.jobQuiet (s.job j) = true ∨ (s.job j).abortAt + usCounts (s.rd Reg.TOP_DRAIN_DRAIN_US []) ≤ s.now))) :
    abortDrainedOp s j = s := if_neg h

theorem abortDrainedOp_ends (h : (s.job j).aborting = true ∧
    (s.jobQuiet (s.job j) = true ∨ (s.job j).abortAt + usCounts (s.rd Reg.TOP_DRAIN_DRAIN_US []) ≤ s.now)) :
    abortDrainedOp s j = endJob s j .aborted := if_pos h

/-- A running job that a command starts to abort. -/
def State.abortBegun (s : State) (j f i : Nat) (cmd : Cmd) : State :=
  let u := (s.job j).plotList.foldl haltPlot (running s cmd)
  u.setJob j { u.job j with
    aborts := (u.job j).aborts ++ [(f, i)], aborting := true, abortAt := if (u.job j).aborting then (u.job j).abortAt else u.now }

section
variable {cmd : Cmd} (h : Startable s f i 0x205 cmd) (hj : s.jobNamed f (cmd.fld 8 2) = some j)
include h hj

theorem jobAbortOp_idle (h1 : (s.job j).state ≠ 1) : jobAbortOp s f i = done s cmd [] := by
  unfold jobAbortOp
  rw [acs_starts h, withJob_some h.place.1 hj]
  exact if_pos h1

theorem jobAbortOp_halts (h1 : (s.job j).state = 1) : jobAbortOp s f i = abortDrainedOp (s.abortBegun j f i cmd) j := by
  unfold jobAbortOp
  rw [acs_starts h, withJob_some h.place.1 hj]
  exact if_neg (not_not.mpr h1)

end

/-- What beginning an abort leaves. -/
theorem abortBegun_shows {cmd : Cmd} (h : s.cmd? f i = some cmd) (j : Nat) :
    ((s.abortBegun j f i cmd).job j).loaded = (s.job j).loaded ∧ ((s.abortBegun j f i cmd).job j).state = (s.job j).state ∧
    ((s.abortBegun j f i cmd).job j).plotList = (s.job j).plotList ∧ ((s.abortBegun j f i cmd).job j).aborting = true ∧
    (f, i) ∈ ((s.abortBegun j f i cmd).job j).aborts ∧
    (s.abortBegun j f i cmd).cmd? f i = some { cmd with started := true } ∧
    (∀ p k, p ∈ (s.job j).plotList → k < 4 → (s.abortBegun j f i cmd).ctxLive p k = false) ∧
    (s.abortBegun j f i cmd).hbm = s.hbm := by
  obtain ⟨hw, hdead⟩ := haltPlots_halts (l := (s.job j).plotList) (fun _ => plotList_lt) (running s cmd)
  have hrun := running_cmd? h
  unfold State.abortBegun
  generalize (s.job j).plotList.foldl haltPlot (running s cmd) = u at hw hdead ⊢
  have hjob : u.job j = s.job j := hw.part (fun u => u.job j) fun _ => rfl
  rw [job_setJob_self, hjob]
  refine ⟨rfl, rfl, rfl, rfl, List.mem_append_right _ (List.mem_singleton.mpr rfl), ?_, fun p k hp hk => ?_, ?_⟩
  · exact (hw.part (fun u => u.cmd? f i) fun _ => rfl).trans hrun
  · exact (ctxLive_congr (rd_congr rfl _ _)).trans (hdead p hp k hk)
  · exact hw.part State.hbm fun _ => rfl

/-! ### JOB_WAIT and JOB_UNLOAD -/

section
variable {cmd : Cmd} (h : Startable s f i 0x204 cmd) (hj : s.jobNamed f (cmd.fld 8 2) = some j)
include h hj

theorem jobWaitOp_ended (h2 : (s.job j).state = 2) : jobWaitOp s f i = s.finishCode f i (s.job j).final (s.job j).waitBody := by
  unfold jobWaitOp
  rw [acs_starts h, withJob_some h.place.1 hj]
  exact if_pos h2

theorem jobWaitOp_waits (h2 : (s.job j).state ≠ 2) : jobWaitOp s f i = waiting s cmd := by
  unfold jobWaitOp
  rw [acs_starts h, withJob_some h.place.1 hj]
  exact if_neg h2

end

section
variable {cmd : Cmd} (h : Startable s f i 0x206 cmd)
include h

theorem jobUnloadOp_noJob (hj : s.jobNamed f (cmd.fld 8 2) = none) :
    Answers s (jobUnloadOp s f i) f i .noJob (failBody 8 0 (cmd.fld 8 2)) := acs_fail h (withJob_none h.place.1 hj _)

theorem jobUnloadOp_job (hj : s.jobNamed f (cmd.fld 8 2) = some j) : jobUnloadOp s f i =
    if (s.job j).state = 1 ∨ (s.job j).start.isSome then fail s cmd .jobState 8 0 (s.job j).state
    else if !(s.job j).batches.isEmpty then s
    else done (unloadJob s j) cmd [] := by
  unfold jobUnloadOp
  rw [acs_starts h, withJob_some h.place.1 hj]

end

/-- The generation after one. -/
def nextGen (n : Nat) : Nat := if n = 255 then 1 else n + 1

/-- A job's windows disabled, its slots disarmed, its entries and plans removed. -/
def State.jobRemoved (s : State) (j : Nat) : State :=
  removeOwn ((s.job j).groups.foldl qdDisarmOp ((s.job j).plotList.foldl closeWindows s)) j

/-- A freed load slot. -/
def State.slotFreed (s : State) (j : Nat) (x : Job) : State :=
  let keys := (updateRecords x.bundle).map upTkey
  { s with upd := { s.upd with
    grants := FMap.dropWhere s.upd.grants (fun k => keys.contains (k / 256))
    plans := s.upd.plans.map (fun (y : Plan) => if y.slot = some j then { y with slot := none } else y) } }.setJob j
      { gen := nextGen x.gen }

theorem unloadJob_frees (h : (s.job j).batches = []) : unloadJob s j = showTrain ((s.jobRemoved j).slotFreed j (s.job j)) := by
  unfold unloadJob
  extract_lets x u1 u2 u3 keys y u4 u5
  have h5 : u5 = u4 := by
    unfold u5 x
    rw [h, List.foldl_nil]
  have h3 : u3 = s.jobRemoved j := rfl
  rw [h5, ← h3]
  clear_value u3
  rfl

theorem jobRemoved_undoes (s : State) (j : Nat) : Undoes winEnKey ((s.job j).plotList.foldl closeWindows s) (s.jobRemoved j) :=
  (qdDisarmAll_undoes _ _).trans (((Undoes.refl _).removeOwn j).mono fun _ => .inl)

theorem jobRemoved_view (s : State) (j : Nat) : (s.jobRemoved j).offUndo = s.offUndo :=
  (jobRemoved_undoes s j).view.trans (closeWindowsAll_undoes s _).view

theorem showTrain_part {α : Type} (s : State) (p : State → α) (hp : ∀ u : State, p u.offUndo = p u) : p (showTrain s) = p s := by
  rw [← hp, ← hp s]
  rfl

theorem showTrain_winEn (s : State) (p w : Nat) : (showTrain s).rd Reg.STO_WIN_EN [p, w] = s.rd Reg.STO_WIN_EN [p, w] :=
  rd_wr_ne _ _ fun he => not_winEnKey (f := Reg.RWC_CTL_TRAIN) [] (by decide) (by decide) (he ▸ winEn_key p w)

/-- What freeing a load slot leaves. -/
theorem unloadJob_shows (h : (s.job j).batches = []) :
    (unloadJob s j).job j = { gen := nextGen (s.job j).gen } ∧ (∀ k, k ≠ j → (unloadJob s j).job k = s.job k) ∧
    (∀ p w, p ∈ (s.job j).plotList → w < 16 → (unloadJob s j).rd Reg.STO_WIN_EN [p, w] = 0) ∧
    (unloadJob s j).mbx = s.mbx ∧ (unloadJob s j).hbm = s.hbm ∧ (unloadJob s j).plots = s.plots := by
  have hrem := jobRemoved_undoes s j
  have hview := jobRemoved_view s j
  rw [unloadJob_frees h]
  generalize s.jobRemoved j = u at hrem hview ⊢
  have hpart {α : Type} (v : State → α) (hv : ∀ u : State, v u.offUndo = v u) : v u = v s := by rw [← hv u, hview, hv s]
  have hshow {α : Type} (v : State → α) (hv : ∀ u : State, v u.offUndo = v u) := showTrain_part (u.slotFreed j (s.job j)) v hv
  refine ⟨?_, fun k hk => ?_, fun p w hp hw => ?_, ?_, ?_, ?_⟩
  · exact (hshow (fun u => u.job j) fun _ => rfl).trans (job_setJob_self _ _ _)
  · exact (hshow (fun u => u.job k) fun _ => rfl).trans ((job_setJob_ne _ _ hk).trans (hpart (fun u => u.job k) fun _ => rfl))
  · have hz := (hrem.regs _ _ (winEn_key p w)).trans (closeWindows_closed s hp hw)
    exact (showTrain_winEn _ p w).trans hz
  · exact (hshow State.mbx fun _ => rfl).trans (hpart State.mbx fun _ => rfl)
  · exact (hshow State.hbm fun _ => rfl).trans (hpart State.hbm fun _ => rfl)
  · exact (hshow State.plots fun _ => rfl).trans (hpart State.plots fun _ => rfl)

/-! ### JOB_LOAD -/

/-- A state without its register file and its plots. -/
def State.offPlots (s : State) : State := { s with regs := [], plots := [] }

/-- The program words of a plot. -/
def State.progWord (s : State) (p n : Nat) : Option Nat := FMap.find (s.plot p).prog n

section
variable {r : List Byte} {n : Nat}

theorem loadProgram_spares (s : State) (r : List Byte) : Spares State.offPlots dieKey s (loadProgram s r) :=
  Spares.foldl _ _ (fun _ _ _ h => Spares.set h rfl rfl) (.refl _ _ s)

theorem setSto_progWord (s : State) (q : Nat) (y : Stores) (p n : Nat) : (s.setSto q y).progWord p n = s.progWord p n := by
  unfold State.progWord
  by_cases hq : p = q
  · rw [hq, State.setSto, plot_setPlot_self]
  · rw [State.setSto, plot_setPlot_ne _ _ hq]

/-- Loading a record of another plot keeps a plot's program. -/
theorem loadProgram_progWord_ne (s : State) (h : p ≠ fieldAt r 0 1) : (loadProgram s r).progWord p n = s.progWord p n :=
  List.foldlRecOn (motive := fun u : State => u.progWord p n = s.progWord p n) _ _ rfl fun u hu _ _ =>
    (congrArg (fun y : Plot => FMap.find y.prog n) (plot_setPlot_ne u _ h)).trans hu

/-- The words of a loaded record. -/
theorem loadProgram_progWord (s : State) (hk : k < fieldAt r 4 2) :
    (loadProgram s r).progWord (fieldAt r 0 1) (fieldAt r 2 2 + k) = some (fieldAt r (16 + 16 * k) 16) := by
  refine foldl_reaches (Q := fun u : State => u.progWord (fieldAt r 0 1) (fieldAt r 2 2 + k) = some (fieldAt r (16 + 16 * k) 16))
    (fun u => ?_) (fun u i _ hne hu => ?_) s (.inl (List.mem_range.mpr hk))
  · rw [State.progWord, plot_setPlot_self]
    exact FMap.find_put_self _ _ _
  · rw [State.progWord, plot_setPlot_self]
    exact (FMap.find_put_ne _ _ (by omega)).trans hu

/-- What each row of an image changes of the plot. -/
def State.imageRow (s : State) (r : List Byte) (i : Nat) : State :=
  let p := fieldAt r 0 1
  let st := fieldAt r 1 1
  let row := fieldAt r 2 2 + i
  let x := (s.plot p).sto
  let s := s.setSto p { x with coal := x.coal.filter (fun e => !(e.store == st && e.row == row)) }
  clearPoison (putRow s p st row ((r.drop (16 + 256 * i)).take 256)) p st row (fun _ => true)

theorem imageRow_eq (s : State) (r : List Byte) (i : Nat) : ∃ x y z, s.imageRow r i =
    ((s.setSto (fieldAt r 0 1) x).setSto (fieldAt r 0 1) y).setSto (fieldAt r 0 1) z := ⟨_, _, _, rfl⟩

theorem loadImage_eq (s : State) (r : List Byte) : loadImage s r =
    (List.range (fieldAt r 4 2)).foldl (fun s i => showScoreboard (s.imageRow r i) (fieldAt r 0 1)) s := rfl

theorem setSto_spares {a : State} (h : Spares State.offPlots dieKey a s) (p : Nat) (x : Stores) :
    Spares State.offPlots dieKey a (s.setSto p x) := Spares.set h rfl rfl

theorem showScoreboard_spares {a : State} (h : Spares State.offPlots dieKey a s) (p : Nat) :
    Spares State.offPlots dieKey a (showScoreboard s p) :=
  h.wr Reg.STO_STAT_SB_WS [p] _ rfl (not_dieKey _ (by decide))

theorem loadImage_spares (s : State) (r : List Byte) : Spares State.offPlots dieKey s (loadImage s r) := by
  rw [loadImage_eq]
  refine Spares.foldl _ _ (fun u i _ h => ?_) (.refl _ _ s)
  obtain ⟨x, y, z, hrow⟩ := imageRow_eq u r i
  rw [hrow]
  exact showScoreboard_spares (setSto_spares (setSto_spares (setSto_spares h _ x) _ y) _ z) _

theorem loadImage_progWord (s : State) (r : List Byte) (p n : Nat) : (loadImage s r).progWord p n = s.progWord p n := by
  rw [loadImage_eq]
  refine List.foldlRecOn (motive := fun u : State => u.progWord p n = s.progWord p n) _ _ rfl fun u hu i _ => ?_
  obtain ⟨x, y, z, hrow⟩ := imageRow_eq u r i
  rw [hrow]
  exact (setSto_progWord _ _ z _ _).trans ((setSto_progWord _ _ y _ _).trans ((setSto_progWord u _ x _ _).trans hu))

end

/-- A bundle's programs and images loaded. -/
def State.bundleLoaded (s : State) (b : List Byte) : State := (images b).foldl loadImage ((programs b).foldl loadProgram s)

theorem bundleLoaded_spares (s : State) (b : List Byte) : Spares State.offPlots dieKey s (s.bundleLoaded b) :=
  Spares.foldl _ _ (fun _ r _ h => h.trans (loadImage_spares _ r))
    (Spares.foldl _ _ (fun _ r _ h => h.trans (loadProgram_spares _ r)) (.refl _ _ s))

/-- The records of distinct plots all stand in program memory. -/
theorem bundleLoaded_progWord {b r : List Byte} (hd : (bundlePlots b).Nodup) (hr : r ∈ programs b) (hk : k < fieldAt r 4 2) (s : State) :
    (s.bundleLoaded b).progWord (fieldAt r 0 1) (fieldAt r 2 2 + k) = some (fieldAt r (16 + 16 * k) 16) := by
  have hprog := foldl_reaches (g := loadProgram) (l := programs b)
    (Q := fun u : State => u.progWord (fieldAt r 0 1) (fieldAt r 2 2 + k) = some (fieldAt r (16 + 16 * k) 16))
    (fun u => loadProgram_progWord u hk)
    (fun u q hq hne hu => (loadProgram_progWord_ne u fun he => hne (List.inj_on_of_nodup_map hd hq hr he.symm)).trans hu) s (.inl hr)
  exact List.foldlRecOn (motive := fun u : State => u.progWord _ _ = _) _ _ hprog fun u hu q _ => (loadImage_progWord u q _ _).trans hu

theorem nodup_of_loadBad_none {b : List Byte} (h : s.loadBad f b = none) : (bundlePlots b).Nodup := by
  have hbad : s.bundleBad b = none := by
    unfold State.loadBad at h
    split at h
    · cases h
    · next hb => exact hb
  have hprog : programsOk b = true := by
    unfold State.bundleBad at hbad
    split at hbad
    · cases hbad
    split at hbad
    · cases hbad
    split at hbad
    · cases hbad
    · next hok =>
      simp only [Bool.not_eq_true', Bool.not_eq_false, Bool.and_eq_true] at hok
      obtain ⟨⟨⟨⟨⟨⟨⟨⟨-, hprog⟩, -⟩, -⟩, -⟩, -⟩, -⟩, -⟩, -⟩ := hok
      exact hprog
  have hlen := beq_iff_eq.mp (Bool.and_eq_true_iff.mp hprog).1
  have hmap : (bundlePlots b).length = (programs b).length := List.length_map _
  exact List.dedup_eq_self.mp ((List.dedup_sublist _).eq_of_length (hlen.trans hmap.symm))

/-- A job as JOB_LOAD makes it. -/
def State.jobLoaded (s : State) (j f : Nat) (b : List Byte) : Job :=
  { gen := (s.job j).gen, loaded := true, func := f, bundle := b, plots := bitMask (bundlePlots b), changedAt := s.now }

/-- What JOB_LOAD answers. -/
def Job.loadBody (x : Job) (j : Nat) : List Byte :=
  leBytes 2 (x.handle j) ++ leBytes 2 x.plots ++ leBytes 4 1 ++ leBytes 8 (bytesUsed x.bundle)

theorem loadBundle_claims {cmd : Cmd} {b : List Byte} (hfree : (List.range 16).find? (fun k => !(s.job k).loaded) = some j) :
    loadBundle s cmd b = done (showTrain ((s.bundleLoaded b).setJob j ((s.bundleLoaded b).jobLoaded j cmd.func b))) cmd
      (((s.bundleLoaded b).jobLoaded j cmd.func b).loadBody j) := by
  unfold loadBundle
  rw [hfree]
  rfl

/-- What loading a bundle leaves. -/
theorem loadBundle_shows {cmd : Cmd} {b : List Byte} (hc : s.cmd? f i = some cmd)
    (hfree : (List.range 16).find? (fun k => !(s.job k).loaded) = some j) :
    (loadBundle s cmd b).job j = s.jobLoaded j f b ∧ (∀ k, k ≠ j → (loadBundle s cmd b).job k = s.job k) ∧
    (∀ p n, (loadBundle s cmd b).progWord p n = (s.bundleLoaded b).progWord p n) ∧
    (loadBundle s cmd b).resultOf f i = some (0, (s.jobLoaded j f b).loadBody j) ∧ (loadBundle s cmd b).hbm = s.hbm := by
  obtain ⟨hf, hi⟩ := cmd?_place hc
  have hload := bundleLoaded_spares s b
  have hnow : (s.bundleLoaded b).now = s.now := hload.rd _ _ (by unfold dieKey; decide)
  have hpart {α : Type} (v : State → α) (hv : ∀ u : State, v u.offPlots = v u) : v (s.bundleLoaded b) = v s := by
    rw [← hv, hload.view, hv s]
  have hjob : (s.bundleLoaded b).jobLoaded j cmd.func b = s.jobLoaded j f b := by
    rw [State.jobLoaded, hnow, hpart (fun u => u.job j) fun _ => rfl, hf, State.jobLoaded]
  rw [loadBundle_claims hfree, hjob]
  clear hjob hload hnow
  generalize hu : s.bundleLoaded b = u at hpart ⊢
  have hshow {α : Type} (v : State → α) (hv : ∀ w : State, v w.offUndo = v w) :=
    showTrain_part (u.setJob j (s.jobLoaded j f b)) v hv
  have hcmd : (showTrain (u.setJob j (s.jobLoaded j f b))).cmd? f i = some cmd :=
    (hshow (fun w => w.cmd? f i) fun _ => rfl).trans ((hpart (fun w => w.cmd? f i) fun _ => rfl).trans hc)
  have hans := done_answers hcmd ((s.jobLoaded j f b).loadBody j)
  refine ⟨?_, fun k hk => ?_, fun p n => ?_, hans.result, ?_⟩
  · exact (hans.part (fun w => w.job j) fun _ => rfl).trans ((hshow (fun w => w.job j) fun _ => rfl).trans (job_setJob_self _ _ _))
  · exact (hans.part (fun w => w.job k) fun _ => rfl).trans ((hshow (fun w => w.job k) fun _ => rfl).trans
      ((job_setJob_ne _ _ hk).trans (hpart (fun w => w.job k) fun _ => rfl)))
  · exact (hans.part (fun w => w.progWord p n) fun _ => rfl).trans (hshow (fun w => w.progWord p n) fun _ => rfl)
  · exact (hans.part State.hbm fun _ => rfl).trans ((hshow State.hbm fun _ => rfl).trans (hpart State.hbm fun _ => rfl))

theorem afterBuffer_now (s : State) (c : Cmd) (o : Nat) : (s.afterBuffer c o).now = s.now := by
  unfold State.afterBuffer
  split
  · exact bulk_now s _ _ _
  · rfl

section
variable {cmd : Cmd} {buf : HostBuf} {b : List Byte} (h : Startable s f i 0x201 cmd) (hb : s.buffer f (cmd.ref 8) 8 buf = .ok b)
include h hb

theorem jobLoadOp_refuses {e : Status × Nat × Nat} (he : (s.afterBuffer cmd 8).loadBad f b = some e) :
    Answers (s.afterBuffer cmd 8) (jobLoadOp s f i buf) f i e.1 (failBody 8 e.2.1 e.2.2) := by
  have hcmd := (afterBuffer_cmd? s cmd 8 f i).trans h.fetched
  have hop : jobLoadOp s f i buf = fail (s.afterBuffer cmd 8) cmd e.1 8 e.2.1 e.2.2 := by
    unfold jobLoadOp
    rw [acs_starts h, withBuffer_ok h.place.1 hb, h.place.1, he]
  rw [hop]
  exact fail_answers hcmd _ _ _ _

theorem jobLoadOp_loads (hbad : (s.afterBuffer cmd 8).loadBad f b = none)
    (hclear : ∀ p, p ∈ bundlePlots b → s.on Reg.STO_STAT_CLEAR_BUSY [p] = false) :
    jobLoadOp s f i buf = loadBundle (s.afterBuffer cmd 8) cmd b := by
  have hon (p : Nat) : (s.afterBuffer cmd 8).on Reg.STO_STAT_CLEAR_BUSY [p] = s.on Reg.STO_STAT_CLEAR_BUSY [p] :=
    (afterBuffer_aboveTop hb).regs.on _ _ (aboveTop_key (by decide) _)
  have hany : (bundlePlots b).any (fun p => (s.afterBuffer cmd 8).on Reg.STO_STAT_CLEAR_BUSY [p]) = false :=
    List.any_eq_false.mpr fun p hp => by rw [hon, hclear p hp]; exact Bool.false_ne_true
  unfold jobLoadOp
  rw [acs_starts h, withBuffer_ok h.place.1 hb, h.place.1, hbad]
  exact if_neg (by rw [hany]; exact Bool.false_ne_true)

end

end

/-- Settles O30: each command by its equation; the end of an aborted job up to what its parts leave alone. -/
theorem loadingAndEndingJobs : Obligations.LoadingAndEndingJobs := by
  intro s
  refine ⟨fun f i c buf b h hb => ⟨fun e he => ?badLoad, fun j hbad hclear hfree => ?loads⟩,
    fun f i c => ⟨fun h => ⟨fun hj => ?noJob, fun j hj => ⟨fun h1 => ?running, fun h1 h2 h3 => ?batches, fun h1 h2 h3 => ?frees⟩⟩,
      fun h j hj => ⟨fun h2 => ?ended, fun h2 => ?waits⟩, fun h j hj => ⟨fun h1 => ?idle, fun h1 => ?aborts⟩⟩,
    fun j => ⟨fun ha => ?notAborting, fun hq hn => ?draining, fun hl h1 ha hd => ?drained⟩⟩
  case badLoad => exact nextQ_shows rfl (jobLoadOp_refuses h hb he)
  case loads =>
    have hjobs : (s.afterBuffer c 8).job = s.job := afterBuffer_part s c 8 State.job fun _ => rfl
    have hcmd := (afterBuffer_cmd? s c 8 f i).trans h.fetched
    rw [← hjobs] at hfree
    obtain ⟨hself, hother, hword, hres, hhbm⟩ := loadBundle_shows (b := b) hcmd hfree
    have hload : (s.afterBuffer c 8).jobLoaded j f b = s.jobLoaded j f b := by
      rw [State.jobLoaded, hjobs, afterBuffer_now, State.jobLoaded]
    rw [hload] at hself hres
    refine nextQ_shows (congrArg nextQ (jobLoadOp_loads h hb hbad hclear)) ⟨hself, fun k hk => ?_, fun r hr k hk => ?_, hres, ?_⟩
    · exact (hother k hk).trans (congrFun hjobs k)
    · exact (hword _ _).trans (bundleLoaded_progWord (nodup_of_loadBad_none hbad) hr hk _)
    · exact hhbm.trans (afterBuffer_part s c 8 State.hbm fun _ => rfl)
  case noJob => exact nextQ_shows rfl (jobUnloadOp_noJob h hj)
  case running =>
    have hop := (jobUnloadOp_job h hj).trans (if_pos (.inl h1))
    rw [h1] at hop
    exact nextQ_shows (congrArg nextQ hop) (fail_answers h.fetched _ _ _ _)
  case batches =>
    have hop := (jobUnloadOp_job h hj).trans ((if_neg (by simp [h1, h2])).trans (if_pos (by simp [h3])))
    exact nextQ_reaches (congrArg nextQ hop)
  case frees =>
    have hop := (jobUnloadOp_job h hj).trans ((if_neg (by simp [h1, h2])).trans (if_neg (by simp [h3])))
    obtain ⟨hself, hother, hwin, hmbx, hhbm, hplots⟩ := unloadJob_shows h3
    have hcmd : (unloadJob s j).cmd? f i = some c := by rw [State.cmd?, hmbx]; exact h.fetched
    have hans := done_answers hcmd []
    refine nextQ_shows (congrArg nextQ hop) ⟨?_, fun k hk => ?_, fun p w hp hw => ?_, hans.result, ?_, ?_⟩
    · exact (hans.part (fun u => u.job j) fun _ => rfl).trans hself
    · exact (hans.part (fun u => u.job k) fun _ => rfl).trans (hother k hk)
    · exact (hans.rd _ _).trans (hwin p w hp hw)
    · exact (hans.part State.hbm fun _ => rfl).trans hhbm
    · exact (hans.part State.plots fun _ => rfl).trans hplots
  case ended =>
    have hop := jobWaitOp_ended h hj h2
    refine ⟨_, congrArg Host.Outcome.next hop, finishCode_resultOf h.fetched _ _, finishCode_noCmds _ _ _ _ _⟩
  case waits => exact ⟨_, congrArg Host.Outcome.next (jobWaitOp_waits h hj h2), waiting_cmd? h.fetched, rfl⟩
  case idle => exact nextQ_shows (congrArg nextQ (jobAbortOp_idle h hj h1)) (done_answers h.fetched [])
  case aborts =>
    obtain ⟨-, hloaded, -⟩ := jobNamed_some hj
    have hop := jobAbortOp_halts h hj h1
    obtain ⟨hl, hst, hpl, hab, hmem, hcmd, hdead, hhbm⟩ := abortBegun_shows h.fetched j
    generalize s.abortBegun j f i c = u at hop hl hst hpl hab hmem hcmd hdead hhbm
    by_cases hd : (u.job j).aborting = true ∧
        (u.jobQuiet (u.job j) = true ∨ (u.job j).abortAt + usCounts (u.rd Reg.TOP_DRAIN_DRAIN_US []) ≤ u.now)
    · have hend := endJob_aborts (hl.trans hloaded) (hst.trans h1)
      obtain ⟨h2, hfin, -, -⟩ := hend.job
      refine nextQ_shows (congrArg nextQ (hop.trans (abortDrainedOp_ends hd))) ⟨fun p k hp hk => ?_, .inl ⟨h2, hfin, ?_⟩, ?_⟩
      · exact hend.dead p k (hpl ▸ hp) hk
      · exact hend.posted _ _ hmem (by rw [hcmd]; rfl)
      · exact hend.hbm.trans hhbm
    · exact nextQ_shows (congrArg nextQ (hop.trans (abortDrainedOp_waits hd))) ⟨hdead, .inr ⟨hst.trans h1, hab, hmem, hcmd⟩, hhbm⟩
  case notAborting => exact nextQ_reaches ((exec_jobAbortDrained j).trans (congrArg nextQ (abortDrainedOp_waits (by simp [ha]))))
  case draining =>
    have hno : ¬ ((s.job j).aborting = true ∧ (s.jobQuiet (s.job j) = true ∨
        (s.job j).abortAt + usCounts (s.rd Reg.TOP_DRAIN_DRAIN_US []) ≤ s.now)) := by
      rw [hq]
      rintro ⟨-, hx | hx⟩
      · exact Bool.false_ne_true hx
      · exact absurd hx (Nat.not_le.mpr hn)
    exact nextQ_reaches ((exec_jobAbortDrained j).trans (congrArg nextQ (abortDrainedOp_waits hno)))
  case drained =>
    have hend := endJob_aborts hl h1
    obtain ⟨h2, hfin, hat, hnone⟩ := hend.job
    have hop := (exec_jobAbortDrained j).trans (congrArg nextQ (abortDrainedOp_ends ⟨ha, hd⟩))
    exact nextQ_shows hop ⟨h2, hfin, hat, hnone, hend.dead,
      fun e d he hs => hend.posted e.1 e.2 he (by rw [hs]; rfl), hend.hbm⟩

end Sys2Proof.Machine
end

/-! ## Abandoned starts and INSTALL streams (R209, R210) -/

section
namespace Sys2Proof.Machine

section
variable {a s t : State} {f g i j k p w c : Nat} {x : Start} {q : Packet}

/-! ### The start that a message names -/

theorem startNamed_some (h : s.startNamed q = some (j, x)) : (s.job j).start = some x := by
  obtain ⟨k, -, hk⟩ := List.exists_of_findSome?_eq_some h
  split at hk
  · next y hy =>
    split at hk
    · cases hk
      exact hy
    · cases hk
  · cases hk

/-! ### Abandoning a start -/

/-- What is undone of a start before the job's record is. -/
def State.startUndone (s : State) (j : Nat) : State :=
  removeOwn ((s.job j).groups.foldl qdDisarmOp ((records (s.job j).bundle 6 16).foldl
    (fun s r => s.wr Reg.RKE_CRD_EN [fieldAt r 0 1, fieldAt r 1 1] 0) ((s.job j).plotList.foldl closeWindows s))) j

theorem undoStart_eq (s : State) (j : Nat) :
    undoStart s j = (s.startUndone j).setJob j { (s.startUndone j).job j with groups := [], start := none } := rfl

theorem startUndone_undoes (s : State) (j : Nat) : Undoes winEnKey ((s.job j).plotList.foldl closeWindows s) (s.startUndone j) := by
  unfold State.startUndone
  generalize (s.job j).plotList.foldl closeWindows s = u
  have hcounters : Undoes winEnKey u ((records (s.job j).bundle 6 16).foldl
      (fun s r => s.wr Reg.RKE_CRD_EN [fieldAt r 0 1, fieldAt r 1 1] 0) u) :=
    Undoes.foldl (.refl u) fun _ _ _ h => h.wr 0 (not_winEnKey _ (by decide) (by decide))
  exact (hcounters.trans (qdDisarmAll_undoes _ _)).trans (((Undoes.refl _).removeOwn j).mono fun _ => .inl)

/-- Packets sent in a row. -/
theorem foldl_injects {α : Type} (g : State → α → Packet) (u : State) (l : List α) :
    ∃ m : List Packet, l.foldl (fun s d => injectPkt s (g s d)) u = m.foldl injectPkt u := by
  induction l generalizing u with
  | nil => exact ⟨[], rfl⟩
  | cons d l ih =>
    obtain ⟨m, hm⟩ := ih (injectPkt u (g u d))
    exact ⟨g u d :: m, hm⟩

/-- The messages and the answer of an abandoned start. -/
theorem abandonStart_eq (hx : (s.job j).start = some x) (st : Status) (v : Nat) : ∃ l : List Packet,
    abandonStart s j st v = (l.foldl injectPkt (undoStart s j)).failCmd x.func x.slot st 0xFFFF 0 v := by
  unfold abandonStart
  dsimp only
  rw [hx]
  dsimp only
  obtain ⟨m, hm⟩ := foldl_injects (fun u d => u.startPacket 7 d (jobId (s.job j).bundle) x.tag) (undoStart s j)
    (if (undoStart s j).leads (s.job j).bundle then
      (runDies (s.job j).bundle).filter (fun d => d != (undoStart s j).self) ++ x.targets else [leader (s.job j).bundle])
  exact ⟨m, congrArg (State.failCmd · x.func x.slot st 0xFFFF 0 v) hm⟩

theorem injectAll_undoes (s : State) (l : List Packet) : Undoes keptKey s (l.foldl injectPkt s) :=
  Undoes.foldl (.refl s) fun _ q _ h => h.injectPkt q

/-- What abandoning a start leaves. -/
structure StartAbandoned (s u : State) (j : Nat) (x : Start) (st : Status) (v : Nat) : Prop where
  job : (u.job j).start = none ∧ (u.job j).groups = [] ∧ (u.job j).state = (s.job j).state
  windows : ∀ p w, p ∈ (s.job j).plotList → w < 16 → u.rd Reg.STO_WIN_EN [p, w] = 0
  answer : ∀ d, s.cmd? x.func x.slot = some d → u.resultOf x.func x.slot = some (st.code, failBody 0xFFFF 0 v)
  hbm : u.hbm = s.hbm

theorem abandonStart_abandons (hx : (s.job j).start = some x) (st : Status) (v : Nat) :
    StartAbandoned s (abandonStart s j st v) j x st v := by
  obtain ⟨l, heq⟩ := abandonStart_eq hx st v
  have hundo := startUndone_undoes s j
  have hview := hundo.view.trans (closeWindowsAll_undoes s _).view
  rw [heq, undoStart_eq]
  generalize s.startUndone j = u at hundo hview ⊢
  have hpart {α : Type} (y : State → α) (hy : ∀ w : State, y w.offUndo = y w) : y u = y s := by rw [← hy, hview, hy s]
  have hjob : u.job j = s.job j := hpart (fun w => w.job j) fun _ => rfl
  have hsent := injectAll_undoes (u.setJob j { u.job j with groups := [], start := none }) l
  generalize l.foldl injectPkt _ = r at hsent ⊢
  have hno := failCmd_noCmds r x.func x.slot st 0xFFFF 0 v
  have hset : (r.failCmd x.func x.slot st 0xFFFF 0 v).job j = { s.job j with groups := [], start := none } :=
    (State.noCmds_part hno (fun w => w.job j) fun _ => rfl).trans
      ((hsent.part (fun w => w.job j) fun _ => rfl).trans ((job_setJob_self _ _ _).trans (by rw [hjob])))
  refine ⟨by rw [hset]; exact ⟨rfl, rfl, rfl⟩, fun p w hp hw => ?_, fun d hd => ?_, ?_⟩
  · have hregs := rd_congr (State.noCmds_part hno State.regs fun _ => rfl) Reg.STO_WIN_EN [p, w]
    exact hregs.trans ((hsent.regs _ _ (.inl (winEn_key p w))).trans
      ((hundo.regs _ _ (winEn_key p w)).trans (closeWindows_closed s hp hw)))
  · have hcmd : r.cmd? x.func x.slot = some d := (hsent.part (fun w => w.cmd? x.func x.slot) fun _ => rfl).trans
      ((hpart (fun w => w.cmd? x.func x.slot) fun _ => rfl).trans hd)
    exact (failCmd_answers hcmd _ _ _ _).result
  · exact (State.noCmds_part hno State.hbm fun _ => rfl).trans
      ((hsent.part State.hbm fun _ => rfl).trans (hpart State.hbm fun _ => rfl))

/-! ### START_ABORT outside a start, and INSTALL -/

theorem showGraft_graft (s : State) (n : Nat) : (showGraft s n).graft = s.graft := by
  have hfold (l : List Nat) (fld : Field) (h : Nat → List Nat) (v : Nat → Nat) (u : State) :
      (l.foldl (fun s i => s.wr fld (h i) (v i)) u).graft = u.graft :=
    List.foldlRecOn (motive := fun w : State => w.graft = u.graft) _ _ rfl fun _ hw _ _ => hw
  unfold showGraft
  dsimp only
  split
  · exact hfold _ _ _ _ _
  · exact hfold _ _ _ _ _

theorem showGrafts_graft (s : State) : (showGrafts s).graft = s.graft :=
  List.foldlRecOn (motive := fun u : State => u.graft = s.graft) _ _ rfl fun u hu n _ => (showGraft_graft u n).trans hu

/-- What another die installed for a job goes. -/
theorem dropInstalled_drops (h : k ≠ s.self) (j : Nat) :
    (∀ e ∈ (dropInstalled s j k).graft.entries, ¬ (e.2.jobId = j ∧ e.2.leader = k)) ∧
    (dropInstalled s j k).jobs = s.jobs ∧ (dropInstalled s j k).hbm = s.hbm := by
  unfold dropInstalled
  extract_lets mine g' y u
  refine ⟨fun e he hx => ?_, ?_, ?_⟩
  · rw [showGrafts_graft] at he
    obtain ⟨-, hkeep⟩ := List.mem_filter.mp he
    simp [hx, h] at hkeep
  · exact ((Undoes.refl (dropLeaving u)).showGrafts).part State.jobs fun _ => rfl
  · exact ((Undoes.refl (dropLeaving u)).showGrafts).part State.hbm fun _ => rfl

theorem takeStream_eq (s : State) (l : List Packet) : ∃ y, takeStream s l = { s with link := { s.link with inbox := y } } :=
  List.foldlRecOn (motive := fun u : State => ∃ y, u = { s with link := { s.link with inbox := y } }) _ _ ⟨_, rfl⟩ (by
    rintro _ ⟨y, rfl⟩ q -
    exact ⟨_, rfl⟩)

/-- The plan that a record installs on a die. -/
def State.newPlan (s : State) (r : List Byte) (job leader : Nat) (slot : Option Nat) : Plan :=
  { tkey := upTkey r, gtag := upGtag r,
    writers := (upWriters r).map (fun d => { die := d, epoch := epochNext (s.writerEpoch (upTkey r) d) }),
    owners := upOwners r, jobId := job, leader := leader, slot := slot, turnAt := s.now }

/-- A state with a plan in place and its epochs granted, before the grants are sent. -/
def State.planPut (s : State) (r : List Byte) (y : Plan) : State :=
  { s with
    upd := { s.upd with
      plans := s.upd.plans.filter (fun z => z.tkey != y.tkey) ++ [y]
      epochs := y.writers.foldl (fun m w => FMap.put m (y.tkey * 256 + w.die) w.epoch) s.upd.epochs }
    rwc := { s.rwc with epochs := FMap.erase s.rwc.epochs (upGtag r) } }

theorem plan_planPut (s : State) (r : List Byte) (y : Plan) : (s.planPut r y).plan y.tkey = some y := by
  have hno : (s.upd.plans.filter (fun z => z.tkey != y.tkey)).find? (fun z => z.tkey == y.tkey) = none := by
    refine List.find?_eq_none.mpr fun z hz => ?_
    have := (List.mem_filter.mp hz).2
    simpa using this
  show (s.upd.plans.filter (fun z => z.tkey != y.tkey) ++ [y]).find? (fun z => z.tkey == y.tkey) = some y
  rw [List.find?_append, hno, List.find?_singleton, beq_self_eq_true, if_pos rfl]
  rfl

theorem installPlan_eq {r : List Byte} {job ldr : Nat} {slot : Option Nat} (hown : s.self ∈ upOwners r)
    (hk : s.slotOfKey (upTkey r) = some k) : ∃ l : List Packet, installPlan s r job ldr slot =
      some (l.foldl injectPkt (s.planPut r (s.newPlan r job ldr slot))) := by
  obtain ⟨m, hm⟩ := foldl_injects (fun u (w : Writer) => ctlPacket 12 w.die u.self 192 192 w.epoch (1 + 2 ^ 32 * upTkey r))
    (s.planPut r (s.newPlan r job ldr slot)) (s.newPlan r job ldr slot).writers
  refine ⟨m, ?_⟩
  unfold installPlan
  rw [if_neg (by simp [hown]), hk]
  exact congrArg some hm

theorem injectPkts_upd (s : State) (l : List Packet) : (l.foldl injectPkt s).upd = s.upd :=
  List.foldlRecOn (motive := fun u : State => u.upd = s.upd) _ _ rfl fun _ hu _ _ => hu

/-- A stream of one record that names this die as an owner installs its plan. -/
theorem installOp_installs {l : List Packet} {r : List Byte} (h1 : q.typ = 14) (h2 : q.tfb 8 2 = 3)
    (hok : streamOk (q :: l) = true)
    (hrec : installRecords ((streamBody (q :: l)).length / 16) (streamBody (q :: l)) = [(3, r)])
    (hown : s.self ∈ upOwners r) (hk : s.slotOfKey (upTkey r) = some k) :
    (∃ y, (installOp s (q :: l)).plan (upTkey r) = some y ∧ y.gtag = upGtag r ∧ y.jobId = q.tfb 10 4 ∧
      y.leader = q.srcDie ∧ y.slot = none ∧ y.writers.map (·.die) = upWriters r ∧ y.owners = upOwners r) ∧
    (installOp s (q :: l)).jobs = s.jobs ∧ (installOp s (q :: l)).hbm = s.hbm ∧ (installOp s (q :: l)).plots = s.plots := by
  obtain ⟨y, htake⟩ := takeStream_eq s (q :: l)
  have hself : (takeStream s (q :: l)).freeNext.self = s.self := by
    rw [htake]
    rfl
  have hkey : (takeStream s (q :: l)).freeNext.slotOfKey (upTkey r) = some k := by
    rw [htake]
    exact hk
  obtain ⟨m, hplan⟩ := installPlan_eq (job := q.tfb 10 4) (ldr := q.srcDie) (slot := none) (by rwa [hself]) hkey
  have hop : installOp s (q :: l) = sendAck (m.foldl injectPkt ((takeStream s (q :: l)).freeNext.planPut r
      ((takeStream s (q :: l)).freeNext.newPlan r (q.tfb 10 4) q.srcDie none))) q false false 1 := by
    unfold installOp
    dsimp only
    rw [if_neg (by simp [h1, h2]), hok, if_neg (by decide), hrec]
    simp only [installAll, hplan]
    rfl
  have hpart {α : Type} (v : State → α) (hv : ∀ u : State, v u.offUndo = v u) (hv' : ∀ (u : State) b, v (u.planPut r b) = v u)
      (ht : v (takeStream s (q :: l)).freeNext = v s) : v (installOp s (q :: l)) = v s := by
    rw [hop]
    exact (((injectAll_undoes _ m).injectPkt _).part v hv).trans ((hv' _ _).trans ht)
  have hput := plan_planPut (takeStream s (q :: l)).freeNext r
    ((takeStream s (q :: l)).freeNext.newPlan r (q.tfb 10 4) q.srcDie none)
  refine ⟨⟨(takeStream s (q :: l)).freeNext.newPlan r (q.tfb 10 4) q.srcDie none, ?_, rfl, rfl, rfl, rfl, ?_, rfl⟩, ?_, ?_, ?_⟩
  · rw [hop]
    show List.find? _ (sendAck _ q false false 1).upd.plans = _
    rw [show (sendAck (m.foldl injectPkt _) q false false 1).upd = _ from injectPkts_upd _ m]
    exact hput
  · exact (List.map_map).trans (List.map_id' _)
  · exact hpart State.jobs (fun _ => rfl) (fun _ _ => rfl) (by rw [htake]; rfl)
  · exact hpart State.hbm (fun _ => rfl) (fun _ _ => rfl) (by rw [htake]; rfl)
  · exact hpart State.plots (fun _ => rfl) (fun _ _ => rfl) (by rw [htake]; rfl)

end

end Sys2Proof.Machine
end

/-! ## Preparing and running a start (R209, R288) -/

section
namespace Sys2Proof.Machine

section
variable {a s t : State} {f g i j k p w c : Nat} {x : Start} {b : List Byte}

/-! ### What preparing leaves alone -/

/-- A state without what preparing a start changes: what halting changes, the transfers under way, the Row Cache. -/
def State.startView (s : State) : State := { s.jobView with flights := [], rwc := {} }

/-- `s` is `a` after steps that show in that view nowhere. -/
def Starts (P : Nat → Prop) (a s : State) : Prop := Spares State.startView P a s

section
variable {P Q : Nat → Prop}

theorem Starts.refl (s : State) : Starts P s s := Spares.refl _ _ s

theorem Starts.wr (h : Starts P a s) {f : Field} {i : List Nat} (v : Nat) (hk : ¬ P (f.key i)) : Starts P a (s.wr f i v) :=
  Spares.wr h f i v rfl hk

theorem Starts.foldl {α : Type} {g : State → α → State} {l : List α} (h : Starts P a s)
    (hg : ∀ s x, x ∈ l → Starts P a s → Starts P a (g s x)) : Starts P a (l.foldl g s) := Spares.foldl g l hg h

theorem Starts.mono (h : Starts P a s) (hq : ∀ k, Q k → P k) : Starts Q a s := ⟨h.view, h.regs.mono hq⟩

theorem Starts.part {α : Type} (h : Starts P s t) (v : State → α) (hv : ∀ u : State, v u.startView = v u) : v t = v s := by
  rw [← hv t, h.view, hv s]

theorem Works.starts (h : Works P a s) : Starts P a s := ⟨h.part State.startView fun _ => rfl, h.regs⟩

theorem Starts.works (h : Starts P a s) (g : Works P s t) : Starts P a t := h.trans g.starts

end

/-- Writing a register that shows other things. -/
theorem Starts.plain (h : Starts coreKey a s) {f : Field} {i : List Nat} (v : Nat) (hp : plainAddr (f.addr i))
    (hl : f.lo < 128 := by decide) : Starts coreKey a (s.wr f i v) := h.wr v (not_coreKey hl hp)

theorem Starts.setPlot (h : Starts coreKey a s) (p : Nat) (y : Plot) : Starts coreKey a (s.setPlot p y) := Spares.set h rfl rfl

theorem Starts.setFlights (h : Starts coreKey a s) (y : List Flight) : Starts coreKey a { s with flights := y } := Spares.set h rfl rfl

theorem Starts.setQslot (h : Starts coreKey a s) (g : Nat) (y : QSlot) : Starts coreKey a (s.setQslot g y) := Spares.set h rfl rfl

/-! ### Contexts -/

/-- Keys of what places a context: its STATE and its PC. -/
def entryKey (p c k : Nat) : Prop := k = Reg.RKE_CTX_STATE.key [p, c] ∨ k = Reg.RKE_CTX_PC.key [p, c]

theorem entryKey_contextKey (hp : p < 16) (hc : c < 4) (h : entryKey p c k) : contextKey k := by
  obtain rfl | rfl := h
  · exact contextKey_field hp hc rfl rfl (by decide)
  · exact contextKey_field hp hc rfl rfl (by decide)

theorem entryKey_ne {q d : Nat} (hc : c < 4) (hd : d < 4) (hne : q ≠ p ∨ d ≠ c) (h : entryKey q d k) : ¬ entryKey p c k := by
  simp only [entryKey, Reg.RKE_CTX_STATE, Reg.RKE_CTX_PC, Field.key, Field.addr, dotIdx] at h ⊢
  omega

/-- A context stands HALTED at the entry point that a bundle gives it. -/
def State.atEntry (s : State) (b : List Byte) (p c : Nat) : Prop :=
  s.ctxState p c = 0 ∧ ∀ e, entryPoint b p c = some e → s.rd Reg.RKE_CTX_PC [p, c] = e % 4096

theorem atEntry_congr {P : Nat → Prop} (h : SameOn P s t) (hk : ∀ k, entryKey p c k → P k) (he : s.atEntry b p c) :
    t.atEntry b p c :=
  ⟨(h _ _ (hk _ (.inl rfl))).trans he.1, fun e hn => (h _ _ (hk _ (.inr rfl))).trans (he.2 e hn)⟩

/-- Keys kept when a context is placed. -/
def offEntry (p c k : Nat) : Prop := coreKey k ∧ ¬ entryKey p c k

/-- A context's descriptor set, signals and tile counter cleared. -/
def State.ctxCleared (s : State) (p c : Nat) : State :=
  let s := dropSet s (.rkeDt (Fin.ofNat 16 p) (Fin.ofNat 4 c))
  let s := (List.range 64).foldl (fun s i => s.wr Reg.RKE_DT_WORD.mirror [p, c, i] 0) s
  let s := (List.range 8).foldl (fun s k => s.wr Reg.RKE_SIG_COUNT [p, c, k] 0) s
  s.wr Reg.RKE_TILES_ORDINAL [p, c] 0

theorem ctxCleared_starts (s : State) (p : Nat) (hc : c < 4) : Starts coreKey s (s.ctxCleared p c) := by
  unfold State.ctxCleared
  extract_lets s1 s2 s3
  have h1 : Starts coreKey s s1 := ((Works.refl s).dropSet (plainAddr_dtCommit _ _)).starts.mono coreKey_keptKey
  have h2 : Starts coreKey s s2 := h1.foldl fun u i hi h => h.plain 0 (by
    have := List.mem_range.mp hi
    simp only [plainAddr, Field.mirror, Reg.RKE_DT_WORD, Field.addr, dotIdx]
    omega)
  have h3 : Starts coreKey s s3 := h2.foldl fun u i hi h => h.plain 0 (by
    have := List.mem_range.mp hi
    simp only [plainAddr, Reg.RKE_SIG_COUNT, Field.addr, dotIdx]
    omega)
  exact h3.plain 0 (by
    simp only [plainAddr, Reg.RKE_TILES_ORDINAL, Field.addr, dotIdx]
    omega)

/-- A context of a state with PC at its entry point and STATE HALTED, its bookkeeping new. -/
def State.ctxPlaced (s : State) (p c e : Nat) : State :=
  let s := s.wr Reg.RKE_CTX_PC [p, c] e
  let s := { s with graft := { s.graft with rx := FMap.erase s.graft.rx (4 * p + c) } }
  (s.setCtx p c { coef := (s.ctx p c).coef }).wr Reg.RKE_CTX_STATE [p, c] 0

theorem startCtx_eq (s : State) (p c e : Nat) : startCtx s p c e = showCtx ((s.ctxCleared p c).ctxPlaced p c e) p c := rfl

theorem ctxPlaced_places (s : State) (p c e : Nat) : Starts (offEntry p c) s (s.ctxPlaced p c e) ∧
    (s.ctxPlaced p c e).ctxState p c = 0 ∧ (s.ctxPlaced p c e).rd Reg.RKE_CTX_PC [p, c] = e % 4096 := by
  have hne : Reg.RKE_CTX_PC.key [p, c] ≠ Reg.RKE_CTX_STATE.key [p, c] := by
    simp only [Reg.RKE_CTX_STATE, Reg.RKE_CTX_PC, Field.key]
    omega
  unfold State.ctxPlaced
  extract_lets s1 y s2
  have h1 : Starts (offEntry p c) s s1 := (Starts.refl s).wr e fun hk => hk.2 (.inr rfl)
  have hpc : s1.rd Reg.RKE_CTX_PC [p, c] = e % 4096 := rd_wr_self _ _ _ _
  clear_value s1
  have h2 : Starts (offEntry p c) s s2 := Spares.set h1 rfl rfl
  have hpc2 : s2.rd Reg.RKE_CTX_PC [p, c] = e % 4096 := hpc
  clear_value s2
  have h3 : Starts (offEntry p c) s (s2.setCtx p c { coef := (s2.ctx p c).coef }) := Spares.set h2 rfl rfl
  exact ⟨h3.wr 0 fun hk => hk.2 (.inl rfl), rd_wr_self _ _ _ _, (rd_wr_ne _ _ hne).trans hpc2⟩

/-- A placed context stands at its entry point; everything else stays. -/
theorem startCtx_places (s : State) (hp : p < 16) (hc : c < 4) (e : Nat) : Starts (offEntry p c) s (startCtx s p c e) ∧
    (startCtx s p c e).ctxState p c = 0 ∧ (startCtx s p c e).rd Reg.RKE_CTX_PC [p, c] = e % 4096 := by
  have hclear := (ctxCleared_starts s p hc).mono (Q := offEntry p c) fun _ hk => hk.1
  obtain ⟨hplace, hst, hpc⟩ := ctxPlaced_places (s.ctxCleared p c) p c e
  rw [startCtx_eq]
  generalize (s.ctxCleared p c).ctxPlaced p c e = u at hplace hst hpc ⊢
  have hshow : Works keptKey u (showCtx u p c) := (Works.refl u).showCtx_dead hc (ctxLive_zero hst)
  have hkept {k : Nat} (hk : entryKey p c k) : keptKey k := .inr (.inr (.inl (entryKey_contextKey hp hc hk)))
  exact ⟨hclear.trans (hplace.works (hshow.mono fun _ hk => coreKey_keptKey _ hk.1)),
    (hshow.regs _ _ (hkept (.inl rfl))).trans hst, (hshow.regs _ _ (hkept (.inr rfl))).trans hpc⟩

/-! ### Plots -/

/-- A plot's weight planes without keys. -/
def Plot.noKeys (x : Plot) : Plot :=
  { x with arr := { x.arr with cur := { x.arr.cur with key := none }, shadow := { x.arr.shadow with key := none } } }

/-- A plot's tags and counters as a start sets them. -/
def State.plotZeroed (s : State) (b : List Byte) (seed p : Nat) : State :=
  let s := match (layouts b).find? (fun r => fieldAt r 0 1 == p) with
    | some r => startTags s p r
    | none => s
  let s := numClearOp s p ((namedCtxs b p).foldl (fun m c => m + 2 ^ c) 0)
  let s := (List.range 3).foldl (fun s i => s.wr Reg.STO_CONFLICT_COUNT [p, i] 0) s
  let s := (List.range 64).foldl (fun s k => s.wr Reg.STO_BANKCONF_COUNT [p, k] 0) s
  (s.wr Reg.PLT_SR_SEED_SEED [p] seed).wr Reg.PLT_SR_DIE_DIE [p] s.self

/-- A plot before its contexts are placed. -/
def State.plotReady (s : State) (b : List Byte) (seed p : Nat) : State :=
  let s := s.plotZeroed b seed p
  let s := showArray (s.setPlot p (s.plot p).noKeys) p 0 false
  { s with flights := s.flights.filter (fun f => f.ctx / 4 != p) }

theorem startPlot_eq (s : State) (b : List Byte) (seed p : Nat) : startPlot s b seed p =
    (namedCtxs b p).foldl (fun s c => startCtx s p c ((entryPoint b p c).getD 0)) (s.plotReady b seed p) := rfl

/-- Registers of a plot that lie beside its contexts. -/
theorem Starts.plotReg (h : Starts coreKey a s) {f : Field} (p v : Nat) (hs : f.strides = [131072] := by rfl)
    (hb : 0x400000 ≤ f.base ∧ f.base < 0x404800 := by decide) (hl : f.lo < 128 := by decide) :
    Starts coreKey a (s.wr f [p] v) :=
  h.plain v (by
    simp only [plainAddr, Field.addr, hs, dotIdx]
    omega) hl

/-- The same for arrays of `n` registers. -/
theorem Starts.plotArray (h : Starts coreKey a s) {f : Field} (p v n : Nat) (hk : k < n)
    (hs : f.strides = [131072, f.strides.getD 1 0] := by rfl)
    (hb : 0x400000 ≤ f.base ∧ (f.base + f.strides.getD 1 0 * n < 0x404800 ∨
      0x404820 ≤ f.base ∧ f.base + f.strides.getD 1 0 * n < 0x409000) := by decide)
    (hl : f.lo < 128 := by decide) : Starts coreKey a (s.wr f [p, k] v) :=
  have hle : f.strides.getD 1 0 * k ≤ f.strides.getD 1 0 * n := Nat.mul_le_mul_left _ hk.le
  have haddr : f.addr [p, k] = f.base + (131072 * p + f.strides.getD 1 0 * k) := by
    rw [Field.addr, hs]
    rfl
  h.plain v (by
    rw [plainAddr, haddr]
    omega) hl

protected theorem Starts.numClearOp (h : Starts coreKey a s) (p mask : Nat) : Starts coreKey a (numClearOp s p mask) := by
  refine h.foldl fun u c hc h => Spares.ite ?_ h
  have hc := List.mem_range.mp hc
  have hnum := ((h.plotArray (f := Reg.PLT_NUM_SAT) p 0 4 hc).plotArray (f := Reg.PLT_NUM_OVF) p 0 4 hc).plotArray
    (f := Reg.PLT_NUM_NAN_LOSS) p 0 4 hc
  exact ((hnum.plotArray (f := Reg.PLT_FLUSH_FLUSH_IN) p 0 4 hc).plotArray (f := Reg.PLT_FLUSH_FLUSH_OUT) p 0 4 hc).plotReg p _

protected theorem Starts.startTags (h : Starts coreKey a s) (p : Nat) (r : List Byte) : Starts coreKey a (startTags s p r) :=
  h.setPlot p _

protected theorem Starts.showArray (h : Starts coreKey a s) (p cls : Nat) (fast : Bool) : Starts coreKey a (showArray s p cls fast) :=
  h.works (((Works.refl s).showArray p cls fast).mono coreKey_keptKey)

protected theorem Starts.plotZeroed (h : Starts coreKey a s) (b : List Byte) (seed p : Nat) :
    Starts coreKey a (s.plotZeroed b seed p) := by
  unfold State.plotZeroed
  extract_lets s1 s2 s3 s4
  have h1 : Starts coreKey a s1 := by
    unfold s1
    split
    · exact h.startTags p _
    · exact h
  have h3 : Starts coreKey a s3 := (h1.numClearOp p _).foldl fun _ i hi h => h.plotArray p 0 3 (List.mem_range.mp hi)
  have h4 : Starts coreKey a s4 := h3.foldl fun _ i hi h => h.plotArray p 0 64 (List.mem_range.mp hi)
  exact (h4.plotReg p seed).plotReg p _

protected theorem Starts.plotReady (h : Starts coreKey a s) (b : List Byte) (seed p : Nat) :
    Starts coreKey a (s.plotReady b seed p) :=
  (((h.plotZeroed b seed p).setPlot p _).showArray p 0 false).setFlights _

/-- Keys kept when a plot is prepared. -/
def offPlot (p k : Nat) : Prop := coreKey k ∧ ∀ c < 4, ¬ entryKey p c k

theorem namedCtxs_lt (h : c ∈ namedCtxs b p) : c < 4 := List.mem_range.mp (List.mem_filter.mp h).1

/-- A prepared plot: each context that the bundle names stands at its entry point. -/
theorem startPlot_places (s : State) (b : List Byte) (seed : Nat) (hp : p < 16) : Starts (offPlot p) s (startPlot s b seed p) ∧
    ∀ c ∈ namedCtxs b p, (startPlot s b seed p).atEntry b p c := by
  have hready := ((Starts.refl s).plotReady b seed p).mono (Q := offPlot p) fun _ hk => hk.1
  rw [startPlot_eq]
  generalize s.plotReady b seed p = u at hready ⊢
  refine ⟨hready.foldl fun v c hc h => h.trans ((startCtx_places v hp (namedCtxs_lt hc) _).1.mono fun k hk =>
    ⟨hk.1, hk.2 c (namedCtxs_lt hc)⟩), fun c hc => ?_⟩
  refine foldl_reaches (Q := fun v : State => v.atEntry b p c) (fun v => ?_) (fun v d hd hne hv => ?_) u (.inl hc)
  · obtain ⟨-, hst, hpc⟩ := startCtx_places v hp (namedCtxs_lt hc) ((entryPoint b p c).getD 0)
    exact ⟨hst, fun e he => hpc.trans (by rw [he, Option.getD_some])⟩
  · exact atEntry_congr (startCtx_places v hp (namedCtxs_lt hd) _).1.regs (fun k hk =>
      ⟨.inr (.inl (entryKey_contextKey hp (namedCtxs_lt hc) hk)),
        entryKey_ne (namedCtxs_lt hd) (namedCtxs_lt hc) (.inr (Ne.symm hne)) hk⟩) hv

/-- Keys kept when a job's plots are prepared. -/
def offContext (k : Nat) : Prop := coreKey k ∧ ¬ contextKey k

theorem startPlots_place {l : List Nat} (hl : ∀ p ∈ l, p < 16) (s : State) (b : List Byte) (seed : Nat) :
    Starts offContext s (l.foldl (fun s p => startPlot s b seed p) s) ∧
    ∀ p ∈ l, ∀ c ∈ namedCtxs b p, (l.foldl (fun s p => startPlot s b seed p) s).atEntry b p c := by
  refine ⟨Starts.foldl (.refl s) fun u p hp h => h.trans ((startPlot_places u b seed (hl p hp)).1.mono fun k hk =>
    ⟨hk.1, fun c hc he => hk.2 (entryKey_contextKey (hl p hp) hc he)⟩), fun p hp c hc => ?_⟩
  refine foldl_reaches (Q := fun v : State => v.atEntry b p c) (fun v => (startPlot_places v b seed (hl p hp)).2 c hc)
    (fun v q hq hne hv => ?_) s (.inl hp)
  exact atEntry_congr (startPlot_places v b seed (hl q hq)).1.regs (fun k hk =>
    ⟨.inr (.inl (entryKey_contextKey (hl p hp) (namedCtxs_lt hc) hk)),
      fun d hd => entryKey_ne hd (namedCtxs_lt hc) (.inl (Ne.symm hne)) hk⟩) hv

/-! ### Windows, counters and slots -/

protected theorem Starts.startWindow (h : Starts coreKey a s) (r : List Byte) : Starts coreKey a (startWindow s r) := by
  have hw : fieldAt r 1 1 < 256 := fieldAt_lt r 1 1
  unfold startWindow
  extract_lets p w i base rows st s1 s2 s3 s4 s5 s6
  have h1 : Starts coreKey a s1 := h.plotArray p _ 256 hw
  have h2 : Starts coreKey a s2 := (h1.plotArray p 0 256 hw).plotArray p 0 256 hw
  have h3 : Starts coreKey a s3 := h2.plotArray p 0 256 hw
  have h4 : Starts coreKey a s4 := h3.foldl fun _ _ _ h => h.setPlot _ _
  have h5 : Starts coreKey a s5 := ((h4.plotArray p _ 256 hw).plotArray p _ 256 hw).plotArray p _ 256 hw
  have h6 : Starts coreKey a s6 := (h5.plotArray p _ 256 hw).plotArray p _ 256 hw
  exact h6.plotArray p 1 256 hw

protected theorem Starts.startCounter (h : Starts coreKey a s) (r : List Byte) : Starts coreKey a (startCounter s r) := by
  have hw : fieldAt r 1 1 < 256 := fieldAt_lt r 1 1
  unfold startCounter
  extract_lets i s1 s2 s3
  have h1 : Starts coreKey a s1 := (h.plotArray _ _ 256 hw).plotArray _ _ 256 hw
  have h2 : Starts coreKey a s2 := (h1.plotArray _ _ 256 hw).plotArray _ _ 256 hw
  have h3 : Starts coreKey a s3 := ((h2.plotArray _ _ 256 hw).plotArray _ _ 256 hw).plotArray _ _ 256 hw
  exact (h3.plotArray _ _ 256 hw).plotArray _ _ 256 hw

/-- Registers of a detector slot. -/
theorem Starts.slotReg (h : Starts coreKey a s) (hg : g < 16) {f : Field} (v : Nat) (hs : f.strides = [f.strides.getD 0 0] := by rfl)
    (hb : 0x300 ≤ f.base ∧ f.base + f.strides.getD 0 0 * 16 < 0x4800 := by decide) (hl : f.lo < 128 := by decide) :
    Starts coreKey a (s.wr f [g] v) :=
  have hle : f.strides.getD 0 0 * g ≤ f.strides.getD 0 0 * 16 := Nat.mul_le_mul_left _ hg.le
  have haddr : f.addr [g] = f.base + f.strides.getD 0 0 * g := by
    rw [Field.addr, hs]
    rfl
  h.plain v (by
    rw [plainAddr, haddr]
    omega) hl

protected theorem Starts.qdArmOp (h : Starts coreKey a s) (hg : g < 16) (v : Nat) : Starts coreKey a (qdArmOp s g v) := by
  unfold qdArmOp
  extract_lets s1 s2 s3 s4 s5
  have h1 : Starts coreKey a s1 := (h.slotReg hg _).slotReg hg _
  clear_value s1
  have h2 : Starts coreKey a s2 := (h1.slotReg hg _).slotReg hg _
  clear_value s2
  have h3 : Starts coreKey a s3 := (h2.slotReg hg _).slotReg hg _
  clear_value s3
  have h4 : Starts coreKey a s4 := (h3.slotReg hg _).slotReg hg _
  clear_value s4
  have h5 : Starts coreKey a s5 := (h4.slotReg hg _).slotReg hg _
  clear_value s5
  exact Spares.ite h (((h5.slotReg hg _).slotReg hg _).setQslot g {})

/-- A slot's die set and window before it is armed. -/
def State.slotReady (s : State) (g : Nat) (r : List Byte) : State :=
  ((List.range 8).foldl (fun s w => s.wr Reg.TOP_QD_DIES_MASK [g, w] (fieldAt r (16 + 4 * w) 4)) s).wr
    Reg.TOP_QD_WIN_WIN_US [g] (max 1 (fieldAt r 6 2))

protected theorem Starts.slotReady (h : Starts coreKey a s) (hg : g < 16) (r : List Byte) : Starts coreKey a (s.slotReady g r) := by
  have hdies : Starts coreKey a ((List.range 8).foldl
      (fun s w => s.wr Reg.TOP_QD_DIES_MASK [g, w] (fieldAt r (16 + 4 * w) 4)) s) := h.foldl fun u w hw h => h.plain _ (by
    have := List.mem_range.mp hw
    simp only [plainAddr, Reg.TOP_QD_DIES_MASK, Field.addr, dotIdx]
    omega)
  exact hdies.slotReg hg _

/-- A record of a group changes of the jobs no more than the groups of one. -/
theorem startGroup_groups (s : State) (j : Nat) (r : List Byte) : ∃ u l, Starts coreKey s u ∧ (startGroup s j r = u ∨
    startGroup s j r = u.setJob j { u.job j with groups := l }) := by
  unfold startGroup
  split
  · exact ⟨s, [], .refl s, .inl rfl⟩
  · split
    · exact ⟨s, [], .refl s, .inl rfl⟩
    · next g hg =>
      have hg : g < 16 := List.mem_range.mp (List.mem_of_find?_eq_some hg)
      extract_lets s1 s2 feed s3 y s4
      have h2 : Starts coreKey s s2 := (Starts.refl s).slotReady hg r
      clear_value s2
      have h3 : Starts coreKey s s3 := h2.qdArmOp hg _
      clear_value s3
      exact ⟨s4, _, Spares.set h3 rfl rfl, .inr rfl⟩

/-! ### Step 1 as a whole -/

/-- A state without jobs and what preparing a start changes. -/
def State.prepView (s : State) : State := { s.startView with jobs := [] }

/-- `s` is `a` after preparing job `j` up to its groups and the step counts at its start. -/
structure Prepares (P : Nat → Prop) (j : Nat) (a s : State) : Prop where
  spares : Spares State.prepView P a s
  job : ∃ l m, s.job j = { a.job j with groups := l, steps0 := m }

section
variable {P : Nat → Prop}

theorem Prepares.starts (h : Prepares P j a s) (g : Starts P s t) : Prepares P j a t := by
  have hview : t.prepView = s.prepView := g.part State.prepView fun _ => rfl
  obtain ⟨l, m, hjob⟩ := h.job
  exact ⟨h.spares.trans ⟨hview, g.regs⟩, l, m, (g.part (fun u => u.job j) fun _ => rfl).trans hjob⟩

theorem Prepares.refl (P : Nat → Prop) (j : Nat) (s : State) : Prepares P j s s := ⟨.refl _ _ s, _, _, rfl⟩

theorem Prepares.setJob (h : Prepares P j a s) (l : List Nat) (m : FMap Nat) :
    Prepares P j a (s.setJob j { s.job j with groups := l, steps0 := m }) := by
  obtain ⟨l', m', hjob⟩ := h.job
  exact ⟨Spares.set h.spares rfl rfl, l, m, (job_setJob_self _ _ _).trans (by rw [hjob])⟩

theorem Prepares.part {α : Type} (h : Prepares P j s t) (v : State → α) (hv : ∀ u : State, v u.prepView = v u) : v t = v s := by
  rw [← hv t, h.spares.view, hv s]

end

theorem Prepares.startGroup (h : Prepares coreKey j a s) (r : List Byte) : Prepares coreKey j a (startGroup s j r) := by
  obtain ⟨u, l, hu, heq | heq⟩ := startGroup_groups s j r
  · rw [heq]
    exact h.starts hu
  · rw [heq]
    exact (h.starts hu).setJob l (u.job j).steps0

/-- A bundle without GRAFT and UPDATE records installs nothing. -/
theorem installOwn_of_no_records (hg : graftRecords (s.job j).bundle = []) (hu : updateRecords (s.job j).bundle = []) :
    installOwn s j = some s := by
  unfold installOwn
  dsimp only
  rw [hg, hu]
  rfl

theorem prepareStart_prepares (hg : graftRecords (s.job j).bundle = []) (hu : updateRecords (s.job j).bundle = []) (seed : Nat) :
    ∃ u, prepareStart s j seed = (u, true) ∧ Prepares offContext j s u ∧
      ∀ p ∈ (s.job j).plotList, ∀ c ∈ namedCtxs (s.job j).bundle p, u.atEntry (s.job j).bundle p c := by
  obtain ⟨hplots, hentry⟩ := startPlots_place (l := (s.job j).plotList) (fun _ => plotList_lt) s (s.job j).bundle seed
  unfold prepareStart
  extract_lets y b s1 s2 s3 s4 steps z s5
  have hrest : Prepares coreKey j s1 s5 := by
    have h2 : Starts coreKey s1 s2 := Starts.foldl (.refl s1) fun _ r _ h => h.startWindow r
    have h3 : Starts coreKey s1 s3 := h2.foldl fun _ r _ h => h.startCounter r
    have h4 : Prepares coreKey j s1 s4 := List.foldlRecOn (motive := fun u : State => Prepares coreKey j s1 u) _ _
      ((Prepares.refl coreKey j s1).starts h3) fun _ h r _ => h.startGroup r
    exact h4.setJob (s4.job j).groups steps
  have hjob : s1.job j = s.job j := hplots.part (fun u => u.job j) fun _ => rfl
  have hall : Prepares offContext j s s5 := by
    obtain ⟨l, m, hj⟩ := hrest.job
    have h1 := (Prepares.refl offContext j s).starts hplots
    exact ⟨h1.spares.trans ⟨hrest.spares.view, hrest.spares.regs.mono fun _ hk => hk.1⟩, l, m, hj.trans (by rw [hjob])⟩
  have hown : installOwn s5 j = some s5 := by
    obtain ⟨l, m, hj⟩ := hall.job
    exact installOwn_of_no_records (by rw [hj]; exact hg) (by rw [hj]; exact hu)
  rw [hown]
  refine ⟨s5, rfl, hall, fun p hp c hc => ?_⟩
  exact atEntry_congr hrest.spares.regs (fun k hk => .inr (.inl (entryKey_contextKey (plotList_lt hp) (namedCtxs_lt hc) hk)))
    (hentry p hp c hc)

end

end Sys2Proof.Machine
end

/-! ## JOB_START and the messages of the start sequence (R209, R210, R288, R637) -/

section
namespace Sys2Proof.Machine

section
variable {a s t : State} {f g i j k p c : Nat} {x : Start} {q : Packet} {b : List Byte}

/-! ### Contexts that start to run -/

/-- A context that stands HALTED runs. -/
def runCtx (s : State) (p c : Nat) : State := if s.ctxState p c = 0 then s.wr Reg.RKE_CTX_STATE [p, c] 1 else s

/-- The contexts that a bundle names on some plots run. -/
def State.ctxsRun (s : State) (b : List Byte) (l : List Nat) : State :=
  l.foldl (fun s p => (namedCtxs b p).foldl (fun s c => runCtx s p c) s) s

theorem runCtx_self (s : State) (p c : Nat) : (runCtx s p c).ctxState p c = if s.ctxState p c = 0 then 1 else s.ctxState p c := by
  unfold runCtx
  split
  · exact rd_wr_self _ _ _ _
  · rfl

theorem runCtx_ne (s : State) {d r : Nat} (hc : c < 4) (hd : d < 4) (h : r ≠ p ∨ d ≠ c) :
    (runCtx s p c).ctxState r d = s.ctxState r d := by
  unfold runCtx
  split
  · exact rd_wr_ne _ _ (ctxState_key_ne hc hd h)
  · rfl

/-- Keys of everything but the lowest fields of registers, where STATE stands. -/
def offLowest (k : Nat) : Prop := k % 128 ≠ 0

theorem ctxsRun_spares (s : State) (b : List Byte) (l : List Nat) : Spares State.rest offLowest s (s.ctxsRun b l) := by
  have hrun (u : State) (p c : Nat) : Spares State.rest offLowest u (runCtx u p c) :=
    .ite ((Spares.refl _ _ u).wr _ _ _ rfl (by simp only [offLowest, Reg.RKE_CTX_STATE, Field.key]; omega)) (.refl _ _ u)
  exact Spares.foldl _ _ (fun _ _ _ h => Spares.foldl _ _ (fun _ _ _ h => h.trans (hrun _ _ _)) h) (.refl _ _ s)

/-- Every named context that stood HALTED runs. -/
theorem ctxsRun_runs {l : List Nat} (hp : p ∈ l) (hc : c ∈ namedCtxs b p) (h0 : s.ctxState p c = 0) :
    (s.ctxsRun b l).ctxState p c = 1 := by
  have hlt := namedCtxs_lt hc
  have hstep {d r : Nat} (u : State) (hd : d < 4) : (runCtx u r d).ctxState p c = u.ctxState p c ∨
      (runCtx u r d).ctxState p c = if u.ctxState p c = 0 then 1 else u.ctxState p c := by
    by_cases he : p = r ∧ c = d
    · rw [← he.1, ← he.2]
      exact .inr (runCtx_self u p c)
    · exact .inl (runCtx_ne u hd hlt (by omega))
  have hbound : (s.ctxsRun b l).ctxState p c ≤ 1 :=
    List.foldlRecOn (motive := fun u : State => u.ctxState p c ≤ 1) _ _ (by omega) fun u hu r _ =>
      List.foldlRecOn (motive := fun u : State => u.ctxState p c ≤ 1) _ _ hu fun v hv d hd => by
        have := hstep (r := r) v (namedCtxs_lt hd)
        split at this <;> omega
  have hkeep {r : Nat} (u : State) (hu : u.ctxState p c ≠ 0) :
      ((namedCtxs b r).foldl (fun s c => runCtx s r c) u).ctxState p c ≠ 0 :=
    List.foldlRecOn (motive := fun u : State => u.ctxState p c ≠ 0) _ _ hu fun v hv d hd => by
      have := hstep (r := r) v (namedCtxs_lt hd)
      rw [if_neg hv, or_self] at this
      omega
  have hself (u : State) : ((namedCtxs b p).foldl (fun s c => runCtx s p c) u).ctxState p c ≠ 0 := by
    refine foldl_reaches (Q := fun u : State => u.ctxState p c ≠ 0) (fun u => ?_) (fun u d hd hne hu => ?_) u (.inl hc)
    · rw [runCtx_self]
      split <;> omega
    · rwa [runCtx_ne u (namedCtxs_lt hd) hlt (.inr (Ne.symm hne))]
  have hreach : (s.ctxsRun b l).ctxState p c ≠ 0 :=
    foldl_reaches (g := fun u r => (namedCtxs b r).foldl (fun s c => runCtx s r c) u)
      (Q := fun u : State => u.ctxState p c ≠ 0) hself (fun u r _ _ hu => hkeep u hu) s (.inl hp)
  omega

/-! ### Step 5 on this die -/

/-- The credits of a bundle's windows granted. -/
def State.granted (s : State) (b : List Byte) : State :=
  (records b 5 16).foldl (fun s r => grantWindow s (fieldAt r 0 1) (fieldAt r 1 1)) s

theorem granted_undoes (s : State) (b : List Byte) : Undoes keptKey s (s.granted b) :=
  Undoes.foldl (.refl s) fun _ _ _ h => h.injectPkt _

theorem now_keptKey : keptKey (Reg.TOP_TIMEBASE_COUNT.key []) := .inr (.inl (by unfold dieKey; decide))

/-- A job that runs since a time. -/
def Job.running (y : Job) (now : Nat) : Job := { y with start := none, state := 1, changedAt := now }

/-- A job that runs, with its command answered, before its contexts do. -/
def State.goPosted (s : State) (j : Nat) (x : Start) : State :=
  let u := s.granted (s.job j).bundle
  (u.setJob j ((s.job j).running u.now)).finish x.func x.slot .ok (leBytes 8 u.now)

/-- What running a prepared job leaves. -/
structure JobGoes (s u : State) (j : Nat) (x : Start) : Prop where
  job : u.job j = (s.job j).running s.now
  ctxs : ∀ p c, p ∈ (s.job j).plotList → c ∈ namedCtxs (s.job j).bundle p → u.ctxState p c = 1
  pcs : ∀ p c, p ∈ (s.job j).plotList → c < 4 → u.rd Reg.RKE_CTX_PC [p, c] = s.rd Reg.RKE_CTX_PC [p, c]
  answer : ∀ d, s.cmd? x.func x.slot = some d → u.resultOf x.func x.slot = some (0, leBytes 8 s.now)
  hbm : u.hbm = s.hbm

theorem goPosted_rd (s : State) (j : Nat) (x : Start) (f : Field) (i : List Nat) (h : keptKey (f.key i)) :
    (s.goPosted j x).rd f i = s.rd f i :=
  (rd_congr (State.noCmds_part (finish_noCmds _ _ _ _ _) State.regs fun _ => rfl) f i).trans ((granted_undoes s _).regs _ _ h)

section
variable (hx : (s.job j).start = some x)
  (h0 : ∀ p ∈ (s.job j).plotList, ∀ c ∈ namedCtxs (s.job j).bundle p, s.ctxState p c = 0)
  (hn : ∃ p, p ∈ (s.job j).plotList ∧ namedCtxs (s.job j).bundle p ≠ [])
include hx h0 hn

/-- No named context is FAULTED and some context is named, so the job goes on. -/
theorem goHere_eq : goHere s j = (s.goPosted j x).ctxsRun (s.job j).bundle (s.job j).plotList := by
  have hfault : (s.job j).plotList.any (fun p => (namedCtxs (s.job j).bundle p).any
      (fun c => (s.goPosted j x).ctxState p c == 3)) = false := by
    refine List.any_eq_false.mpr fun p hp => ?_
    rw [Bool.not_eq_true]
    refine List.any_eq_false.mpr fun c hc => ?_
    have hst : (s.goPosted j x).ctxState p c = 0 := (goPosted_rd s j x _ _
      (coreKey_keptKey _ (coreKey_ctxState (plotList_lt hp) (namedCtxs_lt hc)))).trans (h0 p hp c hc)
    rw [hst]
    decide
  have hsome : (s.job j).plotList.all (fun p => (namedCtxs (s.job j).bundle p).isEmpty) = false := by
    obtain ⟨p, hp, hne⟩ := hn
    exact List.all_eq_false.mpr ⟨p, hp, by simp [hne]⟩
  unfold goHere
  dsimp only
  rw [hx]
  exact (if_neg (by rw [Bool.not_eq_true]; exact hfault)).trans (if_neg (by rw [Bool.not_eq_true]; exact hsome))

theorem goHere_goes : JobGoes s (goHere s j) j x := by
  have hgrant := granted_undoes s (s.job j).bundle
  have hnow : (s.granted (s.job j).bundle).now = s.now := hgrant.regs _ _ now_keptKey
  have hrd := goPosted_rd s j x
  rw [goHere_eq hx h0 hn]
  have hpost : (s.goPosted j x).noCmds = ((s.granted (s.job j).bundle).setJob j ((s.job j).running s.now)).noCmds := by
    rw [State.goPosted, hnow]
    exact finish_noCmds _ _ _ _ _
  have hanswer : ∀ d, s.cmd? x.func x.slot = some d →
      (s.goPosted j x).resultOf x.func x.slot = some (0, leBytes 8 s.now) := fun d hd => by
    rw [State.goPosted, hnow]
    exact (finish_answers (s := (s.granted (s.job j).bundle).setJob j ((s.job j).running s.now))
      ((hgrant.part (fun u => u.cmd? x.func x.slot) fun _ => rfl).trans hd) .ok _).result
  generalize s.goPosted j x = u at hrd hpost hanswer ⊢
  have hrun := ctxsRun_spares u (s.job j).bundle (s.job j).plotList
  have hpart {α : Type} (v : State → α) (hv : ∀ w : State, v w.rest = v w) :
      v (u.ctxsRun (s.job j).bundle (s.job j).plotList) = v u := by rw [← hv, hrun.view, hv u]
  refine ⟨?_, fun p c hp hc => ?_, fun p c hp hc => ?_, fun d hd => ?_, ?_⟩
  · exact (hpart (fun w => w.job j) fun _ => rfl).trans ((State.noCmds_part hpost (fun w => w.job j) fun _ => rfl).trans
      (job_setJob_self _ _ _))
  · exact ctxsRun_runs hp hc ((hrd _ _ (coreKey_keptKey _ (coreKey_ctxState (plotList_lt hp) (namedCtxs_lt hc)))).trans (h0 p hp c hc))
  · have hkey : coreKey (Reg.RKE_CTX_PC.key [p, c]) := .inr (.inl (entryKey_contextKey (plotList_lt hp) hc (.inr rfl)))
    have hoff : offLowest (Reg.RKE_CTX_PC.key [p, c]) := by
      simp only [offLowest, Reg.RKE_CTX_PC, Field.key]
      omega
    exact (hrun.regs _ _ hoff).trans (hrd _ _ (coreKey_keptKey _ hkey))
  · exact (hpart (fun w => w.resultOf x.func x.slot) fun _ => rfl).trans (hanswer d hd)
  · exact (hpart State.hbm fun _ => rfl).trans ((State.noCmds_part hpost State.hbm fun _ => rfl).trans
      (hgrant.part State.hbm fun _ => rfl))

end

/-! ### Steps 2 to 4 -/

theorem tryGo_alone (hx : (s.job j).start = some x) (hl : s.leads (s.job j).bundle = true)
    (ho : ∀ d ∈ runDies (s.job j).bundle, d = s.self) (ht : x.targets = []) : tryGo s j = goHere s j := by
  have hnone : (runDies (s.job j).bundle).filter (fun d => d != s.self) = [] :=
    List.filter_eq_nil_iff.mpr fun d hd => by simp [ho d hd]
  unfold tryGo
  dsimp only
  rw [hx]
  dsimp only
  rw [hnone, ht, hl]
  rfl

/-- A start that waits for a die. -/
theorem tryGo_waits {d : Nat} (hx : (s.job j).start = some x) (hd : d ∈ runDies (s.job j).bundle) (hne : d ≠ s.self)
    (hready : d ∉ x.ready) : tryGo s j = s := by
  have hnot : ((runDies (s.job j).bundle).filter (fun d => d != s.self)).all x.ready.contains = false :=
    List.all_eq_false.mpr ⟨d, List.mem_filter.mpr ⟨hd, by simpa using hne⟩, by simpa using hready⟩
  unfold tryGo
  dsimp only
  rw [hx]
  dsimp only
  rw [hnot, Bool.and_false, Bool.false_and]
  rfl

/-- The start that a command begins. -/
def State.newStart (s : State) (cmd : Cmd) : Start :=
  { func := cmd.func, slot := cmd.slot, tag := cmd.fld 10 2, tmo := msCounts (if cmd.fld 12 2 = 0 then 1000 else cmd.fld 12 2),
    at' := s.now }

/-- A job whose start a command has begun. -/
def State.startBegun (s : State) (cmd : Cmd) (j : Nat) : State :=
  running (s.setJob j { s.job j with start := some (s.newStart cmd), groups := [] }) cmd

theorem startBegun_job (s : State) (cmd : Cmd) (j : Nat) :
    (s.startBegun cmd j).job j = { s.job j with start := some (s.newStart cmd), groups := [] } := job_setJob_self _ _ _

theorem outsideDies_none (hg : graftRecords b = []) (hu : updateRecords b = []) : outsideDies b = [] := by
  unfold outsideDies
  rw [hg, hu]
  exact List.filter_eq_nil_iff.mpr fun _ _ => Bool.false_ne_true

theorem self_prepares {P : Nat → Prop} (h : Prepares P j s t) (hp : ∀ k, selfKey k → P k) : t.self = s.self := by
  have hrouted : t.link.routed = s.link.routed := h.part (fun u => u.link.routed) fun _ => rfl
  have hid : t.link.dieId = s.link.dieId := h.part (fun u => u.link.dieId) fun _ => rfl
  have hhdr : t.rtHdr 0 4 = s.rtHdr 0 4 := by
    unfold State.rtHdr State.rdA
    rw [h.spares.regs _ _ (hp _ (by unfold selfKey; decide))]
  rw [State.self, hrouted, hid, hhdr, State.self]

theorem offContext_now : offContext (Reg.TOP_TIMEBASE_COUNT.key []) :=
  ⟨.inl (by unfold dieKey; decide), by unfold contextKey; decide⟩

theorem offContext_selfKey (k : Nat) (h : selfKey k) : offContext k := by
  refine ⟨.inr (.inr h), ?_⟩
  simp only [selfKey, contextKey] at h ⊢
  omega

section
variable {cmd : Cmd} (hg : graftRecords (s.job j).bundle = []) (hu : updateRecords (s.job j).bundle = [])
include hg hu

/-- A start that prepares its job, then goes on as its leader or waits for one. -/
theorem beginStart_prepares : ∃ u, Prepares offContext j (s.startBegun cmd j) u ∧
    (∀ p ∈ (s.job j).plotList, ∀ c ∈ namedCtxs (s.job j).bundle p, u.atEntry (s.job j).bundle p c) ∧
    beginStart s cmd j = if s.leads (s.job j).bundle then tryGo u j
      else injectPkt u (u.startPacket 5 (leader (s.job j).bundle) (jobId (s.job j).bundle) (cmd.fld 10 2)) := by
  have hjob := startBegun_job s cmd j
  have htargets : (if s.leads (s.job j).bundle then outsideDies (s.job j).bundle else []) = [] := by
    rw [outsideDies_none hg hu, ite_self]
  obtain ⟨u, heq, hprep, hentry⟩ := prepareStart_prepares (s := s.startBegun cmd j) (j := j) (by rw [hjob]; exact hg)
    (by rw [hjob]; exact hu) (cmd.fld 16 8)
  rw [hjob] at hentry
  have hlead : u.leads (s.job j).bundle = s.leads (s.job j).bundle := by
    rw [State.leads, self_prepares hprep offContext_selfKey]
    rfl
  refine ⟨u, hprep, hentry, ?_⟩
  unfold beginStart
  dsimp only
  rw [htargets, ← State.newStart, ← State.startBegun, heq]
  dsimp only
  rw [hlead]
  rfl

end

/-- The job and the command once a start is prepared. -/
theorem prepared_shows {u : State} {cmd : Cmd} (hc : s.cmd? f i = some cmd) (h : Prepares offContext j (s.startBegun cmd j) u) :
    (∃ l m, u.job j = { s.job j with start := some (s.newStart cmd), groups := l, steps0 := m }) ∧
    u.cmd? f i = some { cmd with started := true } ∧ u.now = s.now ∧ u.self = s.self ∧ u.hbm = s.hbm := by
  obtain ⟨l, m, hjob⟩ := h.job
  refine ⟨⟨l, m, hjob.trans (by rw [startBegun_job])⟩, ?_, ?_, ?_, ?_⟩
  · exact (h.part (fun w => w.cmd? f i) fun _ => rfl).trans (running_cmd? (s := s.setJob j _) hc)
  · exact (h.spares.regs _ _ offContext_now).trans (rd_congr rfl _ _)
  · exact (self_prepares h offContext_selfKey).trans rfl
  · exact (h.part State.hbm fun _ => rfl).trans rfl

theorem namedCtxs_some {e : Nat} (hc : c < 4) (h : entryPoint b p c = some e) : c ∈ namedCtxs b p :=
  List.mem_filter.mpr ⟨List.mem_range.mpr hc, by rw [h]; rfl⟩

/-- A die that leads alone runs the job at once. -/
theorem beginStart_runs {cmd : Cmd} (hc : s.cmd? f i = some cmd) (hg : graftRecords (s.job j).bundle = [])
    (hu : updateRecords (s.job j).bundle = []) (hla : s.LeadsAlone j) : JobRuns s (beginStart s cmd j) j ∧
      (beginStart s cmd j).resultOf f i = some (0, leBytes 8 s.now) ∧ (beginStart s cmd j).hbm = s.hbm := by
  obtain ⟨u, hprep, hentry, heq⟩ := beginStart_prepares (cmd := cmd) hg hu
  obtain ⟨⟨l, m, hjob⟩, hcmd, hnow, hself, hhbm⟩ := prepared_shows hc hprep
  obtain ⟨hf, hi⟩ := cmd?_place hc
  have hbundle : (u.job j).bundle = (s.job j).bundle := by rw [hjob]
  have hplots : (u.job j).plotList = (s.job j).plotList := by
    rw [hjob]
    rfl
  have hstart : (u.job j).start = some (s.newStart cmd) := by rw [hjob]
  have hleads : u.leads (s.job j).bundle = true := by
    rw [State.leads, hself]
    exact hla.leads
  have htry : beginStart s cmd j = goHere u j := by
    rw [heq, if_pos hla.leads]
    exact tryGo_alone hstart (by rw [hbundle]; exact hleads) (by rw [hbundle, hself]; exact hla.alone) rfl
  have hgo := goHere_goes hstart (by rw [hbundle, hplots]; exact fun p hp c hc => (hentry p hp c hc).1)
    (by rw [hbundle, hplots]; exact hla.named)
  have hgone := hgo.job
  rw [htry]
  refine ⟨⟨?_, ?_, fun p c e hp hc he => ⟨?_, ?_⟩⟩, ?_, hgo.hbm.trans hhbm⟩
  · rw [hgone, hnow]
    exact ⟨rfl, rfl, rfl⟩
  · rw [hgone, hjob]
    exact ⟨rfl, rfl⟩
  · exact hgo.ctxs p c (hplots ▸ hp) (hbundle ▸ namedCtxs_some hc he)
  · exact (hgo.pcs p c (hplots ▸ hp) hc).trans ((hentry p hp c (namedCtxs_some hc he)).2 e he)
  · have hanswer := hgo.answer { cmd with started := true }
    rw [hnow] at hanswer
    rw [← hf, ← hi] at hcmd ⊢
    exact hanswer hcmd

/-- A die that does not lead tells the leader that it is ready, and waits. -/
theorem beginStart_waits {cmd : Cmd} (hc : s.cmd? f i = some cmd) (hg : graftRecords (s.job j).bundle = [])
    (hu : updateRecords (s.job j).bundle = []) (hl : s.leads (s.job j).bundle = false) :
    ((beginStart s cmd j).job j).start = some (s.newStart cmd) ∧ ((beginStart s cmd j).job j).state = (s.job j).state ∧
    (beginStart s cmd j).cmd? f i = some { cmd with started := true } ∧
    (∃ q, q ∈ (beginStart s cmd j).link.routeQ ∧ q.pkt.typ = 14 ∧ q.pkt.tfb 8 2 = 5 ∧
      q.pkt.dstDie = leader (s.job j).bundle) ∧ (beginStart s cmd j).hbm = s.hbm := by
  obtain ⟨u, hprep, -, heq⟩ := beginStart_prepares (cmd := cmd) hg hu
  obtain ⟨⟨l, m, hjob⟩, hcmd, -, -, hhbm⟩ := prepared_shows hc hprep
  rw [heq, hl, if_neg Bool.false_ne_true]
  have hsent : ∀ y : Packet, (injectPkt u y).job j = u.job j := fun _ => rfl
  refine ⟨?_, ?_, hcmd, ⟨_, List.mem_append_right _ (List.mem_singleton.mpr rfl), rfl, ?_, rfl⟩, hhbm⟩
  · rw [hsent, hjob]
  · rw [hsent, hjob]
  · simp only [State.startPacket, ctlPacket, Packet.tfb, bitsOf]
    omega

/-! ### JOB_START and JOB_START_HOLD_EXPIRY -/

section
variable {cmd : Cmd} {buf : HostBuf} (h : Startable s f i 0x202 cmd) (hno : cmd.fld 32 4 = 0) (hok : cmd.fld 36 1 ≤ 1)
include h hno hok

theorem jobStartOp_noJob (hj : s.jobNamed f (cmd.fld 8 2) = none) :
    Answers s (jobStartOp s f i buf) f i .noJob (failBody 8 0 (cmd.fld 8 2)) := by
  refine acs_fail h ?_
  dsimp only
  rw [if_pos hno, if_neg (Nat.not_lt.mpr hok)]
  exact withJob_none h.place.1 hj _

theorem jobStartOp_job (hj : s.jobNamed f (cmd.fld 8 2) = some j) : jobStartOp s f i buf =
    if (s.job j).state ≠ 0 ∨ (s.job j).start.isSome then fail s cmd .jobState 8 0 (s.job j).state
    else if s.startHeld j then running s cmd
    else beginStart s cmd j := by
  unfold jobStartOp
  rw [acs_starts h]
  dsimp only
  rw [if_pos hno, if_neg (Nat.not_lt.mpr hok), withJob_some h.place.1 hj]

end

section
variable {cmd : Cmd} (hc : s.cmd? f i = some cmd) (ho : cmd.opcode = 0x202) (hst : cmd.started = true) (hr : cmd.result = none)
  (hup : s.coreUp = true) (hfw : s.fwRuns = true)
include hc ho hst hr hup hfw

theorem holdExpiryOp_noJob (hj : s.jobNamed f (cmd.fld 8 2) = none) :
    Answers s (holdExpiryOp s f i) f i .noJob (failBody 8 0 (cmd.fld 8 2)) := by
  have hop : holdExpiryOp s f i = fail s cmd .noJob 8 0 (cmd.fld 8 2) := by
    unfold holdExpiryOp
    rw [hc]
    dsimp only
    rw [if_neg (by simp [ho, hst, hr, hup, hfw]), hj]
  rw [hop]
  exact fail_answers hc _ _ _ _

theorem holdExpiryOp_job (hj : s.jobNamed f (cmd.fld 8 2) = some j) (hn : (s.job j).start = none) : holdExpiryOp s f i =
    if (s.job j).state ≠ 0 then fail s cmd .jobState 8 0 (s.job j).state
    else if s.startHeld j then s
    else beginStart s cmd j := by
  unfold holdExpiryOp
  rw [hc]
  dsimp only
  rw [if_neg (by simp [ho, hst, hr, hup, hfw]), hj]
  dsimp only
  rw [hn]

end

/-! ### Messages -/

section
variable (hup : s.coreUp = true) (ht : q.typ = 14)
include hup ht

theorem exec_ready (hk : q.tfb 8 2 = 5) : exec (.ready q) s = nextQ (readyOp (takeInbox s q) q) := by
  have hin : (takeInbox s q).coreUp = true := hup
  exact congrArg nextQ (if_pos (by rw [hin, ht, hk]; rfl))

theorem exec_go (hk : q.tfb 8 2 = 6) : exec (.go q) s = nextQ (goOp (takeInbox s q) q) := by
  have hin : (takeInbox s q).coreUp = true := hup
  exact congrArg nextQ (if_pos (by rw [hin, ht, hk]; rfl))

theorem exec_startAbort (hk : q.tfb 8 2 = 7) : exec (.startAbort q) s = nextQ (startAbortOp (takeInbox s q) q) := by
  have hin : (takeInbox s q).coreUp = true := hup
  exact congrArg nextQ (if_pos (by rw [hin, ht, hk]; rfl))

end

theorem startNamed_takeInbox (s : State) (q : Packet) : (takeInbox s q).startNamed q = s.startNamed q := rfl

/-- A job with one READY more. -/
def State.readyNoted (s : State) (q : Packet) (j : Nat) (x : Start) : State :=
  (takeInbox s q).setJob j { s.job j with start := some { x with ready := q.srcDie :: x.ready } }

theorem readyOp_notes (hx : s.startNamed q = some (j, x)) (hl : s.leads (s.job j).bundle = true)
    (hq : q.srcDie ∈ runDies (s.job j).bundle)
    (hd : ∃ d, d ∈ runDies (s.job j).bundle ∧ d ≠ s.self ∧ d ≠ q.srcDie ∧ d ∉ x.ready) :
    readyOp (takeInbox s q) q = s.readyNoted q j x := by
  obtain ⟨d, hrun, hself, hsrc, hready⟩ := hd
  have hjob : (s.readyNoted q j x).job j = { s.job j with start := some { x with ready := q.srcDie :: x.ready } } :=
    job_setJob_self _ _ _
  have hcond : (takeInbox s q).leads ((takeInbox s q).job j).bundle = true ∧
      (runDies ((takeInbox s q).job j).bundle).contains q.srcDie = true :=
    ⟨hl, List.contains_iff_mem.mpr hq⟩
  have hwait : tryGo (s.readyNoted q j x) j = s.readyNoted q j x :=
    tryGo_waits (by rw [hjob]) (by rw [hjob]; exact hrun) hself (List.not_mem_cons_of_ne_of_not_mem hsrc hready)
  unfold readyOp
  rw [startNamed_takeInbox, hx]
  exact (if_pos hcond).trans hwait

theorem goOp_goes (hx : s.startNamed q = some (j, x)) (hq : q.srcDie = leader (s.job j).bundle) :
    goOp (takeInbox s q) q = goHere (takeInbox s q) j := by
  unfold goOp
  rw [startNamed_takeInbox, hx]
  exact if_pos hq

theorem startAbortOp_named (hx : s.startNamed q = some (j, x)) :
    startAbortOp (takeInbox s q) q = abandonStart (takeInbox s q) j .dieSet q.srcDie := by
  unfold startAbortOp
  rw [startNamed_takeInbox, hx]

theorem startAbortOp_unnamed (hx : s.startNamed q = none) :
    startAbortOp (takeInbox s q) q = dropInstalled (takeInbox s q) (q.tfb 10 4) q.srcDie := by
  unfold startAbortOp
  rw [startNamed_takeInbox, hx]

/-! ### START_TIMEOUT -/

theorem startTimeoutOp_none (h : (s.job j).start = none) : startTimeoutOp s j = s := by
  unfold startTimeoutOp
  rw [h]

theorem startTimeoutOp_some (h : (s.job j).start = some x) : startTimeoutOp s j =
    if x.at' + x.tmo ≤ s.now then abandonStart s j .dieSet (s.missingDie (s.job j).bundle x) else s := by
  unfold startTimeoutOp
  rw [h]

theorem installOp_other {l : List Packet} (h : q.typ ≠ 14 ∨ q.tfb 8 2 ≠ 3) : installOp s (q :: l) = s := if_pos h

theorem exec_install {l : List Packet} (hup : s.coreUp = true) : exec (.install l) s = nextQ (installOp s l) :=
  congrArg nextQ (if_pos hup)

end

/-- Settles O31: a start prepares contexts that later steps leave alone, and an abandoned one closes its windows last. -/
theorem startingJobs : Obligations.StartingJobs := by
  intro s
  refine ⟨fun f i c buf h hno hok => ⟨fun hj => ?noJob, fun j hj => ⟨fun h0 => ?state, fun h0 hn => ⟨fun hh => ?held,
      fun hh hg hu => ⟨fun hla => ?alone, fun hl => ?follows⟩⟩⟩⟩,
    fun f i c hc ho hst hr hup hfw => ⟨fun hj => ?expiryNoJob, fun j hj hn => ⟨fun h0 => ?expiryState,
      fun h0 hh => ?expiryHeld, fun h0 hh hg hu hla => ?expiryAlone⟩⟩,
    fun q j x hup ht hx => ⟨fun hk hl hq hd => ?ready, fun hk hq h0 hn => ?go, fun hk => ?aborted⟩,
    fun q hup ht hk hx hne => ?unnamed,
    fun j => ⟨fun hn => ?noStart, fun x hx => ⟨fun hlt => ?early, fun hle => ?late⟩⟩,
    fun q l => ⟨fun hup hx => ?notInstall, fun r k hup ht hk hok hrec hown hkey => ?installs⟩⟩
  case noJob => exact nextQ_shows rfl (jobStartOp_noJob h hno hok hj)
  case state =>
    have hop := (jobStartOp_job (buf := buf) h hno hok hj).trans (if_pos (.inl h0))
    exact nextQ_shows (congrArg nextQ hop) (fail_answers h.fetched _ _ _ _)
  case held =>
    have hop := (jobStartOp_job (buf := buf) h hno hok hj).trans ((if_neg (by simp [h0, hn])).trans (if_pos hh))
    exact nextQ_shows (congrArg nextQ hop) ⟨running_cmd? h.fetched, rfl⟩
  case alone =>
    have hop := (jobStartOp_job (buf := buf) h hno hok hj).trans ((if_neg (by simp [h0, hn])).trans (if_neg (by simp [hh])))
    exact nextQ_shows (congrArg nextQ hop) (beginStart_runs h.fetched hg hu hla)
  case follows =>
    have hop := (jobStartOp_job (buf := buf) h hno hok hj).trans ((if_neg (by simp [h0, hn])).trans (if_neg (by simp [hh])))
    obtain ⟨hstart, hstate, hrest⟩ := beginStart_waits h.fetched hg hu hl
    obtain ⟨hf, hi⟩ := h.place
    have hnew : s.newStart c = ⟨f, i, c.fld 10 2, msCounts (if c.fld 12 2 = 0 then 1000 else c.fld 12 2), s.now, [], [], []⟩ := by
      rw [State.newStart, hf, hi]
    exact nextQ_shows (congrArg nextQ hop) ⟨hstart.trans (congrArg some hnew), hstate.trans h0, hrest⟩
  case expiryNoJob => exact nextQ_shows rfl (holdExpiryOp_noJob hc ho hst hr hup hfw hj)
  case expiryState =>
    have hop := (holdExpiryOp_job hc ho hst hr hup hfw hj hn).trans (if_pos h0)
    exact nextQ_shows (congrArg nextQ hop) (fail_answers hc _ _ _ _)
  case expiryHeld =>
    have hop := (holdExpiryOp_job hc ho hst hr hup hfw hj hn).trans ((if_neg (not_not.mpr h0)).trans (if_pos hh))
    exact nextQ_reaches (congrArg nextQ hop)
  case expiryAlone =>
    have hop := (holdExpiryOp_job hc ho hst hr hup hfw hj hn).trans ((if_neg (not_not.mpr h0)).trans (if_neg (by simp [hh])))
    exact nextQ_shows (congrArg nextQ hop) (beginStart_runs hc hg hu hla)
  case ready =>
    have hop := (exec_ready hup ht hk).trans (congrArg nextQ (readyOp_notes hx hl hq hd))
    have hjob : (s.readyNoted q j x).job j = { s.job j with start := some { x with ready := q.srcDie :: x.ready } } :=
      job_setJob_self _ _ _
    exact nextQ_shows hop ⟨by rw [hjob], by rw [hjob], rfl, rfl, rfl⟩
  case go =>
    have hop := (exec_go hup ht hk).trans (congrArg nextQ (goOp_goes hx hq))
    have hgo := goHere_goes (s := takeInbox s q) (startNamed_some hx) (fun p hp c hc => h0 p c hp (namedCtxs_lt hc)) hn
    have hjob := hgo.job
    exact nextQ_shows hop ⟨by rw [hjob]; rfl, by rw [hjob]; rfl, hgo.ctxs, hgo.answer, hgo.hbm⟩
  case aborted =>
    have hop := (exec_startAbort hup ht hk).trans (congrArg nextQ (startAbortOp_named hx))
    have hgone := abandonStart_abandons (s := takeInbox s q) (startNamed_some hx) .dieSet q.srcDie
    obtain ⟨hstart, hgroups, hstate⟩ := hgone.job
    exact nextQ_shows hop ⟨hstart, hgroups, hstate, hgone.windows, hgone.answer, hgone.hbm⟩
  case unnamed =>
    have hop := (exec_startAbort hup ht hk).trans (congrArg nextQ (startAbortOp_unnamed hx))
    exact nextQ_shows hop (dropInstalled_drops (s := takeInbox s q) hne (q.tfb 10 4))
  case noStart => exact nextQ_reaches (congrArg nextQ (startTimeoutOp_none hn))
  case early => exact nextQ_reaches (congrArg nextQ ((startTimeoutOp_some hx).trans (if_neg (Nat.not_le.mpr hlt))))
  case late =>
    have hop := (startTimeoutOp_some hx).trans (if_pos hle)
    have hgone := abandonStart_abandons hx .dieSet (s.missingDie (s.job j).bundle x)
    obtain ⟨hstart, hgroups, -⟩ := hgone.job
    exact nextQ_shows (congrArg nextQ hop) ⟨hstart, hgroups, hgone.answer, hgone.hbm⟩
  case notInstall => exact nextQ_reaches ((exec_install hup).trans (congrArg nextQ (installOp_other hx)))
  case installs => exact nextQ_shows (exec_install hup) (installOp_installs ht hk hok hrec hown hkey)

end Sys2Proof.Machine
end
